-- ==== Sys2Proof/Word.lean ====
section
/-! DEFINITION. The word types of the CTL4896: register words, line vectors and timebase values. -/
namespace Sys2Proof

/-- A register word (R394: every register is 32 bits wide). -/
abbrev Word := BitVec 32

/-- One bit per data line of an intake, or per gate line: bit m is line m. -/
abbrev Lines := BitVec 48

/-- A timebase value in ticks (R169). -/
abbrev Tb := BitVec 64

/-- A byte of a tank or of the cistern. -/
abbrev Byte := BitVec 8

end Sys2Proof
end

