-- ==== Sys2Proof/Syntax.lean ====
section
/-! DEFINITION. The commands of the CTL4896: one constructor of Instr per row of spec/opcode_table.json, and the
types of their operands. -/
namespace Sys2Proof

/-- The ports by which an access arrives (R399). -/
inductive Port where
  | host | mgmt | fa | fb | tap
  deriving DecidableEq, Repr

/-- The code of a port (R399). -/
def Port.code : Port → Nat
  | .host => 0 | .mgmt => 1 | .fa => 2 | .fb => 3 | .tap => 4

/-- What the error-correcting code found in a word that was read (R294, R322). -/
inductive Ecc where
  | good | single | double
  deriving DecidableEq, Repr

/-- The 16 pin voltages of one data line in one sample cycle, in units of 0.1 mV, tick 0 first (R45). -/
structure LinePins where
  intake : Fin 48
  line : Fin 48
  volts : List Int
  deriving DecidableEq, Repr

/-- The 16 pin voltages of one clock input's P and N pins in one sample cycle, in units of 0.1 mV (R51). -/
structure ClockPins where
  intake : Fin 48
  ck : Fin 2
  p : List Int
  n : List Int
  deriving DecidableEq, Repr

/-- The levels that the target drives on one gate line in one sample cycle, tick k in bit k (R189). -/
structure GatePins where
  line : Fin 48
  levels : BitVec 16
  deriving DecidableEq, Repr

/-- The pins in one sample cycle. A data line or clock pin not listed is at 0 V (R35); a gate line not listed is not driven from outside. -/
structure Pins where
  lines : List LinePins := []
  clocks : List ClockPins := []
  gates : List GatePins := []
  deriving DecidableEq, Repr

/-- The two flume links of a module (R272). -/
inductive Side where
  | fa | fb
  deriving DecidableEq, Repr

/-- What a forwarded flit carries of its way (R238): the ring position in SRC, and HOPS. -/
structure Trail where
  src : Fin 8
  hops : Fin 8
  deriving DecidableEq, Repr

/-- What a descriptor fetch meets (R348): the bytes that a ring in host memory answers, none where the fetch fails, and what the read of a ring in a tank found. -/
structure FetchReply where
  bytes : Option (List Byte)
  ecc : Ecc
  deriving DecidableEq, Repr

/-- A record of an EV flit that holds one (R254): its origin, the FLUEV bits, the position tick, CYC and HOPS. -/
structure EvRec where
  origin : Fin 8
  bits : Fin 16
  tick : Fin 16
  cyc : Fin 256
  hops : Fin 8
  deriving DecidableEq, Repr

/-- The registers of THRESHOLD_WRITE: THR_A, THR_B or CKTHR of an intake (R38, R41). -/
inductive ThrReg where
  | a | b | ck
  deriving DecidableEq, Repr

/-- The registers of TRIM_WRITE: CTL, the LCFG of a line, or CKTRIM of an intake (R53). -/
inductive TrimReg where
  | ctl
  | lcfg (line : Fin 48)
  | cktrim
  deriving DecidableEq, Repr

/-- The registers of RU_CONFIG_WRITE: STREAM, STATECFG, CKDELAY or the LINE of a line (R82). -/
inductive RuReg where
  | stream | statecfg | ckdelay
  | line (m : Fin 48)
  deriving DecidableEq, Repr

/-- The registers of GATE_LINE_WRITE: LINE, or the SEL or TT word of a gate LUT (R188, R190). -/
inductive GateReg where
  | line (i : Fin 48)
  | sel (k : Fin 16)
  | tt (k : Fin 16)
  deriving DecidableEq, Repr

/-- The other requests that the link can bring (R336): a memory request outside every BAR, an I/O request, a locked read, an AtomicOp, a vendor-defined message.
DESIGN CHOICE: notes/assumptions/58.md. -/
inductive OtherReq where
  | unmapped (write : Bool)
  | io (write : Bool)
  | locked
  | atomicOp
  | vendor0
  | vendor1
  deriving DecidableEq, Repr

/-- A memory request of the host link: a read of `len` bytes, `full` where every byte of its dwords is enabled, or a write, with none for a byte
that is not enabled and a mark for a poisoned one (R342 to R347); or a request of another kind. -/
inductive Request where
  | read (len : Nat) (full : Bool)
  | write (bytes : List (Option Byte)) (poisoned : Bool)
  | other (kind : OtherReq)
  deriving DecidableEq, Repr

/-- The commands, one per row of the table and in its order. -/
inductive Instr where
  | powerOnReset  -- R447
  | supplyLoss  -- R454
  | headraceLock  -- R169
  | tankPowerUpTestDone (fails : List (Fin 64 × List (BitVec 15 × Fin 72)))  -- R329
  | sysReset (port : Port) (key : BitVec 16)  -- R451
  | sysResetComplete  -- R451
  | fundamentalReset (elapsed : Nat)  -- R357
  | perstNDeassert (common : Bool)  -- R340
  | hotReset (elapsed : Nat)  -- R357
  | flr (f : Fin 8)  -- R358
  | functionReady  -- R340
  | headraceSwitchover  -- R18
  | pllRelockAttempt (ok : Bool)  -- R19
  | headraceLost  -- R19
  | headraceResume (pllB : Bool) (elapsed : Nat)  -- R20
  | referenceLost  -- R23
  | referenceRevert  -- R23
  | refselWrite (port : Port) (v : Word)  -- R23
  | thresholdWrite (port : Port) (n : Fin 48) (which : ThrReg) (v : Word)  -- R41
  | thrselWrite (port : Port) (n : Fin 48) (v : Word)  -- R42
  | threshSwap (n : Fin 48)  -- R43
  | discordanceWindowEnd  -- R49
  | xlimitExceeded (n : Fin 48) (line : Fin 48)  -- R49
  | trimWrite (port : Port) (n : Fin 48) (which : TrimReg) (v : Word)  -- R53
  | calGo (port : Port) (n : Fin 48) (v : Word)  -- R54
  | calDone (n : Fin 48)  -- R54
  | calTimeout (n : Fin 48)  -- R54
  | ruConfigWrite (port : Port) (n : Fin 48) (which : RuReg) (v : Word)  -- R82
  | flushWrite (port : Port) (n : Fin 48) (v : Word)  -- R79
  | packFull (n : Fin 48)  -- R78
  | packFlush (n : Fin 48)  -- R79
  | eyeGo (port : Port) (n : Fin 48) (v : Word)  -- R73
  | eyeDone (n : Fin 48)  -- R73
  | eyeTimeout (n : Fin 48)  -- R73
  | widthLongHit (n : Fin 48) (g : Fin 4)  -- R100
  | timeoutExpiry (n : Fin 48) (g : Fin 4)  -- R103
  | gaugeConfigWrite (port : Port) (n : Fin 48) (off : BitVec 10) (v : Word)  -- R113
  | gaugeCounterWrite (port : Port) (n : Fin 48) (g : Fin 4) (high : Bool) (v : Word)  -- R110
  | sluiceStep (ecc : Ecc)  -- R132
  | sluIrq  -- R137
  | levelCounterWrite (port : Port) (ctrB high : Bool) (v : Word)  -- R133
  | tableSwap  -- R141
  | sluiceJump  -- R143
  | event  -- R123
  | setselWrite (port : Port) (v : Word)  -- R141
  | tsetWrite (port : Port) (v : Word)  -- R144
  | setcrcWrite (port : Port) (setB : Bool) (k : Fin 11) (v : Word)  -- R144
  | verifyGo (port : Port) (setB : Bool)  -- R144
  | verifyDone  -- R144
  | crcBackgroundPass  -- R145
  | snapshotGo (port : Port) (named : Bool)  -- R151
  | snapshotTaken  -- R151
  | arm (port : Port)  -- R455
  | armingTakesEffect  -- R139
  | disarm (port : Port)  -- R14
  | tbLoad (port : Port)  -- R171
  | tbWrap  -- R172
  | rotaReadEntry (ecc : Ecc)  -- R179
  | repeaterCopy (r : Fin 7)  -- R183
  | repstop (port : Port) (v : Word)  -- R183
  | rotaResume (port : Port) (v : Word)  -- R185
  | rotaHeadWrite (port : Port) (v : Word)  -- R186
  | rotaArm  -- R184
  | rotaDisarm  -- R17
  | segmentNext  -- R220
  | gateSet  -- R192
  | gateClr  -- R192
  | gatePulse  -- R192
  | gatePulseEnd  -- R192
  | gateCommandTick  -- R192
  | dispFlip (o : Fin 2)  -- R385
  | flumeBcast  -- R254
  | dam  -- R431
  | bankcfgWrite (port : Port) (v : Word)  -- R187
  | gateLineWrite (port : Port) (which : GateReg) (v : Word)  -- R188
  | storeGate  -- R12
  | segmentBoundary  -- R220
  | rearmGapEnd  -- R220
  | postComplete  -- R217
  | postShortFull (n : Fin 48)  -- R217
  | markerPackFlush  -- R208
  | segLockAcq (port : Port) (seg : Fin 256)  -- R223
  | segLockRel (port : Port) (seg : Fin 256)  -- R223
  | markread (port : Port) (seg : Fin 256)  -- R222
  | weirStepDown (n : Fin 48)  -- R226
  | weirStepUp (n : Fin 48)  -- R226
  | packDiscard (n : Fin 48)  -- R229
  | gapEnd (n : Fin 48)  -- R229
  | packToCistern (src : Fin 49)  -- R80
  | writeComplete (pc : Fin 64)  -- R282
  | linkUp (side peer : Side)  -- R242
  | linkDown (side : Side)  -- R242
  | linkRetrain (side : Side)  -- R242
  | helloSend  -- R243
  | hello (side : Side) (id : BitVec 64) (port : Side) (pref : Fin 4) (hostup : Bool) (hostage : BitVec 32) (stackCount : Fin 4) (trail : Trail)  -- R243
  | headElection  -- R244
  | assign (side : Side) (id : BitVec 64) (pos : Fin 8) (up : Bool)  -- R245
  | assignTimeout  -- R245
  | mgtAddressSettle  -- R461
  | linkstate (side : Side) (pos : Fin 8) (port : Side) (up : Bool) (hops : Fin 8) (armed : Bool)  -- R265
  | rediscover (port : Port) (v : Word)  -- R247
  | delayExchange (at_ : Fin 1024)  -- R249
  | dreq (side : Side) (t1 : BitVec 64) (at_ stay : Fin 1024)  -- R249
  | drsp (side : Side) (t1 t2 t3 : BitVec 64) (at_ : Fin 1024)  -- R249
  | syncSend  -- R250
  | sync (side : Side) (tbh : BitVec 64) (corr : BitVec 24) (hops : Fin 8) (mode funnel : Bool) (present : BitVec 8) (at_ stay : Fin 1024)  -- R251
  | ev (side : Side) (recs : List EvRec)  -- R254
  | evriskSpan  -- R258
  | settleFlit (side : Side) (tb : BitVec 64) (cause : BitVec 16) (origin hops : Fin 8)  -- R267
  | damFlit (side : Side) (tb : BitVec 64) (origin : Fin 8) (driver : Bool) (hops : Fin 8)  -- R270
  | releaseFlit (side : Side) (origin hops : Fin 8) (elapsed : Nat)  -- R271
  | cwrGo (port : Port) (v : Word)  -- R260
  | cwr (side : Side) (src dst : Fin 8) (seq : BitVec 16) (off : BitVec 20) (data : Word)  -- R261
  | crd (side : Side) (src dst : Fin 8) (seq : BitVec 16) (off : BitVec 20)  -- R261
  | crsp (side : Side) (src dst : Fin 8) (seq req : BitVec 16) (data : Word) (result : Fin 4)  -- R260
  | cwrTimeout  -- R260
  | hostreq (side : Side) (src dst : Fin 8) (seq : BitVec 16) (type : Fin 4) (tag : BitVec 8) (off : BitVec 40) (len : Nat) (data : Word) (bytes : List Byte)  -- R261
  | dmahdr (side : Side) (src dst : Fin 8) (seq : BitVec 16) (addr : BitVec 64) (drain : Fin 4) (bytes : List Byte)  -- R263
  | cplhdr (side : Side) (src dst : Fin 8) (seq : BitVec 16) (tag : BitVec 8) (status : Fin 4) (bytes : List Byte)  -- R263
  | ack (side : Side) (src dst : Fin 8) (seq : BitVec 16) (nak : Bool)  -- R264
  | resendTimeout (dst : Fin 8)  -- R264
  | modeWrite (port : Port) (v : Word)  -- R259
  | modeset (side : Side) (tb : BitVec 64) (mode : Bool)  -- R259
  | modeChange  -- R259
  | tribLost (f : Fin 8)  -- R365
  | tribRecover (port : Port) (v : Word)  -- R365
  | damNLow  -- R431
  | damAssert (port : Port)  -- R431
  | damStop  -- R433
  | damClockGate  -- R433
  | damRelease (port : Port) (elapsed : Nat)  -- R439
  | damRearm  -- R432
  | imgDataRead (port : Port)  -- R436
  | damscan (dr : BitVec 34)  -- R437
  | damrel (elapsed : Nat)  -- R437
  | settle  -- R421
  | swSettle (port : Port)  -- R450
  | safeRelease (port : Port)  -- R424
  | eventLogEntry  -- R427
  | logLost  -- R427
  | eventLogCopy  -- R428
  | stgHeadWrite (port : Port) (v : Word)  -- R428
  | interruptSend (v : Fin 64)  -- R352
  | pageEvent (page : Fin 256)  -- R404
  | pageIntenWrite (port : Port) (page : Fin 256) (v : Word)  -- R404
  | pageLock (port : Port) (page : Fin 256)  -- R410
  | rcReadClear (addr : BitVec 20)  -- R403
  | lowWordRead (port : Port) (addr : BitVec 20)  -- R405
  | registerScrub (bankB : Bool) (addr : BitVec 20) (bothBad : Bool)  -- R409
  | registerWrite (port : Port) (addr : Word) (v : Word)  -- R4
  | refresh (pc : Fin 64) (bank : Fin 48)  -- R287
  | cisternCommand (pc : Fin 64) (busy : BitVec 48) (ecc : Ecc)  -- R283
  | parityAlert (pc : Fin 64)  -- R290
  | pcRetrainDone (pc : Fin 64) (ok : Bool)  -- R290
  | revive (port : Port) (pc : Fin 64)  -- R293
  | reviveDone (pc : Fin 64) (ok : Bool)  -- R293
  | trainingPass (stack : Fin 2) (pc : Fin 32) (ends applies : Bool)  -- R296
  | opgo (port : Port) (v : Word)  -- R297
  | opChangeDone  -- R298
  | reinit (port : Port) (v : Word)  -- R301
  | cisternReady (phase : Fin 3)  -- R493
  | cbistGo (port : Port) (v : Word)  -- R303
  | cbistElement (ecc : List Ecc) (mismatch : List Bool)  -- R303
  | cbistPassDone  -- R303
  | tankHandoverRequest (port : Port) (n : Fin 64) (v : Word)  -- R318
  | tankHandover (n : Fin 64)  -- R318
  | tankAccess (off : BitVec 24) (req : Request) (ecc : List Ecc) (collides : List Bool)  -- R317
  | retreqWrite (port : Port) (v : Word)  -- R324
  | retentionEnter (g : Fin 8)  -- R324
  | tbistGo (port : Port) (v : Word)  -- R326
  | tbistPhaseDone (bad : List (BitVec 15 × Fin 72))  -- R327
  | configRequest (f : Fin 8) (dw : Fin 1024) (wr : Option (BitVec 4 × Word))  -- R337
  | bar0Request (f : Fin 8) (off : BitVec 20) (req : Request)  -- R340
  | windowRequest (f : Fin 8) (off : BitVec 32) (req : Request)  -- R342
  | winCommit (port : Port) (v : Word)  -- R344
  | drainTailWrite (port : Port) (d : Fin 4) (v : Word)  -- R346
  | descriptorFetch (d : Fin 4) (reply : FetchReply)  -- R348
  | descriptorStart (d : Fin 4)  -- R349
  | descriptorComplete (d : Fin 4) (bad : Bool)  -- R350
  | drainPause (d : Fin 4) (issued : BitVec 32)  -- R355
  | drainResume (port : Port) (v : Word)  -- R356
  | l1Entry  -- R353
  | l1Exit  -- R353
  | d3hotEntry  -- R354
  | surpriseDown  -- R360
  | fatalError  -- R360
  | holdRelease (port : Port)  -- R362
  | vsecRelease  -- R363
  | vsecRdata (f : Fin 8) (wr : Option Word)  -- R363
  | funnelTakesEffect (linked : List (Fin 8))  -- R262
  | dpTrain (o : Fin 2) (wr : Option (Port × Word))  -- R374
  | dpTrainEnd (o : Fin 2) (reached : Option (Fin 4 × Fin 5)) (async : Bool)  -- R374
  | hpdUnplug (o : Fin 2)  -- R375
  | hpdPlug (o : Fin 2)  -- R375
  | hpdIrq (o : Fin 2)  -- R375
  | auxGo (port : Port) (o : Fin 2) (v : Word)  -- R376
  | auxReply (o : Fin 2) (reply : Fin 16) (data : List Byte)  -- R376
  | auxTimeout (o : Fin 2)  -- R376
  | dispEnable (port : Port) (o : Fin 2) (v : Word)  -- R379
  | pageCommitTiming (port : Port) (o : Fin 2)  -- R380
  | pageCommitFrame (port : Port) (o : Fin 2)  -- R380
  | latchPoint (o : Fin 2)  -- R380
  | frameStart (o : Fin 2)  -- R386
  | vsync (o : Fin 2)  -- R387
  | frameFetchStart (o : Fin 2)  -- R385
  | displayFetch (o : Fin 2)  -- R383
  | underrun (o : Fin 2)  -- R384
  | regRead (sent : List Byte)  -- R459
  | regWrite (sent : List Byte) (pec : Bool)  -- R459
  | tankRead (sent : List Byte) (ecc : Ecc)  -- R459
  | tankWrite (sent : List Byte) (pec : Bool) (ecc : Ecc) (collides : Bool)  -- R459
  | mstatus  -- R459
  | fuseProg (port : Port) (key : BitVec 16)  -- R458
  | fuseProgDone (ok : Bool)  -- R458
  | temperatureSample (sensor : Fin 8) (v : BitVec 16)  -- R463
  | supplySample (rail : Fin 12) (mv : BitVec 16)  -- R464
  | sampleCycle (pins : Pins)  -- R88
  | flitCrcFailure (side : Side)  -- R239
  | ackDeadline (src : Fin 8)  -- R264
  | hostLinkL0 (speed width : Nat)  -- R243
  | stackTemperatureReport (stack : Fin 2) (temp : BitVec 8) (mul : Fin 4)  -- R287
  deriving DecidableEq, Repr

end Sys2Proof
end

