-- ==== Sys2Proof/Decode.lean ====
section
/-! DEFINITION. Decoding. The table gives no command any bits: a command is an event at the module's ports and pins, so no word spells one. -/
namespace Sys2Proof

/-- The command that a word of the table's bits spells: none. DESIGN CHOICE: notes/assumptions/26.md. -/
def decodeTableWord (_nbits _w : Nat) : Option Instr := none

end Sys2Proof
end

