-- ==== Sys2Proof/Config.lean ====
section
/-! DEFINITION. Free values: what the spec leaves open and a command still needs. Each is an opaque constant, applied to
the model's own counter (State's field freeCtr) or to the operands it depends on; no proof can see a value of it. -/
namespace Sys2Proof.Config

/-- How far a threshold DAC that moves to a new value gets in one tick: R41 fixes only that it moves monotonically and has arrived after
10 µs. DESIGN CHOICE: a free value, notes/assumptions/12.md. -/
opaque dacMoving : Nat → Nat

/-- The phase in ticks of an intake's internal calibration source (R56 gives its period, not its phase). notes/assumptions/13.md. -/
opaque calPhase : Nat → Nat

/-- A table or tank word read with an uncorrectable error: R145 and R322 give no value. notes/assumptions/14.md. -/
opaque badWord : Nat → Nat

/-- A word of a table tank in which an uncorrectable error stands, as the lookups of one sample cycle read it (R145): by the draw and the word. notes/assumptions/14.md. -/
opaque tableWord : Nat → Nat → Nat

/-- The CODE of a log entry the spec orders without giving its code (R321's collision entry). notes/assumptions/15.md. -/
opaque openCode : Nat → Nat

/-- The level a gate line's input reads when nothing drives it and nothing pulls it (R193), when two drivers disagree, and a filtered level
that later ticks decide (R200). notes/assumptions/16.md. -/
opaque gateLevel : Nat → Bool

/-- The CCLK cycles a gate bank's voltage takes to move: R187 bounds them by 200 µs. notes/assumptions/17.md. -/
opaque vselMove : Nat → Nat

/-- The hop delay in CCLK of a link of the ring between two other modules (R257): no flit carries it here. notes/assumptions/18.md. -/
opaque remoteHopDelay : Nat → Nat → Nat

/-- Whether a tributary is reported as not LOCKED to the head (R259): no flit carries it. notes/assumptions/19.md. -/
opaque tribUnlocked : Nat → Nat → Bool

/-- A word of the frozen image's state chains (R436), whose layout is in a file outside the spec. notes/assumptions/20.md. -/
opaque chainWord : Nat → Nat → Nat

/-- The CCLK cycles a slew of the headrace takes (R23 bounds its speed, not its length). notes/assumptions/21.md. -/
opaque slewTime : Nat → Nat

/-- What the reference inputs show: EXT_SEEN (bit 0) and REFOFFSET (R469). No command carries it. notes/assumptions/22.md. -/
opaque refSeen : Nat → Nat
opaque refOffset : Nat → Nat

/-- A configuration word whose bits the spec does not give (R338 names the capabilities, not every bit of them). notes/assumptions/23.md. -/
opaque cfgWord : Nat → Nat

/-- The CCLK cycles that a retention group takes to wake (R325 bounds them). notes/assumptions/89.md. -/
opaque wakeTime : Nat → Nat

/-- What a queued cistern read finds where the controller works its queues off at once (R294, R301): 0 good, 1 single, 2 double. notes/assumptions/118.md. -/
opaque readEcc : Nat → Nat

/-- The results of a pseudo-channel's training (R295, R296): analogue settings. notes/assumptions/120.md. -/
opaque trainResult : Nat → Nat

/-- The timing sets in the stacks' parameter data (R300), words 0 to 5 for OP0 and 6 to 11 for OP1. notes/assumptions/122.md. -/
opaque stackTiming : Nat → Nat

/-- The reference cycles that pass in a dam which a register write releases: no field of a write carries them. notes/assumptions/25.md. -/
opaque damElapsed : Nat → Nat

end Sys2Proof.Config
end

