-- ==== Sys2Proof/Machine/State.lean ====
section
/-! DEFINITION. The state of the machine, as plain data, its faults and refusals, and the state right after reset. -/
namespace Sys2Proof.Machine

/-- A field of a register: the register's byte address, the field's lowest bit and its width. -/
structure Field where
  addr : Nat
  lo : Nat
  width : Nat
  deriving DecidableEq, Repr

/-- A bit of a page's PAGE_STATUS (or PAGE_COMMIT): the page number and the bit. -/
structure PageBit where
  page : Nat
  bit : Nat
  deriving DecidableEq, Repr

/-- One tick of an intake as its front end delivers it (R46): CL and CH of every line, the swap flag, the clock bits. -/
structure TickCodes where
  cl : Lines := 0
  ch : Lines := 0
  swap : Bool := false
  ck : BitVec 2 := 0
  deriving DecidableEq, Repr

/-- One tick of a reach after deskew and the settle filter (R60, R62): codes, flags, the one-bit view (R63), the clock bits and their flags. -/
structure FTick where
  cl : Lines := 0
  ch : Lines := 0
  flag : Lines := 0
  view : Lines := 0
  ck : BitVec 2 := 0
  ckFlag : BitVec 2 := 0
  deriving DecidableEq, Repr

/-- One judged sample cycle of a reach: its 16 ticks, the ticks of the state edges taken, and for each whether an edge was skipped since the one before (R71). -/
structure Judged where
  ticks : List FTick := []
  edges : List (Nat × Bool) := []
  deriving DecidableEq, Repr

/-- A request for a threshold set to be in force from a tick on, counted from headrace lock: the tick, the set, and whether a THRSEL write made it (R44). -/
structure SetChange where
  tick : Nat
  setB : Bool
  byWrite : Bool
  deriving DecidableEq, Repr

/-- A threshold DAC: the voltage it shows, in 0.1 mV, the code it was written, and the tick of the write (R41). -/
structure Dac where
  shown : Int
  code : Nat
  since : Nat
  deriving DecidableEq, Repr

/-- A timed gauge's measurement (R97 to R107). `len` is the ticks since the measurement's start, `base` its base level for RUNT and
SLEW (true: H), `judgedPrev` says the tick before was judged since the last resume (R98), `silence` is the ticks since t_last (R103). -/
structure TimedGauge where
  active : Bool := false
  len : Nat := 0
  base : Bool := false
  long : Bool := false
  level : Bool := false
  judgedPrev : Bool := false
  silence : Nat := 0
  lastResume : Bool := true
  expired : Bool := false
  longDue : List Tb := []
  expiryDue : List Tb := []
  deriving DecidableEq, Repr

/-- One intake with its reach and gauges: everything of them that no register shows. Of the discordance window at hand, the counts, the faults due and the lines judged over the limit
(R49); of the calibration measurement, the mode, reference input and count it started with (R54). -/
structure Intake where
  volts : List (List LinePins) := []
  ckVolts : List (List ClockPins) := []
  cmpL : Lines := 0
  cmpH : Lines := 0
  cmpCk : BitVec 2 := 0
  setBase : Bool := false
  setChanges : List SetChange := []
  dacs : List Dac := [⟨6000, 1400, 0⟩, ⟨12000, 1800, 0⟩, ⟨6000, 1400, 0⟩, ⟨12000, 1800, 0⟩]
  hist : List TickCodes := []
  xWindow : List (Nat × Nat) := []
  xOver : List (Nat × Tb) := []
  xDone : List Nat := []
  ckRise : List Nat := []
  calRefs : List Nat := []
  calLast : Nat := 0
  calPhase : Nat := 0
  calMode : Nat := 0
  calRef : Nat := 0
  calCount : Nat := 0
  accL : Lines := 0
  accH : Lines := 0
  accCk : BitVec 2 := 0
  view : Lines := 0
  judged : List Judged := []
  edgeAge : Nat := 4
  skipped : Bool := false
  eyeLast : Nat := 0
  effL : Lines := 0
  effH : Lines := 0
  v : Lines := 0
  effCk : BitVec 2 := 0
  sampL : List Lines := [0, 0, 0, 0]
  sampH : List Lines := [0, 0, 0, 0]
  sampV : List Lines := [0, 0, 0, 0]
  timed : List TimedGauge := [{}, {}, {}, {}]
  deriving DecidableEq, Repr

/-- An entry of the event log (R426), with the PCLK cycle in which it was detected (R427). -/
structure LogEntry where
  pclk : Nat
  page : Nat
  cls : Nat
  code : Nat
  data : Word
  tb : Tb
  deriving DecidableEq, Repr

/-- The PAGE_STATUS bits of a page that raised an event in one PCLK cycle, with the TB of the first (R404, R419). -/
structure Raised where
  page : Nat
  pclk : Nat
  bits : Word
  tb : Tb
  deriving DecidableEq, Repr

/-- What the gauges of one reach deliver for one sample cycle (R89, R90): the hit bits of G0 to G7, the position tick and POSVALID. -/
structure GaugeOut where
  hits : BitVec 8 := 0
  pos : Nat := 0
  posValid : Bool := false
  codes : List Nat := []
  deriving DecidableEq, Repr

/-- The confluence's values for one sample cycle (R117, R120, R151). -/
structure ConfOut where
  c1 : List Nat := []
  c2 : List Nat := []
  c3 : List Nat := []
  c4a : Nat := 0
  c4b : Nat := 0
  x : Nat := 0
  e : Nat := 0
  xTick : Nat := 0
  xValid : Bool := false
  deriving DecidableEq, Repr

/-- What the sluice step of a sample cycle ordered at its store gate (R12): the store-enable mask, a TRIGGER marker's position and EXACT with its DATA (R207), a boundary after it. -/
structure Decision where
  storeEn : Lines := 0
  trig : Option (Nat × Bool) := none
  boundary : Bool := false
  trigData : Nat := 0
  deriving DecidableEq, Repr

/-- A sample cycle on its way from the gauges to the store gate: the CCLK cycle in which it was captured, its TB, and what each stage gave. -/
structure PipeEntry where
  phys : Nat
  tb : Tb
  outs : List GaugeOut := []
  codes : Option (List Nat) := none
  conf : Option ConfOut := none
  stepped : Bool := false
  dec : Option Decision := none
  deriving DecidableEq, Repr

/-- The sluice sources of X for one sample cycle (R122). -/
structure Lvx where
  phys : Nat
  a : Bool
  b : Bool
  dwell : Bool
  trigd : Bool
  deriving DecidableEq, Repr

/-- A jump of the level at the step of a sample cycle (R143): a SLUICE_JUMP, or a TABLE_SWAP with LEVEL_EN. -/
structure Jump where
  phys : Nat
  level : Nat
  clrA : Bool
  clrB : Bool
  deriving DecidableEq, Repr

/-- FLUEV bits of the module at a ring position that enter X for a sample cycle, with the tick they carry (R121). -/
structure FluBits where
  phys : Nat
  pos : Nat
  bits : Nat
  tick : Nat
  deriving DecidableEq, Repr

/-- A rota event action on bit `bit` from a sample cycle on (R123): operation 0 PULSE, 1 SET, 2 CLEAR. -/
structure RevAct where
  phys : Nat
  bit : Nat
  op : Nat
  deriving DecidableEq, Repr

/-- The decision path: what the confluence and the sluice keep beside their registers; `irqAt` is the PCLK cycle in which the queue of R137 last passed
an entry; `tbHist` is the TB of the last cycles, newest first. -/
structure Path where
  pipe : List PipeEntry := []
  glut : List (Nat × List (Option Nat)) := []
  lvx : List Lvx := []
  trigd : Bool := false
  jumps : List Jump := []
  rev : BitVec 8 := 0
  revActs : List RevAct := []
  fluX : List FluBits := []
  vsync : List (Nat × Nat × Nat) := []
  irqQueue : List (Nat × Tb × Nat) := []
  irqAt : Option Nat := none
  ctx : List (Nat × Nat) := []
  stepBar : Option Nat := none
  dueCauses : List (Nat × Nat × Nat) := []
  verifying : Option Bool := none
  verifyWaits : Option Bool := none
  snapTarget : Nat := 0
  snapPhys : Option Nat := none
  selAt : Option Nat := none
  swapAt : Option Nat := none
  gauged : Nat := 0
  tbHist : List Tb := []
  deriving DecidableEq, Repr

/-- A gate-line order of a sluice step (R136), for the tick at which its edge appears (R15): operation 1 SET, 2 CLEAR, 3 PULSE. -/
structure GateOrder where
  tick : Tb
  lines : Lines
  op : Nat
  width : Nat
  deriving DecidableEq, Repr

/-- A detected cause of settling (R420): its code, the DATA and the SRCPAGE of its entry. -/
structure Cause where
  code : Nat
  data : Nat
  page : Nat
  deriving DecidableEq, Repr

/-- What the last access got as its answer (R402, R462): data, a completion without data, or an error in its port's own form. -/
inductive Answer where
  | none
  | done
  | word (w : Word)
  | bytes (l : List Byte)
  | completions (l : List (List Byte × Bool))
  | poisoned
  | completerAbort
  | unsupported
  | retry
  | mgmt (status : Nat) (data : Word)
  | mstatus (w : BitVec 16)
  | nack
  | crsp (result : Nat) (data : Word)
  | scanError
  | scan (w : BitVec 34)
  deriving DecidableEq, Repr

/-- How an access of a register ends (R402): normally, or with one of the bus errors. -/
inductive Bus where
  | ok | unimpl | forbidden | parity
  deriving DecidableEq, Repr

/-- The gate unit (R187 to R194): commanded levels, the levels at the start of the coming cycle with the changes ordered in it, pulse ends, the lines that
met commands at the tick being applied, the lines whose LINE register was written, the hold of a dam, banks whose voltage moves, and the input filter. -/
structure GateState where
  level : Lines := 0
  base : Lines := 0
  edges : List (Tb × Lines) := []
  pulses : List (Nat × Tb) := []
  met : Tb × Lines × Lines := (0, 0, 0)
  written : Lines := 0
  damHold : Bool := false
  vselMove : List (Nat × Nat) := []
  hist : List (List Lines) := []
  acc : Lines := 0
  deriving DecidableEq, Repr

/-- An action placed in a queue of the rota (R176, R179): its TB, the TB it acts at (R180), its code, target, argument and action word. -/
structure RotaAct where
  tb : Tb
  eff : Tb
  code : Nat
  target : Nat
  arg : Nat
  word : Nat
  deriving DecidableEq, Repr

/-- An active repeater (R183): its number, its entry, its period, the copies placed, and the copies to come (none: until stopped). -/
structure Repeater where
  slot : Nat
  tb : Tb
  target : Nat
  arg : Nat
  word : Nat
  period : Nat
  k : Nat
  left : Option Nat
  deriving DecidableEq, Repr

/-- The rota: its queues as one list in the order of R182, its repeaters, the reference TB (R181), and the cycle in which it last read an entry (R179). -/
structure RotaState where
  queue : List RotaAct := []
  reps : List Repeater := []
  refTb : Option Tb := none
  lastRead : Nat := 0
  deriving DecidableEq, Repr

/-- A closed pack on its way to the cistern: its pack slot (R205, R209) and its 256 bytes (R201). -/
structure Pack where
  slot : Nat
  bytes : List Byte
  deriving DecidableEq, Repr

/-- A pack being built (R202, R204): its record type, effective rate, flags, the TB of its first and its last item, the cycle of its first item, and its items. -/
structure OpenPack where
  type : Nat
  rate : Nat
  swap : Bool := false
  clkSkip : Bool := false
  weir : Bool := false
  first : Bool := false
  post : Bool := false
  tb : Tb
  last : Tb
  since : Nat
  items : List Nat := []
  deriving DecidableEq, Repr

/-- A marker item (R206). -/
structure Marker where
  type : Nat
  intake : Nat
  tb : Tb
  exact : Bool := false
  item : Nat := 0
  seq : Nat := 0xFFFFFFFF
  data : Nat := 0
  deriving DecidableEq, Repr

/-- The storing side of one intake: its stream FIFO (R80), open pack, sequence number (R205), the first and last TB of the packs it closed into the segment, newest
first, its window (R215 to R217), its lost span (R229), its views (R64, R75, R228) and its weir's timers (R226). -/
structure StoreIntake where
  fifo : List Pack := []
  pack : Option OpenPack := none
  opened : Bool := false
  seq : Nat := 0
  spans : List (Tb × Tb) := []
  postSeq : Option Nat := none
  low : Nat := 0
  postCount : Nat := 0
  complete : Bool := false
  stopped : Bool := false
  fullDue : Bool := false
  lost : Option (Tb × Nat) := none
  lostEnd : Option (Tb × Nat) := none
  storeEn : Bool := false
  initial : Bool := true
  eff : Lines := 0
  shown : Lines := 0
  lastChange : Tb := 0
  granAll : Lines := 0
  granAny : Lines := 0
  granule : Option Tb := none
  edges : Nat := 0
  skip : Bool := false
  lastDown : Option Nat := none
  lowCount : Nat := 0
  deriving DecidableEq, Repr

/-- A boundary that waits after the sample cycle captured in cycle `phys`, whose TB is `tb` (R220): of a step's SEGACT, of a SEGMENT_NEXT, of a completed post side. -/
structure Boundary where
  phys : Nat
  tb : Tb
  segact : Bool
  next : Bool
  post : Bool
  deriving DecidableEq, Repr

/-- A write of a reach's held configuration: its cycle, the register, the value before and the value written, and whether it was held (R83). -/
structure RuWrite where
  cycle : Nat
  addr : Nat
  old : Word
  new : Word
  held : Bool
  deriving DecidableEq, Repr

/-- Storage: the intakes, their allotments (R210), the marker FIFO with the marker packs formed (R208), the segment current at the last disarm (R219), the re-arm
gap (R220), boundaries, the last sample cycle that passed the store gate, and the store path's budget (R29): what each intake has of its own cost and what is spare, in 1/16 bu, and the intake served last
from the spare; and the reach configuration written in the cycle at hand (R83). -/
structure StoreState where
  intakes : List StoreIntake := List.replicate 48 {}
  allot : List (Nat × Nat) := List.replicate 48 (0, 0)
  marks : List Marker := []
  markSince : Nat := 0
  markPacks : List (Pack × Nat) := []
  active : Bool := false
  lastSeg : Option Nat := none
  gapUntil : Option Nat := none
  missed : Nat := 0
  missedTb : Tb := 0
  boundary : Option Boundary := none
  segNext : List Nat := []
  gated : Nat := 0
  gatedTb : Tb := 0
  credits : List Nat := List.replicate 48 0
  spare : Nat := 0
  served : Nat := 47
  ruWrites : List RuWrite := []
  deriving DecidableEq, Repr

/-- An arming request (R455, R184): its source (0 SYS.CTL, 1 rota), the STREAM registers of its cycle (R30), whether its checks have passed, a rota ARM's action
with the SKIPLATE of its entry, its cycle, and the writes of reach configuration held from that cycle on (R83). -/
structure ArmReq where
  src : Nat
  stream : List Word
  asked : Bool := false
  passed : Bool := false
  act : Option RotaAct := none
  since : Nat := 0
  late : List (Nat × Word) := []
  deriving DecidableEq, Repr

/-- What the tanks keep beside their registers: handovers in progress and queued (R318, R320), the tank test's tank and spare and whether the
spare already mirrors the tank (R327), the last access of each woken retention group and the end of each wake (R325), and the words, by BAR4 offset over 8, whose check bits do not fit (R315, R322):
keys strictly rising, none good. -/
structure TankState where
  handing : List (Nat × Nat) := []
  queued : List (Nat × Nat) := []
  testTank : Nat := 0
  testSpare : Nat := 0
  mirror : Bool := false
  woken : List (Nat × Nat) := []
  waking : List (Nat × Nat) := []
  errs : List (Nat × Ecc) := []
  deriving DecidableEq, Repr

/-- The bodies of the flits (R241). A record of an EV flit is (origin, bits, tick, CYC, hops). -/
inductive FlitBody where
  | sync (tbh corr hops : Nat) (mode funnel : Bool) (present : Nat)
  | dreq (t1 : Nat)
  | drsp (t1 t2 t3 : Nat)
  | ev (recs : List EvRec)
  | settle (tb cause origin hops : Nat)
  | dam (tb origin : Nat) (driver : Bool) (hops : Nat)
  | release (origin hops : Nat)
  | hello (id : Nat) (port : Side) (pref : Nat) (hostup : Bool) (hostage stackCount hops : Nat)
  | assign (id pos : Nat) (up : Bool)
  | linkstate (pos : Nat) (port : Side) (up : Bool) (hops : Nat) (armed : Bool)
  | cwr (seq offset data : Nat)
  | crd (seq offset : Nat)
  | crsp (seq req data result : Nat)
  | hostreq (seq type tag offset length data : Nat)
  | ack (seq : Nat) (nak : Bool)
  | modeset (tb : Nat) (mode : Bool)
  | dmahdr (seq addr length drain : Nat)
  | cplhdr (seq tag length status : Nat)
  | payload (seq bytes : Nat)
  deriving DecidableEq, Repr

/-- A flit (R238). -/
structure Flit where
  src : Nat
  dst : Nat
  body : FlitBody
  deriving DecidableEq, Repr

/-- A sequenced flit that is not acknowledged yet (R264): its SEQ, the link it was sent on, the CCLK cycle of the last progress, and the one in which it was first sent. -/
structure Unacked where
  flit : Flit
  seq : Nat
  side : Side
  since : Nat
  born : Nat
  deriving DecidableEq, Repr

/-- A module heard on the ring (R243), with the position that its latest HELLO bore as SRC. -/
structure Heard where
  id : Nat
  pref : Nat
  hostup : Bool
  hostage : Nat
  stackCount : Nat
  pos : Nat := 0
  deriving DecidableEq, Repr

/-- What a module keeps of one peer for the SEQ rule (R264): the next SEQ to send, flits that wait for the window, the next SEQ expected, flits accepted and not
acknowledged with the cycle of the first, whether the gap at hand was answered with a NAK, and the link that the run being sent goes by (R263). -/
structure Peer where
  txSeq : Nat := 0
  waiting : List FlitBody := []
  rxSeq : Nat := 0
  rxOpen : Nat := 0
  rxSince : Nat := 0
  naked : Bool := false
  run : Option Side := none
  deriving DecidableEq, Repr

/-- One flume link: flits that wait for a slot, the flits sent in the last CCLK cycle (R240), the cycle it came UP, the last 16 flight times (R249), the cycles of its last
CRC failures (R242), its last failure of either kind (R258), and whether its next CCLK cycle has two slots (R238). -/
structure LinkState where
  tx : List Flit := []
  sent : List Flit := []
  upAt : Option Nat := none
  flights : List Int := []
  crcAt : List Nat := []
  failAt : Option Nat := none
  turn : Bool := true
  deriving DecidableEq, Repr

/-- The ring (R242 to R271): the links, the modules heard and when the last new one was, the start of discovery, the last ASSIGN sent, which link ends were reported down, the positions that LINKSTATEs named, the
SYNC last used with the count of good ones, the fine loop's phase in 1/64 tk, the MODESET that waits, the control request under way, records and SETTLE flits already used, and the
host link's time in L0, the ticks by which coarse shifts have slipped the sampler grid (R251), and the origin of the last refused control request: its position, and its module ID
where a HELLO told it (R261). `remote` names the free values that stand for other modules' links. -/
structure RingState where
  fa : LinkState := {}
  fb : LinkState := {}
  heard : List Heard := []
  lastNew : Nat := 0
  start : Nat := 0
  fresh : Bool := true
  assignAt : Option Nat := none
  assignUp : Bool := false
  positioned : Bool := false
  downEnds : List (Nat × Side) := []
  heldPos : List Nat := []
  syncAt : Option Nat := none
  lockCount : Nat := 0
  phase : Int := 0
  alignBad : Bool := false
  modeAt : Option (Nat × Bool) := none
  modeSeen : List (Nat × Bool) := []
  cwr : Option (Nat × Nat × Bool × Nat) := none
  peers : List Peer := List.replicate 8 {}
  unacked : List Unacked := []
  alternate : Bool := false
  evSeen : List (Nat × Nat) := []
  settleSeen : List (Nat × Nat) := []
  armedSeen : Bool := false
  hostUp : Bool := false
  hostSince : Nat := 0
  remote : Nat := 0
  grid : Int := 0
  refused : Option (Nat × Option Nat) := none
  deriving DecidableEq, Repr

/-- The dam (R431 to R440): the TB at which the module drives DAM_N, with the cause that makes it do so; whether it drives the pin; whether the outside drives the pin
low; sampling instants at which the pin read high after a release (up to 2); t_d once the pin was seen low; whether acquisition has stopped; whether a segment was open then, or was closed by a settle of
that same boundary (R440);
how many chain words were read; and the result that the next Capture-DR of DAMSCAN shows. -/
structure DamState where
  driveAt : Option (Tb × Nat) := none
  driving : Bool := false
  extLow : Bool := false
  highs : Nat := 2
  td : Option Tb := none
  stopped : Bool := false
  inSegment : Bool := false
  inClosed : Bool := false
  chainWord : Nat := 0
  scan : BitVec 34 := 0
  deriving DecidableEq, Repr

/-- A write entry of a pseudo-channel (R282): its cistern address and bytes within one 256-byte block, who wrote it (an intake 0 to 47, 48 the marker writer, 49 a window),
the CCLK cycle it entered, bursts written, the number of its last command once that was issued, and whether the burst at hand, covered in part, was read for its
read-modify-write (R285). -/
structure CisWrite where
  addr : Nat
  bytes : List Byte
  src : Nat
  since : Nat := 0
  sent : Nat := 0
  last : Nat := 0
  rmw : Bool := false
  deriving DecidableEq, Repr

/-- Whom a read of the cistern serves (R282): a window request by its number, a display output, or the descriptor that a drain worked under a number. -/
inductive Reader where
  | window (tag : Nat)
  | display (out : Nat)
  | drain (d tag : Nat)
  deriving DecidableEq, Repr

/-- A read entry of a pseudo-channel (R282): its block, whom it serves, whether it is urgent (R383), bursts read, and
those of them, by address over 32, that held no good data (R294). -/
structure CisRead where
  addr : Nat
  len : Nat
  reader : Reader
  urgent : Bool := false
  since : Nat := 0
  sent : Nat := 0
  bad : List Nat := []
  deriving DecidableEq, Repr

/-- A command issued to a pseudo-channel: 0 ACTIVATE, 1 PRECHARGE, 2 READ, 3 WRITE, 4 refresh, 5 neighbour refresh of `rows` (R288). -/
structure DramCmd where
  op : Nat
  bank : Nat
  row : Nat := 0
  col : Nat := 0
  rows : List Nat := []
  deriving DecidableEq, Repr

/-- A pseudo-channel (R282, R288 to R290): its queues, the writes issued and not complete, the retry buffer newest first, commands issued so far, open rows by bank (SID, bank group
and bank), the LFSR, queued neighbour refreshes by bank and activated row, while an alert is handled the rung and the commands still to complete, and the training results
at OP0 and at OP1 (R295). -/
structure PcState where
  wq : List CisWrite := []
  rq : List CisRead := []
  flight : List CisWrite := []
  retry : List DramCmd := []
  count : Nat := 0
  openRows : List (Nat × Nat) := []
  lfsr : BitVec 32 := 1
  nr : List (Nat × Nat) := []
  rung : Nat := 0
  good : Nat := 0
  results : List Nat := [0, 0]
  deriving DecidableEq, Repr

/-- A window read on its way (R342): its number, its span, the blocks that have come in with their bytes, the bursts without good data, by address over 32, and for a funnelled one
the position and tag to answer (R263). -/
structure WinRead where
  tag : Nat
  addr : Nat
  len : Nat
  parts : List (Nat × List Byte) := []
  bad : List Nat := []
  reply : Option (Nat × Nat) := none
  deriving DecidableEq, Repr

/-- The cistern controller: the pseudo-channels, blocks that wait for room in a queue (R286), window reads on their way, the number of the next reader, whether the
initialisation under way is a full one (R295) and whether it is the start-up after power-on (R448); the operating-point request accepted, with its VBALIGN, whether it waits for a
vertical blank, and the change that runs (R297, R298); the periodic pass (R296): its pseudo-channel, the cycle it began in, the pseudo-channel to visit next, and the cycle the visit was due
to begin in; the timing set applied (R300); and the element of the background test at the slot at hand (R303). -/
structure CisState where
  pcs : List PcState := List.replicate 64 {}
  waitW : List CisWrite := []
  waitR : List CisRead := []
  reads : List WinRead := []
  nextTag : Nat := 0
  full : Bool := true
  boot : Bool := true
  opReq : Option (Nat × Bool) := none
  opWait : Bool := false
  opRun : Option Nat := none
  pass : Option Nat := none
  passAt : Nat := 0
  visit : Nat := 0
  visitAt : Nat := 0
  timing : List Word := [0, 0, 0, 0, 0, 0]
  element : Nat := 0
  deriving DecidableEq, Repr

/-- The Main Stream Attributes of one vertical blank (R378): Mvid and Nvid, the synchronous-clock bit of MISC0, and the timing as DisplayPort gives it: totals, active
sizes, starts from the leading edge of sync, sync widths and whether sync is active low. PRESUMED: notes/assumptions/148.md. -/
structure Msa where
  mvid : Nat
  nvid : Nat
  sync : Bool
  ht : Nat
  vt : Nat
  hact : Nat
  vact : Nat
  hstart : Nat
  vstart : Nat
  hsync : Nat
  vsync : Nat
  hneg : Bool
  vneg : Bool
  deriving DecidableEq, Repr

/-- One display output (R377 to R390). The tick, counted from headrace lock, at which its frame started, the lines added to the front porch (R389), and the next instant of the
frame: 0 its start, 1 the latch point, 2 the end of the front porch, 3 line VT - 1, 4 the next frame's start. Whether the frame and the next are all background; a DISP_FLIP that waits
(R385); a timing taken at a latch point (R381); a flip not recorded yet, one in this frame, frames without one (R389). The fetch (R383): bytes that came in, bytes on their way, blocks
asked for, blocks on their way for lines given up, lines with a bad block, the last line that underran, underruns in the frame (R384). Training (R374); the AUX transaction with its AUXCTL
word, the cycle of its request, whether it waits for training, DEFER replies (R376); bit 7 of the sink's DPCD 0x00107 as the engine wrote it (R389); the attributes
sent in the last vertical blank of a link that carried the stream (R378). -/
structure DispState where
  running : Bool := false
  cloning : Bool := false
  frameStart : Nat := 0
  added : Nat := 0
  stage : Nat := 0
  bg : Bool := true
  bgNext : Bool := true
  rotaFlip : Option Tb := none
  newTiming : Option (List Word) := none
  flipPending : Bool := false
  flipped : Bool := false
  still : Nat := 0
  fill : Nat := 0
  ahead : Nat := 0
  fetched : Nat := 0
  late : Nat := 0
  holes : List Nat := []
  underLine : Option Nat := none
  underruns : Nat := 0
  training : Bool := false
  auxWord : Word := 0
  auxSince : Option Nat := none
  auxWaits : Bool := false
  auxTries : Nat := 0
  ignoreEn : Bool := false
  msa : Option Msa := none
  deriving DecidableEq, Repr

/-- What the endpoint sends on the host link of its own accord (R349 to R352, R428): the bytes of a drain's writes, completion records, event-log copies, interrupt
messages, latency tolerance reports (R353), and at the head of a funnel a tributary's run with its function number (R263).
DESIGN CHOICE: notes/assumptions/102.md. -/
inductive HostOut where
  | copy (drain dst : Nat) (bytes : List Byte)
  | record (addr : Nat) (bytes : List Byte)
  | event (addr : Nat) (bytes : List Byte)
  | msi (message : Nat)
  | msix (vector : Nat)
  | ltr (us : Nat)
  | tlp (function addr : Nat) (bytes : List Byte)
  deriving DecidableEq, Repr

/-- One drain (R346 to R356): descriptors fetched and not worked yet (index, 0 or the error their fetch ended with, 32 bytes), the one being worked, the bytes of it whose writes
were issued, whether the descriptor at hand holds its lock already, whether it is resumed, whether the drain is to stop at the next TLP boundary (R355), whether it is to pause after the
descriptor in progress (R422); the number its reads carry, the bytes of the source asked for, the blocks that came in (by offset in the source) and are not written yet, whether a
burst of the descriptor held no good data (R349), and the TB at which its last write was issued (R350). -/
structure DrainState where
  fetched : List (Nat × Nat × List Byte) := []
  working : Option (Nat × List Byte) := none
  offset : Nat := 0
  acquired : Bool := false
  resumed : Bool := false
  pausing : Bool := false
  finishing : Bool := false
  tag : Nat := 0
  asked : Nat := 0
  got : List (Nat × List Byte) := []
  bad : Bool := false
  lastTb : Tb := 0
  deriving DecidableEq, Repr

/-- The host link (R334 to R365): PERST_N, readiness, the link's state, HOLD, the configuration words software wrote by function and offset, pending vectors (R352), PHASE of the event
ring (R428), the drains and which of them issued last (R351), a funnel change that waits for its reset (R262), the tag of the next funnelled request, the CCLK cycle of the last TLP or of the last thing that kept the link from idling, and the
tolerance last reported (R353). `out` is everything the link was sent, oldest first. -/
structure HostState where
  perst : Bool := true
  ready : Bool := false
  l0 : Bool := false
  l1 : Bool := false
  speed : Nat := 0
  width : Nat := 0
  commonClk : Bool := false
  hold : Bool := false
  holdCause : Nat := 0
  cfg : List (Nat × Word) := []
  pending : BitVec 64 := 0
  evtPhase : Bool := true
  drains : List DrainState := List.replicate 4 {}
  turn : Nat := 3
  funnelPend : Bool := false
  funnelSet : Option Nat := none
  nextTag : Nat := 0
  busyAt : Nat := 0
  ltr : Option Nat := none
  out : List HostOut := []
  deriving DecidableEq, Repr

/-- Management (R457 to R465): the fuse rows programmed (eight words each, none where the row is blank), rows marked bad, a programming under way, consecutive samples at or above CRIT and
at 125 °C, consecutive samples outside the windows of each rail, the status of the last write, each port's shadow (R405), the unpowered state with its latch (R454, R463), and register writes that
wait for a stopped clock: port, ring position of origin, address and value (R20, R407). -/
structure MgtState where
  rows : List (Option (List Word)) := [none, none, none, none]
  bad : List Bool := [false, false, false, false]
  prog : Option (List Word) := none
  crit : List Nat := List.replicate 8 0
  trip : List Nat := List.replicate 8 0
  warnRun : List Nat := List.replicate 12 0
  outRun : List Nat := List.replicate 12 0
  outside : List Nat := []
  inside : List (Nat × Nat) := []
  lastStatus : Nat := 0
  shadows : List (Option (Nat × Word)) := List.replicate 5 none
  powered : Bool := true
  tripped : Bool := false
  tanksDone : Bool := false
  resetting : Bool := false
  stalled : List (Port × Nat × Nat × Word) := []
  deriving DecidableEq, Repr

/-- The engine: everything but the tanks' and the cistern's bytes and the queue of commands. -/
structure Engine where
  regs : List (Nat × Word) := []
  held : List (Nat × Word) := []
  badParity : List Nat := []
  running : Bool := false
  first : Bool := false
  cc : Nat := 0
  tb : Tb := 0
  intakes : List Intake := List.replicate 48 {}
  tableSet : Bool := false
  tableChanges : List (Nat × Bool) := []
  path : Path := {}
  gateOrders : List GateOrder := []
  causes : List Cause := []
  gate : GateState := {}
  store : StoreState := {}
  rota : RotaState := {}
  tank : TankState := {}
  slewEnd : Option Nat := none
  lost : Bool := false
  ring : RingState := {}
  dam : DamState := {}
  cis : CisState := {}
  disp : List DispState := [{}, {}]
  host : HostState := {}
  mgt : MgtState := {}
  lostSince : Nat := 0
  lostTb : Tb := 0
  settledAt : Option Nat := none
  answer : Answer := .none
  armSpan : Option (Nat × Option Nat) := none
  arming : Option ArmReq := none
  tbLoad : Option Nat := none
  wrapDue : Bool := false
  detected : List LogEntry := []
  raised : List Raised := []
  freeCtr : Nat := 0
  deriving DecidableEq, Repr

/-- The engine with the bytes of the tanks (R315) and of the cistern (R278). -/
structure Chip where
  eng : Engine := {}
  tanks : List Host.Cell := []
  cistern : List Host.Cell := []
  deriving DecidableEq, Repr

/-- The machine: the chip, and the commands that wait, first in, first out. -/
structure State where
  chip : Chip := {}
  pending : List Instr := []
  deriving DecidableEq, Repr

/-- No command stops the machine with a fault, so nothing raises one: every effect the spec gives is a next state. -/
inductive Fault where
  deriving DecidableEq, Repr

/-- Why a command has no meaning. -/
inductive Refusal where
  /-- Raised by an arm of exec whose command has no meaning yet; safe, since the machine stops. No arm raises it. -/
  | notModelled (mnemonic : String)
  deriving DecidableEq, Repr

/-- The machine right after power-on reset (R447): supplies good, the headrace not yet locked, nothing in the tanks and the cistern, nothing waiting; an A48 whose fuse rows are
blank, so that the default row is in force (R457). Every register not listed holds its reset value. DESIGN CHOICE: notes/assumptions/5.md. DESIGN CHOICE: notes/assumptions/27.md. -/
def State.reset : State := { chip := { eng := { regs := [(0x9080, 0x4896C4D1#32), (0x9084, 0xFF5A#32)] } }, pending := [] }

end Sys2Proof.Machine
end

