-- ==== Sys2Proof/Machine/Regs.lean ====
section
/-! DEFINITION. The register map (R394 to R397 and the register tables of every block chapter): for each block its rows (offset, strides, reset value and the bits of each
field type), the byte address of every register, every field by name, and every PAGE_STATUS bit by name. -/
namespace Sys2Proof.Machine

/-- The blocks of the page map (R397). -/
inductive Block where
  | dirB | sysB | clkB | tbB | safeB | evtB | mgtB | thrmB | damB | intkB | ruB | rugB | confB | sluB | rotaB | gateB | weirB | storeB | segB | cisB | cispB | cbistB | tankB | tbistB | hostB | winB | drainB | dispB | fluB | ringB
  deriving DecidableEq, Repr

/-- One row of a block's register table: offset, up to two strides with their counts, the reset value, and the bits of each field type (R4). `low` marks a register named "(low)" (R405), `banked` one shown by bank (R112). -/
structure RegRow where
  off : Nat
  s1 : Nat := 0
  c1 : Nat := 1
  s2 : Nat := 0
  c2 : Nat := 1
  reset : Nat := 0
  rw : Nat := 0
  rwh : Nat := 0
  rc : Nat := 0
  w1s : Nat := 0
  wo : Nat := 0
  low : Bool := false
  high : Bool := false
  banked : Bool := false
  deriving DecidableEq, Repr

/-- The registers of the SYS page (R466). -/
def rowsSys : List RegRow := [
  { off := 0x40, reset := 0x48960112 },
  { off := 0x44, w1s := 0x7, wo := 0xFFFF0000 },
  { off := 0x48 },
  { off := 0x4C, low := true },
  { off := 0x50, high := true },
  { off := 0x54, low := true },
  { off := 0x58, reset := 0x3C00, high := true },
  { off := 0x5C, low := true },
  { off := 0x60, high := true },
  { off := 0x64, rwh := 0xFFFFFFFF }]

/-- The registers of the CLK page (R468). -/
def rowsClk : List RegRow := [
  { off := 0x40, rw := 0x13 },
  { off := 0x44, reset := 0x1, rw := 0x1 },
  { off := 0x48 },
  { off := 0x4C, rwh := 0xFFFFFFFF },
  { off := 0x50, rwh := 0xFFFFFFFF },
  { off := 0x54 }]

/-- The registers of the TB page (R195). -/
def rowsTb : List RegRow := [
  { off := 0x40, w1s := 0x1 },
  { off := 0x44 },
  { off := 0x48, low := true },
  { off := 0x4C, high := true },
  { off := 0x50, rw := 0xFFFFFFFF, low := true },
  { off := 0x54, rw := 0xFFFFFFFF, high := true },
  { off := 0x58, low := true },
  { off := 0x5C, high := true },
  { off := 0x60, low := true },
  { off := 0x64, high := true }]

/-- The registers of the SAFE page (R441). -/
def rowsSafe : List RegRow := [
  { off := 0x40, reset := 0x4, rw := 0x4, w1s := 0x3 },
  { off := 0x44 },
  { off := 0x48 },
  { off := 0x4C, low := true },
  { off := 0x50, high := true },
  { off := 0x54, rwh := 0xFFFFFFFF },
  { off := 0x58, s1 := 0x4, c1 := 3, rw := 0xFFFFFFFF }]

/-- The registers of the EVT page (R443). -/
def rowsEvt : List RegRow := [
  { off := 0x40, reset := 0x800, rw := 0x1F01 },
  { off := 0x44, rw := 0xFFFFFFF0, low := true },
  { off := 0x48, rw := 0xFFFFFFFF, high := true },
  { off := 0x4C, rw := 0xFFFF },
  { off := 0x50 },
  { off := 0x54, rwh := 0xFFFF },
  { off := 0x58 },
  { off := 0x5C, rwh := 0xFFFFFFFF },
  { off := 0x60, rw := 0x3F3F3F },
  { off := 0x64 },
  { off := 0x68, low := true },
  { off := 0x6C, high := true },
  { off := 0x100, s1 := 0x4, c1 := 64, rw := 0x3F3F3F3F }]

/-- The registers of the MGT page (R470). -/
def rowsMgt : List RegRow := [
  { off := 0x40, reset := 0x5A62 },
  { off := 0x44, rw := 0x7 },
  { off := 0x48 },
  { off := 0x4C, rwh := 0xFFFFFFFF },
  { off := 0x50, rwh := 0xFFFFFFFF },
  { off := 0x54 },
  { off := 0x58, w1s := 0x1, wo := 0xFFFF0000 },
  { off := 0x5C, reset := 0x700 },
  { off := 0x60, s1 := 0x4, c1 := 7, rw := 0xFFFFFFFF },
  { off := 0x80, s1 := 0x4, c1 := 8 }]

/-- The registers of the THRM page (R472). -/
def rowsThrm : List RegRow := [
  { off := 0x40, s1 := 0x4, c1 := 8 },
  { off := 0x60, reset := 0x5A695F, rw := 0xFFFFFF },
  { off := 0x64 },
  { off := 0x68 },
  { off := 0x80, s1 := 0x4, c1 := 8, rwh := 0xFFFF },
  { off := 0xA0, s1 := 0x4, c1 := 12 }]

/-- The registers of the DAM page (R445). -/
def rowsDam : List RegRow := [
  { off := 0x40, reset := 0x4, rw := 0x1F04, w1s := 0x3 },
  { off := 0x44, reset := 0x80 },
  { off := 0x48, low := true },
  { off := 0x4C, high := true },
  { off := 0x50, rw := 0xFFFFFFFC },
  { off := 0x54 },
  { off := 0x58, rwh := 0xFFFFFFFF },
  { off := 0x5C, rwh := 0xFFFFFFFF }]

/-- The registers of the INTK page (R57). -/
def rowsIntk : List RegRow := [
  { off := 0x40, rw := 0xFF },
  { off := 0x44, rw := 0x1 },
  { off := 0x48, reset := 0x7080578, rw := 0xFFF0FFF },
  { off := 0x4C, reset := 0x7080578, rw := 0xFFF0FFF },
  { off := 0x50, reset := 0x6400640, rw := 0xFFF0FFF },
  { off := 0x54, rw := 0x1FF01FF },
  { off := 0x58 },
  { off := 0x5C, reset := 0x1000, rw := 0x1FFFF },
  { off := 0x60, rc := 0xFFFFFFFF },
  { off := 0x64, rc := 0xFFFF },
  { off := 0x68, rc := 0xFFFFFFFF },
  { off := 0x6C, rc := 0xFFFF },
  { off := 0x70, rw := 0xFFFF00FF, w1s := 0x100 },
  { off := 0x74 },
  { off := 0x78, low := true },
  { off := 0x7C, high := true },
  { off := 0x80 },
  { off := 0x84 },
  { off := 0x88 },
  { off := 0x100, s1 := 0x10, c1 := 48, rw := 0x1FF },
  { off := 0x104, s1 := 0x10, c1 := 48 },
  { off := 0x108, s1 := 0x10, c1 := 48, rwh := 0xFFFFFFFF },
  { off := 0x10C, s1 := 0x10, c1 := 48 }]

/-- The registers of the RU page (R85). -/
def rowsRu : List RegRow := [
  { off := 0x40, rw := 0x3FFF03FF },
  { off := 0x44, rw := 0xF37 },
  { off := 0x48, rw := 0xFF00FF },
  { off := 0x4C, rw := 0x1F },
  { off := 0x50 },
  { off := 0x54, rwh := 0xFF },
  { off := 0x58, rwh := 0xFFFFFFFF },
  { off := 0x5C },
  { off := 0x60, low := true },
  { off := 0x64, high := true },
  { off := 0x68, rw := 0xFFFF033F, w1s := 0x1000 },
  { off := 0x6C },
  { off := 0x100, s1 := 0x4, c1 := 48, rw := 0x3F0FFF },
  { off := 0x200, s1 := 0x4, c1 := 64 }]

/-- The registers of the RUG page (R114). -/
def rowsRug : List RegRow := [
  { off := 0x40, rw := 0x1 },
  { off := 0x44 },
  { off := 0x48, rc := 0xFF },
  { off := 0x80, s1 := 0x20, c1 := 4, rwh := 0xFFFFFFFF, low := true },
  { off := 0x84, s1 := 0x20, c1 := 4, rwh := 0xFFFF, high := true },
  { off := 0x88, s1 := 0x20, c1 := 4, rw := 0x3 },
  { off := 0x8C, s1 := 0x20, c1 := 4 },
  { off := 0x90, s1 := 0x20, c1 := 4, reset := 0xFFFFFFFF, rwh := 0xFFFFFFFF },
  { off := 0x94, s1 := 0x20, c1 := 4, rwh := 0xFFFFFFFF },
  { off := 0x98, s1 := 0x20, c1 := 4, low := true },
  { off := 0x9C, s1 := 0x20, c1 := 4, high := true },
  { off := 0x100, s1 := 0x40, c1 := 4, rw := 0xF, banked := true },
  { off := 0x104, s1 := 0x40, c1 := 4, rw := 0xFFFFFFFF, banked := true },
  { off := 0x108, s1 := 0x40, c1 := 4, rw := 0xFFFF, banked := true },
  { off := 0x10C, s1 := 0x40, c1 := 4, rw := 0xFFFFFFFF, banked := true },
  { off := 0x110, s1 := 0x40, c1 := 4, rw := 0xFFFF, banked := true },
  { off := 0x114, s1 := 0x40, c1 := 4, rw := 0xFFFFFFFF, banked := true },
  { off := 0x118, s1 := 0x40, c1 := 4, rw := 0xFFFFFFFF, banked := true },
  { off := 0x11C, s1 := 0x40, c1 := 4, rw := 0xFFFFFFFF, banked := true },
  { off := 0x120, s1 := 0x40, c1 := 4, s2 := 0x4, c2 := 6, rw := 0xFFFFFFFF, banked := true },
  { off := 0x200, s1 := 0x10, c1 := 4, rw := 0xFFF3F07, banked := true },
  { off := 0x204, s1 := 0x10, c1 := 4, rw := 0xFFFFFFFF, banked := true },
  { off := 0x208, s1 := 0x10, c1 := 4, rw := 0xFFFFFFFF, banked := true },
  { off := 0x240, rw := 0xFF, banked := true },
  { off := 0x800, s1 := 0x4, c1 := 512, rw := 0xFFFFFFFF, banked := true }]

/-- The registers of the CONF page (R149). -/
def rowsConf : List RegRow := [
  { off := 0x40, reset := 0x11004, rw := 0x3F3F3F },
  { off := 0x44, rw := 0x1 },
  { off := 0x48 },
  { off := 0x4C, rw := 0x2, w1s := 0x1 },
  { off := 0x50, rw := 0x2, w1s := 0x1 },
  { off := 0x54, rw := 0xFFFFFFFF, low := true },
  { off := 0x58, rw := 0xFFFFFFFF, high := true },
  { off := 0x5C, s1 := 0x4, c1 := 6 },
  { off := 0x74, s1 := 0x4, c1 := 3 },
  { off := 0x80, s1 := 0x4, c1 := 2 },
  { off := 0x88 },
  { off := 0x8C },
  { off := 0x90 },
  { off := 0x100, s1 := 0x4, c1 := 11, rw := 0xFFFFFFFF },
  { off := 0x140, s1 := 0x4, c1 := 11, rw := 0xFFFFFFFF }]

/-- The registers of the SLU page (R152). -/
def rowsSlu : List RegRow := [
  { off := 0x40, rw := 0x7 },
  { off := 0x44, rw := 0x303FF },
  { off := 0x48 },
  { off := 0x4C, rwh := 0xFFFFFFFF },
  { off := 0x50, rwh := 0xFFFFFFFF, low := true },
  { off := 0x54, rwh := 0xFFFF, high := true },
  { off := 0x58, rwh := 0xFFFFFFFF, low := true },
  { off := 0x5C, rwh := 0xFFFF, high := true },
  { off := 0x60, low := true },
  { off := 0x64, high := true },
  { off := 0x68, rwh := 0xFFFFFFFF },
  { off := 0x6C },
  { off := 0x70, low := true },
  { off := 0x74, high := true },
  { off := 0x80, s1 := 0x4, c1 := 8, rc := 0xFFFFFFFF },
  { off := 0xA0, s1 := 0x4, c1 := 32, rc := 0xFFFFFFFF }]

/-- The registers of the ROTA page (R197). -/
def rowsRota : List RegRow := [
  { off := 0x40, rw := 0x301, w1s := 0x2 },
  { off := 0x44 },
  { off := 0x48, rwh := 0x3FFF },
  { off := 0x4C, rw := 0x3FFF },
  { off := 0x50, rwh := 0xFFFFFFFF },
  { off := 0x54, rwh := 0xFFFFFFFF },
  { off := 0x58, rwh := 0xFFFFFFFF },
  { off := 0x5C, rwh := 0xFFFFFFFF },
  { off := 0x60, rwh := 0xFFFFFFFF },
  { off := 0x64, low := true },
  { off := 0x68, high := true },
  { off := 0x6C, low := true },
  { off := 0x70, high := true },
  { off := 0x74, w1s := 0xFE },
  { off := 0x78 },
  { off := 0x80, s1 := 0x10, c1 := 7, rw := 0xFFFFFFFF, low := true },
  { off := 0x84, s1 := 0x10, c1 := 7, rw := 0xFFFF, high := true },
  { off := 0x88, s1 := 0x10, c1 := 7, rw := 0xFFFFFFFF },
  { off := 0x8C, s1 := 0x10, c1 := 7 }]

/-- The registers of the GATE page (R199). -/
def rowsGate : List RegRow := [
  { off := 0x40, reset := 0xFF, rw := 0xFF },
  { off := 0x44 },
  { off := 0x48 },
  { off := 0x4C },
  { off := 0x50 },
  { off := 0x54 },
  { off := 0x58, rwh := 0xFFFFFFFF },
  { off := 0x5C, rwh := 0xFFFFFFFF },
  { off := 0x100, s1 := 0x4, c1 := 48, rw := 0xF0F },
  { off := 0x200, s1 := 0x8, c1 := 16, rw := 0xFFFFFFFF },
  { off := 0x204, s1 := 0x8, c1 := 16, rw := 0xFFFF }]

/-- The registers of the WEIR page (R230). -/
def rowsWeir : List RegRow := [
  { off := 0x40, reset := 0xFFFFFFFF, rw := 0xFFFFFFFF },
  { off := 0x44, reset := 0xFFFF, rw := 0xFFFF },
  { off := 0x48, reset := 0x927C00, rw := 0xFFFFFFFF },
  { off := 0x4C },
  { off := 0x50, s1 := 0x4, c1 := 6 },
  { off := 0x68, s1 := 0x4, c1 := 6, rwh := 0xFFFFFFFF },
  { off := 0x100, s1 := 0x4, c1 := 48, rwh := 0xFFFFFFFF },
  { off := 0x200, s1 := 0x4, c1 := 48, rwh := 0xFFFFFFFF }]

/-- The registers of the STORE page (R232). -/
def rowsStore : List RegRow := [
  { off := 0x40, rw := 0x1FF },
  { off := 0x44 },
  { off := 0x48, rwh := 0xFFFFFFFF },
  { off := 0x4C, rwh := 0xFFFFFFFF },
  { off := 0x50, low := true },
  { off := 0x54, high := true },
  { off := 0x58, rwh := 0xFFFFFFFF },
  { off := 0x5C, reset := 0xF, rw := 0xF },
  { off := 0x80, s1 := 0x80, c1 := 4, s2 := 0x4, c2 := 24, reset := 0x10001, rw := 0xFFFFFFFF }]

/-- The registers of the SEG page (R234). -/
def rowsSeg : List RegRow := [
  { off := 0x0, rw := 0x1FFF3F },
  { off := 0x4, rw := 0xFFFFFFF },
  { off := 0x8, rw := 0xFFFFFFF },
  { off := 0xC, rw := 0xFFFF },
  { off := 0x10, rw := 0xFFFFFFFF },
  { off := 0x14, rw := 0xFFFFFFFF },
  { off := 0x18 },
  { off := 0x1C, wo := 0x7 },
  { off := 0x20, low := true },
  { off := 0x24, high := true },
  { off := 0x28, low := true },
  { off := 0x2C, high := true },
  { off := 0x30, low := true },
  { off := 0x34, high := true },
  { off := 0x38 }]

/-- The registers of the CIS page (R306). -/
def rowsCis : List RegRow := [
  { off := 0x40, rw := 0x3 },
  { off := 0x44, rw := 0x6, w1s := 0x11 },
  { off := 0x48 },
  { off := 0x4C, reset := 0x10001030, rw := 0xFFFF7F7F },
  { off := 0x50, reset := 0x100, rw := 0xFFFF },
  { off := 0x54, reset := 0xC01, rw := 0x1F03 },
  { off := 0x58, reset := 0x1D872B41, rw := 0xFFFFFFFF },
  { off := 0x5C, reset := 0x4001, rw := 0xFF01 },
  { off := 0x60, rw := 0xFFFFFFF },
  { off := 0x64, rw := 0xFFFFFFF },
  { off := 0x68 },
  { off := 0x6C },
  { off := 0x70, low := true },
  { off := 0x74, high := true },
  { off := 0x100, s1 := 0x4, c1 := 6, rw := 0xFFFFFFFF },
  { off := 0x120, s1 := 0x4, c1 := 6, rw := 0xFFFFFFFF }]

/-- The registers of the CISP page (R309). -/
def rowsCisp : List RegRow := [
  { off := 0x40, s1 := 0x20, c1 := 32 },
  { off := 0x44, s1 := 0x20, c1 := 32, rwh := 0xFFFFFFFF },
  { off := 0x48, s1 := 0x20, c1 := 32, rwh := 0xFFFFFFFF },
  { off := 0x4C, s1 := 0x20, c1 := 32, rwh := 0xFFFFFFFF },
  { off := 0x50, s1 := 0x20, c1 := 32, rwh := 0xFFFFFFFF },
  { off := 0x54, s1 := 0x20, c1 := 32, rwh := 0xFFFFFFFF },
  { off := 0x58, s1 := 0x20, c1 := 32, rwh := 0xFFFFFFFF },
  { off := 0x5C, s1 := 0x20, c1 := 32, w1s := 0x1 },
  { off := 0x440 },
  { off := 0x444, rwh := 0xFF }]

/-- The registers of the CBIST page (R312). -/
def rowsCbist : List RegRow := [
  { off := 0x40, reset := 0x1, rw := 0x3, w1s := 0x4 },
  { off := 0x44 },
  { off := 0x48, reset := 0x10, rw := 0xFF },
  { off := 0x4C, rwh := 0xFFFFFFFF },
  { off := 0x50, low := true },
  { off := 0x54, high := true },
  { off := 0x58, rwh := 0xFFFFFFFF },
  { off := 0x5C, rwh := 0xFFFFFFFF },
  { off := 0x60, low := true },
  { off := 0x64, high := true }]

/-- The registers of the TANK page (R330). -/
def rowsTank : List RegRow := [
  { off := 0x40 },
  { off := 0x44, rw := 0xFF },
  { off := 0x48 },
  { off := 0x4C, reset := 0x3E8, rw := 0xFFFF },
  { off := 0x50 },
  { off := 0x54 },
  { off := 0x80, s1 := 0x4, c1 := 4, rwh := 0xFFFFFFFF },
  { off := 0x100, s1 := 0x4, c1 := 64, rw := 0x7 },
  { off := 0x200, s1 := 0x4, c1 := 64, rwh := 0xFFFFFFFF },
  { off := 0x300, s1 := 0x4, c1 := 64, rwh := 0xFFFFFFFF }]

/-- The registers of the TBIST page (R332). -/
def rowsTbist : List RegRow := [
  { off := 0x40, reset := 0x3E00, rw := 0x3F3F, w1s := 0x10000 },
  { off := 0x44 },
  { off := 0x48, rc := 0xFFFFFFFF },
  { off := 0x4C, rc := 0xFFFFFFFF },
  { off := 0x50 },
  { off := 0x54, rwh := 0xFFFFFFFF },
  { off := 0x58 },
  { off := 0x5C, rwh := 0xFFFFFFFF }]

/-- The registers of the HOST page (R366). -/
def rowsHost : List RegRow := [
  { off := 0x40, w1s := 0x1 },
  { off := 0x44 },
  { off := 0x48, low := true },
  { off := 0x4C, high := true },
  { off := 0x50 },
  { off := 0x54, w1s := 0xFE },
  { off := 0x58, reset := 0x3E80010, rw := 0xFFFFFFFF },
  { off := 0x5C, rwh := 0xFFFFFFFF },
  { off := 0x60, rwh := 0xFFFFFFFF },
  { off := 0x64, rwh := 0xFFFFFFFF },
  { off := 0x68 },
  { off := 0x800, s1 := 0x10, c1 := 64, rw := 0xFFFFFFFC },
  { off := 0x804, s1 := 0x10, c1 := 64, rw := 0xFFFFFFFF },
  { off := 0x808, s1 := 0x10, c1 := 64, rw := 0xFFFFFFFF },
  { off := 0x80C, s1 := 0x10, c1 := 64, reset := 1, rw := 0x1 },
  { off := 0xC00, low := true },
  { off := 0xC04, high := true }]

/-- The registers of the WIN page (R368). -/
def rowsWin : List RegRow := [
  { off := 0x40, w1s := 0xFFFF },
  { off := 0x44 },
  { off := 0x48, rwh := 0xFFFFFFFF },
  { off := 0x4C },
  { off := 0x100, s1 := 0x20, c1 := 16, rw := 0xFFFFF000, low := true },
  { off := 0x104, s1 := 0x20, c1 := 16, rw := 0xFF, high := true },
  { off := 0x108, s1 := 0x20, c1 := 16, rw := 0x1FFFF },
  { off := 0x10C, s1 := 0x20, c1 := 16, rw := 0xFF07 },
  { off := 0x110, s1 := 0x20, c1 := 16, low := true },
  { off := 0x114, s1 := 0x20, c1 := 16, high := true },
  { off := 0x118, s1 := 0x20, c1 := 16 },
  { off := 0x11C, s1 := 0x20, c1 := 16 }]

/-- The registers of the DRAIN page (R370). -/
def rowsDrain : List RegRow := [
  { off := 0x40, w1s := 0xF },
  { off := 0x44 },
  { off := 0x100, s1 := 0x40, c1 := 4, rw := 0x1F07 },
  { off := 0x104, s1 := 0x40, c1 := 4, rw := 0xFFFFFFE0, low := true },
  { off := 0x108, s1 := 0x40, c1 := 4, rw := 0xFFFFFFFF, high := true },
  { off := 0x10C, s1 := 0x40, c1 := 4, rwh := 0xFFFF },
  { off := 0x110, s1 := 0x40, c1 := 4, rw := 0xFFFF },
  { off := 0x114, s1 := 0x40, c1 := 4, rw := 0xFFFFFFF0, low := true },
  { off := 0x118, s1 := 0x40, c1 := 4, rw := 0xFFFFFFFF, high := true },
  { off := 0x11C, s1 := 0x40, c1 := 4 },
  { off := 0x120, s1 := 0x40, c1 := 4 },
  { off := 0x124, s1 := 0x40, c1 := 4 },
  { off := 0x128, s1 := 0x40, c1 := 4, rwh := 0xFFFFFFFF, low := true },
  { off := 0x12C, s1 := 0x40, c1 := 4, rwh := 0xFFFFFFFF, high := true },
  { off := 0x130, s1 := 0x40, c1 := 4, rwh := 0xFFFFFFFF },
  { off := 0x134, s1 := 0x40, c1 := 4 }]

/-- The registers of the DISP page (R391). -/
def rowsDisp : List RegRow := [
  { off := 0x40, rw := 0x3 },
  { off := 0x44 },
  { off := 0x48, reset := 0x1B, rw := 0x3F, w1s := 0x100 },
  { off := 0x4C, rw := 0xFFFFFF },
  { off := 0x50, reset := 0x180780, rw := 0x1FFF1FFF },
  { off := 0x54, reset := 0x180020, rw := 0x9FFF1FFF },
  { off := 0x58, reset := 0x30438, rw := 0x1FFF1FFF },
  { off := 0x5C, reset := 0xA20005, rw := 0x9FFF1FFF },
  { off := 0x60, reset := 0x20, rw := 0xFF },
  { off := 0x64, rw := 0xFFFFFF00, low := true },
  { off := 0x68, rw := 0xFF, high := true },
  { off := 0x6C, reset := 0x1E00, rw := 0xFFFF01 },
  { off := 0x70, reset := 0x180780 },
  { off := 0x74, reset := 0x180020 },
  { off := 0x78, reset := 0x30438 },
  { off := 0x7C, reset := 0xA20005 },
  { off := 0x80, reset := 0x20 },
  { off := 0x84, low := true },
  { off := 0x88, high := true },
  { off := 0x8C, reset := 0x1E00 },
  { off := 0x90, rw := 0x3FFFFFFF },
  { off := 0x94, reset := 0x10, rw := 0xFF },
  { off := 0x98 },
  { off := 0x9C, rwh := 0xFFFFFFFF },
  { off := 0xA0, low := true },
  { off := 0xA4, high := true },
  { off := 0xA8 },
  { off := 0xAC, low := true },
  { off := 0xB0, high := true },
  { off := 0xB4, reset := 0x700000, rw := 0xF00F0F, w1s := 0x10000 },
  { off := 0xB8, rw := 0xFFFFF },
  { off := 0xBC },
  { off := 0xC0, s1 := 0x4, c1 := 4, rw := 0xFFFFFFFF }]

/-- The registers of the FLU page (R272). -/
def rowsFlu : List RegRow := [
  { off := 0x40, reset := 0x1, rw := 0x1, w1s := 0x2 },
  { off := 0x44 },
  { off := 0x48 },
  { off := 0x4C },
  { off := 0x50, rwh := 0xFFFFFFFF },
  { off := 0x54, rwh := 0xFFFFFFFF },
  { off := 0x58, low := true },
  { off := 0x5C, high := true }]

/-- The registers of the RING page (R275). -/
def rowsRing : List RegRow := [
  { off := 0x40, reset := 0x8, rw := 0xF, w1s := 0x10 },
  { off := 0x44 },
  { off := 0x48 },
  { off := 0x4C },
  { off := 0x50 },
  { off := 0x54 },
  { off := 0x58, rwh := 0xFFFFFFFF },
  { off := 0x5C, rwh := 0xFFFFFFFF },
  { off := 0x60, rw := 0x1E, w1s := 0x1 },
  { off := 0x64, rw := 0xFFFFC },
  { off := 0x68, rw := 0xFFFFFFFF },
  { off := 0x6C },
  { off := 0x70, low := true },
  { off := 0x74, high := true },
  { off := 0x78, low := true },
  { off := 0x7C, high := true }]

/-- The rows of a block. -/
def rowsOf : Block → List RegRow
  | .dirB => []
  | .sysB => rowsSys
  | .clkB => rowsClk
  | .tbB => rowsTb
  | .safeB => rowsSafe
  | .evtB => rowsEvt
  | .mgtB => rowsMgt
  | .thrmB => rowsThrm
  | .damB => rowsDam
  | .intkB => rowsIntk
  | .ruB => rowsRu
  | .rugB => rowsRug
  | .confB => rowsConf
  | .sluB => rowsSlu
  | .rotaB => rowsRota
  | .gateB => rowsGate
  | .weirB => rowsWeir
  | .storeB => rowsStore
  | .segB => rowsSeg
  | .cisB => rowsCis
  | .cispB => rowsCisp
  | .cbistB => rowsCbist
  | .tankB => rowsTank
  | .tbistB => rowsTbist
  | .hostB => rowsHost
  | .winB => rowsWin
  | .drainB => rowsDrain
  | .dispB => rowsDisp
  | .fluB => rowsFlu
  | .ringB => rowsRing

/-- The PAGE_STATUS bits each block defines (R396: every other bit is reserved). -/
def statusMask : Block → Nat
  | .dirB => 0x0
  | .sysB => 0xF
  | .clkB => 0xF
  | .tbB => 0x7
  | .safeB => 0x7
  | .evtB => 0x7
  | .mgtB => 0x7
  | .thrmB => 0xF
  | .damB => 0x7
  | .intkB => 0xF
  | .ruB => 0x7
  | .rugB => 0x7
  | .confB => 0xF
  | .sluB => 0x3F
  | .rotaB => 0xFF
  | .gateB => 0x7
  | .weirB => 0x7
  | .storeB => 0xFF
  | .segB => 0x3
  | .cisB => 0x1FF
  | .cispB => 0xF
  | .cbistB => 0x7
  | .tankB => 0x3F
  | .tbistB => 0x7
  | .hostB => 0xF
  | .winB => 0x3
  | .drainB => 0x1FF
  | .dispB => 0xFFF
  | .fluB => 0xF
  | .ringB => 0x3FF

/-- The PAGE_COMMIT bits each block defines. -/
def commitMask : Block → Nat
  | .dispB => 3
  | _ => 0

/-- The first register of segment s's descriptor: page 0x0A9 + s / 64, offset 0x040 + 0x3C × (s mod 64) (R234). -/
def segBase (s : Nat) : Nat := 0xA9000 + 0x1000 * (s / 64) + 0x40 + 0x3C * (s % 64)

namespace R

def INTK_CTL (n : Nat) : Nat := 0x10040 + 0x1000 * n
def INTK_THRSEL (n : Nat) : Nat := 0x10044 + 0x1000 * n
def INTK_THR_A (n : Nat) : Nat := 0x10048 + 0x1000 * n
def INTK_THR_B (n : Nat) : Nat := 0x1004C + 0x1000 * n
def INTK_CKTHR (n : Nat) : Nat := 0x10050 + 0x1000 * n
def INTK_CKTRIM (n : Nat) : Nat := 0x10054 + 0x1000 * n
def INTK_STATUS (n : Nat) : Nat := 0x10058 + 0x1000 * n
def INTK_XCTL (n : Nat) : Nat := 0x1005C + 0x1000 * n
def INTK_XSEEN0 (n : Nat) : Nat := 0x10060 + 0x1000 * n
def INTK_XSEEN1 (n : Nat) : Nat := 0x10064 + 0x1000 * n
def INTK_XFAULT0 (n : Nat) : Nat := 0x10068 + 0x1000 * n
def INTK_XFAULT1 (n : Nat) : Nat := 0x1006C + 0x1000 * n
def INTK_CAL (n : Nat) : Nat := 0x10070 + 0x1000 * n
def INTK_CALSTAT (n : Nat) : Nat := 0x10074 + 0x1000 * n
def INTK_SWAP_TB_LO (n : Nat) : Nat := 0x10078 + 0x1000 * n
def INTK_SWAP_TB_HI (n : Nat) : Nat := 0x1007C + 0x1000 * n
def INTK_CK0SUM (n : Nat) : Nat := 0x10080 + 0x1000 * n
def INTK_CK1SUM (n : Nat) : Nat := 0x10084 + 0x1000 * n
def INTK_CKMISS (n : Nat) : Nat := 0x10088 + 0x1000 * n
def INTK_LCFG (n i : Nat) : Nat := 0x10100 + 0x1000 * n + 0x10 * i
def INTK_CALSUM (n i : Nat) : Nat := 0x10104 + 0x1000 * n + 0x10 * i
def INTK_XCOUNT (n i : Nat) : Nat := 0x10108 + 0x1000 * n + 0x10 * i
def INTK_CALMISS (n i : Nat) : Nat := 0x1010C + 0x1000 * n + 0x10 * i
def RU_STREAM (n : Nat) : Nat := 0x40040 + 0x2000 * n
def RU_STATECFG (n : Nat) : Nat := 0x40044 + 0x2000 * n
def RU_CKDELAY (n : Nat) : Nat := 0x40048 + 0x2000 * n
def RU_FLUSH (n : Nat) : Nat := 0x4004C + 0x2000 * n
def RU_STATUS (n : Nat) : Nat := 0x40050 + 0x2000 * n
def RU_FIFO_PEAK (n : Nat) : Nat := 0x40054 + 0x2000 * n
def RU_CKSKIP (n : Nat) : Nat := 0x40058 + 0x2000 * n
def RU_CONTEXT (n : Nat) : Nat := 0x4005C + 0x2000 * n
def RU_PACKS_LO (n : Nat) : Nat := 0x40060 + 0x2000 * n
def RU_PACKS_HI (n : Nat) : Nat := 0x40064 + 0x2000 * n
def RU_EYECTL (n : Nat) : Nat := 0x40068 + 0x2000 * n
def RU_EYESTAT (n : Nat) : Nat := 0x4006C + 0x2000 * n
def RU_LINE (n i : Nat) : Nat := 0x40100 + 0x2000 * n + 0x4 * i
def RU_EYECNT (n i : Nat) : Nat := 0x40200 + 0x2000 * n + 0x4 * i
def RUG_CTL (n : Nat) : Nat := 0x41040 + 0x2000 * n
def RUG_STATUS (n : Nat) : Nat := 0x41044 + 0x2000 * n
def RUG_HITSEEN (n : Nat) : Nat := 0x41048 + 0x2000 * n
def RUG_CNT_LO (n i : Nat) : Nat := 0x41080 + 0x2000 * n + 0x20 * i
def RUG_CNT_HI (n i : Nat) : Nat := 0x41084 + 0x2000 * n + 0x20 * i
def RUG_CNTCTL (n i : Nat) : Nat := 0x41088 + 0x2000 * n + 0x20 * i
def RUG_LAST (n i : Nat) : Nat := 0x4108C + 0x2000 * n + 0x20 * i
def RUG_MINV (n i : Nat) : Nat := 0x41090 + 0x2000 * n + 0x20 * i
def RUG_MAXV (n i : Nat) : Nat := 0x41094 + 0x2000 * n + 0x20 * i
def RUG_HIT_TB_LO (n i : Nat) : Nat := 0x41098 + 0x2000 * n + 0x20 * i
def RUG_HIT_TB_HI (n i : Nat) : Nat := 0x4109C + 0x2000 * n + 0x20 * i
def RUG_MG_MCTL (n b i : Nat) : Nat := 0x41100 + 0x2000 * n + 0x100000 * b + 0x40 * i
def RUG_MG_MASK_LO (n b i : Nat) : Nat := 0x41104 + 0x2000 * n + 0x100000 * b + 0x40 * i
def RUG_MG_MASK_HI (n b i : Nat) : Nat := 0x41108 + 0x2000 * n + 0x100000 * b + 0x40 * i
def RUG_MG_VALUE_LO (n b i : Nat) : Nat := 0x4110C + 0x2000 * n + 0x100000 * b + 0x40 * i
def RUG_MG_VALUE_HI (n b i : Nat) : Nat := 0x41110 + 0x2000 * n + 0x100000 * b + 0x40 * i
def RUG_MG_EDGE0 (n b i : Nat) : Nat := 0x41114 + 0x2000 * n + 0x100000 * b + 0x40 * i
def RUG_MG_EDGE1 (n b i : Nat) : Nat := 0x41118 + 0x2000 * n + 0x100000 * b + 0x40 * i
def RUG_MG_EDGE2 (n b i : Nat) : Nat := 0x4111C + 0x2000 * n + 0x100000 * b + 0x40 * i
def RUG_MG_ACC (n b i j : Nat) : Nat := 0x41120 + 0x2000 * n + 0x100000 * b + 0x40 * i + 0x4 * j
def RUG_TG_TCTL (n b i : Nat) : Nat := 0x41200 + 0x2000 * n + 0x100000 * b + 0x10 * i
def RUG_TG_LO (n b i : Nat) : Nat := 0x41204 + 0x2000 * n + 0x100000 * b + 0x10 * i
def RUG_TG_HI (n b i : Nat) : Nat := 0x41208 + 0x2000 * n + 0x100000 * b + 0x10 * i
def RUG_POSCTL (n b : Nat) : Nat := 0x41240 + 0x2000 * n + 0x100000 * b
def RUG_LUT (n b i : Nat) : Nat := 0x41800 + 0x2000 * n + 0x100000 * b + 0x4 * i
def CONF_TSET : Nat := 0xA0040
def CONF_SETSEL : Nat := 0xA0044
def CONF_STATUS : Nat := 0xA0048
def CONF_VERIFY : Nat := 0xA004C
def CONF_SNAPCTL : Nat := 0xA0050
def CONF_SNAP_TB_LO : Nat := 0xA0054
def CONF_SNAP_TB_HI : Nat := 0xA0058
def CONF_SNAPRC (i : Nat) : Nat := 0xA005C + 0x4 * i
def CONF_SNAPC1 (i : Nat) : Nat := 0xA0074 + 0x4 * i
def CONF_SNAPC2 (i : Nat) : Nat := 0xA0080 + 0x4 * i
def CONF_SNAPC3 : Nat := 0xA0088
def CONF_SNAPC45 : Nat := 0xA008C
def CONF_SNAPPOS : Nat := 0xA0090
def CONF_SETCRC_A (i : Nat) : Nat := 0xA0100 + 0x4 * i
def CONF_SETCRC_B (i : Nat) : Nat := 0xA0140 + 0x4 * i
def SLU_CTL : Nat := 0xA1040
def SLU_START : Nat := 0xA1044
def SLU_STATUS : Nat := 0xA1048
def SLU_IRQDROP : Nat := 0xA104C
def SLU_CTRA_LO : Nat := 0xA1050
def SLU_CTRA_HI : Nat := 0xA1054
def SLU_CTRB_LO : Nat := 0xA1058
def SLU_CTRB_HI : Nat := 0xA105C
def SLU_DWELLNOW_LO : Nat := 0xA1060
def SLU_DWELLNOW_HI : Nat := 0xA1064
def SLU_TRIGCNT : Nat := 0xA1068
def SLU_LASTTRIG : Nat := 0xA106C
def SLU_LASTTRIG_TB_LO : Nat := 0xA1070
def SLU_LASTTRIG_TB_HI : Nat := 0xA1074
def SLU_ESEEN (i : Nat) : Nat := 0xA1080 + 0x4 * i
def SLU_LVLSEEN (i : Nat) : Nat := 0xA10A0 + 0x4 * i
def TB_CTL : Nat := 0x6040
def TB_STATUS : Nat := 0x6044
def TB_NOW_LO : Nat := 0x6048
def TB_NOW_HI : Nat := 0x604C
def TB_LOADVAL_LO : Nat := 0x6050
def TB_LOADVAL_HI : Nat := 0x6054
def TB_DAM_TB_LO : Nat := 0x6058
def TB_DAM_TB_HI : Nat := 0x605C
def TB_DAM_ELAPSED_LO : Nat := 0x6060
def TB_DAM_ELAPSED_HI : Nat := 0x6064
def ROTA_CTL : Nat := 0xA2040
def ROTA_STATUS : Nat := 0xA2044
def ROTA_HEAD : Nat := 0xA2048
def ROTA_TAIL : Nat := 0xA204C
def ROTA_LATECNT : Nat := 0xA2050
def ROTA_SKIPCNT : Nat := 0xA2054
def ROTA_ORDERCNT : Nat := 0xA2058
def ROTA_DISCARDCNT : Nat := 0xA205C
def ROTA_BADCNT : Nat := 0xA2060
def ROTA_LASTLATE_TB_LO : Nat := 0xA2064
def ROTA_LASTLATE_TB_HI : Nat := 0xA2068
def ROTA_NEXT_TB_LO : Nat := 0xA206C
def ROTA_NEXT_TB_HI : Nat := 0xA2070
def ROTA_REPSTOP : Nat := 0xA2074
def ROTA_REPACTIVE : Nat := 0xA2078
def ROTA_REP_PERIOD_LO (i : Nat) : Nat := 0xA2080 + 0x10 * i
def ROTA_REP_PERIOD_HI (i : Nat) : Nat := 0xA2084 + 0x10 * i
def ROTA_REP_COUNT (i : Nat) : Nat := 0xA2088 + 0x10 * i
def ROTA_REP_REMAIN (i : Nat) : Nat := 0xA208C + 0x10 * i
def GATE_BANKCFG : Nat := 0xA3040
def GATE_STATUS : Nat := 0xA3044
def GATE_IN_LO : Nat := 0xA3048
def GATE_IN_HI : Nat := 0xA304C
def GATE_OUT_LO : Nat := 0xA3050
def GATE_OUT_HI : Nat := 0xA3054
def GATE_CONFLICT : Nat := 0xA3058
def GATE_DROPPED : Nat := 0xA305C
def GATE_LINE (i : Nat) : Nat := 0xA3100 + 0x4 * i
def GATE_GLUT_SEL (i : Nat) : Nat := 0xA3200 + 0x8 * i
def GATE_GLUT_TT (i : Nat) : Nat := 0xA3204 + 0x8 * i
def WEIR_ENABLE_LO : Nat := 0xA4040
def WEIR_ENABLE_HI : Nat := 0xA4044
def WEIR_HOLD : Nat := 0xA4048
def WEIR_STATUS : Nat := 0xA404C
def WEIR_STEPS (i : Nat) : Nat := 0xA4050 + 0x4 * i
def WEIR_STEPMAX (i : Nat) : Nat := 0xA4068 + 0x4 * i
def WEIR_DOWNCNT (i : Nat) : Nat := 0xA4100 + 0x4 * i
def WEIR_GAPCNT (i : Nat) : Nat := 0xA4200 + 0x4 * i
def STORE_TRAIN : Nat := 0xA8040
def STORE_STATUS : Nat := 0xA8044
def STORE_MKDROP : Nat := 0xA8048
def STORE_SEGCNT : Nat := 0xA804C
def STORE_MISSED_TB_LO : Nat := 0xA8050
def STORE_MISSED_TB_HI : Nat := 0xA8054
def STORE_SKIPCNT : Nat := 0xA8058
def STORE_PROFCTL : Nat := 0xA805C
def STORE_PROF_W (i j : Nat) : Nat := 0xA8080 + 0x80 * i + 0x4 * j
def SEG_CFG (s : Nat) : Nat := segBase s + 0x0
def SEG_BASE (s : Nat) : Nat := segBase s + 0x4
def SEG_SIZE (s : Nat) : Nat := segBase s + 0x8
def SEG_MARK (s : Nat) : Nat := segBase s + 0xC
def SEG_PRE (s : Nat) : Nat := segBase s + 0x10
def SEG_POST (s : Nat) : Nat := segBase s + 0x14
def SEG_STATUS (s : Nat) : Nat := segBase s + 0x18
def SEG_LOCKCTL (s : Nat) : Nat := segBase s + 0x1C
def SEG_OPEN_TB_LO (s : Nat) : Nat := segBase s + 0x20
def SEG_OPEN_TB_HI (s : Nat) : Nat := segBase s + 0x24
def SEG_TRIG_TB_LO (s : Nat) : Nat := segBase s + 0x28
def SEG_TRIG_TB_HI (s : Nat) : Nat := segBase s + 0x2C
def SEG_CLOSE_TB_LO (s : Nat) : Nat := segBase s + 0x30
def SEG_CLOSE_TB_HI (s : Nat) : Nat := segBase s + 0x34
def SEG_TRIGCNTS (s : Nat) : Nat := segBase s + 0x38
def FLU_CTL (n : Nat) : Nat := 0xF0040 + 0x1000 * n
def FLU_STATUS (n : Nat) : Nat := 0xF0044 + 0x1000 * n
def FLU_FLIGHT (n : Nat) : Nat := 0xF0048 + 0x1000 * n
def FLU_HOPDLY (n : Nat) : Nat := 0xF004C + 0x1000 * n
def FLU_CRCERR (n : Nat) : Nat := 0xF0050 + 0x1000 * n
def FLU_DOWNCNT (n : Nat) : Nat := 0xF0054 + 0x1000 * n
def FLU_PEER_ID_LO (n : Nat) : Nat := 0xF0058 + 0x1000 * n
def FLU_PEER_ID_HI (n : Nat) : Nat := 0xF005C + 0x1000 * n
def RING_CTL : Nat := 0xF2040
def RING_STATUS : Nat := 0xF2044
def RING_MEMBERS : Nat := 0xF2048
def RING_REASON : Nat := 0xF204C
def RING_TBERR : Nat := 0xF2050
def RING_PATHDLY : Nat := 0xF2054
def RING_EVRISK : Nat := 0xF2058
def RING_EVLATE : Nat := 0xF205C
def RING_CWR_CTL : Nat := 0xF2060
def RING_CWR_ADDR : Nat := 0xF2064
def RING_CWR_DATA : Nat := 0xF2068
def RING_CWR_RDATA : Nat := 0xF206C
def RING_ID_LO : Nat := 0xF2070
def RING_ID_HI : Nat := 0xF2074
def RING_DAM_PEER_TB_LO : Nat := 0xF2078
def RING_DAM_PEER_TB_HI : Nat := 0xF207C
def CIS_CFG : Nat := 0xB0040
def CIS_CTL : Nat := 0xB0044
def CIS_STATUS : Nat := 0xB0048
def CIS_WSCHED : Nat := 0xB004C
def CIS_RSCHED : Nat := 0xB0050
def CIS_NRCTL : Nat := 0xB0054
def CIS_NRSEED : Nat := 0xB0058
def CIS_TRAINCTL : Nat := 0xB005C
def CIS_DISP_BASE : Nat := 0xB0060
def CIS_DISP_SIZE : Nat := 0xB0064
def CIS_OFFLINE_LO : Nat := 0xB0068
def CIS_OFFLINE_HI : Nat := 0xB006C
def CIS_LASTUE_LO : Nat := 0xB0070
def CIS_LASTUE_HI : Nat := 0xB0074
def CIS_TIM0 (i : Nat) : Nat := 0xB0100 + 0x4 * i
def CIS_TIM1 (i : Nat) : Nat := 0xB0120 + 0x4 * i
def CISP_PC_STATE (n i : Nat) : Nat := 0xB1040 + 0x1000 * n + 0x20 * i
def CISP_PC_CE (n i : Nat) : Nat := 0xB1044 + 0x1000 * n + 0x20 * i
def CISP_PC_UE (n i : Nat) : Nat := 0xB1048 + 0x1000 * n + 0x20 * i
def CISP_PC_REPLAY (n i : Nat) : Nat := 0xB104C + 0x1000 * n + 0x20 * i
def CISP_PC_RETRAIN (n i : Nat) : Nat := 0xB1050 + 0x1000 * n + 0x20 * i
def CISP_PC_NR (n i : Nat) : Nat := 0xB1054 + 0x1000 * n + 0x20 * i
def CISP_PC_NRDROP (n i : Nat) : Nat := 0xB1058 + 0x1000 * n + 0x20 * i
def CISP_PC_CTL (n i : Nat) : Nat := 0xB105C + 0x1000 * n + 0x20 * i
def CISP_STACKSTAT (n : Nat) : Nat := 0xB1440 + 0x1000 * n
def CISP_STACKTEMP_MAX (n : Nat) : Nat := 0xB1444 + 0x1000 * n
def CBIST_CTL : Nat := 0xB3040
def CBIST_STATUS : Nat := 0xB3044
def CBIST_RATE : Nat := 0xB3048
def CBIST_PASSCNT : Nat := 0xB304C
def CBIST_POS_LO : Nat := 0xB3050
def CBIST_POS_HI : Nat := 0xB3054
def CBIST_SCRUBCE : Nat := 0xB3058
def CBIST_FAULTCNT : Nat := 0xB305C
def CBIST_LASTFAULT_LO : Nat := 0xB3060
def CBIST_LASTFAULT_HI : Nat := 0xB3064
def TANK_STATUS : Nat := 0xC0040
def TANK_RETREQ : Nat := 0xC0044
def TANK_RETSTAT : Nat := 0xC0048
def TANK_RETIDLE : Nat := 0xC004C
def TANK_LASTUE : Nat := 0xC0050
def TANK_LASTVIOL : Nat := 0xC0054
def TANK_COLL (i : Nat) : Nat := 0xC0080 + 0x4 * i
def TANK_OWN (i : Nat) : Nat := 0xC0100 + 0x4 * i
def TANK_CE (i : Nat) : Nat := 0xC0200 + 0x4 * i
def TANK_UE (i : Nat) : Nat := 0xC0300 + 0x4 * i
def TBIST_CTL : Nat := 0xC1040
def TBIST_STATUS : Nat := 0xC1044
def TBIST_FAILMAP_LO : Nat := 0xC1048
def TBIST_FAILMAP_HI : Nat := 0xC104C
def TBIST_REMAP : Nat := 0xC1050
def TBIST_FAULTCNT : Nat := 0xC1054
def TBIST_LASTFAULT : Nat := 0xC1058
def TBIST_TESTCNT : Nat := 0xC105C
def HOST_CTL : Nat := 0xD0040
def HOST_STATUS : Nat := 0xD0044
def HOST_HOLD_TB_LO : Nat := 0xD0048
def HOST_HOLD_TB_HI : Nat := 0xD004C
def HOST_TRIB_LOST : Nat := 0xD0050
def HOST_TRIBCTL : Nat := 0xD0054
def HOST_PMCTL : Nat := 0xD0058
def HOST_LINKDOWNCNT : Nat := 0xD005C
def HOST_HOLDCNT : Nat := 0xD0060
def HOST_REFUSED : Nat := 0xD0064
def HOST_LASTREF : Nat := 0xD0068
def HOST_MSIX (v w : Nat) : Nat := 0xD0800 + 0x10 * v + 4 * w
def HOST_PBA_LO : Nat := 0xD0C00
def HOST_PBA_HI : Nat := 0xD0C04
def WIN_COMMIT : Nat := 0xD1040
def WIN_STATUS : Nat := 0xD1044
def WIN_FAULTCNT : Nat := 0xD1048
def WIN_LASTFAULT : Nat := 0xD104C
def WIN_SH_BASE_LO (i : Nat) : Nat := 0xD1100 + 0x20 * i
def WIN_SH_BASE_HI (i : Nat) : Nat := 0xD1104 + 0x20 * i
def WIN_SH_SIZE (i : Nat) : Nat := 0xD1108 + 0x20 * i
def WIN_SH_CFG (i : Nat) : Nat := 0xD110C + 0x20 * i
def WIN_BASE_LO (i : Nat) : Nat := 0xD1110 + 0x20 * i
def WIN_BASE_HI (i : Nat) : Nat := 0xD1114 + 0x20 * i
def WIN_SIZE (i : Nat) : Nat := 0xD1118 + 0x20 * i
def WIN_CFG (i : Nat) : Nat := 0xD111C + 0x20 * i
def DRAIN_RESUME : Nat := 0xD2040
def DRAIN_STATUS : Nat := 0xD2044
def DRAIN_CTL (i : Nat) : Nat := 0xD2100 + 0x40 * i
def DRAIN_RING_BASE_LO (i : Nat) : Nat := 0xD2104 + 0x40 * i
def DRAIN_RING_BASE_HI (i : Nat) : Nat := 0xD2108 + 0x40 * i
def DRAIN_HEAD (i : Nat) : Nat := 0xD210C + 0x40 * i
def DRAIN_TAIL (i : Nat) : Nat := 0xD2110 + 0x40 * i
def DRAIN_CPL_BASE_LO (i : Nat) : Nat := 0xD2114 + 0x40 * i
def DRAIN_CPL_BASE_HI (i : Nat) : Nat := 0xD2118 + 0x40 * i
def DRAIN_DSTAT (i : Nat) : Nat := 0xD211C + 0x40 * i
def DRAIN_RESUME_IDX (i : Nat) : Nat := 0xD2120 + 0x40 * i
def DRAIN_RESUME_OFF (i : Nat) : Nat := 0xD2124 + 0x40 * i
def DRAIN_BYTES_LO (i : Nat) : Nat := 0xD2128 + 0x40 * i
def DRAIN_BYTES_HI (i : Nat) : Nat := 0xD212C + 0x40 * i
def DRAIN_DESCCNT (i : Nat) : Nat := 0xD2130 + 0x40 * i
def DRAIN_LASTERR (i : Nat) : Nat := 0xD2134 + 0x40 * i
def DISP_CTL (n : Nat) : Nat := 0xE0040 + 0x1000 * n
def DISP_STATUS (n : Nat) : Nat := 0xE0044 + 0x1000 * n
def DISP_LINKCFG (n : Nat) : Nat := 0xE0048 + 0x1000 * n
def DISP_BGCOLOR (n : Nat) : Nat := 0xE004C + 0x1000 * n
def DISP_HTIM0 (n : Nat) : Nat := 0xE0050 + 0x1000 * n
def DISP_HTIM1 (n : Nat) : Nat := 0xE0054 + 0x1000 * n
def DISP_VTIM0 (n : Nat) : Nat := 0xE0058 + 0x1000 * n
def DISP_VTIM1 (n : Nat) : Nat := 0xE005C + 0x1000 * n
def DISP_PIXDIV (n : Nat) : Nat := 0xE0060 + 0x1000 * n
def DISP_FB_BASE_LO (n : Nat) : Nat := 0xE0064 + 0x1000 * n
def DISP_FB_BASE_HI (n : Nat) : Nat := 0xE0068 + 0x1000 * n
def DISP_FBCFG (n : Nat) : Nat := 0xE006C + 0x1000 * n
def DISP_CUR_HTIM0 (n : Nat) : Nat := 0xE0070 + 0x1000 * n
def DISP_CUR_HTIM1 (n : Nat) : Nat := 0xE0074 + 0x1000 * n
def DISP_CUR_VTIM0 (n : Nat) : Nat := 0xE0078 + 0x1000 * n
def DISP_CUR_VTIM1 (n : Nat) : Nat := 0xE007C + 0x1000 * n
def DISP_CUR_PIXDIV (n : Nat) : Nat := 0xE0080 + 0x1000 * n
def DISP_CUR_FB_BASE_LO (n : Nat) : Nat := 0xE0084 + 0x1000 * n
def DISP_CUR_FB_BASE_HI (n : Nat) : Nat := 0xE0088 + 0x1000 * n
def DISP_CUR_FBCFG (n : Nat) : Nat := 0xE008C + 0x1000 * n
def DISP_STATIC (n : Nat) : Nat := 0xE0090 + 0x1000 * n
def DISP_FETCH (n : Nat) : Nat := 0xE0094 + 0x1000 * n
def DISP_FRAMECNT (n : Nat) : Nat := 0xE0098 + 0x1000 * n
def DISP_UNDERRUN (n : Nat) : Nat := 0xE009C + 0x1000 * n
def DISP_FLIP_TB_LO (n : Nat) : Nat := 0xE00A0 + 0x1000 * n
def DISP_FLIP_TB_HI (n : Nat) : Nat := 0xE00A4 + 0x1000 * n
def DISP_FLIP_FRAME (n : Nat) : Nat := 0xE00A8 + 0x1000 * n
def DISP_VS_TB_LO (n : Nat) : Nat := 0xE00AC + 0x1000 * n
def DISP_VS_TB_HI (n : Nat) : Nat := 0xE00B0 + 0x1000 * n
def DISP_AUXCTL (n : Nat) : Nat := 0xE00B4 + 0x1000 * n
def DISP_AUXADDR (n : Nat) : Nat := 0xE00B8 + 0x1000 * n
def DISP_AUXSTAT (n : Nat) : Nat := 0xE00BC + 0x1000 * n
def DISP_AUXDATA (n i : Nat) : Nat := 0xE00C0 + 0x1000 * n + 0x4 * i
def SAFE_CTL : Nat := 0x7040
def SAFE_STATUS : Nat := 0x7044
def SAFE_CAUSES : Nat := 0x7048
def SAFE_SETTLE_TB_LO : Nat := 0x704C
def SAFE_SETTLE_TB_HI : Nat := 0x7050
def SAFE_SETTLECNT : Nat := 0x7054
def SAFE_LEVEL (i : Nat) : Nat := 0x7058 + 0x4 * i
def EVT_CTL : Nat := 0x8040
def EVT_RING_BASE_LO : Nat := 0x8044
def EVT_RING_BASE_HI : Nat := 0x8048
def EVT_HEAD : Nat := 0x804C
def EVT_TAIL : Nat := 0x8050
def EVT_STG_HEAD : Nat := 0x8054
def EVT_STG_TAIL : Nat := 0x8058
def EVT_LOST : Nat := 0x805C
def EVT_VEC : Nat := 0x8060
def EVT_FILL : Nat := 0x8064
def EVT_NEXT_TB_LO : Nat := 0x8068
def EVT_NEXT_TB_HI : Nat := 0x806C
def EVT_VMAP (i : Nat) : Nat := 0x8100 + 0x4 * i
def DAM_CTL : Nat := 0xB040
def DAM_STATUS : Nat := 0xB044
def DAM_TD_LO : Nat := 0xB048
def DAM_TD_HI : Nat := 0xB04C
def DAM_IMG_ADDR : Nat := 0xB050
def DAM_IMG_DATA : Nat := 0xB054
def DAM_WDISC : Nat := 0xB058
def DAM_DAMCNT : Nat := 0xB05C
def SYS_IDENT : Nat := 0x4040
def SYS_CTL : Nat := 0x4044
def SYS_STATUS : Nat := 0x4048
def SYS_ARM_LO : Nat := 0x404C
def SYS_ARM_HI : Nat := 0x4050
def SYS_BUDGET_LO : Nat := 0x4054
def SYS_BUDGET_HI : Nat := 0x4058
def SYS_ARM_TB_LO : Nat := 0x405C
def SYS_ARM_TB_HI : Nat := 0x4060
def SYS_ARMCNT : Nat := 0x4064
def CLK_REFSEL : Nat := 0x5040
def CLK_REFCTL : Nat := 0x5044
def CLK_STATUS : Nat := 0x5048
def CLK_SWITCHCNT : Nat := 0x504C
def CLK_HOLDCNT : Nat := 0x5050
def CLK_REFOFFSET : Nat := 0x5054
def MGT_ADDR : Nat := 0x9040
def MGT_ALERTEN : Nat := 0x9044
def MGT_ALERTSRC : Nat := 0x9048
def MGT_CMDCNT : Nat := 0x904C
def MGT_PECERR : Nat := 0x9050
def MGT_LASTERR : Nat := 0x9054
def MGT_FUSECTL : Nat := 0x9058
def MGT_FUSESTAT : Nat := 0x905C
def MGT_FUSEDATA (i : Nat) : Nat := 0x9060 + 0x4 * i
def MGT_FUSEROW (i : Nat) : Nat := 0x9080 + 0x4 * i
def THRM_TEMP (i : Nat) : Nat := 0xA040 + 0x4 * i
def THRM_LIMITS : Nat := 0xA060
def THRM_STATUS : Nat := 0xA064
def THRM_SUPSTAT : Nat := 0xA068
def THRM_TMAX (i : Nat) : Nat := 0xA080 + 0x4 * i
def THRM_SUPPLY (i : Nat) : Nat := 0xA0A0 + 0x4 * i

def INTK_CTL_HYST (n : Nat) : Field := ⟨INTK_CTL n, 0, 2⟩
def INTK_CTL_CK0_MODE (n : Nat) : Field := ⟨INTK_CTL n, 2, 2⟩
def INTK_CTL_CK0_TERM (n : Nat) : Field := ⟨INTK_CTL n, 4, 1⟩
def INTK_CTL_CK1_MODE (n : Nat) : Field := ⟨INTK_CTL n, 5, 2⟩
def INTK_CTL_CK1_TERM (n : Nat) : Field := ⟨INTK_CTL n, 7, 1⟩
def INTK_THRSEL_SET (n : Nat) : Field := ⟨INTK_THRSEL n, 0, 1⟩
def INTK_THR_A_VTL (n : Nat) : Field := ⟨INTK_THR_A n, 0, 12⟩
def INTK_THR_A_VTH (n : Nat) : Field := ⟨INTK_THR_A n, 16, 12⟩
def INTK_THR_B_VTL (n : Nat) : Field := ⟨INTK_THR_B n, 0, 12⟩
def INTK_THR_B_VTH (n : Nat) : Field := ⟨INTK_THR_B n, 16, 12⟩
def INTK_CKTHR_CK0_THR (n : Nat) : Field := ⟨INTK_CKTHR n, 0, 12⟩
def INTK_CKTHR_CK1_THR (n : Nat) : Field := ⟨INTK_CKTHR n, 16, 12⟩
def INTK_CKTRIM_CK0_TRIM (n : Nat) : Field := ⟨INTK_CKTRIM n, 0, 9⟩
def INTK_CKTRIM_CK1_TRIM (n : Nat) : Field := ⟨INTK_CKTRIM n, 16, 9⟩
def INTK_STATUS_ACTIVE_SET (n : Nat) : Field := ⟨INTK_STATUS n, 0, 1⟩
def INTK_STATUS_SWAP_WIN (n : Nat) : Field := ⟨INTK_STATUS n, 1, 1⟩
def INTK_STATUS_ORDER_A (n : Nat) : Field := ⟨INTK_STATUS n, 2, 1⟩
def INTK_STATUS_ORDER_B (n : Nat) : Field := ⟨INTK_STATUS n, 3, 1⟩
def INTK_STATUS_RANGE (n : Nat) : Field := ⟨INTK_STATUS n, 4, 1⟩
def INTK_STATUS_PEND (n : Nat) : Field := ⟨INTK_STATUS n, 5, 1⟩
def INTK_STATUS_QUAR (n : Nat) : Field := ⟨INTK_STATUS n, 6, 1⟩
def INTK_STATUS_CK0_SEEN (n : Nat) : Field := ⟨INTK_STATUS n, 7, 1⟩
def INTK_STATUS_CK1_SEEN (n : Nat) : Field := ⟨INTK_STATUS n, 8, 1⟩
def INTK_XCTL_XLIMIT (n : Nat) : Field := ⟨INTK_XCTL n, 0, 16⟩
def INTK_XCTL_QUARANTINE (n : Nat) : Field := ⟨INTK_XCTL n, 16, 1⟩
def INTK_XSEEN1_LINES (n : Nat) : Field := ⟨INTK_XSEEN1 n, 0, 16⟩
def INTK_XFAULT1_LINES (n : Nat) : Field := ⟨INTK_XFAULT1 n, 0, 16⟩
def INTK_CAL_MODE (n : Nat) : Field := ⟨INTK_CAL n, 0, 2⟩
def INTK_CAL_REFLINE (n : Nat) : Field := ⟨INTK_CAL n, 2, 6⟩
def INTK_CAL_GO (n : Nat) : Field := ⟨INTK_CAL n, 8, 1⟩
def INTK_CAL_COUNT (n : Nat) : Field := ⟨INTK_CAL n, 16, 16⟩
def INTK_CALSTAT_DONE (n : Nat) : Field := ⟨INTK_CALSTAT n, 0, 16⟩
def INTK_CALSTAT_BUSY (n : Nat) : Field := ⟨INTK_CALSTAT n, 16, 1⟩
def INTK_CALSTAT_REFUSED (n : Nat) : Field := ⟨INTK_CALSTAT n, 17, 1⟩
def INTK_CALSTAT_DISTURBED (n : Nat) : Field := ⟨INTK_CALSTAT n, 18, 1⟩
def INTK_CALSTAT_TIMEOUT (n : Nat) : Field := ⟨INTK_CALSTAT n, 19, 1⟩
def INTK_CKMISS_CK0_MISS (n : Nat) : Field := ⟨INTK_CKMISS n, 0, 16⟩
def INTK_CKMISS_CK1_MISS (n : Nat) : Field := ⟨INTK_CKMISS n, 16, 16⟩
def INTK_LCFG_TRIM (n i : Nat) : Field := ⟨INTK_LCFG n i, 0, 9⟩
def INTK_CALMISS_MISS (n i : Nat) : Field := ⟨INTK_CALMISS n i, 0, 16⟩
def RU_STREAM_REGIME (n : Nat) : Field := ⟨RU_STREAM n, 0, 3⟩
def RU_STREAM_RATE (n : Nat) : Field := ⟨RU_STREAM n, 3, 5⟩
def RU_STREAM_BITMODE (n : Nat) : Field := ⟨RU_STREAM n, 8, 2⟩
def RU_STREAM_RESERVE (n : Nat) : Field := ⟨RU_STREAM n, 16, 14⟩
def RU_STATECFG_EDGE (n : Nat) : Field := ⟨RU_STATECFG n, 0, 3⟩
def RU_STATECFG_QUAL (n : Nat) : Field := ⟨RU_STATECFG n, 4, 2⟩
def RU_STATECFG_CKF (n : Nat) : Field := ⟨RU_STATECFG n, 8, 4⟩
def RU_CKDELAY_CK0_DELAY (n : Nat) : Field := ⟨RU_CKDELAY n, 0, 8⟩
def RU_CKDELAY_CK1_DELAY (n : Nat) : Field := ⟨RU_CKDELAY n, 16, 8⟩
def RU_FLUSH_EXP (n : Nat) : Field := ⟨RU_FLUSH n, 0, 5⟩
def RU_STATUS_PEND (n : Nat) : Field := ⟨RU_STATUS n, 0, 1⟩
def RU_STATUS_PACK_OPEN (n : Nat) : Field := ⟨RU_STATUS n, 1, 1⟩
def RU_STATUS_EDGE_INV (n : Nat) : Field := ⟨RU_STATUS n, 2, 1⟩
def RU_STATUS_FIFO (n : Nat) : Field := ⟨RU_STATUS n, 16, 8⟩
def RU_FIFO_PEAK_PEAK (n : Nat) : Field := ⟨RU_FIFO_PEAK n, 0, 8⟩
def RU_CONTEXT_CTX (n : Nat) : Field := ⟨RU_CONTEXT n, 0, 4⟩
def RU_EYECTL_LINE (n : Nat) : Field := ⟨RU_EYECTL n, 0, 6⟩
def RU_EYECTL_MODE (n : Nat) : Field := ⟨RU_EYECTL n, 8, 2⟩
def RU_EYECTL_GO (n : Nat) : Field := ⟨RU_EYECTL n, 12, 1⟩
def RU_EYECTL_COUNT (n : Nat) : Field := ⟨RU_EYECTL n, 16, 16⟩
def RU_EYESTAT_DONE (n : Nat) : Field := ⟨RU_EYESTAT n, 0, 16⟩
def RU_EYESTAT_BUSY (n : Nat) : Field := ⟨RU_EYESTAT n, 16, 1⟩
def RU_EYESTAT_REFUSED (n : Nat) : Field := ⟨RU_EYESTAT n, 17, 1⟩
def RU_EYESTAT_TIMEOUT (n : Nat) : Field := ⟨RU_EYESTAT n, 18, 1⟩
def RU_LINE_DELAY (n i : Nat) : Field := ⟨RU_LINE n i, 0, 8⟩
def RU_LINE_F (n i : Nat) : Field := ⟨RU_LINE n i, 8, 4⟩
def RU_LINE_SOFF (n i : Nat) : Field := ⟨RU_LINE n i, 16, 6⟩
def RUG_CTL_BANKSEL (n : Nat) : Field := ⟨RUG_CTL n, 0, 1⟩
def RUG_STATUS_SET (n : Nat) : Field := ⟨RUG_STATUS n, 0, 1⟩
def RUG_STATUS_MEAS (n : Nat) : Field := ⟨RUG_STATUS n, 4, 4⟩
def RUG_STATUS_LEVEL (n : Nat) : Field := ⟨RUG_STATUS n, 8, 4⟩
def RUG_STATUS_SAT (n : Nat) : Field := ⟨RUG_STATUS n, 16, 4⟩
def RUG_STATUS_CFG_INV (n : Nat) : Field := ⟨RUG_STATUS n, 20, 4⟩
def RUG_HITSEEN_GAUGES (n : Nat) : Field := ⟨RUG_HITSEEN n, 0, 8⟩
def RUG_CNT_HI_COUNT (n i : Nat) : Field := ⟨RUG_CNT_HI n i, 0, 16⟩
def RUG_CNTCTL_SEL (n i : Nat) : Field := ⟨RUG_CNTCTL n i, 0, 1⟩
def RUG_CNTCTL_ARMED_ONLY (n i : Nat) : Field := ⟨RUG_CNTCTL n i, 1, 1⟩
def RUG_MG_MCTL_EN (n b i : Nat) : Field := ⟨RUG_MG_MCTL n b i, 0, 1⟩
def RUG_MG_MCTL_SRC (n b i : Nat) : Field := ⟨RUG_MG_MCTL n b i, 1, 1⟩
def RUG_MG_MCTL_MODE (n b i : Nat) : Field := ⟨RUG_MG_MCTL n b i, 2, 1⟩
def RUG_MG_MCTL_EDGEOP (n b i : Nat) : Field := ⟨RUG_MG_MCTL n b i, 3, 1⟩
def RUG_MG_MASK_HI_LINES (n b i : Nat) : Field := ⟨RUG_MG_MASK_HI n b i, 0, 16⟩
def RUG_MG_VALUE_HI_LINES (n b i : Nat) : Field := ⟨RUG_MG_VALUE_HI n b i, 0, 16⟩
def RUG_TG_TCTL_EN (n b i : Nat) : Field := ⟨RUG_TG_TCTL n b i, 0, 1⟩
def RUG_TG_TCTL_TYPE (n b i : Nat) : Field := ⟨RUG_TG_TCTL n b i, 1, 2⟩
def RUG_TG_TCTL_LINE (n b i : Nat) : Field := ⟨RUG_TG_TCTL n b i, 8, 6⟩
def RUG_TG_TCTL_SET (n b i : Nat) : Field := ⟨RUG_TG_TCTL n b i, 16, 4⟩
def RUG_TG_TCTL_DIR (n b i : Nat) : Field := ⟨RUG_TG_TCTL n b i, 20, 2⟩
def RUG_TG_TCTL_CMP (n b i : Nat) : Field := ⟨RUG_TG_TCTL n b i, 22, 1⟩
def RUG_TG_TCTL_OUT (n b i : Nat) : Field := ⟨RUG_TG_TCTL n b i, 23, 1⟩
def RUG_TG_TCTL_REPEAT (n b i : Nat) : Field := ⟨RUG_TG_TCTL n b i, 24, 1⟩
def RUG_TG_TCTL_XMODE (n b i : Nat) : Field := ⟨RUG_TG_TCTL n b i, 25, 1⟩
def RUG_TG_TCTL_SWAPMODE (n b i : Nat) : Field := ⟨RUG_TG_TCTL n b i, 26, 1⟩
def RUG_TG_TCTL_ARMCUT (n b i : Nat) : Field := ⟨RUG_TG_TCTL n b i, 27, 1⟩
def RUG_POSCTL_POSMASK (n b : Nat) : Field := ⟨RUG_POSCTL n b, 0, 8⟩
def CONF_TSET_BASE_A : Field := ⟨CONF_TSET, 0, 6⟩
def CONF_TSET_BASE_B : Field := ⟨CONF_TSET, 8, 6⟩
def CONF_TSET_LIVE : Field := ⟨CONF_TSET, 16, 6⟩
def CONF_SETSEL_SET : Field := ⟨CONF_SETSEL, 0, 1⟩
def CONF_STATUS_INFORCE : Field := ⟨CONF_STATUS, 0, 1⟩
def CONF_STATUS_VER_A : Field := ⟨CONF_STATUS, 1, 1⟩
def CONF_STATUS_VER_B : Field := ⟨CONF_STATUS, 2, 1⟩
def CONF_STATUS_BUSY : Field := ⟨CONF_STATUS, 3, 1⟩
def CONF_STATUS_FAIL_A : Field := ⟨CONF_STATUS, 4, 1⟩
def CONF_STATUS_FAIL_B : Field := ⟨CONF_STATUS, 5, 1⟩
def CONF_STATUS_PEND : Field := ⟨CONF_STATUS, 6, 1⟩
def CONF_STATUS_FAILTANK : Field := ⟨CONF_STATUS, 8, 4⟩
def CONF_VERIFY_GO : Field := ⟨CONF_VERIFY, 0, 1⟩
def CONF_VERIFY_SET : Field := ⟨CONF_VERIFY, 1, 1⟩
def CONF_SNAPCTL_GO : Field := ⟨CONF_SNAPCTL, 0, 1⟩
def CONF_SNAPCTL_MODE : Field := ⟨CONF_SNAPCTL, 1, 1⟩
def CONF_SNAPCTL_DONE : Field := ⟨CONF_SNAPCTL, 2, 1⟩
def CONF_SNAPCTL_LATE : Field := ⟨CONF_SNAPCTL, 3, 1⟩
def CONF_SNAP_TB_LO_CYCLE : Field := ⟨CONF_SNAP_TB_LO, 4, 28⟩
def CONF_SNAPC45_C4A : Field := ⟨CONF_SNAPC45, 0, 8⟩
def CONF_SNAPC45_C4B : Field := ⟨CONF_SNAPC45, 8, 8⟩
def CONF_SNAPC45_X : Field := ⟨CONF_SNAPC45, 16, 8⟩
def CONF_SNAPC45_E : Field := ⟨CONF_SNAPC45, 24, 8⟩
def CONF_SNAPPOS_TICK : Field := ⟨CONF_SNAPPOS, 0, 4⟩
def CONF_SNAPPOS_VALID : Field := ⟨CONF_SNAPPOS, 4, 1⟩
def SLU_CTL_CTRA_SAT : Field := ⟨SLU_CTL, 0, 1⟩
def SLU_CTL_CTRB_SAT : Field := ⟨SLU_CTL, 1, 1⟩
def SLU_CTL_GATE_LIVE : Field := ⟨SLU_CTL, 2, 1⟩
def SLU_START_LEVEL : Field := ⟨SLU_START, 0, 10⟩
def SLU_START_KEEP : Field := ⟨SLU_START, 16, 1⟩
def SLU_START_CTRCLR : Field := ⟨SLU_START, 17, 1⟩
def SLU_STATUS_STEPPING : Field := ⟨SLU_STATUS, 0, 1⟩
def SLU_STATUS_LEVEL : Field := ⟨SLU_STATUS, 16, 10⟩
def SLU_CTRA_HI_COUNT : Field := ⟨SLU_CTRA_HI, 0, 16⟩
def SLU_CTRB_HI_COUNT : Field := ⟨SLU_CTRB_HI, 0, 16⟩
def SLU_DWELLNOW_HI_COUNT : Field := ⟨SLU_DWELLNOW_HI, 0, 16⟩
def SLU_LASTTRIG_LEVEL : Field := ⟨SLU_LASTTRIG, 0, 10⟩
def SLU_LASTTRIG_POSSRC : Field := ⟨SLU_LASTTRIG, 10, 6⟩
def SLU_LASTTRIG_E : Field := ⟨SLU_LASTTRIG, 16, 8⟩
def SLU_LASTTRIG_EXACT : Field := ⟨SLU_LASTTRIG, 24, 1⟩
def TB_CTL_LOAD : Field := ⟨TB_CTL, 0, 1⟩
def TB_STATUS_REFUSED : Field := ⟨TB_STATUS, 0, 1⟩
def TB_STATUS_TRIB : Field := ⟨TB_STATUS, 1, 1⟩
def TB_STATUS_DAMREC : Field := ⟨TB_STATUS, 2, 1⟩
def ROTA_CTL_EN : Field := ⟨ROTA_CTL, 0, 1⟩
def ROTA_CTL_RESUME : Field := ⟨ROTA_CTL, 1, 1⟩
def ROTA_CTL_TANK : Field := ⟨ROTA_CTL, 8, 2⟩
def ROTA_STATUS_RUNNING : Field := ⟨ROTA_STATUS, 0, 1⟩
def ROTA_STATUS_HALTED : Field := ⟨ROTA_STATUS, 1, 1⟩
def ROTA_STATUS_STALL : Field := ⟨ROTA_STATUS, 2, 1⟩
def ROTA_STATUS_NOTANK : Field := ⟨ROTA_STATUS, 3, 1⟩
def ROTA_STATUS_FILL : Field := ⟨ROTA_STATUS, 16, 14⟩
def ROTA_HEAD_INDEX : Field := ⟨ROTA_HEAD, 0, 14⟩
def ROTA_TAIL_INDEX : Field := ⟨ROTA_TAIL, 0, 14⟩
def ROTA_REPSTOP_REP : Field := ⟨ROTA_REPSTOP, 1, 7⟩
def ROTA_REPACTIVE_REP : Field := ⟨ROTA_REPACTIVE, 1, 7⟩
def ROTA_REP_PERIOD_HI_PERIOD (i : Nat) : Field := ⟨ROTA_REP_PERIOD_HI i, 0, 16⟩
def GATE_BANKCFG_VSEL0 : Field := ⟨GATE_BANKCFG, 0, 2⟩
def GATE_BANKCFG_VSEL1 : Field := ⟨GATE_BANKCFG, 2, 2⟩
def GATE_BANKCFG_VSEL2 : Field := ⟨GATE_BANKCFG, 4, 2⟩
def GATE_BANKCFG_VSEL3 : Field := ⟨GATE_BANKCFG, 6, 2⟩
def GATE_STATUS_VSEL_REJ : Field := ⟨GATE_STATUS, 0, 4⟩
def GATE_STATUS_VSEL_BUSY : Field := ⟨GATE_STATUS, 4, 4⟩
def GATE_STATUS_PEND : Field := ⟨GATE_STATUS, 8, 1⟩
def GATE_STATUS_SAFE : Field := ⟨GATE_STATUS, 9, 1⟩
def GATE_IN_HI_LINES : Field := ⟨GATE_IN_HI, 0, 16⟩
def GATE_OUT_HI_LINES : Field := ⟨GATE_OUT_HI, 0, 16⟩
def GATE_LINE_MODE (i : Nat) : Field := ⟨GATE_LINE i, 0, 2⟩
def GATE_LINE_ODRAIN (i : Nat) : Field := ⟨GATE_LINE i, 2, 1⟩
def GATE_LINE_INITV (i : Nat) : Field := ⟨GATE_LINE i, 3, 1⟩
def GATE_LINE_F (i : Nat) : Field := ⟨GATE_LINE i, 8, 4⟩
def GATE_GLUT_SEL_IN0 (i : Nat) : Field := ⟨GATE_GLUT_SEL i, 0, 6⟩
def GATE_GLUT_SEL_C0 (i : Nat) : Field := ⟨GATE_GLUT_SEL i, 6, 2⟩
def GATE_GLUT_SEL_IN1 (i : Nat) : Field := ⟨GATE_GLUT_SEL i, 8, 6⟩
def GATE_GLUT_SEL_C1 (i : Nat) : Field := ⟨GATE_GLUT_SEL i, 14, 2⟩
def GATE_GLUT_SEL_IN2 (i : Nat) : Field := ⟨GATE_GLUT_SEL i, 16, 6⟩
def GATE_GLUT_SEL_C2 (i : Nat) : Field := ⟨GATE_GLUT_SEL i, 22, 2⟩
def GATE_GLUT_SEL_IN3 (i : Nat) : Field := ⟨GATE_GLUT_SEL i, 24, 6⟩
def GATE_GLUT_SEL_C3 (i : Nat) : Field := ⟨GATE_GLUT_SEL i, 30, 2⟩
def GATE_GLUT_TT_TT (i : Nat) : Field := ⟨GATE_GLUT_TT i, 0, 16⟩
def WEIR_ENABLE_HI_INTAKES : Field := ⟨WEIR_ENABLE_HI, 0, 16⟩
def WEIR_STATUS_PEND : Field := ⟨WEIR_STATUS, 0, 1⟩
def WEIR_STATUS_STEPPED : Field := ⟨WEIR_STATUS, 8, 6⟩
def STORE_TRAIN_FIRST : Field := ⟨STORE_TRAIN, 0, 8⟩
def STORE_TRAIN_CONT : Field := ⟨STORE_TRAIN, 8, 1⟩
def STORE_STATUS_STORING : Field := ⟨STORE_STATUS, 0, 1⟩
def STORE_STATUS_GAP : Field := ⟨STORE_STATUS, 1, 1⟩
def STORE_STATUS_STOPPED : Field := ⟨STORE_STATUS, 2, 1⟩
def STORE_STATUS_STOPCAUSE : Field := ⟨STORE_STATUS, 3, 2⟩
def STORE_STATUS_PEND : Field := ⟨STORE_STATUS, 5, 1⟩
def STORE_STATUS_CURRENT : Field := ⟨STORE_STATUS, 8, 8⟩
def STORE_STATUS_LASTCLOSED : Field := ⟨STORE_STATUS, 16, 8⟩
def STORE_PROFCTL_AUTO : Field := ⟨STORE_PROFCTL, 0, 4⟩
def STORE_PROF_W_W_EVEN (i j : Nat) : Field := ⟨STORE_PROF_W i j, 0, 16⟩
def STORE_PROF_W_W_ODD (i j : Nat) : Field := ⟨STORE_PROF_W i j, 16, 16⟩
def SEG_CFG_WINMODE (s : Nat) : Field := ⟨SEG_CFG s, 0, 1⟩
def SEG_CFG_PREPOL (s : Nat) : Field := ⟨SEG_CFG s, 1, 1⟩
def SEG_CFG_WRAPPOL (s : Nat) : Field := ⟨SEG_CFG s, 2, 1⟩
def SEG_CFG_PROFILE (s : Nat) : Field := ⟨SEG_CFG s, 3, 2⟩
def SEG_CFG_LINK_EN (s : Nat) : Field := ⟨SEG_CFG s, 5, 1⟩
def SEG_CFG_NEXT (s : Nat) : Field := ⟨SEG_CFG s, 8, 8⟩
def SEG_CFG_WUNIT (s : Nat) : Field := ⟨SEG_CFG s, 16, 5⟩
def SEG_BASE_PACKS (s : Nat) : Field := ⟨SEG_BASE s, 0, 28⟩
def SEG_SIZE_PACKS (s : Nat) : Field := ⟨SEG_SIZE s, 0, 28⟩
def SEG_MARK_MKPACKS (s : Nat) : Field := ⟨SEG_MARK s, 0, 16⟩
def SEG_MARK_MKUSED (s : Nat) : Field := ⟨SEG_MARK s, 16, 16⟩
def SEG_STATUS_STATE (s : Nat) : Field := ⟨SEG_STATUS s, 0, 3⟩
def SEG_STATUS_PRE_SHORT (s : Nat) : Field := ⟨SEG_STATUS s, 3, 1⟩
def SEG_STATUS_POST_SHORT (s : Nat) : Field := ⟨SEG_STATUS s, 4, 1⟩
def SEG_STATUS_SETTLED (s : Nat) : Field := ⟨SEG_STATUS s, 5, 1⟩
def SEG_STATUS_OVERWROTE (s : Nat) : Field := ⟨SEG_STATUS s, 6, 1⟩
def SEG_STATUS_MKFULL (s : Nat) : Field := ⟨SEG_STATUS s, 7, 1⟩
def SEG_STATUS_GEN (s : Nat) : Field := ⟨SEG_STATUS s, 8, 3⟩
def SEG_STATUS_LOCK (s : Nat) : Field := ⟨SEG_STATUS s, 16, 8⟩
def SEG_LOCKCTL_ACQ (s : Nat) : Field := ⟨SEG_LOCKCTL s, 0, 1⟩
def SEG_LOCKCTL_REL (s : Nat) : Field := ⟨SEG_LOCKCTL s, 1, 1⟩
def SEG_LOCKCTL_MARKREAD (s : Nat) : Field := ⟨SEG_LOCKCTL s, 2, 1⟩
def SEG_TRIGCNTS_MISSED (s : Nat) : Field := ⟨SEG_TRIGCNTS s, 0, 16⟩
def SEG_TRIGCNTS_UNHONOURED (s : Nat) : Field := ⟨SEG_TRIGCNTS s, 16, 16⟩
def FLU_CTL_EN (n : Nat) : Field := ⟨FLU_CTL n, 0, 1⟩
def FLU_CTL_RETRAIN (n : Nat) : Field := ⟨FLU_CTL n, 1, 1⟩
def FLU_STATUS_STATE (n : Nat) : Field := ⟨FLU_STATUS n, 0, 2⟩
def FLU_STATUS_PEER_PORT (n : Nat) : Field := ⟨FLU_STATUS n, 2, 1⟩
def FLU_STATUS_PEER_POS (n : Nat) : Field := ⟨FLU_STATUS n, 3, 3⟩
def FLU_STATUS_PEER_POSV (n : Nat) : Field := ⟨FLU_STATUS n, 6, 1⟩
def FLU_STATUS_REFSRC (n : Nat) : Field := ⟨FLU_STATUS n, 7, 1⟩
def FLU_STATUS_LANES (n : Nat) : Field := ⟨FLU_STATUS n, 8, 8⟩
def FLU_FLIGHT_FLIGHT (n : Nat) : Field := ⟨FLU_FLIGHT n, 0, 24⟩
def FLU_HOPDLY_CCLK (n : Nat) : Field := ⟨FLU_HOPDLY n, 0, 5⟩
def RING_CTL_MODE : Field := ⟨RING_CTL, 0, 1⟩
def RING_CTL_FUNNEL : Field := ⟨RING_CTL, 1, 1⟩
def RING_CTL_SETTLE_FOLLOW : Field := ⟨RING_CTL, 2, 1⟩
def RING_CTL_AUTOREF : Field := ⟨RING_CTL, 3, 1⟩
def RING_CTL_REDISCOVER : Field := ⟨RING_CTL, 4, 1⟩
def RING_STATUS_ROLE : Field := ⟨RING_STATUS, 0, 2⟩
def RING_STATUS_POS : Field := ⟨RING_STATUS, 2, 3⟩
def RING_STATUS_RINGSIZE : Field := ⟨RING_STATUS, 5, 4⟩
def RING_STATUS_STATE : Field := ⟨RING_STATUS, 9, 3⟩
def RING_STATUS_MODE : Field := ⟨RING_STATUS, 12, 1⟩
def RING_STATUS_FUNNEL : Field := ⟨RING_STATUS, 13, 1⟩
def RING_STATUS_CLOSED : Field := ⟨RING_STATUS, 14, 1⟩
def RING_STATUS_HOLDOVER : Field := ⟨RING_STATUS, 15, 1⟩
def RING_MEMBERS_PRESENT : Field := ⟨RING_MEMBERS, 0, 8⟩
def RING_MEMBERS_ARMED : Field := ⟨RING_MEMBERS, 8, 8⟩
def RING_MEMBERS_REACH : Field := ⟨RING_MEMBERS, 16, 8⟩
def RING_MEMBERS_FUNNEL_MAP : Field := ⟨RING_MEMBERS, 24, 8⟩
def RING_REASON_CODE : Field := ⟨RING_REASON, 0, 4⟩
def RING_REASON_POS : Field := ⟨RING_REASON, 4, 3⟩
def RING_PATHDLY_BROKEN : Field := ⟨RING_PATHDLY, 0, 8⟩
def RING_PATHDLY_WHOLE : Field := ⟨RING_PATHDLY, 8, 8⟩
def RING_CWR_CTL_GO : Field := ⟨RING_CWR_CTL, 0, 1⟩
def RING_CWR_CTL_READ : Field := ⟨RING_CWR_CTL, 1, 1⟩
def RING_CWR_CTL_TARGET : Field := ⟨RING_CWR_CTL, 2, 3⟩
def RING_CWR_CTL_BUSY : Field := ⟨RING_CWR_CTL, 8, 1⟩
def RING_CWR_CTL_RESULT : Field := ⟨RING_CWR_CTL, 9, 3⟩
def RING_CWR_ADDR_OFFSET : Field := ⟨RING_CWR_ADDR, 2, 18⟩
def CIS_CFG_ORDER : Field := ⟨CIS_CFG, 0, 2⟩
def CIS_CTL_OPGO : Field := ⟨CIS_CTL, 0, 1⟩
def CIS_CTL_OPTGT : Field := ⟨CIS_CTL, 1, 1⟩
def CIS_CTL_VBALIGN : Field := ⟨CIS_CTL, 2, 1⟩
def CIS_CTL_REINIT : Field := ⟨CIS_CTL, 4, 1⟩
def CIS_STATUS_STATE : Field := ⟨CIS_STATUS, 0, 3⟩
def CIS_STATUS_OP : Field := ⟨CIS_STATUS, 3, 1⟩
def CIS_STATUS_ORDER : Field := ⟨CIS_STATUS, 4, 2⟩
def CIS_STATUS_OPPEND : Field := ⟨CIS_STATUS, 6, 1⟩
def CIS_STATUS_OPRESULT : Field := ⟨CIS_STATUS, 7, 2⟩
def CIS_STATUS_REINIT_REJ : Field := ⟨CIS_STATUS, 9, 1⟩
def CIS_STATUS_TRAINING : Field := ⟨CIS_STATUS, 10, 1⟩
def CIS_STATUS_DISP_INV : Field := ⟨CIS_STATUS, 11, 1⟩
def CIS_STATUS_OFFCOUNT : Field := ⟨CIS_STATUS, 16, 7⟩
def CIS_WSCHED_WR_HI : Field := ⟨CIS_WSCHED, 0, 7⟩
def CIS_WSCHED_WR_LO : Field := ⟨CIS_WSCHED, 8, 7⟩
def CIS_WSCHED_WR_AGE : Field := ⟨CIS_WSCHED, 16, 16⟩
def CIS_RSCHED_RD_AGE : Field := ⟨CIS_RSCHED, 0, 16⟩
def CIS_NRCTL_EN : Field := ⟨CIS_NRCTL, 0, 1⟩
def CIS_NRCTL_NR2 : Field := ⟨CIS_NRCTL, 1, 1⟩
def CIS_NRCTL_K : Field := ⟨CIS_NRCTL, 8, 5⟩
def CIS_TRAINCTL_EN : Field := ⟨CIS_TRAINCTL, 0, 1⟩
def CIS_TRAINCTL_PERIOD : Field := ⟨CIS_TRAINCTL, 8, 8⟩
def CIS_DISP_BASE_PACKS : Field := ⟨CIS_DISP_BASE, 0, 28⟩
def CIS_DISP_SIZE_PACKS : Field := ⟨CIS_DISP_SIZE, 0, 28⟩
def CIS_LASTUE_HI_ADDR : Field := ⟨CIS_LASTUE_HI, 0, 8⟩
def CISP_PC_STATE_STATE (n i : Nat) : Field := ⟨CISP_PC_STATE n i, 0, 2⟩
def CISP_PC_STATE_WMODE (n i : Nat) : Field := ⟨CISP_PC_STATE n i, 2, 1⟩
def CISP_PC_STATE_REVIVING (n i : Nat) : Field := ⟨CISP_PC_STATE n i, 3, 1⟩
def CISP_PC_STATE_WQ (n i : Nat) : Field := ⟨CISP_PC_STATE n i, 8, 7⟩
def CISP_PC_STATE_RQ (n i : Nat) : Field := ⟨CISP_PC_STATE n i, 16, 6⟩
def CISP_PC_STATE_LADDER (n i : Nat) : Field := ⟨CISP_PC_STATE n i, 22, 2⟩
def CISP_PC_CTL_REVIVE (n i : Nat) : Field := ⟨CISP_PC_CTL n i, 0, 1⟩
def CISP_STACKSTAT_TEMP (n : Nat) : Field := ⟨CISP_STACKSTAT n, 0, 8⟩
def CISP_STACKSTAT_REFMUL (n : Nat) : Field := ⟨CISP_STACKSTAT n, 8, 2⟩
def CISP_STACKSTAT_PRESENT (n : Nat) : Field := ⟨CISP_STACKSTAT n, 16, 1⟩
def CISP_STACKTEMP_MAX_TEMP (n : Nat) : Field := ⟨CISP_STACKTEMP_MAX n, 0, 8⟩
def CBIST_CTL_SCRUB_EN : Field := ⟨CBIST_CTL, 0, 1⟩
def CBIST_CTL_MARCH_EN : Field := ⟨CBIST_CTL, 1, 1⟩
def CBIST_CTL_GO : Field := ⟨CBIST_CTL, 2, 1⟩
def CBIST_STATUS_BUSY : Field := ⟨CBIST_STATUS, 0, 1⟩
def CBIST_STATUS_MARCH : Field := ⟨CBIST_STATUS, 1, 1⟩
def CBIST_STATUS_PC : Field := ⟨CBIST_STATUS, 8, 6⟩
def CBIST_RATE_BURSTS : Field := ⟨CBIST_RATE, 0, 8⟩
def CBIST_POS_HI_ADDR : Field := ⟨CBIST_POS_HI, 0, 8⟩
def CBIST_LASTFAULT_HI_ADDR : Field := ⟨CBIST_LASTFAULT_HI, 0, 8⟩
def TANK_STATUS_PENDING : Field := ⟨TANK_STATUS, 0, 7⟩
def TANK_RETREQ_REQ : Field := ⟨TANK_RETREQ, 0, 8⟩
def TANK_RETSTAT_RET : Field := ⟨TANK_RETSTAT, 0, 8⟩
def TANK_RETSTAT_WAKING : Field := ⟨TANK_RETSTAT, 8, 8⟩
def TANK_RETSTAT_HELD : Field := ⟨TANK_RETSTAT, 16, 8⟩
def TANK_RETIDLE_US : Field := ⟨TANK_RETIDLE, 0, 16⟩
def TANK_LASTUE_WORD : Field := ⟨TANK_LASTUE, 0, 15⟩
def TANK_LASTUE_TANK : Field := ⟨TANK_LASTUE, 16, 6⟩
def TANK_LASTVIOL_TANK : Field := ⟨TANK_LASTVIOL, 0, 6⟩
def TANK_LASTVIOL_PORT : Field := ⟨TANK_LASTVIOL, 6, 1⟩
def TANK_LASTVIOL_WRITE : Field := ⟨TANK_LASTVIOL, 7, 1⟩
def TANK_LASTVIOL_OWNER : Field := ⟨TANK_LASTVIOL, 8, 3⟩
def TANK_OWN_REQ (i : Nat) : Field := ⟨TANK_OWN i, 0, 3⟩
def TANK_OWN_CUR (i : Nat) : Field := ⟨TANK_OWN i, 8, 3⟩
def TANK_OWN_PEND (i : Nat) : Field := ⟨TANK_OWN i, 12, 1⟩
def TANK_OWN_REFUSED (i : Nat) : Field := ⟨TANK_OWN i, 13, 1⟩
def TANK_OWN_REASON (i : Nat) : Field := ⟨TANK_OWN i, 16, 3⟩
def TBIST_CTL_TANK : Field := ⟨TBIST_CTL, 0, 6⟩
def TBIST_CTL_SPARE : Field := ⟨TBIST_CTL, 8, 6⟩
def TBIST_CTL_GO : Field := ⟨TBIST_CTL, 16, 1⟩
def TBIST_STATUS_BUSY : Field := ⟨TBIST_STATUS, 0, 1⟩
def TBIST_STATUS_PHASE : Field := ⟨TBIST_STATUS, 1, 2⟩
def TBIST_STATUS_REFUSED : Field := ⟨TBIST_STATUS, 3, 1⟩
def TBIST_STATUS_REASON : Field := ⟨TBIST_STATUS, 4, 3⟩
def TBIST_STATUS_RESULT : Field := ⟨TBIST_STATUS, 8, 1⟩
def TBIST_STATUS_TESTING : Field := ⟨TBIST_STATUS, 16, 6⟩
def TBIST_REMAP_TANK : Field := ⟨TBIST_REMAP, 0, 6⟩
def TBIST_REMAP_SPARE : Field := ⟨TBIST_REMAP, 8, 6⟩
def TBIST_REMAP_VALID : Field := ⟨TBIST_REMAP, 14, 1⟩
def TBIST_LASTFAULT_WORD : Field := ⟨TBIST_LASTFAULT, 0, 15⟩
def TBIST_LASTFAULT_TANK : Field := ⟨TBIST_LASTFAULT, 16, 6⟩
def TBIST_LASTFAULT_BIT : Field := ⟨TBIST_LASTFAULT, 22, 7⟩
def HOST_CTL_HOLD_RELEASE : Field := ⟨HOST_CTL, 0, 1⟩
def HOST_STATUS_SPEED : Field := ⟨HOST_STATUS, 0, 3⟩
def HOST_STATUS_WIDTH : Field := ⟨HOST_STATUS, 3, 5⟩
def HOST_STATUS_L0 : Field := ⟨HOST_STATUS, 8, 1⟩
def HOST_STATUS_BME : Field := ⟨HOST_STATUS, 9, 1⟩
def HOST_STATUS_MSE : Field := ⟨HOST_STATUS, 10, 1⟩
def HOST_STATUS_D3HOT : Field := ⟨HOST_STATUS, 11, 1⟩
def HOST_STATUS_HOLD : Field := ⟨HOST_STATUS, 12, 1⟩
def HOST_STATUS_HOLDCAUSE : Field := ⟨HOST_STATUS, 13, 2⟩
def HOST_STATUS_INTMODE : Field := ⟨HOST_STATUS, 15, 2⟩
def HOST_STATUS_FUNNEL : Field := ⟨HOST_STATUS, 17, 1⟩
def HOST_STATUS_COMMONCLK : Field := ⟨HOST_STATUS, 18, 1⟩
def HOST_STATUS_L1 : Field := ⟨HOST_STATUS, 19, 1⟩
def HOST_TRIB_LOST_FUNCS : Field := ⟨HOST_TRIB_LOST, 1, 7⟩
def HOST_TRIBCTL_FUNCS : Field := ⟨HOST_TRIBCTL, 1, 7⟩
def HOST_PMCTL_L1IDLE : Field := ⟨HOST_PMCTL, 0, 16⟩
def HOST_PMCTL_LTRIDLE : Field := ⟨HOST_PMCTL, 16, 16⟩
def HOST_LASTREF_BAR : Field := ⟨HOST_LASTREF, 0, 3⟩
def HOST_LASTREF_WRITE : Field := ⟨HOST_LASTREF, 3, 1⟩
def HOST_LASTREF_CAUSE : Field := ⟨HOST_LASTREF, 4, 2⟩
def HOST_LASTREF_OFFSET : Field := ⟨HOST_LASTREF, 8, 24⟩
def WIN_COMMIT_WINDOWS : Field := ⟨WIN_COMMIT, 0, 16⟩
def WIN_STATUS_PEND : Field := ⟨WIN_STATUS, 0, 16⟩
def WIN_STATUS_ACTIVE : Field := ⟨WIN_STATUS, 16, 16⟩
def WIN_LASTFAULT_WIN : Field := ⟨WIN_LASTFAULT, 0, 4⟩
def WIN_LASTFAULT_CAUSE : Field := ⟨WIN_LASTFAULT, 4, 3⟩
def WIN_LASTFAULT_WRITE : Field := ⟨WIN_LASTFAULT, 7, 1⟩
def WIN_LASTFAULT_OFFSET : Field := ⟨WIN_LASTFAULT, 8, 20⟩
def WIN_SH_BASE_LO_ADDR (i : Nat) : Field := ⟨WIN_SH_BASE_LO i, 12, 20⟩
def WIN_SH_BASE_HI_ADDR (i : Nat) : Field := ⟨WIN_SH_BASE_HI i, 0, 8⟩
def WIN_SH_SIZE_PAGES (i : Nat) : Field := ⟨WIN_SH_SIZE i, 0, 17⟩
def WIN_SH_CFG_EN (i : Nat) : Field := ⟨WIN_SH_CFG i, 0, 1⟩
def WIN_SH_CFG_WRITE (i : Nat) : Field := ⟨WIN_SH_CFG i, 1, 1⟩
def WIN_SH_CFG_LOCK (i : Nat) : Field := ⟨WIN_SH_CFG i, 2, 1⟩
def WIN_SH_CFG_SEG (i : Nat) : Field := ⟨WIN_SH_CFG i, 8, 8⟩
def WIN_BASE_LO_ADDR (i : Nat) : Field := ⟨WIN_BASE_LO i, 12, 20⟩
def WIN_BASE_HI_ADDR (i : Nat) : Field := ⟨WIN_BASE_HI i, 0, 8⟩
def WIN_SIZE_PAGES (i : Nat) : Field := ⟨WIN_SIZE i, 0, 17⟩
def WIN_CFG_EN (i : Nat) : Field := ⟨WIN_CFG i, 0, 1⟩
def WIN_CFG_WRITE (i : Nat) : Field := ⟨WIN_CFG i, 1, 1⟩
def WIN_CFG_LOCK (i : Nat) : Field := ⟨WIN_CFG i, 2, 1⟩
def WIN_CFG_SEG (i : Nat) : Field := ⟨WIN_CFG i, 8, 8⟩
def DRAIN_RESUME_DRAINS : Field := ⟨DRAIN_RESUME, 0, 4⟩
def DRAIN_STATUS_STATES : Field := ⟨DRAIN_STATUS, 0, 8⟩
def DRAIN_CTL_EN (i : Nat) : Field := ⟨DRAIN_CTL i, 0, 1⟩
def DRAIN_CTL_RING_LOC (i : Nat) : Field := ⟨DRAIN_CTL i, 1, 1⟩
def DRAIN_CTL_CPL_EN (i : Nat) : Field := ⟨DRAIN_CTL i, 2, 1⟩
def DRAIN_CTL_RING_LOG2 (i : Nat) : Field := ⟨DRAIN_CTL i, 8, 5⟩
def DRAIN_RING_BASE_LO_ADDR (i : Nat) : Field := ⟨DRAIN_RING_BASE_LO i, 5, 27⟩
def DRAIN_HEAD_INDEX (i : Nat) : Field := ⟨DRAIN_HEAD i, 0, 16⟩
def DRAIN_TAIL_INDEX (i : Nat) : Field := ⟨DRAIN_TAIL i, 0, 16⟩
def DRAIN_CPL_BASE_LO_ADDR (i : Nat) : Field := ⟨DRAIN_CPL_BASE_LO i, 4, 28⟩
def DRAIN_DSTAT_STATE (i : Nat) : Field := ⟨DRAIN_DSTAT i, 0, 2⟩
def DRAIN_DSTAT_RESUME_VALID (i : Nat) : Field := ⟨DRAIN_DSTAT i, 2, 1⟩
def DRAIN_DSTAT_PHASE (i : Nat) : Field := ⟨DRAIN_DSTAT i, 3, 1⟩
def DRAIN_DSTAT_LASTSTATUS (i : Nat) : Field := ⟨DRAIN_DSTAT i, 8, 8⟩
def DRAIN_RESUME_IDX_INDEX (i : Nat) : Field := ⟨DRAIN_RESUME_IDX i, 0, 16⟩
def DRAIN_LASTERR_INDEX (i : Nat) : Field := ⟨DRAIN_LASTERR i, 0, 16⟩
def DRAIN_LASTERR_STATUS (i : Nat) : Field := ⟨DRAIN_LASTERR i, 16, 8⟩
def DISP_CTL_EN (n : Nat) : Field := ⟨DISP_CTL n, 0, 1⟩
def DISP_CTL_CLONE (n : Nat) : Field := ⟨DISP_CTL n, 1, 1⟩
def DISP_STATUS_HPD (n : Nat) : Field := ⟨DISP_STATUS n, 0, 1⟩
def DISP_STATUS_LINK (n : Nat) : Field := ⟨DISP_STATUS n, 1, 3⟩
def DISP_STATUS_TRATE (n : Nat) : Field := ⟨DISP_STATUS n, 4, 2⟩
def DISP_STATUS_TLANES (n : Nat) : Field := ⟨DISP_STATUS n, 6, 3⟩
def DISP_STATUS_ASYNC (n : Nat) : Field := ⟨DISP_STATUS n, 9, 1⟩
def DISP_STATUS_STRETCH (n : Nat) : Field := ⟨DISP_STATUS n, 10, 1⟩
def DISP_STATUS_BG (n : Nat) : Field := ⟨DISP_STATUS n, 11, 1⟩
def DISP_STATUS_BLANK (n : Nat) : Field := ⟨DISP_STATUS n, 12, 1⟩
def DISP_STATUS_REJ (n : Nat) : Field := ⟨DISP_STATUS n, 13, 3⟩
def DISP_STATUS_LINE (n : Nat) : Field := ⟨DISP_STATUS n, 16, 14⟩
def DISP_LINKCFG_RATE (n : Nat) : Field := ⟨DISP_LINKCFG n, 0, 2⟩
def DISP_LINKCFG_LANES (n : Nat) : Field := ⟨DISP_LINKCFG n, 2, 2⟩
def DISP_LINKCFG_AUTOFALL (n : Nat) : Field := ⟨DISP_LINKCFG n, 4, 1⟩
def DISP_LINKCFG_AUTO (n : Nat) : Field := ⟨DISP_LINKCFG n, 5, 1⟩
def DISP_LINKCFG_TRAIN (n : Nat) : Field := ⟨DISP_LINKCFG n, 8, 1⟩
def DISP_BGCOLOR_RGB (n : Nat) : Field := ⟨DISP_BGCOLOR n, 0, 24⟩
def DISP_HTIM0_HACT (n : Nat) : Field := ⟨DISP_HTIM0 n, 0, 13⟩
def DISP_HTIM0_HFP (n : Nat) : Field := ⟨DISP_HTIM0 n, 16, 13⟩
def DISP_HTIM1_HSYNC (n : Nat) : Field := ⟨DISP_HTIM1 n, 0, 13⟩
def DISP_HTIM1_HBP (n : Nat) : Field := ⟨DISP_HTIM1 n, 16, 13⟩
def DISP_HTIM1_HPOL (n : Nat) : Field := ⟨DISP_HTIM1 n, 31, 1⟩
def DISP_VTIM0_VACT (n : Nat) : Field := ⟨DISP_VTIM0 n, 0, 13⟩
def DISP_VTIM0_VFP (n : Nat) : Field := ⟨DISP_VTIM0 n, 16, 13⟩
def DISP_VTIM1_VSYNC (n : Nat) : Field := ⟨DISP_VTIM1 n, 0, 13⟩
def DISP_VTIM1_VBP (n : Nat) : Field := ⟨DISP_VTIM1 n, 16, 13⟩
def DISP_VTIM1_VPOL (n : Nat) : Field := ⟨DISP_VTIM1 n, 31, 1⟩
def DISP_PIXDIV_K (n : Nat) : Field := ⟨DISP_PIXDIV n, 0, 8⟩
def DISP_FB_BASE_LO_ADDR (n : Nat) : Field := ⟨DISP_FB_BASE_LO n, 8, 24⟩
def DISP_FB_BASE_HI_ADDR (n : Nat) : Field := ⟨DISP_FB_BASE_HI n, 0, 8⟩
def DISP_FBCFG_FORMAT (n : Nat) : Field := ⟨DISP_FBCFG n, 0, 1⟩
def DISP_FBCFG_STRIDE (n : Nat) : Field := ⟨DISP_FBCFG n, 8, 16⟩
def DISP_CUR_HTIM0_HACT (n : Nat) : Field := ⟨DISP_CUR_HTIM0 n, 0, 13⟩
def DISP_CUR_HTIM0_HFP (n : Nat) : Field := ⟨DISP_CUR_HTIM0 n, 16, 13⟩
def DISP_CUR_HTIM1_HSYNC (n : Nat) : Field := ⟨DISP_CUR_HTIM1 n, 0, 13⟩
def DISP_CUR_HTIM1_HBP (n : Nat) : Field := ⟨DISP_CUR_HTIM1 n, 16, 13⟩
def DISP_CUR_HTIM1_HPOL (n : Nat) : Field := ⟨DISP_CUR_HTIM1 n, 31, 1⟩
def DISP_CUR_VTIM0_VACT (n : Nat) : Field := ⟨DISP_CUR_VTIM0 n, 0, 13⟩
def DISP_CUR_VTIM0_VFP (n : Nat) : Field := ⟨DISP_CUR_VTIM0 n, 16, 13⟩
def DISP_CUR_VTIM1_VSYNC (n : Nat) : Field := ⟨DISP_CUR_VTIM1 n, 0, 13⟩
def DISP_CUR_VTIM1_VBP (n : Nat) : Field := ⟨DISP_CUR_VTIM1 n, 16, 13⟩
def DISP_CUR_VTIM1_VPOL (n : Nat) : Field := ⟨DISP_CUR_VTIM1 n, 31, 1⟩
def DISP_CUR_PIXDIV_K (n : Nat) : Field := ⟨DISP_CUR_PIXDIV n, 0, 8⟩
def DISP_CUR_FB_BASE_LO_ADDR (n : Nat) : Field := ⟨DISP_CUR_FB_BASE_LO n, 8, 24⟩
def DISP_CUR_FB_BASE_HI_ADDR (n : Nat) : Field := ⟨DISP_CUR_FB_BASE_HI n, 0, 8⟩
def DISP_CUR_FBCFG_FORMAT (n : Nat) : Field := ⟨DISP_CUR_FBCFG n, 0, 1⟩
def DISP_CUR_FBCFG_STRIDE (n : Nat) : Field := ⟨DISP_CUR_FBCFG n, 8, 16⟩
def DISP_STATIC_FRAMES (n : Nat) : Field := ⟨DISP_STATIC n, 0, 16⟩
def DISP_STATIC_VTMAX (n : Nat) : Field := ⟨DISP_STATIC n, 16, 14⟩
def DISP_FETCH_URGMARK (n : Nat) : Field := ⟨DISP_FETCH n, 0, 8⟩
def DISP_AUXCTL_CMD (n : Nat) : Field := ⟨DISP_AUXCTL n, 0, 4⟩
def DISP_AUXCTL_LEN (n : Nat) : Field := ⟨DISP_AUXCTL n, 8, 4⟩
def DISP_AUXCTL_GO (n : Nat) : Field := ⟨DISP_AUXCTL n, 16, 1⟩
def DISP_AUXCTL_RETRY (n : Nat) : Field := ⟨DISP_AUXCTL n, 20, 4⟩
def DISP_AUXADDR_ADDR (n : Nat) : Field := ⟨DISP_AUXADDR n, 0, 20⟩
def DISP_AUXSTAT_BUSY (n : Nat) : Field := ⟨DISP_AUXSTAT n, 0, 1⟩
def DISP_AUXSTAT_RESULT (n : Nat) : Field := ⟨DISP_AUXSTAT n, 1, 3⟩
def DISP_AUXSTAT_REPLY (n : Nat) : Field := ⟨DISP_AUXSTAT n, 4, 4⟩
def DISP_AUXSTAT_COUNT (n : Nat) : Field := ⟨DISP_AUXSTAT n, 8, 5⟩
def SAFE_CTL_RELEASE : Field := ⟨SAFE_CTL, 0, 1⟩
def SAFE_CTL_SETTLE : Field := ⟨SAFE_CTL, 1, 1⟩
def SAFE_CTL_DAM_SAFE : Field := ⟨SAFE_CTL, 2, 1⟩
def SAFE_STATUS_SETTLED : Field := ⟨SAFE_STATUS, 0, 1⟩
def SAFE_STATUS_ACTIVE : Field := ⟨SAFE_STATUS, 1, 1⟩
def SAFE_STATUS_RELEASE_REJ : Field := ⟨SAFE_STATUS, 2, 1⟩
def SAFE_STATUS_CAUSE : Field := ⟨SAFE_STATUS, 16, 16⟩
def SAFE_CAUSES_CAUSE : Field := ⟨SAFE_CAUSES, 1, 9⟩
def EVT_CTL_EN : Field := ⟨EVT_CTL, 0, 1⟩
def EVT_CTL_RING_LOG2 : Field := ⟨EVT_CTL, 8, 5⟩
def EVT_RING_BASE_LO_ADDR : Field := ⟨EVT_RING_BASE_LO, 4, 28⟩
def EVT_HEAD_INDEX : Field := ⟨EVT_HEAD, 0, 16⟩
def EVT_TAIL_INDEX : Field := ⟨EVT_TAIL, 0, 16⟩
def EVT_STG_HEAD_INDEX : Field := ⟨EVT_STG_HEAD, 0, 16⟩
def EVT_STG_TAIL_INDEX : Field := ⟨EVT_STG_TAIL, 0, 16⟩
def EVT_VEC_C : Field := ⟨EVT_VEC, 0, 6⟩
def EVT_VEC_U : Field := ⟨EVT_VEC, 8, 6⟩
def EVT_VEC_S : Field := ⟨EVT_VEC, 16, 6⟩
def EVT_FILL_INDEX : Field := ⟨EVT_FILL, 0, 16⟩
def DAM_CTL_ASSERT : Field := ⟨DAM_CTL, 0, 1⟩
def DAM_CTL_RELEASE : Field := ⟨DAM_CTL, 1, 1⟩
def DAM_CTL_PIN_EN : Field := ⟨DAM_CTL, 2, 1⟩
def DAM_CTL_GATEACT : Field := ⟨DAM_CTL, 8, 5⟩
def DAM_STATUS_DAMMED : Field := ⟨DAM_STATUS, 0, 1⟩
def DAM_STATUS_STOPPING : Field := ⟨DAM_STATUS, 1, 1⟩
def DAM_STATUS_CAUSE : Field := ⟨DAM_STATUS, 2, 3⟩
def DAM_STATUS_DRIVER : Field := ⟨DAM_STATUS, 5, 1⟩
def DAM_STATUS_PINLOW : Field := ⟨DAM_STATUS, 6, 1⟩
def DAM_STATUS_REARMED : Field := ⟨DAM_STATUS, 7, 1⟩
def DAM_IMG_ADDR_ADDR : Field := ⟨DAM_IMG_ADDR, 2, 30⟩
def SYS_IDENT_STACKS : Field := ⟨SYS_IDENT, 0, 2⟩
def SYS_IDENT_GRADE : Field := ⟨SYS_IDENT, 4, 4⟩
def SYS_IDENT_REV : Field := ⟨SYS_IDENT, 8, 8⟩
def SYS_IDENT_PART : Field := ⟨SYS_IDENT, 16, 16⟩
def SYS_CTL_ARM : Field := ⟨SYS_CTL, 0, 1⟩
def SYS_CTL_DISARM : Field := ⟨SYS_CTL, 1, 1⟩
def SYS_CTL_RESET : Field := ⟨SYS_CTL, 2, 1⟩
def SYS_CTL_KEY : Field := ⟨SYS_CTL, 16, 16⟩
def SYS_STATUS_READY : Field := ⟨SYS_STATUS, 0, 1⟩
def SYS_STATUS_ARMED : Field := ⟨SYS_STATUS, 1, 1⟩
def SYS_STATUS_ARMING : Field := ⟨SYS_STATUS, 2, 1⟩
def SYS_STATUS_SETTLED : Field := ⟨SYS_STATUS, 3, 1⟩
def SYS_STATUS_DAMMED : Field := ⟨SYS_STATUS, 4, 1⟩
def SYS_STATUS_CIS_READY : Field := ⟨SYS_STATUS, 5, 1⟩
def SYS_STATUS_TANKS_DONE : Field := ⟨SYS_STATUS, 6, 1⟩
def SYS_STATUS_RESETCAUSE : Field := ⟨SYS_STATUS, 8, 3⟩
def SYS_ARM_HI_REASON : Field := ⟨SYS_ARM_HI, 0, 8⟩
def SYS_ARM_HI_SRC : Field := ⟨SYS_ARM_HI, 8, 1⟩
def SYS_BUDGET_HI_LIMIT : Field := ⟨SYS_BUDGET_HI, 0, 16⟩
def CLK_REFSEL_SRC : Field := ⟨CLK_REFSEL, 0, 2⟩
def CLK_REFSEL_REFOUT_EN : Field := ⟨CLK_REFSEL, 4, 1⟩
def CLK_REFCTL_REVERT : Field := ⟨CLK_REFCTL, 0, 1⟩
def CLK_STATUS_ACTIVE : Field := ⟨CLK_STATUS, 0, 1⟩
def CLK_STATUS_LOCK_A : Field := ⟨CLK_STATUS, 1, 1⟩
def CLK_STATUS_LOCK_B : Field := ⟨CLK_STATUS, 2, 1⟩
def CLK_STATUS_REDUNDANT : Field := ⟨CLK_STATUS, 3, 1⟩
def CLK_STATUS_HOLDOVER : Field := ⟨CLK_STATUS, 4, 1⟩
def CLK_STATUS_INUSE : Field := ⟨CLK_STATUS, 5, 2⟩
def CLK_STATUS_SLEWING : Field := ⟨CLK_STATUS, 7, 1⟩
def CLK_STATUS_EXT_SEEN : Field := ⟨CLK_STATUS, 8, 1⟩
def MGT_ADDR_EFFECTIVE : Field := ⟨MGT_ADDR, 0, 7⟩
def MGT_ADDR_SETTLED : Field := ⟨MGT_ADDR, 7, 1⟩
def MGT_ADDR_BASE : Field := ⟨MGT_ADDR, 8, 7⟩
def MGT_ADDR_BADBASE : Field := ⟨MGT_ADDR, 15, 1⟩
def MGT_ALERTEN_TEMP_WARN : Field := ⟨MGT_ALERTEN, 0, 1⟩
def MGT_ALERTEN_SUP_WARN : Field := ⟨MGT_ALERTEN, 1, 1⟩
def MGT_ALERTEN_LOG_RESERVE : Field := ⟨MGT_ALERTEN, 2, 1⟩
def MGT_ALERTSRC_TEMP_WARN : Field := ⟨MGT_ALERTSRC, 0, 1⟩
def MGT_ALERTSRC_SUP_WARN : Field := ⟨MGT_ALERTSRC, 1, 1⟩
def MGT_ALERTSRC_LOG_RESERVE : Field := ⟨MGT_ALERTSRC, 2, 1⟩
def MGT_LASTERR_STATUS : Field := ⟨MGT_LASTERR, 0, 8⟩
def MGT_LASTERR_CMD : Field := ⟨MGT_LASTERR, 8, 8⟩
def MGT_FUSECTL_PROG : Field := ⟨MGT_FUSECTL, 0, 1⟩
def MGT_FUSECTL_KEY : Field := ⟨MGT_FUSECTL, 16, 16⟩
def MGT_FUSESTAT_USED : Field := ⟨MGT_FUSESTAT, 0, 4⟩
def MGT_FUSESTAT_BAD : Field := ⟨MGT_FUSESTAT, 4, 4⟩
def MGT_FUSESTAT_INFORCE : Field := ⟨MGT_FUSESTAT, 8, 3⟩
def MGT_FUSESTAT_BUSY : Field := ⟨MGT_FUSESTAT, 11, 1⟩
def MGT_FUSESTAT_RESULT : Field := ⟨MGT_FUSESTAT, 12, 2⟩
def MGT_FUSESTAT_REJ : Field := ⟨MGT_FUSESTAT, 16, 3⟩
def THRM_TEMP_DEGC (i : Nat) : Field := ⟨THRM_TEMP i, 0, 16⟩
def THRM_TEMP_VALID (i : Nat) : Field := ⟨THRM_TEMP i, 16, 1⟩
def THRM_LIMITS_WARN : Field := ⟨THRM_LIMITS, 0, 8⟩
def THRM_LIMITS_CRIT : Field := ⟨THRM_LIMITS, 8, 8⟩
def THRM_LIMITS_RELEASE : Field := ⟨THRM_LIMITS, 16, 8⟩
def THRM_STATUS_WARN : Field := ⟨THRM_STATUS, 0, 8⟩
def THRM_STATUS_CRIT : Field := ⟨THRM_STATUS, 8, 8⟩
def THRM_STATUS_LIMIT_INV : Field := ⟨THRM_STATUS, 16, 1⟩
def THRM_STATUS_TRIPPED : Field := ⟨THRM_STATUS, 17, 1⟩
def THRM_SUPSTAT_WARN : Field := ⟨THRM_SUPSTAT, 0, 12⟩
def THRM_SUPSTAT_OUT : Field := ⟨THRM_SUPSTAT, 16, 12⟩
def THRM_TMAX_DEGC (i : Nat) : Field := ⟨THRM_TMAX i, 0, 16⟩
def THRM_SUPPLY_MV (i : Nat) : Field := ⟨THRM_SUPPLY i, 0, 16⟩

def E_INTK_XSEEN (n : Nat) : PageBit := ⟨0x10 + n, 0⟩
def E_INTK_XFAULT (n : Nat) : PageBit := ⟨0x10 + n, 1⟩
def E_INTK_CAL_DONE (n : Nat) : PageBit := ⟨0x10 + n, 2⟩
def E_INTK_THR_CFG (n : Nat) : PageBit := ⟨0x10 + n, 3⟩
def E_RU_CKSKIP (n : Nat) : PageBit := ⟨0x40 + 2 * n, 0⟩
def E_RU_EYE_DONE (n : Nat) : PageBit := ⟨0x40 + 2 * n, 1⟩
def E_RU_CFG (n : Nat) : PageBit := ⟨0x40 + 2 * n, 2⟩
def E_RUG_SAT (n : Nat) : PageBit := ⟨0x41 + 2 * n, 0⟩
def E_RUG_CFG (n : Nat) : PageBit := ⟨0x41 + 2 * n, 1⟩
def E_RUG_HIT (n : Nat) : PageBit := ⟨0x41 + 2 * n, 2⟩
def E_CONF_VERIFY_DONE : PageBit := ⟨0xA0, 0⟩
def E_CONF_CRC_FAIL : PageBit := ⟨0xA0, 1⟩
def E_CONF_SNAP_DONE : PageBit := ⟨0xA0, 2⟩
def E_CONF_SWAP : PageBit := ⟨0xA0, 3⟩
def E_SLU_TRIG : PageBit := ⟨0xA1, 0⟩
def E_SLU_IRQ : PageBit := ⟨0xA1, 1⟩
def E_SLU_CTRA_LIM : PageBit := ⟨0xA1, 2⟩
def E_SLU_CTRB_LIM : PageBit := ⟨0xA1, 3⟩
def E_SLU_IRQDROP : PageBit := ⟨0xA1, 4⟩
def E_SLU_JUMP : PageBit := ⟨0xA1, 5⟩
def E_TB_TB_WRAP : PageBit := ⟨0x6, 0⟩
def E_TB_LOADED : PageBit := ⟨0x6, 1⟩
def E_TB_DAM_RECOVERED : PageBit := ⟨0x6, 2⟩
def E_ROTA_LATE : PageBit := ⟨0xA2, 0⟩
def E_ROTA_SKIP : PageBit := ⟨0xA2, 1⟩
def E_ROTA_ORDER : PageBit := ⟨0xA2, 2⟩
def E_ROTA_DISCARD : PageBit := ⟨0xA2, 3⟩
def E_ROTA_BADENT : PageBit := ⟨0xA2, 4⟩
def E_ROTA_HALT : PageBit := ⟨0xA2, 5⟩
def E_ROTA_REPDONE : PageBit := ⟨0xA2, 6⟩
def E_ROTA_EMPTY : PageBit := ⟨0xA2, 7⟩
def E_GATE_VSEL_REJ : PageBit := ⟨0xA3, 0⟩
def E_GATE_CONFLICT : PageBit := ⟨0xA3, 1⟩
def E_GATE_DROPPED : PageBit := ⟨0xA3, 2⟩
def E_WEIR_STEP : PageBit := ⟨0xA4, 0⟩
def E_WEIR_GAP : PageBit := ⟨0xA4, 1⟩
def E_WEIR_FLOOR : PageBit := ⟨0xA4, 2⟩
def E_STORE_OPENED : PageBit := ⟨0xA8, 0⟩
def E_STORE_TRIG : PageBit := ⟨0xA8, 1⟩
def E_STORE_CLOSED : PageBit := ⟨0xA8, 2⟩
def E_STORE_MISSED : PageBit := ⟨0xA8, 3⟩
def E_STORE_STOPPED : PageBit := ⟨0xA8, 4⟩
def E_STORE_MKDROP : PageBit := ⟨0xA8, 5⟩
def E_STORE_POST_SHORT : PageBit := ⟨0xA8, 6⟩
def E_STORE_PRE_SHORT : PageBit := ⟨0xA8, 7⟩
def E_SEG_LOCK_ERR (s : Nat) : PageBit := ⟨0xA9 + s / 64, 0⟩
def E_SEG_MKFULL (s : Nat) : PageBit := ⟨0xA9 + s / 64, 1⟩
def E_FLU_DOWN (n : Nat) : PageBit := ⟨0xF0 + n, 0⟩
def E_FLU_UP (n : Nat) : PageBit := ⟨0xF0 + n, 1⟩
def E_FLU_CRCERR (n : Nat) : PageBit := ⟨0xF0 + n, 2⟩
def E_FLU_MISWIRED (n : Nat) : PageBit := ⟨0xF0 + n, 3⟩
def E_RING_POSITION : PageBit := ⟨0xF2, 0⟩
def E_RING_LOCKED : PageBit := ⟨0xF2, 1⟩
def E_RING_ALIGN_LOST : PageBit := ⟨0xF2, 2⟩
def E_RING_TOPOLOGY : PageBit := ⟨0xF2, 3⟩
def E_RING_EVRISK : PageBit := ⟨0xF2, 4⟩
def E_RING_EVLATE : PageBit := ⟨0xF2, 5⟩
def E_RING_SETTLE_RX : PageBit := ⟨0xF2, 6⟩
def E_RING_CWR_DONE : PageBit := ⟨0xF2, 7⟩
def E_RING_DAM_SPLIT : PageBit := ⟨0xF2, 8⟩
def E_RING_MODE : PageBit := ⟨0xF2, 9⟩
def E_CIS_READY : PageBit := ⟨0xB0, 0⟩
def E_CIS_OP_DONE : PageBit := ⟨0xB0, 1⟩
def E_CIS_CE : PageBit := ⟨0xB0, 2⟩
def E_CIS_UE : PageBit := ⟨0xB0, 3⟩
def E_CIS_REPLAY : PageBit := ⟨0xB0, 4⟩
def E_CIS_RETRAIN : PageBit := ⟨0xB0, 5⟩
def E_CIS_OFFLINE : PageBit := ⟨0xB0, 6⟩
def E_CIS_TRAIN_LATE : PageBit := ⟨0xB0, 7⟩
def E_CIS_NRDROP : PageBit := ⟨0xB0, 8⟩
def E_CISP_OFFLINE (n : Nat) : PageBit := ⟨0xB1 + n, 0⟩
def E_CISP_REVIVED (n : Nat) : PageBit := ⟨0xB1 + n, 1⟩
def E_CISP_REVIVE_FAIL (n : Nat) : PageBit := ⟨0xB1 + n, 2⟩
def E_CISP_REFMUL (n : Nat) : PageBit := ⟨0xB1 + n, 3⟩
def E_CBIST_PASS_DONE : PageBit := ⟨0xB3, 0⟩
def E_CBIST_SCRUB_CE : PageBit := ⟨0xB3, 1⟩
def E_CBIST_FAULT : PageBit := ⟨0xB3, 2⟩
def E_TANK_HANDOVER : PageBit := ⟨0xC0, 0⟩
def E_TANK_REFUSED : PageBit := ⟨0xC0, 1⟩
def E_TANK_COLL : PageBit := ⟨0xC0, 2⟩
def E_TANK_CE : PageBit := ⟨0xC0, 3⟩
def E_TANK_UE : PageBit := ⟨0xC0, 4⟩
def E_TANK_HOSTVIOL : PageBit := ⟨0xC0, 5⟩
def E_TBIST_DONE : PageBit := ⟨0xC1, 0⟩
def E_TBIST_FAIL : PageBit := ⟨0xC1, 1⟩
def E_TBIST_REFUSED : PageBit := ⟨0xC1, 2⟩
def E_HOST_HOLD : PageBit := ⟨0xD0, 0⟩
def E_HOST_TRIB_LOST : PageBit := ⟨0xD0, 1⟩
def E_HOST_LINKDOWN : PageBit := ⟨0xD0, 2⟩
def E_HOST_REFUSED : PageBit := ⟨0xD0, 3⟩
def E_WIN_COMMIT : PageBit := ⟨0xD1, 0⟩
def E_WIN_FAULT : PageBit := ⟨0xD1, 1⟩
def E_DRAIN_DONE : PageBit := ⟨0xD2, 0⟩
def E_DRAIN_ERR : PageBit := ⟨0xD2, 4⟩
def E_DRAIN_PAUSE : PageBit := ⟨0xD2, 8⟩
def C_DISP_TIMING (n : Nat) : PageBit := ⟨0xE0 + n, 0⟩
def C_DISP_FRAME (n : Nat) : PageBit := ⟨0xE0 + n, 1⟩
def E_DISP_HPD_PLUG (n : Nat) : PageBit := ⟨0xE0 + n, 0⟩
def E_DISP_HPD_UNPLUG (n : Nat) : PageBit := ⟨0xE0 + n, 1⟩
def E_DISP_HPD_IRQ (n : Nat) : PageBit := ⟨0xE0 + n, 2⟩
def E_DISP_TRAIN_DONE (n : Nat) : PageBit := ⟨0xE0 + n, 3⟩
def E_DISP_TRAIN_FAIL (n : Nat) : PageBit := ⟨0xE0 + n, 4⟩
def E_DISP_TIMING (n : Nat) : PageBit := ⟨0xE0 + n, 5⟩
def E_DISP_FLIP (n : Nat) : PageBit := ⟨0xE0 + n, 6⟩
def E_DISP_COMMIT_REJ (n : Nat) : PageBit := ⟨0xE0 + n, 7⟩
def E_DISP_UNDERRUN (n : Nat) : PageBit := ⟨0xE0 + n, 8⟩
def E_DISP_FRAME_WRAP (n : Nat) : PageBit := ⟨0xE0 + n, 9⟩
def E_DISP_AUX_DONE (n : Nat) : PageBit := ⟨0xE0 + n, 10⟩
def E_DISP_VSYNC (n : Nat) : PageBit := ⟨0xE0 + n, 11⟩
def E_SAFE_SETTLED : PageBit := ⟨0x7, 0⟩
def E_SAFE_RELEASED : PageBit := ⟨0x7, 1⟩
def E_SAFE_RELEASE_REJ : PageBit := ⟨0x7, 2⟩
def E_EVT_LOST : PageBit := ⟨0x8, 0⟩
def E_EVT_RING_FULL : PageBit := ⟨0x8, 1⟩
def E_EVT_RESERVE : PageBit := ⟨0x8, 2⟩
def E_DAM_DAM : PageBit := ⟨0xB, 0⟩
def E_DAM_RELEASED : PageBit := ⟨0xB, 1⟩
def E_DAM_IMG_ERR : PageBit := ⟨0xB, 2⟩
def E_SYS_ARM_DONE : PageBit := ⟨0x4, 0⟩
def E_SYS_ARM_REF : PageBit := ⟨0x4, 1⟩
def E_SYS_DISARMED : PageBit := ⟨0x4, 2⟩
def E_SYS_READY : PageBit := ⟨0x4, 3⟩
def E_CLK_SWITCH : PageBit := ⟨0x5, 0⟩
def E_CLK_HOLDOVER : PageBit := ⟨0x5, 1⟩
def E_CLK_REVERT : PageBit := ⟨0x5, 2⟩
def E_CLK_RELOCK : PageBit := ⟨0x5, 3⟩
def E_MGT_FUSE_DONE : PageBit := ⟨0x9, 0⟩
def E_MGT_PECERR : PageBit := ⟨0x9, 1⟩
def E_MGT_ADDR : PageBit := ⟨0x9, 2⟩
def E_THRM_TEMP_WARN : PageBit := ⟨0xA, 0⟩
def E_THRM_TEMP_CRIT : PageBit := ⟨0xA, 1⟩
def E_THRM_SUP_WARN : PageBit := ⟨0xA, 2⟩
def E_THRM_SUP_OUT : PageBit := ⟨0xA, 3⟩

end R

end Sys2Proof.Machine
end

