-- ==== Sys2Proof/Machine/Operands.lean ====
section
/-! DEFINITION. Operand forms: how a register address names a register (R394 to R397), a field of a word, and the
fields of multi-bit table entries. -/
namespace Sys2Proof.Machine

/-- Bits [lo + width - 1 : lo] of a word given as a number. -/
def bitsOf (x lo width : Nat) : Nat := (x >>> lo) % 2 ^ width

/-- Is bit i of x set? -/
def bitAt (x i : Nat) : Bool := Nat.testBit x i

/-- Word w with bits [lo + width - 1 : lo] replaced by v. -/
def putBits (w : Word) (lo width v : Nat) : Word :=
  let mask : Word := BitVec.ofNat 32 ((2 ^ width - 1) <<< lo)
  (w &&& ~~~mask) ||| (BitVec.ofNat 32 (v % 2 ^ width) <<< lo)

/-- The low and the high word of a 64-bit quantity (R6). -/
def loWord (x : Tb) : Word := BitVec.ofNat 32 x.toNat
def hiWord (x : Tb) : Word := BitVec.ofNat 32 (x.toNat >>> 32)
def join64 (lo hi : Word) : Tb := BitVec.ofNat 64 (hi.toNat <<< 32 + lo.toNat)

/-- Is instant a at or before instant b, counted round the wrap of TB (R171)? -/
def tbLe (a b : Tb) : Bool := decide ((b - a).toNat < 2 ^ 63)

/-- A value as a signed two's-complement number of the given width. -/
def signedOf (width x : Nat) : Int := if x < 2 ^ (width - 1) then x else (x : Int) - 2 ^ width

/-- The page map (R397): the block of a page and its instance. -/
def pageOf (p : Nat) : Option (Block × Nat) :=
  if p < 4 then some (.dirB, p)
  else if p < 0x10 then
    match p with
    | 4 => some (.sysB, 0) | 5 => some (.clkB, 0) | 6 => some (.tbB, 0) | 7 => some (.safeB, 0)
    | 8 => some (.evtB, 0) | 9 => some (.mgtB, 0) | 0xA => some (.thrmB, 0) | 0xB => some (.damB, 0)
    | _ => none
  else if p < 0x40 then some (.intkB, p - 0x10)
  else if p < 0xA0 then if p % 2 = 0 then some (.ruB, (p - 0x40) / 2) else some (.rugB, (p - 0x41) / 2)
  else match p with
    | 0xA0 => some (.confB, 0) | 0xA1 => some (.sluB, 0) | 0xA2 => some (.rotaB, 0) | 0xA3 => some (.gateB, 0)
    | 0xA4 => some (.weirB, 0) | 0xA8 => some (.storeB, 0)
    | 0xA9 => some (.segB, 0) | 0xAA => some (.segB, 1) | 0xAB => some (.segB, 2) | 0xAC => some (.segB, 3)
    | 0xB0 => some (.cisB, 0) | 0xB1 => some (.cispB, 0) | 0xB2 => some (.cispB, 1) | 0xB3 => some (.cbistB, 0)
    | 0xC0 => some (.tankB, 0) | 0xC1 => some (.tbistB, 0)
    | 0xD0 => some (.hostB, 0) | 0xD1 => some (.winB, 0) | 0xD2 => some (.drainB, 0)
    | 0xE0 => some (.dispB, 0) | 0xE1 => some (.dispB, 1)
    | 0xF0 => some (.fluB, 0) | 0xF1 => some (.fluB, 1) | 0xF2 => some (.ringB, 0)
    | _ => none

/-- Does a table row hold the register at this offset? -/
def RegRow.covers (r : RegRow) (off : Nat) : Bool :=
  if off < r.off then false
  else
    let d := off - r.off
    let i := if r.s1 = 0 then 0 else d / r.s1
    let e := if r.s1 = 0 then d else d % r.s1
    let j := if r.s2 = 0 then 0 else e / r.s2
    let f := if r.s2 = 0 then e else e % r.s2
    decide (i < r.c1) && decide (j < r.c2) && decide (f = 0)

/-- The row of a block's register at an offset of its page, 0x040 or above; a SEG page repeats its 15 rows for 64 descriptors (R234). -/
def findRow (b : Block) (off : Nat) : Option RegRow :=
  match b with
  | .segB => if off < 0x40 then none else if (off - 0x40) / 0x3C < 64 then rowsSeg.find? (·.covers ((off - 0x40) % 0x3C)) else none
  | _ => (rowsOf b).find? (·.covers off)

/-- The row of a common-head register (R395, R396), its bits by type; PAGE_FAULT's bits 4:0 are RC, and PAGE_LOCK is reserved on a DIR page (R410). -/
def headRow (b : Block) (off : Nat) : Option RegRow :=
  match off with
  | 0x00 | 0x04 | 0x08 => some { off := off }
  | 0x0C => some { off := off, w1s := if b = .dirB then 0 else 1 }
  | 0x10 => some { off := off, rc := statusMask b }
  | 0x14 => some { off := off, rw := statusMask b }
  | 0x18 => some { off := off, rc := 0x1F }
  | 0x1C => some { off := off, w1s := commitMask b }
  | _ => none

/-- What a register address names: the block, its instance, the page, the offset in the page and the table row. -/
structure RegHit where
  blk : Block
  inst : Nat
  page : Nat
  off : Nat
  row : RegRow
  deriving DecidableEq, Repr

/-- The register at a byte address (R394, R395); none for a reserved or unimplemented location (R402). The DIR pages hold only
their directory words, found by `dirWord`, so here only their head. -/
def decodeReg (a : Nat) : Option RegHit :=
  if a % 4 ≠ 0 then none
  else
    match pageOf (a / 0x1000) with
    | none => none
    | some (b, i) =>
      let off := a % 0x1000
      match (if off < 0x40 then headRow b off else findRow b off) with
      | none => none
      | some r => some ⟨b, i, a / 0x1000, off, r⟩

/-- The reset value of the register stored at a key of the register file: the spec's tables; bank B's copies (R112) share bank A's.
OWN[63] resets to owner LOG (R330). DESIGN CHOICE: notes/assumptions/6.md. PRESUMED: notes/assumptions/37.md. -/
def resetVal (key : Nat) : Word :=
  let a := key % 0x100000
  if a = 0xC01FC then 0x505
  else match decodeReg a with
    | none => 0
    | some h => BitVec.ofNat 32 h.row.reset

end Sys2Proof.Machine
end

