-- ==== Sys2Proof/Machine/Ops.lean ====
section
/-! DEFINITION. The named operations over the state: the register file, byte memories, time, and the lists the engine is made of. -/
namespace Sys2Proof.Machine

/-! Sparse maps in one canonical form: keys strictly rising, no entry equal to what an unlisted key reads as. -/

/-- The value listed for a key. -/
def mapFind {α : Type} (l : List (Nat × α)) (k : Nat) : Option α := (l.find? (fun p => p.1 == k)).map (·.2)

/-- Put a pair after the keys below its own. -/
def mapInsert {α : Type} (k : Nat) (v : α) (l : List (Nat × α)) : List (Nat × α) := l.takeWhile (fun p => decide (p.1 < k)) ++ (k, v) :: l.dropWhile (fun p => decide (p.1 < k))

/-- Remove a key. -/
def mapErase {α : Type} (k : Nat) (l : List (Nat × α)) : List (Nat × α) := l.filter (fun p => p.1 != k)

/-- Set a key's value; a value equal to the default removes the entry. -/
def mapSet {α : Type} [DecidableEq α] (dflt : α) (l : List (Nat × α)) (k : Nat) (v : α) : List (Nat × α) :=
  if v = dflt then mapErase k l else mapInsert k v (mapErase k l)

/-- Keys strictly rising. -/
def keysRise {α : Type} (l : List (Nat × α)) : Bool := decide (l.IsChain fun p q => p.1 < q.1)

/-! Byte memories (the tanks, R315, and the cistern, R278): an unlisted byte reads 0 (R301, R329). -/

/-- A byte memory. -/
abbrev Memory := List Host.Cell

/-- The canonical form of a memory. -/
def Memory.wf (m : Memory) : Bool := keysRise m && m.all (fun p => p.2 != 0)

/-- Read one byte. DESIGN CHOICE: notes/assumptions/7.md. -/
def readByte (m : Memory) (a : Nat) : Byte := (mapFind m a).getD 0

/-- Write one byte. -/
def writeByte (m : Memory) (a : Nat) (v : Byte) : Memory := mapSet 0 m a v

/-- Read n bytes, least significant first, as a number. -/
def readLE (m : Memory) (a : Nat) : Nat → Nat
  | 0 => 0
  | n + 1 => (readByte m a).toNat + 256 * readLE m (a + 1) n

/-- Write a list of bytes from an address up. -/
def writeBytes (m : Memory) (a : Nat) : List Byte → Memory
  | [] => m
  | b :: bs => writeBytes (writeByte m a b) (a + 1) bs

/-- The n bytes of a number, least significant first. -/
def bytesLE : Nat → Nat → List Byte
  | 0, _ => []
  | n + 1, x => BitVec.ofNat 8 x :: bytesLE n (x / 256)

/-- A number from bytes, least significant first. -/
def leNat : List Byte → Nat
  | [] => 0
  | b :: bs => b.toNat + 256 * leNat bs

/-- Write the n bytes of a number, least significant first. -/
def writeLE (m : Memory) (a n x : Nat) : Memory := writeBytes m a (bytesLE n x)

/-- Zero the bytes of [lo, hi): none of them is listed any more. -/
def zeroRange (m : Memory) (lo hi : Nat) : Memory := m.filter (fun p => decide (p.1 < lo) || decide (hi ≤ p.1))

/-! The register file. -/

/-- A register's value. Key: its BAR0 byte address; bank B of a banked register lies 0x100000 above (R112). -/
def Engine.reg (m : Engine) (a : Nat) : Word := (mapFind m.regs a).getD (resetVal a)

/-- Set a register's value. -/
def Engine.setReg (m : Engine) (a : Nat) (v : Word) : Engine := { m with regs := mapSet (resetVal a) m.regs a v }

/-- A field's value. -/
def Engine.fld (m : Engine) (f : Field) : Nat := bitsOf (m.reg f.addr).toNat f.lo f.width

/-- Set a field. -/
def Engine.setFld (m : Engine) (f : Field) (v : Nat) : Engine := m.setReg f.addr (putBits (m.reg f.addr) f.lo f.width v)

/-- A one-bit field. -/
def Engine.flag (m : Engine) (f : Field) : Bool := m.fld f == 1

/-- Set a one-bit field. -/
def Engine.setFlag (m : Engine) (f : Field) (b : Bool) : Engine := m.setFld f b.toNat

/-- The 64-bit quantity whose low word is at an address and whose high word follows it (R6). -/
def Engine.reg64 (m : Engine) (lo : Nat) : Tb := join64 (m.reg lo) (m.reg (lo + 4))

/-- Set a 64-bit quantity. -/
def Engine.setReg64 (m : Engine) (lo : Nat) (v : Tb) : Engine := (m.setReg lo (loWord v)).setReg (lo + 4) (hiWord v)

/-- Add to a counter that saturates at 0xFFFF_FFFF. -/
def Engine.addSat (m : Engine) (a n : Nat) : Engine := m.setReg a (BitVec.ofNat 32 (min ((m.reg a).toNat + n) 0xFFFFFFFF))

/-- Add to a counter that wraps to 0. -/
def Engine.addWrap (m : Engine) (a n : Nat) : Engine := m.setReg a (BitVec.ofNat 32 ((m.reg a).toNat + n))

/-- Set bits of a register. -/
def Engine.orReg (m : Engine) (a : Nat) (bits : Nat) : Engine := m.setReg a (m.reg a ||| BitVec.ofNat 32 bits)

/-- Clear bits of a register. -/
def Engine.clearBits (m : Engine) (a : Nat) (bits : Nat) : Engine := m.setReg a (m.reg a &&& ~~~ (BitVec.ofNat 32 bits))

/-- A 48-bit map held in two registers, lines 0 to 31 and 32 to 47. -/
def Engine.lines (m : Engine) (lo hi : Nat) : Lines := BitVec.ofNat 48 ((m.reg hi).toNat <<< 32 + (m.reg lo).toNat)

/-- Set a 48-bit map held in two registers. -/
def Engine.setLines (m : Engine) (lo hi : Nat) (v : Lines) : Engine :=
  (m.setReg lo (BitVec.ofNat 32 v.toNat)).setReg hi (BitVec.ofNat 32 (v.toNat >>> 32))

/-! Time. -/

/-- The CCLK cycle of the timebase: TB[63:4] (R8). -/
def cycleOf (t : Tb) : Nat := t.toNat / 16

/-- The number of the CCLK cycle last executed, by the timebase. -/
def Engine.cycle (m : Engine) : Nat := cycleOf m.tb

/-- The number of the next CCLK cycle by the timebase: 0 right after headrace lock (R169), else one more, or an accepted load's value (R171). DEDUCED: notes/assumptions/9.md. -/
def Engine.nextCycle (m : Engine) : Nat := match m.tbLoad with | some c => c | none => if m.first then 0 else (m.cycle + 1) % 2 ^ 60

/-- TB of tick 0 of a cycle. -/
def tbOfCycle (c : Nat) : Tb := BitVec.ofNat 64 (16 * c)

/-- The PCLK cycle of the CCLK cycle last executed, two CCLK long (R21). DEDUCED: notes/assumptions/154.md. -/
def Engine.pclk (m : Engine) : Nat := (m.cc - 1) / 2

/-! Lists. -/

/-- Element i of a list, or a default. -/
def nth {α : Type} (l : List α) (i : Nat) (d : α) : α := l.getD i d

/-- What several reads found, in order: the outcome of each and a second mark; good and unmarked where a list has ended. -/
def readsOf (ecc : List Ecc) (marks : List Bool) : List (Ecc × Bool) := (List.range (max ecc.length marks.length)).map (fun i => (nth ecc i .good, nth marks i false))

/-- A bit of a line map. -/
def lineBit (v : Lines) (i : Nat) : Bool := v.getLsbD i

/-- A line map built bit by bit. -/
def mkLines (f : Nat → Bool) : Lines := BitVec.ofNat 48 ((List.range 48).foldl (fun a i => a + (f i).toNat * 2 ^ i) 0)

/-- The lowest of a list of numbers. -/
def lowest : List Nat → Option Nat
  | [] => none
  | x :: xs => match lowest xs with
    | none => some x
    | some y => some (min x y)

/-- An intake's inner state. -/
def Engine.intake (m : Engine) (n : Nat) : Intake := nth m.intakes n {}

/-- Change an intake's inner state. -/
def Engine.setIntake (m : Engine) (n : Nat) (i : Intake) : Engine := { m with intakes := m.intakes.set n i }

/-- Apply an operation for every index below a bound, in ascending order. -/
def forEach {α : Type} (k : Nat) (f : Nat → α → α) (a : α) : α := (List.range k).foldl (fun x i => f i x) a

/-- Draw the next free value's index. DESIGN CHOICE: notes/assumptions/98.md. -/
def Engine.draw (m : Engine) : Nat × Engine := (m.freeCtr, { m with freeCtr := m.freeCtr + 1 })

end Sys2Proof.Machine
end

