-- ==== Sys2Proof/Machine/Flags.lean ====
section
/-! DEFINITION. Status bits, page events and log entries: PAGE_STATUS (R404), PAGE_FAULT (R396), and what is detected for the event log (R418, R419, R427). -/
namespace Sys2Proof.Machine

/-- Address of a page's head registers. -/
def statusAddr (page : Nat) : Nat := page * 0x1000 + 0x10
def intenAddr (page : Nat) : Nat := page * 0x1000 + 0x14
def faultAddr (page : Nat) : Nat := page * 0x1000 + 0x18
def lockAddr (page : Nat) : Nat := page * 0x1000 + 0x0C

/-- A page raises an event for some bits (R404): they join the page's entry of this PCLK cycle, whose TB is the first bit's cycle (R419). -/
def Engine.raise (m : Engine) (page : Nat) (bits : Word) : Engine :=
  match m.raised.find? (fun r => r.page == page && r.pclk == m.pclk) with
  | some _ => { m with raised := m.raised.map (fun r => if r.page == page && r.pclk == m.pclk then { r with bits := r.bits ||| bits } else r) }
  | none => { m with raised := m.raised ++ [⟨page, m.pclk, bits, tbOfCycle m.cycle⟩] }

/-- Set a PAGE_STATUS bit; a bit that becomes 1 with its enable set raises an event (R404). -/
def Engine.status (m : Engine) (b : PageBit) : Engine :=
  let a := statusAddr b.page
  let w := m.reg a
  if bitAt w.toNat b.bit then m
  else
    let m1 := m.setReg a (w ||| BitVec.ofNat 32 (2 ^ b.bit))
    if bitAt (m.reg (intenAddr b.page)).toNat b.bit then m1.raise b.page (BitVec.ofNat 32 (2 ^ b.bit)) else m1

/-- Insert an entry in the order of R427: by PCLK cycle of detection, then by ascending SRCPAGE; equal ones in order of arrival. -/
def insertEntry (e : LogEntry) : List LogEntry → List LogEntry
  | [] => [e]
  | x :: l => if e.pclk < x.pclk || (e.pclk == x.pclk && decide (e.page < x.page)) then e :: x :: l else x :: insertEntry e l

/-- The engine detects something that makes a log entry (R418, R419). -/
def Engine.log (m : Engine) (page cls code : Nat) (data : Nat) (tb : Tb) : Engine :=
  { m with detected := insertEntry ⟨m.pclk, page, cls, code, BitVec.ofNat 32 data, tb⟩ m.detected }

/-- The same with the TB of the cycle of detection, 16 × the CCLK cycle (R418). -/
def Engine.logNow (m : Engine) (page cls code data : Nat) : Engine := m.log page cls code data (tbOfCycle m.cycle)

/-- A port access sets one of PAGE_FAULT bits 2 to 4 and records the port, the direction and the offset (R396). -/
def Engine.pageFault (m : Engine) (page bit : Nat) (port : Port) (write : Bool) (off : Nat) : Engine :=
  let w := (m.reg (faultAddr page)).toNat % 32
  m.setReg (faultAddr page) (BitVec.ofNat 32 ((w ||| 2 ^ bit) + port.code * 2 ^ 8 + write.toNat * 2 ^ 11 + off / 4 * 2 ^ 12))

/-- A parity event sets PAGE_FAULT bit 0 or 1 with PORT 7 (R396, R409). -/
def Engine.parityFault (m : Engine) (page bit off : Nat) : Engine :=
  let w := (m.reg (faultAddr page)).toNat
  m.setReg (faultAddr page) (BitVec.ofNat 32 ((w % 32 ||| 2 ^ bit) + 7 * 2 ^ 8 + bitsOf w 11 1 * 2 ^ 11 + off / 4 * 2 ^ 12))

end Sys2Proof.Machine
end

