-- ==== Sys2Proof/Machine/Intakes.lean ====
section
/-! DEFINITION. Intakes (R35 to R59): thresholds and their sets, comparators, discordance, clock inputs, trims, the calibration measurement. -/
namespace Sys2Proof.Machine

/-- The first tick, counted from headrace lock, of the next CCLK cycle. -/
def Engine.nextTick (m : Engine) : Nat := 16 * (m.cc + 1)

/-- A threshold code as it acts: 4001 to 4095 act as 4000 (R38). -/
def effCode (c : Nat) : Nat := min c 4000

/-- The voltage of a threshold code, in 0.1 mV (R38). -/
def codeVolt (c : Nat) : Int := -15000 + 15 * (effCode c : Int)

/-- Half of the hysteresis of a CTL.HYST code, in 0.1 mV (R40). -/
def halfHyst (h : Nat) : Int := match h with | 0 => 0 | 1 => 40 | 2 => 80 | _ => 160

/-- A comparator's next output: up at threshold plus half the hysteresis, down at threshold minus half (R37, R40). -/
def comparator (prev : Bool) (v thr half : Int) : Bool := if prev then decide (v > thr - half) else decide (v > thr + half)

/-- The voltage a DAC moves on to at a tick: the written one 10 µs (96,000 tk) after the write; before, a free value between what it shows and the written one, so that it never
goes back (R41). DESIGN CHOICE: notes/assumptions/12.md. -/
def Dac.next (d : Dac) (idx t : Nat) : Int :=
  let v := codeVolt d.code
  let step : Int := (Config.dacMoving (t * 256 + idx) : Int)
  if d.since + 96000 ≤ t then v else if d.shown ≤ v then min v (d.shown + step) else max v (d.shown - step)

/-- Every DAC of an intake moves on to a tick. -/
def dacsAt (n t : Nat) (l : List Dac) : List Dac := l.mapIdx (fun k d => { d with shown := d.next (4 * n + k) t })

/-- The set that the requests leave in force. -/
def Intake.lastSet (i : Intake) : Bool := match i.setChanges.getLast? with | some c => c.setB | none => i.setBase

/-- The threshold set in force at a tick (R42, R43). -/
def Intake.setAt (i : Intake) (t : Nat) : Bool :=
  i.setChanges.foldl (fun s c => if c.tick ≤ t then c.setB else s) i.setBase

/-- The requests that change the set in force: one naming the set already in force does nothing (R43, R44). -/
def Intake.changes (i : Intake) : List SetChange :=
  (i.setChanges.foldl (fun (s : Bool × List SetChange) c => if c.setB = s.1 then s else (c.setB, s.2 ++ [c])) (i.setBase, [])).2

/-- The swap flag of a tick: a change of set flags its tick and the 19 after it (R43). -/
def Intake.swapAt (i : Intake) (t : Nat) : Bool := !i.setChanges.isEmpty && i.changes.any (fun c => decide (c.tick ≤ t) && decide (t < c.tick + 20))

/-- A trim's delay in 1/10,000 tk: v × 4 ps at 104.1667 ps a tick (R53). -/
def trimDelay (v : Nat) : Nat := min v 500 * 384

/-- The internal calibration source (R56) at a tick, behind a delay in 1/10,000 tk: 0 V to 1.8 V, period 2,048 tk, its rising edge 1/26 tk later each period, 26 periods round. -/
def calSource (phase t delay : Nat) : Int :=
  let u := 10000 * (t + phase) - delay
  let k := (u / 20480000) % 26
  if (26 * (u % 20480000) + 532480000 - 10000 * k) % 532480000 < 266240000 then 18000 else 0

/-- The pin voltage of a line at a tick k of the newest of the cycles listed, newest first, seen d ticks late. DESIGN CHOICE: notes/assumptions/107.md. -/
def voltBack (cycles : List (List Int)) (k d : Nat) : Int :=
  if d ≤ k then nth (nth cycles 0 []) (k - d) 0
  else if d ≤ k + 16 then nth (nth cycles 1 []) (k + 16 - d) 0
  else nth (nth cycles 2 []) (k + 32 - d) 0

/-- The pin voltage a delay of so many 1/10,000 tk earlier: straight between two ticks, so that an edge stands at the first tick at or after its delayed instant (R45, R47).
DESIGN CHOICE: notes/assumptions/107.md. -/
def voltAt (cycles : List (List Int)) (k delay : Nat) : Int :=
  let d := delay / 10000
  let f : Int := (delay % 10000 : Nat)
  if f = 0 then voltBack cycles k d else (voltBack cycles k d * (10000 - f) + voltBack cycles k (d + 1) * f) / 10000

/-- A line's listed voltages in one cycle's pins. DESIGN CHOICE: notes/assumptions/8.md. -/
def lineVolts (l : List LinePins) (line : Nat) : List Int := ((l.find? (fun p => p.line.val == line)).map (·.volts)).getD []

/-- A clock input's listed voltages. -/
def ckVolts (l : List ClockPins) (ck : Nat) (neg : Bool) : List Int :=
  ((l.find? (fun p => p.ck.val == ck)).map (fun p => if neg then p.n else p.p)).getD []

/-- Does an INTERNAL calibration run on the intake, so that its pins are isolated (R55, R56)? -/
def Engine.calInternal (m : Engine) (n : Nat) : Bool := m.flag (R.INTK_CALSTAT_BUSY n) && (m.intake n).calMode == 1

/-- The voltages at the comparators of the data lines at tick k of the cycle being captured; `trims` are the lines' trims as delays. -/
def Engine.dataVolts (m : Engine) (n : Nat) (trims : List Nat) (k : Nat) : List Int :=
  let i := m.intake n
  let internal := m.calInternal n
  (List.range 48).map (fun line =>
    let d := nth trims line 0
    if internal then calSource i.calPhase (16 * m.cc + k + 64) d else voltAt (i.volts.map (lineVolts · line)) k d)

/-- The comparator decision of a clock input at tick k (R51): SE against its own threshold, which a write of CKTHR moves at once, DIFF P against N, OFF and reserved 0.
DESIGN CHOICE: notes/assumptions/129.md. -/
def Engine.clockBit (m : Engine) (n ck k : Nat) (prev : Bool) : Bool :=
  let mode := if ck = 0 then m.fld (R.INTK_CTL_CK0_MODE n) else m.fld (R.INTK_CTL_CK1_MODE n)
  let d := trimDelay (if ck = 0 then m.fld (R.INTK_CKTRIM_CK0_TRIM n) else m.fld (R.INTK_CKTRIM_CK1_TRIM n))
  let thr := if ck = 0 then m.fld (R.INTK_CKTHR_CK0_THR n) else m.fld (R.INTK_CKTHR_CK1_THR n)
  let i := m.intake n
  let internal := m.calInternal n
  let src := calSource i.calPhase (16 * m.cc + k + 64) d
  let p := if internal then src else voltAt (i.ckVolts.map (ckVolts · ck false)) k d
  let q := if internal then 18000 - src else voltAt (i.ckVolts.map (ckVolts · ck true)) k d
  match mode with
  | 1 => comparator prev p (codeVolt thr) (halfHyst (m.fld (R.INTK_CTL_HYST n)))
  | 2 => decide (p > q)
  | _ => false

/-- The codes at tick k of the cycle being captured, from the comparators' state at the tick before (R37, R40, R45); `trims` are the lines' trims as delays, `dacs` the thresholds. -/
def Engine.captureTick (m : Engine) (n : Nat) (trims : List Nat) (dacs : List Dac) (k : Nat) (prev : TickCodes) : TickCodes :=
  let i := m.intake n
  let t := 16 * m.cc + k
  let b := if i.setAt t then 2 else 0
  let half := halfHyst (m.fld (R.INTK_CTL_HYST n))
  let lo := (nth dacs b ⟨0, 0, 0⟩).shown
  let hi := (nth dacs (b + 1) ⟨0, 0, 0⟩).shown
  let v := m.dataVolts n trims k
  { cl := mkLines (fun x => comparator (lineBit prev.cl x) (nth v x 0) lo half)
    ch := mkLines (fun x => comparator (lineBit prev.ch x) (nth v x 0) hi half)
    swap := i.swapAt t
    ck := BitVec.ofNat 2 ((m.clockBit n 0 k (prev.ck.getLsbD 0)).toNat + 2 * (m.clockBit n 1 k (prev.ck.getLsbD 1)).toNat) }

/-- The 16 ticks of the cycle being captured, tick 0 first, and the threshold DACs after them. -/
def Engine.captureWord (m : Engine) (n : Nat) : List TickCodes × List Dac :=
  let i := m.intake n
  let trims := (List.range 48).map (fun line => trimDelay (m.fld (R.INTK_LCFG_TRIM n line)))
  let r := (List.range 16).foldl (fun (acc : List TickCodes × TickCodes × List Dac) k =>
    let dacs := dacsAt n (16 * m.cc + k) acc.2.2
    let c := m.captureTick n trims dacs k acc.2.1
    (acc.1 ++ [c], c, dacs)) ([], { cl := i.cmpL, ch := i.cmpH, ck := i.cmpCk }, i.dacs)
  (r.1, r.2.2)

/-- A line's count of the window stands past a non-zero XLIMIT: once a window it is due for XLIMIT_EXCEEDED (R49). -/
def Engine.overLimit (m : Engine) (n line : Nat) (tb : Tb) : Engine :=
  let i := m.intake n
  let lim := m.fld (R.INTK_XCTL_XLIMIT n)
  if lim = 0 ∨ (mapFind i.xWindow line).getD 0 ≤ lim ∨ i.xDone.contains line then m
  else m.setIntake n { i with xOver := i.xOver ++ [(line, tb)], xDone := line :: i.xDone }

/-- XCTL was written (R49): a line that is past the new limit already is judged now. DESIGN CHOICE: notes/assumptions/132.md. -/
def Engine.xctlWritten (m : Engine) (n : Nat) : Engine := (m.intake n).xWindow.foldl (fun m x => m.overLimit n x.1 (tbOfCycle m.cycle)) m

/-- One X tick of a line outside swap windows (R48, R49): its counters and its bitmap bit; a bit that becomes 1 sets PAGE_STATUS.XSEEN. -/
def Engine.countX (m : Engine) (n line k : Nat) : Engine :=
  let m := m.addSat (R.INTK_XCOUNT n line) 1
  let a := if line < 32 then R.INTK_XSEEN0 n else R.INTK_XSEEN1 n
  let m := if bitAt (m.reg a).toNat (line % 32) then m else (m.orReg a (2 ^ (line % 32))).status (R.E_INTK_XSEEN n)
  let i := m.intake n
  (m.setIntake n { i with xWindow := mapSet 0 i.xWindow line ((mapFind i.xWindow line).getD 0 + 1) }).overLimit n line (tbOfCycle m.cycle + BitVec.ofNat 64 k)

/-- The lines whose XFAULT bit is set. -/
def Engine.xfault (m : Engine) (n : Nat) : Lines := m.lines (R.INTK_XFAULT0 n) (R.INTK_XFAULT1 n)

/-- The quarantined lines: those with XFAULT set while XCTL.QUARANTINE is 1 (R50). -/
def Engine.quarantined (m : Engine) (n : Nat) : Lines := if m.flag (R.INTK_XCTL_QUARANTINE n) then m.xfault n else 0

/-- XLIMIT_EXCEEDED (R49): the due line's XFAULT bit, PAGE_STATUS.XFAULT and the class U entry 0x0201 with the exceeding tick's TB. -/
def Engine.xLimit (m : Engine) (n line : Nat) : Engine :=
  let i := m.intake n
  match i.xOver.find? (fun p => p.1 == line) with
  | none => m
  | some p =>
    let m := m.setIntake n { i with xOver := i.xOver.filter (fun q => q.1 != line) }
    let a := if line < 32 then R.INTK_XFAULT0 n else R.INTK_XFAULT1 n
    let m := if bitAt (m.reg a).toNat (line % 32) then m else (m.orReg a (2 ^ (line % 32))).status (R.E_INTK_XFAULT n)
    m.log (0x10 + n) 2 0x0201 line p.2

/-- DISCORDANCE_WINDOW_END (R49): the counts of the window restart. -/
def Engine.windowEnd (m : Engine) : Engine := { m with intakes := m.intakes.map (fun i => { i with xWindow := [], xDone := [] }) }

/-- ACTIVE_SET as of a tick, and SWAP_TB where the set changed within the 16 ticks up to it, whose first has a TB (R42, R43). -/
def Engine.showSet (m : Engine) (n last : Nat) (tb : Tb) : Engine :=
  let i := m.intake n
  if i.setChanges.isEmpty then m
  else
    let m := m.setFlag (R.INTK_STATUS_ACTIVE_SET n) (i.setAt last)
    match (i.changes.filter (fun c => decide (last < c.tick + 16) && decide (c.tick ≤ last))).getLast? with
    | none => m
    | some c => m.setReg64 (R.INTK_SWAP_TB_LO n) (tb + BitVec.ofNat 64 (c.tick + 15 - last))

/-- Trim the record of set requests to those a later tick can still see. -/
def Intake.trimChanges (i : Intake) (t : Nat) : Intake :=
  let old := i.setChanges.filter (fun c => decide (c.tick + 20 ≤ t))
  { i with setBase := (match old.getLast? with | some c => c.setB | none => i.setBase), setChanges := i.setChanges.filter (fun c => decide (t < c.tick + 20)) }

/-- Has a clock input delivered a rising edge in the last 2^16 CCLK (R52)? `ckRise` holds the cycle of the last one, plus 1. -/
def Intake.ckSeen (i : Intake) (ck cc : Nat) : Bool := let r := nth i.ckRise ck 0; r != 0 && decide (cc + 1 < r + 65536)

/-- The front end of one intake in one CCLK cycle (R45 to R52): capture, discordance, quarantine, clock presence. -/
def Engine.intakeCycle (m : Engine) (n : Nat) (pins : Pins) : Engine :=
  let i := m.intake n
  let m := m.setIntake n { i with
    volts := (pins.lines.filter (fun p => p.intake.val == n) :: i.volts).take 3
    ckVolts := (pins.clocks.filter (fun p => p.intake.val == n) :: i.ckVolts).take 3 }
  let quar := m.quarantined n
  let m := m.showSet n (16 * m.cc + 15) (tbOfCycle m.cycle)
  let (w, dacs) := m.captureWord n
  let m := (List.range 16).foldl (fun (m : Engine) k =>
    let c := nth w k {}
    let x := if c.swap then 0 else c.ch &&& ~~~c.cl
    if x = 0 then m else forEach 48 (fun line m => if lineBit x line then m.countX n line k else m) m) m
  let i := m.intake n
  let last := nth w 15 {}
  let rise := fun ck => ((List.range 16).any (fun k => (nth w k {}).ck.getLsbD ck && !((if k = 0 then i.cmpCk else (nth w (k - 1) {}).ck).getLsbD ck)))
  let i := { i with
    hist := ((w.map (fun (c : TickCodes) => { c with cl := c.cl &&& ~~~quar, ch := c.ch &&& ~~~quar })).reverse ++ i.hist).take 768
    cmpL := last.cl, cmpH := last.ch, cmpCk := last.ck, dacs := dacs
    ckRise := [if rise 0 then m.cc + 1 else nth i.ckRise 0 0, if rise 1 then m.cc + 1 else nth i.ckRise 1 0] }
  let i := i.trimChanges (16 * m.cc)
  let m := m.setIntake n i
  let m := m.setFlag (R.INTK_STATUS_SWAP_WIN n) (i.swapAt (16 * m.cc + 15))
  let m := m.setFlag (R.INTK_STATUS_QUAR n) (quar != 0)
  let m := m.setFlag (R.INTK_STATUS_CK0_SEEN n) (i.ckSeen 0 m.cc)
  m.setFlag (R.INTK_STATUS_CK1_SEEN n) (i.ckSeen 1 m.cc)

/-! Changes of the set in force (R42 to R44). -/

/-- An event that disturbs a running EXTERNAL measurement sets CALSTAT.DISTURBED (R55). -/
def Engine.disturb (m : Engine) (n : Nat) : Engine :=
  if m.flag (R.INTK_CALSTAT_BUSY n) && (m.intake n).calMode == 2 then m.setFlag (R.INTK_CALSTAT_DISTURBED n) true else m

/-- A set is to be in force from `off` ticks after the start of the next cycle (R42 to R44). Among requests of one tick those of the rota stand last. DESIGN CHOICE: notes/assumptions/130.md. -/
def Engine.changeSet (m : Engine) (n off : Nat) (setB byWrite byRota : Bool) : Engine :=
  let i := m.intake n
  let t := m.nextTick + off
  let (before, after) := i.setChanges.partition (fun c => decide (c.tick < t) || (c.tick == t && (byRota || c.byWrite)))
  let m := m.setIntake n { i with setChanges := before ++ [⟨t, setB, byWrite⟩] ++ after }
  m.showSet n (m.nextTick + 15) (tbOfCycle m.nextCycle)

/-- THRSEL takes effect while disarmed at the next CCLK boundary; in the same CCLK as a THRESH_SWAP, at the boundary after (R42, R44). -/
def Engine.thrselApply (m : Engine) (n : Nat) : Engine :=
  let setB := m.flag (R.INTK_THRSEL_SET n)
  let clash := (m.intake n).setChanges.any (fun c => !c.byWrite && decide (m.nextTick ≤ c.tick))
  m.changeSet n (if clash then 16 else 0) setB true false

/-- A reset that returns the page puts set A in force (R42), whatever THRSEL holds. -/
def Engine.setAtReset (m : Engine) (n : Nat) : Engine :=
  let i := m.intake n
  let m := m.setIntake n { i with setChanges := i.setChanges.filter (fun c => decide (c.tick < m.nextTick)) }
  m.changeSet n 0 false false false

/-- A THRESH_SWAP at tick `off` of the next cycle (R43); a THRSEL write of that same boundary moves to the boundary after it (R44). -/
def Engine.threshSwap (m : Engine) (n off : Nat) (setB : Bool) : Engine :=
  let i := m.intake n
  let writes := i.setChanges.filter (fun c => c.byWrite && decide (m.nextTick ≤ c.tick))
  let m := m.setIntake n { i with setChanges := i.setChanges.filter (fun c => !(c.byWrite && decide (m.nextTick ≤ c.tick))) }
  let m := (m.disturb n).changeSet n off setB false true
  match writes.getLast? with
  | none => m
  | some w => m.changeSet n 16 w.setB true false

/-! Register effects. -/

/-- RANGE, ORDER_A and ORDER_B of STATUS follow the threshold registers; one that becomes 1 sets PAGE_STATUS.THR_CFG (R38, R39, R58). -/
def Engine.thresholdStatus (m : Engine) (n : Nat) : Engine :=
  let al := m.fld (R.INTK_THR_A_VTL n); let ah := m.fld (R.INTK_THR_A_VTH n)
  let bl := m.fld (R.INTK_THR_B_VTL n); let bh := m.fld (R.INTK_THR_B_VTH n)
  let range := [al, ah, bl, bh, m.fld (R.INTK_CKTHR_CK0_THR n), m.fld (R.INTK_CKTHR_CK1_THR n)].any (fun c => decide (4000 < c))
  let oa := decide (effCode ah < effCode al)
  let ob := decide (effCode bh < effCode bl)
  let rose := (range && !m.flag (R.INTK_STATUS_RANGE n)) || (oa && !m.flag (R.INTK_STATUS_ORDER_A n)) || (ob && !m.flag (R.INTK_STATUS_ORDER_B n))
  let m := ((m.setFlag (R.INTK_STATUS_RANGE n) range).setFlag (R.INTK_STATUS_ORDER_A n) oa).setFlag (R.INTK_STATUS_ORDER_B n) ob
  if rose then m.status (R.E_INTK_THR_CFG n) else m

/-- A DAC is given a code: it starts from what it shows now (R41). -/
def Engine.moveDac (m : Engine) (n k code : Nat) : Engine :=
  let i := m.intake n
  let d := nth i.dacs k ⟨0, 0, 0⟩
  if d.code = code then m else m.setIntake n { i with dacs := i.dacs.set k ⟨d.shown, code, m.nextTick⟩ }

/-- A threshold register was written (R41): both DACs of its set move, and a running EXTERNAL measurement is disturbed (R55). -/
def Engine.thresholdWritten (m : Engine) (n : Nat) (setB : Bool) : Engine :=
  let lo := effCode (m.fld (if setB then R.INTK_THR_B_VTL n else R.INTK_THR_A_VTL n))
  let hi := effCode (m.fld (if setB then R.INTK_THR_B_VTH n else R.INTK_THR_A_VTH n))
  let b := if setB then 2 else 0
  (((m.moveDac n b lo).moveDac n (b + 1) hi).disturb n).thresholdStatus n

/-- CKTHR was written (R41, R55). -/
def Engine.ckthrWritten (m : Engine) (n : Nat) : Engine := (m.disturb n).thresholdStatus n

/-! The calibration measurement (R54 to R56). -/

/-- Does input x (0 to 47 a line, 48 and 49 the clock inputs) read H, or 1, at a deskewed tick (R54)? -/
def Engine.inputHigh (m : Engine) (n x t : Nat) : Bool :=
  let d := if x < 48 then m.fld (R.RU_LINE_DELAY n x) else if x = 48 then m.fld (R.RU_CKDELAY_CK0_DELAY n) else m.fld (R.RU_CKDELAY_CK1_DELAY n)
  let newest := 16 * m.cc + 15
  if t < d then false
  else
    let c := nth (m.intake n).hist (newest - (t - d)) {}
    if x < 48 then lineBit c.cl x && lineBit c.ch x else c.ck.getLsbD (x - 48)

/-- Has input x an edge at a deskewed tick: high after at least 8 ticks without (R54)? -/
def Engine.calEdge (m : Engine) (n x t : Nat) : Bool :=
  m.inputHigh n x t && (List.range 8).all (fun j => !m.inputHigh n x (t - 1 - j))

/-- The offset of an edge of input x within ±127 tk of a reference edge (R54): of several the nearest, of two equally near the earlier. DESIGN CHOICE: notes/assumptions/131.md. -/
def Engine.calOffset (m : Engine) (n x r : Nat) : Option Int :=
  ((List.range 128).findSome? (fun o =>
    if m.calEdge n x (r - o) then some (-(o : Int)) else if m.calEdge n x (r + o) then some (o : Int) else none))

/-- One reference edge counted: every other input adds its lag or a miss (R54). -/
def Engine.calCount (m : Engine) (n r : Nat) : Engine :=
  let ref := (m.intake n).calRef
  let m := forEach 50 (fun x m =>
    if x = ref then m
    else
      let sum := if x < 48 then R.INTK_CALSUM n x else if x = 48 then R.INTK_CK0SUM n else R.INTK_CK1SUM n
      let miss := if x < 48 then R.INTK_CALMISS_MISS n x else if x = 48 then R.INTK_CKMISS_CK0_MISS n else R.INTK_CKMISS_CK1_MISS n
      match m.calOffset n x r with
      | some o => m.setReg sum (m.reg sum + BitVec.ofInt 32 o)
      | none => m.setFld miss (min (m.fld miss + 1) 0xFFFF)) m
  m.setFld (R.INTK_CALSTAT_DONE n) (m.fld (R.INTK_CALSTAT_DONE n) + 1)

/-- CAL_DONE (R54): after COUNT reference edges BUSY and GO clear and PAGE_STATUS.CAL_DONE is set. -/
def Engine.calDone (m : Engine) (n : Nat) : Engine :=
  if m.flag (R.INTK_CALSTAT_BUSY n) && decide ((m.intake n).calCount ≤ m.fld (R.INTK_CALSTAT_DONE n)) then
    ((m.setFlag (R.INTK_CALSTAT_BUSY n) false).setFlag (R.INTK_CAL_GO n) false).status (R.E_INTK_CAL_DONE n)
  else m

/-- CAL_TIMEOUT (R54): no reference edge for 2^20 CCLK ends the measurement with TIMEOUT; edges are judged 7 CCLK after their cycle (R9). -/
def Engine.calTimeout (m : Engine) (n : Nat) : Engine :=
  if m.flag (R.INTK_CALSTAT_BUSY n) && decide ((m.intake n).calLast + 2 ^ 20 + 7 ≤ m.cc) then
    (((m.setFlag (R.INTK_CALSTAT_BUSY n) false).setFlag (R.INTK_CAL_GO n) false).setFlag (R.INTK_CALSTAT_TIMEOUT n) true).status (R.E_INTK_CAL_DONE n)
  else m

/-- The measurement's work in one judged cycle: new reference edges join the list, and those whose ±127 tk are complete are counted. -/
def Engine.calCycle (m : Engine) (n judgedCc : Nat) : Engine :=
  if !m.flag (R.INTK_CALSTAT_BUSY n) then m
  else
    let i := m.intake n
    let ref := i.calRef
    let found := (List.range 16).filterMap (fun k => let t := 16 * judgedCc + k; if decide (16 * i.calLast ≤ t) && m.calEdge n ref t then some t else none)
    let refs := i.calRefs ++ found
    let ripe := refs.filter (fun r => decide (r + 127 ≤ 16 * judgedCc + 15))
    let m := m.setIntake n { i with
      calRefs := refs.filter (fun r => decide (16 * judgedCc + 15 < r + 127))
      calLast := match refs.getLast? with | some r => max i.calLast (r / 16) | none => i.calLast }
    ripe.foldl (fun m r => if m.fld (R.INTK_CALSTAT_DONE n) < i.calCount then m.calCount n r else m) m

/-- CAL was written with GO (R54, R55): refused, or every result cleared and the measurement started with the mode, reference and count written; one that runs starts afresh.
DESIGN CHOICE: notes/assumptions/85.md. -/
def Engine.calGo (m : Engine) (n : Nat) (armed : Bool) : Engine :=
  let mode := m.fld (R.INTK_CAL_MODE n)
  let ref := m.fld (R.INTK_CAL_REFLINE n)
  let ckOff := fun (f : Field) => m.fld f == 0 || m.fld f == 3
  let refuse := (mode == 1 && armed) || mode == 0 || mode == 3 || decide (49 < ref) || m.fld (R.INTK_CAL_COUNT n) == 0 ||
    (ref == 48 && ckOff (R.INTK_CTL_CK0_MODE n)) || (ref == 49 && ckOff (R.INTK_CTL_CK1_MODE n))
  if refuse then (m.setFlag (R.INTK_CAL_GO n) (m.flag (R.INTK_CALSTAT_BUSY n))).setFlag (R.INTK_CALSTAT_REFUSED n) true
  else
    let m := forEach 48 (fun x m => (m.setReg (R.INTK_CALSUM n x) 0).setReg (R.INTK_CALMISS n x) 0) m
    let m := ((m.setReg (R.INTK_CK0SUM n) 0).setReg (R.INTK_CK1SUM n) 0).setReg (R.INTK_CKMISS n) 0
    let m := (m.setReg (R.INTK_CALSTAT n) 0).setFlag (R.INTK_CALSTAT_BUSY n) true
    let m := m.setFlag (R.INTK_CAL_GO n) true
    let (k, m) := m.draw
    m.setIntake n { m.intake n with calRefs := [], calLast := m.cc + 1, calPhase := Config.calPhase k, calMode := mode, calRef := ref, calCount := m.fld (R.INTK_CAL_COUNT n) }

end Sys2Proof.Machine
end

