-- ==== Sys2Proof/Machine/Reach.lean ====
section
/-! DEFINITION. Reach units ahead of the store gate (R60 to R74, R81): integer deskew, the settle filter, the one-bit view, state edges, the eye scan. -/
namespace Sys2Proof.Machine

/-- The two-bit code of a line: CH in bit 1, CL in bit 0 (R37): L 0, M 1, X 2, H 3. -/
def codeOf (cl ch : Lines) (x : Nat) : Nat := (lineBit cl x).toNat + 2 * (lineBit ch x).toNat

/-- The front end's tick at a position counted from headrace lock. -/
def Engine.rawTick (m : Engine) (n t : Nat) : TickCodes := nth (m.intake n).hist (16 * m.cc + 15 - t) {}

/-- The codes of every line and clock input at a deskewed tick, each with its own swap flag (R43, R60); `ds` are the lines' delays. -/
def Engine.deskewed (m : Engine) (n : Nat) (ds : List Nat) (t : Nat) : FTick :=
  let src := fun x => let d := nth ds x 0; if t < d then ({} : TickCodes) else m.rawTick n (t - d)
  let ckd := fun x => if x = 0 then m.fld (R.RU_CKDELAY_CK0_DELAY n) else m.fld (R.RU_CKDELAY_CK1_DELAY n)
  let ck := fun x => if t < ckd x then ({} : TickCodes) else m.rawTick n (t - ckd x)
  let srcs := (List.range 48).map src
  { cl := mkLines (fun x => lineBit (nth srcs x {}).cl x)
    ch := mkLines (fun x => lineBit (nth srcs x {}).ch x)
    flag := mkLines (fun x => (nth srcs x {}).swap)
    ck := BitVec.ofNat 2 (((ck 0).ck.getLsbD 0).toNat + 2 * ((ck 1).ck.getLsbD 1).toNat)
    ckFlag := BitVec.ofNat 2 ((ck 0).swap.toNat + 2 * (ck 1).swap.toNat) }

/-- The settle filter at tick k of a run of codes (R62): a change is accepted only if the new code holds for F ticks; a shorter run keeps the accepted code. -/
def settle (f acc : Nat) (codes : Nat → Nat) (k : Nat) : Nat :=
  if f ≤ 1 then codes k
  else if codes k = acc then acc
  else if (List.range f).all (fun j => codes (k + j) == codes k) then codes k else acc

/-- The one-bit view of a line's code (R63): BITMODE HOLD, HIGH, LOW. -/
def viewBit (mode code : Nat) (prev : Bool) : Bool :=
  match mode, code with
  | 1, c => c == 3
  | 2, c => c == 1 || c == 3
  | _, 0 => false
  | _, 3 => true
  | _, _ => prev

/-- One filtered tick from the deskewed ticks of the cycle and the next (R62, R63); `fs` are the lines' filter lengths. The view's bits start at 0 at power-on and run
on through every other reset. DEDUCED: notes/assumptions/134.md. -/
def Engine.filterTick (m : Engine) (n : Nat) (fs : List Nat) (raw : List FTick) (k : Nat) (i : Intake) : FTick :=
  let d := nth raw k {}
  let ckf := m.fld (R.RU_STATECFG_CKF n)
  let mode := m.fld (R.RU_STREAM_BITMODE n)
  let code := fun x => settle (nth fs x 0) (codeOf i.accL i.accH x) (fun j => codeOf (nth raw j {}).cl (nth raw j {}).ch x) k
  let ck := fun x => settle ckf (i.accCk.getLsbD x).toNat (fun j => ((nth raw j {}).ck.getLsbD x).toNat) k
  let codes := (List.range 48).map code
  { d with
    cl := mkLines (fun x => nth codes x 0 % 2 == 1)
    ch := mkLines (fun x => decide (2 ≤ nth codes x 0))
    view := mkLines (fun x => viewBit mode (nth codes x 0) (lineBit i.view x))
    ck := BitVec.ofNat 2 (ck 0 + 2 * ck 1) }

/-- The clock input of STATECFG.EDGE, and whether rising and falling edges are taken (R69); none for codes 6 and 7. -/
def edgeSel : Nat → Option (Nat × Bool × Bool)
  | 0 => some (0, true, false) | 1 => some (0, false, true) | 2 => some (0, true, true)
  | 3 => some (1, true, false) | 4 => some (1, false, true) | 5 => some (1, true, true)
  | _ => none

/-- Is there a qualified clock edge between two successive ticks (R69, R71)? -/
def stateEdge (edge qual : Nat) (prev cur : BitVec 2) : Bool :=
  match edgeSel edge with
  | none => false
  | some (ck, rise, fall) =>
    let p := prev.getLsbD ck; let c := cur.getLsbD ck; let other := cur.getLsbD (1 - ck)
    ((rise && !p && c) || (fall && p && !c)) && (match qual with | 1 => other | 2 => !other | _ => true)

/-- The tick d ticks before tick k of the newest of the judged cycles, newest first. -/
def tickBack (js : List Judged) (k d : Nat) : FTick :=
  if d ≤ k then nth (nth js 0 {}).ticks (k - d) {}
  else nth (nth js (1 + (d - k - 1) / 16) {}).ticks (15 - (d - k - 1) % 16) {}

/-- The eye scan's count of one edge (R73): each offset at which the line's code differs from the tick before (TRANS), or is M or X (MID). LINE, MODE and COUNT are the
register's as it stands. DESIGN CHOICE: notes/assumptions/135.md. -/
def Engine.eyeEdge (m : Engine) (n k : Nat) (js : List Judged) : Engine :=
  let line := m.fld (R.RU_EYECTL_LINE n)
  let mode := m.fld (R.RU_EYECTL_MODE n)
  let code := fun d => codeOf (tickBack js k d).cl (tickBack js k d).ch line
  let m := forEach 64 (fun o m =>
    if (if mode = 0 then code o != code (o + 1) else code o == 1 || code o == 2) then m.addWrap (R.RU_EYECNT n o) 1 else m) m
  (m.setFld (R.RU_EYESTAT_DONE n) (m.fld (R.RU_EYESTAT_DONE n) + 1)).setIntake n { m.intake n with eyeLast := m.cc }

/-- Cycles since the capture of the oldest sample cycle that has not passed the store gate. -/
def Engine.backlog (m : Engine) : Nat := match m.path.pipe.head? with | none => 0 | some e => m.cc - e.phys

/-- Deskew and filter the sample cycle captured `7` cycles ago (R9, R60, R62), take its state edges (R69, R71), and let a running eye scan watch them (R73). -/
def Engine.reachCycle (m : Engine) (n p : Nat) : Engine :=
  let ds := (List.range 48).map (fun x => m.fld (R.RU_LINE_DELAY n x))
  let fs := (List.range 48).map (fun x => m.fld (R.RU_LINE_F n x))
  let raw := (List.range 31).map (fun k => m.deskewed n ds (16 * p + k))
  let edge := m.fld (R.RU_STATECFG_EDGE n)
  let qual := m.fld (R.RU_STATECFG_QUAL n)
  let step := fun (acc : Intake × Judged × Nat) k =>
    let (i, j, skips) := acc
    let f := m.filterTick n fs raw k i
    let isEdge := stateEdge edge qual i.accCk f.ck
    let take := isEdge && decide (4 ≤ i.edgeAge)
    ({ i with accL := f.cl, accH := f.ch, accCk := f.ck, view := f.view
              edgeAge := if take then 1 else min 4 (i.edgeAge + 1)
              skipped := if take then false else i.skipped || isEdge },
     { j with ticks := j.ticks ++ [f], edges := if take then j.edges ++ [(k, i.skipped)] else j.edges },
     if isEdge && !take then skips + 1 else skips)
  let (i, j, skips) := (List.range 16).foldl step (m.intake n, ({} : Judged), 0)
  let js := j :: i.judged
  let m := m.setIntake n { i with judged := js.take (140 + m.backlog) }
  let m := if skips = 0 then m else (m.addSat (R.RU_CKSKIP n) skips).status (R.E_RU_CKSKIP n)
  j.edges.foldl (fun m e =>
    if m.flag (R.RU_EYESTAT_BUSY n) && decide (m.fld (R.RU_EYESTAT_DONE n) < m.fld (R.RU_EYECTL_COUNT n)) then m.eyeEdge n e.1 js else m) m

/-- EYE_GO (R73, R74): refused, or the counters cleared and the scan started afresh. A scan that runs already goes on after a refused start. DESIGN CHOICE:
notes/assumptions/135.md. -/
def Engine.eyeGo (m : Engine) (n : Nat) : Engine :=
  let ck := (edgeSel (m.fld (R.RU_STATECFG_EDGE n))).map (·.1)
  let ckMode := match ck with | some 0 => m.fld (R.INTK_CTL_CK0_MODE n) | _ => m.fld (R.INTK_CTL_CK1_MODE n)
  let refuse := decide (47 < m.fld (R.RU_EYECTL_LINE n)) || decide (2 ≤ m.fld (R.RU_EYECTL_MODE n)) || m.fld (R.RU_EYECTL_COUNT n) == 0 ||
    ck.isNone || ckMode == 0 || ckMode == 3
  if refuse then (m.setFlag (R.RU_EYECTL_GO n) (m.flag (R.RU_EYESTAT_BUSY n))).setFlag (R.RU_EYESTAT_REFUSED n) true
  else
    let m := forEach 64 (fun o m => m.setReg (R.RU_EYECNT n o) 0) m
    let m := (m.setReg (R.RU_EYESTAT n) 0).setFlag (R.RU_EYESTAT_BUSY n) true
    (m.setFlag (R.RU_EYECTL_GO n) true).setIntake n { m.intake n with eyeLast := m.cc }

/-- EYE_DONE (R73). -/
def Engine.eyeDone (m : Engine) (n : Nat) : Engine :=
  if m.flag (R.RU_EYESTAT_BUSY n) && decide (m.fld (R.RU_EYECTL_COUNT n) ≤ m.fld (R.RU_EYESTAT_DONE n)) then
    ((m.setFlag (R.RU_EYESTAT_BUSY n) false).setFlag (R.RU_EYECTL_GO n) false).status (R.E_RU_EYE_DONE n)
  else m

/-- EYE_TIMEOUT (R73): no edge for 2^20 CCLK. -/
def Engine.eyeTimeout (m : Engine) (n : Nat) : Engine :=
  if m.flag (R.RU_EYESTAT_BUSY n) && decide ((m.intake n).eyeLast + 2 ^ 20 ≤ m.cc) then
    (((m.setFlag (R.RU_EYESTAT_BUSY n) false).setFlag (R.RU_EYECTL_GO n) false).setFlag (R.RU_EYESTAT_TIMEOUT n) true).status (R.E_RU_EYE_DONE n)
  else m

/-- STATUS.EDGE_INV follows STATECFG.EDGE in force; becoming 1 it sets PAGE_STATUS.CFG (R69, R86). -/
def Engine.edgeInv (m : Engine) (n : Nat) : Engine :=
  let inv := decide (6 ≤ m.fld (R.RU_STATECFG_EDGE n))
  let rose := inv && !m.flag (R.RU_STATUS_EDGE_INV n)
  let m := m.setFlag (R.RU_STATUS_EDGE_INV n) inv
  if rose then m.status (R.E_RU_CFG n) else m

end Sys2Proof.Machine
end

