-- ==== Sys2Proof/Machine/Gauges.lean ====
section
/-! DEFINITION. Gauges (R88 to R116): match gauges, timed gauges, their results and counters, the reach lookup table. -/
namespace Sys2Proof.Machine

/-- The alignment delay: 96 CCLK in lockstep, none in local mode (R32, R33, R147). -/
def Engine.lag (m : Engine) : Nat := if m.flag R.RING_STATUS_MODE then 96 else 0

/-- The table set in force for the sample cycle captured in cycle p (R141). -/
def Engine.setAt (m : Engine) (p : Nat) : Bool := m.tableChanges.foldl (fun s c => if c.1 ≤ p then c.2 else s) m.tableSet

/-- Was the sample cycle captured in cycle p armed (R14)? -/
def Engine.armedAt (m : Engine) (p : Nat) : Bool :=
  match m.armSpan with
  | none => false
  | some (a, none) => decide (a ≤ p)
  | some (a, some e) => decide (a ≤ p) && decide (p < e)

/-! Match gauges. -/

/-- The accept set's bit for a code: bit 0 L, 1 M, 2 H, 3 X (R92). -/
def acceptBit (code : Nat) : Nat := match code with | 0 => 0 | 1 => 1 | 3 => 2 | _ => 3

/-- The rank of a code for MAWARE edges; X has none (R93). -/
def rank (code : Nat) : Option Nat := match code with | 0 => some 0 | 1 => some 1 | 3 => some 2 | _ => none

/-- A match gauge's settings in one bank. -/
structure MatchCfg where
  en : Bool
  state : Bool
  maware : Bool
  edgeAny : Bool
  mask : Lines
  value : Lines
  edge : Nat → Nat
  acc : Nat → Nat

/-- The settings of match gauge g of intake n in bank b (R116). DEDUCED: notes/assumptions/88.md. -/
def Engine.matchCfg (m : Engine) (n b g : Nat) : MatchCfg where
  en := m.flag (R.RUG_MG_MCTL_EN n b g)
  state := m.flag (R.RUG_MG_MCTL_SRC n b g)
  maware := m.flag (R.RUG_MG_MCTL_MODE n b g)
  edgeAny := m.flag (R.RUG_MG_MCTL_EDGEOP n b g)
  mask := m.lines (R.RUG_MG_MASK_LO n b g) (R.RUG_MG_MASK_HI n b g)
  value := m.lines (R.RUG_MG_VALUE_LO n b g) (R.RUG_MG_VALUE_HI n b g)
  edge := fun x => bitsOf (m.reg (R.RUG_MG_EDGE0 n b g + 4 * (x / 16))).toNat (2 * (x % 16)) 2
  acc := fun x => bitsOf (m.reg (R.RUG_MG_ACC n b g (x / 8))).toNat (4 * (x % 8)) 4

/-- Does the gauge test line x (R95)? -/
def MatchCfg.tests (c : MatchCfg) (x : Nat) : Bool := c.edge x != 0 || (if c.maware then c.acc x != 0xF else lineBit c.mask x)

/-- A line's codes and views now and before, as a gauge compares them. -/
structure LineView where
  code : Nat
  prev : Nat
  v : Bool
  vPrev : Bool

/-- Level condition of a line (R92). -/
def MatchCfg.level (c : MatchCfg) (x : Nat) (l : LineView) : Bool :=
  if c.maware then bitAt (c.acc x) (acceptBit l.code)
  else !lineBit c.mask x || (l.code == 0 && !lineBit c.value x) || (l.code == 3 && lineBit c.value x)

/-- Edge condition of a line whose edge code is not NONE (R93). -/
def MatchCfg.edgeAt (c : MatchCfg) (x : Nat) (l : LineView) : Bool :=
  let ranks := match rank l.prev, rank l.code with | some a, some b => some (a, b) | _, _ => none
  match c.edge x with
  | 1 => if c.maware then (match ranks with | some (a, b) => decide (a < b) | none => false) else !l.vPrev && l.v
  | 2 => if c.maware then (match ranks with | some (a, b) => decide (b < a) | none => false) else l.vPrev && !l.v
  | 3 => if c.maware then l.code != l.prev else l.v != l.vPrev
  | _ => false

/-- Does an enabled match gauge hit, every line being as given (R94)? -/
def MatchCfg.hits (c : MatchCfg) (l : Nat → LineView) : Bool :=
  let sel := (List.range 48).filter (fun x => c.edge x != 0)
  c.en && (List.range 48).all (fun x => c.level x (l x)) &&
    (sel.isEmpty || (if c.edgeAny then sel.any (fun x => c.edgeAt x (l x)) else sel.all (fun x => c.edgeAt x (l x))))

/-! Timed gauges. -/

/-- A timed gauge's settings in one bank. -/
structure TimedCfg where
  en : Bool
  type : Nat
  line : Nat
  set : Nat
  dir : Nat
  outside : Bool
  levelOut : Bool
  rep : Bool
  xAbandon : Bool
  swapAbandon : Bool
  armCut : Bool
  lo : Nat
  hi : Nat

/-- The settings of timed gauge g (0 to 3 for G4 to G7) of intake n in bank b (R116). -/
def Engine.timedCfg (m : Engine) (n b g : Nat) : TimedCfg where
  en := m.flag (R.RUG_TG_TCTL_EN n b g)
  type := m.fld (R.RUG_TG_TCTL_TYPE n b g)
  line := m.fld (R.RUG_TG_TCTL_LINE n b g)
  set := m.fld (R.RUG_TG_TCTL_SET n b g)
  dir := m.fld (R.RUG_TG_TCTL_DIR n b g)
  outside := m.flag (R.RUG_TG_TCTL_CMP n b g)
  levelOut := m.flag (R.RUG_TG_TCTL_OUT n b g)
  rep := m.flag (R.RUG_TG_TCTL_REPEAT n b g)
  xAbandon := m.flag (R.RUG_TG_TCTL_XMODE n b g)
  swapAbandon := m.flag (R.RUG_TG_TCTL_SWAPMODE n b g)
  armCut := m.flag (R.RUG_TG_TCTL_ARMCUT n b g)
  lo := (m.reg (R.RUG_TG_LO n b g)).toNat
  hi := (m.reg (R.RUG_TG_HI n b g)).toNat

/-- Do two banks' settings agree in the fields whose change abandons a measurement (R108)? -/
def TimedCfg.sameMeasure (a b : TimedCfg) : Bool :=
  a.en == b.en && a.type == b.type && a.line == b.line && a.set == b.set && a.dir == b.dir && a.xAbandon == b.xAbandon && a.swapAbandon == b.swapAbandon

/-- A measurement is abandoned: the next tick judged is the resume tick (R98). -/
def TimedGauge.abandon (g : TimedGauge) : TimedGauge := { g with active := false, long := false, level := false, judgedPrev := false }

/-- What a tick of a timed gauge gave: a decision hit, its kind (a long hit or an expiry is settled by its own command), a completed measurement. -/
structure TimedOut where
  g : TimedGauge
  hit : Bool := false
  due : Bool := false
  measured : Option Nat := none
  counted : Bool := false

/-- WIDTH (R100). A pulse past the limit as it stands is long: a limit tightened below its width makes it long at once. DEDUCED: notes/assumptions/141.md. -/
def TimedCfg.width (c : TimedCfg) (g : TimedGauge) (l : LineView) : TimedOut :=
  let s := bitAt c.set (acceptBit l.code)
  let sPrev := bitAt c.set (acceptBit l.prev)
  if g.active then
    let len := min (g.len + 1) (2 ^ 32)
    if s then
      let long := c.outside && !g.long && decide (c.hi ≤ len)
      { g := { g with len := len, long := g.long || long, level := g.level || long }, hit := long, due := long }
    else
      { g := { g with active := false, len := len, long := false, level := false }
        hit := if c.outside then !g.long && decide (len < c.lo) else decide (c.lo ≤ len) && decide (len ≤ c.hi)
        measured := some len, counted := true }
  else if g.judgedPrev && !sPrev && s then
    let long := c.outside && c.hi == 0
    { g := { g with active := true, len := 0, long := long, level := long }, hit := long, due := long }
  else { g := g }

/-- The code of the far level, opposite a base. -/
def farOf (base : Nat) : Nat := 3 - base

/-- RUNT (R101) and SLEW (R102): excursions from a base or start level. -/
def TimedCfg.excursion (c : TimedCfg) (g : TimedGauge) (l : LineView) : TimedOut :=
  let slew := c.type == 3
  let inside := fun w => decide (c.lo ≤ w) && decide (w ≤ c.hi)
  let done := fun (g : TimedGauge) w =>
    { g := { g with active := false }, hit := if slew && c.outside then !inside w else inside w, measured := some w, counted := true : TimedOut }
  if g.active then
    let len := min (g.len + 1) (2 ^ 32)
    let base := if g.base then 3 else 0
    let g := { g with len := len }
    if l.code = base then (if slew then { g := { g with active := false } } else done g len)
    else if l.code = farOf base then (if slew then done g len else { g := { g with active := false } })
    else { g := g }
  else if g.judgedPrev && ((l.prev == 0 && c.dir % 2 == 1) || (l.prev == 3 && decide (2 ≤ c.dir))) && l.code != l.prev then
    let g := { g with active := true, len := 0, base := l.prev == 3 }
    if l.code = farOf l.prev then (if slew then done g 0 else { g := { g with active := false } }) else { g := g }
  else { g := g }

/-- TIMEOUT (R103), at a tick after the resume tick. A limit tightened below the silence expires at once. DEDUCED: notes/assumptions/141.md. -/
def TimedCfg.timeout (c : TimedCfg) (g : TimedGauge) (l : LineView) : TimedOut :=
  let sil := min (g.silence + 1) (2 ^ 32)
  let event := (c.dir % 2 == 1 && !l.vPrev && l.v) || (decide (2 ≤ c.dir) && l.vPrev && !l.v)
  if event then
    { g := { g with silence := 0, lastResume := false, expired := false, level := false }
      measured := if g.lastResume then none else some sil, counted := true }
  else if decide (max c.hi 1 ≤ sil) && !g.expired then
    { g := { g with silence := if c.rep then 0 else sil, lastResume := if c.rep then false else g.lastResume, expired := !c.rep, level := true }
      hit := true, due := true }
  else { g := { g with silence := sil } }

/-- One tick of a timed gauge (R97 to R106); `flagged` is its own line's swap flag. -/
def TimedCfg.tick (c : TimedCfg) (g : TimedGauge) (l : LineView) (flagged : Bool) : TimedOut :=
  if !c.en || decide (50 ≤ c.line) then { g := g.abandon }
  else if flagged && c.swapAbandon then { g := g.abandon }
  else if c.type ≠ 2 ∧ c.xAbandon ∧ l.code = 2 then { g := g.abandon }
  else
    let o := match c.type with
      | 0 => c.width g l
      | 2 => if g.judgedPrev then c.timeout g l else { g := { g with silence := 0, lastResume := true, expired := false, level := false } }
      | _ => c.excursion g l
    { o with g := { o.g with judgedPrev := true } }

/-- Has the gauge a measurement in progress (R116)? A TIMEOUT gauge measures its silence from the resume tick on. -/
def TimedCfg.measuring (c : TimedCfg) (g : TimedGauge) : Bool := c.en && decide (c.line < 50) && (if c.type = 2 then g.judgedPrev else g.active)

/-! Results and counters. -/

/-- Add one to a timed gauge's 48-bit counter; at 2^48 − 1 it saturates and sets STATUS.SAT and PAGE_STATUS.SAT (R110). -/
def Engine.countGauge (m : Engine) (n g : Nat) : Engine :=
  let c := (m.reg64 (R.RUG_CNT_LO n g)).toNat
  if 2 ^ 48 - 2 ≤ c then
    let m := m.setReg64 (R.RUG_CNT_LO n g) (BitVec.ofNat 64 (2 ^ 48 - 1))
    (m.orReg (R.RUG_STATUS n) (2 ^ (16 + g))).status (R.E_RUG_SAT n)
  else m.setReg64 (R.RUG_CNT_LO n g) (BitVec.ofNat 64 (c + 1))

/-- Does the counter count a tick of the cycle captured in cycle p (R110)? A count made stays where a later settling leaves its cycle unstored. DESIGN CHOICE:
notes/assumptions/140.md. -/
def Engine.countsIn (m : Engine) (n g p : Nat) : Bool := !m.flag (R.RUG_CNTCTL_ARMED_ONLY n g) || m.armedAt p

/-- A decision tick at which the gauge hit (R104, R109, R110). -/
def Engine.decisionHit (m : Engine) (n g p : Nat) (t : Tb) : Engine :=
  let m := m.setReg64 (R.RUG_HIT_TB_LO n g) t
  if m.fld (R.RUG_CNTCTL_SEL n g) == 0 && m.countsIn n g p then m.countGauge n g else m

/-- A completed measurement: LAST, MINV, MAXV (R109), when a length is recorded, and the MEASURES count (R110). -/
def Engine.completed (m : Engine) (n g p : Nat) (len : Option Nat) : Engine :=
  let m := match len with
    | none => m
    | some w =>
      let x := min w 0xFFFFFFFF
      let m := m.setReg (R.RUG_LAST n g) (BitVec.ofNat 32 x)
      let m := if x < (m.reg (R.RUG_MINV n g)).toNat then m.setReg (R.RUG_MINV n g) (BitVec.ofNat 32 x) else m
      if (m.reg (R.RUG_MAXV n g)).toNat < x then m.setReg (R.RUG_MAXV n g) (BitVec.ofNat 32 x) else m
  if m.fld (R.RUG_CNTCTL_SEL n g) == 1 && m.countsIn n g p then m.countGauge n g else m

/-- Change a timed gauge's state. -/
def Engine.setTimed (m : Engine) (n g : Nat) (x : TimedGauge) : Engine :=
  let i := m.intake n
  m.setIntake n { i with timed := i.timed.set g x }

/-- A timed gauge's state. -/
def Engine.timed (m : Engine) (n g : Nat) : TimedGauge := nth (m.intake n).timed g {}

/-- The physical cycle of a decision tick that waits for its command, from its TB. -/
def Engine.dueCycle (m : Engine) (t : Tb) : Nat := m.cc - (m.cycle - cycleOf t)

/-- WIDTH_LONG_HIT (R100): the oldest long hit that waits is counted and recorded. -/
def Engine.longHit (m : Engine) (n g : Nat) : Engine :=
  let x := m.timed n g
  match x.longDue with
  | [] => m
  | t :: ts => (m.setTimed n g { x with longDue := ts }).decisionHit n g (m.dueCycle t) t

/-- TIMEOUT_EXPIRY (R103): the oldest expiry that waits is counted and recorded. -/
def Engine.expiry (m : Engine) (n g : Nat) : Engine :=
  let x := m.timed n g
  match x.expiryDue with
  | [] => m
  | t :: ts => (m.setTimed n g { x with expiryDue := ts }).decisionHit n g (m.dueCycle t) t

/-- Every long hit and expiry of a gauge that still waits is settled before a later decision of the gauge. -/
def Engine.settleDue (m : Engine) (n g : Nat) : Engine :=
  let x := m.timed n g
  let m := x.longDue.foldl (fun m _ => m.longHit n g) m
  x.expiryDue.foldl (fun m _ => m.expiry n g) m

/-- Is a gauge's LEVEL output true (R104): past its long hit or expiry, with OUT as it stands? -/
def TimedCfg.out (c : TimedCfg) (g : TimedGauge) : Bool := c.levelOut && g.level

/-- One tick of timed gauge g in the sample cycle captured in cycle p: its state, its decision and its hit bit. -/
def Engine.timedTick (m : Engine) (n b g p : Nat) (t : Tb) (l : LineView) (flagged : Bool) : Engine × Bool :=
  let c := m.timedCfg n b g
  let o := c.tick (m.timed n g) l flagged
  let m := if o.hit || o.counted then m.settleDue n g else m
  let due := o.hit && o.due
  let x := { o.g with
    longDue := if due && c.type == 0 then (m.timed n g).longDue ++ [t] else (m.timed n g).longDue
    expiryDue := if due && c.type == 2 then (m.timed n g).expiryDue ++ [t] else (m.timed n g).expiryDue }
  let m := m.setTimed n g x
  let m := if o.hit && !o.due then m.decisionHit n g p t else m
  let m := if o.counted then m.completed n g p o.measured else m
  (m, o.hit || c.out o.g)

/-- The reach LUT (R111): the reach code for a context and eight hit bits, in the bank of the cycle's table set. -/
def Engine.reachCode (m : Engine) (n b ctx : Nat) (hits : BitVec 8) : Nat :=
  let i := ctx * 256 + hits.toNat
  bitsOf (m.reg (R.RUG_LUT n b (i / 8))).toNat (4 * (i % 8)) 4

/-! One judged cycle. -/

/-- A gauge's hits in a cycle: the hit bit and the first-hit tick (R89). -/
def firstHit (hits : List Bool) : Option Nat := (List.range 16).find? (fun k => nth hits k false)

/-- A line's or clock input's code as a gauge sees it (R88). -/
def pickCode (cl ch : Lines) (ck : BitVec 2) (x : Nat) : Nat := if x < 48 then codeOf cl ch x else if ck.getLsbD (x - 48) then 3 else 0

/-- A state sample for a match gauge at the edge at tick k (R96): its codes and whether it is flagged for the gauge. -/
def Engine.stateSample (m : Engine) (n k ck : Nat) (c : MatchCfg) (js : List Judged) : Lines × Lines × Bool :=
  let soff := fun x => m.fld (R.RU_LINE_SOFF n x)
  (mkLines (fun x => lineBit (tickBack js k (soff x)).cl x), mkLines (fun x => lineBit (tickBack js k (soff x)).ch x),
   (tickBack js k 0).ckFlag.getLsbD ck || (List.range 48).any (fun x => c.tests x && lineBit (tickBack js k (soff x)).flag x))

/-- The gauges of one reach judge the sample cycle captured in cycle p, whose tick 0 has TB t0 (R88): the newest filtered one, or in lockstep the one the
alignment delay of `lag` cycles brings (R147). What edges compare with at a first state sample, across a change of SRC, and after a stop of the clocks, and the view v of a
state sample, are the model's. DESIGN CHOICE: notes/assumptions/138.md, notes/assumptions/139.md. -/
def Engine.gaugeCycle (m : Engine) (n p lag : Nat) (t0 : Tb) : Engine × GaugeOut :=
  let set := m.setAt p
  let b := set.toNat
  let js := (m.intake n).judged.drop lag
  let j := nth js 0 {}
  let mcs := (List.range 4).map (fun g => m.matchCfg n b g)
  -- a change of table set, and arming with ARMCUT, abandon (R107, R108)
  let m := forEach 4 (fun g m =>
    let c := m.timedCfg n b g
    let changed := 0 < p && m.setAt (p - 1) != set && !c.sameMeasure (m.timedCfg n (1 - b) g)
    let cut := c.armCut && (match m.armSpan with | some (a, _) => a == p | none => false)
    if changed || cut then m.setTimed n g (m.timed n g).abandon else m) m
  let inv := (List.range 4).filter (fun g => decide (50 ≤ m.fld (R.RUG_TG_TCTL_LINE n b g)))
  let invBits := inv.foldl (fun a g => a + 2 ^ g) 0
  let m := if (List.range 4).any (fun g => bitAt invBits g && !bitAt (m.fld (R.RUG_STATUS_CFG_INV n)) g) then m.status (R.E_RUG_CFG n) else m
  let m := (m.setFld (R.RUG_STATUS_CFG_INV n) invBits).setFlag (R.RUG_STATUS_SET n) set
  let ckSel := match edgeSel (m.fld (R.RU_STATECFG_EDGE n)) with | some (c, _) => c | none => 0
  let step := fun (acc : Engine × List (List Bool)) k =>
    let (m, hits) := acc
    let i := m.intake n
    let f := nth j.ticks k {}
    -- the code each line shows: its own at its last unflagged tick while it is flagged (R95, R106)
    let el := (f.cl &&& ~~~f.flag) ||| (i.effL &&& f.flag)
    let eh := (f.ch &&& ~~~f.flag) ||| (i.effH &&& f.flag)
    let eck := (f.ck &&& ~~~f.ckFlag) ||| (i.effCk &&& f.ckFlag)
    let v := (el &&& eh) ||| (i.v &&& (el ^^^ eh))
    let view := fun x => if x < 48 then (⟨codeOf el eh x, codeOf i.effL i.effH x, lineBit v x, lineBit i.v x⟩ : LineView)
      else ⟨pickCode el eh eck x, pickCode i.effL i.effH i.effCk x, eck.getLsbD (x - 48), i.effCk.getLsbD (x - 48)⟩
    let edge := j.edges.any (fun e => e.1 == k)
    let mh := (List.range 4).map (fun g =>
      let c : MatchCfg := nth mcs g (m.matchCfg n b g)
      if c.state then
        let (sl, sh, fl) := m.stateSample n k ckSel c js
        let pl := nth i.sampL g 0; let ph := nth i.sampH g 0; let pv := nth i.sampV g 0
        let sv := (sl &&& sh) ||| (pv &&& (sl ^^^ sh))
        edge && !fl && c.hits (fun x => ⟨codeOf sl sh x, codeOf pl ph x, lineBit sv x, lineBit pv x⟩)
      else c.hits view && !(List.range 48).any (fun x => c.tests x && lineBit f.flag x))
    -- the last unflagged sample of each state-sourced gauge (R96)
    let samp := (List.range 4).map (fun g =>
      let c : MatchCfg := nth mcs g (m.matchCfg n b g)
      let old := (nth i.sampL g 0, nth i.sampH g 0, nth i.sampV g 0)
      if edge && c.state then
        let (sl, sh, fl) := m.stateSample n k ckSel c js
        if fl then old else (sl, sh, (sl &&& sh) ||| (old.2.2 &&& (sl ^^^ sh)))
      else old)
    let (m, th) := (List.range 4).foldl (fun (a : Engine × List Bool) g =>
      let x := a.1.fld (R.RUG_TG_TCTL_LINE n b g)
      let fl := if x < 48 then lineBit f.flag x else f.ckFlag.getLsbD (x - 48)
      let (m, h) := a.1.timedTick n b g p (t0 + BitVec.ofNat 64 k) (view x) fl
      (m, a.2 ++ [h])) (m, [])
    let i := m.intake n
    let m := m.setIntake n { i with effL := el, effH := eh, effCk := eck, v := v
                                    sampL := samp.map (·.1), sampH := samp.map (·.2.1), sampV := samp.map (·.2.2) }
    (m, hits ++ [mh ++ th])
  let (m, hits) := (List.range 16).foldl step (m, [])
  let first := (List.range 8).map (fun g => firstHit (hits.map (fun h => nth h g false)))
  let bits := (List.range 8).foldl (fun a g => a + (if (nth first g none).isSome then 2 ^ g else 0)) 0
  let seen := (m.reg (R.RUG_HITSEEN n)).toNat
  let m := if (List.range 8).any (fun g => bitAt bits g && !bitAt seen g) then (m.orReg (R.RUG_HITSEEN n) bits).status (R.E_RUG_HIT n) else m
  let bitsWhere := fun (p : Nat → Bool) => (List.range 4).foldl (fun a g => a + (if p g then 2 ^ g else 0)) 0
  let meas := bitsWhere (fun g => (m.timedCfg n b g).measuring (m.timed n g))
  let lev := bitsWhere (fun g => (m.timedCfg n b g).out (m.timed n g))
  let m := (m.setFld (R.RUG_STATUS_MEAS n) meas).setFld (R.RUG_STATUS_LEVEL n) lev
  let mask := m.fld (R.RUG_POSCTL_POSMASK n b)
  let pos := lowest ((List.range 8).filterMap (fun g => if bitAt mask g then nth first g none else none))
  (m, { hits := BitVec.ofNat 8 bits, pos := pos.getD 0, posValid := pos.isSome, codes := (List.range 16).map (fun ctx => m.reachCode n b ctx (BitVec.ofNat 8 bits)) })

/-! Register effects. -/

/-- A timed gauge's TCTL in the bank in force was written: a change of a measuring field abandons its measurement. The gauges of the next CCLK cycle judge the sample cycle six before this one, less the ring mode's lag (R9, R32, R108, R113). MARK: notes/assumptions/112.md. -/
def Engine.tctlWritten (m : Engine) (n b g : Nat) (old : Engine) : Engine :=
  if b = (m.setAt (m.cc - 6 - m.lag)).toNat ∧ !(m.timedCfg n b g).sameMeasure (old.timedCfg n b g) then m.setTimed n g (m.timed n g).abandon else m

/-- A CNT word was written (R110): the low word clears the high one, and STATUS.SAT of the gauge clears. -/
def Engine.cntWritten (m : Engine) (n g : Nat) (high : Bool) : Engine :=
  let m := if high then m else m.setReg (R.RUG_CNT_HI n g) 0
  m.clearBits (R.RUG_STATUS n) (2 ^ (16 + g))

end Sys2Proof.Machine
end

