-- ==== Sys2Proof/Machine/Confluence.lean ====
section
/-! DEFINITION. Confluence and sluice (R117 to R154): the table sets, the tree, X, the step, verification, snapshots. -/
namespace Sys2Proof.Machine

/-- Owner codes of a tank (R317). -/
def ownSluice : Nat := 2
def ownRota : Nat := 3

/-- Bytes of a tank (R315). -/
def tankSize : Nat := 0x40000

/-! Table sets (R124 to R128). -/

/-- The base tank of a set. -/
def Engine.setBaseTank (m : Engine) (b : Bool) : Nat := if b then m.fld R.CONF_TSET_BASE_B else m.fld R.CONF_TSET_BASE_A

/-- Can the tables read a tank: does it exist and is it SLUICE's (R119)? -/
def Engine.tankReadable (m : Engine) (k : Nat) : Bool := decide (k < 64) && m.fld (R.TANK_OWN_CUR k) == ownSluice

/-- The error that a word of the tanks holds, by its BAR4 offset over 8: it stays until the word is written (R315, R322). DESIGN CHOICE: notes/assumptions/126.md. -/
def Engine.wordError (m : Engine) (w : Nat) : Ecc := (mapFind m.tank.errs w).getD .good

/-- n bytes of the tanks, within one word, as the lookups read them (R119): 0 where the tank is not SLUICE's, a free value where an uncorrectable error stands (R145). -/
def Engine.tableRead (m : Engine) (t : Memory) (a n : Nat) : Nat :=
  if !m.tankReadable (a / tankSize) then 0
  else if m.wordError (a / 8) = .double then bitsOf (Config.tableWord m.freeCtr (a / 8)) (8 * (a % 8)) (8 * n)
  else readLE t a n

/-- The place of an offset of tank k of a set, and of the live tank (R124, R128). -/
def Engine.setAddr (m : Engine) (b : Bool) (k off : Nat) : Nat := (m.setBaseTank b + k) * tankSize + off
def Engine.liveAddr (m : Engine) (off : Nat) : Nat := m.fld R.CONF_TSET_LIVE * tankSize + off

/-- Where confluence table j holds the entry of an index (R125). -/
def Engine.confAddr (m : Engine) (b : Bool) (j idx : Nat) : Nat := m.setAddr b (j / 4) ((j % 4) * 0x10000 + idx)

/-- Where the sluice table holds the entry of an event class and a level (R126). -/
def Engine.sluAddr (m : Engine) (b : Bool) (e level : Nat) : Nat := m.setAddr b (6 + e / 64) (((e % 64) * 1024 + level) * 4)

/-- Where a level's attributes lie: two words (R127). -/
def Engine.attrAddr (m : Engine) (b : Bool) (level : Nat) : Nat := m.setAddr b 10 (16 * level)

/-- Where a gate action entry lies: in the set or, with GATE_LIVE, in the live tank (R136). -/
def Engine.gateAddr (m : Engine) (b : Bool) (i : Nat) : Nat :=
  if m.flag R.SLU_CTL_GATE_LIVE then m.liveAddr (0x100 + 8 * i) else m.setAddr b 10 (0x4040 + 8 * i)

/-- The entries read there. -/
def Engine.confEntry (m : Engine) (t : Memory) (b : Bool) (j idx : Nat) : Nat := m.tableRead t (m.confAddr b j idx) 1
def Engine.sluEntry (m : Engine) (t : Memory) (b : Bool) (e level : Nat) : Nat := m.tableRead t (m.sluAddr b e level) 4
def Engine.gateEntry (m : Engine) (t : Memory) (b : Bool) (i : Nat) : Nat := m.tableRead t (m.gateAddr b i) 8

/-- The attributes of a level, 128 bits (R127, R130). -/
def Engine.levelAttr (m : Engine) (t : Memory) (b : Bool) (level : Nat) : Nat :=
  let a := m.attrAddr b level
  m.tableRead t a 8 + m.tableRead t (a + 8) 8 * 2 ^ 64

/-! X (R120 to R123). -/

/-- A rota event bit for the sample cycle captured in cycle p (R123). -/
def Path.revAt (q : Path) (p bit : Nat) : Bool :=
  (q.revActs.foldl (fun (s : Bool × Bool) a =>
    if a.bit ≠ bit ∨ p < a.phys then s
    else
      let held := match a.op with | 1 => true | 2 => false | _ => s.1
      let now := if a.phys = p then (match a.op with | 0 => true | 1 => true | 2 => false | _ => s.2) else held
      (held, now)) (q.rev.getLsbD bit, q.rev.getLsbD bit)).2

/-- The value of an X source and its tick for the sample cycle captured in cycle p (R121, R122). Where no step judged the sample cycle eight before, CMPA, CMPB and
DWELL are 0 and TRIGD is the held one. DESIGN CHOICE: notes/assumptions/142.md. -/
def Engine.xSource (m : Engine) (p code : Nat) : Bool × Option Nat :=
  let q := m.path
  let lvx := q.lvx.find? (fun l => l.phys == p)
  if code < 0x10 then
    let t := nth (((q.glut.find? (fun g => g.1 == p)).map (·.2)).getD []) code none
    (t.isSome, t)
  else if code < 0x30 then
    let pos := (code - 0x10) / 4; let bit := (code - 0x10) % 4
    match q.fluX.filter (fun f => f.phys == p && f.pos == pos && bitAt f.bits bit) with
    | [] => (false, none)
    | f :: fs => (true, lowest ((f :: fs).map (·.tick)))
  else match code with
    | 0x30 => ((lvx.map (·.a)).getD false, none)
    | 0x31 => ((lvx.map (·.b)).getD false, none)
    | 0x32 => ((lvx.map (·.dwell)).getD false, none)
    | 0x33 => ((lvx.map (·.trigd)).getD false, none)
    | 0x3C | 0x3D =>
      let v := (q.vsync.find? (fun v => v.1 == p && v.2.1 == code - 0x3C)).map (·.2.2)
      (v.isSome, v)
    | 0x3E => (false, none)
    | 0x3F => (true, none)
    | _ => (q.revAt p (code - 0x34), none)

/-- The external byte X with its position tick (R120, R135). -/
def Engine.xByte (m : Engine) (t : Memory) (b : Bool) (p : Nat) : Nat × Option Nat :=
  let sel := m.tableRead t (m.setAddr b 10 0x4000) 8
  let mask := bitsOf (m.tableRead t (m.setAddr b 10 0x4008) 8) 0 8
  let slot := fun k =>
    let byte := bitsOf sel (8 * k) 8
    let inv := bitAt byte 6
    let (v, tick) := m.xSource p (byte % 64)
    (v != inv, if inv then none else tick)
  let x := (List.range 8).foldl (fun a k => a + (slot k).1.toNat * 2 ^ k) 0
  (x, lowest ((List.range 8).filterMap (fun k => if (slot k).1 && bitAt mask k then (slot k).2 else none)))

/-- The index at which table j is read, from the reach codes and the outputs of the stages before it (R117, R125). -/
def ConfOut.index (c : ConfOut) (codes : List Nat) (j : Nat) : Nat :=
  let code := fun n => nth codes n 0
  let pair := fun (l : List Nat) i => nth l (2 * i) 0 + 256 * nth l (2 * i + 1) 0
  if j < 12 then code (4 * j) + 16 * code (4 * j + 1) + 256 * code (4 * j + 2) + 4096 * code (4 * j + 3)
  else if j < 18 then pair c.c1 (j - 12)
  else if j < 21 then pair c.c2 (j - 18)
  else if j = 21 then pair c.c3 0
  else if j = 22 then nth c.c3 2 0 + 256 * c.x
  else c.c4a + 256 * c.c4b

/-- The tree for one sample cycle (R117). -/
def Engine.confluence (m : Engine) (t : Memory) (e : PipeEntry) : ConfOut :=
  let b := m.setAt e.phys
  let out := fun (c : ConfOut) j => m.confEntry t b j (c.index (e.codes.getD []) j)
  let (x, tick) := m.xByte t b e.phys
  let c : ConfOut := { x := x, xTick := tick.getD 0, xValid := tick.isSome }
  let c := { c with c1 := (List.range 12).map (out c) }
  let c := { c with c2 := (List.range 6).map (fun j => out c (12 + j)) }
  let c := { c with c3 := (List.range 3).map (fun j => out c (18 + j)) }
  let c := { c with c4a := out c 21, c4b := out c 22 }
  { c with e := out c 23 }

/-- The words that a sample cycle's way through the tree reads: 24 table entries, the X selector and XPOS (R117, R120). -/
def Engine.confWords (m : Engine) (e : PipeEntry) (c : ConfOut) : List Nat :=
  let b := m.setAt e.phys
  let x := m.setAddr b 10 0x4000 / 8
  (List.range 24).map (fun j => m.confAddr b j (c.index (e.codes.getD []) j) / 8) ++ [x, x + 1]

/-- The reach LUTs judge an entry in cycle n + 11 (R111), with the context of the step 14 sample cycles before (R81), and as they stood when the gauges judged (R113). -/
def Engine.lutStage (m : Engine) (e : PipeEntry) : PipeEntry :=
  let ctx := ((m.path.ctx.find? (fun c => decide (c.1 + 14 ≤ e.phys))).map (·.2)).getD (m.fld (R.RU_CONTEXT_CTX 0))
  { e with codes := some ((List.range 48).map (fun n => nth (nth e.outs n {}).codes ctx 0)) }

/-- Forget what no later sample cycle needs: rota event actions fold into the held values. -/
def Path.trim (q : Path) (p : Nat) : Path :=
  let old := q.revActs.filter (fun a => decide (a.phys < p))
  { q with
    rev := old.foldl (fun (r : BitVec 8) a => match a.op with | 1 => r ||| BitVec.ofNat 8 (2 ^ a.bit) | 2 => r &&& ~~~BitVec.ofNat 8 (2 ^ a.bit) | _ => r) q.rev
    revActs := q.revActs.filter (fun a => decide (p ≤ a.phys))
    glut := q.glut.take 140
    lvx := q.lvx.filter (fun l => decide (p ≤ l.phys + 1))
    fluX := q.fluX.filter (fun f => decide (p ≤ f.phys + 1))
    vsync := q.vsync.filter (fun v => decide (p ≤ v.1 + 1)) }

/-- In CCLK cycle cc the reach LUT judges the entry captured 11 cycles before, later by the lag. -/
def Engine.pipeStage (m : Engine) : Engine :=
  let lag := m.lag
  let q := m.path
  let pipe := q.pipe.map (fun e => if e.codes.isNone && decide (e.phys + 11 + lag ≤ m.cc) then m.lutStage e else e)
  { m with path := ({ q with pipe := pipe }).trim (m.cc - 24 - lag) }

/-! The step (R129 to R138). -/

/-- A level counter's operation (R132): the new value and whether it wrapped or saturated. -/
def ctrOp (sat : Bool) (c op : Nat) : Nat × Bool :=
  match op with
  | 1 => if c = 2 ^ 48 - 1 then (if sat then c else 0, true) else (c + 1, false)
  | 2 => if c = 0 then (if sat then 0 else 2 ^ 48 - 1, true) else (c - 1, false)
  | 3 => (0, false)
  | _ => (c, false)

/-- A compare (R132). -/
def ctrCmp (op c v : Nat) : Bool :=
  match op with | 1 => c == v | 2 => decide (v ≤ c) | 3 => decide (c < v) | _ => false

/-- The position of a step (R135): the tick and EXACT. -/
def position (src : Nat) (outs : List GaugeOut) (c : ConfOut) : Nat × Bool :=
  if src < 48 then
    let g := nth outs src {}
    if g.posValid then (g.pos, true) else (0, false)
  else if src = 48 ∧ c.xValid then (c.xTick, true)
  else (0, false)

/-- A cause of settling is detected (R420, R421). -/
def Engine.cause (m : Engine) (code data page : Nat) : Engine := { m with causes := m.causes ++ [⟨code, data, page⟩] }

/-- The jump of a sample cycle: the last level in rota order, every clear asked for (R143). -/
def Path.jumpAt (q : Path) (p : Nat) : Option Jump :=
  let js := q.jumps.filter (fun j => j.phys == p)
  match js.getLast? with
  | none => none
  | some j => some { j with clrA := js.any (·.clrA), clrB := js.any (·.clrB) }

/-- An IRQ entry joins the 16-entry queue in the cycle after the step's (R148), or is dropped (R137). -/
def Engine.irq (m : Engine) (t : Tb) (data : Nat) : Engine :=
  let m := m.status R.E_SLU_IRQ
  if m.path.irqQueue.length < 16 then { m with path := { m.path with irqQueue := m.path.irqQueue ++ [(m.cc + 1, t, data)] } }
  else (m.addSat R.SLU_IRQDROP 1).status R.E_SLU_IRQDROP

/-- SLU_IRQ (R137): the oldest queued entry passes into the event log, at most one per PCLK cycle. -/
def Engine.irqPass (m : Engine) : Engine :=
  match m.path.irqQueue with
  | [] => m
  | (since, t, d) :: l => if m.path.irqAt = some m.pclk ∨ m.cc < since then m else ({ m with path := { m.path with irqQueue := l, irqAt := some m.pclk } }).log 0xA1 0 0x0002 d t

/-- A gate action table entry's order (R136) for the step of the entry at hand: its edge lies 52 CCLK after the sample cycle, later by the lag, at tick p (R15, R32). -/
def gateOrderOf (entry : Nat) (t0 : Tb) (lag p : Nat) : GateOrder :=
  { tick := t0 + BitVec.ofNat 64 (16 * (52 + lag) + p), lines := BitVec.ofNat 48 entry, op := bitsOf entry 48 2
    width := (max 1 (bitsOf entry 54 10)) * 2 ^ bitsOf entry 50 4 }

/-- The level is left or kept: the shared end of a step and of a jump while disarmed. -/
def Engine.setLevel (m : Engine) (level dwell : Nat) : Engine :=
  (m.setFld R.SLU_STATUS_LEVEL level).setReg64 R.SLU_DWELLNOW_LO (BitVec.ofNat 64 dwell)

/-- What a step asks of other units: ring bits with their tick, and a dam by GATEACT (R254, R431); and the words it read beside its entry. -/
structure StepOut where
  m : Engine
  flu : Nat := 0
  tick : Nat := 0
  gateAct : Nat := 0
  reads : List Nat := []

/-- The reach context of the level in force goes to every reach (R81). -/
def Engine.broadcast (m : Engine) (ctx : Nat) : Engine := forEach 48 (fun n m => m.setFld (R.RU_CONTEXT_CTX n) ctx) m

/-- A step that is not taken, of a cycle not stored while armed (R131): TRIGD is held, and a jump still sets the held level with its context, the counters and the dwell
timer (R143). -/
def Engine.idleStep (m : Engine) (t : Memory) (e : PipeEntry) : Engine :=
  let q := m.path
  let m := { m with path := { q with lvx := q.lvx ++ [({ phys := e.phys + 8, a := false, b := false, dwell := false, trigd := q.trigd } : Lvx)] } }
  match m.path.jumpAt e.phys with
  | none => m
  | some j =>
    let m := if j.clrA then m.setReg64 R.SLU_CTRA_LO 0 else m
    let m := if j.clrB then m.setReg64 R.SLU_CTRB_LO 0 else m
    let ctx := bitsOf (m.levelAttr t (m.setAt e.phys) j.level) 48 4
    let m := { m with path := { m.path with ctx := ((e.phys, ctx) :: m.path.ctx).take 20 } }
    ((m.setLevel j.level 0).broadcast ctx).status R.E_SLU_JUMP

/-- The step that judges a sample cycle (R132, R138). -/
def Engine.sluiceStep (m : Engine) (t : Memory) (e : PipeEntry) : StepOut :=
  let s := m.setAt e.phys
  let sChanged := m.setAt (e.phys - 1) != s
  let c := e.conf.getD {}
  let l := m.fld R.SLU_STATUS_LEVEL
  let ent := m.sluEntry t s c.e l
  let (a, aLim) := ctrOp (m.flag R.SLU_CTL_CTRA_SAT) ((m.reg64 R.SLU_CTRA_LO).toNat) (bitsOf ent 17 2)
  let (b, bLim) := ctrOp (m.flag R.SLU_CTL_CTRB_SAT) ((m.reg64 R.SLU_CTRB_LO).toNat) (bitsOf ent 19 2)
  let m := if aLim then m.status R.E_SLU_CTRA_LIM else m
  let m := if bLim then m.status R.E_SLU_CTRB_LIM else m
  let src := bitsOf ent 11 6
  let (p, exact) := position src e.outs c
  let tbp := e.tb + BitVec.ofNat 64 p
  let trig := bitAt ent 10
  let gateact := bitsOf ent 21 5
  let flu := bitsOf ent 26 4
  let seg := bitAt ent 30
  let m := if trig then
      let m := (m.addSat R.SLU_TRIGCNT 1).status R.E_SLU_TRIG
      let m := m.setReg R.SLU_LASTTRIG (BitVec.ofNat 32 (l + src * 2 ^ 10 + c.e * 2 ^ 16 + exact.toNat * 2 ^ 24))
      m.setReg64 R.SLU_LASTTRIG_TB_LO tbp
    else m
  let m := if gateact = 0 then m else { m with gateOrders := m.gateOrders ++ [gateOrderOf (m.gateEntry t s gateact) e.tb m.lag p] }
  let m := if bitAt ent 31 then m.irq tbp (l + c.e * 2 ^ 16 + trig.toNat * 2 ^ 24) else m
  let m := m.orReg (R.SLU_ESEEN (c.e / 32)) (2 ^ (c.e % 32))
  let m := m.orReg (R.SLU_LVLSEEN (l / 32)) (2 ^ (l % 32))
  let trigd := if seg then false else m.path.trigd || trig
  let j := m.path.jumpAt e.phys
  let nxt := match j with | some x => x.level | none => bitsOf ent 0 10
  let changed := j.isSome || bitsOf ent 0 10 != l || sChanged
  let a := if (j.map (·.clrA)).getD false then 0 else a
  let b := if (j.map (·.clrB)).getD false then 0 else b
  let m := if j.isSome then m.status R.E_SLU_JUMP else m
  let m := (m.setReg64 R.SLU_CTRA_LO (BitVec.ofNat 64 a)).setReg64 R.SLU_CTRB_LO (BitVec.ofNat 64 b)
  let dwell := if changed then 0 else min ((m.reg64 R.SLU_DWELLNOW_LO).toNat + 1) (2 ^ 48 - 1)
  let m := m.setLevel nxt dwell
  let at_ := m.levelAttr t s nxt
  let old := m.levelAttr t s l
  let cmpv := fun sel => bitsOf (m.tableRead t (m.liveAddr (8 * sel)) 8) 0 48
  let x : Lvx := { phys := e.phys + 8
                   a := ctrCmp (bitsOf at_ 56 2) a (cmpv (bitsOf at_ 52 4))
                   b := ctrCmp (bitsOf at_ 62 2) b (cmpv (bitsOf at_ 58 4))
                   dwell := bitsOf at_ 64 32 != 0 && decide (bitsOf at_ 64 32 * 2 ^ bitsOf at_ 96 4 ≤ dwell)
                   trigd := trigd }
  let flushed := m.path.lvx.map (fun y => if changed && decide (y.phys ≤ e.phys + 7) && decide (e.phys < y.phys) then { y with a := false, b := false, dwell := false } else y)
  let m := m.broadcast (bitsOf at_ 48 4)
  let pairOf := fun (a : Nat) => [a / 8, a / 8 + 1]
  let reads := pairOf (m.attrAddr s l) ++ pairOf (m.attrAddr s nxt) ++ [m.liveAddr (8 * bitsOf at_ 52 4) / 8, m.liveAddr (8 * bitsOf at_ 58 4) / 8] ++
    (if gateact = 0 then [] else [m.gateAddr s gateact / 8])
  let dec : Decision := { storeEn := BitVec.ofNat 48 old, trig := if trig then some (p, exact) else none, boundary := seg, trigData := l + c.e * 2 ^ 16 + src * 2 ^ 24 }
  let q := m.path
  { m := { m with path := { q with
      trigd := trigd, lvx := flushed ++ [x], ctx := ((e.phys, bitsOf at_ 48 4) :: q.ctx).take 20
      pipe := q.pipe.map (fun f => if f.phys == e.phys then { f with dec := some dec } else f) } }
    flu := flu, tick := p, gateAct := gateact, reads := reads }

/-- The oldest sample cycle whose step is due: 24 CCLK after it, later by the lag (R9, R32). -/
def Engine.stepDue (m : Engine) : Option PipeEntry :=
  m.path.pipe.find? (fun e => !e.stepped && e.codes.isSome && decide (e.phys + 24 + m.lag ≤ m.cc))

/-- Are steps taken for the sample cycle captured in cycle p: stored while armed, and not barred by R142? -/
def Engine.stepsFor (m : Engine) (p : Nat) : Bool := m.armedAt p && (match m.path.stepBar with | none => true | some b => decide (p < b))

/-- Mark a sample cycle as past its step; its jumps are spent. -/
def Engine.markStepped (m : Engine) (p : Nat) : Engine :=
  { m with path := { m.path with
      pipe := m.path.pipe.map (fun f => if f.phys == p then { f with stepped := true } else f)
      jumps := m.path.jumps.filter (fun j => decide (p < j.phys)) } }

/-! Arming's part (R139), and the changes of set (R141 to R143). -/

/-- The set in force changes for the sample cycles from p on (R141, R150). -/
def Engine.changeTables (m : Engine) (p : Nat) (s : Bool) : Engine :=
  let old := ((m.tableChanges.getLast?).map (·.2)).getD m.tableSet
  let m := { m with tableChanges := m.tableChanges.filter (fun (c : Nat × Bool) => decide (c.1 < p)) ++ [(p, s)] }
  let m := m.setFlag R.CONF_STATUS_INFORCE s
  if old = s then m else m.status R.E_CONF_SWAP

/-- The sources of R122 are flushed for every sample cycle on its way (R139). -/
def Engine.flushLvx (m : Engine) : Engine :=
  { m with path := { m.path with lvx := m.path.lvx.map (fun y => { y with a := false, b := false, dwell := false }) } }

/-- The sluice's state when arming takes effect for the sample cycle captured in cycle p (R139, R81). -/
def Engine.sluiceArm (m : Engine) (t : Memory) (p : Nat) : Engine :=
  let s := m.flag R.CONF_SETSEL_SET
  let m := m.changeTables p s
  let level := if m.flag R.SLU_START_KEEP then m.fld R.SLU_STATUS_LEVEL else m.fld R.SLU_START_LEVEL
  let m := if m.flag R.SLU_START_CTRCLR then (m.setReg64 R.SLU_CTRA_LO 0).setReg64 R.SLU_CTRB_LO 0 else m
  let m := (m.setLevel level 0).flushLvx
  let ctx := bitsOf (m.levelAttr t s level) 48 4
  let m := m.broadcast ctx
  { m with path := { m.path with trigd := false, ctx := [(0, ctx)], stepBar := none } }

/-- Is a set verified? -/
def Engine.verified (m : Engine) (s : Bool) : Bool := m.flag (if s then R.CONF_STATUS_VER_B else R.CONF_STATUS_VER_A)

/-- SETSEL was written while disarmed (R141): the set changes at the next CCLK boundary, or at the one after where a TABLE_SWAP takes effect at the next. -/
def Engine.setselWritten (m : Engine) : Engine :=
  let p := if m.path.swapAt = some (m.cc + 1) then m.cc + 2 else m.cc + 1
  let m := m.changeTables p (m.flag R.CONF_SETSEL_SET)
  { m with path := { m.path with selAt := some p } }

/-- TABLE_SWAP for the first sample cycle p it meets (R141, R142): while armed an unverified target bars every step from p on, and the cause is
recorded 31 CCLK later, later by the lag. A SETSEL write of the same cycle takes effect one CCLK later. DEDUCED: notes/assumptions/84.md. -/
def Engine.tableSwap (m : Engine) (p : Nat) (s : Bool) (arg : Nat) : Engine :=
  if m.armedAt p && !m.verified s then
    let bar := match m.path.stepBar with | none => p | some b => min b p
    { m with path := { m.path with stepBar := some bar, dueCauses := m.path.dueCauses ++ [(p + 31 + m.lag, 3, m.fld R.CONF_STATUS_FAILTANK + 16 * s.toNat)] } }
  else
    let sel := m.path.selAt == some p && !m.armedAt p
    let m := m.changeTables p s
    let m := if sel then m.changeTables (p + 1) (m.flag R.CONF_SETSEL_SET) else m
    let m := { m with path := { m.path with swapAt := some p, selAt := if sel then some (p + 1) else m.path.selAt } }
    if bitAt arg 31 then { m with path := { m.path with jumps := m.path.jumps ++ [⟨p, bitsOf arg 16 10, false, false⟩] } } else m

/-- SLUICE_JUMP for the sample cycle p (R143). -/
def Engine.sluiceJump (m : Engine) (p arg : Nat) : Engine :=
  { m with path := { m.path with jumps := m.path.jumps ++ [⟨p, bitsOf arg 0 10, bitAt arg 16, bitAt arg 17⟩] } }

/-- EVENT for the sample cycle p (R123). -/
def Engine.rotaEvent (m : Engine) (p bit op : Nat) : Engine :=
  if op = 3 then m else { m with path := { m.path with revActs := m.path.revActs ++ [⟨p, bit, op⟩] } }

/-! ECC (R322). -/

/-- What the code found when a word of a tank was read: single errors are corrected and counted, uncorrectable ones counted, recorded and logged. -/
def Engine.tankEcc (m : Engine) (ecc : Ecc) (tank word : Nat) : Engine :=
  match ecc with
  | .good => m
  | .single => (m.addSat (R.TANK_CE tank) 1).status R.E_TANK_CE
  | .double =>
    let m := (m.addSat (R.TANK_UE tank) 1).setReg R.TANK_LASTUE (BitVec.ofNat 32 (word + tank * 2 ^ 16))
    (m.status R.E_TANK_UE).logNow 0xC0 2 0x0205 (word + tank * 2 ^ 16)

/-- A word's error becomes another. -/
def Engine.setWordError (m : Engine) (w : Nat) (e : Ecc) : Engine := { m with tank := { m.tank with errs := mapSet .good m.tank.errs w e } }

/-- A word is read (R322): what it holds by now is the worse of its standing error and what the read met; a corrected word is written back. Answers what the reader gets. -/
def Engine.wordRead (m : Engine) (w : Nat) (met : Ecc) : Engine × Ecc :=
  let e := match m.wordError w, met with
    | .double, _ | _, .double => Ecc.double
    | .single, _ | _, .single => Ecc.single
    | _, _ => Ecc.good
  let m := m.tankEcc e (w / 32768) (w % 32768)
  ((if e = .single then m.setWordError w .good else if e = .double then m.setWordError w .double else m), e)

/-- Words read one after the other on port A, with the errors that stand in them; answers whether one was uncorrectable. -/
def Engine.wordsRead (m : Engine) (ws : List Nat) : Engine × Bool :=
  if m.tank.errs.isEmpty then (m, false)
  else ws.foldl (fun (s : Engine × Bool) w => let (m, e) := s.1.wordRead w .good; (m, s.2 || e == .double)) (m, false)

/-- Every word of a tank is read (R322): a pass over it. -/
def Engine.tankPass (m : Engine) (n : Nat) : Engine × Bool := m.wordsRead ((m.tank.errs.map (·.1)).filter (fun w => w / 32768 == n))

/-! Verification (R144, R145). -/

/-- One byte of a CRC-32 (R144). -/
def crcByte (c : BitVec 32) (b : Byte) : BitVec 32 :=
  (List.range 8).foldl (fun (c : BitVec 32) _ => if c.getLsbD 0 then (c >>> 1) ^^^ 0xEDB88320#32 else c >>> 1) (c ^^^ b.setWidth 32)

/-- The CRC-32 of a list of bytes: IEEE 802.3, reflected, initial and final XOR all ones (R144). -/
def crc32 (bs : List Byte) : BitVec 32 := bs.foldl crcByte 0xFFFFFFFF#32 ^^^ 0xFFFFFFFF#32

/-- The CRC-32 of n bytes of a memory, from an address up. -/
def crcRegion (t : Memory) (a n : Nat) : BitVec 32 :=
  ((List.range n).foldl (fun c i => crcByte c (readByte t (a + i))) 0xFFFFFFFF#32) ^^^ 0xFFFFFFFF#32

/-- The first tank index k of a set that is not SLUICE's or does not match its CRC register (R144). -/
def Engine.badTableTank (m : Engine) (t : Memory) (s : Bool) : Option Nat :=
  (List.range 11).find? (fun k =>
    let tank := m.setBaseTank s + k
    let want := m.reg (if s then R.CONF_SETCRC_B k else R.CONF_SETCRC_A k)
    !m.tankReadable tank || crcRegion t (tank * tankSize) (if k = 10 then 0x4140 else tankSize) != want)

/-- A pass over a set (R144, R322): its tanks' words are read, and a mismatch is named; an uncorrectable word in a table region is one. -/
def Engine.setPass (m : Engine) (t : Memory) (s : Bool) : Engine × Option Nat :=
  let base := m.setBaseTank s
  let inRegion := fun k w => decide (w / 32768 = base + k) && (decide (k < 10) || decide (w % 32768 < 0x828))
  let worse := (List.range 11).find? (fun k => m.tankReadable (base + k) && m.tank.errs.any (fun x => inRegion k x.1 && x.2 == .double))
  let words := (m.tank.errs.map (·.1)).filter (fun w => m.tankReadable (w / 32768) && (List.range 11).any (fun k => inRegion k w))
  let bad := lowest ((m.badTableTank t s).toList ++ worse.toList)
  ((m.wordsRead words).1, bad)

/-- Clear a set's VER bit. -/
def Engine.clearVer (m : Engine) (s : Bool) : Engine := m.setFlag (if s then R.CONF_STATUS_VER_B else R.CONF_STATUS_VER_A) false

/-- A verification is asked for (R144): it starts, restarts, or waits behind the other set's. -/
def Engine.verify (m : Engine) (s : Bool) : Engine :=
  match m.path.verifying with
  | some r => if r = s then m else { m with path := { m.path with verifyWaits := some s } }
  | none => ((({ m with path := { m.path with verifying := some s } }).setFlag R.CONF_STATUS_BUSY true).setFlag R.CONF_VERIFY_GO true)

/-- A pass over a set's eleven table regions meets a mismatch in tank k (R144, R145). -/
def Engine.crcFail (m : Engine) (s : Bool) (k : Nat) : Engine :=
  ((m.setFlag (if s then R.CONF_STATUS_FAIL_B else R.CONF_STATUS_FAIL_A) true).setFld R.CONF_STATUS_FAILTANK k).status R.E_CONF_CRC_FAIL

/-- VERIFY_DONE (R144): the running verification ends, and one that waits starts. -/
def Engine.verifyDone (m : Engine) (t : Memory) : Engine :=
  match m.path.verifying with
  | none => m
  | some s =>
    let (m, bad) := m.setPass t s
    let m := match bad with
      | none => (m.setFlag (if s then R.CONF_STATUS_VER_B else R.CONF_STATUS_VER_A) true).setFlag (if s then R.CONF_STATUS_FAIL_B else R.CONF_STATUS_FAIL_A) false
      | some k => (m.clearVer s).crcFail s k
    let m := ((m.status R.E_CONF_VERIFY_DONE).setFlag R.CONF_STATUS_BUSY false).setFlag R.CONF_VERIFY_GO false
    let w := m.path.verifyWaits
    let m := { m with path := { m.path with verifying := none, verifyWaits := none } }
    match w with
    | none => m
    | some s => m.verify s

/-- CRC_BACKGROUND_PASS (R145, R150), while armed: a mismatch in the set in force is cause TABLE_CRC; one in the other set, if verified, clears its VER. Either is shown. -/
def Engine.crcBackground (m : Engine) (t : Memory) : Engine :=
  if !m.flag R.SYS_STATUS_ARMED then m
  else
    let s := m.setAt m.cc
    let (m, bad) := m.setPass t s
    let m := match bad with
      | none => m
      | some k => (m.crcFail s k).cause 3 (k + 16 * s.toNat) 0xA0
    if !m.verified (!s) then m
    else
      let (m, bad) := m.setPass t (!s)
      match bad with
      | none => m
      | some k => (m.clearVer (!s)).crcFail (!s) k

/-! Snapshots (R151). -/

/-- SNAPSHOT_GO (R151): the target, or LATE at once when the named cycle has passed C1. DEDUCED: notes/assumptions/86.md. -/
def Engine.snapGo (m : Engine) : Engine :=
  let back := 14 + m.lag
  let named := cycleOf (m.reg64 R.CONF_SNAP_TB_LO)
  let m := (m.setFlag R.CONF_SNAPCTL_DONE false).setFlag R.CONF_SNAPCTL_LATE false
  if !m.flag R.CONF_SNAPCTL_MODE then { m.setFlag R.CONF_SNAPCTL_GO true with path := { m.path with snapPhys := some (m.cc - back) } }
  else if decide (named < cycleOf (nth m.path.tbHist back (tbOfCycle (m.cycle - back)))) then
    ((m.setFlag R.CONF_SNAPCTL_GO false).setFlag R.CONF_SNAPCTL_LATE true).status R.E_CONF_SNAP_DONE
  else { m.setFlag R.CONF_SNAPCTL_GO true with path := { m.path with snapPhys := none, snapTarget := named } }

/-- Bytes j of a register from a list of table outputs. -/
def packBytes (l : List Nat) (from_ : Nat) : Word := BitVec.ofNat 32 ((List.range 4).foldl (fun a j => a + nth l (from_ + j) 0 * 256 ^ j) 0)

/-- Is an entry of the decision path the one that the snapshot takes: past the tree, and the first from the cycle of MODE 0 on, or the one named? -/
def Path.snapMatch (q : Path) (e : PipeEntry) : Bool :=
  e.conf.isSome && (match q.snapPhys with | some p => decide (p ≤ e.phys) | none => cycleOf e.tb == q.snapTarget)

/-- SNAPSHOT_TAKEN (R151): the target's values, once it has passed the confluence. -/
def Engine.snapTake (m : Engine) : Engine :=
  if !m.flag R.CONF_SNAPCTL_GO then m
  else match m.path.pipe.find? m.path.snapMatch with
    | none => m
    | some e =>
      let c := e.conf.getD {}
      let codes := e.codes.getD []
      let m := forEach 6 (fun k m => m.setReg (R.CONF_SNAPRC k) (BitVec.ofNat 32 ((List.range 8).foldl (fun a j => a + nth codes (8 * k + j) 0 * 16 ^ j) 0))) m
      let m := forEach 3 (fun k m => m.setReg (R.CONF_SNAPC1 k) (packBytes c.c1 (4 * k))) m
      let m := forEach 2 (fun k m => m.setReg (R.CONF_SNAPC2 k) (packBytes c.c2 (4 * k))) m
      let m := m.setReg R.CONF_SNAPC3 (packBytes c.c3 0)
      let m := m.setReg R.CONF_SNAPC45 (packBytes [c.c4a, c.c4b, c.x, c.e] 0)
      let m := m.setReg R.CONF_SNAPPOS (BitVec.ofNat 32 (c.xTick + 16 * c.xValid.toNat))
      ((m.setFlag R.CONF_SNAPCTL_GO false).setFlag R.CONF_SNAPCTL_DONE true).status R.E_CONF_SNAP_DONE

end Sys2Proof.Machine
end

