-- ==== Sys2Proof/Machine/Tanks.lean ====
section
/-! DEFINITION. Tanks (R315 to R333): owners and handovers, accesses and their ECC, retention, the transparent test. -/
namespace Sys2Proof.Machine

/-- The owner in force of a tank. -/
def Engine.owner (m : Engine) (n : Nat) : Nat := m.fld (R.TANK_OWN_CUR n)

/-- A tank's retention group (R324). -/
def groupOf (n : Nat) : Nat := n / 8

/-- Is a group in retention? -/
def Engine.retained (m : Engine) (g : Nat) : Bool := bitAt (m.fld R.TANK_RETSTAT_RET) g

/-- Is a tank under test or acting as a spare, of a test or of a remap (R319, R324)? -/
def Engine.isSpare (m : Engine) (n : Nat) : Bool :=
  (m.flag R.TBIST_STATUS_BUSY && m.tank.testSpare == n) || (m.flag R.TBIST_REMAP_VALID && m.fld R.TBIST_REMAP_SPARE == n)
def Engine.underTest (m : Engine) (n : Nat) : Bool := m.flag R.TBIST_STATUS_BUSY && m.tank.testTank == n

/-- May a group be in retention (R324)? -/
def Engine.mayRetain (m : Engine) (g : Nat) : Bool :=
  (List.range 8).all (fun j => let n := 8 * g + j; decide (m.owner n ≤ 1) && !m.underTest n && !m.isSpare n)

/-- A group wakes (R324, R325): WAKING stands for at most 12 µs, 7,200 CCLK; how long is open. DESIGN CHOICE: notes/assumptions/89.md. -/
def Engine.wake (m : Engine) (g : Nat) : Engine :=
  if m.retained g then
    let (k, m) := m.draw
    let m := m.setFld R.TANK_RETSTAT_RET (m.fld R.TANK_RETSTAT_RET &&& (255 - 2 ^ g))
    let m := m.setFld R.TANK_RETSTAT_WAKING (m.fld R.TANK_RETSTAT_WAKING ||| 2 ^ g)
    { m with tank := { m.tank with waking := m.tank.waking ++ [(g, m.cc + Config.wakeTime k % 7201)] } }
  else m

/-- Wakes that have ended (R325). -/
def Engine.wakesDone (m : Engine) : Engine :=
  let (ended, rest) := m.tank.waking.partition (fun w => decide (w.2 ≤ m.cc))
  if ended.isEmpty then m
  else
    let m := { m with tank := { m.tank with waking := rest } }
    ended.foldl (fun (m : Engine) w => m.setFld R.TANK_RETSTAT_WAKING (m.fld R.TANK_RETSTAT_WAKING &&& (255 - 2 ^ w.1))) m

/-- An access touches a group: it wakes, and its idle time starts again (R325). -/
def Engine.touchGroup (m : Engine) (g : Nat) : Engine :=
  let wokeBefore := m.tank.woken.any (fun w => w.1 == g)
  if m.retained g || wokeBefore then
    let m := m.wake g
    { m with tank := { m.tank with woken := (m.tank.woken.filter (fun w => w.1 != g)) ++ [(g, m.cc)] } }
  else m

/-- RETENTION_ENTER (R324, R325): a requested group that may be in retention enters it, a woken one after RETIDLE µs (600 CCLK each) without an access. -/
def Engine.retentionEnter (m : Engine) (g : Nat) : Engine :=
  let idle := match m.tank.woken.find? (fun w => w.1 == g) with
    | none => true
    | some w => decide (w.2 + 600 * max 1 (m.fld R.TANK_RETIDLE_US) ≤ m.cc)
  if bitAt (m.fld R.TANK_RETREQ_REQ) g && !m.retained g && !m.tank.waking.any (fun w => w.1 == g) && m.mayRetain g && idle then
    let m := m.setFld R.TANK_RETSTAT_RET (m.fld R.TANK_RETSTAT_RET ||| 2 ^ g)
    { m with tank := { m.tank with woken := m.tank.woken.filter (fun w => w.1 != g) } }
  else m

/-- RETREQ was written (R324): a group whose bit is clear wakes. -/
def Engine.retreqWritten (m : Engine) : Engine :=
  forEach 8 (fun g m => if bitAt (m.fld R.TANK_RETREQ_REQ) g then m
    else { m.wake g with tank := { m.tank with woken := m.tank.woken.filter (fun w => w.1 != g) } }) m

/-! Writes. -/

/-- The spare that mirrors a tank now: of the test under way once copied, or of a remap (R327, R328). -/
def Engine.mirrorOf (m : Engine) (n : Nat) : Option Nat :=
  if m.underTest n && m.tank.mirror then some m.tank.testSpare
  else if m.flag R.TBIST_REMAP_VALID && m.fld R.TBIST_REMAP_TANK == n then some (m.fld R.TBIST_REMAP_SPARE)
  else none

/-- Store a byte of the tanks at a BAR4 offset, in the mirroring spare too. -/
def Chip.tankByte (c : Chip) (off : Nat) (b : Byte) : Chip :=
  let n := off / tankSize
  let t := writeByte c.tanks off b
  { c with tanks := match c.eng.mirrorOf n with | none => t | some sp => writeByte t (sp * tankSize + off % tankSize) b }

/-- Store bytes under their enables, in ascending address order (R323). -/
def Chip.tankBytes (c : Chip) (off : Nat) : List (Option Byte) → Chip
  | [] => c
  | b :: bs => (match b with | none => c | some b => c.tankByte off b).tankBytes (off + 1) bs

/-- A copy of a tank holds its uncorrectable words as such, and no other errors. -/
def Engine.copyErrors (m : Engine) (src dst : Nat) : Engine :=
  let kept := m.tank.errs.filter (fun x => x.1 / 32768 != dst)
  (m.tank.errs.filter (fun x => x.1 / 32768 == src && x.2 == .double)).foldl (fun (m : Engine) x => m.setWordError (32768 * dst + x.1 % 32768) .double) { m with tank := { m.tank with errs := kept } }

/-- Copy one tank's bytes over another's. -/
def copyTank (t : Memory) (src dst : Nat) : Memory :=
  let cleared := zeroRange t (dst * tankSize) ((dst + 1) * tankSize)
  (t.filter (fun p => p.1 / tankSize == src)).foldl (fun t p => writeByte t (dst * tankSize + p.1 % tankSize) p.2) cleared

/-! Accesses from the host link and the management port (R317). -/

/-- May the host side read, or write, a tank (R317)? -/
def Engine.hostMay (m : Engine) (n : Nat) (write : Bool) : Bool :=
  match m.owner n with
  | 1 => true
  | 5 => !write
  | 6 => false
  | _ => decide (n < 4)

/-- A refused access: HOSTVIOL and LASTVIOL (R317). -/
def Engine.tankRefuse (m : Engine) (n : Nat) (mgmt write : Bool) : Engine :=
  (m.setReg R.TANK_LASTVIOL (BitVec.ofNat 32 (n + mgmt.toNat * 2 ^ 6 + write.toNat * 2 ^ 7 + m.owner n * 2 ^ 8))).status R.E_TANK_HOSTVIOL

/-- The first tank of an access that refuses it; an access over two tanks is refused whole if either part is (R317). -/
def Engine.tankRefusal (m : Engine) (off len : Nat) (write : Bool) : Option Nat :=
  let first := off / tankSize; let last := (off + max len 1 - 1) / tankSize
  if !m.hostMay first write then some first else if !m.hostMay last write then some last else none

/-- The words that an access of so many bytes covers. -/
def wordsOf (off len : Nat) : List Nat := (List.range ((off + len + 7) / 8 - off / 8)).map (fun k => off / 8 + k)

/-- The bytes of an access, under their enables, that lie in a word: its eight places. -/
def wordPart (off : Nat) (bytes : List (Option Byte)) (w : Nat) : List (Option Byte) :=
  (List.range 8).map (fun i => if 8 * w + i < off then none else nth bytes (8 * w + i - off) none)

/-- A word is written on port B (R321, R322): dropped where port A writes something else to it in the same cycle (a dual-port tank), or where it is written in part and its
read-modify-write finds it uncorrectable. -/
def Chip.wordWrite (c : Chip) (w : Nat) (part : List (Option Byte)) (met : Ecc) (collides : Bool) : Chip :=
  let m := c.eng
  let n := w / 32768
  if part.all (·.isNone) then c
  else if collides && decide (n < 4) then
    let (k, m) := m.draw
    let m := (m.addSat (R.TANK_COLL n) 1).status R.E_TANK_COLL
    { c with eng := m.logNow 0xC0 0 (Config.openCode k % 65536) (w % 32768 + n * 2 ^ 16) }
  else if part.all (·.isSome) then ({ c with eng := m.setWordError w .good }).tankBytes (8 * w) part
  else
    let (m, e) := m.wordRead w met
    if e = .double then { c with eng := m } else ({ c with eng := m }).tankBytes (8 * w) part

/-- The groups that an access touches wake (R325). -/
def Engine.touchSpan (m : Engine) (off len : Nat) : Engine := (m.touchGroup (groupOf (off / tankSize))).touchGroup (groupOf ((off + max len 1 - 1) / tankSize))

/-- A read of the host link or the management port that its owner allows (R317, R322, R325): the bytes, and the words read that are uncorrectable. `found` has for each word, in ascending
order, what its read met and whether port A writes something else to it in the same cycle; good and no where it lists none. -/
def Chip.tankRead (c : Chip) (off len : Nat) (found : List (Ecc × Bool)) : Chip × List Byte × List Nat :=
  let m := c.eng.touchSpan off len
  let ws := wordsOf off len
  let (m, bad) := (List.range ws.length).foldl (fun (s : Engine × List Nat) k =>
    let w := off / 8 + k
    let (m, e) := s.1.wordRead w (nth found k (.good, false)).1
    (m, if e = .double then s.2 ++ [w] else s.2)) (m, [])
  ({ c with eng := m }, (List.range len).map (fun i => readByte c.tanks (off + i)), bad)

/-- A write of the host link or the management port that its owner allows, word by word in ascending address order (R321 to R323, R325). -/
def Chip.tankWrite (c : Chip) (off : Nat) (bytes : List (Option Byte)) (found : List (Ecc × Bool)) : Chip :=
  let c := { c with eng := c.eng.touchSpan off bytes.length }
  (List.range (wordsOf off bytes.length).length).foldl (fun (c : Chip) k =>
    let x := nth found k (.good, false)
    c.wordWrite (off / 8 + k) (wordPart off bytes (off / 8 + k)) x.1 x.2) c

/-! Handovers (R318 to R320). -/

/-- Why a handover request is refused (R319); 0 where it is not. -/
def Engine.handoverReason (m : Engine) (n req : Nat) : Nat :=
  if m.owner n == ownSluice && m.flag R.SYS_STATUS_ARMED then 1
  else if req == ownRota && decide (4 ≤ n) then 2
  else if decide (6 ≤ req) then 3
  else if m.isSpare n then 4
  else 0

/-- A request is judged (R318, R319): nothing, a refusal, or a handover in progress. -/
def Engine.judgeHandover (m : Engine) (n req : Nat) : Engine :=
  if m.owner n = req then m.setFlag (R.TANK_OWN_PEND n) false
  else
    let r := m.handoverReason n req
    if r ≠ 0 then
      let m := ((m.setFlag (R.TANK_OWN_REFUSED n) true).setFld (R.TANK_OWN_REASON n) r).setFlag (R.TANK_OWN_PEND n) false
      (m.status R.E_TANK_REFUSED).logNow 0xC0 2 0x0217 (n + r * 2 ^ 8 + req * 2 ^ 12)
    else
      let m := ((m.setFlag (R.TANK_OWN_REFUSED n) false).setFld (R.TANK_OWN_REASON n) 0).setFlag (R.TANK_OWN_PEND n) true
      { m with tank := { m.tank with handing := m.tank.handing ++ [(n, req)] } }

/-- OWN[n] was written (R318, R320): judged at once, or queued behind a handover of the tank in progress, replacing what was queued. On a locked page nothing is requested. -/
def Engine.ownWritten (m : Engine) (n : Nat) : Engine :=
  let req := m.fld (R.TANK_OWN_REQ n)
  if bitAt (m.reg (lockAddr 0xC0)).toNat 0 then m
  else if m.tank.handing.any (fun h => h.1 == n) then
    (({ m with tank := { m.tank with queued := m.tank.queued.filter (fun (q : Nat × Nat) => q.1 != n) ++ [(n, req)] } }).setFlag (R.TANK_OWN_PEND n) true)
  else m.judgeHandover n req

/-- Does a set contain a tank? -/
def Engine.setHas (m : Engine) (s : Bool) (n : Nat) : Bool := let b := m.setBaseTank s; decide (b ≤ n) && decide (n < b + 11)

/-- Is every tank of a set SLUICE's? -/
def Engine.setOwned (m : Engine) (s : Bool) : Bool := (List.range 11).all (fun k => m.tankReadable (m.setBaseTank s + k))

/-- What a completed handover of a tank means for a set (R144): its VER clears, and a set whose ownership it completes is verified. -/
def Engine.handoverSet (m : Engine) (s : Bool) (n : Nat) : Engine :=
  if m.setHas s n then
    let m := m.clearVer s
    if m.setOwned s then m.verify s else m
  else m

/-- TANK_HANDOVER (R318): the tank passes to its new owner; a request queued behind it is judged (R320). One of T00 to T03 under test waits (R327). An owner that uses port A wakes
the tank's group, and has used it until it gives the tank up (R325). -/
def Engine.handoverDone (m : Engine) (n : Nat) : Engine :=
  match m.tank.handing.find? (fun h => h.1 == n) with
  | none => m
  | some h =>
    if m.underTest n && decide (n < 4) then m
    else
      let m := { m with tank := { m.tank with handing := m.tank.handing.filter (fun (x : Nat × Nat) => x.1 != n) } }
      let old := m.owner n
      let m := (m.setFld (R.TANK_OWN_CUR n) h.2).setFlag (R.TANK_OWN_PEND n) false
      let m := if decide (2 ≤ h.2) || decide (2 ≤ old) then m.touchGroup (groupOf n) else m
      let m := (m.handoverSet false n).handoverSet true n
      let m := m.status R.E_TANK_HANDOVER
      match m.tank.queued.find? (fun q => q.1 == n) with
      | none => m
      | some q => ({ m with tank := { m.tank with queued := m.tank.queued.filter (fun (x : Nat × Nat) => x.1 != n) } }).judgeHandover n q.2

/-! The transparent test (R326 to R328). -/

/-- Why a test start is refused (R326); 0 where it is not. -/
def Engine.tbistReason (m : Engine) : Nat :=
  let t := m.fld R.TBIST_CTL_TANK; let sp := m.fld R.TBIST_CTL_SPARE
  if m.flag R.TBIST_STATUS_BUSY then 1
  else if m.owner sp != 0 || m.retained (groupOf sp) || m.flag R.TBIST_REMAP_VALID then 2
  else if t == sp || decide (sp < 4) then 3
  else if decide (t < 4) && decide (2 ≤ m.owner t) then 4
  else if m.retained (groupOf t) then 5
  else 0

/-- TBIST_GO (R326, R327). -/
def Engine.tbistGo (m : Engine) : Engine :=
  let r := m.tbistReason
  if r ≠ 0 then
    (((m.setFlag R.TBIST_CTL_GO (m.flag R.TBIST_STATUS_BUSY)).setFlag R.TBIST_STATUS_REFUSED true).setFld R.TBIST_STATUS_REASON r).status R.E_TBIST_REFUSED
  else
    let t := m.fld R.TBIST_CTL_TANK; let sp := m.fld R.TBIST_CTL_SPARE
    let m := { m with tank := { m.tank with testTank := t, testSpare := sp, mirror := false } }
    let m := (m.setFld (R.TANK_OWN_CUR sp) 6).setFlag R.TBIST_CTL_GO true
    let m := ((m.setFlag R.TBIST_STATUS_REFUSED false).setFld R.TBIST_STATUS_REASON 0).setFlag R.TBIST_STATUS_BUSY true
    (m.setFld R.TBIST_STATUS_PHASE 1).setFld R.TBIST_STATUS_TESTING t

/-- The test ends, passed or failed. -/
def Engine.tbistEnd (m : Engine) : Engine :=
  let m := ((m.setFlag R.TBIST_STATUS_BUSY false).setFld R.TBIST_STATUS_PHASE 0).setFlag R.TBIST_CTL_GO false
  (m.addWrap R.TBIST_TESTCNT 1).status R.E_TBIST_DONE

/-- A tank fails its test (R328, R329): the result, its bit, the mismatching words and the last of them, and the class U entry. -/
def Engine.tankFails (m : Engine) (t : Nat) (bad : List (Nat × Nat)) : Engine :=
  let m := (m.setFlag R.TBIST_STATUS_RESULT true).orReg (if t < 32 then R.TBIST_FAILMAP_LO else R.TBIST_FAILMAP_HI) (2 ^ (t % 32))
  let m := m.addSat R.TBIST_FAULTCNT bad.length
  let m := match bad.getLast? with
    | none => m
    | some (w, b) => m.setReg R.TBIST_LASTFAULT (BitVec.ofNat 32 (w + t * 2 ^ 16 + b * 2 ^ 22))
  (m.status R.E_TBIST_FAIL).logNow 0xC1 2 0x0206 t

/-- A tank's accesses go to a spare until power-on reset (R328). -/
def Engine.remap (m : Engine) (t sp : Nat) : Engine := m.setReg R.TBIST_REMAP (BitVec.ofNat 32 (t + sp * 2 ^ 8 + 2 ^ 14))

/-- TBIST_PHASE_DONE (R327, R328): COPY, TEST or RESTORE ends; `bad` lists the words and lowest bits TEST found wrong. -/
def Chip.tbistPhase (c : Chip) (bad : List (Nat × Nat)) : Chip :=
  let m := c.eng
  let t := m.tank.testTank; let sp := m.tank.testSpare
  if !m.flag R.TBIST_STATUS_BUSY then c
  else match m.fld R.TBIST_STATUS_PHASE with
    | 1 => { c with eng := (({ m with tank := { m.tank with mirror := true } }).copyErrors t sp).setFld R.TBIST_STATUS_PHASE 2, tanks := copyTank c.tanks t sp }
    | 2 =>
      if bad.isEmpty then { c with eng := (m.setFld R.TBIST_STATUS_PHASE 3).setFlag R.TBIST_STATUS_RESULT false }
      else { c with eng := ((m.tankFails t bad).remap t sp).tbistEnd }
    | _ => { c with eng := (({ m with tank := { m.tank with mirror := false } }).setFld (R.TANK_OWN_CUR sp) 0).tbistEnd }

end Sys2Proof.Machine
end

