-- ==== Sys2Proof/Machine/Gate.lean ====
section
/-! DEFINITION. Gate lines (R187 to R194): modes and safe levels, inputs with their settle filter, the gate LUT, and commands applied tick by tick. -/
namespace Sys2Proof.Machine

/-- Change the gate unit. -/
def Engine.setGate (m : Engine) (g : GateState) : Engine := { m with gate := g }

/-- Is a line an output: in OUTPUT or BOTH mode (R188)? -/
def Engine.gateOutput (m : Engine) (i : Nat) : Bool := let d := m.fld (R.GATE_LINE_MODE i); d == 1 || d == 2

/-- Is a line held at its safe level (R194)? -/
def Engine.gateHeld (m : Engine) (i : Nat) : Bool := !lineBit m.gate.written i || m.flag R.SAFE_STATUS_SETTLED || m.gate.damHold

/-- A line's safe level (R193). -/
def Engine.safeLevel (m : Engine) (i : Nat) : Nat := bitsOf (m.reg (R.SAFE_LEVEL (i / 16))).toNat (2 * (i % 16)) 2

/-- The commanded levels as OUT shows them: 0 for lines in INPUT mode (R200). -/
def Engine.gateOut (m : Engine) : Lines := mkLines (fun i => m.gateOutput i && lineBit m.gate.level i)

/-- What the module drives on a line whose commanded level is `lv`; none while it is high-impedance (R188, R193). -/
def Engine.gateDrive (m : Engine) (i : Nat) (lv : Bool) : Option Bool :=
  if m.gateHeld i then (match m.safeLevel i with | 2 => some false | 3 => some true | _ => none)
  else if m.gateOutput i && !(m.flag (R.GATE_LINE_ODRAIN i) && lv) then some lv else none

/-- The level at a line's pin, from its own drive and the target's: undriven it follows its weak pull; undriven without a pull (R193), and against a
disagreeing driver, the level is open. -/
def Engine.gatePin (m : Engine) (i : Nat) (own ext : Option Bool) (free : Nat) : Bool :=
  match own, ext with
  | some a, some b => if a = b then a else Config.gateLevel (free * 64 + i)
  | some a, none => a
  | none, some b => b
  | none, none => match m.safeLevel i with | 0 => false | 1 => true | _ => Config.gateLevel (free * 64 + i)

/-! Commands (R191, R192). -/

/-- The level of the commanded lines at a tick, from the level at the cycle's start and the changes within it. -/
def GateState.levelAt (g : GateState) (t : Tb) : Lines := g.edges.foldl (fun l e => if tbLe e.1 t then e.2 else l) g.base

/-- The commanded levels change at a tick. -/
def Engine.gateLevels (m : Engine) (u : Tb) (l : Lines) : Engine :=
  if l = m.gate.level then m else m.setGate { m.gate with level := l, edges := m.gate.edges ++ [(u, l)] }

/-- Lines of the commands met at a tick: those of the sluice, and those already counted as meetings. -/
def GateState.metAt (g : GateState) (u : Tb) : Lines × Lines := if g.met.1 = u then g.met.2 else (0, 0)

/-- One command on one line: 1 SET, 2 CLEAR, 3 PULSE of a width; a line that is no output ignores it (R191, R192). DEDUCED: notes/assumptions/75.md. -/
def Engine.gateCommand (m : Engine) (u : Tb) (i op width : Nat) : Engine :=
  if !m.gateOutput i then m
  else
    let bit : Lines := BitVec.ofNat 48 (2 ^ i)
    let rest := m.gate.pulses.filter (fun (p : Nat × Tb) => p.1 != i)
    match op with
    | 1 => (m.setGate { m.gate with pulses := rest }).gateLevels u (m.gate.level ||| bit)
    | 2 => (m.setGate { m.gate with pulses := rest }).gateLevels u (m.gate.level &&& ~~~bit)
    | 3 => (m.setGate { m.gate with pulses := rest ++ [(i, u + BitVec.ofNat 64 (max 1 width))] }).gateLevels u (m.gate.level ||| bit)
    | _ => m

/-- First at a tick: the pulses that end (R192). -/
def Engine.gatePulseEnds (m : Engine) (u : Tb) : Engine :=
  let ending := m.gate.pulses.filter (fun p => p.2 == u)
  let bits : Lines := ending.foldl (fun b p => b ||| BitVec.ofNat 48 (2 ^ p.1)) 0
  (m.setGate { m.gate with pulses := m.gate.pulses.filter (fun p => p.2 != u) }).gateLevels u (m.gate.level &&& ~~~bits)

/-- Second: the sluice's commands, in the order of their steps (R192). -/
def Engine.gateSluice (m : Engine) (u : Tb) : Engine :=
  let here := m.gateOrders.filter (fun o => o.tick == u)
  let m := { m with gateOrders := m.gateOrders.filter (fun o => o.tick != u) }
  here.foldl (fun m o =>
    if o.op = 0 then m
    else
      let lines := mkLines (fun i => lineBit o.lines i && m.gateOutput i)
      let (s, c) := m.gate.metAt u
      let m := m.setGate { m.gate with met := (u, s ||| lines, c) }
      forEach 48 (fun i m => if lineBit lines i then m.gateCommand u i o.op o.width else m) m) m

/-- Is an action one of the gate queue? -/
def RotaAct.isGate (a : RotaAct) : Bool := decide (4 ≤ a.code) && decide (a.code ≤ 6)

/-- Third: one rota command. While the engine is settled it is dropped and counted (R185); a meeting with the sluice on a line is counted once a tick (R192). -/
def Engine.gateRotaAct (m : Engine) (a : RotaAct) : Engine :=
  if m.flag R.SAFE_STATUS_SETTLED then (m.addSat R.GATE_DROPPED 1).status R.E_GATE_DROPPED
  else if !m.gateOutput a.target then m
  else
    let (s, c) := m.gate.metAt a.eff
    let meets := lineBit s a.target && !lineBit c a.target
    let m := if meets then
        ((m.setGate { m.gate with met := (a.eff, s, c ||| BitVec.ofNat 48 (2 ^ a.target)) }).addSat R.GATE_CONFLICT 1).status R.E_GATE_CONFLICT
      else m
    m.gateCommand a.eff a.target (a.code - 3) a.arg

/-- The rota's gate actions, oldest instant first. -/
def Engine.gateQueue (m : Engine) : List RotaAct := m.rota.queue.filter (·.isGate)

/-- The first gate action of the rota leaves its queue and is applied. -/
def Engine.gateRotaHead (m : Engine) : Engine :=
  match m.gateQueue with
  | [] => m
  | a :: _ => ({ m with rota := { m.rota with queue := m.rota.queue.erase a } }).gateRotaAct a

/-- The earlier of two instants, counted round the wrap of TB. -/
def minTb : Option Tb → Tb → Option Tb
  | none, t => some t
  | some s, t => some (if tbLe s t then s else t)

/-- The next instant at which the gate unit has something to apply. -/
def Engine.gateNext (m : Engine) : Option Tb :=
  ((m.gate.pulses.map (·.2)) ++ (m.gateOrders.map (·.tick)) ++ (m.gateQueue.map (·.eff))).foldl minTb none

/-- Is an instant within the coming cycle or before it? A load that takes effect first moves it (R185). -/
def Engine.gateReady (m : Engine) (u : Tb) : Bool := m.tbLoad.isNone && tbLe u (tbOfCycle m.nextCycle + 15)

/-- Everything of one tick: pulse ends, the sluice's commands, the rota's (R192). -/
def Engine.gateTick (m : Engine) (u : Tb) : Engine :=
  let m := (m.gatePulseEnds u).gateSluice u
  (m.gateQueue.filter (fun a => a.eff == u)).foldl (fun m _ => m.gateRotaHead) m

/-- GATE_COMMAND_TICK: the next instant, when it has come. -/
def Engine.gateCommandTick (m : Engine) : Engine :=
  match m.gateNext with
  | none => m
  | some u => if m.gateReady u then m.gateTick u else m

/-- Every instant before u, at most k of them, and every instant of the coming cycle when u is none. -/
def Engine.gateRun (u : Option Tb) : Nat → Engine → Engine
  | 0, m => m
  | k + 1, m =>
    match m.gateNext with
    | none => m
    | some v => if m.gateReady v && (match u with | none => true | some u => !tbLe u v) then Engine.gateRun u k (m.gateTick v) else m

/-- How many instants can be waiting. -/
def Engine.gateLoad (m : Engine) : Nat := 2 * (m.gateOrders.length + m.gateQueue.length) + m.gate.pulses.length + m.gateOrders.length * 48

/-- GATE_SET, GATE_CLR, GATE_PULSE: the rota's next gate action, when it is of that code and its instant has come. -/
def Engine.gateRotaCommand (m : Engine) (code : Nat) : Engine :=
  match m.gateQueue with
  | [] => m
  | a :: _ =>
    if a.code = code ∧ m.gateReady a.eff then (((Engine.gateRun (some a.eff) m.gateLoad m).gatePulseEnds a.eff).gateSluice a.eff).gateRotaHead else m

/-- GATE_PULSE_END: the pulses whose end comes next, when it has come. -/
def Engine.gatePulseEnd (m : Engine) : Engine :=
  match (m.gate.pulses.map (·.2)).foldl minTb none with
  | none => m
  | some u => if m.gateReady u then (Engine.gateRun (some u) m.gateLoad m).gatePulseEnds u else m

/-! Holds and releases (R194, R424). -/

/-- A level set at a cycle boundary for some lines, and their pulses cancelled. -/
def Engine.gateForce (m : Engine) (which value : Lines) : Engine :=
  let put := fun (l : Lines) => (l &&& ~~~which) ||| (value &&& which)
  m.setGate { m.gate with
    level := put m.gate.level, base := put m.gate.base, edges := m.gate.edges.map (fun e => (e.1, put e.2))
    pulses := m.gate.pulses.filter (fun (p : Nat × Tb) => !lineBit which p.1) }

/-- The INITV levels. -/
def Engine.gateInit (m : Engine) : Lines := mkLines (fun i => m.flag (R.GATE_LINE_INITV i))

/-- The engine settles: pending pulses and queued gate actions, the sluice's and the rota's, are cancelled (R194). -/
def Engine.gateCancel (m : Engine) : Engine :=
  { m with gateOrders := [], gate := { m.gate with pulses := [] }, rota := { m.rota with queue := m.rota.queue.filter (fun a => !a.isGate) } }

/-- A release: every line in OUTPUT or BOTH mode that was written drives its INITV (R194, R424). -/
def Engine.gateRelease (m : Engine) : Engine :=
  let m := m.setGate { m.gate with damHold := false }
  m.gateForce (mkLines (fun i => lineBit m.gate.written i && m.gateOutput i)) m.gateInit

/-- LINE[i] was written (R188, R194): its hold from reset ends; a line that enters OUTPUT or BOTH starts at INITV; one that leaves them ends its pulse. -/
def Engine.lineWritten (m : Engine) (i : Nat) (wasOutput : Bool) : Engine :=
  let bit : Lines := BitVec.ofNat 48 (2 ^ i)
  let m := m.setGate { m.gate with written := m.gate.written ||| bit }
  if m.gateOutput i then (if wasOutput then m else m.gateForce bit m.gateInit) else m.gateForce bit 0

/-- The voltage code of a bank. -/
def vselOf (w : Word) (b : Nat) : Nat := bitsOf w.toNat (2 * b) 2

/-- BANKCFG was written over `old` (R187): each bank is judged on its own. -/
def Engine.bankcfgWritten (m : Engine) (old : Word) : Engine :=
  let new := m.reg R.GATE_BANKCFG
  forEach 4 (fun b m =>
    let driven := (List.range 12).any (fun j => let i := 12 * b + j; m.gateOutput i || (m.gateHeld i && decide (2 ≤ m.safeLevel i)))
    let rej := m.fld R.GATE_STATUS_VSEL_REJ
    if vselOf new b ≠ vselOf old b ∧ driven then
      ((m.setReg R.GATE_BANKCFG (putBits (m.reg R.GATE_BANKCFG) (2 * b) 2 (vselOf old b))).setFld R.GATE_STATUS_VSEL_REJ (rej ||| 2 ^ b)).status R.E_GATE_VSEL_REJ
    else
      let m := m.setFld R.GATE_STATUS_VSEL_REJ (rej &&& (15 - 2 ^ b))
      if vselOf new b = vselOf old b then m
      else
        let (k, m) := m.draw
        m.setGate { m.gate with vselMove := m.gate.vselMove.filter (fun (v : Nat × Nat) => v.1 != b) ++ [(b, m.cc + min (Config.vselMove k) 120000)] }) m

/-- STATUS.VSEL_BUSY (R187): the banks whose voltage still moves. -/
def Engine.vselBusy (m : Engine) : Nat := m.gate.vselMove.foldl (fun a v => if m.cc < v.2 then a ||| 2 ^ v.1 else a) 0

/-- GATE.STATUS as a read shows it. -/
def Engine.gateStatus (m : Engine) : Word :=
  let w := putBits (m.reg R.GATE_STATUS) 4 4 m.vselBusy
  putBits w 9 1 ((List.range 48).any (fun i => m.gateHeld i)).toNat

/-! Inputs (R189, R190). -/

/-- The pin samples of the present cycle, tick 0 first; a line in OUTPUT mode reads 0. -/
def Engine.gateSample (m : Engine) (pins : Pins) (free : Nat) : List Lines :=
  (List.range 16).map (fun k =>
    let lv := m.gate.levelAt (m.tb + BitVec.ofNat 64 k)
    mkLines (fun i =>
      if m.fld (R.GATE_LINE_MODE i) = 1 then false
      else m.gatePin i (m.gateDrive i (lineBit lv i)) ((pins.gates.find? (fun g => g.line.val == i)).map (fun g => g.levels.getLsbD k)) (free * 16 + k)))

/-- The settle filter at the first tick of a run of samples (R62, R189); none where later ticks decide. -/
def gateSettle (f : Nat) (acc : Bool) (bits : List Bool) : Option Bool :=
  match bits with
  | [] => none
  | b :: _ =>
    if f ≤ 1 ∨ b = acc then some b
    else if (bits.take f).all (· == b) then (if f ≤ bits.length then some b else none) else some acc

/-- A line's filtered bits over a run of samples, from its accepted bit; none from a tick on that later ticks decide. -/
def gateFilter (f : Nat) (acc : Bool) : List Bool → List (Option Bool)
  | [] => []
  | b :: bs =>
    match gateSettle f acc (b :: bs) with
    | none => none :: bs.map (fun _ => none)
    | some v => some v :: gateFilter f v bs

/-- The samples of the cycles from the one not judged yet on, oldest first. -/
def Engine.gateAhead (m : Engine) (cycles : Nat) : List Lines := ((m.gate.hist.take cycles).reverse).foldl (· ++ ·) []

/-- A term of the gate LUT at a tick (R190), from the filtered bits now and before. -/
def gateTerm (cond : Nat) (prev now : Bool) : Bool :=
  match cond with | 0 => now | 1 => !prev && now | 2 => prev && !now | _ => prev != now

/-- The gate LUT's output k at a tick. -/
def Engine.glut (m : Engine) (k : Nat) (prev now : Lines) : Bool :=
  let sel := (m.reg (R.GATE_GLUT_SEL k)).toNat
  let term := fun j =>
    let i := bitsOf sel (8 * j) 6
    decide (i < 48) && gateTerm (bitsOf sel (8 * j + 6) 2) (lineBit prev i) (lineBit now i)
  bitAt (m.fld (R.GATE_GLUT_TT_TT k)) ((term 0).toNat + 2 * (term 1).toNat + 4 * (term 2).toNat + 8 * (term 3).toNat)

/-- The commands of the coming cycle still waiting are applied. -/
def Engine.gateApply (m : Engine) : Engine := Engine.gateRun none m.gateLoad m

/-- The gate inputs in one CCLK cycle: the pins are sampled, and the sample cycle captured seven cycles ago is
filtered and judged by the gate LUT (R10, R189, R190), each output by the first tick at which it is 1 (R121). -/
def Engine.gateCycle (m : Engine) (pins : Pins) (p : Nat) : Engine :=
  let (k, m) := m.draw
  let sample := m.gateSample pins k
  let m := m.setGate { m.gate with hist := (sample :: m.gate.hist).take 8, base := m.gate.level, edges := [] }
  if m.gate.hist.length < 8 then m
  else
    let ahead := m.gateAhead 8
    let lines := (List.range 48).map (fun i =>
      gateFilter (m.fld (R.GATE_LINE_F i)) (lineBit m.gate.acc i) ((ahead.take 31).map (fun l => lineBit l i)))
    let at_ := fun t => mkLines (fun i => (nth (nth lines i []) t none).getD false)
    let ticks := (List.range 16).map at_
    let outs := (List.range 16).map (fun k =>
      ((List.range 16).find? (fun t => m.glut k (if t = 0 then m.gate.acc else nth ticks (t - 1) 0) (nth ticks t 0))))
    { m.setGate { m.gate with acc := nth ticks 15 0 } with path := { m.path with glut := (p, outs) :: m.path.glut } }

/-- IN (R200): the filtered bit at tick 15 of the newest cycle; open where later ticks decide it. -/
def Engine.gateIn (m : Engine) : Lines :=
  let ahead := m.gateAhead 7
  mkLines (fun i =>
    let bits := gateFilter (m.fld (R.GATE_LINE_F i)) (lineBit m.gate.acc i) (ahead.map (fun l => lineBit l i))
    match bits.getLast? with
    | none => false
    | some none => Config.gateLevel (m.freeCtr * 64 + i)
    | some (some b) => b)

end Sys2Proof.Machine
end

