-- ==== Sys2Proof/Machine/Packs.lean ====
section
/-! DEFINITION. Packs and markers (R201 to R208): their bytes, the stream FIFO, lost spans, marker packs. -/
namespace Sys2Proof.Machine

/-- Change storage. -/
def Engine.setStore (m : Engine) (s : StoreState) : Engine := { m with store := s }

/-- An intake's storing side. -/
def Engine.sto (m : Engine) (n : Nat) : StoreIntake := nth m.store.intakes n {}

/-- Change an intake's storing side. -/
def Engine.setSto (m : Engine) (n : Nat) (x : StoreIntake) : Engine := m.setStore { m.store with intakes := m.store.intakes.set n x }

/-- The current segment (R233). -/
def Engine.curSeg (m : Engine) : Nat := m.fld R.STORE_STATUS_CURRENT

/-- Is the current segment open for storage: OPEN or TRIGGERED, and storage running (R222)? -/
def Engine.segOpen (m : Engine) : Bool := m.store.active && !m.flag R.STORE_STATUS_STOPPED

/-- A weir's steps in force (R225). -/
def Engine.weirSteps (m : Engine) (n : Nat) : Nat := bitsOf (m.reg (R.WEIR_STEPS (n / 8))).toNat (4 * (n % 8)) 4

/-- The TB of the sample cycle that comes to the store gate next. -/
def Engine.nextGateTb (m : Engine) : Tb := m.store.gatedTb + 16

/-! Bytes. -/

/-- Bytes of an item of a record type (R203). -/
def itemBytes (type : Nat) : Nat := match type with | 1 => 12 | 3 => 8 | 4 => 32 | _ => 6

/-- Items a pack holds (R203). -/
def packCapacity (type : Nat) : Nat := match type with | 1 => 20 | 3 => 30 | 4 => 7 | _ => 40

/-- The 256 bytes of a pack from its header without TB, its TB, its items, and its trailer without TBHI (R201, R202, R204). -/
def packImage (header : Nat) (tb : Tb) (type : Nat) (items : List Nat) (trailer : Nat) : List Byte :=
  let t := tb.toNat
  let payload := items.foldl (fun l x => l ++ bytesLE (itemBytes type) x) []
  let body := bytesLE 8 (header + (t % 2 ^ 44) * 2 ^ 20) ++ (payload ++ List.replicate (240 - payload.length) 0) ++ bytesLE 4 (trailer + (t / 2 ^ 44) * 2 ^ 12)
  body ++ bytesLE 4 (crc32 body).toNat

/-- The bytes of an intake's pack (R202, R204). -/
def OpenPack.image (p : OpenPack) (n close gen : Nat) : List Byte :=
  let header := p.type + n * 2 ^ 4 + p.rate * 2 ^ 10 + p.swap.toNat * 2 ^ 15 + p.clkSkip.toNat * 2 ^ 16 + p.weir.toNat * 2 ^ 17 +
    p.first.toNat * 2 ^ 18 + p.post.toNat * 2 ^ 19
  packImage header p.tb p.type p.items (p.items.length + close * 2 ^ 6 + gen * 2 ^ 9)

/-- A marker item as a 256-bit number (R206). -/
def Marker.word (k : Marker) : Nat :=
  k.tb.toNat + k.type * 2 ^ 64 + k.intake * 2 ^ 72 + k.exact.toNat * 2 ^ 80 + k.item * 2 ^ 88 + k.seq * 2 ^ 96 + (k.data % 2 ^ 64) * 2 ^ 128

/-- The bytes of a marker pack (R206, R208). -/
def markerImage (ks : List Marker) (close gen : Nat) : List Byte :=
  packImage (4 + 63 * 2 ^ 4) ((ks.head?.map (·.tb)).getD 0) 4 (ks.map (·.word)) (ks.length + close * 2 ^ 6 + gen * 2 ^ 9)

/-! Markers (R208). -/

/-- The generation of the current segment, modulo 8 (R211). -/
def Engine.segGen (m : Engine) : Nat := m.fld (R.SEG_STATUS_GEN m.curSeg)

/-- The collected markers are written as a marker pack, or dropped where the marker area has no room (R208). -/
def Engine.markerPack (m : Engine) (close : Nat) : Engine :=
  let s := m.curSeg
  if m.store.marks.isEmpty then m
  else if m.fld (R.SEG_MARK_MKPACKS s) ≤ m.fld (R.SEG_MARK_MKUSED s) then
    (((m.setStore { m.store with marks := [] }).setFlag (R.SEG_STATUS_MKFULL s) true).status (R.E_SEG_MKFULL s)).status R.E_STORE_MKDROP
  else
    let used := m.fld (R.SEG_MARK_MKUSED s)
    let p : Pack := ⟨m.fld (R.SEG_BASE_PACKS s) + used, markerImage m.store.marks close m.segGen⟩
    (m.setStore { m.store with marks := [], markPacks := m.store.markPacks ++ [(p, m.store.marks.length)] }).setFld (R.SEG_MARK_MKUSED s) (used + 1)

/-- Items held in the marker FIFO. -/
def StoreState.markFill (s : StoreState) : Nat := s.marks.length + s.markPacks.foldl (fun a p => a + p.2) 0

/-- A marker arrives (R208): collected, written out with six others, or dropped where the FIFO is full or the segment's area is. -/
def Engine.mark (m : Engine) (k : Marker) : Engine :=
  if m.flag (R.SEG_STATUS_MKFULL m.curSeg) then m.status R.E_STORE_MKDROP
  else if 256 ≤ m.store.markFill then (m.addSat R.STORE_MKDROP 1).status R.E_STORE_MKDROP
  else
    let m := m.setStore { m.store with marks := m.store.marks ++ [k], markSince := if m.store.marks.isEmpty then m.store.gated else m.store.markSince }
    if m.store.marks.length = 7 then m.markerPack 0 else m

/-- MARKER_PACK_FLUSH (R208): a part-filled marker pack is written 2^10 CCLK after its first item. -/
def Engine.markerFlush (m : Engine) : Engine :=
  if !m.store.marks.isEmpty && decide (m.store.markSince + 1024 ≤ m.store.gated + 1) then m.markerPack 6 else m

/-- The place of the marker point in an intake's stream (R206): the pack's SEQ and the index of its next item. -/
def StoreIntake.point (x : StoreIntake) : Nat × Nat := (x.seq, (x.pack.map (·.items.length)).getD 0)

/-- A marker of one intake. -/
def Engine.markIntake (m : Engine) (type n : Nat) (tb : Tb) (exact : Bool) (data : Nat) : Engine :=
  let (seq, item) := (m.sto n).point
  m.mark { type := type, intake := n, tb := tb, exact := exact, item := item, seq := seq % 2 ^ 32, data := data }

/-! The stream FIFO (R80, R229). -/

/-- The occupancy as the registers show it (R80). -/
def Engine.showFifo (m : Engine) (n : Nat) : Engine :=
  let k := (m.sto n).fifo.length
  let m := (m.setFld (R.RU_STATUS_FIFO n) k).setFlag (R.RU_STATUS_PACK_OPEN n) ((m.sto n).pack.isSome)
  if m.fld (R.RU_FIFO_PEAK_PEAK n) < k then m.setFld (R.RU_FIFO_PEAK_PEAK n) k else m

/-- GAP_END (R229): a lost span that has ended makes its GAP marker, its status bit and its class U entry. -/
def Engine.gapEnd (m : Engine) (n : Nat) : Engine :=
  let x := m.sto n
  match x.lost, x.lostEnd with
  | some (t0, k), some (t1, seq) =>
    let m := m.setSto n { x with lost := none, lostEnd := none }
    let m := m.mark { type := 3, intake := n, tb := t0, seq := seq % 2 ^ 32, data := t1.toNat }
    (m.status R.E_WEIR_GAP).logNow 0xA4 2 0x0202 (min k 0xFFFFFFFF)
  | _, _ => m

/-- The pack slot of a sequence number (R205); an intake without an allotment has none. -/
def Engine.packSlot (m : Engine) (n seq : Nat) : Nat := let a := nth m.store.allot n (0, 0); if a.2 = 0 then 0 else a.1 + seq % a.2

/-- An intake's open pack closes (R78, R204): it enters the stream FIFO and takes its SEQ, or is discarded at a full FIFO (R229). In PACKS mode the
POST-th post pack completes the intake (R217). -/
def Engine.packClose (m : Engine) (n close : Nat) : Engine :=
  let x := m.sto n
  match x.pack with
  | none => m
  | some p =>
    if 128 ≤ x.fifo.length then
      let m := if x.lostEnd.isSome then m.gapEnd n else m
      let x := m.sto n
      let lost := match x.lost with | none => (p.tb, 1) | some (t, k) => (t, k + 1)
      ((m.setSto n { x with pack := none, lost := some lost }).addSat (R.WEIR_GAPCNT n) 1).showFifo n
    else
      let s := m.curSeg
      let posts := if p.post then x.postCount + 1 else x.postCount
      let done := !m.flag (R.SEG_CFG_WINMODE s) && p.post && decide ((m.reg (R.SEG_POST s)).toNat ≤ posts)
      let m := m.setSto n { x with
        fifo := x.fifo ++ [⟨m.packSlot n x.seq, p.image n close m.segGen⟩], pack := none, seq := x.seq + 1
        spans := ((p.tb, p.last) :: x.spans).take (max 1 (nth m.store.allot n (0, 0)).2)
        postCount := posts, complete := x.complete || done
        lostEnd := if x.lost.isSome && x.lostEnd.isNone then some (p.tb, x.seq) else x.lostEnd }
      (m.setReg64 (R.RU_PACKS_LO n) (m.reg64 (R.RU_PACKS_LO n) + 1)).showFifo n

/-- PACK_FULL (R78): a pack at its capacity closes. The item that fills a pack brings it about at once (`Engine.putItem`). -/
def Engine.packFull (m : Engine) (n : Nat) : Engine :=
  match (m.sto n).pack with
  | none => m
  | some p => if packCapacity p.type ≤ p.items.length then m.packClose n 0 else m

/-- PACK_DISCARD (R229): a pack at its capacity closes while the stream FIFO holds 128 packs. -/
def Engine.packDiscard (m : Engine) (n : Nat) : Engine := if 128 ≤ (m.sto n).fifo.length then m.packFull n else m

/-- PACK_FLUSH (R79): an open pack closes 2^EXP CCLK after its first item. -/
def Engine.packFlush (m : Engine) (n : Nat) : Engine :=
  let k := m.fld (R.RU_FLUSH_EXP n)
  match (m.sto n).pack with
  | none => m
  | some p => if k ≠ 0 ∧ p.since + 2 ^ (max 10 k) ≤ m.store.gated + 1 then m.packClose n 6 else m

end Sys2Proof.Machine
end

