-- ==== Sys2Proof/Machine/Held.lean ====
section
/-! DEFINITION. Configuration registers taking their values, at once or at the next disarm (R53, R82, R144, R188, R230, R232, R234, R305). -/
namespace Sys2Proof.Machine

/-- TSET takes a value (R144): a set whose base changes loses its VER bit. -/
def Engine.tsetWritten (m : Engine) (old : Word) : Engine :=
  let a := bitsOf old.toNat 0 6; let b := bitsOf old.toNat 8 6
  let m := if m.fld R.CONF_TSET_BASE_A = a then m else m.clearVer false
  if m.fld R.CONF_TSET_BASE_B = b then m else m.clearVer true

/-- A SETCRC register takes a value (R144): the set loses its VER bit and is verified. -/
def Engine.setcrcWritten (m : Engine) (s : Bool) : Engine := (m.clearVer s).verify s

/-- A register of a given offset range on a page. -/
def offIn (a lo hi : Nat) : Bool := decide (lo ≤ a % 0x1000) && decide (a % 0x1000 < hi)

/-- A value for the RW fields of a register, the other bits as they are. -/
def mergeRw (a : Nat) (old v : Word) : Word :=
  match decodeReg (a % 0x100000) with
  | none => old
  | some h => let rw := BitVec.ofNat 32 h.row.rw; (v &&& rw) ||| (old &&& ~~~rw)

/-- A held register takes its value, with what that brings about in its unit; both copies are good again (R409). -/
def Engine.takeConfig (m : Engine) (a : Nat) (v : Word) : Engine :=
  let old := m.reg a
  let i := (a % 0x1000 - 0x100) / 4
  let wasOut := m.gateOutput i
  let m := { m.setReg a (mergeRw a old v) with badParity := m.badParity.filter (fun k => k != a) }
  match pageOf (a / 0x1000) with
  | some (.ruB, n) => if a = R.RU_STATECFG n then m.edgeInv n else m
  | some (.confB, _) =>
    if a = R.CONF_TSET then m.tsetWritten old
    else if offIn a 0x100 0x140 then m.setcrcWritten false
    else if offIn a 0x140 0x180 then m.setcrcWritten true else m
  | some (.gateB, _) => if offIn a 0x100 0x1C0 then m.lineWritten i wasOut else m
  | _ => m

/-- Is a register one whose writes are held while the engine is armed? SETCRC writes are held only for the set in force (R144). -/
def Engine.isHeld (m : Engine) (a : Nat) : Bool :=
  match pageOf (a / 0x1000) with
  | some (.intkB, n) => a == R.INTK_CTL n || a == R.INTK_CKTRIM n || (offIn a 0x100 0x400 && a % 16 == 0)
  | some (.ruB, n) => a == R.RU_STREAM n || a == R.RU_STATECFG n || a == R.RU_CKDELAY n || offIn a 0x100 0x1C0
  | some (.confB, _) => a == R.CONF_TSET || (if m.setAt m.cc then offIn a 0x140 0x180 else offIn a 0x100 0x140)
  | some (.gateB, _) => offIn a 0x100 0x280
  | some (.weirB, _) => offIn a 0x40 0x4C
  | some (.storeB, _) => a == R.STORE_TRAIN || a == R.STORE_PROFCTL || offIn a 0x80 0x260
  | some (.segB, _) => offIn a 0x40 0xF40 && decide ((a % 0x1000 - 0x40) % 0x3C < 0x18)
  | some (.cisB, _) => a == R.CIS_DISP_BASE || a == R.CIS_DISP_SIZE
  | _ => false

/-- The PEND bit that shows a held write to a register, where its page has one. -/
def pendField (a : Nat) : Option Field :=
  match pageOf (a / 0x1000) with
  | some (.intkB, n) => some (R.INTK_STATUS_PEND n)
  | some (.ruB, n) => some (R.RU_STATUS_PEND n)
  | some (.confB, _) => some R.CONF_STATUS_PEND
  | some (.gateB, _) => some R.GATE_STATUS_PEND
  | some (.weirB, _) => some R.WEIR_STATUS_PEND
  | some (.storeB, _) => some R.STORE_STATUS_PEND
  | some (.segB, _) => some R.STORE_STATUS_PEND
  | _ => none

/-- A write is held (R82): it waits behind the earlier ones, and a read returns it. -/
def Engine.hold (m : Engine) (a : Nat) (v : Word) : Engine :=
  let m := { m with held := m.held ++ [(a, v)] }
  match pendField a with | none => m | some f => m.setFlag f true

/-- Every write held, oldest first: those of R82, then those that came in the cycle of an arming request (R83). -/
def Engine.allHeld (m : Engine) : List (Nat × Word) := m.held ++ (m.arming.map (·.late)).getD []

/-- What a read of a register returns: the last write held for it, else its value (R82). -/
def Engine.heldReg (m : Engine) (a : Nat) : Word :=
  match m.allHeld.reverse.find? (fun p => p.1 == a) with
  | none => m.reg a
  | some p => mergeRw a (m.reg a) p.2

/-- Is the register one of a reach's whose writes are held (R82)? -/
def ruHeld (a : Nat) : Bool := (pageOf (a / 0x1000)).map (·.1) == some .ruB

/-- A write of a reach's configuration in the cycle at hand is remembered, for an arming request of the same cycle (R83). -/
def Engine.noteWrite (m : Engine) (a : Nat) (v : Word) (held : Bool) : Engine :=
  if ruHeld a then { m with store := { m.store with ruWrites := m.store.ruWrites.filter (fun w => w.cycle == m.cc) ++ [⟨m.cc, a, m.reg a, v, held⟩] } } else m

/-- Is there an arming request of the cycle at hand, so that the reaches' writes are held (R83)? -/
def Engine.asking (m : Engine) : Bool := match m.arming with | none => false | some r => r.since == m.cc

/-- A write that came in the cycle of an arming request is held with it (R83). -/
def Engine.holdLate (m : Engine) (a : Nat) (v : Word) : Engine :=
  let m := { m with arming := m.arming.map (fun r => { r with late := r.late ++ [(a, v)] }) }
  match pendField a with | none => m | some f => m.setFlag f true

/-- The reaches' writes of the cycle at hand, oldest first. -/
def Engine.cycleWrites (m : Engine) : List RuWrite := m.store.ruWrites.filter (fun w => w.cycle == m.cc)

/-- They are taken back, newest first (R83). -/
def Engine.takeBack (m : Engine) : Engine :=
  m.cycleWrites.reverse.foldl (fun (m : Engine) w =>
    if w.held then { m with held := (m.held.reverse.erase (w.addr, w.new)).reverse } else m.takeConfig w.addr w.old) { m with store := { m.store with ruWrites := [] } }

/-- Held writes are applied in the order written (R82). -/
def Engine.applyHeld (m : Engine) : Engine :=
  let hs := m.held
  hs.foldl (fun m h =>
    let m := m.takeConfig h.1 h.2
    match pendField h.1 with | none => m | some f => m.setFlag f false) { m with held := [] }

end Sys2Proof.Machine
end

