-- ==== Sys2Proof/Machine/Segments.lean ====
section
/-! DEFINITION. Segments (R209 to R224): costs and allotments, the train and its plan, opening and closing, boundaries, the re-arm gap, locks. -/
namespace Sys2Proof.Machine

/-! Costs (R26, R30) and allotments (R210). -/

/-- An intake's regime (R26). -/
def Engine.regime (m : Engine) (n : Nat) : Nat := m.fld (R.RU_STREAM_REGIME n)

/-- Is an intake stored: its regime is not OFF (R210)? -/
def Engine.stored (m : Engine) (n : Nat) : Bool := m.regime n != 0

/-- An intake's budget cost in bu (R26, R30). -/
def Engine.cost (m : Engine) (n : Nat) : Nat :=
  match m.regime n with
  | 0 => 0
  | 5 => m.fld (R.RU_STREAM_RESERVE n)
  | r => let d := 4 * 2 ^ m.fld (R.RU_STREAM_RATE n); ((if r = 3 then 4096 else 2048) + d - 1) / d

/-- The storage budget in bu (R1, R30), from the stacks fitted. -/
def Engine.budgetLimit (m : Engine) : Nat := if bitsOf (m.reg R.SYS_IDENT).toNat 0 2 = 2 then 15360 else 12800

/-- The regime and budget check (R30): its first failure as reason and detail, and the total where it completed. -/
def Engine.budgetCheck (m : Engine) : Option (Nat × Nat) × Option Nat :=
  let bad := (List.range 48).findSome? (fun n =>
    let r := m.regime n; let rate := m.fld (R.RU_STREAM_RATE n)
    if r = 0 ∨ r = 5 then none
    else if 5 < r then some (4, n)
    else if 18 < rate ∨ (rate = 0 ∧ r ≠ 2) then some (5, n)
    else if r = 3 ∧ rate = 1 ∧ m.stored (if n % 2 = 0 then n + 1 else n - 1) then some (6, n)
    else none)
  match bad with
  | some b => (some b, none)
  | none =>
    let total := (List.range 48).foldl (fun a n => a + m.cost n) 0
    (if m.budgetLimit < total then some (7, total) else none, some total)

/-- An intake's weight under a segment's profile (R210). -/
def Engine.weight (m : Engine) (s n : Nat) : Nat :=
  let q := m.fld (R.SEG_CFG_PROFILE s)
  if bitAt (m.fld R.STORE_PROFCTL_AUTO) q then max (m.cost n) 1
  else if n % 2 = 0 then m.fld (R.STORE_PROF_W_W_EVEN q (n / 2)) else m.fld (R.STORE_PROF_W_W_ODD q (n / 2))

/-- The sum of the weights of the stored intakes. -/
def Engine.weightSum (m : Engine) (s : Nat) : Nat := (List.range 48).foldl (fun a n => if m.stored n then a + m.weight s n else a) 0

/-- Start and size in packs of every intake's allotment (R210); (0, 0) where the intake is not stored. -/
def Engine.allotments (m : Engine) (s : Nat) : List (Nat × Nat) :=
  let mk := m.fld (R.SEG_MARK_MKPACKS s)
  let data := m.fld (R.SEG_SIZE_PACKS s) - mk
  let sum := m.weightSum s
  ((List.range 48).foldl (fun (acc : List (Nat × Nat) × Nat) n =>
    if m.stored n then let a := data * m.weight s n / sum; (acc.1 ++ [(acc.2, a)], acc.2 + a) else (acc.1 ++ [(0, 0)], acc.2))
    ([], m.fld (R.SEG_BASE_PACKS s) + mk)).1

/-! The train (R219, R221) and its plan (R218). -/

/-- The first segment of the train (R219). -/
def Engine.trainFirst (m : Engine) : Nat :=
  match m.store.lastSeg with
  | some s => if m.flag R.STORE_TRAIN_CONT && m.flag (R.SEG_CFG_LINK_EN s) then m.fld (R.SEG_CFG_NEXT s) else m.fld R.STORE_TRAIN_FIRST
  | none => m.fld R.STORE_TRAIN_FIRST

/-- The train from a segment on (R219), given what it reached already. -/
def Engine.trainFrom (m : Engine) : Nat → List Nat → Nat → List Nat
  | 0, seen, _ => seen
  | k + 1, seen, s =>
    if seen.contains s then seen
    else if m.flag (R.SEG_CFG_LINK_EN s) then m.trainFrom k (seen ++ [s]) (m.fld (R.SEG_CFG_NEXT s)) else seen ++ [s]

/-- A segment's state (R222), a closing one read as CLOSED. -/
def Engine.segState (m : Engine) (closing : Option Nat) (s : Nat) : Nat := if closing = some s then 3 else m.fld (R.SEG_STATUS_STATE s)

/-- Is a segment enterable (R221)? -/
def Engine.enterable (m : Engine) (closing : Option Nat) (s : Nat) : Bool :=
  let st := m.segState closing s
  m.fld (R.SEG_STATUS_LOCK s) == 0 && (st == 0 || st == 4 || (st == 3 && m.flag (R.SEG_CFG_WRAPPOL s)))

/-- Packs of the cistern (R209). -/
def Engine.totalPacks (m : Engine) : Nat := 100663296 * bitsOf (m.reg R.SYS_IDENT).toNat 0 2

/-- The display region in packs, start and end; empty when its size is 0 or it leaves the cistern (R305). -/
def Engine.dispRegion (m : Engine) : Nat × Nat :=
  let b := m.fld R.CIS_DISP_BASE_PACKS; let n := m.fld R.CIS_DISP_SIZE_PACKS
  if n = 0 ∨ m.totalPacks < b + n then (0, 0) else (b, b + n)

/-- Do two spans of packs overlap? -/
def spansOverlap (a b : Nat × Nat) : Bool := decide (a.1 < b.2) && decide (b.1 < a.2)

/-- A segment's packs. -/
def Engine.segSpan (m : Engine) (s : Nat) : Nat × Nat := let b := m.fld (R.SEG_BASE_PACKS s); (b, b + m.fld (R.SEG_SIZE_PACKS s))

/-- The check of one segment of the train (R218): reason and detail of its first failure. -/
def Engine.planSegment (m : Engine) (train : List Nat) (s : Nat) : Option (Nat × Nat) :=
  let none_ := s + 0xFF00
  let al := m.allotments s
  let size := fun n => (nth al n (0, 0)).2
  let stored := (List.range 48).filter m.stored
  if m.totalPacks < (m.segSpan s).2 ∨ spansOverlap (m.segSpan s) m.dispRegion then some (8, none_)
  else if train.any (fun k => k != s && spansOverlap (m.segSpan s) (m.segSpan k)) then some (9, none_)
  else if m.fld (R.SEG_MARK_MKPACKS s) = 0 then some (10, none_)
  else if m.weightSum s = 0 ∨ m.fld (R.SEG_SIZE_PACKS s) ≤ m.fld (R.SEG_MARK_MKPACKS s) then some (10, none_)
  else match stored.find? (fun n => m.weight s n == 0 || decide (size n < 8)) with
    | some n => some (10, s + n * 2 ^ 8)
    | none =>
      if m.flag (R.SEG_CFG_WINMODE s) then none
      else if stored.all (fun n => decide (4 ≤ m.regime n)) then some (11, none_)
      else (stored.find? (fun n => decide (size n < (m.reg (R.SEG_PRE s)).toNat + (m.reg (R.SEG_POST s)).toNat))).map (fun n => (12, s + n * 2 ^ 8))

/-- The storage plan (R218). -/
def Engine.planCheck (m : Engine) : Option (Nat × Nat) :=
  let f := m.trainFirst
  let train := m.trainFrom 257 [] f
  match train.findSome? (m.planSegment train) with
  | some r => some r
  | none => if m.enterable none f then none else some (13, f + 0xFF00)

/-! Opening and closing (R222). -/

/-- A segment opens for the sample cycle whose TB is t (R222); entering a CLOSED one writes OVERWRITE (R221). DEDUCED: notes/assumptions/82.md. -/
def Engine.openSegment (m : Engine) (s : Nat) (t : Tb) : Engine :=
  let was := m.fld (R.SEG_STATUS_STATE s)
  let oldClose := m.reg64 (R.SEG_CLOSE_TB_LO s)
  let gen := (m.fld (R.SEG_STATUS_GEN s) + 1) % 8
  let m := m.setFld ⟨R.SEG_STATUS s, 0, 11⟩ (1 + gen * 2 ^ 8)
  let m := (m.setReg64 (R.SEG_OPEN_TB_LO s) t).setReg64 (R.SEG_TRIG_TB_LO s) 0
  let m := (m.setReg64 (R.SEG_CLOSE_TB_LO s) 0).setReg (R.SEG_TRIGCNTS s) 0
  let m := (m.setFld (R.SEG_MARK_MKUSED s) 0).setFld R.STORE_STATUS_CURRENT s
  let m := m.setStore { m.store with
    allot := m.allotments s, active := true
    intakes := m.store.intakes.map (fun x => { x with
      opened := false, seq := 0, spans := [], postSeq := none, low := 0, postCount := 0, complete := false, stopped := false, fullDue := false, initial := true }) }
  let m := (m.addWrap R.STORE_SEGCNT 1).status R.E_STORE_OPENED
  if was = 3 then (m.setFlag (R.SEG_STATUS_OVERWROTE s) true).mark { type := 9, intake := 0xFF, tb := t, data := oldClose.toNat } else m

/-- A POST_SHORT marker for an intake (R207, R217). DEDUCED: notes/assumptions/83.md. -/
def Engine.postShort (m : Engine) (n reason : Nat) : Engine :=
  let s := m.curSeg
  let t := match (m.sto n).spans with | [] => m.reg64 (R.SEG_OPEN_TB_LO s) | p :: _ => p.1
  ((m.markIntake 8 n t false reason).setFlag (R.SEG_STATUS_POST_SHORT s) true).status R.E_STORE_POST_SHORT

/-- POST_SHORT_FULL (R217): the intake that stopped for want of a free slot gets its marker. -/
def Engine.postFull (m : Engine) (n : Nat) : Engine :=
  let x := m.sto n
  if x.fullDue then (m.setSto n { x with fullDue := false }).postShort n 0 else m

/-- The re-arm gap's reckoning (R220): a MISSED marker and MISSED_TB if any trigger fell in it; the gap is over. -/
def Engine.gapFinish (m : Engine) : Engine :=
  match m.store.gapUntil with
  | none => m
  | some _ =>
    let k := m.store.missed
    let t := m.store.missedTb
    let m := (m.setStore { m.store with gapUntil := none, missed := 0 }).setFlag R.STORE_STATUS_GAP false
    if k = 0 then m else (m.mark { type := 4, intake := 0xFF, tb := t, data := k }).setReg64 R.STORE_MISSED_TB_LO t

/-- REARM_GAP_END (R220): 32 sample cycles after the boundary. -/
def Engine.rearmGapEnd (m : Engine) : Engine :=
  match m.store.gapUntil with
  | none => m
  | some p => if p ≤ m.store.gated then m.gapFinish else m

/-- A lost span still open when the segment closes ends at the close (R229). -/
def Engine.gapAtClose (m : Engine) (n : Nat) (t : Tb) : Engine :=
  let m := m.gapEnd n
  let x := m.sto n
  if x.lost.isSome then (m.setSto n { x with lostEnd := some (t, x.seq) }).gapEnd n else m

/-- The current segment closes (R222): packs close with a CLOSE code, then come the markers of R220 and R229, POST_SHORT with a reason for each incomplete intake
of a TRIGGERED segment, a settle's SETTLE marker, and the last marker pack. -/
def Engine.closeSegment (m : Engine) (close : Nat) (t : Tb) (reason : Nat) (cause : Option Nat) (settled : Bool) : Engine :=
  if !m.segOpen then m
  else
    let s := m.curSeg
    let trig := m.fld (R.SEG_STATUS_STATE s) == 2
    let m := forEach 48 (fun n m => (m.packClose n close).postFull n) m
    let m := m.gapFinish
    let m := forEach 48 (fun n m => m.gapAtClose n t) m
    let short := trig && (m.reg (R.SEG_POST s)).toNat != 0
    let m := forEach 48 (fun n m => if short && m.stored n && !(m.sto n).complete && !(m.sto n).stopped then m.postShort n reason else m) m
    let m := match cause with | none => m | some c => m.mark { type := 6, intake := 0xFF, tb := t, data := c }
    let m := m.markerPack close
    let m := (m.setFld (R.SEG_STATUS_STATE s) 3).setReg64 (R.SEG_CLOSE_TB_LO s) t
    let m := if settled then m.setFlag (R.SEG_STATUS_SETTLED s) true else m
    (m.setFld R.STORE_STATUS_LASTCLOSED s).status R.E_STORE_CLOSED

/-- Where the train goes from a locked segment (R221): the segment entered or the stop cause, and the segments passed. -/
def Engine.passLocked (m : Engine) (closing : Nat) : Nat → List Nat → Nat → (Option Nat × Nat) × Nat
  | 0, seen, _ => ((none, 3), seen.length)
  | k + 1, seen, s =>
    let seen := seen ++ [s]
    let nxt := m.fld (R.SEG_CFG_NEXT s)
    if !m.flag (R.SEG_CFG_LINK_EN s) ∨ nxt = closing ∨ seen.contains nxt then ((none, 3), seen.length)
    else if m.enterable (some closing) nxt then ((some nxt, 0), seen.length)
    else if m.fld (R.SEG_STATUS_LOCK nxt) = 0 then ((none, 2), seen.length)
    else m.passLocked closing k seen nxt

/-- Where the train goes when segment s closes (R221): the segment entered or the stop cause (1 END, 2 UNREAD, 3 LOCKED), and the segments passed. -/
def Engine.advance (m : Engine) (s : Nat) : (Option Nat × Nat) × Nat :=
  let nxt := m.fld (R.SEG_CFG_NEXT s)
  if !m.flag (R.SEG_CFG_LINK_EN s) then ((none, 1), 0)
  else if m.enterable (some s) nxt then ((some nxt, 0), 0)
  else if m.fld (R.SEG_STATUS_LOCK nxt) = 0 then ((none, 2), 0)
  else m.passLocked s 256 [] nxt

/-- A boundary takes effect (R217, R220, R221): the segment closes and the next one opens with a re-arm gap, or storage stops. -/
def Engine.boundaryNow (m : Engine) : Engine :=
  match m.store.boundary with
  | none => m
  | some b =>
    let m := m.setStore { m.store with boundary := none }
    if !m.segOpen then m
    else
      let ((nxt, cause), passed) := m.advance m.curSeg
      let m := m.closeSegment 2 (b.tb + 16) (if b.post then 3 else if nxt.isSome then 1 else 2) none false
      let m := if passed = 0 then m else m.addSat R.STORE_SKIPCNT passed
      match nxt with
      | some s =>
        let m := m.openSegment s (b.tb + 16)
        (m.setStore { m.store with gapUntil := some (b.phys + 32), missed := 0 }).setFlag R.STORE_STATUS_GAP true
      | none =>
        let m := ((m.setFlag R.STORE_STATUS_STOPPED true).setFld R.STORE_STATUS_STOPCAUSE cause).setFlag R.STORE_STATUS_STORING false
        m.status R.E_STORE_STOPPED

/-- SEGMENT_BOUNDARY (R220). -/
def Engine.segmentBoundary (m : Engine) : Engine :=
  match m.store.boundary with
  | some b => if b.segact || b.next then m.boundaryNow else m
  | none => m

/-- POST_COMPLETE (R217). -/
def Engine.postComplete (m : Engine) : Engine :=
  match m.store.boundary with
  | some b => if b.post then m.boundaryNow else m
  | none => m

/-- Capture ends (R78, R222): the segment closes, storage is at rest, and the writes held until then are applied. DEDUCED: notes/assumptions/90.md. -/
def Engine.endCapture (m : Engine) (close : Nat) (t : Tb) (cause : Option Nat) (settled : Bool) : Engine :=
  if !m.store.active then m
  else
    let m := m.boundaryNow
    let m := m.closeSegment close t 2 cause settled
    let m := m.setStore { m.store with active := false, lastSeg := some m.curSeg, gapUntil := none, segNext := [], boundary := none }
    let m := ((m.setFlag R.STORE_STATUS_STORING false).setFlag R.STORE_STATUS_STOPPED false).setFld R.STORE_STATUS_STOPCAUSE 0
    (m.setFlag R.STORE_STATUS_GAP false).applyHeld

/-! Lock counts and MARKREAD (R222, R223). -/

/-- One acquisition of a segment's lock. -/
def Engine.lockAcq (m : Engine) (s : Nat) : Engine :=
  let k := m.fld (R.SEG_STATUS_LOCK s)
  if k = 255 then m.status (R.E_SEG_LOCK_ERR s) else m.setFld (R.SEG_STATUS_LOCK s) (k + 1)

/-- One release of a segment's lock. -/
def Engine.lockRel (m : Engine) (s : Nat) : Engine :=
  let k := m.fld (R.SEG_STATUS_LOCK s)
  if k = 0 then m.status (R.E_SEG_LOCK_ERR s) else m.setFld (R.SEG_STATUS_LOCK s) (k - 1)

/-- A CLOSED segment with lock count 0 becomes READ. -/
def Engine.markRead (m : Engine) (s : Nat) : Engine :=
  if m.fld (R.SEG_STATUS_STATE s) = 3 ∧ m.fld (R.SEG_STATUS_LOCK s) = 0 then m.setFld (R.SEG_STATUS_STATE s) 4 else m

/-- A LOCKCTL write (R236): ACQ and REL together cancel; REL comes before MARKREAD. -/
def Engine.lockctl (m : Engine) (s : Nat) (acq rel read : Bool) : Engine :=
  let m := if acq && !rel then m.lockAcq s else if rel && !acq then m.lockRel s else m
  if read then m.markRead s else m

end Sys2Proof.Machine
end

