-- ==== Sys2Proof/Machine/StoreGate.lean ====
section
/-! DEFINITION. The store gate (R12, R14): items of every regime (R65 to R76, R227, R228), triggers honoured (R214 to R216), post sides (R217), and the weir (R225, R226). -/
namespace Sys2Proof.Machine

/-! Items. -/

/-- Does an intake store items now: segment open, its post side neither complete nor stopped (R217)? -/
def Engine.takes (m : Engine) (n : Nat) : Bool := let x := m.sto n; m.segOpen && x.storeEn && !x.complete && !x.stopped

/-- Would the next pack of the post side take a slot that a kept pre pack or a post pack holds (R215, R217)? The window keeps the packs from SEQ `low` on. -/
def Engine.slotProtected (m : Engine) (n low : Nat) : Bool :=
  m.flag (R.SEG_CFG_WINMODE m.curSeg) && decide (low + (nth m.store.allot n (0, 0)).2 ≤ (m.sto n).seq)

/-- The lowest SEQ of the pre packs that the window keeps (R215), when the post side begins with a SEQ. -/
def Engine.keptLow (m : Engine) (n seq : Nat) : Nat :=
  let s := m.curSeg
  let x := m.sto n
  let pre := (m.reg (R.SEG_PRE s)).toNat
  let trig := m.reg64 (R.SEG_TRIG_TB_LO s)
  let kept := if m.flag (R.SEG_CFG_WINMODE s)
    then (x.spans.takeWhile (fun p => tbLe trig p.2 || decide ((trig - p.2).toNat ≤ pre * 2 ^ m.fld (R.SEG_CFG_WUNIT s)))).length
    else min pre x.spans.length
  seq - kept

/-- An item with its TB joins the intake's pack, a new one where none is open (R77, R202); a pack that it fills closes at once (R78). The post side begins with the
pack of the first item at or after the trigger (R215), and stops where a new pack would need a protected slot (R217).
DEDUCED: notes/assumptions/81.md. -/
def Engine.putItem (m : Engine) (n type rate : Nat) (t : Tb) (slots : List Nat) (swap skip : Bool) (phys : Nat) : Engine :=
  if !m.takes n then m
  else
    let s := m.curSeg
    let x := m.sto n
    let post := m.fld (R.SEG_STATUS_STATE s) == 2 && tbLe (m.reg64 (R.SEG_TRIG_TB_LO s)) t
    let low := if post && x.postSeq.isNone then m.keptLow n x.seq else x.low
    if x.pack.isNone ∧ (post ∨ x.postSeq.isSome) ∧ m.slotProtected n low then m.setSto n { x with stopped := true, fullDue := true }
    else
      let x := if post && x.postSeq.isNone then { x with postSeq := some x.seq, low := low } else x
      let p := match x.pack with
        | some p => { p with items := p.items ++ slots, last := t, swap := p.swap || swap, clkSkip := p.clkSkip || skip, post := p.post || post }
        | none => { type := type, rate := rate, swap := swap, clkSkip := skip, weir := m.weirSteps n != 0, first := !x.opened, post := post, tb := t, last := t
                    since := phys, items := slots }
      ((m.setSto n { x with pack := some p, opened := true }).setFlag (R.RU_STATUS_PACK_OPEN n) true).packFull n

/-- A TRANSITION change at a tick (R76). DEDUCED: notes/assumptions/80.md. -/
def Engine.putChange (m : Engine) (n rate : Nat) (t : Tb) (view : Lines) (phys : Nat) : Engine :=
  let x := m.sto n
  let v := view.toNat
  let m := match x.pack with
    | none => m.putItem n 3 rate t [v] false false phys
    | some p =>
      let d := (t - x.lastChange).toNat
      if d ≤ 0xFFFE then m.putItem n 3 rate t [v + d * 2 ^ 48] false false phys
      else if p.items.length + 2 ≤ 30 then m.putItem n 3 rate t [v + 0xFFFF * 2 ^ 48, t.toNat] false false phys
      else (m.packClose n 0).putItem n 3 rate t [v] false false phys
  m.setSto n { m.sto n with lastChange := t }

/-- A TWO-LEVEL item: line x's code in bits 2x + 1 and 2x (R67). -/
def twoLevel (f : FTick) : Nat := (List.range 48).foldl (fun a x => a + codeOf f.cl f.ch x * 4 ^ x) 0

/-- The judged cycles of an intake from the one captured in cycle p on, newest first. -/
def Engine.judgedFrom (m : Engine) (n p : Nat) : List Judged := (m.intake n).judged.drop (m.cc - 7 - p)

/-- A TRANSITION intake at one tick (R64, R75, R228): `f` is the tick, `t` its TB. An initial change whose tick is flagged waits for the first unflagged tick, or with
weir steps for the first granule that starts at one. DESIGN CHOICE: notes/assumptions/136.md. -/
def Engine.transitionTick (m : Engine) (n phys : Nat) (t : Tb) (f : FTick) : Engine :=
  let x := m.sto n
  let steps := m.weirSteps n
  let g := 2 ^ steps
  let flagged := f.flag != 0
  let eff := if flagged then x.eff else f.view
  if !m.takes n then m.setSto n { x with eff := eff, granule := none }
  else if steps = 0 then
    if x.initial then
      if flagged then m.setSto n { x with eff := eff }
      else (m.setSto n { x with eff := eff, initial := false, shown := eff }).putChange n steps t eff phys
    else
      let m := m.setSto n { x with eff := eff, shown := eff }
      if eff = x.eff then m else m.putChange n steps t eff phys
  else
    let start := t.toNat % g == 0
    let last := t.toNat % g == g - 1
    if x.initial then
      if start && !flagged then (m.setSto n { x with eff := eff, initial := false, shown := eff, granule := some t, granAll := eff, granAny := eff }).putChange n steps t eff phys
      else m.setSto n { x with eff := eff }
    else
      let x := if start then { x with eff := eff, granule := some t, granAll := eff, granAny := eff }
        else { x with eff := eff, granAll := x.granAll &&& eff, granAny := x.granAny ||| eff }
      let m := m.setSto n x
      match last, x.granule with
      | true, some t0 =>
        let view := x.granAll ||| (x.shown &&& x.granAny)
        let m := m.setSto n { x with granule := none, shown := view }
        if view = x.shown then m else m.putChange n steps t0 view phys
      | _, _ => m

/-- One tick of an intake at the store gate. -/
def Engine.gateTickOf (m : Engine) (n k phys : Nat) (t0 : Tb) (js : List Judged) : Engine :=
  let t := t0 + BitVec.ofNat 64 k
  let rate := m.fld (R.RU_STREAM_RATE n) + m.weirSteps n
  let j := nth js 0 {}
  let f := nth j.ticks k {}
  let onGrid := t.toNat % (4 * 2 ^ rate) == 0
  match m.regime n with
  | 1 | 2 => if onGrid then m.putItem n 0 rate t [f.view.toNat] (f.flag != 0) false phys else m
  | 3 => if onGrid then m.putItem n 1 rate t [twoLevel f] (f.flag != 0) false phys else m
  | 4 =>
    match j.edges.find? (fun e => e.1 == k) with
    | none => m
    | some e =>
      let x := m.sto n
      let keep := x.edges % 2 ^ m.weirSteps n == 0
      let skip := x.skip || e.2
      let ck := match edgeSel (m.fld (R.RU_STATECFG_EDGE n)) with | some (c, _) => c | none => 0
      let soff := fun y => m.fld (R.RU_LINE_SOFF n y)
      let item := mkLines (fun y => lineBit (tickBack js k (soff y)).view y)
      let flagged := f.ckFlag.getLsbD ck || (List.range 48).any (fun y => lineBit (tickBack js k (soff y)).flag y)
      let stores := keep && m.takes n
      let m := m.setSto n { x with edges := x.edges + 1, skip := if stores then false else skip }
      if keep then m.putItem n 2 rate t [item.toNat] flagged skip phys else m
  | 5 => m.transitionTick n phys t f
  | _ => m

/-! Triggers (R214 to R216). -/

/-- The depth an intake's pre side holds for a trigger, in packs or in units of 2^WUNIT tk (R213, R216). -/
def Engine.preDepth (m : Engine) (n : Nat) (t : Tb) : Nat :=
  let s := m.curSeg
  let x := m.sto n
  if m.flag (R.SEG_CFG_WINMODE s) then (match x.spans.getLast? with | none => 0 | some p => (t - p.1).toNat / 2 ^ m.fld (R.SEG_CFG_WUNIT s))
  else x.spans.length

/-- Does an intake's pre side hold what PRE asks (R216), without the wrap clause? -/
def Engine.preHeld (m : Engine) (n : Nat) (t : Tb) : Bool :=
  let s := m.curSeg
  let pre := (m.reg (R.SEG_PRE s)).toNat
  if m.flag (R.SEG_CFG_WINMODE s) then
    pre == 0 || (match (m.sto n).spans.getLast? with | none => false | some p => tbLe p.1 t && decide (pre * 2 ^ m.fld (R.SEG_CFG_WUNIT s) ≤ (t - p.1).toNat))
  else decide (pre ≤ (m.sto n).spans.length)

/-- Is an intake's pre side full (R216): what PRE asks, or a ring that has wrapped? -/
def Engine.preFull (m : Engine) (n : Nat) (t : Tb) : Bool := m.preHeld n t || decide ((nth m.store.allot n (0, 0)).2 < (m.sto n).seq)

/-- Add one to a 16-bit count that saturates. -/
def Engine.addSat16 (m : Engine) (f : Field) : Engine := m.setFld f (min (m.fld f + 1) 0xFFFF)

/-- A trigger at the store gate (R214, R216, R220): honoured, missed in the re-arm gap, or not honoured. -/
def Engine.triggerAt (m : Engine) (t : Tb) (exact : Bool) (data : Nat) : Engine :=
  let s := m.curSeg
  let stored := (List.range 48).filter m.stored
  if m.segOpen && m.store.gapUntil.isSome then
    let m := m.setStore { m.store with missed := m.store.missed + 1, missedTb := if m.store.missed = 0 then t else m.store.missedTb }
    (m.addSat16 (R.SEG_TRIGCNTS_MISSED s)).status R.E_STORE_MISSED
  else if !m.segOpen || m.fld (R.SEG_STATUS_STATE s) != 1 || (m.flag (R.SEG_CFG_PREPOL s) && !stored.all (fun n => m.preFull n t)) then
    m.addSat16 (R.SEG_TRIGCNTS_UNHONOURED s)
  else
    let m := ((m.setFld (R.SEG_STATUS_STATE s) 2).setReg64 (R.SEG_TRIG_TB_LO s) t).status R.E_STORE_TRIG
    let m := m.mark { type := 1, intake := 0xFF, tb := t, exact := exact, data := data }
    let m := stored.foldl (fun m n => if m.regime n = 4 then m.markIntake 1 n t exact data else m) m
    let m := stored.foldl (fun m n => if m.preHeld n t then m
      else ((m.markIntake 7 n t false (m.preDepth n t)).setFlag (R.SEG_STATUS_PRE_SHORT s) true).status R.E_STORE_PRE_SHORT) m
    if (m.reg (R.SEG_POST s)).toNat = 0 ∧ !m.flag (R.SEG_CFG_WINMODE s)
    then stored.foldl (fun m n => m.setSto n { m.sto n with complete := true }) m else m

/-- Is the post side complete after the sample cycle whose TB is t0 (R217)? -/
def Engine.postDone (m : Engine) (t0 : Tb) : Bool :=
  let s := m.curSeg
  m.segOpen && m.fld (R.SEG_STATUS_STATE s) == 2 &&
    (if m.flag (R.SEG_CFG_WINMODE s)
     then decide ((m.reg (R.SEG_POST s)).toNat * 2 ^ m.fld (R.SEG_CFG_WUNIT s) ≤ (t0 + 15 - m.reg64 (R.SEG_TRIG_TB_LO s)).toNat)
     else (List.range 48).all (fun n => m.regime n == 0 || decide (4 ≤ m.regime n) || (m.sto n).complete))

/-- In TICKS mode the end of the post side completes every intake that has not stopped (R217). -/
def Engine.ticksComplete (m : Engine) (done : Bool) : Engine :=
  if done && m.flag (R.SEG_CFG_WINMODE m.curSeg)
  then m.setStore { m.store with intakes := m.store.intakes.map (fun x => { x with complete := x.complete || !x.stopped }) } else m

/-- A boundary asked for after a sample cycle (R220): ignored and logged in the re-arm gap unless it closes a completed post side. -/
def Engine.askBoundary (m : Engine) (phys : Nat) (t0 : Tb) (segact next post : Bool) : Engine :=
  if !(segact || next || post) || !m.segOpen then m
  else if !post && (match m.store.gapUntil with | none => false | some g => decide (phys ≤ g)) then
    m.log 0xA8 2 0x021B (if segact then 0 else 1) t0
  else m.setStore { m.store with boundary := some ⟨phys, t0, segact, next, post⟩ }

/-! One sample cycle at the gate. -/

/-- Events that are due before the next sample cycle passes the gate: a boundary, the end of a re-arm gap, flushes, POST_SHORT and GAP markers. -/
def Engine.gateDue (m : Engine) : Engine :=
  let m := m.boundaryNow
  let m := if m.segOpen then m.rearmGapEnd else m
  let m := forEach 48 (fun n m => ((m.packFlush n).postFull n).gapEnd n) m
  if m.segOpen then m.markerFlush else m

/-- STORE_EN at the gate (R12, R78): an intake whose bit turns to 0 closes its pack; where the bit returns a TRANSITION intake starts afresh. -/
def Engine.storeEnables (m : Engine) (en : Lines) : Engine :=
  forEach 48 (fun n m =>
    let x := m.sto n
    let on := m.stored n && lineBit en n
    let m := if x.storeEn && !on then m.packClose n 4 else m
    m.setSto n { m.sto n with storeEn := on, initial := (m.sto n).initial || (on && !x.storeEn) }) m

/-- The samples of one sample cycle under the decision of the step that judged it (R12). -/
def Engine.storeCycle (m : Engine) (e : PipeEntry) : Engine :=
  let d := e.dec.getD {}
  let m := m.storeEnables (if m.segOpen then d.storeEn else 0)
  let js := (List.range 48).map (fun n => if m.stored n then m.judgedFrom n e.phys else [])
  let run := fun lo hi (m : Engine) => forEach 48 (fun n m =>
    if m.stored n then (List.range 16).foldl (fun m k => if lo ≤ k ∧ k < hi then m.gateTickOf n k e.phys e.tb (nth js n []) else m) m else m) m
  let m := match d.trig with
    | none => run 0 16 m
    | some (p, exact) => run p 16 ((run 0 p m).triggerAt (e.tb + BitVec.ofNat 64 p) exact d.trigData)
  let done := m.postDone e.tb
  (m.ticksComplete done).askBoundary e.phys e.tb d.boundary (m.store.segNext.contains (e.phys + 1)) done

/-- Was capture ended for the sample cycle captured in cycle p, or for one before it (R14)? -/
def Engine.pastEnd (m : Engine) (p : Nat) : Bool := match m.armSpan with | some (_, some e) => decide (e ≤ p) | _ => false

/-- STORE_GATE (R12, R14): the oldest sample cycle past its step reaches the gate 32 CCLK after its capture, later by the lag. One armed is stored; the first one not
armed any more ends the capture (R14, R131). A snapshot of the cycle is taken before it is gone (R151). -/
def Engine.storeGate (m : Engine) : Engine :=
  match m.path.pipe with
  | [] => m
  | e :: rest =>
    if !e.stepped ∨ m.cc < e.phys + 32 + m.lag then m
    else
      let m := m.snapTake
      let m := m.gateDue
      let m := m.setStore { m.store with gated := e.phys, gatedTb := e.tb }
      let m := if m.armedAt e.phys then (if e.dec.isSome then m.storeCycle e else m)
        else if m.pastEnd e.phys then m.endCapture 1 e.tb none false else m
      let m := { m with path := { m.path with pipe := rest } }
      m.setStore { m.store with segNext := m.store.segNext.filter (fun p => decide (e.phys + 1 < p)) }

/-! The weir (R225, R226). -/

/-- Set an intake's steps, with the registers that show them. -/
def Engine.setSteps (m : Engine) (n s : Nat) : Engine :=
  let m := m.setFld ⟨R.WEIR_STEPS (n / 8), 4 * (n % 8), 4⟩ s
  let mx : Field := ⟨R.WEIR_STEPMAX (n / 8), 4 * (n % 8), 4⟩
  let m := if m.fld mx < s then m.setFld mx s else m
  m.setFld R.WEIR_STATUS_STEPPED (((List.range 48).filter (fun k => m.weirSteps k != 0)).length)

/-- Is an intake's weir enabled (R225)? -/
def Engine.weirOn (m : Engine) (n : Nat) : Bool := lineBit (m.lines R.WEIR_ENABLE_LO R.WEIR_ENABLE_HI) n

/-- A step of the weir: the open pack closes with CLOSE 3 and a RATE marker follows at the next sample cycle to pass the gate (R226). -/
def Engine.weirStep (m : Engine) (n s : Nat) (up : Bool) : Engine :=
  let m := if m.segOpen then m.packClose n 3 else m
  let m := m.setSteps n s
  let m := m.setSto n { m.sto n with lowCount := 0, initial := true, edges := 0, granule := none }
  let rate := if m.regime n = 5 then s else m.fld (R.RU_STREAM_RATE n) + s
  if m.segOpen then m.markIntake 2 n m.nextGateTb false (rate % 32 + s * 2 ^ 5 + up.toNat * 2 ^ 9) else m

/-- WEIR_STEP_DOWN (R226). -/
def Engine.weirDown (m : Engine) (n : Nat) : Engine :=
  let x := m.sto n
  let s := m.weirSteps n
  let spaced := match x.lastDown with | none => true | some c => decide (c + 64 ≤ m.cc)
  if m.flag R.SYS_STATUS_ARMED && m.weirOn n && decide (96 < x.fifo.length) && decide (s < 8) && spaced then
    let m := m.weirStep n (s + 1) false
    let m := (m.setSto n { m.sto n with lastDown := some m.cc }).addSat (R.WEIR_DOWNCNT n) 1
    let m := m.status R.E_WEIR_STEP
    if s + 1 = 8 then m.status R.E_WEIR_FLOOR else m
  else m

/-- The step-up hold in CCLK cycles, rounded up (R226, R231). -/
def Engine.weirHold (m : Engine) : Nat := let t := (m.reg R.WEIR_HOLD).toNat; ((if t = 0 then 16 else t) + 15) / 16

/-- WEIR_STEP_UP (R226). -/
def Engine.weirUp (m : Engine) (n : Nat) : Engine :=
  let s := m.weirSteps n
  if m.flag R.SYS_STATUS_ARMED && m.weirOn n && s != 0 && decide (m.weirHold ≤ (m.sto n).lowCount) then m.weirStep n (s - 1) true else m

/-- The weirs' hold timers in one CCLK cycle: they run while armed and below the low mark of 32 packs (R225, R226). -/
def Engine.weirTimers (m : Engine) : Engine :=
  forEach 48 (fun n m =>
    let x := m.sto n
    if 32 ≤ x.fifo.length then (if x.lowCount = 0 then m else m.setSto n { x with lowCount := 0 })
    else if m.flag R.SYS_STATUS_ARMED && m.weirSteps n != 0 then m.setSto n { x with lowCount := x.lowCount + 1 } else m) m

/-- Storage at arming (R219, R222, R225): every weir at 0 steps, the train's first segment open for the sample cycle whose TB is t. -/
def Engine.storeArm (m : Engine) (t : Tb) : Engine :=
  let m := forEach 48 (fun n m =>
    let m := m.setSto n { m.sto n with storeEn := false, initial := true, edges := 0, skip := false, lowCount := 0, granule := none }
    if m.weirSteps n = 0 then m else m.setSteps n 0) m
  let m := m.setStore { m.store with gapUntil := none, missed := 0, boundary := none, segNext := [] }
  (m.openSegment m.trainFirst t).setFlag R.STORE_STATUS_STORING true

end Sys2Proof.Machine
end

