-- ==== Sys2Proof/Machine/Arming.lean ====
section
/-! DEFINITION. Arming and disarming (R14, R30, R31, R140, R184, R218, R302, R455, R456). -/
namespace Sys2Proof.Machine

/-- Is the engine armed, settled, dammed? -/
def Engine.armed (m : Engine) : Bool := m.flag R.SYS_STATUS_ARMED
def Engine.settled (m : Engine) : Bool := m.flag R.SAFE_STATUS_SETTLED
def Engine.dammed (m : Engine) : Bool := m.flag R.DAM_STATUS_DAMMED

/-- Is the cistern READY (R493)? -/
def Engine.cisReady (m : Engine) : Bool := m.fld R.CIS_STATUS_STATE == 3

/-- The outcome of an arming request (R456). -/
def Engine.armReport (m : Engine) (reason detail src : Nat) : Engine :=
  let m := (m.setReg R.SYS_ARM_LO (BitVec.ofNat 32 detail)).setReg R.SYS_ARM_HI (BitVec.ofNat 32 (reason + src * 2 ^ 8))
  let m := m.status R.E_SYS_ARM_DONE
  if reason = 0 then m else m.status R.E_SYS_ARM_REF

/-- A rota entry is late and carried out at t' (R180). -/
def Engine.rotaLate (m : Engine) (a : RotaAct) (t' : Tb) : Engine :=
  let m := ((m.addSat R.ROTA_LATECNT 1).status R.E_ROTA_LATE).setReg64 R.ROTA_LASTLATE_TB_LO a.tb
  m.log 0xA2 2 0x0210 (a.word + min ((t'.toNat - a.tb.toNat) / 16) 0xFFFF * 2 ^ 16) a.tb

/-- A rota entry is late and discarded (R180). -/
def Engine.rotaSkip (m : Engine) (a : RotaAct) : Engine :=
  let m := ((m.addSat R.ROTA_SKIPCNT 1).status R.E_ROTA_SKIP).setReg64 R.ROTA_LASTLATE_TB_LO a.tb
  m.log 0xA2 2 0x0211 (a.word + a.target * 2 ^ 16) a.tb

/-- The due cycle of a cycle-placed action: the first sample cycle starting at or after its instant (R177). -/
def dueAfter (t : Tb) : Nat := (t.toNat + 15) / 16

/-- Place an action behind those of the same or an earlier instant (R182). -/
def placeAct (a : RotaAct) : List RotaAct → List RotaAct
  | [] => [a]
  | b :: l => if a.eff < b.eff then a :: b :: l else b :: placeAct a l

/-- An arming request ends: a rota ARM leaves its queue, and the writes held with it join the held ones (R83). -/
def Engine.armEnd (m : Engine) : Engine :=
  let act := m.arming.bind (·.act)
  let m := { m with arming := none, held := m.allHeld }
  let m := (m.setFlag R.SYS_STATUS_ARMING false).setFlag R.SYS_CTL_ARM false
  match act with
  | none => m
  | some a => { m with rota := { m.rota with queue := m.rota.queue.erase a } }

/-- An arming request ends without arming: with no capture at hand the writes held with it are applied. DESIGN CHOICE: notes/assumptions/137.md. -/
def Engine.armDrop (m : Engine) : Engine := let m := m.armEnd; if m.armed || m.store.active then m else m.applyHeld

/-- An arming request is refused (R31, R456). -/
def Engine.armRefuse (m : Engine) (reason detail : Nat) : Engine :=
  let src := (m.arming.map (·.src)).getD 0
  m.armDrop.armReport reason detail src

/-- The place check of R140: bases and live tank in range, sets and live tank apart (R124). -/
def Engine.tablePlaceBad (m : Engine) : Bool :=
  let a := m.fld R.CONF_TSET_BASE_A; let b := m.fld R.CONF_TSET_BASE_B; let l := m.fld R.CONF_TSET_LIVE
  decide (53 < a) || decide (53 < b) || decide (3 < l) || spansOverlap (a, a + 11) (b, b + 11) || spansOverlap (a, a + 11) (l, l + 1) || spansOverlap (b, b + 11) (l, l + 1)

/-- The first tank of the set to arm with, or the live tank, that SLUICE does not own (R140). -/
def Engine.tableOwnerBad (m : Engine) : Option Nat :=
  let s := m.flag R.CONF_SETSEL_SET
  (((List.range 11).map (fun k => m.setBaseTank s + k)) ++ [m.fld R.CONF_TSET_LIVE]).find? (fun t => !m.tankReadable t)

/-- The checks on the snapshot of the request: the STREAM registers it took (R30, R83). -/
def Engine.withStream (m : Engine) (l : List Word) : Engine := forEach 48 (fun n m => m.setReg (R.RU_STREAM n) (nth l n 0)) m

/-- The checks have passed (R184, R455). A rota ARM whose checks end after d - 16 is late: it arms for cycle c + 16, its new place in the queue (R182), or is abandoned. DEDUCED: notes/assumptions/79.md. -/
def Engine.armPass (m : Engine) (r : ArmReq) : Engine :=
  match r.act with
  | none => { m with arming := some { r with passed := true } }
  | some a =>
    let d := dueAfter a.eff
    let c := m.cycle
    if c + 16 ≤ d then { m with arming := some { r with passed := true } }
    else if bitAt a.word 8 then ((m.rotaSkip a).armDrop).armReport 16 (c + 16 - d) 1
    else
      let a' := { a with eff := tbOfCycle (c + 16) }
      let m := m.rotaLate a a'.eff
      { m with arming := some { r with passed := true, act := some a' }
               rota := { m.rota with queue := placeAct a' (m.rota.queue.erase a) } }

/-- The checks of R31 go on as far as they can: held until the cistern is READY (R302) and an earlier capture is stored to its end, and while the verification that
arming needs runs (R140, R144). -/
def Engine.armChecks (m : Engine) : Engine :=
  match m.arming with
  | none => m
  | some r =>
    if r.passed || !m.cisReady || m.store.active then m
    else match (List.range 48).find? m.calInternal with
      | some n => m.armRefuse 17 n
      | none =>
        if m.tablePlaceBad then m.armRefuse 1 0
        else match m.tableOwnerBad with
          | some t => m.armRefuse 2 t
          | none =>
            let s := m.flag R.CONF_SETSEL_SET
            let pendingVer := m.path.verifying == some s || m.path.verifyWaits == some s
            if !m.verified s && !r.asked then { m.verify s with arming := some { r with asked := true } }
            else if !m.verified s && pendingVer then m
            else if !m.verified s then m.armRefuse 3 (m.fld R.CONF_STATUS_FAILTANK + s.toNat * 2 ^ 4)
            else
              let (bad, total) := (m.withStream r.stream).budgetCheck
              let m := match total with | none => m | some t => (m.setReg R.SYS_BUDGET_LO (BitVec.ofNat 32 t)).setFld R.SYS_BUDGET_HI_LIMIT m.budgetLimit
              match bad with
              | some (reason, detail) => m.armRefuse reason detail
              | none => match (m.withStream r.stream).planCheck with
                | some (reason, detail) => m.armRefuse reason detail
                | none => m.armPass r

/-- An arming request (R455, R184): ignored while armed or while checks run, refused while settled. -/
def Engine.armRequest (m : Engine) (src : Nat) (act : Option RotaAct) : Engine :=
  let drop := match act with | none => m | some a => { m with rota := { m.rota with queue := m.rota.queue.erase a } }
  if m.armed || m.arming.isSome then drop
  else if m.settled then drop.armReport 14 (m.fld R.SAFE_STATUS_CAUSE) src
  else
    let ws := m.cycleWrites
    let m := m.takeBack
    let r : ArmReq := { src := src, since := m.cc, stream := (List.range 48).map (fun n => m.heldReg (R.RU_STREAM n)), act := act }
    let m := ws.foldl (fun m w => m.holdLate w.addr w.new) (({ m with arming := some r }).setFlag R.SYS_STATUS_ARMING true)
    (if src = 0 then m.setFlag R.SYS_CTL_ARM true else m).armChecks

/-- Arming takes effect for the sample cycle about to be captured (R14, R42, R107, R139, R141, R219, R225, R455). -/
def Engine.armEffect (m : Engine) (t : Memory) (src : Nat) : Engine :=
  let p := m.cc + 1
  let tb := tbOfCycle m.nextCycle
  let m := { m.armEnd with armSpan := some (p, none) }
  let m := (m.setFlag R.SYS_STATUS_ARMED true).setReg64 R.SYS_ARM_TB_LO tb
  let m := (m.addWrap R.SYS_ARMCNT 1).armReport 0 0 src
  let m := m.sluiceArm t p
  let m := forEach 48 (fun n m => (m.disturb n).changeSet n 0 (m.flag (R.INTK_THRSEL_SET n)) false false) m
  m.storeArm tb

/-- An arming comes into effect, or is refused where by then a tank of the set that SETSEL names, or the live tank, is not SLUICE's (R165). -/
def Engine.armNow (m : Engine) (t : Memory) (src : Nat) : Engine :=
  match m.tableOwnerBad with
  | some k => m.armRefuse 2 k
  | none => m.armEffect t src

/-- ARMING_TAKES_EFFECT (R139, R455): checks that can go on do; passed ones arm at the next boundary, a rota ARM at the boundary of its due cycle
(a load that comes first discards it, R185). -/
def Engine.armingTakesEffect (m : Engine) (t : Memory) : Engine :=
  let m := m.armChecks
  match m.arming with
  | none => m
  | some r =>
    if !r.passed then m
    else match r.act with
      | none => m.armNow t 0
      | some a => if m.tbLoad.isNone ∧ dueAfter a.eff ≤ m.nextCycle then m.armNow t 1 else m

/-- A running check is cancelled (R455). -/
def Engine.armCancel (m : Engine) : Engine := if m.arming.isSome then m.armRefuse 15 0 else m

/-- The engine is disarmed at the next boundary (R14): sample cycles captured from then on are neither stepped nor stored. -/
def Engine.disarmNow (m : Engine) : Engine :=
  if !m.armed then m
  else
    let m := { m with armSpan := m.armSpan.map (fun (s : Nat × Option Nat) => (s.1, some (m.cc + 1))) }
    (m.setFlag R.SYS_STATUS_ARMED false).status R.E_SYS_DISARMED

/-- DISARM (R455): checks that run are cancelled, an armed engine is disarmed. -/
def Engine.disarm (m : Engine) : Engine := m.armCancel.disarmNow

end Sys2Proof.Machine
end

