-- ==== Sys2Proof/Machine/Rota.lean ====
section
/-! DEFINITION. Timebase loads (R171, R172) and the rota (R174 to R186): reading entries, queues, late entries, repeaters, halts. -/
namespace Sys2Proof.Machine

/-- Change the rota. -/
def Engine.setRota (m : Engine) (r : RotaState) : Engine := { m with rota := r }

/-! Actions (R177, R179). -/

/-- A queue of the rota (R179), numbered: store 0, gate 1, sluice 2, flume 3, dam 4, intake n 16 + n, display output o 8 + o. -/
def queueOf (code target : Nat) : Nat :=
  match code with
  | 1 | 2 | 3 => 0
  | 4 | 5 | 6 => 1
  | 7 => 16 + target
  | 8 | 9 | 0xA => 2
  | 0xB => 8 + target
  | 0xC => 3
  | _ => 4

/-- The depth of a queue (R179). -/
def queueDepth (q : Nat) : Nat := match q with | 0 => 8 | 1 => 64 | 2 => 32 | 3 => 16 | _ => 4

/-- Is an action tick-placed (R177)? -/
def tickPlaced (code : Nat) : Bool := (decide (4 ≤ code) && decide (code ≤ 7)) || decide (0xB ≤ code)

/-- The due cycle of an action (R177). -/
def dueOf (code : Nat) (t : Tb) : Nat := if tickPlaced code then cycleOf t else dueAfter t

/-- May an entry name this target (R177, R178)? -/
def targetOk (code target : Nat) : Bool :=
  match code with
  | 4 | 5 | 6 | 7 => decide (target < 48)
  | 9 => decide (target < 8)
  | 0xB => decide (target < 2)
  | _ => target == 0

/-- The actions waiting in a queue. -/
def RotaState.inQueue (r : RotaState) (q : Nat) : List RotaAct := r.queue.filter (fun a => queueOf a.code a.target == q)

/-- Has a queue room? -/
def RotaState.hasRoom (r : RotaState) (q : Nat) : Bool := decide ((r.inQueue q).length < queueDepth q)

/-- An action is placed in its queue; an ARM makes its arming request (R184). -/
def Engine.place (m : Engine) (a : RotaAct) : Engine :=
  let m := m.setRota { m.rota with queue := placeAct a m.rota.queue }
  if a.code = 1 then m.armRequest 1 (some a) else m

/-- An entry or a copy with room in its queue (R180): placed on time, placed late at t', or discarded as late. -/
def Engine.placeOrSkip (m : Engine) (a : RotaAct) : Engine :=
  let c := m.cycle
  if c + 16 ≤ dueOf a.code a.tb then m.place a
  else if bitAt a.word 8 then m.rotaSkip a
  else
    let t' := tbOfCycle (c + 16) + (if tickPlaced a.code then BitVec.ofNat 64 (a.tb.toNat % 16) else 0)
    (m.rotaLate a t').place { a with eff := t' }

/-! Repeaters (R183). -/

/-- A repeater is loaded with an entry, and reads its period and its count. -/
def Engine.loadRepeater (m : Engine) (r : Nat) (a : RotaAct) : Engine :=
  let i := r - 1
  let n := (m.reg (R.ROTA_REP_COUNT i)).toNat
  let period := (m.reg (R.ROTA_REP_PERIOD_LO i)).toNat + m.fld (R.ROTA_REP_PERIOD_HI_PERIOD i) * 2 ^ 32
  let rep : Repeater := { slot := r, tb := a.tb, target := a.target, arg := a.arg, word := a.word, period := max 16 period, k := 0, left := if n = 0 then none else some n }
  let m := m.setRota { m.rota with reps := m.rota.reps.filter (fun x => x.slot != r) ++ [rep] }
  (m.orReg R.ROTA_REPACTIVE (2 ^ r)).setReg (R.ROTA_REP_REMAIN i) (BitVec.ofNat 32 n)

/-- A repeater stops. -/
def Engine.stopRepeater (m : Engine) (r : Nat) : Engine :=
  let m := m.setRota { m.rota with reps := m.rota.reps.filter (fun x => x.slot != r) }
  (m.clearBits R.ROTA_REPACTIVE (2 ^ r)).setReg (R.ROTA_REP_REMAIN (r - 1)) 0

/-- REPSTOP was written (R183). -/
def Engine.repStop (m : Engine) (bits : Nat) : Engine := forEach 7 (fun i m => if bitAt bits (i + 1) then m.stopRepeater (i + 1) else m) m

/-- REPEATER_COPY (R183): repeater r places its next copy at its due cycle less 16, or later when its queue was full; after its last copy it stops. -/
def Engine.repeaterCopy (m : Engine) (r : Nat) : Engine :=
  match m.rota.reps.find? (fun x => x.slot == r) with
  | none => m
  | some x =>
    let code := x.word % 256
    let tb := x.tb + BitVec.ofNat 64 ((x.k + 1) * x.period)
    let a : RotaAct := { tb := tb, eff := tb, code := code, target := x.target, arg := x.arg, word := x.word }
    if m.cycle + 16 < dueOf code tb ∨ !m.rota.hasRoom (queueOf code x.target) then m
    else
      let left := x.left.map (· - 1)
      let m := m.setRota { m.rota with reps := m.rota.reps.map (fun y => if y.slot = r then { y with k := y.k + 1, left := left } else y) }
      let m := m.setReg (R.ROTA_REP_REMAIN (r - 1)) (BitVec.ofNat 32 (left.getD 0))
      let m := m.placeOrSkip a
      if left = some 0 then (m.stopRepeater r).status R.E_ROTA_REPDONE else m

/-! Reading the ring (R174 to R181). -/

/-- The rota tank (R174). -/
def Engine.rotaTank (m : Engine) : Nat := m.fld R.ROTA_CTL_TANK

/-- Does the rota run: enabled, not halted, its tank owned by ROTA (R175, R186)? -/
def Engine.rotaRunning (m : Engine) : Bool := m.flag R.ROTA_CTL_EN && !m.flag R.ROTA_STATUS_HALTED && m.owner m.rotaTank == ownRota

/-- An entry of the ring as its TB, action word, target and argument (R176). -/
def Engine.rotaEntry (m : Engine) (t : Memory) (j : Nat) : RotaAct :=
  let a := m.rotaTank * tankSize + 16 * j
  let word := readLE t (a + 8) 2
  let tb := BitVec.ofNat 64 (readLE t a 8)
  { tb := tb, eff := tb, code := word % 256, target := readLE t (a + 10) 2, arg := readLE t (a + 12) 4, word := word }

/-- HEAD advances (R174); where it reaches TAIL the ring is empty. -/
def Engine.advanceHead (m : Engine) : Engine :=
  let h := (m.fld R.ROTA_HEAD_INDEX + 1) % 16384
  let m := m.setFld R.ROTA_HEAD_INDEX h
  let m := m.setRota { m.rota with lastRead := m.cc }
  if h = m.fld R.ROTA_TAIL_INDEX then m.status R.E_ROTA_EMPTY else m

/-- An invalid entry (R178). -/
def Engine.rotaBad (m : Engine) (a : RotaAct) : Engine :=
  (((m.addSat R.ROTA_BADCNT 1).status R.E_ROTA_BADENT).log 0xA2 2 0x0214 (a.word + a.target * 2 ^ 16) a.tb).advanceHead

/-- Is an entry carried out as NOP for what it holds (R178)? -/
def RotaAct.bad (a : RotaAct) : Bool := decide (0xD < a.code) || !targetOk a.code a.target

/-- Is an entry discarded for its order (R181)? -/
def Engine.outOfOrder (m : Engine) (a : RotaAct) : Bool := match m.rota.refTb with | none => false | some r => decide (a.tb < r)

/-- Does an entry wait for a full queue (R179)? -/
def Engine.rotaFull (m : Engine) (a : RotaAct) : Bool := !a.bad && !m.outOfOrder a && a.code != 0 && !m.rota.hasRoom (queueOf a.code a.target)

/-- Does the entry at HEAD lie beyond the horizon of 4,096 CCLK (R179)? -/
def Engine.beyondHorizon (m : Engine) (a : RotaAct) : Bool := decide (m.cycle + 4096 < dueOf a.code a.tb)

/-- STATUS.STALL (R198): the entry at HEAD waits for a full queue. -/
def Engine.rotaStall (m : Engine) (t : Memory) : Bool :=
  let head := m.fld R.ROTA_HEAD_INDEX
  let a := m.rotaEntry t head
  m.rotaRunning && head != m.fld R.ROTA_TAIL_INDEX && !m.beyondHorizon a && m.rotaFull a

/-- ROTA_READ_ENTRY (R179): in each CCLK cycle at most one entry, when its due cycle is within 4,096 CCLK and its queue has room. `ecc` is what the tank read found (R178). DESIGN CHOICE: notes/assumptions/78.md. -/
def Engine.rotaRead (m : Engine) (t : Memory) (ecc : Ecc) : Engine :=
  let head := m.fld R.ROTA_HEAD_INDEX
  let w := 32768 * m.rotaTank + 2 * head
  if !m.rotaRunning ∨ head = m.fld R.ROTA_TAIL_INDEX ∨ m.rota.lastRead = m.cc then m
  else
  let before := m
  let (m, e) := m.wordRead w ecc
  let (m, bad) := (m.touchGroup 0).wordsRead [w + 1]
  if e = .double ∨ bad then
    let (k, m) := m.draw
    let tb := BitVec.ofNat 64 (Config.badWord k)
    m.rotaBad { tb := tb, eff := tb, code := 0, target := Config.badWord (k + 2 ^ 20) % 2 ^ 16, arg := 0, word := Config.badWord (k + 2 ^ 21) % 2 ^ 16 }
  else
    let a := m.rotaEntry t head
    if m.beyondHorizon a || m.rotaFull a then before
    else
      if a.bad then m.rotaBad a
      else if m.outOfOrder a then
        (((m.addSat R.ROTA_ORDERCNT 1).status R.E_ROTA_ORDER).log 0xA2 2 0x0212 (a.word + a.target * 2 ^ 16) a.tb).advanceHead
      else if a.code = 0 then (m.setRota { m.rota with refTb := some a.tb }).advanceHead
      else
        let m := (m.setRota { m.rota with refTb := some a.tb }).advanceHead
        let m := m.placeOrSkip a
        let r := bitsOf a.word 12 3
        if r = 0 then m else m.loadRepeater r a

/-- NEXT_TB as a read shows it (R198). -/
def Engine.rotaNextTb (m : Engine) (t : Memory) : Tb :=
  if m.fld R.ROTA_HEAD_INDEX = m.fld R.ROTA_TAIL_INDEX then 0 else (m.rotaEntry t (m.fld R.ROTA_HEAD_INDEX)).tb

/-! Halts, and writes of the page (R185, R186). -/

/-- At a dam and at an accepted load (R185): what is queued is discarded and logged, every repeater stops, the rota halts. DEDUCED: notes/assumptions/77.md. -/
def Engine.rotaHalt (m : Engine) : Engine :=
  let q := m.rota.queue
  let m := m.setRota { m.rota with queue := [] }
  let m := { m with disp := m.disp.map (fun (d : DispState) => { d with rotaFlip := none }) }
  let m := if (m.arming.bind (·.act)).isSome then m.armDrop else m
  let m := q.foldl (fun m a => ((m.addSat R.ROTA_DISCARDCNT 1).status R.E_ROTA_DISCARD).log 0xA2 2 0x0213 (a.word + a.target * 2 ^ 16) a.tb) m
  let m := forEach 7 (fun i m => m.stopRepeater (i + 1)) m
  (m.setFlag R.ROTA_STATUS_HALTED true).status R.E_ROTA_HALT

/-- ROTA_RESUME (R185). -/
def Engine.rotaResume (m : Engine) : Engine := m.setFlag R.ROTA_STATUS_HALTED false

/-- ROTA.CTL was written over `old` (R186, R198): TANK changes only while EN was 0; RESUME ends a halt. -/
def Engine.rotaCtl (m : Engine) (old : Word) (resume : Bool) : Engine :=
  let m := if bitAt old.toNat 0 then m.setFld R.ROTA_CTL_TANK (bitsOf old.toNat 8 2) else m
  if resume then m.rotaResume else m

/-- ROTA_HEAD_WRITE (R186): HEAD changes only while EN is 0 or the rota is halted, and the reference TB is cleared (R181). -/
def Engine.rotaHead (m : Engine) (v : Nat) : Engine :=
  if m.flag R.ROTA_CTL_EN && !m.flag R.ROTA_STATUS_HALTED then m
  else (m.setFld R.ROTA_HEAD_INDEX v).setRota { m.rota with refTb := none }

/-! Actions taking effect (R17). -/

/-- Has an action's instant come: is it due in the coming cycle or before? A load that takes effect first discards it (R185). -/
def Engine.actReady (m : Engine) (a : RotaAct) : Bool := m.tbLoad.isNone && decide (dueOf a.code a.eff ≤ m.nextCycle)

/-- The first action of a queue, if it has a given code and its instant has come. -/
def Engine.actAt (m : Engine) (q code : Nat) : Option RotaAct :=
  match m.rota.inQueue q with
  | [] => none
  | a :: _ => if a.code == code && m.actReady a then some a else none

/-- An action leaves its queue. -/
def Engine.takeAct (m : Engine) (a : RotaAct) : Engine := m.setRota { m.rota with queue := m.rota.queue.erase a }

/-- THRESH_SWAP (R43) on intake n. -/
def Engine.rotaThreshSwap (m : Engine) (n : Nat) : Engine :=
  match m.actAt (16 + n) 7 with
  | none => m
  | some a => (m.takeAct a).threshSwap n (if cycleOf a.eff = m.nextCycle then a.eff.toNat % 16 else 0) (bitAt a.arg 0)

/-- TABLE_SWAP (R141). -/
def Engine.rotaTableSwap (m : Engine) : Engine :=
  match m.actAt 2 0xA with
  | none => m
  | some a => (m.takeAct a).tableSwap (m.cc + 1) (bitAt a.arg 0) a.arg

/-- SLUICE_JUMP (R143). -/
def Engine.rotaSluiceJump (m : Engine) : Engine :=
  match m.actAt 2 8 with
  | none => m
  | some a => (m.takeAct a).sluiceJump (m.cc + 1) a.arg

/-- EVENT (R123). -/
def Engine.rotaEventAct (m : Engine) : Engine :=
  match m.actAt 2 9 with
  | none => m
  | some a => (m.takeAct a).rotaEvent (m.cc + 1) a.target (bitsOf a.arg 0 2)

/-- Does an ARM ahead of an action take effect first: its checks have passed and its cycle has come? One whose checks still run holds nothing up (R184). -/
def Engine.armAhead (m : Engine) (a : RotaAct) : Bool :=
  match m.arming with
  | some { passed := true, act := some b, .. } => decide (dueAfter b.eff ≤ m.nextCycle) && ((m.rota.inQueue 0).takeWhile (· != a)).contains b
  | _ => false

/-- The first DISARM or SEGMENT_NEXT of the store queue, if it has a given code and its instant has come. -/
def Engine.storeAct (m : Engine) (code : Nat) : Option RotaAct :=
  match (m.rota.inQueue 0).find? (fun a => a.code != 1) with
  | none => none
  | some a => if a.code == code && m.actReady a && !m.armAhead a then some a else none

/-- ROTA_DISARM (R17); no effect while disarmed (R184). -/
def Engine.rotaDisarm (m : Engine) : Engine :=
  match m.storeAct 2 with
  | none => m
  | some a => (m.takeAct a).disarmNow

/-- SEGMENT_NEXT (R220): a boundary before the sample cycle about to be captured; no effect while disarmed (R178). -/
def Engine.rotaSegmentNext (m : Engine) : Engine :=
  match m.storeAct 3 with
  | none => m
  | some a =>
    let m := m.takeAct a
    if m.armed then m.setStore { m.store with segNext := m.store.segNext ++ [m.cc + 1] } else m

/-- ROTA_ARM (R184): the checks go on, and a passed ARM takes effect at its due cycle. -/
def Engine.rotaArm (m : Engine) (t : Memory) : Engine :=
  if ((m.arming.bind (·.act)).isSome) then m.armingTakesEffect t else m

/-! Timebase loads (R171, R172). -/

/-- TB_LOAD (R171): refused while armed, at a tributary, and while a load is pending; else pending until the next boundary. DESIGN CHOICE: notes/assumptions/3.md. -/
def Engine.tbLoadReq (m : Engine) : Engine :=
  if m.armed || m.flag R.TB_STATUS_TRIB || m.tbLoad.isSome then (m.setFlag R.TB_CTL_LOAD m.tbLoad.isSome).setFlag R.TB_STATUS_REFUSED true
  else ({ m with tbLoad := some (cycleOf (m.reg64 R.TB_LOADVAL_LO)) }.setFlag R.TB_CTL_LOAD true).setFlag R.TB_STATUS_REFUSED false

/-- Instants of the gate unit move with TB: what was k ticks ahead stays k ticks ahead. DEDUCED: notes/assumptions/76.md. -/
def Engine.shiftGates (m : Engine) (d : Tb) : Engine :=
  { m with gateOrders := m.gateOrders.map (fun o => { o with tick := o.tick + d })
           gate := { m.gate with pulses := m.gate.pulses.map (fun p => (p.1, p.2 + d)) } }

/-- An accepted load takes effect at the boundary (R171, R185). -/
def Engine.tbLoadEffect (m : Engine) : Engine :=
  match m.tbLoad with
  | none => m
  | some c =>
    let m := { m with tbLoad := none }
    let m := (m.shiftGates (tbOfCycle c - tbOfCycle (m.cycle + 1))).rotaHalt
    let m := m.setRota { m.rota with refTb := none }
    (({ m with tb := tbOfCycle c - 16 }.setFlag R.TB_CTL_LOAD false).setFlag R.TB_STATUS_DAMREC false).status R.E_TB_LOADED

/-- TB_WRAP (R172). -/
def Engine.tbWrap (m : Engine) : Engine := if m.wrapDue then ({ m with wrapDue := false }).status R.E_TB_TB_WRAP else m

end Sys2Proof.Machine
end

