-- ==== Sys2Proof/Machine/Clk.lean ====
section
/-! DEFINITION. The headrace and its reference (R18, R19, R22, R23). -/
namespace Sys2Proof.Machine

/-- The headrace moves to a source by slew (R23); how long that takes is open. -/
def Engine.slewTo (m : Engine) (src : Nat) : Engine :=
  let (k, m) := m.draw
  { (m.setFld R.CLK_STATUS_INUSE src).setFlag R.CLK_STATUS_SLEWING true with slewEnd := some (m.cc + Config.slewTime k) }

/-- A slew that has ended is over. -/
def Engine.slewCheck (m : Engine) : Engine :=
  match m.slewEnd with
  | none => m
  | some t => if t ≤ m.cc then { m.setFlag R.CLK_STATUS_SLEWING false with slewEnd := none } else m

/-- Holdover (R23), a class C fault. -/
def Engine.holdover (m : Engine) : Engine :=
  if m.flag R.CLK_STATUS_HOLDOVER then m
  else
    let m := ((m.setFlag R.CLK_STATUS_HOLDOVER true).addSat R.CLK_HOLDCNT 1).status R.E_CLK_HOLDOVER
    (m.slewTo 0).logNow 5 1 0x0102 (m.fld R.CLK_REFSEL_SRC)

/-- Is a flume link UP? -/
def Engine.linkUp (m : Engine) (n : Nat) : Bool := m.fld (R.FLU_STATUS_STATE n) == 2

/-- Does the flume give a reference: from FA, or from FB while FA gives none (R22)? -/
def Engine.flumeRef (m : Engine) : Bool := m.linkUp 0 || m.linkUp 1

/-- REFERENCE_LOST (R23): a flume source falls back to FB first; the on-module oscillator is what holdover goes to. -/
def Engine.refLost (m : Engine) : Engine :=
  let s := m.fld R.CLK_REFSEL_SRC
  if !m.running || s == 0 || (s == 3 && m.flumeRef) then m else m.holdover

/-- REFERENCE_REVERT (R23). -/
def Engine.refRevert (m : Engine) : Engine :=
  let s := m.fld R.CLK_REFSEL_SRC
  if !m.running || !m.flag R.CLK_STATUS_HOLDOVER || !m.flag R.CLK_REFCTL_REVERT || (s == 3 && !m.flumeRef) then m
  else ((m.setFlag R.CLK_STATUS_HOLDOVER false).slewTo s).status R.E_CLK_REVERT

/-- REFSEL was written over an old source (R23): the headrace follows the new one by slew, and a holdover ends. DEDUCED: notes/assumptions/72.md. -/
def Engine.refselWritten (m : Engine) (old : Nat) : Engine :=
  let s := m.fld R.CLK_REFSEL_SRC
  if s = old then m
  else
    let m := m.setFlag R.CLK_STATUS_HOLDOVER false
    if m.running then m.slewTo s else m.setFld R.CLK_STATUS_INUSE s

/-- The ring selects the flume as the reference (R248), logged as a class C fault. -/
def Engine.refFlume (m : Engine) : Engine :=
  let old := m.fld R.CLK_REFSEL_SRC
  if old = 3 then m else ((m.setFld R.CLK_REFSEL_SRC 3).refselWritten old).logNow 5 1 0x0103 3

/-- HEADRACE_SWITCHOVER (R18). -/
def Engine.switchover (m : Engine) : Engine :=
  if !m.running || !m.flag R.CLK_STATUS_REDUNDANT then m
  else
    let b := !m.flag R.CLK_STATUS_ACTIVE
    let m := (m.setFlag R.CLK_STATUS_ACTIVE b).setFlag R.CLK_STATUS_REDUNDANT false
    let m := m.setFlag (if b then R.CLK_STATUS_LOCK_A else R.CLK_STATUS_LOCK_B) false
    ((m.addSat R.CLK_SWITCHCNT 1).status R.E_CLK_SWITCH).logNow 5 1 0x0101 b.toNat

/-- PLL_RELOCK_ATTEMPT (R19): where the failed PLL relocks, it tracks the active one. -/
def Engine.relock (m : Engine) (ok : Bool) : Engine :=
  if !ok || !m.running || m.flag R.CLK_STATUS_REDUNDANT then m
  else
    let m := (m.setFlag R.CLK_STATUS_LOCK_A true).setFlag R.CLK_STATUS_LOCK_B true
    (m.setFlag R.CLK_STATUS_REDUNDANT true).status R.E_CLK_RELOCK

/-- REF_OUT (R22): the source, as REFSEL.SRC codes it, whose 100 MHz the pin carries: the one in use, the on-module oscillator in holdover; none where the pin is low. -/
def Engine.refOut (m : Engine) : Option Nat := if m.mgt.powered && m.flag R.CLK_REFSEL_REFOUT_EN then some (m.fld R.CLK_STATUS_INUSE) else none

/-- STATUS and REFOFFSET as a read shows them (R469): the pin's part is open. -/
def Engine.clkStatus (m : Engine) : Word := putBits (m.reg R.CLK_STATUS) 8 1 (Config.refSeen m.freeCtr)
def Engine.clkOffset (m : Engine) : Word := BitVec.ofNat 32 (Config.refOffset m.freeCtr)

end Sys2Proof.Machine
end

