-- ==== Sys2Proof/Machine/Ring.lean ====
section
/-! DEFINITION. Flume links and the ring (R237 to R271): flits, training, discovery, alignment, records, control traffic, link loss. -/
namespace Sys2Proof

/-- The code of a link in flits and registers: 0 FA, 1 FB. -/
def Side.code : Side → Nat
  | .fa => 0 | .fb => 1

/-- The other link. -/
def Side.other : Side → Side
  | .fa => .fb | .fb => .fa

/-- A record's 20 bits (R254). -/
def EvRec.word (r : EvRec) : Nat := 1 + r.bits.val * 2 + r.tick.val * 2 ^ 5 + r.cyc.val * 2 ^ 9 + r.hops.val * 2 ^ 17

end Sys2Proof

namespace Sys2Proof.Machine

/-! Flits (R238 to R241). -/

/-- CLASS and KIND (R241). -/
def FlitBody.kind : FlitBody → Nat × Nat
  | .sync .. => (1, 0) | .dreq .. => (1, 1) | .drsp .. => (1, 2)
  | .ev .. => (2, 0) | .settle .. => (2, 1) | .dam .. => (2, 2) | .release .. => (2, 3)
  | .hello .. => (3, 0) | .assign .. => (3, 1) | .linkstate .. => (3, 2) | .cwr .. => (3, 3) | .crd .. => (3, 4) | .crsp .. => (3, 5)
  | .hostreq .. => (3, 6) | .ack .. => (3, 7) | .modeset .. => (3, 8)
  | .dmahdr .. => (4, 0) | .cplhdr .. => (4, 1) | .payload .. => (4, 2)

/-- The 224 bits of BODY (R241). -/
def FlitBody.bits : FlitBody → Nat
  | .sync tbh corr hops mode funnel present =>
    tbh + (corr % 2 ^ 24) * 2 ^ 64 + hops * 2 ^ 88 + mode.toNat * 2 ^ 91 + funnel.toNat * 2 ^ 92 + present * 2 ^ 96
  | .dreq t1 => t1
  | .drsp t1 t2 t3 => t1 + t2 * 2 ^ 64 + t3 * 2 ^ 128
  | .ev recs => recs.foldl (fun a r => a ||| r.word * 2 ^ (20 * r.origin.val)) 0
  | .settle tb cause origin hops => tb + cause * 2 ^ 64 + origin * 2 ^ 80 + hops * 2 ^ 83
  | .dam tb origin driver hops => tb + origin * 2 ^ 64 + driver.toNat * 2 ^ 67 + hops * 2 ^ 68
  | .release origin hops => origin * 2 ^ 64 + hops * 2 ^ 67
  | .hello id port pref hostup hostage stackCount hops =>
    id + port.code * 2 ^ 64 + pref * 2 ^ 65 + hostup.toNat * 2 ^ 67 + hostage * 2 ^ 68 + stackCount * 2 ^ 100 + hops * 2 ^ 102
  | .assign id pos up => id + pos * 2 ^ 64 + up.toNat * 2 ^ 67
  | .linkstate pos port up hops armed => pos * 2 ^ 64 + port.code * 2 ^ 67 + up.toNat * 2 ^ 68 + hops * 2 ^ 69 + armed.toNat * 2 ^ 72
  | .cwr seq offset data => seq + offset * 2 ^ 16 + data * 2 ^ 36
  | .crd seq offset => seq + offset * 2 ^ 16
  | .crsp seq req data result => seq + req * 2 ^ 16 + data * 2 ^ 32 + result * 2 ^ 64
  | .hostreq seq type tag offset length data => seq + type * 2 ^ 16 + tag * 2 ^ 24 + offset * 2 ^ 32 + length * 2 ^ 72 + data * 2 ^ 96
  | .ack seq nak => seq + nak.toNat * 2 ^ 16
  | .modeset tb mode => tb + mode.toNat * 2 ^ 64
  | .dmahdr seq addr length drain => seq + addr * 2 ^ 16 + length * 2 ^ 80 + drain * 2 ^ 93
  | .cplhdr seq tag length status => seq + tag * 2 ^ 16 + length * 2 ^ 24 + status * 2 ^ 37
  | .payload seq bytes => seq + bytes * 2 ^ 32

/-- One byte of the flit CRC (R239): polynomial 0x1021, most significant bit first. -/
def crc16Byte (c : BitVec 16) (b : Byte) : BitVec 16 :=
  (List.range 8).foldl (fun (c : BitVec 16) _ => if c.getLsbD 15 then (c <<< 1) ^^^ 0x1021#16 else c <<< 1) (c ^^^ (b.setWidth 16 <<< 8))

/-- The flit CRC of a list of bytes (R239). -/
def crc16 (bs : List Byte) : BitVec 16 := bs.foldl crc16Byte 0xFFFF#16

/-- The 256 bits of a flit (R238). -/
def Flit.word (f : Flit) : Nat :=
  let low := f.body.kind.1 + f.body.kind.2 * 2 ^ 3 + f.src * 2 ^ 8 + f.dst * 2 ^ 11 + f.body.bits * 2 ^ 16
  low + (crc16 (bytesLE 30 low)).toNat * 2 ^ 240

/-! Links and slots. -/

/-- Change the ring. -/
def Engine.setRing (m : Engine) (r : RingState) : Engine := { m with ring := r }

/-- One link's state. -/
def Engine.link (m : Engine) (s : Side) : LinkState := match s with | .fa => m.ring.fa | .fb => m.ring.fb

/-- Change one link. -/
def Engine.setLink (m : Engine) (s : Side) (l : LinkState) : Engine :=
  match s with | .fa => m.setRing { m.ring with fa := l } | .fb => m.setRing { m.ring with fb := l }

/-- Is a link UP? -/
def Engine.sideUp (m : Engine) (s : Side) : Bool := m.linkUp s.code

/-- The module's ring position, its role and the ring's size. -/
def Engine.pos (m : Engine) : Nat := m.fld R.RING_STATUS_POS
def Engine.role (m : Engine) : Nat := m.fld R.RING_STATUS_ROLE
def Engine.ringSize (m : Engine) : Nat := m.fld R.RING_STATUS_RINGSIZE

/-- A flit goes to a link that is UP and waits for its slot. -/
def Engine.send (m : Engine) (s : Side) (dst : Nat) (b : FlitBody) : Engine :=
  if m.sideUp s then let l := m.link s; m.setLink s { l with tx := l.tx ++ [⟨m.pos, dst, b⟩] } else m

/-- A flit of another module is passed on with its own source. -/
def Engine.relay (m : Engine) (s : Side) (src dst : Nat) (b : FlitBody) : Engine :=
  if m.sideUp s then let l := m.link s; m.setLink s { l with tx := l.tx ++ [⟨src, dst, b⟩] } else m

/-- A flit goes out of both links. -/
def Engine.sendBoth (m : Engine) (b : FlitBody) : Engine := (m.send .fa 0 b).send .fb 0 b

/-- Forwarding as R254 gives it: HOPS grows by 1, and a flit whose HOPS reaches RINGSIZE - 1 goes no further. -/
def Engine.goesOn (m : Engine) (hops : Nat) : Bool := decide (hops + 1 < m.ringSize - 1)

/-- A record joins the EV flit that waits on a link, or a new one (R254). -/
def Engine.sendEv (m : Engine) (s : Side) (r : EvRec) : Engine :=
  if !m.sideUp s then m
  else
    let l := m.link s
    let joins : Flit → Bool := fun f => match f.body with | .ev rs => !rs.any (fun x => x.origin == r.origin && x.cyc != r.cyc) | _ => false
    let put := fun (rs : List EvRec) =>
      if rs.any (fun x => x.origin == r.origin) then rs.map (fun x => if x.origin == r.origin then { x with bits := Fin.ofNat 16 (x.bits.val ||| r.bits.val), tick := r.tick } else x)
      else rs ++ [r]
    if l.tx.any joins then
      m.setLink s { l with tx := l.tx.map (fun f => if joins f then (match f.body with | .ev rs => { f with body := .ev (put rs) } | _ => f) else f) }
    else m.setLink s { l with tx := l.tx ++ [⟨m.pos, 0, .ev [r]⟩] }

/-- The first waiting flit of the lowest class (R240), an EVENT flit only where the cycle has sent none yet; with the flits left. DESIGN CHOICE: notes/assumptions/64.md. -/
def nextFlit (evSent : Bool) (l : List Flit) : Option (Flit × List Flit) :=
  let ok := fun (f : Flit) c => f.body.kind.1 == c && !(c == 2 && evSent)
  match (([1, 2, 3, 4] : List Nat)).findSome? (fun c => l.find? (fun f => ok f c)) with
  | none => none
  | some f => some (f, l.erase f)

/-- A link's slots in one CCLK cycle: three in every two cycles (R238, R240). -/
def LinkState.slots (l : LinkState) : LinkState :=
  let go := fun (acc : List Flit × List Flit) =>
    match nextFlit (acc.1.any (fun f => f.body.kind.1 == 2)) acc.2 with
    | none => acc
    | some (f, rest) => (acc.1 ++ [f], rest)
  let one := go ([], l.tx)
  let two := if l.turn then go one else one
  { l with sent := two.1, tx := two.2, turn := !l.turn }

/-- Both links' slots in one CCLK cycle: what the cycle has left waiting, its steps' records among it (R254), leaves in the order of the classes. In a dam the links go on
without the core clock (R237, R270). DESIGN CHOICE: notes/assumptions/103.md. -/
def Engine.linkSlots (m : Engine) : Engine := m.setRing { m.ring with fa := m.ring.fa.slots, fb := m.ring.fb.slots }

/-! Membership and reach (R246, R265). -/

/-- The positions held, ascending. DEDUCED: notes/assumptions/67.md. -/
def Engine.present (m : Engine) : List Nat := (List.range 8).filter (fun q => bitAt (m.fld R.RING_MEMBERS_PRESENT) q)

/-- Is the link from position p's FB to position q's FA known to be down? The module's own ends are its links' states. -/
def Engine.hopBroken (m : Engine) (p q : Nat) : Bool :=
  let down := fun (x : Nat) (s : Side) => if x = m.pos then !m.sideUp s else m.ring.downEnds.contains (x, s)
  down p .fb || down q .fa

/-- The position after p downstream among those held. -/
def nextPos (l : List Nat) (p : Nat) : Nat := ((l.find? (fun q => decide (p < q))).orElse (fun _ => l.head?)).getD p

/-- The position before p. -/
def prevPos (l : List Nat) (p : Nat) : Nat := ((l.reverse.find? (fun q => decide (q < p))).orElse (fun _ => l.getLast?)).getD p

/-- The positions reached going downstream, or upstream, nearest first, until a broken hop. -/
def Engine.walk (m : Engine) (down : Bool) : Nat → Nat → List Nat
  | 0, _ => []
  | k + 1, p =>
    let q := if down then nextPos m.present p else prevPos m.present p
    if q = m.pos ∨ (if down then m.hopBroken p q else m.hopBroken q p) then [] else q :: m.walk down k q

/-- The positions with a path to this module, its own included. -/
def Engine.reachSet (m : Engine) : Nat :=
  if m.ringSize = 0 then 0
  else (m.walk true 8 m.pos ++ m.walk false 8 m.pos).foldl (fun a q => a ||| 2 ^ q) (2 ^ m.pos)

/-- MEMBERS.REACH follows the breaks (R265): in lockstep a module that loses a position settles with cause 6; a tributary that loses the head enters holdover and is
no longer LOCKED (R253). -/
def Engine.reachUpdate (m : Engine) : Engine :=
  if m.ringSize = 0 then m
  else
  let old := m.fld R.RING_MEMBERS_REACH
  let new := m.reachSet
  let m := m.setFld R.RING_MEMBERS_REACH new
  let present := m.fld R.RING_MEMBERS_PRESENT
  let m := if m.flag R.RING_STATUS_MODE && new != old && present &&& new != present then m.cause 6 new 0xF2 else m
  if m.role = 2 then
    let lost := !bitAt new 0
    let m := if lost && !m.flag R.RING_STATUS_HOLDOVER then ((m.setFld R.RING_STATUS_STATE 3).setRing { m.ring with lockCount := 0 }).holdover else m
    m.setFlag R.RING_STATUS_HOLDOVER lost
  else m

/-- PRESENT takes a value, and RINGSIZE with it; at the head of a closed ring RINGSIZE is what the ASSIGN that came back carried (R246). -/
def Engine.setPresent (m : Engine) (bits : Nat) : Engine :=
  let m := m.setFld R.RING_MEMBERS_PRESENT bits
  (if m.role = 1 ∧ m.flag R.RING_STATUS_CLOSED then m else m.setFld R.RING_STATUS_RINGSIZE ((List.range 8).countP (fun q => bitAt bits q))).reachUpdate

/-- A LINKSTATE for each link goes out of both links (R265), with the arming state; the module's own ARMED bit follows. -/
def Engine.sendLinkState (m : Engine) (s : Side) : Engine :=
  let armed := m.flag R.SYS_STATUS_ARMED
  if m.role = 0 then m
  else
    let a := m.fld R.RING_MEMBERS_ARMED
    let m := m.setFld R.RING_MEMBERS_ARMED (if armed then a ||| 2 ^ m.pos else a &&& (255 - 2 ^ m.pos))
    m.sendBoth (.linkstate m.pos s (m.sideUp s) 0 armed)

/-- The arming state has changed: LINKSTATE for both links (R265). -/
def Engine.armedReport (m : Engine) : Engine :=
  let armed := m.flag R.SYS_STATUS_ARMED
  if armed = m.ring.armedSeen then m else ((m.setRing { m.ring with armedSeen := armed }).sendLinkState .fa).sendLinkState .fb

/-- A link has changed state, not to or from UP (R265). -/
def Engine.linkChanged (m : Engine) (s : Side) : Engine := if m.role = 0 then m else (m.sendLinkState s).status R.E_RING_TOPOLOGY

/-! Training (R242). -/

/-- LINK_UP: a link that trains comes UP, or enters MISWIRED where the peer's port has its own name. -/
def Engine.linkCameUp (m : Engine) (s : Side) (peer : Side) : Engine :=
  let n := s.code
  let st := m.fld (R.FLU_STATUS_STATE n)
  if !m.flag (R.FLU_CTL_EN n) || !m.running || st == 2 || st == 3 then m
  else
    let m := (m.setFlag (R.FLU_CTL_RETRAIN n) false).setFld (R.FLU_STATUS_PEER_PORT n) peer.code
    let m := m.setFld (R.FLU_STATUS_LANES n) 0xFF
    if s = peer then ((m.setFld (R.FLU_STATUS_STATE n) 3).status (R.E_FLU_MISWIRED n)).linkChanged s
    else
      let m := (m.setFld (R.FLU_STATUS_STATE n) 2).status (R.E_FLU_UP n)
      let m := m.setLink s { m.link s with upAt := some m.cc, crcAt := [], flights := [] }
      ((m.sendLinkState s).reachUpdate).status R.E_RING_TOPOLOGY

/-- What was sent by a link to the positions that it no longer leads to goes out again by the other (R266). -/
def Engine.resendFrom (m : Engine) (s : Side) (gone : Nat → Bool) : Engine :=
  let broken := fun (u : Unacked) => u.side == s && gone u.flit.dst
  let moved := m.ring.unacked.filter broken
  let m := m.setRing { m.ring with unacked := m.ring.unacked.map (fun u => if broken u then { u with side := s.other, since := m.cc } else u) }
  moved.foldl (fun m u => m.relay s.other u.flit.src u.flit.dst u.flit.body) m

/-- The positions reached by a link, nearest first. -/
def Engine.reachedBy (m : Engine) (s : Side) : List Nat := m.walk (s == .fb) 8 m.pos

/-- A break elsewhere on the ring (R266): each side's flits to positions that only the other side still reaches. -/
def Engine.resendBroken (m : Engine) : Engine :=
  let turn := fun (m : Engine) (s : Side) => m.resendFrom s (fun q => !(m.reachedBy s).contains q && (m.reachedBy s.other).contains q)
  turn (turn m .fa) .fb

/-- A link leaves UP, TRAINING or MISWIRED (R242, R265, R266), for DOWN or, on RETRAIN, for TRAINING. -/
def Engine.linkLeaves (m : Engine) (s : Side) (dest : Nat) : Engine :=
  let n := s.code
  let was := m.fld (R.FLU_STATUS_STATE n)
  let m := m.setReg (R.FLU_STATUS n) (BitVec.ofNat 32 dest)
  let m := m.setReg (R.FLU_HOPDLY n) 0
  let m := if dest = 0 then m.setFlag (R.FLU_CTL_RETRAIN n) false else m
  let m := m.setLink s { m.link s with tx := [], flights := [], failAt := some m.cc }
  if was ≠ 2 then (if was = dest then m else m.linkChanged s)
  else
    let m := ((m.addSat (R.FLU_DOWNCNT n) 1).status (R.E_FLU_DOWN n)).logNow (0xF0 + n) 1 0x0106 n
    let m := m.resendFrom s (fun _ => true)
    ((m.sendLinkState s).reachUpdate).status R.E_RING_TOPOLOGY

/-- LINK_DOWN. -/
def Engine.linkWentDown (m : Engine) (s : Side) : Engine := if m.fld (R.FLU_STATUS_STATE s.code) = 0 then m else m.linkLeaves s 0

/-- LINK_RETRAIN: a link that is DOWN trains again. -/
def Engine.linkRetries (m : Engine) (s : Side) : Engine :=
  if m.running && m.flag (R.FLU_CTL_EN s.code) && m.fld (R.FLU_STATUS_STATE s.code) == 0 then (m.setFld (R.FLU_STATUS_STATE s.code) 1).linkChanged s else m

/-- FLU.CTL was written (R274): a link that is disabled goes DOWN, one that is enabled trains, and RETRAIN forces training. -/
def Engine.fluCtl (m : Engine) (s : Side) (retrain : Bool) : Engine :=
  if !m.flag (R.FLU_CTL_EN s.code) then m.linkWentDown s
  else if retrain && m.running then (m.linkLeaves s 1).setFlag (R.FLU_CTL_RETRAIN s.code) true
  else m.linkRetries s

/-- FLIT_CRC_FAILURE (R239): the sixteenth within 1,024 CCLK takes the link DOWN (R242). -/
def Engine.flitCrc (m : Engine) (s : Side) : Engine :=
  let n := s.code
  if !m.sideUp s then m
  else
    let m := (m.addSat (R.FLU_CRCERR n) 1).status (R.E_FLU_CRCERR n)
    let at_ := (m.cc :: (m.link s).crcAt).take 16
    let m := m.setLink s { m.link s with crcAt := at_, failAt := some m.cc }
    if at_.length = 16 ∧ m.cc < nth at_ 15 0 + 1024 then m.linkWentDown s else m

/-! Discovery (R243 to R247). -/

/-- HEADPREF from the fuse row in force (R457). -/
def Engine.headPref (m : Engine) : Nat := bitsOf (m.reg (R.MGT_FUSEROW 1)).toNat 16 2

/-- The module's ID, its HOSTUP and its HOSTAGE in µs (R243). -/
def Engine.moduleId (m : Engine) : Nat := (m.reg64 R.RING_ID_LO).toNat
def Engine.hostAge (m : Engine) : Nat := min ((m.cc - m.ring.hostSince) / 600) (2 ^ 32 - 1)

/-- Discovery is under way from the first HELLO on (R277). DEDUCED: notes/assumptions/145.md. -/
def Engine.discovering (m : Engine) : Engine :=
  if m.role = 0 ∧ !m.ring.positioned ∧ m.fld R.RING_STATUS_STATE = 0 then m.setFld R.RING_STATUS_STATE 1 else m

/-- HELLO_SEND: one HELLO on each UP link (R243). DESIGN CHOICE: notes/assumptions/11.md. -/
def Engine.helloSend (m : Engine) : Engine :=
  if !m.running then m
  else
    let m := m.discovering
    let h := fun s => FlitBody.hello m.moduleId s m.headPref m.ring.hostUp m.hostAge (bitsOf (m.reg R.SYS_IDENT).toNat 0 2) 0
    (m.send .fa 0 (h .fa)).send .fb 0 (h .fb)

/-- HELLO (R243): recorded, and forwarded until HOPS reaches 7; the peer's own HELLO gives PEER_ID. -/
def Engine.helloHeard (m : Engine) (s : Side) (src id : Nat) (port : Side) (pref : Nat) (hostup : Bool) (hostage stackCount hops : Nat) : Engine :=
  if !m.running || !m.sideUp s then m
  else
    let n := s.code
    let m := m.discovering
    let m := if hops = 0 then (m.setReg64 (R.FLU_PEER_ID_LO n) (BitVec.ofNat 64 id)).setFld (R.FLU_STATUS_PEER_PORT n) port.code else m
    let known := m.ring.heard.any (fun h => h.id == id)
    let m := if id = m.moduleId then m
      else
        let h : Heard := ⟨id, pref, hostup, hostage, stackCount, src⟩
        if known then m.setRing { m.ring with heard := m.ring.heard.map (fun x => if x.id == id then h else x) }
        else m.setRing { m.ring with heard := m.ring.heard ++ [h], lastNew := m.cc }
    if hops < 7 then m.relay s.other src 0 (.hello id port pref hostup hostage stackCount (hops + 1)) else m

/-- HOST_LINK_L0 (R243): the host link enters L0. -/
def Engine.hostLinkL0 (m : Engine) : Engine := m.setRing { m.ring with hostUp := true, hostSince := m.cc }

/-- The host link leaves L0. -/
def Engine.hostLinkLeft (m : Engine) : Engine := m.setRing { m.ring with hostUp := false }

/-- Does a module rank before another (R244)? -/
def ranksBefore (a b : Heard) : Bool :=
  if (a.pref == 1) != (b.pref == 1) then a.pref == 1
  else if a.hostup != b.hostup then a.hostup
  else if a.hostage != b.hostage then decide (b.hostage < a.hostage)
  else decide (a.id < b.id)

/-- The module itself, as the others hear it. -/
def Engine.selfHeard (m : Engine) : Heard := ⟨m.moduleId, m.headPref, m.ring.hostUp, m.hostAge, 0, m.pos⟩

/-- The cycle from which the 1 ms of the ranking counts (R244, R449): after power-up not before each link is UP or has trained for 4 ms. -/
def Engine.rankBase (m : Engine) : Nat :=
  let ready := fun (s : Side) => match (m.link s).upAt with | some c => min c (m.ring.start + 2400000) | none => m.ring.start + 2400000
  if m.ring.fresh then max m.ring.lastNew (max (ready .fa) (ready .fb)) else m.ring.lastNew

/-- HEAD_ELECTION (R244): 1 ms without a new ID. The module ranked first becomes the head; one that heard none, or only NEVER ones ranked above it, stays ALONE. DEDUCED: notes/assumptions/66.md. -/
def Engine.headElection (m : Engine) : Engine :=
  if !m.running || m.role != 0 || m.ring.positioned || decide (m.cc < m.rankBase + 600000) then m
  else
    let self := m.selfHeard
    let others := m.ring.heard
    let able := (others ++ [self]).filter (fun h => h.pref != 2)
    let m := (m.setRing { m.ring with fresh := false }).setReg R.RING_TBERR 0
    if others.all (fun h => h.pref == 2 && ranksBefore h self) ∨ able.isEmpty then
      let m := (m.setRing { m.ring with positioned := true }).setFlag R.RING_CTL_REDISCOVER false
      ((m.setFld R.RING_STATUS_STATE 2).setPresent 1)
    else if able.all (fun h => h == self || ranksBefore self h) && self.pref != 2 then
      let m := (m.setFld R.RING_STATUS_ROLE 1).setFld R.RING_STATUS_STATE 4
      let m := (m.setRing { m.ring with positioned := true, assignAt := some m.cc, assignUp := false }).status R.E_RING_POSITION
      let m := if 7 < others.length then m.setReg R.RING_REASON 6 else m
      (m.setPresent 1).send .fb 0 (.assign m.moduleId 1 false)
    else m.setFld R.RING_STATUS_STATE 1

/-- A position is taken (R245, R248): the module is a tributary, aligns its TB and selects the flume reference. -/
def Engine.takePosition (m : Engine) (p : Nat) : Engine :=
  let m := ((m.setFld R.RING_STATUS_ROLE 2).setFld R.RING_STATUS_POS p).setFld R.RING_STATUS_STATE 3
  let m := (m.setRing { m.ring with positioned := true, fresh := false, lockCount := 0 }).status R.E_RING_POSITION
  let m := (m.setFlag R.TB_STATUS_TRIB true).setFlag R.RING_CTL_REDISCOVER false
  if m.flag R.RING_CTL_AUTOREF then m.refFlume else m

/-- ASSIGN (R245): downstream it comes in on FA, upstream on FB. At the head's FA it closes the ring, and the position it carries, 8 as 0, is RINGSIZE. -/
def Engine.assignHeard (m : Engine) (s : Side) (id pos : Nat) (up : Bool) : Engine :=
  if !m.running || !m.sideUp s || s != (if up then .fb else .fa) then m
  else if m.role = 1 then
    if up then m else ((m.setFlag R.RING_STATUS_CLOSED true).setFld R.RING_STATUS_RINGSIZE (if pos = 0 then 8 else pos)).setFlag R.RING_CTL_REDISCOVER false
  else if m.role ≠ 0 ∨ m.ring.positioned then m
  else if pos = 0 ∨ m.ring.heldPos.contains pos then
    (((m.setRing { m.ring with positioned := true }).setFld R.RING_STATUS_STATE 2).setFlag R.RING_CTL_REDISCOVER false).setPresent 1
  else
    let m := m.takePosition pos
    let m := m.send (if up then .fa else .fb) 0 (.assign id (if up then pos - 1 else (pos + 1) % 8) up)
    (m.sendLinkState .fa).sendLinkState .fb

/-- ASSIGN_TIMEOUT (R245): the ring is a chain, and the head assigns upstream. -/
def Engine.assignTimeout (m : Engine) : Engine :=
  match m.ring.assignAt with
  | none => m
  | some t =>
    if m.role ≠ 1 ∨ m.flag R.RING_STATUS_CLOSED ∨ m.ring.assignUp ∨ m.cc < t + 600000 then m
    else
      let m := (m.setRing { m.ring with assignAt := some m.cc, assignUp := true }).setFlag R.RING_CTL_REDISCOVER false
      m.send .fa 0 (.assign m.moduleId 7 true)

/-- LINKSTATE (R246, R265): the link end, the reporter's arming, and at the head its presence. -/
def Engine.linkStateHeard (m : Engine) (s : Side) (pos : Nat) (port : Side) (up : Bool) (hops : Nat) (armed : Bool) : Engine :=
  if !m.running || !m.sideUp s then m
  else
    let n := s.code
    let m := if hops = 0 then (m.setFld (R.FLU_STATUS_PEER_POS n) pos).setFlag (R.FLU_STATUS_PEER_POSV n) true else m
    let m := if m.role ≠ 0 ∧ pos = m.pos then m
      else
        let known := m.ring.downEnds.contains (pos, port)
        let (k, m) := m.draw
        let m := m.setRing { m.ring with remote := k, heldPos := pos :: m.ring.heldPos.filter (· != pos), downEnds := if up then m.ring.downEnds.filter (· != (pos, port)) else if known then m.ring.downEnds else m.ring.downEnds ++ [(pos, port)] }
        let a := m.fld R.RING_MEMBERS_ARMED
        let m := m.setFld R.RING_MEMBERS_ARMED (if armed then a ||| 2 ^ pos else a &&& (255 - 2 ^ pos))
        let m := if known = up then m.status R.E_RING_TOPOLOGY else m
        let m := if up then m else m.resendBroken
        let timely := match m.ring.assignAt with | some t => decide (m.cc ≤ t + 600000) | none => false
        if m.role == 1 && timely then m.setPresent (m.fld R.RING_MEMBERS_PRESENT ||| 2 ^ pos) else m.reachUpdate
    if hops < 7 ∧ !(m.role != 0 && pos == m.pos) then m.relay s.other pos 0 (.linkstate pos port up (hops + 1) armed) else m

/-! Delay exchange and alignment (R249 to R253). -/

/-- A stamp in 1/64 tk, `at_` of them into the coming cycle (R241). -/
def Engine.stamp (m : Engine) (at_ : Nat) : Nat := (tbOfCycle m.nextCycle).toNat % 2 ^ 58 * 64 + at_

/-- DELAY_EXCHANGE: a DREQ on each UP link (R249). -/
def Engine.delayExchange (m : Engine) (at_ : Nat) : Engine := if m.running then m.sendBoth (.dreq (m.stamp at_)) else m

/-- DREQ: answered with the stamps of its arrival and of the answer's departure (R249). -/
def Engine.dreqHeard (m : Engine) (s : Side) (t1 at_ stay : Nat) : Engine :=
  if m.running && m.sideUp s then m.send s 0 (.drsp t1 (m.stamp at_) ((m.stamp at_ + stay) % 2 ^ 64)) else m

/-- The difference of two 64-bit stamps, signed. -/
def stampDiff (a b : Nat) : Int := signedOf 64 ((a + (2 ^ 64 - b % 2 ^ 64)) % 2 ^ 64)

/-- DRSP: the one-way flight, its mean over the last 16, and the hop delay (R249). DEDUCED: notes/assumptions/69.md. -/
def Engine.drspHeard (m : Engine) (s : Side) (t1 t2 t3 at_ : Nat) : Engine :=
  if !m.running || !m.sideUp s then m
  else
    let f := (stampDiff (m.stamp at_) t1 - stampDiff t3 t2) / 2
    let fs := (f :: (m.link s).flights).take 16
    let mean := (fs.foldl (· + ·) 0 / (fs.length : Int)).toNat
    let m := m.setLink s { m.link s with flights := fs }
    let m := m.setFld (R.FLU_FLIGHT_FLIGHT s.code) mean
    m.setFld (R.FLU_HOPDLY_CCLK s.code) (10 + (mean + 1023) / 1024)

/-- SYNC_SEND: the head's SYNC out of both links (R250). -/
def Engine.syncSend (m : Engine) : Engine :=
  if !m.running || m.role != 1 then m
  else m.sendBoth (.sync (tbOfCycle m.nextCycle).toNat 0 0 (m.flag R.RING_STATUS_MODE) (m.flag R.RING_STATUS_FUNNEL) (m.fld R.RING_MEMBERS_PRESENT))

/-- The instant of the coming boundary moves by a number of ticks (R251): whole cycles in TB, and the sampler grid slips by all of them. DEDUCED: notes/assumptions/68.md. -/
def Engine.coarseShift (m : Engine) (ticks : Int) : Engine :=
  { m with tb := m.tb - BitVec.ofInt 64 (16 * (ticks / 16)), ring := { m.ring with grid := m.ring.grid - ticks } }

/-- The error rounded to whole ticks. -/
def wholeTicks (e : Int) : Int := (e + 32) / 64

/-- One fine step against an error left, within the range of ±2 tk (R251). -/
def fineStep (phase e : Int) : Int := max (-128) (min 128 (phase - e.sign))

/-- A tributary aligns to a SYNC's error (R251, R253): while disarmed beyond 2 tk coarsely, at every SYNC a fine step against what is left; armed, the end of the fine range
or an error above 4 tk is alignment lost. -/
def Engine.align (m : Engine) (e : Int) : Engine :=
  let m := m.setReg R.RING_TBERR (BitVec.ofInt 32 e)
  let armed := m.flag R.SYS_STATUS_ARMED
  let ticks := if !armed && decide (128 < e.natAbs) then wholeTicks e else 0
  let m := m.coarseShift ticks
  let m := m.setRing { m.ring with phase := fineStep m.ring.phase (e - 64 * ticks) }
  let bad := armed && (decide (m.ring.phase.natAbs = 128) || decide (256 < e.natAbs))
  let m := if bad && !m.ring.alignBad then
      ((m.status R.E_RING_ALIGN_LOST).logNow 0xF2 2 0x020C ((BitVec.ofInt 32 e).toNat)).setFld R.RING_STATUS_STATE 3
    else m
  let good := !bad && decide (e.natAbs ≤ 32)
  let k := if good then m.ring.lockCount + 1 else 0
  let m := m.setRing { m.ring with alignBad := bad, lockCount := min k 16 }
  if 16 ≤ k ∧ m.fld R.RING_STATUS_STATE ≠ 4 then (m.setFld R.RING_STATUS_STATE 4).status R.E_RING_LOCKED else m

/-- SYNC (R250, R251): relayed with its correction; the first of each period aligns a tributary. -/
def Engine.syncHeard (m : Engine) (s : Side) (tbh corr hops : Nat) (mode funnel : Bool) (present at_ stay : Nat) : Engine :=
  if !m.running || !m.sideUp s || m.role != 2 then m
  else
    let flight := m.fld (R.FLU_FLIGHT_FLIGHT s.code)
    let own := m.stamp at_
    let again := match m.ring.syncAt with | some t => decide ((stampDiff tbh t).natAbs < 2 ^ 15) | none => false
    let (k, m) := m.draw
    let m := m.setRing { m.ring with remote := k }
    let m := if again then m
      else
        let m := m.setRing { m.ring with syncAt := some tbh }
        let m := if present = m.fld R.RING_MEMBERS_PRESENT then m
          else
            let m := m.setPresent present
            let l := m.present
            m.setFlag R.RING_STATUS_CLOSED (decide (1 < l.length) && l.all (fun p => !m.hopBroken p (nextPos l p)))
        let m := m.setFlag R.RING_STATUS_FUNNEL funnel
        m.align (stampDiff own ((tbh * 64 + corr + flight) % 2 ^ 64))
    if m.goesOn hops then m.relay s.other 0 0 (.sync tbh ((corr + stay + flight) % 2 ^ 24) (hops + 1) mode funnel present) else m

/-! Records (R254 to R258). -/

/-- A module's own record: it enters X with the lag of 8 in local mode and of 104 in lockstep (R255, R256). -/
def Engine.ownRecord (m : Engine) (n bits tick : Nat) (alone : Bool) : Engine :=
  let p := n + (if m.flag R.RING_STATUS_MODE then 104 else 8)
  let same := fun (f : FluBits) => f.phys == p && f.pos == m.pos
  let q := m.path
  if q.fluX.any same then
    { m with path := { q with fluX := q.fluX.map (fun f => if same f then { f with bits := f.bits ||| bits, tick := if alone then f.tick else tick } else f) } }
  else { m with path := { q with fluX := q.fluX ++ [⟨p, m.pos, bits, tick⟩] } }

/-- The record of the step that judged the sample cycle captured in cycle n goes out of both links (R254). -/
def Engine.originate (m : Engine) (n bits tick : Nat) (alone : Bool) : Engine :=
  let m := m.ownRecord n bits tick alone
  let tick := ((m.path.fluX.find? (fun f => f.phys == n + (if m.flag R.RING_STATUS_MODE then 104 else 8) && f.pos == m.pos)).map (·.tick)).getD tick
  let cyc := (m.cycle + 2 ^ 8 * m.cc - (m.cc - n)) % 256
  let r : EvRec := ⟨Fin.ofNat 8 m.pos, Fin.ofNat 16 bits, Fin.ofNat 16 tick, Fin.ofNat 256 cyc, 0⟩
  (m.sendEv .fa r).sendEv .fb r

/-- FLUME_BCAST (R254): its bits count as a record of the step that runs in the cycle. -/
def Engine.rotaBcast (m : Engine) : Engine :=
  match m.actAt 3 0xC with
  | none => m
  | some a => (m.takeAct a).originate (m.cc + 1 - 24 - m.lag) (bitsOf a.arg 0 4) (a.eff.toNat % 16) true

/-- One record of a received EV flit. -/
def Engine.recordHeard (m : Engine) (s : Side) (r : EvRec) : Engine :=
  if r.origin.val = m.pos then m
  else
    let phys := m.cc - (m.cycle + 256 - r.cyc.val) % 256
    let m := if m.goesOn r.hops.val then m.sendEv s.other { r with hops := r.hops + 1 } else m
    if m.ring.evSeen.contains (r.origin.val, phys) then m
    else
      let m := m.setRing { m.ring with evSeen := (r.origin.val, phys) :: m.ring.evSeen.filter (fun e => decide (m.cc < e.2 + 256)) }
      if m.flag R.RING_STATUS_MODE then
        let p := phys + 104
        if p + 18 + 96 ≤ m.cc then
          ((m.addSat R.RING_EVLATE 1).status R.E_RING_EVLATE).logNow 0xF2 2 0x020D (r.origin.val + r.cyc.val * 2 ^ 8)
        else { m with path := { m.path with fluX := m.path.fluX ++ [⟨p, r.origin.val, r.bits.val, r.tick.val⟩] } }
      else { m with path := { m.path with fluX := m.path.fluX ++ [⟨m.cc - 16, r.origin.val, r.bits.val, r.tick.val⟩] } }

/-- EV (R254): every record of the flit. -/
def Engine.evHeard (m : Engine) (s : Side) (rs : List EvRec) : Engine :=
  if m.running && m.sideUp s then rs.foldl (fun m r => m.recordHeard s r) m else m

/-- EVRISK_SPAN (R258): both inputs failed within 98 CCLK; a link that is DOWN fails now. -/
def Engine.evRisk (m : Engine) : Engine :=
  let fail := fun (s : Side) => if m.fld (R.FLU_STATUS_STATE s.code) = 0 then some m.cc else (m.link s).failAt
  match fail .fa, fail .fb with
  | some a, some b =>
    let d := if a ≤ b then b - a else a - b
    if d < 98 ∧ 1 < m.ringSize then
      let m := m.setRing { m.ring with fa := { m.ring.fa with failAt := none }, fb := { m.ring.fb with failAt := none } }
      ((m.addSat R.RING_EVRISK 1).status R.E_RING_EVRISK).logNow 0xF2 2 0x020E d
    else m
  | _, _ => m

/-! Sequenced traffic (R260 to R264, R266). -/

/-- The link on which a position is reached with fewer hops; equal ones alternate (R263). None without a path. -/
def Engine.route (m : Engine) (dst : Nat) : Option Side × Engine :=
  let d := (m.walk true 8 m.pos).idxOf? dst
  let u := (m.walk false 8 m.pos).idxOf? dst
  match d, u with
  | none, none => (none, m)
  | some _, none => (some .fb, m)
  | none, some _ => (some .fa, m)
  | some a, some b =>
    if a < b then (some .fb, m) else if b < a then (some .fa, m)
    else (some (if m.ring.alternate then .fa else .fb), m.setRing { m.ring with alternate := !m.ring.alternate })

/-- A peer's record. -/
def Engine.peer (m : Engine) (q : Nat) : Peer := nth m.ring.peers q {}
def Engine.setPeer (m : Engine) (q : Nat) (p : Peer) : Engine := m.setRing { m.ring with peers := m.ring.peers.set q p }

/-- The body of a sequenced flit with its SEQ. -/
def FlitBody.withSeq (b : FlitBody) (seq : Nat) : FlitBody :=
  match b with
  | .cwr _ o d => .cwr seq o d
  | .crd _ o => .crd seq o
  | .crsp _ r d x => .crsp seq r d x
  | .hostreq _ t g o l d => .hostreq seq t g o l d
  | .dmahdr _ a l d => .dmahdr seq a l d
  | .cplhdr _ t l x => .cplhdr seq t l x
  | .payload _ x => .payload seq x
  | b => b

/-- The link for a flit to a peer (R263): a PAYLOAD flit follows its run's header, a header takes the route; so runs alternate, not flits. -/
def Engine.runSide (m : Engine) (dst : Nat) (p : Peer) (b : FlitBody) : Option Side × Engine :=
  match b, p.run with
  | .payload .., some s => if m.sideUp s then (some s, m) else m.route dst
  | _, _ => m.route dst

/-- Waiting flits go out while fewer than 512 are unacknowledged (R264). -/
def Engine.pump (m : Engine) (dst : Nat) : Nat → Engine
  | 0 => m
  | k + 1 =>
    let p := m.peer dst
    match p.waiting with
    | [] => m
    | b :: rest =>
      if 512 ≤ m.ring.unacked.countP (fun u => u.flit.dst == dst) then m
      else
        let (side, m) := m.runSide dst p b
        let s := side.getD .fb
        let f : Flit := ⟨m.pos, dst, b.withSeq p.txSeq⟩
        let m := m.setPeer dst { p with waiting := rest, txSeq := (p.txSeq + 1) % 2 ^ 16, run := side }
        let m := m.setRing { m.ring with unacked := m.ring.unacked ++ [⟨f, p.txSeq, s, m.cc, m.cc⟩] }
        (m.send s dst f.body).pump dst k

/-- A sequenced flit is to go to a position; with the SEQ it gets (R264). DESIGN CHOICE: notes/assumptions/65.md. -/
def Engine.sendSeq (m : Engine) (dst : Nat) (b : FlitBody) : Engine × Nat :=
  let p := m.peer dst
  let seq := (p.txSeq + p.waiting.length) % 2 ^ 16
  ((m.setPeer dst { p with waiting := p.waiting ++ [b] }).pump dst 1, seq)

/-- An ACK or NAK for what a source sent in order (R264). -/
def Engine.sendAck (m : Engine) (src : Nat) (nak : Bool) : Engine :=
  let p := m.peer src
  let (side, m) := m.route src
  (m.setPeer src { p with rxOpen := 0, naked := nak }).send (side.getD .fb) src (.ack ((p.rxSeq + 2 ^ 16 - 1) % 2 ^ 16) nak)

/-- The SEQ rule at the destination (R264): is a flit the next in order? A gap is answered with one NAK, a duplicate is discarded. A run of k flits counts k. -/
def Engine.accept (m : Engine) (src seq k : Nat) : Engine × Bool :=
  let p := m.peer src
  if seq = p.rxSeq then
    let open_ := p.rxOpen + k
    let m := m.setPeer src { p with rxSeq := (seq + k) % 2 ^ 16, rxOpen := open_, rxSince := if p.rxOpen = 0 then m.cc else p.rxSince, naked := false }
    (if 64 ≤ open_ then m.sendAck src false else m, true)
  else if (seq + 2 ^ 16 - p.rxSeq) % 2 ^ 16 < 2 ^ 15 ∧ !p.naked then (m.sendAck src true, false)
  else (m, false)

/-- A flit for another position goes on along the ring; a module that holds no position passes none on. DESIGN CHOICE: notes/assumptions/144.md. -/
def Engine.passOn (m : Engine) (s : Side) (src dst : Nat) (b : FlitBody) : Engine := if m.role = 0 then m else m.relay s.other src dst b

/-- Is a sequenced flit for this module, and in order? -/
def Engine.receive (m : Engine) (s : Side) (src dst : Nat) (seq k : Nat) (b : FlitBody) : Engine × Bool :=
  if !m.sideUp s then (m, false)
  else if dst ≠ m.pos then (m.passOn s src dst b, false)
  else m.accept src seq k

/-- How many hops away a position is by the nearer way; none without a path. -/
def Engine.hopsTo (m : Engine) (q : Nat) : Option Nat :=
  match (m.reachedBy .fb).idxOf? q, (m.reachedBy .fa).idxOf? q with
  | some a, some b => some (min a b)
  | a, b => a.orElse (fun _ => b)

/-- The other modules of the ring are told of a rediscovery (R247), the farthest first. DESIGN CHOICE: notes/assumptions/144.md. -/
def Engine.tellRing (m : Engine) : Engine :=
  (List.range 8).foldl (fun m k =>
    (m.present.filter (fun q => q != m.pos && m.hopsTo q == some (7 - k))).foldl (fun m q => (m.sendSeq q (.cwr 0 R.RING_CTL ((m.reg R.RING_CTL).toNat ||| 0x10))).1) m) m

/-- REDISCOVER (R247): refused while a present module is armed; else the ring is discovered afresh. Funnel mode in force stays so until the next link reset (R262).
DEDUCED: notes/assumptions/111.md. -/
def Engine.rediscover (m : Engine) : Engine :=
  let armed := m.fld R.RING_MEMBERS_ARMED ||| (if m.flag R.SYS_STATUS_ARMED then 2 ^ m.pos else 0)
  match (List.range 8).find? (fun q => bitAt armed q) with
  | some q => m.setReg R.RING_REASON (BitVec.ofNat 32 (2 + q * 2 ^ 4))
  | none =>
    let was := m.role
    let m := if was = 0 then m else m.tellRing
    let m := m.setReg R.RING_STATUS (BitVec.ofNat 32 (1 * 2 ^ 9 + (m.flag R.RING_STATUS_FUNNEL).toNat * 2 ^ 13))
    let m := (m.setReg R.RING_MEMBERS (BitVec.ofNat 32 (m.fld R.RING_MEMBERS_FUNNEL_MAP * 2 ^ 24))).setReg R.RING_TBERR 0
    let m := m.setRing { m.ring with heard := [], lastNew := m.cc, positioned := false, assignAt := none, assignUp := false, downEnds := [], heldPos := [], syncAt := none
                                     lockCount := 0, phase := 0, modeAt := none, peers := List.replicate 8 {}, unacked := [], evSeen := [] }
    let m := (m.setFlag R.TB_STATUS_TRIB false).setFlag R.RING_CTL_REDISCOVER true
    let m := (m.setFlag R.MGT_ADDR_SETTLED false).setFld R.MGT_ADDR_EFFECTIVE (m.fld R.MGT_ADDR_BASE + 8)
    if was = 0 then m else m.status R.E_RING_POSITION

/-- ACK_DEADLINE (R264): 256 CCLK after the first unacknowledged flit of a source. -/
def Engine.ackDeadline (m : Engine) (src : Nat) : Engine :=
  let p := m.peer src
  if 0 < p.rxOpen ∧ p.rxSince + 256 ≤ m.cc then m.sendAck src false else m

/-- Every unacknowledged flit to a destination goes out again (R264), from the first one. -/
def Engine.resend (m : Engine) (dst : Nat) : Engine :=
  let us := m.ring.unacked.filter (fun u => u.flit.dst == dst)
  let (side, m) := m.route dst
  let s := side.getD .fb
  let m := m.setRing { m.ring with unacked := m.ring.unacked.map (fun u => if u.flit.dst == dst then { u with side := s, since := m.cc } else u) }
  us.foldl (fun m u => m.send s dst u.flit.body) m

/-- ACK (R264): flits up to its SEQ are free; a NAK makes the source resend. -/
def Engine.ackHeard (m : Engine) (s : Side) (src dst seq : Nat) (nak : Bool) : Engine :=
  if !m.sideUp s then m
  else if dst ≠ m.pos then m.passOn s src dst (.ack seq nak)
  else
    let free := fun (u : Unacked) => u.flit.dst == src && decide ((seq + 2 ^ 16 - u.seq) % 2 ^ 16 < 2 ^ 15)
    let some_ := m.ring.unacked.any free
    let m := m.setRing { m.ring with unacked := (m.ring.unacked.filter (fun u => !free u)).map (fun u => if some_ && u.flit.dst == src then { u with since := m.cc } else u) }
    let m := m.pump src 512
    if nak then m.resend src else m

/-- RESEND_TIMEOUT (R264): 2^11 CCLK without progress. -/
def Engine.resendTimeout (m : Engine) (dst : Nat) : Engine :=
  if m.ring.unacked.any (fun u => u.flit.dst == dst && decide (u.since + 2 ^ 11 ≤ m.cc)) then m.resend dst else m

/-- CWR_GO (R260): a control request is sent, or ends as UNREACHABLE at once. -/
def Engine.cwrGo (m : Engine) : Engine :=
  if m.flag R.RING_CWR_CTL_BUSY then m
  else
    let t := m.fld R.RING_CWR_CTL_TARGET
    let read := m.flag R.RING_CWR_CTL_READ
    let off := m.fld R.RING_CWR_ADDR_OFFSET * 4
    if !bitAt (m.fld R.RING_MEMBERS_REACH) t ∨ t = m.pos then ((m.setFlag R.RING_CWR_CTL_GO false).setFld R.RING_CWR_CTL_RESULT 4).status R.E_RING_CWR_DONE
    else
      let (m, seq) := m.sendSeq t (if read then .crd 0 off else .cwr 0 off (m.reg R.RING_CWR_DATA).toNat)
      ((m.setFlag R.RING_CWR_CTL_GO true).setFlag R.RING_CWR_CTL_BUSY true).setRing { m.ring with cwr := some (t, seq, read, m.cc) }

/-- A control request ends with a result. -/
def Engine.cwrEnd (m : Engine) (result : Nat) : Engine :=
  let m := (m.setRing { m.ring with cwr := none }).setFlag R.RING_CWR_CTL_BUSY false
  ((m.setFlag R.RING_CWR_CTL_GO false).setFld R.RING_CWR_CTL_RESULT result).status R.E_RING_CWR_DONE

/-- CRSP (R260). -/
def Engine.crspHeard (m : Engine) (s : Side) (src dst seq req data result : Nat) : Engine :=
  let (m, ok) := m.receive s src dst seq 1 (.crsp seq req data result)
  match m.ring.cwr with
  | none => m
  | some (t, q, read, _) =>
    if ok && src == t && req == q then
      (if read && result == 0 then m.setReg R.RING_CWR_RDATA (BitVec.ofNat 32 data) else m).cwrEnd result
    else m

/-- CWR_TIMEOUT (R260). -/
def Engine.cwrTimeout (m : Engine) : Engine :=
  match m.ring.cwr with
  | some (_, _, _, t) => if t + 2 ^ 14 ≤ m.cc then m.cwrEnd 3 else m
  | none => m

/-! The ring mode (R257, R259). -/

/-- The hop delays of the ring's links, in the order of the held positions: link k leads from the k-th position's FB. Those of other modules' links reach this module by no flit. -/
def Engine.hopDelays (m : Engine) : List Nat :=
  let l := m.present
  l.map (fun p =>
    if p = m.pos then m.fld (R.FLU_HOPDLY_CCLK 1)
    else if nextPos l p = m.pos then m.fld (R.FLU_HOPDLY_CCLK 0)
    else Config.remoteHopDelay m.ring.remote p % 32)

/-- Insert into a descending list. -/
def insertDesc (x : Nat) : List Nat → List Nat
  | [] => [x]
  | y :: l => if y ≤ x then x :: y :: l else y :: insertDesc x l

/-- PATHDLY (R246, R257): the longest path with one link broken and the longest first arrival; in a chain both are the sum of every link. -/
def Engine.pathDelays (m : Engine) : Nat × Nat :=
  let d := m.hopDelays
  let n := d.length
  let total := d.foldl (· + ·) 0
  if n < 2 then (0, 0)
  else if !m.flag R.RING_STATUS_CLOSED then
    let l := m.present
    let chain := ((List.range n).filter (fun i => !m.hopBroken (nth l i 0) (nextPos l (nth l i 0)))).foldl (fun a i => a + nth d i 0) 0
    (chain, chain)
  else
    let broken := ((d.foldl (fun l x => insertDesc x l) []).take (n - 1)).foldl (· + ·) 0
    let arc := fun i k => (List.range k).foldl (fun a j => a + nth d ((i + j) % n) 0) 0
    let whole := (List.range n).foldl (fun w i => (List.range n).foldl (fun w k => max w (min (arc i k) (total - arc i k))) w) 0
    (broken, whole)

/-- PATHDLY as a read shows it. -/
def Engine.pathdlyWord (m : Engine) : Word := let (b, w) := m.pathDelays; BitVec.ofNat 32 (min b 255 + min w 255 * 2 ^ 8)

/-- The ring mode changes (R259). -/
def Engine.modeNow (m : Engine) (mode : Bool) : Engine :=
  let m := m.setRing { m.ring with modeAt := none }
  if m.flag R.RING_STATUS_MODE = mode then m
  else { (m.setFlag R.RING_STATUS_MODE mode).status R.E_RING_MODE with path := { m.path with gauged := max m.path.gauged (m.cc + 1 - 7 - m.lag) } }

/-- MODE_WRITE (R259): a mode asked for by writing CTL.MODE. A refused write leaves the field as it was. -/
def Engine.modeWrite (m : Engine) (old mode : Bool) : Engine :=
  let keep := match m.ring.modeAt with | some (_, x) => x | none => m.flag R.RING_STATUS_MODE
  let refuse := fun (m : Engine) code pos => (m.setFlag R.RING_CTL_MODE old).setReg R.RING_REASON (BitVec.ofNat 32 (code + pos * 2 ^ 4))
  let m := m.setFlag R.RING_CTL_MODE mode
  let armed := m.fld R.RING_MEMBERS_ARMED ||| (if m.flag R.SYS_STATUS_ARMED then 2 ^ m.pos else 0)
  let (k, m) := m.draw
  if mode = keep then m
  else if m.role ≠ 1 then refuse m 1 0
  else match m.present.find? (fun q => bitAt armed q) with
    | some q => refuse m 2 q
    | none => match (if mode then m.present.find? (fun q => q != 0 && Config.tribUnlocked k q) else none) with
      | some q => refuse m 3 q
      | none =>
        if mode ∧ 94 < m.pathDelays.1 then refuse m 4 0
        else
          let t := (tbOfCycle (m.nextCycle + 2 ^ 16)).toNat
          (m.setRing { m.ring with modeAt := some (t, mode) }).sendBoth (.modeset t mode)

/-- MODESET (R259): scheduled, or applied at once and logged where its TB has passed. -/
def Engine.modesetHeard (m : Engine) (s : Side) (tb : Nat) (mode : Bool) : Engine :=
  if !m.running || !m.sideUp s || m.role != 2 || m.ring.modeSeen.contains (tb, mode) then m
  else
    let m := m.setRing { m.ring with modeSeen := ((tb, mode) :: m.ring.modeSeen).take 4 }
    let m := m.relay s.other 0 0 (.modeset tb mode)
    if m.nextCycle ≤ tb / 16 then m.setRing { m.ring with modeAt := some (tb, mode) }
    else (m.modeNow mode).logNow 0xF2 2 0x021A (min (m.nextCycle - tb / 16) 0xFFFFFFFF)

/-- MODE_CHANGE (R259): at the MODESET's TB. DEDUCED: notes/assumptions/73.md. -/
def Engine.modeChange (m : Engine) : Engine :=
  match m.ring.modeAt with
  | some (t, mode) => if t / 16 ≤ m.nextCycle then m.modeNow mode else m
  | none => m

/-- STATUS of a link as a read shows it: REFSRC (R22, R274). -/
def Engine.fluStatus (m : Engine) (n : Nat) : Word :=
  let src := m.fld R.CLK_STATUS_INUSE == 3 && m.linkUp n && (n == 0 || !m.linkUp 0)
  putBits (m.reg (R.FLU_STATUS n)) 7 1 src.toNat

end Sys2Proof.Machine
end

