-- ==== Sys2Proof/Machine/Cistern.lean ====
section
/-! DEFINITION. The cistern controller (R278 to R305): address orders, queues and their schedule, refresh, parity, ECC, training, operating points, self-refresh, background test. -/
namespace Sys2Proof.Machine

/-! Address orders (R279, R280). -/

/-- Stacks fitted, pseudo-channels, bytes of the cistern (R2, R278). -/
def Engine.stackCount (m : Engine) : Nat := bitsOf (m.reg R.SYS_IDENT).toNat 0 2
def Engine.pcCount (m : Engine) : Nat := 32 * m.stackCount
def Engine.cisBytes (m : Engine) : Nat := 25769803776 * m.stackCount

/-- The pseudo-channel and the local address of a cistern byte address, under the order in force (R279). -/
def Engine.pcAddr (m : Engine) (a : Nat) : Nat × Nat :=
  let w := 4 + m.stackCount
  match m.fld R.CIS_STATUS_ORDER with
  | 1 => (bitsOf a 12 w, (a >>> (12 + w)) * 2 ^ 12 + a % 2 ^ 12)
  | 2 => ((a >>> 28) / 3, ((a >>> 28) % 3) * 2 ^ 28 + a % 2 ^ 28)
  | _ => (bitsOf a 8 w, (a >>> (8 + w)) * 2 ^ 8 + a % 2 ^ 8)

def Engine.pcOf (m : Engine) (a : Nat) : Nat := (m.pcAddr a).1

/-- Bank (SID, bank group and bank), row and column of a local address (R280). -/
def bankOf (l : Nat) : Nat := bitsOf l 28 2 * 16 + bitsOf l 10 4
def rowOf (l : Nat) : Nat := bitsOf l 14 14
def colOf (l : Nat) : Nat := bitsOf l 5 5

/-! Pseudo-channels. -/

/-- Change the controller. -/
def Engine.setCis (m : Engine) (c : CisState) : Engine := { m with cis := c }
def Engine.pc (m : Engine) (p : Nat) : PcState := nth m.cis.pcs p {}
def Engine.setPc (m : Engine) (p : Nat) (x : PcState) : Engine := m.setCis { m.cis with pcs := m.cis.pcs.set p x }

/-- The state of a pseudo-channel as its register has it: 0 NONE, 1 ONLINE, 2 TRAINING, 3 OFFLINE (R311). -/
def Engine.pcSt (m : Engine) (p : Nat) : Nat := m.fld (R.CISP_PC_STATE_STATE (p / 32) (p % 32))
def Engine.setPcSt (m : Engine) (p v : Nat) : Engine := m.setFld (R.CISP_PC_STATE_STATE (p / 32) (p % 32)) v

/-- PC[j].STATE as a read shows it, with the queues' occupancy. -/
def Engine.pcStateWord (m : Engine) (p : Nat) : Word :=
  let x := m.pc p
  putBits (putBits (m.reg (R.CISP_PC_STATE (p / 32) (p % 32))) 8 7 x.wq.length) 16 6 x.rq.length

/-- The controller's STATE (R493). -/
def Engine.cisState (m : Engine) : Nat := m.fld R.CIS_STATUS_STATE

/-- Do two spans of bytes overlap in an atom, an aligned 64-byte block (R284)? -/
def atomsOverlap (a la b lb : Nat) : Bool := decide (a / 64 ≤ (b + lb - 1) / 64) && decide (b / 64 ≤ (a + la - 1) / 64)

/-- The writes of a pseudo-channel that are not complete. -/
def PcState.open_ (x : PcState) : List CisWrite := x.flight ++ x.wq

/-- Is a read held by an incomplete write (R284)? Only until its first burst has issued: a write that overlaps a begun read came after that burst, and waits for the read. -/
def PcState.held (x : PcState) (r : CisRead) : Bool := r.sent == 0 && x.open_.any (fun w => atomsOverlap w.addr w.bytes.length r.addr r.len)

/-- Is a write held by a read whose bursts have begun to issue (R284)? -/
def PcState.behind (x : PcState) (w : CisWrite) : Bool := x.rq.any (fun r => decide (0 < r.sent) && atomsOverlap w.addr w.bytes.length r.addr r.len)

/-- Does a write of the queue stand behind an earlier one to the same atom (R285)? -/
def PcState.follows (x : PcState) (w : CisWrite) : Bool :=
  (x.wq.takeWhile (fun v => v != w)).any (fun v => atomsOverlap v.addr v.bytes.length w.addr w.bytes.length)

/-- The writes that a waiting read promotes, with the earlier writes of the same atoms that they follow (R283 to R285): from the newest, spans that pull a write along. -/
def PcState.promoted (x : PcState) : List CisWrite :=
  (x.wq.foldr (fun w (acc : List CisWrite × List (Nat × Nat)) =>
    if acc.2.any (fun s => atomsOverlap w.addr w.bytes.length s.1 s.2) then (w :: acc.1, (w.addr, w.bytes.length) :: acc.2) else acc)
    ([], (x.rq.filter (fun r => r.sent == 0)).map (fun r => (r.addr, r.len)))).1

/-- Bursts of a span of bytes. -/
def burstsOf (a len : Nat) : Nat := (a + len - 1) / 32 - a / 32 + 1

/-! ECC (R294). -/

/-- What a burst's read found (R294). -/
def Engine.cisEcc (m : Engine) (ecc : Ecc) (a : Nat) : Engine :=
  let p := m.pcOf a
  match ecc with
  | .good => m
  | .single => (m.addSat (R.CISP_PC_CE (p / 32) (p % 32)) 1).status R.E_CIS_CE
  | .double =>
    let m := (m.addSat (R.CISP_PC_UE (p / 32) (p % 32)) 1).setReg64 R.CIS_LASTUE_LO (BitVec.ofNat 64 (a / 32 * 32))
    (m.status R.E_CIS_UE).logNow 0xB0 2 0x0203 (a / 256)

/-- A read of an offline pseudo-channel holds no good data (R292, R307, R309): the bursts of the block, by address over 32. -/
def Engine.offlineRead (m : Engine) (a len : Nat) : Engine × List Nat :=
  let p := m.pcOf a
  ((m.addSat (R.CISP_PC_UE (p / 32) (p % 32)) 1).status R.E_CIS_UE, (List.range (burstsOf a len)).map (fun k => a / 32 + k))

/-! Neighbour refresh (R288, R289). -/

/-- The rows around an activated one: ±1, and ±2 where NR2 is 1; none beyond row 0 or row 16,383. -/
def Engine.neighbours (m : Engine) (row : Nat) : List Nat :=
  let near := fun d => (if d ≤ row then [row - d] else []) ++ (if row + d < 16384 then [row + d] else [])
  near 1 ++ (if m.flag R.CIS_NRCTL_NR2 then near 2 else [])

/-- One step of the LFSR with the polynomial x^32 + x^22 + x^2 + x + 1. DEDUCED: notes/assumptions/70.md. -/
def lfsrStep (x : BitVec 32) : BitVec 32 :=
  let b := x.getLsbD 31 ^^ x.getLsbD 21 ^^ x.getLsbD 1 ^^ x.getLsbD 0
  (x <<< 1) ||| BitVec.ofNat 32 b.toNat

/-- The seed of a pseudo-channel's LFSR. -/
def Engine.lfsrSeed (m : Engine) (p : Nat) : BitVec 32 := let s := m.reg R.CIS_NRSEED ^^^ BitVec.ofNat 32 p; if s = 0 then 1 else s

/-- An ACTIVATE advances the LFSR and may queue a neighbour refresh, or drop it where four are queued. -/
def Engine.activated (m : Engine) (p bank row : Nat) : Engine :=
  let x := m.pc p
  let l := lfsrStep x.lfsr
  let k := min 16 (max 8 (m.fld R.CIS_NRCTL_K))
  let m := m.setPc p { x with lfsr := l }
  if !m.flag R.CIS_NRCTL_EN ∨ l.toNat % 2 ^ k ≠ 0 then m
  else if x.nr.length < 4 then m.setPc p { m.pc p with nr := x.nr ++ [(bank, row)] }
  else (m.addSat (R.CISP_PC_NRDROP (p / 32) (p % 32)) 1).status R.E_CIS_NRDROP

/-! Commands (R282, R283, R290). -/

/-- A command is issued: it enters the retry buffer; under an alert being handled it counts towards success (R290). -/
def Engine.issue (m : Engine) (p : Nat) (c : DramCmd) : Engine :=
  let x := m.pc p
  let rows := match c.op with
    | 0 => (c.bank, c.row) :: x.openRows.filter (fun r => r.1 != c.bank)
    | 1 | 4 | 5 => x.openRows.filter (fun r => r.1 != c.bank)
    | _ => x.openRows
  let m := m.setPc p { x with retry := (c :: x.retry).take 16, count := x.count + 1, openRows := rows, good := x.good - 1 }
  let m := if c.op = 0 then m.activated p c.bank c.row else m
  if x.rung = 0 ∨ 1 < x.good then m
  else
    let m := (m.setPc p { m.pc p with rung := 0, good := 0 }).setFld (R.CISP_PC_STATE_LADDER (p / 32) (p % 32)) 0
    if x.rung ≤ 3 then (m.addSat (R.CISP_PC_REPLAY (p / 32) (p % 32)) 1).status R.E_CIS_REPLAY
    else ((m.addSat (R.CISP_PC_RETRAIN (p / 32) (p % 32)) 1).status R.E_CIS_RETRAIN).logNow 0xB0 1 0x0105 p

/-- The command a request's next burst needs: its data command where its row is open, PRECHARGE where another is, else ACTIVATE. -/
def Engine.needs (m : Engine) (p a op : Nat) : DramCmd :=
  let l := (m.pcAddr a).2
  match (m.pc p).openRows.find? (fun r => r.1 == bankOf l) with
  | none => ⟨0, bankOf l, rowOf l, 0, []⟩
  | some (_, row) => if row = rowOf l then ⟨op, bankOf l, row, colOf l, []⟩ else ⟨1, bankOf l, row, 0, []⟩

/-- The byte address of a request's next burst. -/
def CisWrite.next (w : CisWrite) : Nat := (w.addr / 32 + w.sent) * 32
def CisRead.next (r : CisRead) : Nat := (r.addr / 32 + r.sent) * 32

/-- Does a write cover only part of its next burst, and must that be read first (R285)? -/
def CisWrite.partialBurst (w : CisWrite) : Bool := decide (w.next < w.addr) || decide (w.addr + w.bytes.length < w.next + 32)
def CisWrite.readsFirst (w : CisWrite) : Bool := w.partialBurst && !w.rmw

/-- A write over a burst whose read found no good data: the bytes of it that the write does not cover are free. DESIGN CHOICE: notes/assumptions/115.md. -/
def CisWrite.overBad (w : CisWrite) (k : Nat) : CisWrite :=
  let free := fun a n => (List.range n).map (fun i => BitVec.ofNat 8 (Config.badWord (k + a + i)))
  let a := min w.addr w.next
  let last := max (w.addr + w.bytes.length) (w.next + 32)
  { w with addr := a, bytes := free a (w.addr - a) ++ w.bytes ++ free (w.addr + w.bytes.length) (last - (w.addr + w.bytes.length)) }

/-- Issue for the j-th write entry: a burst covered in part is read before it is written; after its last burst the entry awaits completion (R282, R285). `ecc` is what a READ finds. -/
def Engine.issueWrite (m : Engine) (p j : Nat) (ecc : Ecc) : Engine :=
  let x := m.pc p
  match x.wq[j]? with
  | none => m
  | some w =>
    let c := m.needs p w.next (if w.readsFirst then 2 else 3)
    let m := m.issue p c
    if c.op = 2 then
      let m := m.cisEcc ecc w.next
      let (k, m) := if ecc = .double then m.draw else (0, m)
      let y := m.pc p
      let b := if ecc = .double then w.overBad (256 * k) else w
      m.setPc p { y with wq := y.wq.set j { b with rmw := true } }
    else if c.op ≠ 3 then m
    else
      let y := m.pc p
      let w := { w with sent := w.sent + 1, last := y.count, rmw := false }
      if burstsOf w.addr w.bytes.length ≤ w.sent then m.setPc p { y with wq := y.wq.eraseIdx j, flight := y.flight ++ [w] }
      else m.setPc p { y with wq := y.wq.set j w }

/-- Bytes of a pixel, and blocks of a line, of the frame buffer in force (R382, R383). -/
def Engine.pixelBytes (m : Engine) (o : Nat) : Nat := if m.flag (R.DISP_CUR_FBCFG_FORMAT o) then 2 else 4
def Engine.lineBlocks (m : Engine) (o : Nat) : Nat := (m.pixelBytes o * m.fld (R.DISP_CUR_HTIM0_HACT o) + 255) / 256

/-- A display block arrives (R383, R384): the line buffer takes it; one without good data leaves a hole in its line; one for a line given up is dropped. -/
def Engine.fetchArrives (m : Engine) (o : Nat) (bad : Bool) : Engine :=
  let d := nth m.disp o {}
  let e := { d with ahead := d.ahead - 256 }
  { m with disp := m.disp.set o (
      if 0 < d.late then { e with late := d.late - 1 }
      else if bad then { e with fill := d.fill + 256, holes := d.fill / 256 / max 1 (m.lineBlocks o) :: d.holes }
      else { e with fill := d.fill + 256 }) }

/-! What comes in. -/

/-- A configuration word of a function as software wrote it, and the payload limit the host programmed: 128, 256 or 512 bytes (R335). PRESUMED: notes/assumptions/38.md. -/
def Engine.cfg (m : Engine) (f off : Nat) : Word := (mapFind m.host.cfg (4096 * f + off)).getD 0
def Engine.mps (m : Engine) : Nat := 128 * 2 ^ min 2 (bitsOf (m.cfg 0 0x78).toNat 5 3)

/-- The spans of a request's completions (R342): at most `mps` bytes each, split at 64-byte boundaries. DESIGN CHOICE: notes/assumptions/116.md. -/
def completionSpans (mps : Nat) : Nat → Nat → Nat → List (Nat × Nat)
  | 0, _, _ => []
  | k + 1, a, len => if len = 0 then [] else let n := min len (mps - a % 64); (a, n) :: completionSpans mps k (a + n) (len - n)

/-- The completions of a read of `len` bytes at an address: the bytes of each, and whether it is poisoned for a burst that holds no good data (R294, R342). -/
def completionsOf (mps a : Nat) (bytes : List Byte) (bad : List Nat) : List (List Byte × Bool) :=
  (completionSpans mps (bytes.length + 1) a bytes.length).map (fun s =>
    ((bytes.drop (s.1 - a)).take s.2, bad.any (fun b => decide (s.1 / 32 ≤ b) && decide (b ≤ (s.1 + s.2 - 1) / 32))))

/-- Change a drain's inner state. -/
def Engine.drain (m : Engine) (d : Nat) : DrainState := nth m.host.drains d {}
def Engine.setDrain (m : Engine) (d : Nat) (x : DrainState) : Engine := { m with host := { m.host with drains := m.host.drains.set d x } }

/-- A drain's state: 0 IDLE, 1 RUNNING, 2 PAUSED, 3 STOPPED. -/
def Engine.drainSt (m : Engine) (d : Nat) : Nat := m.fld (R.DRAIN_DSTAT_STATE d)

/-- The fields of a descriptor (R347). -/
structure Desc where
  src : Nat
  seg : Nat
  irq : Bool
  release : Bool
  chain : Bool
  acq : Bool
  resv : Bool
  len : Nat
  user : Nat
  dst : Nat
  deriving DecidableEq, Repr

/-- A descriptor from its 32 bytes. -/
def descOf (l : List Byte) : Desc :=
  let w := leNat (l.take 8)
  { src := w % 2 ^ 40, seg := bitsOf w 40 8, irq := bitAt w 48, release := bitAt w 49, chain := bitAt w 50, acq := bitAt w 51
    resv := bitsOf w 52 12 != 0 || leNat (l.drop 24) != 0
    len := leNat ((l.drop 8).take 4), user := leNat ((l.drop 12).take 4), dst := leNat ((l.drop 16).take 8) }

/-- A block of a drain's source has come in (R349): bursts without good data are zero, and the descriptor will end with SRC_ERR. Data of a descriptor no longer worked are dropped (R355). -/
def Engine.drainGets (m : Engine) (d tag a : Nat) (bytes : List Byte) (bad : List Nat) : Engine :=
  let x := m.drain d
  match x.working with
  | none => m
  | some (_, l) =>
    if x.tag ≠ tag then m
    else
      let kept := (List.range bytes.length).map (fun i => if bad.contains ((a + i) / 32) then 0 else nth bytes i 0)
      m.setDrain d { x with got := x.got ++ [(a - (descOf l).src, kept)], bad := x.bad || !bad.isEmpty }

/-- A funnelled request is answered (R263): a CPLHDR and its PAYLOAD flits of 24 bytes. -/
def Engine.funnelReply (m : Engine) (dst tag status : Nat) (bytes : List Byte) : Engine :=
  let word := fun k => (List.range 24).foldl (fun a i => a + (nth bytes (24 * k + i) 0).toNat * 256 ^ i) 0
  (List.range ((bytes.length + 23) / 24)).foldl (fun (m : Engine) k => (m.sendSeq dst (.payload 0 (word k))).1) (m.sendSeq dst (.cplhdr 0 tag bytes.length status)).1

/-- A block read is done: a display's line buffer or a drain takes it; a window request collects its blocks and is answered when whole, the completions that hold a bad burst poisoned
(R294, R342, R349, R384). -/
def Engine.readDone (m : Engine) (c : Memory) (r : CisRead) : Engine :=
  let bytes := (List.range r.len).map (fun i => readByte c (r.addr + i))
  match r.reader with
  | .display o => m.fetchArrives o (!r.bad.isEmpty)
  | .drain d tag => m.drainGets d tag r.addr bytes r.bad
  | .window tag =>
    let rs := m.cis.reads.map (fun x => if x.tag == tag then { x with parts := x.parts ++ [(r.addr, bytes)], bad := x.bad ++ r.bad } else x)
    match rs.find? (fun x => x.tag == tag) with
    | none => m
    | some x =>
      if (x.parts.foldl (fun a p => a + p.2.length) 0) < x.len then m.setCis { m.cis with reads := rs }
      else
        let whole := (List.range x.len).map (fun i => ((x.parts.findSome? (fun p => if p.1 ≤ x.addr + i ∧ x.addr + i < p.1 + p.2.length then p.2[x.addr + i - p.1]? else none)).getD 0))
        let m := m.setCis { m.cis with reads := rs.filter (fun y => y.tag != tag) }
        match x.reply with
        | some (dst, t) => m.funnelReply dst t (if x.bad.isEmpty then 0 else 3) (if x.bad.isEmpty then whole else [])
        | none => if m.host.hold && !m.host.l0 then m else { m with host := { m.host with busyAt := m.cc }, answer := .completions (completionsOf m.mps x.addr whole x.bad) }

/-- Issue for the j-th read entry; its last burst's data go to the requester. `ecc` is what the burst's read found. -/
def Engine.issueRead (m : Engine) (c : Memory) (p j : Nat) (ecc : Ecc) : Engine :=
  let x := m.pc p
  match x.rq[j]? with
  | none => m
  | some r =>
    let cmd := m.needs p r.next 2
    let m := m.issue p cmd
    if cmd.op ≠ 2 then m
    else
      let m := m.cisEcc ecc r.next
      let y := m.pc p
      let r := { r with sent := r.sent + 1, bad := if ecc = .double then r.bad ++ [r.next / 32] else r.bad }
      if burstsOf r.addr r.len ≤ r.sent then (m.setPc p { y with rq := y.rq.eraseIdx j }).readDone c r else m.setPc p { y with rq := y.rq.set j r }

/-- MCLK cycles in one CCLK cycle, at the operating point in force (R21). -/
def Engine.mclk (m : Engine) : Nat := if m.flag R.CIS_STATUS_OP then 1 else 2

/-- The first index of a list that meets a test. -/
def firstIdx {α : Type} (l : List α) (f : α → Bool) : Option Nat := (List.range l.length).find? (fun i => match l[i]? with | some a => f a | none => false)

/-- The index of the oldest entry among those that meet a test: entries stand in the order they came. -/
def Engine.pickWrite (m : Engine) (p : Nat) (busy : BitVec 48) (ok : CisWrite → Bool) : Option Nat :=
  let x := m.pc p
  let can := fun (w : CisWrite) => ok w && !x.behind w && !x.follows w && !busy.getLsbD (bankOf (m.pcAddr w.next).2)
  (firstIdx x.wq (fun w => can w && (m.needs p w.next 3).op == 3)).orElse (fun _ => firstIdx x.wq can)

/-- The write-queue length at which a batch ends (R308): WR_LO at or above WR_HI acts as WR_HI - 1. -/
def Engine.writeLow (m : Engine) : Nat :=
  let hi := min 64 (m.fld R.CIS_WSCHED_WR_HI)
  if hi ≤ m.fld R.CIS_WSCHED_WR_LO then hi - 1 else m.fld R.CIS_WSCHED_WR_LO

/-- The work of one MCLK cycle on a pseudo-channel (R283): the mode, and the write (true) or read (false) entry to issue for. DEDUCED: notes/assumptions/108.md. -/
def Engine.schedule (m : Engine) (p : Nat) (busy : BitVec 48) : Engine × Option (Bool × Nat) :=
  let x := m.pc p
  let hi := min 64 (m.fld R.CIS_WSCHED_WR_HI)
  let lo := m.writeLow
  let age := fun since => (m.cc - since) * m.mclk
  let wmode := R.CISP_PC_STATE_WMODE (p / 32) (p % 32)
  let oldW := (x.wq.map (fun w => age w.since)).foldl max 0
  let mode := m.flag wmode && !decide (x.wq.length ≤ lo)
  let mode := mode || decide (hi ≤ x.wq.length) || (!x.wq.isEmpty && decide (max 1 (m.fld R.CIS_WSCHED_WR_AGE) ≤ oldW))
  let m := m.setFlag wmode mode
  let free := fun (r : CisRead) => !busy.getLsbD (bankOf (m.pcAddr r.next).2)
  let ready := fun (r : CisRead) => !x.held r && free r
  let wr := fun (ok : CisWrite → Bool) => (m.pickWrite p busy ok).map (fun j => (true, j))
  let rd := fun (ok : CisRead → Bool) => (firstIdx x.rq (fun r => ready r && ok r)).map (fun j => (false, j))
  let pick := if mode then wr (fun _ => true)
    else
      let pw := (firstIdx x.wq (fun w => x.promoted.contains w && !x.behind w && !x.follows w && !busy.getLsbD (bankOf (m.pcAddr w.next).2))).map (fun j => (true, j))
      pw.orElse (fun _ => (rd (fun r => decide (m.fld R.CIS_RSCHED_RD_AGE < age r.since))).orElse (fun _ => (rd (·.urgent)).orElse (fun _ =>
        (rd (fun r => (m.needs p r.next 2).op == 2)).orElse (fun _ => (rd (fun _ => true)).orElse (fun _ => wr (fun _ => true))))))
  (m, pick)

/-- Does the controller serve requests? -/
def Engine.cisServes (m : Engine) : Bool := m.cisState == 3

/-- Does the controller work its queues: READY, or completing what is queued in the first step of an operating-point change (R298)? -/
def Engine.cisWorks (m : Engine) : Bool := m.cisState == 3 || m.cisState == 5

/-- Does a pseudo-channel issue commands: online, and the controller at work? -/
def Engine.pcIssues (m : Engine) (p : Nat) : Bool := m.cisWorks && m.pcSt p == 1

/-- A drain asks for the next block of its source (R282, R286, R349), when its pseudo-channel's read queue has room; one of an offline pseudo-channel comes back without good data.
DEDUCED: notes/assumptions/46.md. -/
def Engine.drainAsk (m : Engine) (d : Nat) : Engine :=
  let x := m.drain d
  match x.working with
  | none => m
  | some (_, l) =>
    let y := descOf l
    let a := y.src + x.asked
    let n := min (y.len - x.asked) (256 - a % 256)
    let p := m.pcOf a
    if m.drainSt d ≠ 1 ∨ x.pausing ∨ n = 0 ∨ !m.cisServes then m
    else if m.pcSt p = 3 then
      let (m, bad) := (m.setDrain d { x with asked := x.asked + n }).offlineRead a n
      m.drainGets d x.tag a (List.replicate n 0) bad
    else if (m.pc p).rq.length < 32 then
      (m.setDrain d { x with asked := x.asked + n }).setPc p { m.pc p with rq := (m.pc p).rq ++ [{ addr := a, len := n, reader := .drain d x.tag, since := m.cc }] }
    else m

/-- Blocks that wait enter the queues of their pseudo-channels as those have room (R286): 64 writes, 32 reads; a read not before a waiting write to its atoms (R284). -/
def Engine.takeWaiting (m : Engine) : Engine :=
  let m := m.cis.waitW.foldl (fun m w =>
    let p := m.pcOf w.addr
    let x := m.pc p
    if x.wq.length < 64 ∧ m.cisServes ∧ m.pcSt p = 1 ∧ !(m.cis.waitW.takeWhile (fun v => v != w)).any (fun v => m.pcOf v.addr == p) then
      m.setCis { m.cis with pcs := m.cis.pcs.set p { x with wq := x.wq ++ [{ w with since := m.cc }] }, waitW := m.cis.waitW.erase w }
    else m) m
  let m := m.cis.waitR.foldl (fun m r =>
    let p := m.pcOf r.addr
    let x := m.pc p
    if x.rq.length < 32 ∧ m.cisServes ∧ m.pcSt p = 1 ∧ !m.cis.waitW.any (fun w => atomsOverlap w.addr w.bytes.length r.addr r.len) then
      m.setCis { m.cis with pcs := m.cis.pcs.set p { x with rq := x.rq ++ [{ r with since := m.cc }] }, waitR := m.cis.waitR.erase r }
    else m) m
  forEach 4 (fun d m => m.drainAsk d) m

/-- CISTERN_COMMAND (R283): the next command of a pseudo-channel. A queued neighbour refresh goes first as soon as its bank is free (R289). `busy` marks the banks that cannot accept a
command under the JEDEC timings, `ecc` what a READ finds. -/
def Engine.cisternCommand (m : Engine) (c : Memory) (p : Nat) (busy : BitVec 48) (ecc : Ecc) : Engine :=
  if !m.pcIssues p then m
  else
    let m := m.takeWaiting
    let x := m.pc p
    match x.nr.find? (fun b => !busy.getLsbD b.1) with
    | some (bank, row) => ((m.setPc p { x with nr := x.nr.erase (bank, row) }).addSat (R.CISP_PC_NR (p / 32) (p % 32)) 1).issue p ⟨5, bank, row, 0, m.neighbours row⟩
    | none =>
      let (m, w) := m.schedule p busy
      match w with
      | none => m
      | some (true, j) => m.issueWrite p j ecc
      | some (false, j) => m.issueRead c p j ecc

/-- REFRESH (R287): one bank, ahead of reads and writes. DEDUCED: notes/assumptions/109.md. -/
def Engine.cisRefresh (m : Engine) (p bank : Nat) : Engine := if m.pcIssues p then m.issue p ⟨4, bank, 0, 0, []⟩ else m

/-- STACK_TEMPERATURE_REPORT (R287, R311). -/
def Engine.stackReport (m : Engine) (x temp mul : Nat) : Engine :=
  if m.stackCount ≤ x then m
  else
    let changed := m.fld (R.CISP_STACKSTAT_REFMUL x) != mul
    let m := ((m.setFld (R.CISP_STACKSTAT_TEMP x) temp).setFld (R.CISP_STACKSTAT_REFMUL x) mul).setFlag (R.CISP_STACKSTAT_PRESENT x) true
    let m := if m.fld (R.CISP_STACKTEMP_MAX_TEMP x) < temp then m.setFld (R.CISP_STACKTEMP_MAX_TEMP x) temp else m
    if changed then m.status (R.E_CISP_REFMUL x) else m

/-- Put the bytes of a write into the cistern. -/
def CisWrite.store (w : CisWrite) (c : Memory) : Memory := writeBytes c w.addr w.bytes

/-- WRITE_COMPLETE (R282): the oldest write whose last command has left the retry buffer. -/
def Chip.writeComplete (c : Chip) (p : Nat) : Chip :=
  let x := c.eng.pc p
  match x.flight with
  | [] => c
  | w :: rest =>
    if x.rung = 0 ∧ w.last + 16 ≤ x.count then { c with eng := c.eng.setPc p { x with flight := rest }, cistern := w.store c.cistern } else c

/-! Packs and window blocks into the queues (R80, R282, R292). -/

/-- The TB of a pack's first item, from its bytes (R202). -/
def packTb (l : List Byte) : Tb :=
  let b := fun i => (nth l i 0).toNat
  let h := (List.range 8).foldl (fun a i => a + b i * 256 ^ i) 0
  let t := (List.range 4).foldl (fun a i => a + b (248 + i) * 256 ^ i) 0
  BitVec.ofNat 64 (h / 2 ^ 20 + t / 2 ^ 12 * 2 ^ 44)

/-- A read of an offline pseudo-channel is answered without good data (R292, R294). -/
def Engine.readBad (m : Engine) (c : Memory) (r : CisRead) : Engine :=
  let (m, bad) := m.offlineRead r.addr r.len
  m.readDone c { r with bad := bad }

/-- A pack bound for an offline pseudo-channel is lost (R292): as one discarded at a full FIFO, or counted in MKDROP. -/
def Engine.packLost (m : Engine) (src : Nat) (k : Pack) : Engine :=
  if 48 ≤ src then m.addSat R.STORE_MKDROP 1
  else
    let x := m.sto src
    let m := if x.lostEnd.isSome then m.gapEnd src else m
    let x := m.sto src
    let lost := match x.lost with | none => (packTb k.bytes, 1) | some (t, n) => (t, n + 1)
    (m.setSto src { x with lost := some lost }).addSat (R.WEIR_GAPCNT src) 1

/-- The store path's budget in one CCLK cycle (R26, R29), in 1/16 bu: a pack costs 5,120. Each intake earns its own cost, up to one pack ahead; what no intake earns or keeps is spare,
kept for at most 16 CCLK. DESIGN CHOICE: notes/assumptions/117.md. -/
def Engine.budgetCycle (m : Engine) : Engine :=
  let costs := (List.range 48).map m.cost
  let sums := (List.range 48).map (fun n => nth m.store.credits n 0 + nth costs n 0)
  let extra := sums.foldl (fun a x => a + (x - 5120)) 0
  m.setStore { m.store with credits := sums.map (fun x => min x 5120)
                            spare := min (16 * m.budgetLimit) (m.store.spare + (m.budgetLimit - costs.foldl (· + ·) 0) + extra) }

/-- Can the pack at the head of an intake's stream FIFO move: the controller serves, and its pseudo-channel is online with room, or offline (R286, R290, R292)? -/
def Engine.packTaken (m : Engine) (k : Pack) : Bool :=
  let p := m.pcOf (256 * k.slot)
  m.cisServes && (m.pcSt p == 3 || (m.pcSt p == 1 && decide ((m.pc p).wq.length < 64)))

/-- The intake whose turn at the spare budget it is (R29): the first after the one served last whose FIFO holds a pack beyond its reserve that can move. -/
def Engine.spareTurn (m : Engine) : Option Nat :=
  ((List.range 48).map (fun i => (m.store.served + 1 + i) % 48)).find? (fun n =>
    decide (nth m.store.credits n 0 < 5120) && (match (m.sto n).fifo.head? with | some k => m.packTaken k | none => false))

/-- The budget for an intake's next pack (R29): from its own reserve, or in its turn from the spare; none where neither has it. -/
def Engine.payPack (m : Engine) (n : Nat) : Option StoreState :=
  let s := m.store
  if 5120 ≤ nth s.credits n 0 then some { s with credits := s.credits.set n (nth s.credits n 0 - 5120) }
  else if 5120 ≤ s.spare ∧ m.spareTurn = some n then some { s with spare := s.spare - 5120, served := n }
  else none

/-- PACK_TO_CISTERN (R29, R80): the oldest pack of an intake's stream FIFO, or of the marker writer (48), enters the write queue of its pseudo-channel. -/
def Engine.packToCistern (m : Engine) (src : Nat) : Engine :=
  let first := if src = 48 then (m.store.markPacks.head?).map (·.1) else (m.sto src).fifo.head?
  match first, (if src = 48 then some m.store else m.payPack src) with
  | some k, some paid =>
    let p := m.pcOf (256 * k.slot)
    let x := m.pc p
    let offline := m.pcSt p == 3
    if !m.packTaken k then m
    else
      let m := m.setStore paid
      let m := if src = 48 then m.setStore { m.store with markPacks := m.store.markPacks.drop 1 }
        else (m.setSto src { m.sto src with fifo := (m.sto src).fifo.drop 1 }).showFifo src
      if offline then m.packLost src k
      else m.setPc p { x with wq := x.wq ++ [{ addr := 256 * k.slot, bytes := k.bytes, src := src, since := m.cc }] }
  | _, _ => m

/-- The 256-byte blocks of a span of bytes (R282). -/
def blocksOf : Nat → Nat → Nat → List (Nat × Nat)
  | 0, _, _ => []
  | k + 1, a, len => if len = 0 then [] else let n := min len (256 - a % 256); (a, n) :: blocksOf k (a + n) (len - n)

/-- A window write (R342): its blocks wait for their queues; one to an offline pseudo-channel is discarded and logged (R292). DEDUCED: notes/assumptions/45.md. -/
def Engine.windowWrite (m : Engine) (a : Nat) (bytes : List Byte) : Engine :=
  ((blocksOf (bytes.length + 1) a bytes.length).foldl (fun m (b : Nat × Nat) =>
    if m.pcSt (m.pcOf b.1) = 3 then m.logNow 0xB0 2 0x0219 (b.1 / 256)
    else m.setCis { m.cis with waitW := m.cis.waitW ++ [{ addr := b.1, bytes := (bytes.drop (b.1 - a)).take b.2, src := 49 }] }) m).takeWaiting

/-- A window read (R342): its blocks wait for their queues; blocks of an offline pseudo-channel hold no good data (R292, R294). -/
def Engine.windowRead (m : Engine) (c : Memory) (a len : Nat) (reply : Option (Nat × Nat)) : Engine :=
  let tag := m.cis.nextTag
  let m := m.setCis { m.cis with nextTag := tag + 1, reads := m.cis.reads ++ [{ tag := tag, addr := a, len := len, reply := reply }] }
  let (off, on) := (blocksOf (len + 1) a len).partition (fun b => m.pcSt (m.pcOf b.1) == 3)
  let m := on.foldl (fun m (b : Nat × Nat) => m.setCis { m.cis with waitR := m.cis.waitR ++ [{ addr := b.1, len := b.2, reader := .window tag }] }) m
  (off.foldl (fun m (b : Nat × Nat) => m.readBad c { addr := b.1, len := b.2, reader := .window tag }) m).takeWaiting

/-! Everything queued is done at once: before self-refresh (R301). -/

/-- What a burst's read finds where queues are worked off at once and no command carries it: open (R294). DESIGN CHOICE: notes/assumptions/118.md. -/
def Engine.drawEcc (m : Engine) (a : Nat) : Bool × Engine :=
  let (k, m) := m.draw
  let e : Ecc := match Config.readEcc k % 3 with | 0 => .good | 1 => .single | _ => .double
  (e == .double, m.cisEcc e a)

/-- A queued read gets what is left of its bursts. -/
def Engine.finishRead (m : Engine) (c : Memory) (r : CisRead) : Engine :=
  let (m, bad) := (List.range (burstsOf r.addr r.len - r.sent)).foldl (fun (s : Engine × List Nat) k =>
    let b := r.addr / 32 + r.sent + k
    let (isBad, m) := s.1.drawEcc (32 * b)
    (m, if isBad then s.2 ++ [b] else s.2)) (m, r.bad)
  m.readDone c { r with bad := bad }

/-- A queued write is carried out, its part-covered bursts read first (R285). -/
def Chip.finishWrite (c : Chip) (w : CisWrite) : Chip :=
  let (m, w) := (List.range (burstsOf w.addr w.bytes.length)).foldl (fun (s : Engine × CisWrite) k =>
    let v := { w with sent := k, rmw := decide (k < w.sent) || (w.rmw && k == w.sent) }
    if v.readsFirst then
      let (isBad, m) := s.1.drawEcc v.next
      let (i, m) := if isBad then m.draw else (0, m)
      (m, if isBad then { s.2 with sent := (v.next / 32) - s.2.addr / 32 }.overBad (256 * i) else s.2)
    else s) (c.eng, w)
  { c with eng := m, cistern := w.store c.cistern }

/-- Every queued write is in the cistern and every queued read has its data; reads already begun come before the writes that wait for them (R284). -/
def Chip.finishQueues (c : Chip) : Chip :=
  forEach 64 (fun p c =>
    let x := c.eng.pc p
    let ws := x.wq ++ c.eng.cis.waitW.filter (fun w => c.eng.pcOf w.addr == p)
    let (begun, rs) := (x.rq ++ c.eng.cis.waitR.filter (fun r => c.eng.pcOf r.addr == p)).partition (fun r => decide (0 < r.sent))
    if x.flight.isEmpty && ws.isEmpty && begun.isEmpty && rs.isEmpty then c
    else
      let m := c.eng.setCis { c.eng.cis with
        pcs := c.eng.cis.pcs.set p { x with wq := [], rq := [], flight := [] }
        waitW := c.eng.cis.waitW.filter (fun w => c.eng.pcOf w.addr != p), waitR := c.eng.cis.waitR.filter (fun r => c.eng.pcOf r.addr != p) }
      let mem := x.flight.foldl (fun mem w => w.store mem) c.cistern
      let c := ws.foldl Chip.finishWrite { c with eng := begun.foldl (fun m r => m.finishRead mem r) m, cistern := mem }
      { c with eng := rs.foldl (fun m r => m.finishRead c.cistern r) c.eng }) c

/-- Are all queues empty? -/
def Engine.queuesEmpty (m : Engine) : Bool := m.cis.pcs.all (fun x => x.wq.isEmpty && x.rq.isEmpty)

/-- The writes issued and not complete are complete: no command that could raise an alert follows. -/
def Chip.finishFlights (c : Chip) : Chip :=
  { c with cistern := c.eng.cis.pcs.foldl (fun mem x => x.flight.foldl (fun mem w => w.store mem) mem) c.cistern
           eng := c.eng.setCis { c.eng.cis with pcs := c.eng.cis.pcs.map (fun x => { x with flight := [] }) } }

/-- Every pack that the store path has passed is written (R301): the stream FIFOs and the marker packs, then the queues. -/
def Chip.writePacks (c : Chip) : Chip :=
  let put := fun (c : Chip) (src : Nat) (k : Pack) =>
    if c.eng.pcSt (c.eng.pcOf (256 * k.slot)) = 3 then { c with eng := c.eng.packLost src k } else { c with cistern := writeBytes c.cistern (256 * k.slot) k.bytes }
  let c := c.finishQueues
  let c := forEach 48 (fun n c =>
    let l := (c.eng.sto n).fifo
    if l.isEmpty then c
    else
      let c := { c with eng := (c.eng.setSto n { c.eng.sto n with fifo := [] }).showFifo n }
      l.foldl (fun c k => put c n k) c) c
  let l := c.eng.store.markPacks
  l.foldl (fun c k => put c 48 k.1) { c with eng := c.eng.setStore { c.eng.store with markPacks := [] } }

/-! Parity, replay, retraining, revival (R290 to R293). -/

/-- The addresses of a pseudo-channel read 0 from now on (R293). -/
def zeroPc (m : Engine) (p : Nat) (c : Memory) : Memory := c.filter (fun b => m.pcOf b.1 != p)

/-- The count of offline pseudo-channels and their bits (R292). -/
def Engine.showOffline (m : Engine) : Engine :=
  let off := (List.range 64).filter (fun p => m.pcSt p == 3 || m.flag (R.CISP_PC_STATE_REVIVING (p / 32) (p % 32)))
  let bits := fun lo => off.foldl (fun a p => if lo ≤ p ∧ p < lo + 32 then a + 2 ^ (p - lo) else a) 0
  ((m.setReg R.CIS_OFFLINE_LO (BitVec.ofNat 32 (bits 0))).setReg R.CIS_OFFLINE_HI (BitVec.ofNat 32 (bits 32))).setFld R.CIS_STATUS_OFFCOUNT off.length

/-- A periodic pass ends (R296, R308). -/
def Engine.passEnd (m : Engine) : Engine := (m.setCis { m.cis with pass := none }).setFlag R.CIS_STATUS_TRAINING false

/-- A pseudo-channel is taken offline (R292): its writes, queued or waiting, are discarded, its reads hold no good data, and the engine settles, armed (R292) or disarmed (R423).
DEDUCED: notes/assumptions/119.md. -/
def Engine.takeOffline (m : Engine) (c : Memory) (p : Nat) : Engine :=
  let x := m.pc p
  let (ww, waitW) := m.cis.waitW.partition (fun w => m.pcOf w.addr == p)
  let (wr, waitR) := m.cis.waitR.partition (fun r => m.pcOf r.addr == p)
  let m := m.setCis { m.cis with waitW := waitW, waitR := waitR }
  let m := if m.cis.pass = some p then m.passEnd else m
  let m := m.setPc p { x with wq := [], rq := [], flight := [], rung := 0, good := 0, nr := [], openRows := [], retry := [] }
  let m := (m.setReg (R.CISP_PC_STATE (p / 32) (p % 32)) 3).showOffline
  let m := (m.status R.E_CIS_OFFLINE).status (R.E_CISP_OFFLINE (p / 32))
  let m := (x.flight ++ x.wq ++ ww).foldl (fun m w => if w.src = 49 then m.logNow 0xB0 2 0x0219 (w.addr / 256) else m.packLost w.src ⟨w.addr / 256, w.bytes⟩) m
  let m := (x.rq ++ wr).foldl (fun m r => m.readBad c r) m
  m.cause 2 p 0xB0

/-- A training of a pseudo-channel stores its results (R295, R296) for the operating points named. What they are is open. DESIGN CHOICE: notes/assumptions/120.md. -/
def Engine.pcTrained (m : Engine) (p : Nat) (ops : List Nat) : Engine :=
  ops.foldl (fun m op =>
    let (k, m) := m.draw
    m.setPc p { m.pc p with results := (m.pc p).results.set op (Config.trainResult k) }) m

/-- A replay (R290): every bank is precharged, the retry buffer is issued again in its order, and 16 further commands must complete. -/
def Engine.replay (m : Engine) (p rung : Nat) : Engine :=
  let x := m.pc p
  let k := x.retry.length
  let m := m.setPc p { x with rung := rung, good := 16, openRows := [], count := x.count + k, flight := x.flight.map (fun w => if x.count < w.last + k then { w with last := w.last + k } else w) }
  m.setFld (R.CISP_PC_STATE_LADDER (p / 32) (p % 32)) (min rung 3)

/-- PARITY_ALERT (R290): the next rung of the ladder. -/
def Engine.parityAlert (m : Engine) (c : Memory) (p : Nat) : Engine :=
  if !m.pcIssues p then m
  else
    let r := (m.pc p).rung + 1
    if r ≤ 3 then m.replay p r
    else if r = 4 then (m.setPc p { m.pc p with rung := 4, good := 16, openRows := [] }).setPcSt p 2
    else m.takeOffline c p

/-- PC_RETRAIN_DONE (R290): the ladder's retrain ends. -/
def Engine.pcRetrainDone (m : Engine) (c : Memory) (p : Nat) (ok : Bool) : Engine :=
  if m.pcSt p ≠ 2 ∨ (m.pc p).rung ≠ 4 then m
  else if ok then ((m.setPcSt p 1).pcTrained p [0, 1]).replay p 4
  else m.takeOffline c p

/-- REVIVE (R293). -/
def Engine.revive (m : Engine) (p : Nat) : Engine :=
  if m.flag R.SYS_STATUS_ARMED || m.pcSt p != 3 then m
  else ((m.setPcSt p 2).setFlag (R.CISP_PC_STATE_REVIVING (p / 32) (p % 32)) true).setFlag (R.CISP_PC_CTL_REVIVE (p / 32) (p % 32)) true

/-- REVIVE_DONE (R293). -/
def Chip.reviveDone (c : Chip) (p : Nat) (ok : Bool) : Chip :=
  let m := c.eng
  if !m.flag (R.CISP_PC_STATE_REVIVING (p / 32) (p % 32)) then c
  else
    let m := (m.setFlag (R.CISP_PC_STATE_REVIVING (p / 32) (p % 32)) false).setFlag (R.CISP_PC_CTL_REVIVE (p / 32) (p % 32)) false
    let m := m.setPcSt p (if ok then 1 else 3)
    let m := m.showOffline.status (if ok then R.E_CISP_REVIVED (p / 32) else R.E_CISP_REVIVE_FAIL (p / 32))
    { c with eng := if ok then m.pcTrained p [0, 1] else m, cistern := if ok then zeroPc m p c.cistern else c.cistern }

/-! Operating points (R297 to R300). -/

/-- The timing set of a point is loaded into the controller, at the exit from self-refresh (R298, R300). -/
def Engine.loadTiming (m : Engine) (op : Nat) : Engine :=
  m.setCis { m.cis with timing := (List.range 6).map (fun k => m.reg (if op = 0 then R.CIS_TIM0 k else R.CIS_TIM1 k)) }

/-- Every row is closed: in self-refresh none is open. -/
def Engine.closeRows (m : Engine) : Engine := m.setCis { m.cis with pcs := m.cis.pcs.map (fun x => { x with openRows := [] }) }

/-- A change of operating point begins (R298): no request is accepted any more, and what is queued is completed. -/
def Engine.opStart (m : Engine) (t : Nat) : Engine := (m.setFld R.CIS_STATUS_STATE 5).setCis { m.cis with opWait := false, opRun := some t }

/-- An operating-point request ends with a result (R297). -/
def Engine.opEnd (m : Engine) (result : Nat) : Engine :=
  let m := (m.setFld R.CIS_STATUS_OPRESULT result).setFlag R.CIS_STATUS_OPPEND false
  ((m.setFlag R.CIS_CTL_OPGO false).setCis { m.cis with opReq := none, opWait := false, opRun := none }).status R.E_CIS_OP_DONE

/-- The request is carried out, or waits for a training pass or a vertical blank (R297, R298). -/
def Engine.opTry (m : Engine) : Engine :=
  match m.cis.opReq with
  | none => m
  | some (t, vb) =>
    if m.cis.opRun.isSome || m.cis.opWait || !m.cisServes then m
    else if m.fld R.CIS_STATUS_OP = t then m.opEnd 3
    else if m.flag R.SYS_STATUS_ARMED && !m.flag R.SAFE_STATUS_SETTLED then m.opEnd 2
    else if m.cis.pass.isSome then m.setFlag R.CIS_STATUS_OPPEND true
    else
      let m := m.setFlag R.CIS_STATUS_OPPEND false
      if vb then m.setCis { m.cis with opWait := true } else m.opStart t

/-- OPGO (R297): a request while another is pending or runs is ignored; the target and VBALIGN are those of its write. One made while the controller is not READY waits for READY.
DESIGN CHOICE: notes/assumptions/121.md. -/
def Engine.opGo (m : Engine) : Engine :=
  if m.cis.opReq.isSome then m
  else ((m.setFlag R.CIS_CTL_OPGO true).setCis { m.cis with opReq := some (m.fld R.CIS_CTL_OPTGT, m.flag R.CIS_CTL_VBALIGN) }).opTry

/-- A change's point is in force, with its timing set (R298). -/
def Engine.opInForce (m : Engine) (t : Nat) : Engine := ((m.setFld R.CIS_STATUS_OP t).loadTiming t).closeRows

/-- OP_CHANGE_DONE (R298): queued reads and writes are complete, the new point is in force and requests are accepted again. -/
def Chip.opDone (c : Chip) : Chip :=
  match c.eng.cis.opRun with
  | none => c
  | some t =>
    if c.eng.cisState ≠ 5 || !c.eng.queuesEmpty then c
    else
      let c := c.finishFlights
      { c with eng := (((c.eng.opInForce t).setFld R.CIS_STATUS_STATE 3).status R.E_CIS_READY).opEnd 1 }

/-! Initialisation (R295, R301, R493). -/

/-- A value for the fitted pseudo-channels that are not offline. -/
def Engine.fittedPcs (m : Engine) (v : Nat) : Engine := forEach 64 (fun p m => if p < m.pcCount ∧ m.pcSt p ≠ 3 then m.setPcSt p v else m) m

/-- Full training starts (R295, R300, R311, R493): the stacks' parameter data are loaded, their presence shows, and every pseudo-channel in service trains. What the parameter data
hold is open. DESIGN CHOICE: notes/assumptions/122.md. -/
def Engine.trainStart (m : Engine) : Engine :=
  let m := m.setFld R.CIS_STATUS_STATE 1
  let m := forEach 6 (fun k m => (m.setReg (R.CIS_TIM0 k) (BitVec.ofNat 32 (Config.stackTiming k))).setReg (R.CIS_TIM1 k) (BitVec.ofNat 32 (Config.stackTiming (6 + k)))) m
  let m := forEach 2 (fun x m => m.setFlag (R.CISP_STACKSTAT_PRESENT x) (decide (x < m.stackCount))) m
  m.fittedPcs 2

/-- No pass runs and the next visit starts afresh. -/
def Engine.passDrop (m : Engine) : Engine := (m.passEnd).setCis { m.cis with pass := none, visit := 0 }

/-- No operating-point request is pending or runs any more, and none of them has an outcome. -/
def Engine.opDrop (m : Engine) : Engine :=
  ((m.setFlag R.CIS_STATUS_OPPEND false).setFlag R.CIS_CTL_OPGO false).setCis { m.cis with opReq := none, opWait := false, opRun := none }

/-- The initialisation of a power-on reset begins (R493: INIT), and that of a headrace's return (R20): no point but OP0, no pseudo-channel in service, nothing queued; reads on their
way are answered as R343 gives. -/
def Engine.cisInit (m : Engine) : Engine :=
  let reads := m.cis.reads
  let m := ((m.opDrop).passDrop.setFld R.CIS_STATUS_STATE 0).setFld R.CIS_STATUS_OP 0
  let m := forEach 64 (fun p m => (m.setFld (R.CISP_PC_STATE_STATE (p / 32) (p % 32)) 0).setFlag (R.CISP_PC_STATE_REVIVING (p / 32) (p % 32)) false) m
  let m := (m.setCis { m.cis with full := true, pcs := List.replicate 64 {}, waitW := [], waitR := [], reads := [] }).showOffline
  reads.foldl (fun m r => match r.reply with | some (dst, t) => m.funnelReply dst t 2 [] | none => { m with answer := .completerAbort }) m

/-- REINIT (R301): refused unless the engine is disarmed, no output is enabled and no drain runs. What windows have queued is completed first. DESIGN CHOICE: notes/assumptions/123.md. -/
def Chip.reinit (c : Chip) : Chip :=
  let m := c.eng
  let busy := m.flag R.SYS_STATUS_ARMED || m.flag (R.DISP_CTL_EN 0) || m.flag (R.DISP_CTL_EN 1) || (List.range 4).any (fun d => m.fld (R.DRAIN_DSTAT_STATE d) == 1)
  if m.flag R.CIS_CTL_REINIT then (if busy then { c with eng := m.setFlag R.CIS_STATUS_REINIT_REJ true } else c)
  else if busy then { c with eng := m.setFlag R.CIS_STATUS_REINIT_REJ true }
  else
    let c := c.finishQueues
    let m := ((c.eng.setFlag R.CIS_STATUS_REINIT_REJ false).setFlag R.CIS_CTL_REINIT true).passDrop
    { c with eng := (m.setCis { m.cis with full := true }).trainStart }

/-- Self-refresh is entered (R301): queues are empty by then. An initialisation under way goes on after the exit; an operating-point request keeps waiting. DESIGN CHOICE: notes/assumptions/121.md. -/
def Engine.cisSelfRefresh (m : Engine) : Engine := (m.passDrop.closeRows).setFld R.CIS_STATUS_STATE 4

/-- The controller leaves self-refresh (R301): an initialisation that it overtook starts its training again, otherwise a short training follows. -/
def Engine.cisExit (m : Engine) : Engine := if m.cisState ≠ 4 then m else if m.cis.full then m.trainStart else m.setFld R.CIS_STATUS_STATE 1

/-- The controller is READY (R301, R493). A full initialisation has zeroed the cistern; the order and the LFSR seeds are in force (R279, R288), and so is the timing set of the point.
A change of operating point that self-refresh overtook has its point in force. -/
def Engine.cisUp (m : Engine) : Engine :=
  let m := if m.cis.full then
      let order := m.fld R.CIS_CFG_ORDER
      let m := m.setFld R.CIS_STATUS_ORDER (if order = 3 then 0 else order)
      m.setCis { m.cis with pcs := (List.range 64).map (fun p => ({ lfsr := m.lfsrSeed p, results := (m.pc p).results } : PcState)) }
    else m
  let m := (m.setFld R.CIS_STATUS_STATE 3).setCis { m.cis with full := false, boot := false, visit := 0, visitAt := m.cc }
  let m := (m.setFlag R.CIS_CTL_REINIT false).status R.E_CIS_READY
  match m.cis.opRun with
  | some t => (m.opInForce t).opEnd 1
  | none => m.loadTiming (m.fld R.CIS_STATUS_OP)

/-- CISTERN_READY (R493), with the work that has ended: 1 the start-up before full training, 2 full training, 3 the zero fill, or a short training. -/
def Chip.cisternReady (c : Chip) (phase : Nat) : Chip :=
  let m := c.eng
  let st := m.cisState
  let full := m.cis.full
  match phase with
  | 1 => if st = 0 then { c with eng := m.trainStart } else c
  | 2 =>
    if st = 1 ∧ full then
      { c with eng := (forEach 64 (fun p m => if p < m.pcCount ∧ m.pcSt p ≠ 3 then m.pcTrained p [0, 1] else m) (m.fittedPcs 1)).setFld R.CIS_STATUS_STATE 2 }
    else c
  | _ =>
    if (full ∧ st = 2) ∨ (!full ∧ st = 1) then
      { c with eng := m.cisUp.showOffline.armChecks.opTry, cistern := if full then [] else c.cistern }
    else c

/-! Periodic training (R296). -/

/-- CCLK cycles of a visit of all pseudo-channels. -/
def Engine.visitPeriod (m : Engine) : Nat := let ms := m.fld R.CIS_TRAINCTL_PERIOD; 600000 * (if ms = 0 then 64 else ms)

/-- The pseudo-channel a visit goes on with. -/
def Engine.nextVisit (m : Engine) : Option Nat := (List.range m.pcCount).find? (fun p => decide (m.cis.visit ≤ p) && m.pcSt p == 1)

/-- A pass of a pseudo-channel is over: the visit goes on, or ends; one that ends after its period is late. -/
def Engine.passOver (m : Engine) (p : Nat) : Engine :=
  let m := m.passEnd
  let m := m.setCis { m.cis with visit := p + 1 }
  if m.nextVisit.isSome then m
  else
    let due := m.cis.visitAt + m.visitPeriod
    let late := decide (due < m.cc)
    let m := m.setCis { m.cis with visit := 0, visitAt := max due m.cc }
    if late then m.status R.E_CIS_TRAIN_LATE else m

/-- TRAINING_PASS: 0 a pass begins to gather, for the next pseudo-channel of the visit; 1 it applies its settings, when the queues are quiet or its share of the period is over; 2 it has
found none, and rung 4 of the ladder starts (R290). DESIGN CHOICE: notes/assumptions/124.md. -/
def Engine.trainingPass (m : Engine) (p stage : Nat) : Engine :=
  let x := m.pc p
  match stage with
  | 0 =>
    if m.cis.pass.isSome || !m.flag R.CIS_TRAINCTL_EN || !m.cisServes || m.nextVisit != some p || (m.cis.visit == 0 && decide (m.cc < m.cis.visitAt)) then m
    else (m.setCis { m.cis with pass := some p, passAt := m.cc }).setFlag R.CIS_STATUS_TRAINING true
  | k =>
    let quiet := x.rq.isEmpty && decide (x.wq.length ≤ m.writeLow)
    let forced := decide (m.cis.passAt + m.visitPeriod / m.pcCount ≤ m.cc)
    if m.cis.pass ≠ some p ∨ (k = 1 ∧ !quiet ∧ !forced) then m
    else
      let m := if k = 1 then m.pcTrained p [m.fld R.CIS_STATUS_OP] else (m.setPc p { m.pc p with rung := 4, good := 16, openRows := [] }).setPcSt p 2
      (m.passOver p).opTry

/-! Background scrub and test (R303, R304). -/

/-- Spans of allotted packs: every segment whose SIZE is not 0, and the display region. -/
def Engine.allotted (m : Engine) : List (Nat × Nat) :=
  (((List.range 256).filter (fun s => m.fld (R.SEG_SIZE_PACKS s) != 0)).map m.segSpan) ++ [m.dispRegion]

/-- The next slot from k on that is not allotted and lies on an online pseudo-channel, within so many jumps. -/
def Engine.testSlot (m : Engine) (spans : List (Nat × Nat)) : Nat → Nat → Nat
  | 0, k => k
  | f + 1, k =>
    if m.totalPacks ≤ k then m.totalPacks
    else match spans.find? (fun s => decide (s.1 ≤ k) && decide (k < s.2)) with
      | some s => m.testSlot spans f s.2
      | none =>
        if m.pcSt (m.pcOf (256 * k)) = 1 then k
        else match m.fld R.CIS_STATUS_ORDER with
          | 2 => m.testSlot spans f ((k / 2 ^ 20 + 1) * 2 ^ 20)
          | 1 => m.testSlot spans f ((k / 16 + 1) * 16)
          | _ => m.testSlot spans f (k + 1)

/-- POS moves to a slot. -/
def Engine.setTestPos (m : Engine) (k : Nat) : Engine :=
  ((m.setReg64 R.CBIST_POS_LO (BitVec.ofNat 64 (256 * k))).setFld R.CBIST_STATUS_PC (m.pcOf (256 * k)))

/-- Does the march leave ones in the slot at hand just now? -/
def Engine.slotHoldsOnes (m : Engine) : Bool := m.cis.element == 3 || m.cis.element == 5

/-- CBIST_GO, and the start of each pass (R303). -/
def Engine.cbistGo (m : Engine) : Engine :=
  if m.fld R.CBIST_RATE_BURSTS = 0 ∨ !m.cisServes ∨ m.slotHoldsOnes then m.setFlag R.CBIST_CTL_GO true
  else ((m.setFlag R.CBIST_CTL_GO false).setFlag R.CBIST_STATUS_BUSY true).setCis { m.cis with element := 0 } |>.setTestPos 0

/-- A fault of the background test is counted, recorded and logged. -/
def Engine.cbistFault (m : Engine) (a : Nat) : Engine :=
  let m := (m.addSat R.CBIST_FAULTCNT 1).setReg64 R.CBIST_LASTFAULT_LO (BitVec.ofNat 64 a)
  (m.status R.E_CBIST_FAULT).logNow 0xB3 2 0x0204 (a / 256)

/-- What a march element leaves in a slot: nothing for reads only, or all zeros or all ones (R303). -/
def marchFill (e : Nat) : Option Byte := match e with | 1 | 3 | 5 => some 0 | 2 | 4 => some 0xFF | _ => none

/-- A march that cannot go on with its slot leaves it zero (R303, R304): the slot is allotted by now, its pseudo-channel is not online, or a new pass is asked for. -/
def Chip.testYield (c : Chip) : Chip :=
  let m := c.eng
  let k := (m.reg64 R.CBIST_POS_LO).toNat / 256
  if !m.slotHoldsOnes || !m.cisServes || (m.testSlot m.allotted 4096 k == k && !m.flag R.CBIST_CTL_GO) then c
  else { c with eng := m.setCis { m.cis with element := 0 }, cistern := writeBytes c.cistern (256 * k) (List.replicate 256 0) }

/-- The commands of one burst's access (R283, R288): its row is opened where it is not. -/
def Engine.testAccess (m : Engine) (p a op : Nat) : Nat → Engine
  | 0 => m
  | f + 1 => let c := m.needs p a op; let m := m.issue p c; if c.op = op then m else m.testAccess p a op f

/-- One burst of a test element: its read with what it found, its write, and a fault. -/
def Engine.testBurst (m : Engine) (e a : Nat) (ecc : Ecc) (mismatch : Bool) : Engine :=
  let p := m.pcOf a
  let m := if e = 1 then m else (m.testAccess p a 2 3).cisEcc ecc a
  let back := e == 0 && ecc == .single
  let m := if (marchFill e).isSome || back then m.testAccess p a 3 3 else m
  let m := if back then (m.addSat R.CBIST_SCRUBCE 1).status R.E_CBIST_SCRUB_CE else m
  if e ≠ 1 ∧ ecc = .double ∨ (1 < e ∧ mismatch) then m.cbistFault a else m

/-- CBIST_ELEMENT (R303): the scrub read or the next march element of the slot at hand, a march begun on a slot going on to its end. `found` has for each burst, the first first, what
its read found and whether a march read differed; good where it lists none. DESIGN CHOICE: notes/assumptions/71.md. -/
def Chip.cbistElement (c : Chip) (found : List (Ecc × Bool)) : Chip :=
  let c := c.testYield
  let m := c.eng
  let scrub := m.flag R.CBIST_CTL_SCRUB_EN
  let march := m.flag R.CBIST_CTL_MARCH_EN || decide (1 < m.cis.element)
  if !m.cisServes || m.fld R.CBIST_RATE_BURSTS == 0 || !(scrub || march) then c
  else
    let m := if m.flag R.CBIST_CTL_GO || !m.flag R.CBIST_STATUS_BUSY then m.cbistGo else m
    let pos := (m.reg64 R.CBIST_POS_LO).toNat / 256
    let k := m.testSlot m.allotted 4096 pos
    let e := if k = pos then m.cis.element else 0
    let e := if e = 0 ∧ !scrub then 1 else e
    if m.totalPacks ≤ k then { c with eng := m.setTestPos k }
    else
      let m := (m.setTestPos k).setFlag R.CBIST_STATUS_MARCH (e != 0)
      let m := forEach 8 (fun b m => let x := nth found b (.good, false); m.testBurst e (256 * k + 32 * b) x.1 x.2) m
      let mem := match marchFill e with | none => c.cistern | some b => writeBytes c.cistern (256 * k) (List.replicate 256 b)
      let last := if march then e == 6 else true
      let m := if last then (m.setCis { m.cis with element := 0 }).setTestPos (k + 1) else m.setCis { m.cis with element := e + 1 }
      { c with eng := m, cistern := mem }

/-- CBIST_PASS_DONE (R303): every unallotted slot has been worked, and the next pass starts. -/
def Engine.cbistPassDone (m : Engine) : Engine :=
  let k := m.testSlot m.allotted 4096 ((m.reg64 R.CBIST_POS_LO).toNat / 256)
  if !m.flag R.CBIST_STATUS_BUSY || decide (k < m.totalPacks) then m
  else (((m.addWrap R.CBIST_PASSCNT 1).status R.E_CBIST_PASS_DONE).setCis { m.cis with element := 0 }).setTestPos 0

end Sys2Proof.Machine
end

