-- ==== Sys2Proof/Machine/Log.lean ====
section
/-! DEFINITION. Interrupts (R352), the event log (R426 to R429) and ALERT_N (R425, R465). -/
namespace Sys2Proof.Machine

/-! The configuration words that software writes (R336 to R339), by function and offset. -/

/-- Change the host link. -/
def Engine.setHost (m : Engine) (h : HostState) : Engine := { m with host := h }

/-- A configuration word as written. -/
def Engine.setCfg (m : Engine) (f off : Nat) (v : Word) : Engine := m.setHost { m.host with cfg := mapSet 0 m.host.cfg (4096 * f + off) v }

/-- Memory Space Enable, Bus Master Enable and D3hot of a function. -/
def Engine.mse (m : Engine) (f : Nat) : Bool := bitAt (m.cfg f 4).toNat 1
def Engine.bme (m : Engine) (f : Nat) : Bool := bitAt (m.cfg f 4).toNat 2
def Engine.d3hot (m : Engine) (f : Nat) : Bool := bitsOf (m.cfg f 0x44).toNat 0 2 == 3

/-- MSI-X and MSI of function 0: enabled, and the messages granted. -/
def Engine.msixOn (m : Engine) : Bool := bitAt (m.cfg 0 0xB0).toNat 31
def Engine.msiOn (m : Engine) : Bool := bitAt (m.cfg 0 0x50).toNat 16
def Engine.msiCount (m : Engine) : Nat := 2 ^ min 5 (bitsOf (m.cfg 0 0x50).toNat 20 3)

/-- Does the module send what its host side issues over the flume: a tributary in funnel mode (R263)? -/
def Engine.toFlume (m : Engine) : Bool := m.role == 2 && m.flag R.RING_STATUS_FUNNEL

/-- May the host side issue requests: BME set, D0, not in HOLD, no dam, its link not in reset (R352, R355, R428)? In funnel mode the head keeps BME and D3hot of a tributary's function. -/
def Engine.hostIssues (m : Engine) : Bool :=
  (m.toFlume || (m.bme 0 && !m.d3hot 0 && m.host.ready && !m.host.perst)) && !m.host.hold && !m.flag R.DAM_STATUS_DAMMED && !m.dam.stopped && m.running

/-- A run of bytes as DMAHDR and PAYLOAD flits to the head (R263), at most 4,096 bytes a run. -/
def Engine.sendRun (m : Engine) (drain addr : Nat) : Nat → List Byte → Engine
  | 0, _ => m
  | k + 1, bytes =>
    if bytes.isEmpty then m
    else
      let run := bytes.take 4096
      let m := (m.sendSeq 0 (.dmahdr 0 addr run.length drain)).1
      let m := (List.range ((run.length + 23) / 24)).foldl (fun (m : Engine) i => (m.sendSeq 0 (.payload 0 (leNat ((run.drop (24 * i)).take 24)))).1) m
      m.sendRun drain (addr + run.length) k (bytes.drop 4096)

/-- Bytes written to a PCIe address by the module's host side: on its own link, or over the flume. -/
def Engine.hostWrite (m : Engine) (drain addr : Nat) (bytes : List Byte) (o : HostOut) : Engine :=
  if m.toFlume then m.sendRun drain addr (bytes.length + 1) bytes else m.setHost { m.host with out := m.host.out ++ [o], busyAt := m.cc }

/-- Is a vector masked (R352)? -/
def Engine.masked (m : Engine) (v : Nat) : Bool :=
  if m.msixOn then bitAt (m.cfg 0 0xB0).toNat 30 || bitAt (m.reg (R.HOST_MSIX v 3)).toNat 0
  else if m.msiOn then bitAt (m.cfg 0 0x60).toNat (v % m.msiCount)
  else true

/-- The message of a vector goes out; under MSI it covers every vector of the same message. -/
def Engine.sendVector (m : Engine) (v : Nat) : Engine :=
  let clear := fun (f : Nat → Bool) => (List.range 64).foldl (fun (p : BitVec 64) k => if f k then p &&& ~~~BitVec.ofNat 64 (2 ^ k) else p) m.host.pending
  if m.msixOn then m.setHost { m.host with pending := clear (· == v), out := m.host.out ++ [.msix v], busyAt := m.cc }
  else m.setHost { m.host with pending := clear (fun k => k % m.msiCount == v % m.msiCount), out := m.host.out ++ [.msi (v % m.msiCount)], busyAt := m.cc }

/-- INTERRUPT_SEND (R352): a pending vector is sent once nothing masks or blocks it. -/
def Engine.interruptSend (m : Engine) (v : Nat) : Engine := if m.host.pending.getLsbD v && m.hostIssues && !m.masked v then m.sendVector v else m

/-- An event is signalled on its vector, or held as a pending bit (R352). -/
def Engine.interrupt (m : Engine) (v : Nat) : Engine := (m.setHost { m.host with pending := m.host.pending ||| BitVec.ofNat 64 (2 ^ v) }).interruptSend v

/-- The MSI-X pending bits as the PBA shows them, and the MSI Pending Bits. DEDUCED: notes/assumptions/74.md. -/
def Engine.pba (m : Engine) : BitVec 64 := if m.msixOn then m.host.pending else 0
def Engine.msiPending (m : Engine) : Word :=
  if m.msixOn || !m.msiOn then 0
  else (List.range 64).foldl (fun (w : Word) k => if m.host.pending.getLsbD k then w ||| BitVec.ofNat 32 (2 ^ (k % m.msiCount)) else w) 0

/-! Staging (R426, R427). -/

/-- An entry's 16 bytes (R426). -/
def LogEntry.bytes (e : LogEntry) (phase : Bool) : List Byte :=
  bytesLE 8 e.tb.toNat ++ bytesLE 8 (e.page + e.cls * 2 ^ 12 + phase.toNat * 2 ^ 14 + e.code * 2 ^ 16 + e.data.toNat * 2 ^ 32)

/-- Entries staged (R443). -/
def Engine.staged (m : Engine) : Nat := (m.fld R.EVT_STG_TAIL_INDEX + 2 ^ 16 - m.fld R.EVT_STG_HEAD_INDEX) % 2 ^ 16

/-- The place of a staging slot in the tanks. -/
def stagingAt (i : Nat) : Nat := 63 * tankSize + 16 * (i % 16384)

/-- An entry is written into its slot. -/
def Chip.stage (c : Chip) (e : LogEntry) : Chip :=
  let t := c.eng.fld R.EVT_STG_TAIL_INDEX
  let m := (c.eng.setWordError (stagingAt t / 8) .good).setWordError (stagingAt t / 8 + 1) .good
  let c := { c with eng := m }.tankBytes (stagingAt t) ((e.bytes false).map some)
  let m := c.eng.setFld R.EVT_STG_TAIL_INDEX (t + 1)
  { c with eng := if m.staged = 16320 then m.status R.E_EVT_RESERVE else m }

/-- An entry is dropped (R427). -/
def Engine.logDrop (m : Engine) (e : LogEntry) : Engine :=
  let m := { m with lostTb := if m.lostSince = 0 then e.tb else m.lostTb, lostSince := min (m.lostSince + 1) 0xFFFFFFFF }
  (m.addSat R.EVT_LOST 1).status R.E_EVT_LOST

/-- LOG_LOST (R427): where there is room outside the reserve, the entry with the count of dropped ones. -/
def Chip.logLost (c : Chip) : Chip :=
  let m := c.eng
  if m.lostSince = 0 ∨ m.owner 63 ≠ 5 ∨ 16320 ≤ m.staged then c
  else { c with eng := { m with lostSince := 0 } }.stage ⟨m.pclk, 8, 0, 3, BitVec.ofNat 32 m.lostSince, m.lostTb⟩

/-- EVENT_LOG_ENTRY (R427): the oldest entry detected is written, behind a LOG_LOST that waits, or dropped. DEDUCED: notes/assumptions/99.md. -/
def Chip.logEntry (c : Chip) : Chip :=
  match c.eng.detected with
  | [] => c
  | e :: rest =>
    let c := { c with eng := { c.eng with detected := rest } }
    let c := c.logLost
    let m := c.eng
    let last := decide (0x300 ≤ e.code) && decide (e.code < 0x500)
    if m.owner 63 ≠ 5 ∨ 16384 ≤ m.staged ∨ (16320 ≤ m.staged ∧ !last) then { c with eng := m.logDrop e } else c.stage e

/-- PAGE_EVENT (R404, R419): what a page raised in one PCLK cycle makes its entry. -/
def Engine.pageEvent (m : Engine) (page : Nat) : Engine :=
  match m.raised.find? (fun r => r.page == page) with
  | none => m
  | some r => { m with raised := m.raised.erase r, detected := insertEntry ⟨r.pclk, page, 0, 1, r.bits, r.tb⟩ m.detected }

/-- At the end of a PCLK cycle everything detected in it is written, behind a LOG_LOST for which there is room again (R427). -/
def Chip.logFlush (c : Chip) (pclk : Nat) : Chip :=
  let c := c.logLost
  let m := c.eng.raised.foldl (fun m r => if r.pclk < pclk then m.pageEvent r.page else m) c.eng
  m.detected.foldl (fun c e => if e.pclk < pclk then c.logEntry else c) { c with eng := m }

/-! The host ring (R428, R429). -/

/-- Entries of the host ring. -/
def Engine.evtRing (m : Engine) : Nat := 2 ^ min 16 (max 4 (m.fld R.EVT_CTL_RING_LOG2))

/-- The vector of an entry (R429). -/
def Engine.evtVector (m : Engine) (page cls : Nat) : Nat :=
  match cls with
  | 1 => m.fld R.EVT_VEC_C
  | 2 => m.fld R.EVT_VEC_U
  | 3 => m.fld R.EVT_VEC_S
  | _ => bitsOf (m.reg (R.EVT_VMAP (page % 256 / 4))).toNat (8 * (page % 4)) 6

/-- EVENT_LOG_COPY (R428, R429): the oldest staged entry is copied to the host ring and its vector raised. A word of it that is uncorrectable (R322) is open. DESIGN CHOICE: notes/assumptions/128.md. -/
def Engine.evtCopy (m : Engine) (t : Memory) : Engine :=
  if !m.flag R.EVT_CTL_EN || !m.hostIssues || m.staged == 0 then m
  else
    let tail := m.fld R.EVT_TAIL_INDEX
    let n := m.evtRing
    if (tail + 1) % n = m.fld R.EVT_HEAD_INDEX then m.status R.E_EVT_RING_FULL
    else
      let s := m.fld R.EVT_STG_HEAD_INDEX
      let a := stagingAt s
      let (m, badLo) := m.wordsRead [a / 8]
      let (m, badHi) := m.wordsRead [a / 8 + 1]
      let (i, m) := if badLo || badHi then m.draw else (0, m)
      let lo := if badLo then Config.badWord (2 * i) % 2 ^ 64 else readLE t a 8
      let hi := if badHi then Config.badWord (2 * i + 1) % 2 ^ 64 else readLE t (a + 8) 8
      let addr := (m.reg64 R.EVT_RING_BASE_LO).toNat / 16 * 16 + 16 * tail
      let bytes := bytesLE 8 lo ++ bytesLE 8 (hi + m.host.evtPhase.toNat * 2 ^ 14)
      let m := m.hostWrite 0 addr bytes (.event addr bytes)
      let m := (m.setFld R.EVT_TAIL_INDEX ((tail + 1) % n)).setFld R.EVT_STG_HEAD_INDEX (s + 1)
      let m := if (tail + 1) % n = 0 then m.setHost { m.host with evtPhase := !m.host.evtPhase } else m
      m.interrupt (m.evtVector (bitsOf hi 0 12) (bitsOf hi 12 2))

/-- EVT.CTL was written over `old` (R428, R444): the size changes only while EN is 0, and EN going to 1 begins the first pass. -/
def Engine.evtCtl (m : Engine) (old : Word) : Engine :=
  let was := bitAt old.toNat 0
  let m := if was then m.setFld R.EVT_CTL_RING_LOG2 (bitsOf old.toNat 8 5) else m
  if !was && m.flag R.EVT_CTL_EN then m.setHost { m.host with evtPhase := true } else m

/-- STG_HEAD_WRITE (R428, R444): only while EN is 0, and only forward within FILL. -/
def Engine.stgHead (m : Engine) (v : Nat) : Engine :=
  let step := (v % 2 ^ 16 + 2 ^ 16 - m.fld R.EVT_STG_HEAD_INDEX) % 2 ^ 16
  if m.flag R.EVT_CTL_EN || decide (m.staged < step) then m else m.setFld R.EVT_STG_HEAD_INDEX v

/-- NEXT_TB as a read shows it (R444). -/
def Engine.evtNextTb (m : Engine) (t : Memory) : Tb := if m.staged = 0 then 0 else BitVec.ofNat 64 (readLE t (stagingAt (m.fld R.EVT_STG_HEAD_INDEX)) 8)

/-! ALERT_N (R425, R465). -/

/-- The active management alert sources (R465, R471). -/
def Engine.alertSources (m : Engine) : Nat :=
  (m.fld R.THRM_STATUS_WARN != 0).toNat + 2 * (m.fld R.THRM_SUPSTAT_WARN != 0).toNat + 4 * (decide (16320 ≤ m.staged)).toNat

/-- The limits in use, RELEASE, WARN and CRIT (R463): 90, 95 and 105 °C where those set are out of order. -/
def Engine.limitsBad (m : Engine) : Bool :=
  decide (m.fld R.THRM_LIMITS_WARN ≤ m.fld R.THRM_LIMITS_RELEASE) || decide (m.fld R.THRM_LIMITS_CRIT ≤ m.fld R.THRM_LIMITS_WARN) || decide (120 < m.fld R.THRM_LIMITS_CRIT)
def Engine.limits (m : Engine) : Int × Int × Int :=
  if m.limitsBad then (90, 95, 105) else (m.fld R.THRM_LIMITS_RELEASE, m.fld R.THRM_LIMITS_WARN, m.fld R.THRM_LIMITS_CRIT)

/-- A sensor's last sample, in 1/16 °C. -/
def Engine.temp (m : Engine) (s : Nat) : Int := signedOf 16 (m.fld (R.THRM_TEMP_DEGC s))

/-- Is a class S cause active (R424, R425)? A cause "cleared at once" is not. -/
def Engine.causeActive (m : Engine) (c : Nat) : Bool :=
  bitAt (m.fld R.SAFE_CAUSES_CAUSE) (c - 1) &&
  (match c with
   | 1 => !m.badParity.isEmpty
   | 4 => !m.mgt.outside.isEmpty
   | 5 => (List.range 8).any (fun s => m.flag (R.THRM_TEMP_VALID s) && decide (16 * m.limits.1 ≤ m.temp s))
   | 6 => m.flag R.RING_STATUS_MODE && m.fld R.RING_MEMBERS_PRESENT &&& m.fld R.RING_MEMBERS_REACH != m.fld R.RING_MEMBERS_PRESENT
   | 9 => !m.flag R.CLK_STATUS_REDUNDANT
   | _ => false)

/-- Is any cause of settling active? -/
def Engine.anyActive (m : Engine) : Bool := (List.range 9).any (fun c => m.causeActive (c + 1))

/-- Does the module hold ALERT_N low (R425, R465)? -/
def Engine.alertLow (m : Engine) : Bool :=
  m.flag R.SAFE_STATUS_SETTLED || m.flag R.DAM_STATUS_DAMMED || m.dam.td.isSome || m.anyActive || m.mgt.tripped ||
  (m.alertSources &&& (m.reg R.MGT_ALERTEN).toNat % 8) != 0

end Sys2Proof.Machine
end

