-- ==== Sys2Proof/Machine/Drains.lean ====
section
/-! DEFINITION. The WIN and DRAIN pages: windows (R342 to R345) and drains (R346 to R356). -/
namespace Sys2Proof.Machine

/-! Windows. -/

/-- A refused request on the host link (R336, R361, R366): nothing is counted in HOLD. -/
def Engine.hostRefuse (m : Engine) (bar : Nat) (write : Bool) (cause off : Nat) : Engine :=
  if m.host.hold then m
  else ((m.addSat R.HOST_REFUSED 1).setReg R.HOST_LASTREF (BitVec.ofNat 32 (bar + write.toNat * 2 ^ 3 + cause * 2 ^ 4 + off / 256 * 2 ^ 8))).status R.E_HOST_REFUSED

/-- The base and the size in bytes of a window in force (R369). -/
def Engine.winBase (m : Engine) (w : Nat) : Nat := (m.reg64 (R.WIN_BASE_LO w)).toNat % 2 ^ 40 / 2 ^ 12 * 2 ^ 12
def Engine.winSize (m : Engine) (w : Nat) : Nat := 4096 * min 65536 (max 1 (m.fld (R.WIN_SIZE_PAGES w)))

/-- Why a byte of a BAR2 request is refused (R342): 0 where it is not. -/
def Engine.winCause (m : Engine) (off : Nat) (write : Bool) : Nat :=
  let w := bitsOf off 28 4
  let v := off % 2 ^ 28
  if !m.flag (R.WIN_CFG_EN w) then 1
  else if m.winSize w ≤ v then 2
  else if write && !m.flag (R.WIN_CFG_WRITE w) then 3
  else if m.cisBytes ≤ m.winBase w + v then 4
  else 0

/-- A translation fault (R342). -/
def Engine.winFault (m : Engine) (off cause : Nat) (write : Bool) : Engine :=
  let word := bitsOf off 28 4 + cause * 2 ^ 4 + write.toNat * 2 ^ 7 + bitsOf off 8 20 * 2 ^ 8
  (((m.addSat R.WIN_FAULTCNT 1).setReg R.WIN_LASTFAULT (BitVec.ofNat 32 word)).status R.E_WIN_FAULT).logNow 0xD1 2 0x0209 word

/-- The first byte of a request that is refused, with its cause. -/
def Engine.winRefusal (m : Engine) (off len : Nat) (write : Bool) : Option (Nat × Nat) :=
  (List.range len).findSome? (fun i => let c := m.winCause (off + i) write; if c = 0 then none else some (off + i, c))

/-- Are BAR2 requests answered with CA (R343): the cistern is INIT, TRAINING or FILLING, the engine dammed, or the headrace lost (notes/assumptions/133.md)? -/
def Engine.winClosed (m : Engine) : Bool := decide (m.cisState < 3) || m.flag R.DAM_STATUS_DAMMED || m.lost

/-- A lock that a window in force holds: its segment. -/
def Engine.winLock (m : Engine) (w : Nat) : Option Nat := if m.flag (R.WIN_CFG_EN w) && m.flag (R.WIN_CFG_LOCK w) then some (m.fld (R.WIN_CFG_SEG w)) else none

/-- Locks follow a change of a window's set in force (R345). -/
def Engine.moveLock (m : Engine) (old new : Option Nat) : Engine :=
  if old = new then m
  else
    let m := match old with | some s => m.lockRel s | none => m
    match new with | some s => m.lockAcq s | none => m

/-- One window's shadow goes into force (R344). -/
def Engine.winTake (m : Engine) (w : Nat) : Engine :=
  let old := m.winLock w
  let m := (((m.setReg (R.WIN_BASE_LO w) (m.reg (R.WIN_SH_BASE_LO w))).setReg (R.WIN_BASE_HI w) (m.reg (R.WIN_SH_BASE_HI w))).setReg
    (R.WIN_SIZE w) (m.reg (R.WIN_SH_SIZE w))).setReg (R.WIN_CFG w) (m.reg (R.WIN_SH_CFG w))
  m.moveLock old (m.winLock w)

/-- WIN_COMMIT (R344): the windows named change together, at once: commands stand at TLP boundaries. -/
def Engine.winCommit (m : Engine) (bits : Nat) : Engine :=
  if bits % 2 ^ 16 = 0 then m else (forEach 16 (fun w m => if bitAt bits w then m.winTake w else m) m).status R.E_WIN_COMMIT

/-- Every window is disabled and its lock released, at a reset of the page (R345). -/
def Engine.winRelease (m : Engine) : Engine := forEach 16 (fun w m => let old := m.winLock w; (m.setReg (R.WIN_CFG w) 0).moveLock old none) m

/-- STATUS of the WIN page as a read shows it: the windows enabled. -/
def Engine.winStatus (m : Engine) : Word :=
  BitVec.ofNat 32 ((List.range 16).foldl (fun a w => a + (m.flag (R.WIN_CFG_EN w)).toNat * 2 ^ (16 + w)) 0)

/-- STATUS of the HOST page as a read shows it (R366). -/
def Engine.hostStatus (m : Engine) : Word :=
  let up := m.host.l0 || m.host.l1
  BitVec.ofNat 32 ((if up then m.host.speed + m.host.width * 2 ^ 3 + 2 ^ 8 else 0) + (m.bme 0).toNat * 2 ^ 9 + (m.mse 0).toNat * 2 ^ 10 + (m.d3hot 0).toNat * 2 ^ 11 +
    m.host.hold.toNat * 2 ^ 12 + m.host.holdCause * 2 ^ 13 + (if m.msixOn then 2 else if m.msiOn then 1 else 0) * 2 ^ 15 +
    (m.flag R.RING_STATUS_FUNNEL).toNat * 2 ^ 17 + m.host.commonClk.toNat * 2 ^ 18 + m.host.l1.toNat * 2 ^ 19)

/-! Drains: states 0 IDLE, 1 RUNNING, 2 PAUSED, 3 STOPPED. -/

/-- A drain's state changes. -/
def Engine.setDrainSt (m : Engine) (d v : Nat) : Engine := m.setFld (R.DRAIN_DSTAT_STATE d) v

/-- STATUS as a read shows it: the state of every drain. -/
def Engine.drainStatus (m : Engine) : Word := BitVec.ofNat 32 ((List.range 4).foldl (fun a d => a + m.drainSt d * 4 ^ d) 0)

/-- Descriptors of a drain's ring (R346, R371). -/
def Engine.ringLen (m : Engine) (d : Nat) : Nat :=
  2 ^ min (if m.flag (R.DRAIN_CTL_RING_LOC d) then 13 else 16) (max 4 (m.fld (R.DRAIN_CTL_RING_LOG2 d)))

/-- HEAD and TAIL, modulo the ring. -/
def Engine.drainHead (m : Engine) (d : Nat) : Nat := m.fld (R.DRAIN_HEAD_INDEX d) % m.ringLen d
def Engine.drainTail (m : Engine) (d : Nat) : Nat := m.fld (R.DRAIN_TAIL_INDEX d) % m.ringLen d

/-- May drains issue requests (R355)? -/
def Engine.drainsMay (m : Engine) : Bool := m.hostIssues

/-- An IDLE drain with work runs (R346, R356). -/
def Engine.drainKick (m : Engine) (d : Nat) : Engine :=
  if m.drainSt d = 0 ∧ m.flag (R.DRAIN_CTL_EN d) ∧ m.drainsMay ∧ m.drainHead d ≠ m.drainTail d then m.setDrainSt d 1 else m
def Engine.drainsKick (m : Engine) : Engine := forEach 4 (fun d m => m.drainKick d) m

/-- The checks of R348. -/
def Engine.descBad (m : Engine) (x : Desc) : Bool := x.len == 0 || decide (m.cisBytes < x.src + x.len) || decide (2 ^ 64 < x.dst + x.len) || x.resv

/-- A completion record (R350), with the TB it names. -/
def Engine.drainRecord (m : Engine) (d i status user : Nat) (tb : Tb) : Engine :=
  if !m.flag (R.DRAIN_CTL_CPL_EN d) then m
  else
    let flags := m.fld (R.DRAIN_DSTAT_PHASE d) + d * 2
    let bytes := bytesLE 8 tb.toNat ++ bytesLE 2 i ++ bytesLE 1 status ++ bytesLE 1 flags ++ bytesLE 4 user
    let addr := (m.reg64 (R.DRAIN_CPL_BASE_LO d)).toNat / 16 * 16 + 16 * i
    m.hostWrite d addr bytes (.record addr bytes)

/-- A descriptor ends with a status other than OK: LASTERR, the ERR bit, the class U entry. -/
def Engine.drainErr (m : Engine) (d i status : Nat) : Engine :=
  ((m.setReg (R.DRAIN_LASTERR d) (BitVec.ofNat 32 (i + status * 2 ^ 16))).status ⟨0xD2, 4 + d⟩).logNow 0xD2 2 0x0208 (i + status * 2 ^ 16 + d * 2 ^ 24)

/-- A resume point is recorded (R355). -/
def Engine.setResume (m : Engine) (d i off : Nat) : Engine :=
  ((m.setReg (R.DRAIN_RESUME_IDX d) (BitVec.ofNat 32 i)).setReg (R.DRAIN_RESUME_OFF d) (BitVec.ofNat 32 off)).setFlag (R.DRAIN_DSTAT_RESUME_VALID d) true

/-- A descriptor ends with DESC_ERR, FETCH_ERR or OWNER_ERR, and the drain stops (R348); the event of one that was read with IRQ set follows its record (R350). -/
def Engine.drainStop (m : Engine) (d i status user : Nat) (irq : Bool) : Engine :=
  let m := (m.drainRecord d i status user (tbOfCycle m.cycle)).drainErr d i status
  let m := if irq then m.status ⟨0xD2, d⟩ else m
  let m := (m.setFld (R.DRAIN_DSTAT_LASTSTATUS d) status).setResume d i 0
  (m.setDrain d {}).setDrainSt d 3

/-- A drain pauses (R355): data read and not written are discarded, and so are prefetched descriptors; of the descriptor at hand stay the bytes written, the lock and bad data so far. -/
def Engine.drainPaused (m : Engine) (d i off : Nat) : Engine :=
  let x := m.drain d
  let m := (m.setResume d i off).setDrain d { offset := off, acquired := x.acquired, bad := x.bad }
  (m.setDrainSt d 2).status R.E_DRAIN_PAUSE

/-- The resume point of a drain: its descriptor and the bytes of it written. -/
def Engine.drainPoint (m : Engine) (d : Nat) : Nat × Nat :=
  let x := m.drain d
  match x.working with
  | none => (m.drainHead d, if x.resumed then x.offset else 0)
  | some (i, _) => (i, x.offset)

/-- DRAIN_PAUSE (R355): a drain that is to stop does so; commands stand at TLP boundaries. DESIGN CHOICE: notes/assumptions/24.md. -/
def Engine.drainPause (m : Engine) (d : Nat) : Engine :=
  if m.drainSt d ≠ 1 ∨ !(m.drain d).pausing then m else m.drainPaused d (m.drainPoint d).1 (m.drainPoint d).2

/-- Drains that are to stop do so. -/
def Engine.drainsPause (m : Engine) : Engine := forEach 4 (fun d m => m.drainPause d) m

/-- The bytes of the next write of a drain (R349): as many as the payload limit, the 4 KiB boundary of the destination and the descriptor allow, once all of them have come in; over the
flume a run of up to 4,096 bytes (R263). DESIGN CHOICE: notes/assumptions/125.md. -/
def Engine.drainTlp (m : Engine) (d : Nat) : Option (Nat × List Byte) :=
  let x := m.drain d
  match x.working with
  | none => none
  | some (_, l) =>
    let y := descOf l
    let dst := y.dst + x.offset
    let n := min (if m.toFlume then 4096 else m.mps) (min (4096 - dst % 4096) (y.len - x.offset))
    if m.drainSt d ≠ 1 ∨ x.pausing ∨ n = 0 ∨ !m.drainsMay then none
    else
      let byte := fun i => x.got.findSome? (fun (b : Nat × List Byte) => if b.1 ≤ i then b.2[i - b.1]? else none)
      ((List.range n).mapM (fun k => byte (x.offset + k))).map (fun bytes => (dst, bytes))

/-- A drain's next write goes out (R349); source blocks written whole are dropped. -/
def Engine.drainWrite (m : Engine) (d dst : Nat) (bytes : List Byte) : Engine :=
  let x := m.drain d
  let off := x.offset + bytes.length
  let m := m.setDrain d { x with offset := off, got := x.got.filter (fun b => decide (off < b.1 + b.2.length)), lastTb := tbOfCycle m.cycle }
  let m := m.hostWrite d dst bytes (.copy d dst bytes)
  m.setReg64 (R.DRAIN_BYTES_LO d) (m.reg64 (R.DRAIN_BYTES_LO d) + BitVec.ofNat 64 bytes.length)

/-- The drains that have a write ready issue their writes in turn, one at a time (R351). -/
def Engine.drainsIssue : Nat → Engine → Engine
  | 0, m => m
  | f + 1, m =>
    match ((List.range 4).map (fun k => (m.host.turn + 1 + k) % 4)).findSome? (fun d => (m.drainTlp d).map (fun w => (d, w))) with
    | none => m
    | some (d, dst, bytes) => ((m.setHost { m.host with turn := d }).drainWrite d dst bytes).drainsIssue f

/-- The drains go on: the writes that are ready. A block of 256 bytes makes no more than 256 writes, and no more than 17 blocks wait for one. -/
def Engine.drainsGo (m : Engine) : Engine := m.drainsIssue 4096

/-- RUNNING drains are to stop: at a cleared BME or EN, D3hot, HOLD, an FLR, a dam (R355). -/
def Engine.drainsStop (m : Engine) : Engine := forEach 4 (fun d m => if m.drainSt d = 1 then m.setDrain d { m.drain d with pausing := true } else m) m

/-- The settle's effect on drains (R422): a descriptor in progress is completed first. -/
def Engine.drainsSettle (m : Engine) : Engine :=
  forEach 4 (fun d m =>
    let x := m.drain d
    if m.drainSt d ≠ 1 then m
    else if x.working.isSome then m.setDrain d { x with finishing := true }
    else m.drainPaused d (m.drainPoint d).1 (m.drainPoint d).2) m

/-- DRAIN_RESUME (R356): the bits written to RESUME. -/
def Engine.drainResume (m : Engine) (bits : Nat) : Engine :=
  forEach 4 (fun d m =>
    if !bitAt bits d || !m.flag (R.DRAIN_CTL_EN d) || !m.drainsMay || !m.flag (R.DRAIN_DSTAT_RESUME_VALID d) then m
    else
      let off := (m.reg (R.DRAIN_RESUME_OFF d)).toNat
      let m := (m.setFld (R.DRAIN_HEAD_INDEX d) (m.fld (R.DRAIN_RESUME_IDX_INDEX d))).setFlag (R.DRAIN_DSTAT_RESUME_VALID d) false
      let m := m.setDrain d { acquired := (m.drain d).acquired, bad := (m.drain d).bad, offset := off, resumed := true }
      m.setDrainSt d (if m.drainHead d = m.drainTail d then 0 else 1)) m

/-- DRAIN.CTL was written over `old` (R346, R350, R355). -/
def Engine.drainCtl (m : Engine) (d : Nat) (old : Word) : Engine :=
  let st := m.drainSt d
  let keep := fun (m : Engine) (f : Field) => m.setFld f (bitsOf old.toNat f.lo f.width)
  let m := if st = 0 ∨ st = 3 then m else keep (keep m (R.DRAIN_CTL_RING_LOC d)) (R.DRAIN_CTL_RING_LOG2 d)
  let was := bitAt old.toNat 0
  let now := m.flag (R.DRAIN_CTL_EN d)
  let m := if now && !was then m.setFlag (R.DRAIN_DSTAT_PHASE d) true else m
  let m := if was && !now && st = 1 then m.setDrain d { m.drain d with pausing := true } else m
  m.drainKick d

/-- What a descriptor fetch came back with: over the link bytes, or UR, CA, poisoned data or a timeout; from a ring tank the words as they are, `ecc` being what the first one's read met
(R346, R348). At most 8 descriptors ahead of HEAD, of at most 256 bytes, none past the end of the ring. -/
def Chip.descFetch (c : Chip) (d : Nat) (reply : Option (List Byte)) (ecc : Ecc) : Chip :=
  let m := c.eng
  let x := m.drain d
  let n := m.ringLen d
  let ahead := x.fetched.length + x.working.isSome.toNat
  let at_ := (m.drainHead d + ahead) % n
  let room := min (min (8 - ahead) (n - at_)) ((m.drainTail d + n - at_) % n)
  if m.drainSt d ≠ 1 ∨ x.pausing ∨ !m.drainsMay ∨ room = 0 ∨ ahead ≥ n - 1 ∨ x.fetched.any (fun f => f.2.1 != 0) then c
  else
    let add := fun (m : Engine) (l : List (Nat × Nat × List Byte)) => m.setDrain d { m.drain d with fetched := x.fetched ++ l }
    if m.flag (R.DRAIN_CTL_RING_LOC d) then
      let base := ((m.reg64 (R.DRAIN_RING_BASE_LO d)).toNat % 2 ^ 24 / 32 * 32 + 32 * at_) % 2 ^ 24
      let tank := base / tankSize
      if m.owner tank ≠ 4 then { c with eng := add m [(at_, 4, [])] }
      else
        let m := m.touchGroup (groupOf tank)
        let m := if ecc = .good then m else (m.wordRead (base / 8) ecc).1
        let (m, l) := (List.range room).foldl (fun (s : Engine × List (Nat × Nat × List Byte)) k =>
          if s.2.any (fun f => f.2.1 != 0) then s
          else
            let a := base + 32 * k
            let (m, bad) := s.1.wordsRead (wordsOf a 32)
            (m, s.2 ++ [if bad then (at_ + k, 3, []) else (at_ + k, 0, bytesLE 32 (readLE c.tanks a 32))])) (m, [])
        { c with eng := add m l }
    else match reply with
      | none => { c with eng := add m [(at_, 3, [])] }
      | some l => { c with eng := add m ((List.range (min room (l.length / 32))).map (fun k => (at_ + k, 0, (l.drop (32 * k)).take 32))) }

/-- DESCRIPTOR_START (R348, R349): the descriptor at HEAD is checked and begins, or the drain stops. A descriptor that was resumed keeps its lock, what was written of it, and the bad
data met so far; its reads begin behind what was written. -/
def Engine.descStart (m : Engine) (d : Nat) : Engine :=
  let x := m.drain d
  match x.fetched with
  | [] => m
  | (i, err, l) :: rest =>
    if m.drainSt d ≠ 1 ∨ x.pausing ∨ x.working.isSome ∨ !m.drainsMay then m
    else if err ≠ 0 then let (k, m) := m.draw; m.drainStop d i err (Config.badWord k % 2 ^ 32) false
    else
      let y := descOf l
      if m.descBad y then m.drainStop d i 1 y.user y.irq
      else
        let had := x.resumed && x.acquired
        let off := if x.resumed then min x.offset y.len else 0
        let m := if y.acq && !had then m.lockAcq y.seg else m
        let tag := m.cis.nextTag
        let m := m.setCis { m.cis with nextTag := tag + 1 }
        let m := m.setDrain d { fetched := rest, working := some (i, l), offset := off, acquired := y.acq, tag := tag, asked := off, bad := x.resumed && x.bad, lastTb := tbOfCycle m.cycle }
        (m.drainAsk d).drainsGo

/-- DESCRIPTOR_COMPLETE (R350): its last write has been issued. RELEASE is applied, and the record and the event follow, but for a chained descriptor that is OK. -/
def Engine.descComplete (m : Engine) (d : Nat) : Engine :=
  let x := m.drain d
  match x.working with
  | none => m
  | some (i, l) =>
    let y := descOf l
    if m.drainSt d ≠ 1 ∨ x.pausing ∨ !m.drainsMay ∨ x.offset < y.len then m
    else
      let status := if x.bad then 2 else 0
      let m := if y.release then (m.lockRel y.seg).markRead y.seg else m
      let m := m.addWrap (R.DRAIN_DESCCNT d) 1
      let quiet := y.chain && !x.bad
      let m := if quiet then m else m.drainRecord d i status y.user x.lastTb
      let m := if x.bad then m.drainErr d i status else m
      let m := m.setFld (R.DRAIN_DSTAT_LASTSTATUS d) status
      let m := if y.irq && !quiet then m.status ⟨0xD2, d⟩ else m
      let next := (i + 1) % m.ringLen d
      let m := m.setFld (R.DRAIN_HEAD_INDEX d) next
      let m := if next = 0 then m.setFld (R.DRAIN_DSTAT_PHASE d) (1 - m.fld (R.DRAIN_DSTAT_PHASE d)) else m
      let m := m.setDrain d { fetched := x.fetched }
      if next = m.drainTail d then m.setDrainSt d 0 else if x.finishing then m.drainPaused d next 0 else m

/-- The DRAIN registers at an FLR: reset values, but for the resume points, which stand (R358). -/
def Engine.drainsFlr (m : Engine) (clear : Engine → Engine) : Engine :=
  let keep := (List.range 4).map (fun d => (m.reg (R.DRAIN_RESUME_IDX d), m.reg (R.DRAIN_RESUME_OFF d), m.fld (R.DRAIN_DSTAT_RESUME_VALID d), m.drain d))
  forEach 4 (fun d m =>
    let (i, o, v, x) := nth keep d (0, 0, 0, {})
    (((m.setReg (R.DRAIN_RESUME_IDX d) i).setReg (R.DRAIN_RESUME_OFF d) o).setFld (R.DRAIN_DSTAT_RESUME_VALID d) v).setDrain d { acquired := x.acquired, bad := x.bad }) (clear m)

end Sys2Proof.Machine
end

