-- ==== Sys2Proof/Machine/Display.lean ====
section
/-! DEFINITION. The display outputs (R372 to R390). -/
namespace Sys2Proof.Machine

/-- One output's state. -/
def Engine.dsp (m : Engine) (o : Nat) : DispState := nth m.disp o {}
def Engine.setDsp (m : Engine) (o : Nat) (d : DispState) : Engine := { m with disp := m.disp.set o d }

/-- The page of an output. -/
def dispPage (o : Nat) : Nat := 0xE0 + o

/-- The timing of an output (R377). -/
structure Timing where
  hact : Nat
  hfp : Nat
  hsync : Nat
  hbp : Nat
  vact : Nat
  vfp : Nat
  vsync : Nat
  vbp : Nat
  k : Nat
  deriving DecidableEq, Repr

/-- A timing from HTIM0, HTIM1, VTIM0, VTIM1 and PIXDIV. -/
def timingOf (l : List Word) : Timing :=
  let w := fun i => (nth l i 0).toNat
  { hact := bitsOf (w 0) 0 13, hfp := bitsOf (w 0) 16 13, hsync := bitsOf (w 1) 0 13, hbp := bitsOf (w 1) 16 13
    vact := bitsOf (w 2) 0 13, vfp := bitsOf (w 2) 16 13, vsync := bitsOf (w 3) 0 13, vbp := bitsOf (w 3) 16 13, k := bitsOf (w 4) 0 8 }

/-- Line total, frame total, ticks of a line. -/
def Timing.ht (t : Timing) : Nat := t.hact + t.hfp + t.hsync + t.hbp
def Timing.vt (t : Timing) : Nat := t.vact + t.vfp + t.vsync + t.vbp
def Timing.line (t : Timing) : Nat := t.ht * (2 * t.k)

/-- The limits of R377. -/
def Timing.valid (t : Timing) : Bool :=
  decide (12 ≤ t.k) && decide (64 ≤ t.hact) && decide (t.hact ≤ 4096) && decide (64 ≤ t.vact) && decide (t.vact ≤ 4096) &&
  decide (1 ≤ t.hfp) && decide (1 ≤ t.hsync) && decide (1 ≤ t.hbp) && decide (1 ≤ t.vfp) && decide (1 ≤ t.vsync) && decide (1 ≤ t.vbp) &&
  decide (t.ht ≤ 8192) && decide (t.vt ≤ 8192) && decide (32 ≤ t.ht - t.hact)

/-- The shadow timing words and those in force. -/
def Engine.shadowTiming (m : Engine) (o : Nat) : List Word :=
  [m.reg (R.DISP_HTIM0 o), m.reg (R.DISP_HTIM1 o), m.reg (R.DISP_VTIM0 o), m.reg (R.DISP_VTIM1 o), m.reg (R.DISP_PIXDIV o)]
def Engine.curTiming (m : Engine) (o : Nat) : Timing :=
  timingOf [m.reg (R.DISP_CUR_HTIM0 o), m.reg (R.DISP_CUR_HTIM1 o), m.reg (R.DISP_CUR_VTIM0 o), m.reg (R.DISP_CUR_VTIM1 o), m.reg (R.DISP_CUR_PIXDIV o)]

/-- A timing goes into force. -/
def Engine.setCur (m : Engine) (o : Nat) (l : List Word) : Engine :=
  ((((m.setReg (R.DISP_CUR_HTIM0 o) (nth l 0 0)).setReg (R.DISP_CUR_HTIM1 o) (nth l 1 0)).setReg (R.DISP_CUR_VTIM0 o) (nth l 2 0)).setReg
    (R.DISP_CUR_VTIM1 o) (nth l 3 0)).setReg (R.DISP_CUR_PIXDIV o) (nth l 4 0)

/-- A lane's rate in Mbit/s. -/
def laneRate (r : Nat) : Nat := match r with | 0 => 1620 | 1 => 2700 | 2 => 5400 | _ => 8100

/-- Is the link trained: UP or SHORT? -/
def Engine.trained (m : Engine) (o : Nat) : Bool := m.fld (R.DISP_STATUS_LINK o) == 2 || m.fld (R.DISP_STATUS_LINK o) == 4

/-- Can the trained link carry a pixel clock of 4.8 GHz / K (R373)? -/
def Engine.linkCarries (m : Engine) (o k : Nat) : Bool :=
  decide (24 * 4800000 ≤ 776 * m.fld (R.DISP_STATUS_TLANES o) * laneRate (m.fld (R.DISP_STATUS_TRATE o)) * k)

/-- The output whose stream an output shows (R388). -/
def Engine.source (m : Engine) (o : Nat) : Nat := if o == 1 && (m.dsp 1).cloning then 0 else o

/-- STATUS.LINK follows whether a trained link carries the timing in force (R373). -/
def Engine.linkFits (m : Engine) (o : Nat) : Engine :=
  if !m.trained o then m
  else m.setFld (R.DISP_STATUS_LINK o) (if !(m.dsp o).running || m.linkCarries o (m.curTiming (m.source o)).k then 2 else 4)

/-- Does a frame buffer of given base, format and stride lie in the display region under a timing (R382)? -/
def Engine.bufferFits (m : Engine) (base cfg : Nat) (t : Timing) : Bool :=
  let b := if bitAt cfg 0 then 2 else 4
  let stride := 256 * bitsOf cfg 8 16
  let start := base / 256 % 2 ^ 32 * 256
  let region := m.dispRegion
  decide (region.1 < region.2) && decide (region.1 * 256 ≤ start) && decide (start + stride * (t.vact - 1) + b * t.hact ≤ region.2 * 256) && decide (b * t.hact ≤ stride)

/-- Does the buffer in force fit? -/
def Engine.curFits (m : Engine) (o : Nat) (t : Timing) : Bool := m.bufferFits (m.reg64 (R.DISP_CUR_FB_BASE_LO o)).toNat (m.reg (R.DISP_CUR_FBCFG o)).toNat t

/-- Mvid/Nvid before reduction, for a lane rate and a divisor K (R378). -/
def msaRatio (rate k : Nat) : Nat × Nat := match rate with | 0 => (800, 27 * k) | 1 => (160, 9 * k) | 2 => (80, 9 * k) | _ => (160, 27 * k)

/-- Mvid and Nvid (R378): the reduced fraction times the largest integer that keeps Nvid at most 32,768. -/
def msaClock (rate k : Nat) : Nat × Nat :=
  let (a, b) := msaRatio rate k
  let g := Nat.gcd a b
  let f := 32768 / (b / g)
  (a / g * f, b / g * f)

/-- The attributes of the stream an output shows (R378). -/
def Engine.msaOf (m : Engine) (o : Nat) : Msa :=
  let s := m.source o
  let t := m.curTiming s
  let (mv, nv) := msaClock (m.fld (R.DISP_STATUS_TRATE o)) t.k
  { mvid := mv, nvid := nv, sync := true, ht := t.ht, vt := t.vt, hact := t.hact, vact := t.vact, hstart := t.hsync + t.hbp, vstart := t.vsync + t.vbp
    hsync := t.hsync, vsync := t.vsync, hneg := bitAt (m.reg (R.DISP_CUR_HTIM1 s)).toNat 31, vneg := bitAt (m.reg (R.DISP_CUR_VTIM1 s)).toNat 31 }

/-- The vertical blank begins: a link that carries the stream sends its attributes (R378). -/
def Engine.sendMsa (m : Engine) (o : Nat) : Engine := if m.fld (R.DISP_STATUS_LINK o) = 2 then m.setDsp o { m.dsp o with msa := some (m.msaOf o) } else m

/-- A commit is refused (R380). -/
def Engine.commitRej (m : Engine) (o why : Nat) : Engine := (m.setFld (R.DISP_STATUS_REJ o) why).status (R.E_DISP_COMMIT_REJ o)

/-- Why the shadow timing is refused (R377, R373); 0 where it is not. -/
def Engine.timingRej (m : Engine) (o : Nat) : Nat :=
  let t := timingOf (m.shadowTiming o)
  if !t.valid then 1 else if m.trained o && !m.linkCarries o t.k then 2 else 0

/-- Are the shadow frame registers refused under a timing (R382)? -/
def Engine.frameRej (m : Engine) (o : Nat) (t : Timing) : Bool := !m.bufferFits (m.reg64 (R.DISP_FB_BASE_LO o)).toNat (m.reg (R.DISP_FBCFG o)).toNat t

/-- The shadow frame registers go into force. -/
def Engine.takeFrame (m : Engine) (o : Nat) : Engine :=
  (m.setReg64 (R.DISP_CUR_FB_BASE_LO o) (m.reg64 (R.DISP_FB_BASE_LO o))).setReg (R.DISP_CUR_FBCFG o) (m.reg (R.DISP_FBCFG o))

/-- A bit of an output's PAGE_COMMIT. -/
def Engine.commitBit (m : Engine) (o b : Nat) : Bool := bitAt (m.reg (dispPage o * 0x1000 + 0x1C)).toNat b
def Engine.clearCommit (m : Engine) (o b : Nat) : Engine := m.clearBits (dispPage o * 0x1000 + 0x1C) (2 ^ b)

/-- The generator starts line 0 of a background frame at the next CCLK boundary (R379, R390). -/
def Engine.dispRestart (m : Engine) (o : Nat) : Engine :=
  m.setDsp o { m.dsp o with
    running := true, frameStart := m.nextTick, added := 0, stage := 0, bg := true, bgNext := true, newTiming := none, flipPending := false, flipped := false, still := 0,
    fill := 0, fetched := 0, ahead := 0, late := 0, holes := [], underLine := none, underruns := 0 }

/-- DISP.CTL was written (R379, R388): EN starts an output that does not run, after the checks of a commit, or stops one at once. DEDUCED: notes/assumptions/92.md. DESIGN CHOICE: notes/assumptions/153.md. -/
def Engine.dispCtl (m : Engine) (o : Nat) : Engine :=
  let d := m.dsp o
  if !m.flag (R.DISP_CTL_EN o) then
    let m := m.setDsp o { d with running := false, cloning := false, bg := true, newTiming := none, flipPending := false, rotaFlip := none }
    (((m.setFlag (R.DISP_STATUS_BG o) false).setFlag (R.DISP_STATUS_STRETCH o) false)).linkFits o
  else if d.running then m
  else if o == 1 && m.flag (R.DISP_CTL_CLONE 1) then ((m.setDsp 1 { d with running := true, cloning := true, stage := 0 }).setFlag (R.DISP_STATUS_BG 1) true).linkFits 1
  else
    let why := m.timingRej o
    let t := timingOf (m.shadowTiming o)
    if why ≠ 0 then m.commitRej o why
    else if m.frameRej o t then m.commitRej o 3
    else (((m.setCur o (m.shadowTiming o)).takeFrame o).dispRestart o).linkFits o

/-- Do the conditions of a lowered refresh hold (R389)? -/
def Engine.mayStretch (m : Engine) (o : Nat) : Bool :=
  m.fld (R.DISP_STATIC_FRAMES o) != 0 && decide ((m.curTiming o).vt < m.fld (R.DISP_STATIC_VTMAX o)) && m.flag (R.DISP_STATUS_ASYNC o) &&
  (!(o == 0 && (m.dsp 1).cloning) || m.flag (R.DISP_STATUS_ASYNC 1))

/-- Bit 7 of DPCD 0x00107 follows them on the sink, and on a cloned one (R389). -/
def Engine.ignoreEn (m : Engine) (o : Nat) : Engine :=
  let on := m.mayStretch o && (m.dsp o).running
  let m := m.setDsp o { m.dsp o with ignoreEn := on }
  if o == 0 && (m.dsp 1).cloning then m.setDsp 1 { m.dsp 1 with ignoreEn := on } else m

/-- The same for both outputs, as each condition of one may end the other's (R388, R389). -/
def Engine.ignoreAll (m : Engine) : Engine := (if (m.dsp 1).cloning then m else m.ignoreEn 1).ignoreEn 0

/-- The tick of an output's next instant, counted from headrace lock. -/
def Engine.dispInstant (m : Engine) (o : Nat) : Nat :=
  let d := m.dsp o
  let t := m.curTiming o
  d.frameStart + t.line * (match d.stage with
    | 0 => 0
    | 1 => t.vact
    | 2 => t.vact + t.vfp + d.added
    | 3 => t.vt - 1 + d.added
    | _ => t.vt + d.added)

/-- Is an output's next instant of a given stage, and has it come? -/
def Engine.dispDue (m : Engine) (o stage : Nat) : Bool :=
  let d := m.dsp o
  m.running && d.running && !d.cloning && d.stage == stage && decide (m.dispInstant o < m.nextTick + 16)

/-- TB of a tick of the coming cycle. -/
def Engine.tbOfTick (m : Engine) (t : Nat) : Tb := tbOfCycle m.nextCycle + BitVec.ofNat 64 (t - m.nextTick)

/-- Apply to an output, and to the one that clones it. -/
def Engine.both (m : Engine) (o : Nat) (f : Nat → Engine → Engine) : Engine :=
  let m := f o m
  if o == 0 && (m.dsp 1).running && (m.dsp 1).cloning then f 1 m else m

/-- What a latch point does (R380, R385): pending timing and frame commits are checked, and applied or refused. `l` is its TB. -/
def Engine.latch (m : Engine) (o : Nat) (l : Tb) : Engine :=
  let m := if !m.commitBit o 0 then m
    else
      let why := m.timingRej o
      let m := m.clearCommit o 0
      if why ≠ 0 then m.commitRej o why
      else (m.setDsp o { m.dsp o with newTiming := some (m.shadowTiming o) }).status (R.E_DISP_TIMING o)
  let acts := (m.rota.inQueue (8 + o)).filter (fun a => decide (a.eff ≤ l))
  let byRota := !acts.isEmpty || (match (m.dsp o).rotaFlip with | some t => decide (t ≤ l) | none => false)
  if m.flag R.SAFE_STATUS_SETTLED || !(m.commitBit o 1 || byRota) then m
  else
    let d := m.dsp o
    let t := match d.newTiming with | some x => timingOf x | none => m.curTiming o
    let bad := m.frameRej o t
    let m := acts.foldl (fun m a => m.takeAct a) m
    let m := (m.clearCommit o 1).setDsp o { d with rotaFlip := if byRota then none else d.rotaFlip }
    if bad then m.commitRej o 3
    else (m.takeFrame o).setDsp o { m.dsp o with flipPending := true, flipped := true, still := 0 }

/-- LATCH_POINT (R380, R389): line VACT, or a line added to the front porch. On DO0 a change of operating point that waits may start (R298). -/
def Chip.latchPoint (c : Chip) (o : Nat) : Chip :=
  let m := c.eng
  let d := m.dsp o
  let t := m.curTiming o
  let lined := m.dispDue o 2 && m.mayStretch o && decide (m.fld (R.DISP_STATIC_FRAMES o) ≤ d.still) && d.newTiming.isNone && decide (t.vt + d.added < m.fld (R.DISP_STATIC_VTMAX o))
  if m.dispDue o 1 then
    let l := m.tbOfTick (m.dispInstant o)
    let m := m.both o (fun q m => m.sendMsa q)
    let m := (m.setDsp o { m.dsp o with stage := 2 }).latch o l
    let c := { c with eng := m.ignoreEn o }
    match c.eng.cis.opReq with
    | some (t, _) => if o == 0 && c.eng.cis.opWait && c.eng.cisServes then { c with eng := c.eng.opStart t } else c
    | none => c
  else if lined then
    let tb := m.tbOfTick (m.dispInstant o)
    let m := (m.setDsp o { d with added := d.added + 1 }).setFlag (R.DISP_STATUS_STRETCH o) true
    { c with eng := (m.latch o tb).ignoreEn o }
  else c

/-- VSYNC (R387): the front porch ends. -/
def Engine.vsync (m : Engine) (o : Nat) : Engine :=
  let d := m.dsp o
  let t := m.curTiming o
  let more := m.mayStretch o && decide (m.fld (R.DISP_STATIC_FRAMES o) ≤ d.still) && d.newTiming.isNone && decide (t.vt + d.added < m.fld (R.DISP_STATIC_VTMAX o))
  if !m.dispDue o 2 || more then m
  else
    let i := m.dispInstant o
    let tb := m.tbOfTick i
    let m := m.setDsp o { d with stage := 3 }
    let m := if d.added = 0 then m.setFlag (R.DISP_STATUS_STRETCH o) false else m
    m.both o (fun q m => ({ m with path := { m.path with vsync := m.path.vsync ++ [(i / 16, q, i % 16)] } }.setReg64 (R.DISP_VS_TB_LO q) tb).status (R.E_DISP_VSYNC q))

/-- FRAME_FETCH_START (R383, R385): line VT - 1. -/
def Engine.fetchStart (m : Engine) (o : Nat) : Engine :=
  if !m.dispDue o 3 then m
  else
    let d := m.dsp o
    let tb := m.tbOfTick (m.dispInstant o)
    let t := match d.newTiming with | some x => timingOf x | none => m.curTiming o
    let old := m.curTiming o
    let changed := t.k != old.k || t.ht != old.ht || t.vt != old.vt
    let n := m.reg (R.DISP_FRAMECNT o) + 1
    let m := if !d.flipPending then m
      else m.both o (fun q m => ((m.setReg64 (R.DISP_FLIP_TB_LO q) tb).setReg (R.DISP_FLIP_FRAME q) n).status (R.E_DISP_FLIP q))
    let back := changed || m.flag R.SAFE_STATUS_SETTLED || !m.curFits o t || !m.cisServes
    m.setDsp o { m.dsp o with stage := 4, flipPending := false, bgNext := back, fill := 0, fetched := 0, ahead := 0, late := 0, holes := [], underLine := none }

/-- FRAME_START (R381, R382, R386). -/
def Engine.frameStart (m : Engine) (o : Nat) : Engine :=
  if !m.dispDue o 0 && !m.dispDue o 4 then m
  else
    let d := m.dsp o
    let i := m.dispInstant o
    let m := match d.newTiming with | some x => m.setCur o x | none => m
    let back := d.stage == 0 || d.bgNext || m.flag R.SAFE_STATUS_SETTLED || !m.curFits o (m.curTiming o)
    let m := m.setDsp o { d with frameStart := i, added := 0, stage := 1, bg := back, newTiming := none, still := if d.flipped || d.stage == 0 then 0 else d.still + 1, flipped := false, underruns := 0 }
    m.both o (fun q m =>
      let n := m.reg (R.DISP_FRAMECNT q) + 1
      let m := (m.setReg (R.DISP_FRAMECNT q) n).setFlag (R.DISP_STATUS_BG q) back
      (if n = 0 then m.status (R.E_DISP_FRAME_WRAP q) else m).linkFits q)

/-- A DISP_FLIP of the rota (R385): it requests a flip at the first latch point at or after its TB, where it takes effect and leaves its queue (R179). An output that does
not run has no latch point, and a cloning DO1 refuses it (R388). DEDUCED: notes/assumptions/149.md. -/
def Engine.rotaDispFlip (m : Engine) (o : Nat) : Engine :=
  match m.actAt (8 + o) 0xB with
  | none => m
  | some a =>
    if o == 1 && (m.dsp 1).cloning then (m.takeAct a).commitRej 1 4
    else if (m.dsp o).running then (match (m.dsp o).rotaFlip with | some _ => m | none => m.setDsp o { m.dsp o with rotaFlip := some a.eff })
    else m.takeAct a

/-- A commit was asked for by writing PAGE_COMMIT (R380): a cloning DO1 refuses it (R388). -/
def Engine.dispCommit (m : Engine) (o : Nat) : Engine :=
  if o == 1 && (m.dsp 1).cloning && (m.commitBit 1 0 || m.commitBit 1 1) then ((m.clearCommit 1 0).clearCommit 1 1).commitRej 1 4 else m

/-- The line at a tick of the current frame, and the bytes due of the frame by that tick (R383). -/
def Engine.dispLine (m : Engine) (o tick : Nat) : Nat := (tick - (m.dsp o).frameStart) / max 1 (m.curTiming o).line
def Engine.dispBytesDue (m : Engine) (o tick : Nat) : Nat :=
  let t := m.curTiming o
  let v := m.dispLine o tick
  if t.vact ≤ v then 256 * m.lineBlocks o * t.vact
  else 256 * m.lineBlocks o * v + m.pixelBytes o * min t.hact ((tick - (m.dsp o).frameStart) % max 1 t.line / max 1 (2 * t.k) + 1)

/-- DISPLAY_FETCH (R383): the next block, when the line buffer of 128 KiB has room; urgent while it holds less than the mark. -/
def Engine.dispFetch (m : Engine) (o : Nat) : Engine :=
  let d := m.dsp o
  let t := m.curTiming o
  let n := m.lineBlocks o
  let active := d.running && !d.cloning && ((d.stage == 1 && !d.bg) || (d.stage == 4 && !d.bgNext)) && !m.flag R.SAFE_STATUS_SETTLED
  let used := if d.stage = 1 then m.dispBytesDue o (m.nextTick - 1) else 0
  if !m.running || !active || !decide (d.fetched < n * t.vact) || 131072 < d.fill + d.ahead + 256 - used || !m.cisServes then m
  else
    let a := (m.reg64 (R.DISP_CUR_FB_BASE_LO o)).toNat / 256 % 2 ^ 32 * 256 + 256 * m.fld (R.DISP_CUR_FBCFG_STRIDE o) * (d.fetched / n) + 256 * (d.fetched % n)
    let urgent := decide (d.fill - used < 1024 * min 127 (max 1 (m.fld (R.DISP_FETCH_URGMARK o))))
    let m := m.setDsp o { d with fetched := d.fetched + 1, ahead := d.ahead + 256 }
    if m.pcSt (m.pcOf a) = 3 then (m.offlineRead a 256).1.fetchArrives o true
    else (m.setCis { m.cis with waitR := m.cis.waitR ++ [{ addr := a, len := 256, reader := .display o, urgent := urgent }] }).takeWaiting

/-- Is a pixel of the coming cycle due that the line buffer does not hold (R384)? -/
def Engine.underrunDue (m : Engine) (o : Nat) : Bool :=
  let d := m.dsp o
  let last := m.nextTick + 15
  let v := m.dispLine o last
  m.running && d.running && !d.cloning && d.stage == 1 && !d.bg && !m.flag R.SAFE_STATUS_SETTLED && (m.cisServes || m.cis.opRun.isSome) && decide (d.frameStart ≤ last) &&
  decide (v < (m.curTiming o).vact) && d.underLine != some v && (decide (d.fill < m.dispBytesDue o last) || d.holes.contains v)

/-- UNDERRUN (R384): background colour to the end of the line, and the fetch goes on with the next one. -/
def Engine.underrun (m : Engine) (o : Nat) : Engine :=
  if !m.underrunDue o then m
  else
    let d := m.dsp o
    let v := m.dispLine o (m.nextTick + 15)
    let n := m.lineBlocks o
    let next := n * (v + 1)
    let out := d.ahead / 256
    let m := m.setDsp o { d with
      underLine := some v, underruns := d.underruns + 1, fetched := max d.fetched next, fill := max d.fill (256 * next)
      late := if d.fill < 256 * next then out - (d.fetched - next) else d.late }
    m.both o (fun q m =>
      let m := (m.addSat (R.DISP_UNDERRUN q) 1).status (R.E_DISP_UNDERRUN q)
      if d.underruns = 0 then m.logNow (dispPage q) 2 0x0207 v else m)

/-- Every display instant that has come, and every underrun. -/
def Chip.dispInstants (c : Chip) : Chip :=
  forEach 2 (fun o c =>
    let c := { c with eng := c.eng.rotaDispFlip o }
    let c := c.latchPoint o
    { c with eng := (((c.eng.vsync o).fetchStart o).frameStart o).underrun o }) c

/-- The engine settles (R390): background colour from now on. -/
def Engine.dispSettle (m : Engine) : Engine :=
  forEach 2 (fun o m => if (m.dsp o).running then (m.setDsp o { m.dsp o with bg := true, bgNext := true }).setFlag (R.DISP_STATUS_BG o) true else m) m

/-- STATUS as a read shows it: LINE and BLANK (R393). -/
def Engine.dispStatus (m : Engine) (o : Nat) : Word :=
  let s := m.source o
  let w := m.reg (R.DISP_STATUS o)
  if !(m.dsp o).running || !(m.dsp s).running || (m.dsp s).stage == 0 then w
  else
    let v := m.dispLine s (m.nextTick - 1)
    putBits (putBits w 12 1 (decide ((m.curTiming s).vact ≤ v)).toNat) 16 14 v

/-! The link, HPD and AUX. -/

/-- Training starts (R374). -/
def Engine.dpTrain (m : Engine) (o : Nat) : Engine :=
  ((m.setFld (R.DISP_STATUS_LINK o) 1).setFlag (R.DISP_LINKCFG_TRAIN o) true).setDsp o { m.dsp o with training := true }

/-- Training on a lane that lost lock after an IRQ_HPD, with AUTO. -/
def Engine.laneLoss (m : Engine) (o : Nat) : Engine := if m.flag (R.DISP_STATUS_HPD o) && m.flag (R.DISP_LINKCFG_AUTO o) && !(m.dsp o).training then m.dpTrain o else m

/-- The lanes LINKCFG asks for. -/
def Engine.lanesAsked (m : Engine) (o : Nat) : Nat := match m.fld (R.DISP_LINKCFG_LANES o) with | 0 => 1 | 1 => 2 | _ => 4

/-- Is a rate and lane count one that training may reach (R374)? -/
def Engine.mayReach (m : Engine) (o rate lanes : Nat) : Bool :=
  let r := m.fld (R.DISP_LINKCFG_RATE o)
  let l := m.lanesAsked o
  if m.flag (R.DISP_LINKCFG_AUTOFALL o) then (lanes == l && decide (rate ≤ r)) || (decide (lanes < l) && [1, 2].contains lanes && decide (rate ≤ 3)) else rate == r && lanes == l

/-- An AUX transaction that waited for training runs. -/
def Engine.auxRuns (m : Engine) (o : Nat) : Engine :=
  let d := m.dsp o
  if d.auxWaits then m.setDsp o { d with auxWaits := false, auxSince := some m.cc } else m

/-- DP_TRAIN_END (R374): UP with the rate and lanes reached and the sink's MSA_TIMING_PAR_IGNORED, or FAILED. -/
def Engine.dpTrainEnd (m : Engine) (o : Nat) (reached : Option (Nat × Nat)) (async : Bool) : Engine :=
  let d := m.dsp o
  if !d.training then m
  else
    let m := (m.setDsp o { d with training := false }).setFlag (R.DISP_LINKCFG_TRAIN o) false
    let m := match reached with
      | some (rate, lanes) =>
        if m.mayReach o rate lanes then
          let m := (((m.setFld (R.DISP_STATUS_TRATE o) rate).setFld (R.DISP_STATUS_TLANES o) lanes).setFlag (R.DISP_STATUS_ASYNC o) async).setFld (R.DISP_STATUS_LINK o) 2
          (m.linkFits o).status (R.E_DISP_TRAIN_DONE o)
        else (m.setFld (R.DISP_STATUS_LINK o) 3).status (R.E_DISP_TRAIN_FAIL o)
      | none => (m.setFld (R.DISP_STATUS_LINK o) 3).status (R.E_DISP_TRAIN_FAIL o)
    (m.auxRuns o).ignoreAll

/-- HPD_UNPLUG, HPD_PLUG and HPD_IRQ (R375). -/
def Engine.hpdUnplug (m : Engine) (o : Nat) : Engine :=
  if !m.flag (R.DISP_STATUS_HPD o) then m
  else ((m.setFlag (R.DISP_STATUS_HPD o) false).setFld (R.DISP_STATUS_LINK o) 0).status (R.E_DISP_HPD_UNPLUG o)
def Engine.hpdPlug (m : Engine) (o : Nat) : Engine :=
  if m.flag (R.DISP_STATUS_HPD o) then m
  else
    let m := (m.setFlag (R.DISP_STATUS_HPD o) true).status (R.E_DISP_HPD_PLUG o)
    if m.flag (R.DISP_LINKCFG_AUTO o) && !(m.dsp o).training then m.dpTrain o else m
def Engine.hpdIrq (m : Engine) (o : Nat) : Engine := if m.flag (R.DISP_STATUS_HPD o) then m.status (R.E_DISP_HPD_IRQ o) else m

/-- An AUX transaction ends (R376). -/
def Engine.auxEnd (m : Engine) (o result reply count : Nat) : Engine :=
  let m := m.setDsp o { m.dsp o with auxSince := none, auxWaits := false, auxTries := 0 }
  ((m.setReg (R.DISP_AUXSTAT o) (BitVec.ofNat 32 (result * 2 + reply * 2 ^ 4 + count * 2 ^ 8))).setFlag (R.DISP_AUXCTL_GO o) false).status (R.E_DISP_AUX_DONE o)

/-- AUX_GO (R376). -/
def Engine.auxGo (m : Engine) (o : Nat) : Engine :=
  let d := m.dsp o
  if m.flag (R.DISP_AUXSTAT_BUSY o) then m
  else if !m.flag (R.DISP_STATUS_HPD o) then m.auxEnd o 4 0 0
  else
    let m := (m.setFlag (R.DISP_AUXSTAT_BUSY o) true).setFlag (R.DISP_AUXCTL_GO o) true
    m.setDsp o { d with auxWord := m.reg (R.DISP_AUXCTL o), auxTries := 0, auxWaits := d.training, auxSince := if d.training then none else some m.cc }

/-- Read data go into AUXDATA, byte 4k + j in bits [8j + 7 : 8j] of word k. -/
def Engine.auxStore (m : Engine) (o : Nat) (data : List Byte) : Engine :=
  (List.range (min 16 data.length)).foldl (fun m i => m.setReg (R.DISP_AUXDATA o (i / 4)) (putBits (m.reg (R.DISP_AUXDATA o (i / 4))) (8 * (i % 4)) 8 (nth data i 0).toNat)) m

/-- AUX_REPLY (R376): a reply nibble with the data the sink sent: the bytes read, or one byte with the count written where it reports one. -/
def Engine.auxReply (m : Engine) (o reply : Nat) (data : List Byte) : Engine :=
  let d := m.dsp o
  if !m.flag (R.DISP_AUXSTAT_BUSY o) || d.auxSince.isNone then m
  else
    let w := d.auxWord.toNat
    let asked := bitsOf w 8 4 + 1
    let deferred := reply % 4 == 2 || reply / 4 == 2
    let nacked := reply % 4 == 1 || reply / 4 == 1
    let data := data.take asked
    if deferred then
      if d.auxTries < bitsOf w 20 4 then m.setDsp o { d with auxTries := d.auxTries + 1, auxSince := some m.cc } else m.auxEnd o 2 reply 0
    else
      let count := if bitAt w 0 then data.length else match data with | b :: _ => b.toNat | [] => if nacked then 0 else asked
      let m := if bitAt w 0 then m.auxStore o data else m
      m.auxEnd o nacked.toNat reply (min 31 count)

/-- AUX_TIMEOUT (R376): 400 µs without a reply. -/
def Engine.auxTimeout (m : Engine) (o : Nat) : Engine :=
  match (m.dsp o).auxSince with
  | some t => if t + 240000 ≤ m.cc then m.auxEnd o 3 (m.fld (R.DISP_AUXSTAT_REPLY o)) 0 else m
  | none => m

end Sys2Proof.Machine
end

