-- ==== Sys2Proof/Machine/Settle.lean ====
section
/-! DEFINITION. Sluice steps as the engine takes them, settling and its release (R420 to R425), the headrace's loss and return (R19, R20), the register scrubber (R409). -/
namespace Sys2Proof.Machine

/-! The module's own causes of a dam (R269, R431). -/

/-- Is a dam under way: from the first cause instant to the release? -/
def Engine.damUnderWay (m : Engine) : Bool := m.dam.driveAt.isSome || m.dam.td.isSome || m.dam.stopped || m.dammed

/-- Change the dam. -/
def Engine.setDam (m : Engine) (d : DamState) : Engine := { m with dam := d }

/-- The first TB at or after an instant that lies 48 tk past a sampling instant (R269). -/
def driveInstant (t : Tb) : Tb := BitVec.ofNat 64 ((t.toNat + 47) / 96 * 96 + 48)

/-- An own cause with its instant: the module is to drive DAM_N; a further cause is part of the dam under way. -/
def Engine.damCause (m : Engine) (code : Nat) (t : Tb) : Engine :=
  if m.damUnderWay || !m.running then m else m.setDam { m.dam with driveAt := some (driveInstant t, code) }

/-! Sluice steps. -/

/-- Words of the tables are read for a decision (R145): those of SLUICE's tanks. An uncorrectable one is a cause of settling when a step acts on it, named by its tank of
the set. The next lookups find other free values. -/
def Engine.tablesRead (m : Engine) (s acts : Bool) (ws : List Nat) : Engine :=
  let ws := (ws.filter (fun w => m.tankReadable (w / 32768))).eraseDups
  let bad := ws.find? (fun w => m.wordError w == .double)
  let m := (m.wordsRead ws).1
  match bad with
  | none => m
  | some w =>
    let m := m.draw.2
    if acts then m.cause 3 (bitsOf (w / 32768 - m.setBaseTank s) 0 4 + 16 * s.toNat) 0xA0 else m

/-- The read of the sluice table's entry meets an error, or none (R145). -/
def Engine.entryMeets (m : Engine) (w : Nat) (ecc : Ecc) : Engine :=
  match ecc, m.wordError w with
  | .double, _ => m.setWordError w .double
  | .single, .good => m.setWordError w .single
  | _, _ => m

/-- The tree's outputs join their sample cycle on its way. -/
def Engine.formed (m : Engine) (p : Nat) (c : ConfOut) : Engine :=
  { m with path := { m.path with pipe := m.path.pipe.map (fun f => if f.phys == p then { f with conf := some c } else f) } }

/-- SLUICE_STEP (R132): the tree and the step of the oldest sample cycle that waits for it. The tree is read with the sluice sources as the steps before left them (R122);
DEDUCED: notes/assumptions/143.md. `ecc` is what the read of the sluice table met: an uncorrectable word of any table read is a cause of settling (R145). -/
def Engine.stepOnce (m : Engine) (t : Memory) (ecc : Ecc) : Engine :=
  match m.stepDue with
  | none => m
  | some e =>
    let s := m.setAt e.phys
    let c := m.confluence t e
    let e : PipeEntry := { e with conf := some c }
    let tree := m.confWords e c
    let steps := m.stepsFor e.phys
    let m := (m.formed e.phys c).setFlag R.SLU_STATUS_STEPPING steps
    if !steps then ((m.idleStep t e).tablesRead s false tree).markStepped e.phys
    else
      let w := m.sluAddr s c.e (m.fld R.SLU_STATUS_LEVEL) / 8
      let o := (m.entryMeets w ecc).sluiceStep t e
      let m := (o.m.tablesRead s true (tree ++ w :: o.reads)).markStepped e.phys
      let m := if o.flu = 0 then m else m.originate e.phys o.flu o.tick false
      if o.gateAct ≠ 0 ∧ o.gateAct = m.fld R.DAM_CTL_GATEACT then m.damCause 3 (e.tb + BitVec.ofNat 64 (16 * (24 + m.lag))) else m

/-- Every step and every store gate whose cycle has passed, oldest first. -/
def Engine.pipeCatch (t : Memory) : Nat → Engine → Engine
  | 0, m => m
  | k + 1, m =>
    let a := m.stepOnce t .good
    let b := a.storeGate
    if b.path.pipe.length = m.path.pipe.length && (b.path.pipe.filter (·.stepped)).length == (m.path.pipe.filter (·.stepped)).length then b
    else Engine.pipeCatch t k b

/-- The work of the decision path up to the cycle last executed. -/
def Engine.pipeNow (m : Engine) (t : Memory) : Engine := Engine.pipeCatch t (2 * m.path.pipe.length + 1) m

/-! Settling. -/

/-- A cause is recorded and logged (R421, R423). DEDUCED: notes/assumptions/100.md. -/
def Engine.recordCause (m : Engine) (c : Cause) (tb : Tb) : Engine :=
  (m.setFld R.SAFE_CAUSES_CAUSE (m.fld R.SAFE_CAUSES_CAUSE ||| 2 ^ (c.code - 1))).log c.page 3 (0x300 + c.code) c.data tb

/-- The lowest code of the causes at hand. -/
def Engine.firstCause (m : Engine) : Nat := (lowest (m.causes.map (·.code))).getD 0

/-- Arming ends at the settle: sample cycles from the first not stored on are neither stepped nor stored; a check that runs is refused. What ARMED_ONLY counters counted in
such cycles stays counted. DESIGN CHOICE: notes/assumptions/140.md. -/
def Engine.settleDisarm (m : Engine) : Engine :=
  let first := match m.path.pipe with | [] => m.cc + 1 | e :: _ => e.phys
  let m := if m.arming.isSome then m.armRefuse 14 (m.fld R.SAFE_STATUS_CAUSE) else m
  let m := { m with armSpan := m.armSpan.map (fun (s : Nat × Option Nat) => (s.1, some (match s.2 with | some e => min e first | none => first))) }
  if !m.armed then m
  else ((m.setFlag R.SYS_STATUS_ARMED false).status R.E_SYS_DISARMED).armedReport

/-- The TB of the first sample cycle whose store gate has not come. -/
def Engine.firstNotStored (m : Engine) : Tb := match m.path.pipe with | e :: _ => e.tb | [] => tbOfCycle m.nextCycle

/-- The SETTLE flit of a settle (R267). -/
def Engine.sendSettle (m : Engine) (code : Nat) (t : Tb) : Engine :=
  if m.role = 0 then m
  else (m.setRing { m.ring with settleSeen := ((t.toNat, m.pos) :: m.ring.settleSeen).take 8 }).sendBoth (.settle t.toNat code m.pos 0)

/-- The engine enters the settled state (R421, R422). -/
def Engine.enterSettled (m : Engine) (t : Memory) : Engine :=
  let code := m.firstCause
  let m := m.pipeNow t
  let first := m.firstNotStored
  let m := (m.setFlag R.SAFE_STATUS_SETTLED true).setFld R.SAFE_STATUS_CAUSE code
  let m := ((m.setReg64 R.SAFE_SETTLE_TB_LO first).addSat R.SAFE_SETTLECNT 1).status R.E_SAFE_SETTLED
  let had := m.store.active
  let m := m.settleDisarm.endCapture 5 first (some code) true
  let m := { m with settledAt := if had then some m.cc else m.settledAt }
  let m := m.gateCancel.sendSettle code first
  m.dispSettle.drainsSettle

/-- SETTLE (R421, R423, R438): the causes at hand are recorded; they settle the engine unless it is settled already. During a dam they wait for the release. -/
def Engine.settle (m : Engine) (t : Memory) : Engine :=
  if m.causes.isEmpty then m
  else if m.dammed || m.lost then m.causes.foldl (fun m c => m.setFld R.SAFE_CAUSES_CAUSE (m.fld R.SAFE_CAUSES_CAUSE ||| 2 ^ (c.code - 1))) m
  else
    let m := if m.settled then m else m.enterSettled t
    let m := m.causes.foldl (fun m c => m.recordCause c (tbOfCycle m.cycle)) m
    { m with causes := [] }

/-- SW_SETTLE (R450). -/
def Engine.swSettle (m : Engine) (t : Memory) : Engine := (m.cause 8 0 7).settle t

/-- SAFE_RELEASE (R424). -/
def Engine.safeRelease (m : Engine) : Engine :=
  if !m.settled then m
  else if m.anyActive || !m.causes.isEmpty || m.lost then (m.setFlag R.SAFE_STATUS_RELEASE_REJ true).status R.E_SAFE_RELEASE_REJ
  else
    let was := (m.reg R.SAFE_CAUSES).toNat
    let m := ((m.setFlag R.SAFE_STATUS_SETTLED false).setFlag R.SAFE_STATUS_RELEASE_REJ false).setReg R.SAFE_CAUSES 0
    ((m.gateRelease.log 7 0 0x0403 was (tbOfCycle m.nextCycle)).status R.E_SAFE_RELEASED)

/-- SETTLE_FLIT (R267): forwarded at every arrival, and at the first one followed where SETTLE_FOLLOW is 1: in local mode at the next boundary, in lockstep from the store gate of sample cycle c + 104. -/
def Engine.settleFlit (m : Engine) (t : Memory) (s : Side) (tb cause origin hops : Nat) : Engine :=
  if !m.sideUp s || !m.running then m
  else
    let m := m.status R.E_RING_SETTLE_RX
    let m := if m.goesOn hops && origin != m.pos then m.relay s.other origin 0 (.settle tb cause origin (hops + 1)) else m
    if m.ring.settleSeen.contains (tb, origin) || origin = m.pos then m
    else
      let m := m.setRing { m.ring with settleSeen := ((tb, origin) :: m.ring.settleSeen).take 8 }
      if !m.flag R.RING_CTL_SETTLE_FOLLOW then m
      else
        let data := origin + cause * 2 ^ 16
        if m.flag R.RING_STATUS_MODE then
          let phys := m.cc + tb / 16 + 104 - m.cycle
          if phys + 127 ≤ m.cc then (m.cause 7 data 0xF2).settle t
          else { m with path := { m.path with dueCauses := m.path.dueCauses ++ [(phys + 127, 7, data)] } }
        else (m.cause 7 data 0xF2).settle t

/-- The page that a cause detected on the way is logged under. -/
def causePage (code : Nat) : Nat := match code with | 3 => 0xA0 | 7 => 0xF2 | _ => 7

/-- Causes that fall due in the cycle last executed (R142, R267). -/
def Engine.dueCause (m : Engine) : Engine :=
  let due := m.path.dueCauses.filter (fun d => decide (d.1 ≤ m.cc))
  due.foldl (fun m d => m.cause d.2.1 d.2.2 (causePage d.2.1)) { m with path := { m.path with dueCauses := m.path.dueCauses.filter (fun d => decide (m.cc < d.1)) } }

/-! The headrace (R19, R20). -/

/-- HEADRACE_LOST (R19): the active PLL fails without a standby. The clocks stop, the gate lines take their safe levels, ALERT_N goes low. DEDUCED: notes/assumptions/96.md. -/
def Engine.headraceLost (m : Engine) : Engine :=
  if !m.running || m.flag R.CLK_STATUS_REDUNDANT then m
  else
    let m := { m with running := false, lost := true }.setReg64 R.TB_DAM_TB_LO m.tb
    let m := ((m.setFlag R.CLK_STATUS_LOCK_A false).setFlag R.CLK_STATUS_LOCK_B false).gateCancel
    let m := m.setFld R.SAFE_CAUSES_CAUSE (m.fld R.SAFE_CAUSES_CAUSE ||| 2 ^ 8)
    let m := if m.settled then m else ((m.setFld R.SAFE_STATUS_CAUSE 9).addSat R.SAFE_SETTLECNT 1).setReg64 R.SAFE_SETTLE_TB_LO m.firstNotStored
    (m.setFlag R.SAFE_STATUS_SETTLED true).status R.E_SAFE_SETTLED

/-- Storage stops where the cistern's contents are gone: packs on their way are lost, and every segment is EMPTY (R20). -/
def Engine.storageGone (m : Engine) : Engine :=
  let m := m.setStore { m.store with
    intakes := m.store.intakes.map (fun x => { x with fifo := [], pack := none, lost := none, lostEnd := none }), marks := [], markPacks := [],
    active := false, lastSeg := if m.store.active then some m.curSeg else m.store.lastSeg, gapUntil := none, segNext := [], boundary := none }
  let m := forEach 48 (fun n m => m.showFifo n) m
  let m := ((m.setFlag R.STORE_STATUS_STORING false).setFlag R.STORE_STATUS_STOPPED false).setFld R.STORE_STATUS_STOPCAUSE 0
  (forEach 256 (fun s m => m.setFld (R.SEG_STATUS_STATE s) 0) (m.setFlag R.STORE_STATUS_GAP false)).applyHeld

/-- The time axis goes on after the clocks stood for `elapsed` reference cycles (R173): the next CCLK cycle has TB = DAM_TB + 16 + 96 × elapsed. -/
def Engine.tbReturns (m : Engine) (elapsed : Nat) : Engine :=
  let e : Tb := BitVec.ofNat 64 elapsed
  let m := { m with running := true, tb := m.reg64 R.TB_DAM_TB_LO + 96 * e, tbLoad := none }
  ((m.setReg64 R.TB_DAM_ELAPSED_LO e).setFlag R.TB_STATUS_DAMREC true).status R.E_TB_DAM_RECOVERED

/-- Sample cycles on their way are discarded, no step is taken any more, and gauge measurements are abandoned (R108, R439). The codes of the last tick judged stay what
an edge at the next one compares with. DESIGN CHOICE: notes/assumptions/139.md. -/
def Engine.dropPipe (m : Engine) : Engine :=
  let m := m.setFlag R.SLU_STATUS_STEPPING false
  { m with
    path := { m.path with pipe := [], gauged := m.cc + 1, dueCauses := [], jumps := [], stepBar := none, lvx := [], selAt := none, swapAt := none }
    armSpan := m.armSpan.map (fun (s : Nat × Option Nat) => (s.1, some (match s.2 with | some e => min e (m.cc + 1) | none => m.cc + 1)))
    intakes := m.intakes.map (fun i => { i with timed := i.timed.map (·.abandon) }) }

/-- HEADRACE_RESUME (R20): a PLL relocks (b: PLL B) after `elapsed` reference cycles. -/
def Chip.headraceResume (c : Chip) (b : Bool) (elapsed : Nat) : Chip :=
  let m := c.eng
  if !m.lost then c
  else
    let m := { m with lost := false }
    let m := ((m.setFlag R.CLK_STATUS_ACTIVE b).setFlag (if b then R.CLK_STATUS_LOCK_B else R.CLK_STATUS_LOCK_A) true).tbReturns elapsed
    let m := (m.dropPipe.settleDisarm).storageGone
    let first := tbOfCycle m.nextCycle
    let m := (m.recordCause ⟨9, 0, 5⟩ first)
    let m := m.causes.foldl (fun m c => m.recordCause c first) m
    let m := { m with causes := [] }.rotaHalt
    let m := (m.sendSettle 9 (m.reg64 R.SAFE_SETTLE_TB_LO)).drainsStop
    let m := forEach 2 (fun o m => if (m.dsp o).running && !(m.dsp o).cloning then m.dispRestart o else m) m
    { c with eng := m.cisInit.drainsPause }

/-! The scrubber (R408, R409). -/

/-- Where a key of the register file stands: its page and offset. -/
def keyPage (key : Nat) : Nat := key % 0x100000 / 0x1000
def keyOff (key : Nat) : Nat := key % 0x1000

/-- Is there a configuration register with this key (R408)? Bank B of a banked register lies 0x100000 above. -/
def isConfig (key : Nat) : Bool :=
  match decodeReg (key % 0x100000) with
  | none => false
  | some h => decide (key < 0x200000) && (h.row.rw != 0 || h.off == 0x14 || (h.off == 0x0C && h.row.w1s != 0)) && (decide (key < 0x100000) || h.row.banked)

/-- REGISTER_SCRUB (R409): one copy bad is restored (class C); both bad, or two good ones that differ, settle the engine and bar reads until a write. -/
def Engine.scrub (m : Engine) (key : Nat) (bothBad : Bool) : Engine :=
  if !isConfig key || !m.running then m
  else
    let page := keyPage key
    let data := page + keyOff key / 4 * 2 ^ 12
    if bothBad then
      if m.badParity.contains key then m
      else ({ m.parityFault page 1 (keyOff key) with badParity := key :: m.badParity }).cause 1 data page
    else (m.parityFault page 0 (keyOff key)).logNow page 1 0x0104 (keyOff key / 4)

end Sys2Proof.Machine
end

