-- ==== Sys2Proof/Machine/Dam.lean ====
section
/-! DEFINITION. The dam (R431 to R440), the frozen image (R436), the ring's DAM and RELEASE flits (R270, R271). -/
namespace Sys2Proof.Machine

/-- A rota DAM whose instant has come (R177, R431). -/
def Engine.rotaDam (m : Engine) : Engine :=
  match m.actAt 4 0xD with
  | none => m
  | some a => (m.takeAct a).damCause 4 a.eff

/-- DAM.CTL.ASSERT was written (R431): the cause instant is the next CCLK boundary. -/
def Engine.damAssert (m : Engine) : Engine := m.damCause 2 (tbOfCycle m.nextCycle)

/-- Is the on-module pull-up of DAM_N enabled: at power-up, while ALONE and at the head, not as a tributary (R268)? -/
def Engine.damPullUp (m : Engine) : Bool := m.mgt.powered && m.role != 2

/-- What the module does at DAM_N (R268, R269): it drives low, pulls up weakly, or leaves the bus to the head's pull-up. -/
inductive DamPin where
  | low | weakHigh | open_
  deriving DecidableEq, Repr

/-- The module's own part at DAM_N. -/
def Engine.damDrive (m : Engine) : DamPin := if m.dam.driving then .low else if m.damPullUp then .weakHigh else .open_

/-- Does DAM_N read low: driven by this module or from outside? Undriven it is high, by this module's pull-up or the head's (R268). -/
def Engine.damPin (m : Engine) : Bool := m.damDrive == .low || m.dam.extLow

/-- t_d (R433): the dam begins at a sampling instant. -/
def Engine.damBegin (m : Engine) (t : Tb) : Engine :=
  let own := m.dam.driving
  let code := if own then (match m.dam.driveAt with | some (_, c) => c | none => 1) else 1
  let m := m.setDam { m.dam with td := some t }
  let m := (m.setReg64 R.DAM_TD_LO t).setReg R.DAM_STATUS (putBits (m.reg R.DAM_STATUS) 0 6 (2 + code * 2 ^ 2 + own.toNat * 2 ^ 5))
  let m := ((m.addSat R.DAM_DAMCNT 1).status R.E_DAM_DAM).log 0xB 0 0x0401 (code + own.toNat * 2 ^ 3) t
  if m.role = 0 then m else m.sendBoth (.dam t.toNat m.pos own 0)

/-- The pin at the first tick of a cycle whose TB is t (R269, R432, R448): the module drives it 48 tk past a sampling instant and samples it at each multiple of 96 tk. -/
def Engine.damPinCycle (m : Engine) (t : Tb) : Engine :=
  let m := match m.dam.driveAt with
    | some (d, _) => if d ≤ t then m.setDam { m.dam with driving := true } else m
    | none => m
  if t.toNat % 96 ≠ 0 then m
  else
    let low := m.damPin
    let m := m.setFlag R.DAM_STATUS_PINLOW low
    let highs := if low then 0 else min 2 (m.dam.highs + 1)
    let m := m.setDam { m.dam with highs := highs }
    let m := if highs = 2 then m.setFlag R.DAM_STATUS_REARMED true else m
    let heeded := m.dam.driving || (m.flag R.DAM_CTL_PIN_EN && m.flag R.DAM_STATUS_REARMED)
    if low && heeded && m.dam.td.isNone && !m.dammed && m.cisReady then m.damBegin t else m

/-- DAM_N_LOW (R431): the outside drives the pin low; at a sampling instant the dam begins if the pin is heeded. -/
def Engine.damLow (m : Engine) : Engine :=
  let m := m.setDam { m.dam with extLow := true }
  if m.running && !m.dam.stopped then m.damPinCycle (tbOfCycle m.nextCycle) else m

/-- DAM_REARM (R432): the outside lets the pin go, and it reads high at two consecutive sampling instants. -/
def Engine.damRearm (m : Engine) : Engine :=
  if m.dam.driving || m.dammed then m
  else ((m.setDam { m.dam with extLow := false, highs := 2 }).setFlag R.DAM_STATUS_PINLOW false).setFlag R.DAM_STATUS_REARMED true

/-- t_s: 64 CCLK after t_d. -/
def Engine.damStopDue (m : Engine) : Bool :=
  match m.dam.td with
  | some t => m.running && !m.dam.stopped && decide (cycleOf (t + 1024) ≤ m.nextCycle)
  | none => false

/-- DAM_STOP (R433, R434): the store gate closes, open packs close with CLOSE 7, units freeze, the rota halts, drains pause, gate lines go safe if DAM_SAFE is 1. -/
def Chip.damStop (c : Chip) : Chip :=
  let m := c.eng
  if !m.damStopDue then c
  else
    let m := m.pipeNow c.tanks
    let m := if m.store.active then m.boundaryNow else m
    let open_ := m.segOpen
    let closed := m.settledAt == some m.cc
    let m := if open_ then forEach 48 (fun n m => m.packClose n 7) m else m
    let m := (m.setDam { m.dam with stopped := true, inSegment := open_, inClosed := closed }).rotaHalt
    let m := m.gateCancel
    let m := if m.flag R.SAFE_CTL_DAM_SAFE then m.setGate { m.gate with damHold := true } else m
    { c with eng := m.drainsStop.drainsPause }

/-- DAM_CLOCK_GATE (R433): queues are empty, the cistern is in self-refresh, and every HCLK-derived clock is gated. -/
def Chip.damGate (c : Chip) : Chip :=
  if !c.eng.dam.stopped || c.eng.dammed then c
  else
    let c := c.finishQueues
    let m := c.eng.cisSelfRefresh
    let m := { m with running := false }.setReg64 R.TB_DAM_TB_LO m.tb
    { c with eng := (m.setFlag R.DAM_STATUS_DAMMED true).setFlag R.DAM_STATUS_STOPPING false }

/-- Has the stop lasted its 2 µs (R433)? -/
def Engine.damGateDue (m : Engine) : Bool :=
  match m.dam.td with
  | some t => m.dam.stopped && !m.dammed && decide (cycleOf (t + 1024) + 1200 ≤ m.cycle)
  | none => false

/-- DAM_RELEASE (R439, R440), after `elapsed` reference cycles. DEDUCED: notes/assumptions/91.md. -/
def Engine.damRelease (m : Engine) (elapsed : Nat) : Engine :=
  if !m.dammed then m
  else
    let last := m.nextGateTb
    let m := if m.role = 0 then m else m.sendBoth (.release m.pos 0)
    let d := m.dam
    let m := m.setDam { d with driveAt := none, driving := false, highs := 0, td := none, stopped := false }
    let m := (((m.setFlag R.DAM_STATUS_DAMMED false).setFlag R.DAM_STATUS_REARMED false).setFlag R.DAM_STATUS_PINLOW d.extLow).tbReturns elapsed
    let m := m.dropPipe
    let first := tbOfCycle m.nextCycle
    let m := m.cisExit
    let disc : Marker := { type := 5, intake := 0xFF, tb := first, data := (m.reg64 R.TB_DAM_TB_LO).toNat }
    let m := if d.inSegment then (m.mark disc).endCapture 7 last none true
      else
        let m := if d.inClosed then (m.mark disc).markerPack 7 else m
        m.endCapture 7 last none false
    let m := m.armCancel
    let m := if !m.armed then m else (((m.setFlag R.SYS_STATUS_ARMED false).setFlag R.SLU_STATUS_STEPPING false).status R.E_SYS_DISARMED).armedReport
    let m := if m.settled then m.setGate { m.gate with damHold := false } else m.gateRelease
    let m := forEach 2 (fun o m => if (m.dsp o).running && !(m.dsp o).cloning then m.dispRestart o else m) m
    (m.log 0xB 0 0x0402 (elapsed % 2 ^ 32) first).status R.E_DAM_RELEASED

/-- DAM_FLIT (R270): forwarded; another t_d is recorded, and one that drove the pin makes a PIN dam a PEER one (R431). DEDUCED: notes/assumptions/97.md. -/
def Engine.damFlit (m : Engine) (s : Side) (tb origin : Nat) (driver : Bool) (hops : Nat) : Engine :=
  if !m.sideUp s || origin = m.pos then m
  else
    let m := if m.goesOn hops then m.relay s.other origin 0 (.dam tb origin driver (hops + 1)) else m
    match m.dam.td with
    | none => m
    | some t =>
      let m := if driver && m.fld R.DAM_STATUS_CAUSE == 1 then m.setFld R.DAM_STATUS_CAUSE 5 else m
      if t.toNat = tb then m else (m.setReg64 R.RING_DAM_PEER_TB_LO (BitVec.ofNat 64 tb)).status R.E_RING_DAM_SPLIT

/-- RELEASE_FLIT (R271): forwarded, and a dammed module is released. -/
def Engine.releaseFlit (m : Engine) (s : Side) (origin hops elapsed : Nat) : Engine :=
  if !m.sideUp s || origin = m.pos then m
  else (if m.goesOn hops then m.relay s.other origin 0 (.release origin (hops + 1)) else m).damRelease elapsed

end Sys2Proof.Machine
end

