-- ==== Sys2Proof/Machine/Mgmt.lean ====
section
/-! DEFINITION. Management (R457 to R464): owner fuses, the management address, temperatures and supplies. -/
namespace Sys2Proof.Machine

/-- Change management. -/
def Engine.setMgt (m : Engine) (g : MgtState) : Engine := { m with mgt := g }

/-! Owner fuses (R457, R458). -/

/-- The CRC of words 0 to 6 of a row, as 28 bytes (R457). -/
def rowCrc (l : List Word) : Word := crc32 ((l.take 7).foldl (fun b w => b ++ bytesLE 4 w.toNat) [])

/-- Is a row good? -/
def rowGood (l : List Word) : Bool := l.length == 8 && nth l 7 0 == rowCrc l

/-- The defaults. DESIGN CHOICE: notes/assumptions/87.md. -/
def rowDefault : List Word := [0x4896C4D1, 0x0000FF5A, 0, 0, 0, 0, 0, 0]

/-- The row in force and its number: the highest-numbered good one, 7 for the defaults. -/
def MgtState.inForce (g : MgtState) : Nat × List Word :=
  match (List.range 4).reverse.find? (fun r => !(nth g.bad r false) && (match nth g.rows r none with | some l => rowGood l | none => false)) with
  | some r => (r, (nth g.rows r none).getD rowDefault)
  | none => (7, rowDefault)

/-- Bits of the rows programmed, and of those marked bad. -/
def MgtState.used (g : MgtState) : Nat := (List.range 4).foldl (fun a r => a + (nth g.rows r none).isSome.toNat * 2 ^ r) 0
def MgtState.badBits (g : MgtState) : Nat := (List.range 4).foldl (fun a r => a + (nth g.bad r false).toNat * 2 ^ r) 0

/-- FUSESTAT's rows. -/
def Engine.showRows (m : Engine) : Engine := (m.setFld R.MGT_FUSESTAT_USED m.mgt.used).setFld R.MGT_FUSESTAT_BAD m.mgt.badBits

/-- The voltage in mV of a gate bank as set. -/
def bankMv (code : Nat) : Nat := match code with | 0 => 1200 | 1 => 1800 | 2 => 2500 | _ => 3300

/-- A rail's sample is outside its warning window, or outside its settle window (R464). -/
def Engine.railOutside (m : Engine) (r mv : Nat) (settle : Bool) : Bool :=
  let pct := fun (nominal : Nat) => let k := if settle then 6 else 3; decide (100 * mv < nominal * (100 - k)) || decide (nominal * (100 + k) < 100 * mv)
  match r with
  | 0 => if settle then decide (mv < 10800) || decide (13200 < mv) else decide (mv < 11400) || decide (12600 < mv)
  | 1 => if settle then decide (mv < 3000) || decide (3600 < mv) else decide (mv < 3200) || decide (3400 < mv)
  | 2 => pct 750
  | 3 => pct 850
  | 4 => pct 1100
  | 5 => pct 1800
  | 6 => pct 7000
  | 7 => pct 1200
  | _ => !bitAt m.vselBusy (r - 8) && pct (bankMv (vselOf (m.reg R.GATE_BANKCFG) (r - 8)))

/-- Why a programming request is refused (R458); 0 where it is not. -/
def Engine.fuseReason (m : Engine) : Nat :=
  if m.armed then 1
  else if (List.range 4).all (fun r => (nth m.mgt.rows r none).isSome) then 2
  else if m.railOutside 0 (m.fld (R.THRM_SUPPLY_MV 0)) false || (List.range 8).any (fun s => m.flag (R.THRM_TEMP_VALID s) && decide (16 * 85 < m.temp s)) then 3
  else 0

/-- FUSE_PROG (R458): FUSECTL was written with PROG = 1. -/
def Engine.fuseProg (m : Engine) (key : Nat) : Engine :=
  if m.mgt.prog.isSome then m
  else
    let why := if key = 0x5AFE then m.fuseReason else (if m.fuseReason = 0 then 4 else m.fuseReason)
    if why ≠ 0 then ((m.setFld R.MGT_FUSESTAT_REJ why).setFld R.MGT_FUSESTAT_RESULT 3).setFlag R.MGT_FUSECTL_PROG false
    else
      let l := (List.range 7).map (fun k => m.reg (R.MGT_FUSEDATA k))
      let m := m.setMgt { m.mgt with prog := some (l ++ [rowCrc l]) }
      (((m.setFlag R.MGT_FUSESTAT_BUSY true).setFld R.MGT_FUSESTAT_REJ 0).setFld R.MGT_FUSESTAT_RESULT 0).setFlag R.MGT_FUSECTL_PROG true

/-- FUSE_PROG_DONE (R458): the row is read back, correctly or not. -/
def Engine.fuseDone (m : Engine) (ok : Bool) : Engine :=
  match m.mgt.prog with
  | none => m
  | some l =>
    let r := ((List.range 4).find? (fun r => (nth m.mgt.rows r none).isNone)).getD 0
    let m := m.setMgt { m.mgt with prog := none, rows := m.mgt.rows.set r (some l), bad := m.mgt.bad.set r (!ok) }
    let m := ((m.showRows.setFlag R.MGT_FUSESTAT_BUSY false).setFlag R.MGT_FUSECTL_PROG false).setFld R.MGT_FUSESTAT_RESULT (if ok then 1 else 2)
    m.status R.E_MGT_FUSE_DONE

/-! The management address and readiness (R447, R461). -/

/-- SYS.STATUS.READY: tank test finished and the address settled. -/
def Engine.showReady (m : Engine) : Engine :=
  let on := m.mgt.tanksDone && m.flag R.MGT_ADDR_SETTLED
  let was := m.flag R.SYS_STATUS_READY
  let m := m.setFlag R.SYS_STATUS_READY on
  if on && !was then m.status R.E_SYS_READY else m

/-- The base in use (R461). -/
def Engine.mgtBase (m : Engine) : Nat := let b := bitsOf (m.reg (R.MGT_FUSEROW 1)).toNat 0 7; if b < 0x10 || 0x6F < b then 0x5A else b

/-- The address is provisional: after power-up and from a rediscovery's start. -/
def Engine.mgtUnsettle (m : Engine) : Engine :=
  let raw := bitsOf (m.reg (R.MGT_FUSEROW 1)).toNat 0 7
  (m.setReg R.MGT_ADDR (BitVec.ofNat 32 ((m.mgtBase + 8) % 128 + m.mgtBase * 2 ^ 8 + (decide (raw ≠ m.mgtBase)).toNat * 2 ^ 15))).showReady

/-- MGT_ADDRESS_SETTLE (R461): discovery has ended. DEDUCED: notes/assumptions/95.md. -/
def Engine.mgtSettle (m : Engine) : Engine :=
  if !m.ring.positioned then m
  else
    let a := (m.mgtBase + m.pos) % 128
    let was := m.flag R.MGT_ADDR_SETTLED && m.fld R.MGT_ADDR_EFFECTIVE == a
    let m := ((m.setFld R.MGT_ADDR_EFFECTIVE a).setFlag R.MGT_ADDR_SETTLED true).showReady
    if was then m else m.status R.E_MGT_ADDR

/-- TANK_POWER_UP_TEST_DONE (R329): the failing tanks, in the order tested, each with the words and lowest bits found wrong; the first is remapped to T62, unless it is T62 itself.
Every word is zero with good check bits. DESIGN CHOICE: notes/assumptions/127.md. -/
def Engine.tanksTested (m : Engine) (fails : List (Nat × List (Nat × Nat))) : Engine :=
  if m.mgt.tanksDone then m
  else
    let m := fails.foldl (fun (m : Engine) f => m.tankFails f.1 f.2) m
    let m := match fails with
      | (n, _) :: _ => if n = 62 then m else (m.setFld (R.TANK_OWN_CUR 62) 6).remap n 62
      | [] => m
    let m := { m with tank := { m.tank with errs := [] } }
    ((m.setMgt { m.mgt with tanksDone := true }).setFlag R.SYS_STATUS_TANKS_DONE true).showReady

/-! Temperatures and supplies (R463, R464). -/

/-- THRM.STATUS as a read shows it: LIMIT_INV. -/
def Engine.thrmStatus (m : Engine) : Word := putBits (m.reg R.THRM_STATUS) 16 1 m.limitsBad.toNat

/-- A bit of a field. -/
def Engine.setBit (m : Engine) (f : Field) (i : Nat) (b : Bool) : Engine := m.setFlag ⟨f.addr, f.lo + i, 1⟩ b

/-- TEMPERATURE_SAMPLE (R463): sensor s reads v, in 1/16 °C. A thermal trip is the caller's to carry out. -/
def Engine.tempSample (m : Engine) (s : Nat) (v : BitVec 16) : Engine :=
  if s = 5 ∧ m.stackCount < 2 then m
  else
    let t : Int := v.toInt
    let (_, warn, crit) := m.limits
    let m := m.setReg (R.THRM_TEMP s) (BitVec.ofNat 32 (v.toNat + 2 ^ 16))
    let m := if signedOf 16 (m.fld (R.THRM_TMAX_DEGC s)) < t ∨ m.fld (R.THRM_TMAX_DEGC s) = 0 then m.setFld (R.THRM_TMAX_DEGC s) v.toNat else m
    let hot := decide (16 * warn < t)
    let was := bitAt (m.fld R.THRM_STATUS_WARN) s
    let m := m.setBit R.THRM_STATUS_WARN s hot
    let m := if hot && !was then m.status R.E_THRM_TEMP_WARN else m
    let above := decide (16 * crit ≤ t)
    let k := if above then nth m.mgt.crit s 0 + 1 else 0
    let m := (m.setBit R.THRM_STATUS_CRIT s above).setMgt { m.mgt with crit := m.mgt.crit.set s k }
    let m := if k = 2 then (m.cause 5 (BitVec.ofInt 32 (t / 16)).toNat 0xA).status R.E_THRM_TEMP_CRIT else m
    let j := if 16 * 125 ≤ t then nth m.mgt.trip s 0 + 1 else 0
    m.setMgt { m.mgt with trip := m.mgt.trip.set s j }

/-- Is a thermal trip due (R463)? -/
def Engine.tripDue (m : Engine) : Bool := [0, 1, 2, 3, 6, 7].any (fun s => decide (2 ≤ nth m.mgt.trip s 0))

/-- SUPPLY_SAMPLE (R464): rail r reads mv. A rail that settled the engine is within range again after 10 ms, 1,000 samples. DEDUCED: notes/assumptions/94.md. -/
def Engine.supplySample (m : Engine) (r : Nat) (mv : BitVec 16) : Engine :=
  let x := mv.toNat
  let m := m.setFld (R.THRM_SUPPLY_MV r) x
  let warn := m.railOutside r x false
  let out := m.railOutside r x true
  let kw := if warn then nth m.mgt.warnRun r 0 + 1 else 0
  let ko := if out then nth m.mgt.outRun r 0 + 1 else 0
  let inside := match m.mgt.inside.find? (fun p => p.1 == r) with | some p => p.2 | none => 0
  let back := if out then 0 else inside + 1
  let m := m.setMgt { m.mgt with warnRun := m.mgt.warnRun.set r kw, outRun := m.mgt.outRun.set r ko }
  let m := if !m.mgt.outside.contains r then m
    else if 1000 ≤ back then m.setMgt { m.mgt with outside := m.mgt.outside.filter (· != r), inside := mapErase r m.mgt.inside }
    else m.setMgt { m.mgt with inside := mapSet 0 m.mgt.inside r back }
  let m := if 3 ≤ kw then (m.setBit R.THRM_SUPSTAT_WARN r true) else if warn then m else m.setBit R.THRM_SUPSTAT_WARN r false
  let m := if kw = 3 then m.status R.E_THRM_SUP_WARN else m
  let m := if 3 ≤ ko then m.setBit R.THRM_SUPSTAT_OUT r true else if out then m else m.setBit R.THRM_SUPSTAT_OUT r false
  if ko ≠ 3 then m
  else ((m.setMgt { m.mgt with outside := r :: m.mgt.outside.filter (· != r) }).cause 4 r 0xA).status R.E_THRM_SUP_OUT

end Sys2Proof.Machine
end

