-- ==== Sys2Proof/Machine/Reset.lean ====
section
/-! DEFINITION. Power and resets (R447 to R454, R357 to R359): what each returns to its reset value and what it keeps. -/
namespace Sys2Proof.Machine

/-! Pages (R452). -/

/-- The bits of a register that a page's table makes RW; PAGE_INTEN's count as such (R411). -/
def rwBits (key : Nat) : Nat := match decodeReg (key % 0x100000) with | some h => if h.off = 0x0C then 0 else h.row.rw | none => 0

/-- Does a reset return the register with this key (R452): SYS.RESET (sys), or PERST_N and hot reset? -/
def resetKey (sys : Bool) (key : Nat) : Bool :=
  let p := keyPage key
  let o := keyOff key
  let hd := decide (o < 0x40)
  if !sys && o == 0x0C then false
  else if p = 4 then o != 0x40 && o != 0x58
  else if p = 5 then sys && o != 0x48
  else if p = 6 then hd || [0x40, 0x50, 0x54].contains o
  else if p = 7 then sys && (hd || o == 0x40 || decide (0x58 ≤ o))
  else if p = 8 then sys || hd
  else if p = 9 then sys && o != 0x5C && decide (o < 0x80)
  else if p = 0xA then sys && (hd || (decide (0x60 ≤ o) && decide (o < 0xA0)))
  else if p = 0xB then hd || o == 0x40
  else if p < 0x40 then decide (0x10 ≤ p)
  else if p < 0xA0 then p % 2 == 1 || (o != 0x60 && o != 0x64)
  else if p ≤ 0xA8 then true
  else if p ≤ 0xAC then true
  else if p = 0xB0 then hd || [0x44, 0x4C, 0x50, 0x54, 0x5C].contains o
  else if p = 0xB1 ∨ p = 0xB2 then hd || (decide (o < 0x440) && o % 0x20 == 0x1C)
  else if p = 0xB3 then hd || o == 0x40 || o == 0x48
  else if p = 0xC0 then true
  else if p = 0xC1 then !([0x48, 0x4C, 0x50].contains o)
  else if p < 0xF0 then decide (0xD0 ≤ p)
  else sys && o != 0x70 && o != 0x74

/-- The bits of such a register that stay: on a SEG page the fields that are not configuration, and the frozen fields of a locked page (R453). DEDUCED: notes/assumptions/31.md. DESIGN CHOICE: notes/assumptions/32.md. -/
def Engine.resetKeeps (m : Engine) (sys : Bool) (key : Nat) : Word :=
  let p := keyPage key
  let o := keyOff key
  let seg := if 0xA9 ≤ p ∧ p ≤ 0xAC ∧ 0x40 ≤ o then ~~~BitVec.ofNat 32 (rwBits key) else 0
  let frozen := if !sys && bitAt (m.reg (lockAddr p)).toNat 0 && (decide (0x40 ≤ o) || o == 0x14) then BitVec.ofNat 32 (rwBits key) else 0
  seg ||| frozen

/-- Registers take their reset values but for some bits. -/
def Engine.resetRegs (m : Engine) (which : Nat → Bool) (keeps : Nat → Word) : Engine :=
  m.regs.foldl (fun x p => if which p.1 then x.setReg p.1 ((p.2 &&& keeps p.1) ||| (resetVal p.1 &&& ~~~keeps p.1)) else x) m

/-- Values that come from the owner fuses (R457): safe levels, and the lock of LOCKBOOT. -/
def Engine.fuseLevels (m : Engine) : Engine :=
  let m := forEach 3 (fun k m => m.setReg (R.SAFE_LEVEL k) (m.reg (R.MGT_FUSEROW (k + 2)))) m
  if bitAt (m.reg (R.MGT_FUSEROW 1)).toNat 7 then m.setReg (lockAddr 7) 1 else m

/-- The gate banks' fused voltages, unless a lock froze them. -/
def Engine.fuseVsel (m : Engine) (sys : Bool) : Engine :=
  if !sys && bitAt (m.reg (lockAddr 0xA3)).toNat 0 then m else m.setReg R.GATE_BANKCFG (BitVec.ofNat 32 (bitsOf (m.reg (R.MGT_FUSEROW 1)).toNat 8 8))

/-- Conditions that SYS.STATUS shows whatever reset its page (R467), with the cause of the latest reset. -/
def Engine.sysStatus (m : Engine) (cause : Nat) : Engine :=
  let m := m.setReg R.SYS_STATUS (BitVec.ofNat 32 (cause * 2 ^ 8 + m.mgt.tanksDone.toNat * 2 ^ 6))
  m.setFlag R.SYS_STATUS_READY (m.mgt.tanksDone && m.flag R.MGT_ADDR_SETTLED)

/-! The host-facing side (R357, R358). -/

/-- MSI and MSI-X are disabled and nothing is pending. -/
def Engine.intReset (m : Engine) : Engine :=
  let m := ([0x50, 0x54, 0x58, 0x5C, 0x60, 0xB0]).foldl (fun m o => m.setCfg 0 o 0) m
  m.setHost { m.host with pending := 0 }

/-- An FLR of function 0 (R345, R358): drains stop with resume points, windows release their locks, event copying and interrupts and HOLD end. DEDUCED: notes/assumptions/36.md. DEDUCED: notes/assumptions/152.md. -/
def Chip.flr (c : Chip) : Chip :=
  let m := c.eng.drainsStop.drainsPause.winRelease
  let page := fun p k => keyPage k == p && keyOff k != 0x0C
  let m := m.drainsFlr (fun m => (m.resetRegs (page 0xD2) (m.resetKeeps false)).setHost { m.host with drains := List.replicate 4 {} })
  let m := m.resetRegs (fun k => (page 0xD0 k && k != R.HOST_TRIB_LOST) || page 0xD1 k) (m.resetKeeps false)
  let m := m.resetRegs (fun k => keyPage k == 8 && decide (keyOff k < 0x40) && keyOff k != 0x0C) (m.resetKeeps false)
  let m := ((m.setFlag R.EVT_CTL_EN false).setFld R.EVT_HEAD_INDEX 0).setFld R.EVT_TAIL_INDEX 0
  let m := m.intReset
  { c with eng := m.setHost { m.host with hold := false, holdCause := 0, evtPhase := true } }

/-- What a fundamental or hot reset resets beyond an FLR: resume points, TRIB_LOST (R365) and the configuration space (R357). -/
def Engine.hostReset (m : Engine) : Engine :=
  let m := m.resetRegs (fun k => (keyPage k == 0xD2 && keyOff k != 0x0C) || k == R.HOST_TRIB_LOST) (m.resetKeeps false)
  m.setHost { m.host with cfg := [], drains := List.replicate 4 {}, ready := false, l0 := false, l1 := false, speed := 0, width := 0, funnelPend := m.role == 1, funnelSet := none, ltr := none }

/-! The engine. -/

/-- Capture ends at once: an armed engine is disarmed and the segment closes (R222, R357, R451). -/
def Chip.resetDisarm (c : Chip) : Chip :=
  let m := (c.eng.pipeNow c.tanks).armCancel
  let last := m.firstNotStored
  let m := if m.armed then ((m.setFlag R.SYS_STATUS_ARMED false).setFlag R.SLU_STATUS_STEPPING false).armedReport else m
  { c with eng := m.endCapture 1 last none false }

/-- What the engine's units keep beside their registers returns to its start; the front end, TB, the settled state, the log and the ring stand. -/
def Engine.unitsReset (m : Engine) (sys : Bool) : Engine :=
  let fresh : GateState := { vselMove := m.gate.vselMove, hist := m.gate.hist, acc := m.gate.acc }
  let path : Path := { gauged := m.cc + 1, rev := if sys then 0 else m.path.rev, vsync := [] }
  let m := { m with
    held := [], badParity := m.badParity.filter (fun k => !resetKey sys k), tableSet := false, tableChanges := [], path := path, gateOrders := [], gate := fresh
    store := { lastSeg := m.store.lastSeg }, rota := { lastRead := m.rota.lastRead }, tank := { errs := m.tank.errs }, armSpan := none, arming := none, tbLoad := none, disp := [{}, {}]
    dam := { extLow := m.dam.extLow, highs := m.dam.highs, chainWord := m.dam.chainWord, scan := m.dam.scan }
    intakes := m.intakes.map (fun (i : Intake) => { i with timed := i.timed.map TimedGauge.abandon, calRefs := [], xWindow := [], xOver := [], xDone := [] }) }
  let m := m.setReg R.DAM_STATUS (m.reg R.DAM_STATUS &&& 0xFC)
  forEach 48 (fun n m => ((m.thresholdWritten n false).thresholdWritten n true).setAtReset n) m

/-- The engine-side part of SYS.RESET (sys) or of PERST_N and hot reset: registers, units, and the cistern into self-refresh (R301, R451, R452). DEDUCED: notes/assumptions/34.md. -/
def Chip.engineReset (c : Chip) (sys : Bool) (cause : Nat) : Chip :=
  let c := c.resetDisarm.writePacks
  let m := c.eng
  let refs := m.fld R.CLK_REFSEL_SRC
  let tripped := m.flag R.THRM_STATUS_TRIPPED
  let m := m.resetRegs (fun k => resetKey sys k && !decide (0xD0000 ≤ k % 0x100000 ∧ k % 0x100000 < 0xD3000)) (m.resetKeeps sys)
  let m := ((m.unitsReset sys).opDrop).fuseVsel sys
  let m := if sys then (((m.setFlag R.THRM_STATUS_TRIPPED tripped).fuseLevels).refselWritten refs).setMgt { m.mgt with
      crit := List.replicate 8 0, trip := List.replicate 8 0, warnRun := List.replicate 12 0, outRun := List.replicate 12 0 }
    else m
  let m := m.sysStatus cause
  { c with eng := m.cisSelfRefresh }

/-- The flume links and the ring as after power-on: the links train, discovery follows (R452). -/
def Engine.ringReset (m : Engine) : Engine :=
  let m := m.setRing { start := m.cc, lastNew := m.cc, hostUp := m.ring.hostUp, hostSince := m.ring.hostSince, grid := m.ring.grid }
  (((m.linkRetries .fa).linkRetries .fb).setFlag R.TB_STATUS_TRIB false).mgtUnsettle

/-- SYS_RESET (R451): discarded while dammed. -/
def Chip.sysReset (c : Chip) : Chip :=
  if c.eng.dammed || !c.eng.mgt.powered then c
  else
    let c := (c.flr.engineReset true 1)
    let m := c.eng.ringReset
    let m := { m with detected := [], raised := [], lostSince := 0 }
    let m := m.resetRegs (fun k => decide (0xD0 ≤ keyPage k) && decide (keyPage k ≤ 0xD2)) (fun _ => 0)
    let m := m.setHost { m.host with drains := List.replicate 4 {} }
    { c with eng := m.setMgt { m.mgt with resetting := true } }

/-- SYS_RESET_COMPLETE (R451). -/
def Engine.sysResetDone (m : Engine) : Engine := if m.mgt.resetting then (m.setMgt { m.mgt with resetting := false }).cisExit else m

/-- Does the start-up after power-on still initialise the cistern, so that a reset acts on the host-facing side only (R448)? -/
def Engine.starting (m : Engine) : Bool := m.cis.boot && m.cis.full && decide (m.cisState < 3)

/-- FUNDAMENTAL_RESET and HOT_RESET (R357, R448). A dam ends first (R439), after `elapsed` reference cycles. -/
def Chip.linkReset (c : Chip) (cause elapsed : Nat) : Chip :=
  if !c.eng.mgt.powered then c
  else
    let c := { c with eng := c.eng.damRelease elapsed }
    let c := c.flr
    let c := { c with eng := (c.eng.hostReset).hostLinkLeft }
    if c.eng.starting then c else c.engineReset false cause

/-- FUNDAMENTAL_RESET (R357): PERST_N is asserted. -/
def Chip.fundamental (c : Chip) (elapsed : Nat) : Chip :=
  if c.eng.host.perst then c else let c := c.linkReset 2 elapsed; { c with eng := c.eng.setHost { c.eng.host with perst := true } }

/-- HOT_RESET (R357): the reset's exit follows at once. DESIGN CHOICE: notes/assumptions/33.md. -/
def Chip.hotReset (c : Chip) (elapsed : Nat) : Chip :=
  if c.eng.host.perst then c else let c := c.linkReset 3 elapsed; { c with eng := c.eng.cisExit }

/-- PERST_N_DEASSERT (R24, R340): training starts, with the common clock or SRIS. -/
def Engine.perstRise (m : Engine) (common : Bool) : Engine :=
  if !m.host.perst then m else (m.setHost { m.host with perst := false, commonClk := common }).cisExit

/-! Power (R447, R454). -/

/-- The unpowered state (R454): everything but what the fuses hold, the trip bit and the pins' outside levels is lost. -/
def Chip.unpower (c : Chip) (trip : Bool) : Chip :=
  let m := c.eng
  let r := ((List.range 4).find? (fun r => (nth m.mgt.rows r none).isNone)).getD 0
  let (rows, bad) := match m.mgt.prog with
    | some l => (m.mgt.rows.set r (some (l.take 7)), m.mgt.bad)
    | none => (m.mgt.rows, m.mgt.bad)
  let e : Engine := { mgt := { rows := rows, bad := bad, powered := false, tripped := trip || m.mgt.tripped }, freeCtr := m.freeCtr, dam := { extLow := m.dam.extLow }, host := { perst := m.host.perst } }
  let e := (((e.setReg R.SYS_IDENT (m.reg R.SYS_IDENT)).setReg R.SYS_BUDGET_HI (m.reg R.SYS_BUDGET_HI)).setReg64 R.RING_ID_LO (m.reg64 R.RING_ID_LO)).setFlag
    R.THRM_STATUS_TRIPPED (trip || m.flag R.THRM_STATUS_TRIPPED)
  { eng := e, tanks := [], cistern := [] }

/-- SUPPLY_LOSS (R454). -/
def Chip.supplyLoss (c : Chip) : Chip := if c.eng.mgt.powered then c.unpower false else c

/-- POWER_ON_RESET (R447, R457): the supplies are good again, every page returns, and the start-up begins with the fuse row in force. -/
def Chip.powerOn (c : Chip) : Chip :=
  let c := if c.eng.mgt.powered then c.unpower false else c
  let m := c.eng
  let (r, row) := m.mgt.inForce
  let m := m.setMgt { m.mgt with powered := true, tripped := false }
  let m := forEach 8 (fun k m => m.setReg (R.MGT_FUSEROW k) (nth row k 0)) m
  let m := (m.showRows.setFld R.MGT_FUSESTAT_INFORCE r)
  { c with eng := (((m.fuseLevels).fuseVsel true).mgtUnsettle).cisInit }

/-- HEADRACE_LOCK (R169, R447): the clocks start, TB at 0, and the flume links begin training. -/
def Engine.headraceLock (m : Engine) : Engine :=
  if m.running || m.lost || m.dammed || !m.mgt.powered || m.flag R.CLK_STATUS_LOCK_A then m
  else
    let m := { m with running := true, first := true, cc := 0, tb := 0 }
    let m := (((m.setFlag R.CLK_STATUS_LOCK_A true).setFlag R.CLK_STATUS_LOCK_B true).setFlag R.CLK_STATUS_REDUNDANT true)
    let m := m.setFld R.CLK_STATUS_INUSE (m.fld R.CLK_REFSEL_SRC)
    (m.linkRetries .fa).linkRetries .fb

/-- TEMPERATURE_SAMPLE (R463), with the thermal trip. DEDUCED: notes/assumptions/93.md. -/
def Chip.tempSample (c : Chip) (s : Nat) (v : BitVec 16) : Chip :=
  let m := c.eng.tempSample s v
  if m.tripDue then ({ c with eng := m }).unpower true else { c with eng := m }

end Sys2Proof.Machine
end

