-- ==== Sys2Proof/Machine/Access.lean ====
section
/-! DEFINITION. Register accesses (R394 to R416): decoding, classes, locks, held writes, what each written register brings about, and what a read returns. -/
namespace Sys2Proof.Machine

/-! The common head and the directory (R341, R395 to R400). -/

/-- The block type of PAGE_ID (R341). -/
def Block.type : Block → Nat
  | .dirB => 0x01 | .sysB => 0x02 | .clkB => 0x03 | .tbB => 0x04 | .safeB => 0x05 | .evtB => 0x06 | .mgtB => 0x07 | .thrmB => 0x08 | .damB => 0x09
  | .intkB => 0x10 | .ruB => 0x11 | .rugB => 0x12 | .confB => 0x20 | .sluB => 0x21 | .rotaB => 0x22 | .gateB => 0x23 | .weirB => 0x24
  | .storeB => 0x28 | .segB => 0x29 | .cisB => 0x30 | .cispB => 0x31 | .cbistB => 0x32 | .tankB => 0x38 | .tbistB => 0x39
  | .hostB => 0x40 | .winB => 0x41 | .drainB => 0x42 | .dispB => 0x48 | .fluB => 0x50 | .ringB => 0x51

/-- The class of a page (R397): 0 OPEN, 1 SAFETY, 2 RING. -/
def Block.cls : Block → Nat
  | .safeB | .mgtB | .thrmB => 1
  | .tbB | .fluB | .ringB => 2
  | _ => 0

/-- Does a page hold registers whose writes are held while armed (R396)? -/
def Block.heldPage : Block → Bool
  | .intkB | .ruB | .confB | .gateB | .weirB | .storeB | .segB | .cisB => true
  | _ => false

/-- May a port write registers of a class (R398)? -/
def classAllows (cls : Nat) (p : Port) : Bool :=
  match p with
  | .host => cls != 1
  | .mgmt => true
  | .fa | .fb => cls == 2
  | .tap => false

/-- WRITERS of PAGE_ACCESS (R396): bit 0 host link, 1 management, 2 flume, 3 TAP. -/
def writersOf (cls : Nat) : Nat := match cls with | 1 => 2 | 2 => 7 | _ => 3

/-- The implemented pages, ascending (R397). -/
def pagesList : List Nat := (List.range 256).filter (fun p => (pageOf p).isSome)

/-- A directory entry's low and high word (R341). -/
def dirEntry (p : Nat) : Nat × Nat :=
  match pageOf p with
  | some (b, i) => (p + b.cls * 2 ^ 12 + i * 2 ^ 16 + 2 ^ 24, b.type)
  | none => (0, 0)

/-- A word of the directory (R341); 0 beyond its entries. -/
def dirWord (a : Nat) : Word :=
  let n := pagesList.length
  if a = 0x40 then 0x5249444E
  else if a = 0x44 then BitVec.ofNat 32 (n + 2 ^ 16)
  else if a = 0x48 then crc32 (pagesList.foldl (fun l p => let e := dirEntry p; l ++ bytesLE 4 e.1 ++ bytesLE 4 e.2) [])
  else if a < 0x80 then 0
  else match pagesList[(a - 0x80) / 8]? with
    | none => 0
    | some p => let e := dirEntry p; BitVec.ofNat 32 (if a % 8 = 0 then e.1 else if a % 8 = 4 then e.2 else 0)

/-- PAGE_ID, PAGE_CAP and PAGE_ACCESS as a port reads them (R396). -/
def Engine.headWord (m : Engine) (h : RegHit) (port : Port) : Word :=
  if h.off = 0 then BitVec.ofNat 32 (h.blk.type + h.inst * 2 ^ 16 + 2 ^ 24)
  else if h.off = 4 then
    BitVec.ofNat 32 (h.page + (commitMask h.blk != 0).toNat * 2 ^ 12 + (h.blk != .dirB).toNat * 2 ^ 13 + (h.blk == .rugB).toNat * 2 ^ 14 + h.blk.heldPage.toNat * 2 ^ 15)
  else
    let cls := h.blk.cls
    BitVec.ofNat 32 (cls + writersOf cls * 2 ^ 4 + (classAllows cls port).toNat * 2 ^ 8 + port.code * 2 ^ 9 + bitsOf (m.reg (lockAddr h.page)).toNat 0 1 * 2 ^ 12)

/-! What a register shows beside its stored bits. -/

/-- The key of the register file for an address: bank B of a banked register lies 0x100000 above (R112). -/
def Engine.keyOf (m : Engine) (h : RegHit) (a : Nat) : Nat := if h.row.banked && m.flag (R.RUG_CTL_BANKSEL h.inst) then a + 0x100000 else a

/-- SYS.STATUS as a read shows it (R467): copies of the settled state, the dam and the cistern's readiness. -/
def Engine.sysStatusWord (m : Engine) : Word :=
  let w := putBits (m.reg R.SYS_STATUS) 3 1 m.settled.toNat
  putBits (putBits w 4 1 m.dammed.toNat) 5 1 m.cisReady.toNat

/-- ROTA.STATUS as a read shows it (R198). -/
def Engine.rotaStatusWord (m : Engine) (t : Memory) : Word :=
  let w := putBits (m.reg R.ROTA_STATUS) 2 1 (m.rotaStall t).toNat
  let w := putBits (putBits w 0 1 m.rotaRunning.toNat) 3 1 (m.owner m.rotaTank != ownRota).toNat
  putBits w 16 14 ((m.fld R.ROTA_TAIL_INDEX + 16384 - m.fld R.ROTA_HEAD_INDEX) % 16384)

/-- TANK.STATUS and TANK.RETSTAT as a read shows them (R331). -/
def Engine.tankStatusWord (m : Engine) : Word := BitVec.ofNat 32 ((List.range 64).countP (fun n => m.flag (R.TANK_OWN_PEND n)))

/-- RETSTAT as a read shows it (R331): a requested group that may not be in retention is held awake. DEDUCED: notes/assumptions/63.md. -/
def Engine.retstatWord (m : Engine) : Word :=
  let held := (List.range 8).foldl (fun a g => a + (bitAt (m.fld R.TANK_RETREQ_REQ) g && !m.mayRetain g).toNat * 2 ^ g) 0
  putBits (m.reg R.TANK_RETSTAT) 16 8 held

/-- CIS.STATUS as a read shows it (R305). -/
def Engine.cisStatusWord (m : Engine) : Word :=
  let n := m.fld R.CIS_DISP_SIZE_PACKS
  putBits (m.reg R.CIS_STATUS) 11 1 (n != 0 && decide (m.totalPacks < m.fld R.CIS_DISP_BASE_PACKS + n)).toNat

/-- What a port's read of a register returns, without any effect of the read. -/
def Chip.shows (c : Chip) (port : Port) (h : RegHit) (a : Nat) : Word :=
  let m := c.eng
  let raw := m.heldReg (m.keyOf h a)
  let pair := fun (t : Tb) (lo : Nat) => if a = lo then loWord t else hiWord t
  if h.off < 0x0C then m.headWord h port
  else if h.off < 0x40 then raw
  else match h.blk with
    | .sysB => if a = R.SYS_STATUS then m.sysStatusWord else raw
    | .clkB => if a = R.CLK_STATUS then m.clkStatus else if a = R.CLK_REFOFFSET then m.clkOffset else raw
    | .tbB => if a = R.TB_NOW_LO ∨ a = R.TB_NOW_HI then pair m.tb R.TB_NOW_LO else raw
    | .safeB => if a = R.SAFE_STATUS then putBits raw 1 1 m.anyActive.toNat else raw
    | .evtB =>
      if a = R.EVT_FILL then BitVec.ofNat 32 m.staged
      else if a = R.EVT_NEXT_TB_LO ∨ a = R.EVT_NEXT_TB_HI then pair (m.evtNextTb c.tanks) R.EVT_NEXT_TB_LO else raw
    | .mgtB => if a = R.MGT_ALERTSRC then BitVec.ofNat 32 m.alertSources else raw
    | .thrmB => if a = R.THRM_STATUS then m.thrmStatus else raw
    | .rotaB =>
      if a = R.ROTA_STATUS then m.rotaStatusWord c.tanks
      else if a = R.ROTA_NEXT_TB_LO ∨ a = R.ROTA_NEXT_TB_HI then pair (m.rotaNextTb c.tanks) R.ROTA_NEXT_TB_LO else raw
    | .gateB =>
      if a = R.GATE_STATUS then m.gateStatus
      else if a = R.GATE_IN_LO ∨ a = R.GATE_IN_HI then pair (BitVec.ofNat 64 m.gateIn.toNat) R.GATE_IN_LO
      else if a = R.GATE_OUT_LO ∨ a = R.GATE_OUT_HI then pair (BitVec.ofNat 64 m.gateOut.toNat) R.GATE_OUT_LO else raw
    | .cisB => if a = R.CIS_STATUS then m.cisStatusWord else raw
    | .cispB => if h.off < 0x440 ∧ h.off % 0x20 = 0 then m.pcStateWord (32 * h.inst + (h.off - 0x40) / 0x20) else raw
    | .tankB => if a = R.TANK_STATUS then m.tankStatusWord else if a = R.TANK_RETSTAT then m.retstatWord else raw
    | .hostB =>
      if a = R.HOST_STATUS then m.hostStatus
      else if a = R.HOST_PBA_LO ∨ a = R.HOST_PBA_HI then pair m.pba R.HOST_PBA_LO else raw
    | .winB => if a = R.WIN_STATUS then m.winStatus else raw
    | .drainB => if a = R.DRAIN_STATUS then m.drainStatus else raw
    | .dispB =>
      if a = R.DISP_STATUS h.inst then m.dispStatus h.inst
      else if 0x70 ≤ h.off ∧ h.off < 0x90 then m.reg (dispPage (m.source h.inst) * 0x1000 + h.off) else raw
    | .fluB => if a = R.FLU_STATUS h.inst then m.fluStatus h.inst else raw
    | .ringB => if a = R.RING_PATHDLY then m.pathdlyWord else raw
    | _ => raw

/-! Reads. -/

/-- Is an address on a page that the always-on clock serves: SAFE, MGT, THRM, DAM (R25, R407)? -/
def alwaysOn (a : Nat) : Bool := [0x7, 0x9, 0xA, 0xB].contains (a / 0x1000)

/-- Does a register stand still: in a dam, or with the headrace lost and no clock of its own (R20, R403, R435)? DEDUCED: notes/assumptions/133.md. -/
def Engine.frozen (m : Engine) (a : Nat) : Bool := m.dammed || (m.lost && !alwaysOn a)


/-- Does the address lie on CISP[1] of a module with one stack (R3)? -/
def Engine.absentCisp (m : Engine) (a : Nat) : Bool := a / 0x1000 == 0xB2 && decide (m.stackCount < 2)

/-- A port's shadow (R405). -/
def Engine.setShadow (m : Engine) (port : Port) (s : Option (Nat × Word)) : Engine := m.setMgt { m.mgt with shadows := m.mgt.shadows.set port.code s }

/-- The shadow in force for a high word: set by the port's latest low-word read, when that was of the matching low word. -/
def Engine.shadowFor (m : Engine) (port : Port) (a : Nat) : Option Word :=
  match nth m.mgt.shadows port.code none with
  | some (lo, w) => if lo + 4 = a then some w else none
  | none => none

/-- A read of a location that holds no register: the bus error and its mark on an implemented page (R402). DEDUCED: notes/assumptions/61.md. -/
def Engine.unimplAt (m : Engine) (port : Port) (write : Bool) (a : Nat) : Engine :=
  if (pageOf (a / 0x1000)).isSome && decide (a < 0x100000) && !m.dammed then m.pageFault (a / 0x1000) 4 port write (a % 0x1000) else m

/-- Is the address one of the directory's words, which read as it gives them and ignore writes (R341)? -/
def isDirWord (a : Nat) : Bool := decide (a < 0x4000) && decide (0x40 ≤ a % 0x1000) && a % 4 == 0

/-- The word of the frozen image at an address (R436); none outside its table. DESIGN CHOICE: notes/assumptions/57.md. -/
def Chip.imageWord (c : Chip) (ad : Nat) : Option Word :=
  let m := c.eng
  if ad < 0x100000 then
    let p := ad / 0x1000
    if p = 7 ∨ p = 9 ∨ p = 0xA ∨ p = 0xB then some 0
    else if isDirWord ad then some (if ad < 0x1000 then dirWord ad else 0)
    else if m.absentCisp ad then some 0
    else match decodeReg ad with
      | none => some 0
      | some h => some (c.shows .tap h ad)
  else if 0x1000000 ≤ ad ∧ ad < 0x2000000 then some (BitVec.ofNat 32 (readLE c.tanks (ad - 0x1000000) 4))
  else if 0x2000000 ≤ ad ∧ ad < 0x2000000 + 48 * 0x8000 then
    let k := ad - 0x2000000
    let bytes := ((m.sto (k / 0x8000)).fifo[k % 0x8000 / 256]?).map (·.bytes)
    some (BitVec.ofNat 32 (leNat (((bytes.getD []).drop (k % 256)).take 4)))
  else if 0x4000000 ≤ ad ∧ ad < 0x8000000 then some (BitVec.ofNat 32 (Config.chainWord m.dam.chainWord ad))
  else none

/-- IMG_DATA_READ (R436): the image word at IMG_ADDR, which advances by 4. -/
def Chip.imgData (c : Chip) : Chip × Word :=
  let m := c.eng
  let ad := (m.reg R.DAM_IMG_ADDR).toNat
  let next := fun (m : Engine) => m.setReg R.DAM_IMG_ADDR (BitVec.ofNat 32 (ad + 4))
  match (if m.dammed then c.imageWord (ad / 4 * 4) else none) with
  | some w => ({ c with eng := next m }, w)
  | none => ({ c with eng := (next m).status R.E_DAM_IMG_ERR }, 0)

/-- What a read brings about (R403, R405): RC bits clear on the host link where the register does not stand still, the port's shadow follows, TRIPPED clears once READY. DEDUCED: notes/assumptions/62.md. -/
def Chip.readEffect (c : Chip) (port : Port) (h : RegHit) (a : Nat) (w : Word) : Chip :=
  let m := c.eng
  let rc := BitVec.ofNat 32 h.row.rc
  let m := if port == .host && !m.frozen a && h.row.rc != 0 then m.setReg a (m.reg a &&& ~~~(w &&& rc)) else m
  let m := if h.row.low then
      (match decodeReg (a + 4) with | some h' => m.setShadow port (some (a, c.shows port h' (a + 4))) | none => m)
    else m
  let m := if a = R.THRM_STATUS ∧ m.flag R.SYS_STATUS_READY ∧ !m.dammed then m.setFlag R.THRM_STATUS_TRIPPED false else m
  { c with eng := m }

/-- A read of a register by a port (R394 to R405). -/
def Chip.readReg (c : Chip) (port : Port) (a : Nat) : Chip × Bus × Word :=
  let m := c.eng
  if 0x100000 ≤ a ∨ a % 4 ≠ 0 then (c, .unimpl, 0)
  else if isDirWord a then (c, .ok, if a < 0x1000 then dirWord a else 0)
  else if m.absentCisp a then (c, .ok, 0)
  else match decodeReg a with
    | none => ({ c with eng := m.unimplAt port false a }, .unimpl, 0)
    | some h =>
      if m.badParity.contains (m.keyOf h a) then (c, .parity, 0)
      else if a = R.DAM_IMG_DATA then let (c, w) := c.imgData; (c, .ok, w)
      else
        let w := match (if h.row.high then m.shadowFor port a else none) with | some w => w | none => c.shows port h a
        (c.readEffect port h a w, .ok, w)

/-! Host-link operations that a register write brings about (R362, R365). -/

/-- HOLD ends (R362): nothing generated before is sent any more, completions of reads under way among it; pending bits stay and drains stay PAUSED. DEDUCED: notes/assumptions/151.md. -/
def Engine.holdRelease (m : Engine) : Engine :=
  if m.host.hold then (m.setHost { m.host with hold := false, holdCause := 0 }).setCis { m.cis with reads := m.cis.reads.filter (fun r => r.reply.isSome) } else m

/-- MSI and MSI-X of a tributary function are disabled at its FLR, in the configuration space that the head keeps (R358, R364). -/
def Engine.flrFunction (m : Engine) (f : Nat) : Engine := ([0x50, 0x54, 0x58, 0x5C, 0x60, 0xB0]).foldl (fun m o => m.setCfg f o 0) m

/-- TRIB_RECOVER (R365): a lost function that is reachable again is presented as before, after an FLR. -/
def Engine.tribRecover (m : Engine) (bits : Nat) : Engine :=
  forEach 8 (fun f m =>
    if f ≠ 0 ∧ bitAt bits f ∧ bitAt (m.reg R.HOST_TRIB_LOST).toNat f ∧ bitAt (m.fld R.RING_MEMBERS_REACH) f then (m.flrFunction f).clearBits R.HOST_TRIB_LOST (2 ^ f) else m) m

/-! Writes. -/

/-- What a write of SYS.CTL asks for (R451, R455): DISARM wins over ARM. DESIGN CHOICE: notes/assumptions/60.md. -/
def Chip.sysCtl (c : Chip) (v : Nat) : Chip :=
  if bitAt v 2 ∧ bitsOf v 16 16 = 0xA5C3 then c.sysReset
  else if bitAt v 1 then { c with eng := c.eng.disarm }
  else if bitAt v 0 then { c with eng := c.eng.armRequest 0 none }
  else c

/-- What a write of SAFE.CTL asks for (R424, R450): a SETTLE written with a RELEASE leaves the engine settled. DEDUCED: notes/assumptions/59.md. -/
def Chip.safeCtl (c : Chip) (v : Nat) : Chip :=
  let m := if bitAt v 0 then c.eng.safeRelease else c.eng
  { c with eng := if bitAt v 1 then m.swSettle c.tanks else m }

/-- What a write of DAM.CTL asks for (R431, R439): RELEASE acts on a dammed module. -/
def Chip.damCtl (c : Chip) (v : Nat) : Chip :=
  let m := c.eng
  if m.dammed then
    (if bitAt v 1 then let (k, m) := m.draw; { c with eng := m.damRelease (Config.damElapsed k) } else c)
  else if bitAt v 0 then { c with eng := m.damAssert } else c

/-- What a written register of the host side brings about: o is the engine before the write. -/
def Chip.hostEffect (c : Chip) (o : Engine) (h : RegHit) (a v : Nat) : Chip :=
  let m := c.eng
  let e := fun (m : Engine) => { c with eng := m }
  match h.blk with
  | .hostB =>
    if a = R.HOST_CTL then (if bitAt v 0 then e m.holdRelease else c)
    else if a = R.HOST_TRIBCTL then e (m.tribRecover v) else c
  | .winB => if a = R.WIN_COMMIT then e (m.winCommit (bitsOf v 0 16)) else c
  | .drainB =>
    let d := (h.off - 0x100) / 0x40
    let r := (h.off - 0x100) % 0x40
    if a = R.DRAIN_RESUME then e (m.drainResume (bitsOf v 0 4))
    else if h.off < 0x100 then c
    else if r = 0 then e (m.drainCtl d (o.reg a))
    else if r = 0x10 then e (m.drainKick d)
    else if (r = 0x04 ∨ r = 0x08 ∨ r = 0x0C ∨ r = 0x14 ∨ r = 0x18) ∧ o.drainSt d ≠ 0 ∧ o.drainSt d ≠ 3 then e (m.setReg a (o.reg a))
    else if r = 0x0C then e (m.drainKick d)
    else c
  | .dispB =>
    let n := h.inst
    if a = R.DISP_CTL n then e (((if n = 0 then m.clearBits a 2 else m).dispCtl n).ignoreAll)
    else if a = R.DISP_LINKCFG n then (if bitAt v 8 then e (m.dpTrain n) else c)
    else if a = R.DISP_STATIC n then e m.ignoreAll
    else if a = R.DISP_AUXCTL n then (if bitAt v 16 then e (m.auxGo n) else c)
    else c
  | _ => c

/-- What a written register of the module's own pages brings about. -/
def Chip.pageEffect (c : Chip) (o : Engine) (h : RegHit) (a v : Nat) : Chip :=
  let m := c.eng
  let e := fun (m : Engine) => { c with eng := m }
  match h.blk with
  | .sysB => if a = R.SYS_CTL then c.sysCtl v else c
  | .clkB => if a = R.CLK_REFSEL then e (m.refselWritten (o.fld R.CLK_REFSEL_SRC)) else c
  | .tbB => if a = R.TB_CTL ∧ bitAt v 0 then e m.tbLoadReq else c
  | .safeB => if a = R.SAFE_CTL then c.safeCtl v else c
  | .evtB =>
    if a = R.EVT_CTL then e (m.evtCtl (o.reg a))
    else if a = R.EVT_STG_HEAD then e ((m.setReg a (o.reg a)).stgHead v)
    else if (a = R.EVT_RING_BASE_LO ∨ a = R.EVT_RING_BASE_HI) ∧ o.flag R.EVT_CTL_EN then e (m.setReg a (o.reg a))
    else c
  | .mgtB => if a = R.MGT_FUSECTL ∧ bitAt v 0 then e (m.fuseProg (bitsOf v 16 16)) else c
  | .damB => if a = R.DAM_CTL then c.damCtl v else c
  | .fluB => if a = R.FLU_CTL h.inst then e (m.fluCtl (if h.inst = 0 then .fa else .fb) (bitAt v 1)) else c
  | .ringB =>
    if a = R.RING_CTL then
      let m := m.modeWrite (o.flag R.RING_CTL_MODE) (bitAt v 0)
      e (if bitAt v 4 then m.rediscover else m)
    else if a = R.RING_CWR_CTL ∧ bitAt v 0 then e m.cwrGo
    else c
  | .tankB =>
    if a = R.TANK_RETREQ then e m.retreqWritten
    else if 0x100 ≤ h.off ∧ h.off < 0x200 then e (m.ownWritten ((h.off - 0x100) / 4)) else c
  | .tbistB => if a = R.TBIST_CTL ∧ bitAt v 16 then e m.tbistGo else c
  | .cisB =>
    if a = R.CIS_CTL then
      let c := if bitAt v 4 then c.reinit else c
      if bitAt v 0 then { c with eng := c.eng.opGo } else c
    else c
  | .cispB => if h.off < 0x440 ∧ h.off % 0x20 = 0x1C ∧ bitAt v 0 then e (m.revive (32 * h.inst + (h.off - 0x40) / 0x20)) else c
  | .cbistB => if a = R.CBIST_CTL ∧ bitAt v 2 then e m.cbistGo else c
  | _ => c

/-- What a written register of the capture pages brings about; `key` tells the bank. -/
def Engine.captureEffect (m o : Engine) (h : RegHit) (a key v : Nat) : Engine :=
  let n := h.inst
  match h.blk with
  | .intkB =>
    if a = R.INTK_THRSEL n then (if m.armed then m else m.thrselApply n)
    else if a = R.INTK_THR_A n then m.thresholdWritten n false
    else if a = R.INTK_THR_B n then m.thresholdWritten n true
    else if a = R.INTK_CKTHR n then m.ckthrWritten n
    else if a = R.INTK_XCTL n then m.xctlWritten n
    else if a = R.INTK_CAL n ∧ bitAt v 8 then m.calGo n m.armed
    else m
  | .ruB => if a = R.RU_EYECTL n ∧ bitAt v 12 then m.eyeGo n else if a = R.RU_FIFO_PEAK n then m.showFifo n else m
  | .rugB =>
    if 0x80 ≤ h.off ∧ h.off < 0x100 then
      (let g := (h.off - 0x80) / 0x20
       if h.off % 0x20 = 0 then m.cntWritten n g false else if h.off % 0x20 = 4 then m.cntWritten n g true else m)
    else if 0x200 ≤ h.off ∧ h.off < 0x240 ∧ h.off % 0x10 = 0 then m.tctlWritten n (key / 0x100000) ((h.off - 0x200) / 0x10) o
    else m
  | .confB =>
    if a = R.CONF_SETSEL then (if m.armed then m else m.setselWritten)
    else if a = R.CONF_VERIFY ∧ bitAt v 0 then m.verify (m.flag R.CONF_VERIFY_SET)
    else if a = R.CONF_SNAPCTL ∧ bitAt v 0 then m.snapGo
    else if 0x100 ≤ h.off ∧ h.off < 0x140 then m.setcrcWritten false
    else if 0x140 ≤ h.off ∧ h.off < 0x180 then m.setcrcWritten true
    else m
  | .rotaB =>
    if a = R.ROTA_CTL then m.rotaCtl (o.reg a) (bitAt v 1)
    else if a = R.ROTA_HEAD then (m.setReg a (o.reg a)).rotaHead (bitsOf v 0 14)
    else if a = R.ROTA_REPSTOP then m.repStop v
    else m
  | .gateB => if a = R.GATE_BANKCFG then m.bankcfgWritten (o.reg a) else m
  | .segB => if (h.off - 0x40) % 0x3C = 0x1C then m.lockctl (64 * n + (h.off - 0x40) / 0x3C) (bitAt v 0) (bitAt v 1) (bitAt v 2) else m
  | _ => m

/-- What a write of a head register brings about (R404, R410, R380): enables over set bits raise the event, LOCK locks, a commit is asked for. -/
def Engine.headEffect (m o : Engine) (h : RegHit) (a v : Nat) : Engine :=
  if h.off = 0x0C then (if bitAt v 0 ∧ h.blk ≠ .dirB then m.setReg a 1 else m)
  else if h.off = 0x14 then
    let fresh := m.reg a &&& ~~~o.reg a &&& m.reg (statusAddr h.page)
    if fresh = 0 then m else m.raise h.page fresh
  else if h.off = 0x1C then
    let bits := v &&& commitMask h.blk
    if bits = 0 then m else (m.orReg a bits).dispCommit h.inst
  else m

/-- Everything that a stored write brings about. -/
def Chip.writeEffect (c : Chip) (o : Engine) (h : RegHit) (a key v : Nat) : Chip :=
  if h.off < 0x40 then { c with eng := c.eng.headEffect o h a v }
  else (({ c with eng := c.eng.captureEffect o h a key v }).pageEffect o h a v).hostEffect o h a v

/-- The DATA of entries 0x0215 and 0x0216 (R418). -/
def violData (port : Port) (write : Bool) (off origin : Nat) : Nat := port.code + write.toNat * 2 ^ 3 + off / 4 * 2 ^ 4 + origin * 2 ^ 16

/-- Would a write change a frozen field of a locked page (R411, R413)? -/
def Engine.frozenBy (m : Engine) (h : RegHit) (a v : Nat) : Bool :=
  bitAt (m.reg (lockAddr h.page)).toNat 0 && (decide (0x40 ≤ h.off) || h.off == 0x14) &&
    ((m.heldReg (m.keyOf h a) ^^^ BitVec.ofNat 32 v) &&& BitVec.ofNat 32 h.row.rw) != 0

/-- The writable fields of a register take a value; both copies are good again (R4, R409). DESIGN CHOICE: notes/assumptions/101.md. -/
def Engine.storeFields (m : Engine) (h : RegHit) (key : Nat) (v : Word) : Engine :=
  let mask := BitVec.ofNat 32 (h.row.rw ||| h.row.rwh)
  let m := m.setReg key ((m.reg key &&& ~~~mask) ||| (v &&& mask))
  { m with badParity := m.badParity.filter (fun k => k != key) }

/-- May a write act while the module is dammed (R435)? -/
def damWrite (port : Port) (a v : Nat) : Bool :=
  (a == R.DAM_CTL && bitAt v 1 && (port == .host || port == .mgmt)) || (a == R.DAM_IMG_ADDR && port == .mgmt)

/-- A write that reaches a register and is allowed there: held, or stored with what it brings about (R82, R416). -/
def Chip.writeAt (c : Chip) (h : RegHit) (a : Nat) (v : Word) : Chip :=
  let m := c.eng
  if m.isHeld a then
    (if m.asking && ruHeld a then { c with eng := m.holdLate a v }
     else if m.armed || m.store.active then { c with eng := (m.noteWrite a v true).hold a v }
     else { c with eng := (m.noteWrite a v false).takeConfig a v })
  else
    let key := m.keyOf h a
    ({ c with eng := m.storeFields h key v }).writeEffect m h a key v.toNat

/-- A write that the class forbids (R261, R401): the fault, its entry, and of a flume request whose it was. DESIGN CHOICE: notes/assumptions/146.md. -/
def Engine.accessViol (m : Engine) (page off : Nat) (port : Port) (origin : Nat) : Engine :=
  let m := (m.pageFault page 3 port true off).logNow page 2 0x0215 (violData port true off origin)
  if port == .fa || port == .fb then m.setRing { m.ring with refused := some (origin, (m.ring.heard.find? (fun h => h.pos == origin)).map (·.id)) } else m

/-- A write of a register by a port (R394 to R416); `origin` is the ring position a flume access comes from. One whose clock is stopped with the headrace waits for it (R20, R407). -/
def Chip.writeReg (c : Chip) (port : Port) (origin a : Nat) (v : Word) : Chip × Bus :=
  let m := c.eng
  if m.dammed ∧ !damWrite port a v.toNat then ({ c with eng := m.addSat R.DAM_WDISC 1 }, .ok)
  else if m.lost && !alwaysOn a then ({ c with eng := m.setMgt { m.mgt with stalled := m.mgt.stalled ++ [(port, origin, a, v)] } }, .ok)
  else if 0x100000 ≤ a ∨ a % 4 ≠ 0 then (c, .unimpl)
  else if isDirWord a then
    (if classAllows 0 port then (c, .ok) else ({ c with eng := m.accessViol (a / 0x1000) (a % 0x1000) port origin }, .forbidden))
  else match decodeReg a with
    | none => ({ c with eng := m.unimplAt port true a }, .unimpl)
    | some h =>
      let cls := if h.off = 0x0C then 1 else h.blk.cls
      if m.absentCisp a then (c, .ok)
      else if !classAllows cls port then ({ c with eng := m.accessViol h.page h.off port origin }, .forbidden)
      else if m.frozenBy h a v.toNat then ({ c with eng := (m.pageFault h.page 2 port true h.off).logNow h.page 2 0x0216 (violData port true h.off origin) }, .ok)
      else (c.writeAt h a v, .ok)

/-- Writes that waited for the headrace take effect, in their order (R407). -/
def Chip.unstall (c : Chip) : Chip :=
  if c.eng.lost then c
  else c.eng.mgt.stalled.foldl (fun c w => (c.writeReg w.1 w.2.1 w.2.2.1 w.2.2.2).1) { c with eng := c.eng.setMgt { c.eng.mgt with stalled := [] } }

end Sys2Proof.Machine
end

