-- ==== Sys2Proof/Machine/Endpoint.lean ====
section
/-! DEFINITION. The host link as a completer (R334 to R345, R353 to R365): configuration space, requests to the BARs, HOLD, link power, funnel functions. -/
namespace Sys2Proof.Machine

/-- An answer is recorded. DESIGN CHOICE: notes/assumptions/104.md. -/
def Engine.reply (m : Engine) (a : Answer) : Engine := { m with answer := a }

/-- Does an access reach the module: powered, and no SYS.RESET under way (R451)? DESIGN CHOICE: notes/assumptions/30.md. -/
def Engine.reachable (m : Engine) : Bool := m.mgt.powered && !m.mgt.resetting

/-! Configuration space (R337 to R339, R363). -/

/-- A word of which the spec gives the bits of a mask; the others are open. -/
def knownBits (key mask val : Nat) : Word :=
  (BitVec.ofNat 32 (Config.cfgWord key) &&& ~~~BitVec.ofNat 32 mask) ||| BitVec.ofNat 32 val

/-- Is funnel mode in force at this module as the head (R262)? -/
def Engine.funnelHead (m : Engine) : Bool := m.role == 1 && m.flag R.RING_STATUS_FUNNEL

/-- Is a function presented (R262, R364)? -/
def Engine.presented (m : Engine) (f : Nat) : Bool := f == 0 || (m.funnelHead && bitAt (m.fld R.RING_MEMBERS_FUNNEL_MAP) f)

/-- Is a tributary function lost (R365)? -/
def Engine.lostFn (m : Engine) (f : Nat) : Bool := f != 0 && bitAt (m.reg R.HOST_TRIB_LOST).toNat f

/-- The bits of a configuration word that software writes, kept as written: those of options that R335 does not list stay 0. Positions inside the capabilities are the
PCI Express ones. PRESUMED: notes/assumptions/38.md. -/
def cfgMask (off : Nat) : Nat :=
  match off with
  | 0x04 => 0x0546 | 0x0C => 0xFF | 0x10 => 0xFFF00000 | 0x14 => 0xFFFFFFFF | 0x1C => 0xFFFFFFFF | 0x20 => 0xFF000000 | 0x24 => 0xFFFFFFFF
  | 0x3C => 0xFF | 0x44 => 3 | 0x50 => 0x710000 | 0x54 => 0xFFFFFFFC | 0x58 => 0xFFFFFFFF | 0x5C => 0xFFFF | 0x60 => 0xFFFFFFFF
  | 0x78 => 0x79FF | 0x80 => 0xFFFF | 0x98 => 0x141F | 0xA0 => 0xFFFF | 0xB0 => 0xC0000000
  | 0x108 => 0xFFFFFFFF | 0x10C => 0xFFFFFFFF | 0x114 => 0xFFFFFFFF | 0x2A4 => 0xFFFFFFFF | 0x2B8 => 0xFFFFFFFF | 0x2BC => 0xFFFFFFFF
  | 0x30C => 0xFFFFC
  | _ => 0

/-- The header of an extended capability: its identifier and the next one; the version is open but for the vendor-specific one. -/
def extHeader (off id next : Nat) : Word := knownBits off 0xFFF0FFFF (id + next * 2 ^ 20)

/-- Does an offset lie inside a capability of R338? -/
def inCap (off : Nat) : Bool :=
  [(0x40, 0x48), (0x50, 0x68), (0x70, 0xAC), (0xB0, 0xBC), (0x100, 0x148), (0x150, 0x15C), (0x160, 0x2A8), (0x2B0, 0x2C8)].any
    (fun s => decide (s.1 ≤ off) && decide (off < s.2))

/-- VSEC CTL (R363). -/
def Engine.vsecCtl (m : Engine) : Word :=
  BitVec.ofNat 32 (m.host.hold.toNat + m.host.holdCause * 2 ^ 2 + bitsOf (m.reg R.HOST_TRIB_LOST).toNat 0 8 * 2 ^ 8)

/-- The standard header and capabilities of a function (R337 to R339), offsets below 0x100. DESIGN CHOICE: notes/assumptions/39.md. -/
def Engine.cfgLow (m : Engine) (f off : Nat) : Word :=
  let w := (m.cfg f off).toNat
  let k := 4096 * f + off
  match off with
  | 0x00 => if f = 0 then 0x4896C4D1 else 0x4897C4D1
  | 0x04 => BitVec.ofNat 32 (w + 0x00100000)
  | 0x08 => 0x11800001
  | 0x0C => BitVec.ofNat 32 (w + (f == 0 && m.funnelHead).toNat * 2 ^ 23)
  | 0x10 => BitVec.ofNat 32 (w + 4)
  | 0x18 => 0xC
  | 0x20 => BitVec.ofNat 32 (w + 4)
  | 0x14 | 0x1C | 0x24 | 0x3C | 0x54 | 0x58 | 0x5C | 0x60 => BitVec.ofNat 32 w
  | 0x2C => if f = 0 then m.reg (R.MGT_FUSEROW 0) else BitVec.ofNat 32 (Config.cfgWord k)
  | 0x34 => 0x40
  | 0x40 => knownBits k 0xFE00FFFF 0x5001
  | 0x44 => BitVec.ofNat 32 (w + 8)
  | 0x50 => BitVec.ofNat 32 (0x018A7005 + w)
  | 0x64 => if f = 0 then m.msiPending else BitVec.ofNat 32 (Config.cfgWord k)
  | 0x70 => knownBits k 0x1FFFFFF 0x2B010
  | 0x74 => knownBits k 0x1000003F 0x10000022
  | 0x78 => knownBits k 0xFFFF w
  | 0x7C => knownBits k 0x1B8FFF 0x198905
  | 0x80 => knownBits k 0x23FFFFFF (w + m.host.speed * 2 ^ 16 + m.host.width * 2 ^ 20 + m.host.l0.toNat * 2 ^ 29)
  | 0x94 => knownBits k 0x2F3BFF 0x3081F
  | 0x9C => knownBits k 0x1FE 0x3E
  | 0x98 | 0xA0 => knownBits k 0xFFFF w
  | 0xB0 => BitVec.ofNat 32 (0x003F0011 + w)
  | 0xB4 => 0xD0800
  | 0xB8 => 0xD0C00
  | _ => if inCap off then BitVec.ofNat 32 (Config.cfgWord k) else 0

/-- The extended configuration space, but for the proxy's data (R338, R363, R364). -/
def Engine.cfgHigh (m : Engine) (f off : Nat) : Word :=
  let w := (m.cfg f off).toNat
  let k := 4096 * f + off
  let ari := m.funnelHead
  if f ≠ 0 ∧ 0x160 ≤ off ∧ off < 0x2C0 then 0
  else match off with
    | 0x100 => extHeader k 0x0001 0x150
    | 0x104 | 0x108 | 0x110 | 0x114 | 0x2A4 | 0x2B8 | 0x2BC | 0x30C => BitVec.ofNat 32 w
    | 0x10C => BitVec.ofNat 32 w ^^^ 0x00462030
    | 0x150 => extHeader k 0x0003 (if f = 0 then 0x160 else 0x2C0)
    | 0x154 => if f = 0 then m.reg R.RING_ID_LO else BitVec.ofNat 32 (Config.cfgWord k)
    | 0x158 => if f = 0 then m.reg R.RING_ID_HI else BitVec.ofNat 32 (Config.cfgWord k)
    | 0x160 => extHeader k 0x0019 0x1C0
    | 0x1C0 => extHeader k 0x0026 0x200
    | 0x200 => extHeader k 0x002A 0x240
    | 0x240 => extHeader k 0x0027 0x2A0
    | 0x2A0 => extHeader k 0x0018 0x2B0
    | 0x2B0 => extHeader k 0x001E (if ari then 0x2C0 else 0x300)
    | 0x2B4 => knownBits k 0x1F 0x1F
    | 0x2C0 => if ari then extHeader k 0x000E 0x300 else 0
    | 0x300 => 0x0001000B
    | 0x304 => 0x01410001
    | 0x308 => m.vsecCtl
    | _ => if inCap off && (ari || decide (off < 0x2C0)) then BitVec.ofNat 32 (Config.cfgWord k) else 0

/-- A configuration word as a read returns it. -/
def Engine.cfgRead (m : Engine) (f off : Nat) : Word := if off < 0x100 then m.cfgLow f off else m.cfgHigh f off

/-- The bits of a word under four byte enables. -/
def beMask (be : BitVec 4) : Nat := (List.range 4).foldl (fun a i => a + (be.getLsbD i).toNat * 255 * 256 ^ i) 0

/-- A refusal with a free cause, for those whose code LASTREF does not list. -/
def Engine.refuseOpen (m : Engine) (bar : Nat) (write : Bool) (off : Nat) : Engine :=
  let (k, m) := m.draw
  m.hostRefuse bar write (Config.openCode k % 4) off

/-- A bit of the AER uncorrectable status of a function (R336, R317): 12 poisoned TLP received, 15 completer abort. PRESUMED: notes/assumptions/38.md. -/
def Engine.aer (m : Engine) (f bit : Nat) : Engine := m.setCfg f 0x104 (m.cfg f 0x104 ||| BitVec.ofNat 32 (2 ^ bit))

/-- A BAR0 request that reaches its register: one DW (R340). -/
def Chip.oneDw (c : Chip) (off : Nat) (wr : Option Word) : Chip × Bus × Word :=
  match wr with
  | none => c.readReg .host off
  | some v => let (c, b) := c.writeReg .host 0 off v; (c, b, 0)

/-- The drains follow BME and the power state of function 0 (R354 to R356). -/
def Engine.busMaster (m : Engine) : Engine := if m.bme 0 && !m.d3hot 0 then m.drainsKick else m.drainsStop

/-- A request to a tributary function goes to its module (R263): TYPE 0 REG_RD, 1 REG_WR, 2 WIN_RD, 3 WIN_WR. DESIGN CHOICE: notes/assumptions/42.md. -/
def Engine.forward (m : Engine) (f type off len data : Nat) (bytes : List Byte) : Engine :=
  let tag := m.host.nextTag
  let m := m.setHost { m.host with nextTag := (tag + 1) % 256 }
  let m := (m.sendSeq f (.hostreq 0 type tag off len data)).1
  (List.range ((bytes.length + 23) / 24)).foldl (fun (m : Engine) i => (m.sendSeq f (.payload 0 (leNat ((bytes.drop (24 * i)).take 24)))).1) m

/-- VSEC_RDATA (R363): a one-DW BAR0 access at RADDR, under the register's own rules; a bus error is Completer Abort. -/
def Chip.vsecData (c : Chip) (f : Nat) (wr : Option Word) : Chip :=
  let off := (c.eng.cfg f 0x30C).toNat % 0x100000
  if f ≠ 0 ∧ c.eng.dammed then { c with eng := (c.eng.hostRefuse 0 wr.isSome 3 off).reply .completerAbort }
  else if f ≠ 0 then
    { c with eng := (c.eng.forward f (if wr.isSome then 1 else 0) off 4 (wr.getD 0).toNat []).reply (if wr.isSome then .done else .none) }
  else
    let (c, b, w) := c.oneDw off wr
    if b = .ok then { c with eng := c.eng.reply (if wr.isSome then .done else .word w) }
    else { c with eng := (c.eng.hostRefuse 0 wr.isSome 3 off).reply .completerAbort }

/-- VSEC_RELEASE (R363). -/
def Engine.vsecRelease (m : Engine) : Engine := m.holdRelease

/-- FLR (R358, R359) of a function; of a tributary's the head does the part it keeps. DEDUCED: notes/assumptions/35.md. -/
def Chip.flrOf (c : Chip) (f : Nat) : Chip := if f = 0 then c.flr else { c with eng := c.eng.flrFunction f }

/-- A configuration write under its byte enables (R339). A power state other than D0 and D3hot is not taken (R338). -/
def Chip.cfgWrite (c : Chip) (f off : Nat) (be : BitVec 4) (v : Word) : Chip :=
  let m := c.eng
  let mask := BitVec.ofNat 32 (cfgMask off &&& beMask be)
  let seen := v.toNat &&& beMask be
  let old := m.cfg f off
  if off = 0x104 ∨ off = 0x110 then { c with eng := m.setCfg f off (old &&& ~~~BitVec.ofNat 32 seen) }
  else if off = 0x308 then (if f = 0 ∧ bitAt seen 1 then { c with eng := m.vsecRelease } else c)
  else
    let flip : Word := if off = 0x10C then 0x00462030 else 0
    let state := (seen &&& 3)
    let keep := off == 0x44 && (state == 1 || state == 2)
    let c := { c with eng := m.setCfg f off (if keep then old else (old &&& ~~~mask) ||| ((v ^^^ flip) &&& mask)) }
    if f = 0 ∧ (off = 0x04 ∨ off = 0x44) then { c with eng := c.eng.busMaster }
    else if off = 0x78 ∧ bitAt seen 15 then c.flrOf f
    else c

/-- A request arrives (R353): the link leaves L1, and its idle time begins again. -/
def Engine.tlpHere (m : Engine) : Engine := m.setHost { m.host with l1 := false, busyAt := m.cc }

/-- CONFIG_REQUEST (R336, R337, R340, R365): of a function, at a word's offset, a read or a write with its byte enables. DEDUCED: notes/assumptions/41.md. DEDUCED: notes/assumptions/55.md. -/
def Chip.configRequest (c : Chip) (f off : Nat) (wr : Option (BitVec 4 × Word)) : Chip :=
  let m := c.eng
  if m.host.perst || !m.mgt.powered then c
  else
    let m := m.tlpHere
    let c := { c with eng := m }
    if !m.host.ready then { c with eng := m.reply .retry }
    else if !m.presented f then { c with eng := (m.refuseOpen 0 wr.isSome 0).reply .unsupported }
    else if m.lostFn f then { c with eng := m.reply (if wr.isSome then .done else .word 0xFFFFFFFF) }
    else match wr with
      | none => if off = 0x310 then c.vsecData f none else { c with eng := m.reply (.word (m.cfgRead f off)) }
      | some (be, v) =>
        if off = 0x310 then c.vsecData f (some v)
        else let c := c.cfgWrite f off be v; { c with eng := c.eng.reply .done }

/-! Memory requests (R336, R340, R342, R361). -/

/-- What stops a memory request of function 0 before it reaches its BAR: UR without MSE or in D3hot, CA in HOLD or in a reset. -/
def Engine.memRefusal (m : Engine) (bar : Nat) (write : Bool) (off : Nat) (hold : Bool) : Option Engine :=
  if !m.mse 0 then some ((m.hostRefuse bar write 0 off).reply .unsupported)
  else if m.d3hot 0 then some ((m.refuseOpen bar write off).reply .unsupported)
  else if m.host.hold && hold then some (m.reply .completerAbort)
  else if m.mgt.resetting then some ((m.hostRefuse bar write 3 off).reply .completerAbort)
  else none

/-- A poisoned write is discarded, reported through AER and logged (R336); its entry's code is open. -/
def Engine.poisonedWrite (m : Engine) (f : Nat) : Engine :=
  let (k, m) := m.draw
  ((m.aer f 12).logNow 0xD0 2 (Config.openCode k % 65536) 0).reply .none

/-- A request of a kind that no BAR serves (R336): Unsupported Request, but for a vendor-defined type 1 message. What LASTREF shows of it as BAR, offset and, outside R366's
codes, cause is open. DESIGN CHOICE: notes/assumptions/147.md. -/
def Chip.otherRequest (c : Chip) (f : Nat) (kind : OtherReq) : Chip :=
  let m := c.eng.tlpHere
  let refuse := fun (write : Bool) (cause : Option Nat) =>
    let (k, m) := m.draw
    { c with eng := (m.hostRefuse (2 * (Config.openCode k % 3)) write (cause.getD (Config.openCode (k + 2 ^ 20) % 4)) (Config.openCode (k + 2 ^ 21) % 2 ^ 32)).reply .unsupported }
  if m.host.perst || !m.mgt.powered then c
  else match kind with
    | .unmapped w => refuse w (some (if m.mse f then 1 else 0))
    | .io w => refuse w none
    | .locked => refuse false (if m.mse f then none else some 0)
    | .atomicOp => refuse true (if m.mse f then none else some 0)
    | .vendor0 => refuse true none
    | .vendor1 => { c with eng := m.reply .none }

/-- A request to a tributary's function before it travels: turned away by a dammed head (R271), lost, disabled, or in HOLD. -/
def Engine.tribRefusal (m : Engine) (f bar : Nat) (write : Bool) (len off : Nat) : Option Engine :=
  if !m.presented f then some ((m.hostRefuse bar write 1 off).reply .unsupported)
  else if m.dammed then some ((m.hostRefuse bar write 3 off).reply .completerAbort)
  else if m.lostFn f then some (m.reply (if write then .none else .bytes (List.replicate len 0xFF)))
  else if !m.mse f then some ((m.hostRefuse bar write 0 off).reply .unsupported)
  else if m.d3hot f then some ((m.refuseOpen bar write off).reply .unsupported)
  else if m.host.hold then some (m.reply .completerAbort)
  else none

/-- Does an offset lie in the MSI-X table or the PBA, which accept an aligned two-DW request (R340)? -/
def inMsix (off : Nat) : Bool := (decide (0xD0800 ≤ off) && decide (off < 0xD0C00)) || off == 0xD0C00

/-- Are all the bytes of a write enabled, with their values as a number? -/
def allBytes (l : List (Option Byte)) : Option (List Byte) := l.foldr (fun b acc => match b, acc with | some x, some r => some (x :: r) | _, _ => none) (some [])

/-- Is a BAR0 request of an accepted size: one DW whole, or two aligned ones in the MSI-X tables (R340)? -/
def bar0Size (off len : Nat) (full : Bool) : Bool := full && ((len == 4 && off % 4 == 0) || (len == 8 && off % 8 == 0 && inMsix off))

/-- A BAR0 request's DWs in ascending order; the first bus error ends it. -/
def Chip.bar0Words (c : Chip) (off : Nat) : List (Option Word) → List Byte → Chip × Bus × List Byte
  | [], acc => (c, .ok, acc)
  | w :: ws, acc =>
    let (c, b, r) := c.oneDw off w
    if b = .ok then c.bar0Words (off + 4) ws (acc ++ bytesLE 4 r.toNat) else (c, b, acc)

/-- BAR0_REQUEST (R336, R340, R361): a read of `len` bytes, all or not all enabled, or a write of bytes under their enables, poisoned or not. DEDUCED: notes/assumptions/43.md. -/
def Chip.bar0Request (c : Chip) (f off len : Nat) (full : Bool) (wr : Option (List (Option Byte) × Bool)) : Chip :=
  let m := c.eng.tlpHere
  let write := wr.isSome
  let data := match wr with | some (l, _) => allBytes l | none => none
  let len := match wr with | some (l, _) => l.length | none => len
  let full := match wr with | some _ => data.isSome | none => full
  if m.host.perst || !m.mgt.powered then c
  else if f ≠ 0 then
    match m.tribRefusal f 0 write len off with
    | some m => { c with eng := m }
    | none =>
      if (match wr with | some (_, p) => p | none => false) then { c with eng := m.poisonedWrite f }
      else if !bar0Size off len full then { c with eng := (m.hostRefuse 0 write 2 off).reply .completerAbort }
      else { c with eng := ((List.range (len / 4)).foldl (fun (m : Engine) i => m.forward f (if write then 1 else 0) (off + 4 * i) 4 (leNat (((data.getD []).drop (4 * i)).take 4)) []) m).reply .none }
  else
    match m.memRefusal 0 write off (!(write && off == R.HOST_CTL && bar0Size off len full)) with
    | some m => { c with eng := m }
    | none =>
      if (match wr with | some (_, p) => p | none => false) then { c with eng := m.poisonedWrite f }
      else if !bar0Size off len full then { c with eng := (m.hostRefuse 0 write 2 off).reply .completerAbort }
      else
        let ws := (List.range (len / 4)).map (fun i => data.map (fun d => BitVec.ofNat 32 (leNat ((d.drop (4 * i)).take 4))))
        let (c, b, bytes) := ({ c with eng := m }).bar0Words off ws []
        if b = .ok then { c with eng := c.eng.reply (if write then .done else .bytes bytes) }
        else { c with eng := (c.eng.hostRefuse 0 write 3 off).reply .completerAbort }

/-- The enabled bytes of a write as runs of neighbouring bytes with their offsets. DEDUCED: notes/assumptions/44.md. -/
def byteRuns : Nat → List (Option Byte) → List (Nat × List Byte)
  | _, [] => []
  | off, none :: r => byteRuns (off + 1) r
  | off, some b :: r =>
    match byteRuns (off + 1) r with
    | (o, l) :: rest => if o = off + 1 then (off, b :: l) :: rest else (off, [b]) :: (o, l) :: rest
    | [] => [(off, [b])]

/-- A BAR2 request of this module's own function, refused or translated (R342, R343). `reply` names the head's position and tag for a funnelled read. -/
def Chip.window (c : Chip) (off len : Nat) (wr : Option (List (Option Byte))) (reply : Option (Nat × Nat)) : Chip × Option Answer :=
  let m := c.eng
  if m.winClosed then ({ c with eng := m.hostRefuse 2 wr.isSome 3 off }, some .completerAbort)
  else match m.winRefusal off len wr.isSome with
    | some (o, cause) => ({ c with eng := (m.winFault o cause wr.isSome).hostRefuse 2 wr.isSome 1 off }, some .unsupported)
    | none =>
      let base := m.winBase (bitsOf off 28 4) + off % 2 ^ 28
      match wr with
      | none => ({ c with eng := (m.reply .none).windowRead c.cistern base len reply }, none)
      | some l => ({ c with eng := (byteRuns 0 l).foldl (fun (m : Engine) r => m.windowWrite (base + r.1) r.2) m }, some .done)

/-- WINDOW_REQUEST (R336, R342, R343). -/
def Chip.windowRequest (c : Chip) (f off len : Nat) (wr : Option (List (Option Byte) × Bool)) : Chip :=
  let m := c.eng.tlpHere
  let write := wr.isSome
  let len := match wr with | some (l, _) => l.length | none => len
  if m.host.perst || !m.mgt.powered then c
  else
    match (if f = 0 then m.memRefusal 2 write off true else m.tribRefusal f 2 write len off) with
    | some m => { c with eng := m }
    | none =>
      if (match wr with | some (_, p) => p | none => false) then { c with eng := m.poisonedWrite f }
      else if f ≠ 0 then
        match wr with
        | none => { c with eng := (m.forward f 2 off len 0 []).reply .none }
        | some (l, _) => { c with eng := ((byteRuns 0 l).foldl (fun (m : Engine) r => m.forward f 3 (off + r.1) r.2.length 0 r.2) m).reply .none }
      else
        let (c, a) := ({ c with eng := m }).window off len (wr.map (fun (p : List (Option Byte) × Bool) => p.1)) none
        match a with | some a => { c with eng := c.eng.reply a } | none => c

/-- A write of port B acts from the next step on (R168): the steps whose instant has passed come first. -/
def Chip.stepsFirst (c : Chip) : Chip := if c.eng.running && !c.eng.dam.stopped then { c with eng := c.eng.pipeNow c.tanks } else c

/-- TANK_ACCESS through BAR4 (R317, R322, R323, R435). DEDUCED: notes/assumptions/40.md. -/
def Chip.bar4Request (c : Chip) (off len : Nat) (wr : Option (List (Option Byte) × Bool)) (found : List (Ecc × Bool)) : Chip :=
  let m := c.eng.tlpHere
  let write := wr.isSome
  let len := match wr with | some (l, _) => l.length | none => len
  if m.host.perst || !m.mgt.powered then c
  else match m.memRefusal 4 write off true with
    | some m => { c with eng := m }
    | none =>
      if (match wr with | some (_, p) => p | none => false) then { c with eng := m.poisonedWrite 0 }
      else if 0x1000000 < off + len then { c with eng := (m.hostRefuse 4 write 1 off).reply .unsupported }
      else if m.dammed || m.lost then { c with eng := (m.hostRefuse 4 write 3 off).reply .completerAbort }
      else match m.tankRefusal off len write with
        | some n =>
          let m := (m.tankRefuse n false write).setReg R.HOST_LASTREF (BitVec.ofNat 32 (4 + write.toNat * 2 ^ 3 + 3 * 2 ^ 4 + off / 256 * 2 ^ 8))
          { c with eng := (if write then m.aer 0 15 else m).reply .completerAbort }
        | none =>
          let c := { c with eng := m }
          match wr with
          | some (l, _) => let c := c.stepsFirst.tankWrite off l found; { c with eng := c.eng.reply .done }
          | none =>
            let (c, l, bad) := c.tankRead off len found
            { c with eng := c.eng.reply (.completions (completionsOf m.mps off l (bad.map (· / 4)))) }

/-! Readiness, link power and HOLD. -/

/-- FUNCTION_READY (R340); the positions present at that moment are those that funnel mode may present (R262). -/
def Engine.functionReady (m : Engine) : Engine :=
  if m.host.perst || !m.mgt.powered || m.host.ready then m else m.setHost { m.host with ready := true, funnelSet := some (m.fld R.RING_MEMBERS_PRESENT) }

/-- HOST_LINK_L0 (R243, R335): the link enters L0 at a rate and a width. -/
def Engine.linkL0 (m : Engine) (speed width : Nat) : Engine :=
  if m.host.perst || !m.mgt.powered then m
  else (m.setHost { m.host with l0 := true, l1 := false, speed := speed, width := width }).hostLinkL0

/-- Is an event-log write or an interrupt message waiting to be sent (R353)? -/
def Engine.hostWaits (m : Engine) : Bool :=
  m.hostIssues && ((m.flag R.EVT_CTL_EN && m.staged != 0) || (List.range 64).any (fun v => m.host.pending.getLsbD v && !m.masked v))

/-- Is a drain RUNNING (R346)? -/
def Engine.drainRuns (m : Engine) : Bool := (List.range 4).any (fun d => m.drainSt d == 1)

/-- Does something keep the link from idling (R353): a drain RUNNING, a write or message that waits, a completion owed? -/
def Engine.linkBusy (m : Engine) : Bool := m.drainRuns || m.hostWaits || !m.cis.reads.isEmpty

/-- The tolerance to report (R353), in µs. -/
def Engine.tolerance (m : Engine) : Nat := if m.drainRuns then 1 else m.fld R.HOST_PMCTL_LTRIDLE

/-- The link in a CCLK cycle (R353): its idle time begins again while it is busy, and with LTR enabled the tolerance is reported when it is another. DESIGN CHOICE: notes/assumptions/51.md. -/
def Engine.linkCycle (m : Engine) : Engine :=
  let m := if m.linkBusy then m.setHost { m.host with busyAt := m.cc } else m
  let on := bitAt (m.cfg 0 0x98).toNat 10
  if !on then (if m.host.ltr.isNone then m else m.setHost { m.host with ltr := none })
  else if m.host.l0 && !m.host.l1 && m.host.ltr != some m.tolerance then
    m.setHost { m.host with out := m.host.out ++ [.ltr m.tolerance], ltr := some m.tolerance, busyAt := m.cc }
  else m

/-- Has the link idled for PMCTL.L1IDLE µs of 600 CCLK (R353)? DESIGN CHOICE: notes/assumptions/150.md. -/
def Engine.linkIdle (m : Engine) : Bool := !m.linkBusy && decide (m.host.busyAt + 600 * m.fld R.HOST_PMCTL_L1IDLE ≤ m.cc)

/-- L1_ENTRY (R353): with ASPM L1 enabled, once the link has idled. DESIGN CHOICE: notes/assumptions/50.md. -/
def Engine.l1Entry (m : Engine) : Engine :=
  if m.host.l0 && !m.host.l1 && bitAt (m.cfg 0 0x80).toNat 1 && m.linkIdle then (m.setHost { m.host with l1 := true }).hostLinkLeft else m

/-- L1_EXIT (R353). -/
def Engine.l1Exit (m : Engine) : Engine := if m.host.l1 then (m.setHost { m.host with l1 := false }).hostLinkL0 else m

/-- D3HOT_ENTRY (R354): the power state is written D3hot. -/
def Engine.d3hotEntry (m : Engine) : Engine :=
  if m.host.perst || !m.host.ready then m else (m.setCfg 0 0x44 3).drainsStop

/-- Entry to HOLD (R360, R361). -/
def Engine.holdEntry (m : Engine) (cause : Nat) : Engine :=
  if m.host.hold then m
  else
    let t := tbOfCycle m.cycle
    let m := m.setHost { m.host with hold := true, holdCause := cause }
    let m := ((m.addSat R.HOST_HOLDCNT 1).setReg64 R.HOST_HOLD_TB_LO t).status R.E_HOST_HOLD
    (m.log 0xD0 2 0x020A cause t).drainsStop

/-- SURPRISE_DOWN (R360): the link left for Detect without a reset. -/
def Engine.surpriseDown (m : Engine) : Engine :=
  if !m.host.l0 || m.host.perst then m
  else
    let m := (m.setHost { m.host with l0 := false, l1 := false, speed := 0, width := 0 }).hostLinkLeft
    ((m.addSat R.HOST_LINKDOWNCNT 1).status R.E_HOST_LINKDOWN).holdEntry 1

/-- FATAL_ERROR (R360). -/
def Engine.fatalError (m : Engine) : Engine := if m.host.perst then m else m.holdEntry 2

/-! Funnel functions (R262, R263, R365). -/

/-- FUNNEL_TAKES_EFFECT (R262): once function 0 is ready, each position present at that moment is a function. `linked` are the positions whose own host link is in L0; they are left out. DESIGN CHOICE: notes/assumptions/52.md. -/
def Engine.funnelEffect (m : Engine) (linked : List Nat) : Engine :=
  if !m.host.funnelPend || !m.host.ready then m
  else
    let m := m.setHost { m.host with funnelPend := false }
    if m.role ≠ 1 ∨ !m.flag R.RING_CTL_FUNNEL then (m.setFlag R.RING_STATUS_FUNNEL false).setFld R.RING_MEMBERS_FUNNEL_MAP 0
    else
      let set := m.host.funnelSet.getD 0
      let out := (List.range 8).filter (fun q => q != 0 && linked.contains q && bitAt set q)
      let map := (List.range 8).foldl (fun a q => if bitAt set q && !out.contains q then a + 2 ^ q else a) 0
      let m := (m.setFlag R.RING_STATUS_FUNNEL true).setFld R.RING_MEMBERS_FUNNEL_MAP map
      match out with
      | [] => m
      | q :: _ => m.setReg R.RING_REASON (BitVec.ofNat 32 (5 + q * 2 ^ 4))

/-- TRIB_LOST (R365): the function's position left REACH, or a flit to it went 1 ms, 600,000 CCLK, without acknowledgement. DEDUCED: notes/assumptions/53.md. -/
def Engine.tribLost (m : Engine) (f : Nat) : Engine :=
  let late := m.ring.unacked.any (fun u => u.flit.dst == f && decide (u.born + 600000 ≤ m.cc))
  if f ≠ 0 ∧ m.funnelHead ∧ m.presented f ∧ !m.lostFn f ∧ (!bitAt (m.fld R.RING_MEMBERS_REACH) f ∨ late) then
    ((m.orReg R.HOST_TRIB_LOST (2 ^ f)).status R.E_HOST_TRIB_LOST).logNow 0xD0 2 0x020B f
  else m

/-- A header with its PAYLOAD flits arrives: taken in order here, or passed on (R263, R264). -/
def Engine.receiveRun (m : Engine) (s : Side) (src dst seq : Nat) (b : FlitBody) (bytes : List Byte) : Engine × Bool :=
  let k := (bytes.length + 23) / 24
  let (m, ok) := m.receive s src dst seq (k + 1) b
  if m.sideUp s ∧ dst ≠ m.pos then
    ((List.range k).foldl (fun (m : Engine) i => m.passOn s src dst (.payload ((seq + 1 + i) % 2 ^ 16) (leNat ((bytes.drop (24 * i)).take 24)))) m, false)
  else (m, ok)

/-- HOSTREQ (R261, R263): a tributary in funnel mode carries out what position 0 asks for, as the host link would. -/
def Chip.hostReq (c : Chip) (s : Side) (src dst seq type tag off len data : Nat) (bytes : List Byte) : Chip :=
  let (m, ok) := c.eng.receiveRun s src dst seq (.hostreq seq type tag off len data) bytes
  let c := { c with eng := m }
  if !ok then c
  else if src ≠ 0 ∨ !m.toFlume then { c with eng := m.logNow 0xF2 2 0x0218 src }
  else if type = 0 then
    let (c, b, w) := if m.reachable then c.oneDw off none else (c, .forbidden, 0)
    let m := if b = .ok then c.eng else c.eng.hostRefuse 0 false 3 off
    { c with eng := m.funnelReply 0 tag (if b = .ok then 0 else 2) (if b = .ok then bytesLE 4 w.toNat else []) }
  else if type = 1 then
    let (c, b, _) := if m.reachable then c.oneDw off (some (BitVec.ofNat 32 data)) else (c, .forbidden, 0)
    { c with eng := if b = .ok then c.eng else c.eng.hostRefuse 0 true 3 off }
  else
    let wr := if type = 3 then some (bytes.take len |>.map some) else none
    let (c, a) := if m.reachable then c.window off len wr (some (0, tag)) else ({ c with eng := m.hostRefuse 2 wr.isSome 3 off }, some .completerAbort)
    if type = 3 then c
    else match a with
      | none => c
      | some a => { c with eng := c.eng.funnelReply 0 tag (if a = .unsupported then 1 else 2) [] }

/-- A run cut at a maximum payload size, no piece across 4 KiB (R263). The first argument bounds the pieces. -/
def splitRun (mps : Nat) : Nat → Nat → List Byte → List (Nat × List Byte)
  | 0, _, _ => []
  | k + 1, addr, l =>
    if l.isEmpty then []
    else
      let n := max 1 (min mps (4096 - addr % 4096))
      (addr, l.take n) :: splitRun mps k (addr + n) (l.drop n)

/-- DMAHDR (R263): at the head a tributary's run goes out as TLPs of its function of at most the negotiated maximum payload size, unless they may not be issued. -/
def Engine.dmaHeard (m : Engine) (s : Side) (src dst seq addr drain : Nat) (bytes : List Byte) : Engine :=
  let (m, ok) := m.receiveRun s src dst seq (.dmahdr seq addr bytes.length drain) bytes
  if ok && m.funnelHead && m.presented src && !m.lostFn src && m.bme src && !m.d3hot src && m.host.ready && !m.host.perst && !m.host.hold then
    m.setHost { m.host with busyAt := m.cc, out := m.host.out ++ (splitRun m.mps bytes.length addr bytes).map (fun (p : Nat × List Byte) => .tlp src p.1 p.2) }
  else m

/-- CPLHDR (R263): at the head a tributary's completion answers the host. -/
def Engine.cplHeard (m : Engine) (s : Side) (src dst seq tag status : Nat) (bytes : List Byte) : Engine :=
  let (m, ok) := m.receiveRun s src dst seq (.cplhdr seq tag bytes.length status) bytes
  if ok && m.funnelHead && !m.lostFn src then
    m.reply (match status with | 0 => .bytes bytes | 1 => .unsupported | 2 => .completerAbort | _ => .poisoned)
  else m

/-! The flume's control requests at their target (R260, R261). -/

/-- The port of a flume link. -/
def linkPort : Side → Port
  | .fa => .fa
  | .fb => .fb

/-- RESULT of a CRSP (R402). -/
def crspResult (b : Bus) : Nat := match b with | .ok => 0 | .unimpl => 2 | _ => 1

/-- CWR (R261): RING-class registers only; refused while dammed (R435). -/
def Chip.cwrHeard (c : Chip) (s : Side) (src dst seq off data : Nat) : Chip :=
  let (m, ok) := c.eng.receive s src dst seq 1 (.cwr seq off data)
  let c := { c with eng := m }
  if !ok then c
  else
    let was := m.dammed
    let (c, b) := c.writeReg (linkPort s) src off (BitVec.ofNat 32 data)
    if src ≠ 0 ∧ c.eng.role = 0 then c else { c with eng := (c.eng.sendSeq src (.crsp 0 seq 0 (if was then 1 else crspResult b))).1 }

/-- CRD (R261): any page, or the frozen image while dammed (R435). -/
def Chip.crdHeard (c : Chip) (s : Side) (src dst seq off : Nat) : Chip :=
  let (m, ok) := c.eng.receive s src dst seq 1 (.crd seq off)
  let c := { c with eng := m }
  if !ok then c
  else
    let (c, b, w) := c.readReg (linkPort s) off
    { c with eng := (c.eng.sendSeq src (.crsp 0 seq w.toNat (crspResult b))).1 }

/-! The TAP (R437). -/

/-- DAMSCAN (R437): Capture-DR shows the last completed read, Update-DR with GO starts the next one. DESIGN CHOICE: notes/assumptions/56.md. -/
def Chip.damScan (c : Chip) (dr : BitVec 34) : Chip :=
  let m := c.eng.reply (.scan c.eng.dam.scan)
  if !m.mgt.powered then c
  else if !dr.getLsbD 32 then { c with eng := m }
  else
    let r : Nat := match (if m.dammed then c.imageWord (dr.toNat % 2 ^ 32 / 4 * 4) else none) with
      | some w => w.toNat + 2 ^ 32
      | none => 2 ^ 32 + 2 ^ 33
    { c with eng := m.setDam { m.dam with scan := BitVec.ofNat 34 r } }

/-! The management port (R459 to R462). -/

/-- The status of a management access. -/
def busStatus (b : Bus) : Nat := match b with | .ok => 0 | .unimpl => 2 | .forbidden => 3 | .parity => 4

/-- A command other than OK is recorded with its code. -/
def Engine.mgtErr (m : Engine) (status cmd : Nat) : Engine := if status = 0 then m else m.setReg R.MGT_LASTERR (BitVec.ofNat 32 (status + cmd * 2 ^ 8))

/-- Does the port serve commands: settled, READY, and no reset under way (R448, R451, R461)? DESIGN CHOICE: notes/assumptions/47.md. -/
def Engine.mgtServes (m : Engine) : Bool := m.flag R.SYS_STATUS_READY && !m.mgt.resetting

/-- A command arrives (R459, R461): none while unpowered; a fixed NOT_READY while the address is provisional; counted from then on. -/
def Engine.mgtCommand (m : Engine) (cmd : Nat) (fixed : Answer) (f : Engine → Engine) : Engine :=
  if !m.mgt.powered then m
  else if !m.flag R.MGT_ADDR_SETTLED then m.reply fixed
  else
    let m := m.addWrap R.MGT_CMDCNT 1
    if !m.mgtServes then (m.mgtErr 1 cmd).reply fixed else f m

/-- A read command that is not served, or is malformed, answers its status; its data are open. -/
def Engine.mgtAnswer (m : Engine) (status cmd : Nat) (w : Option Word) : Engine :=
  let (k, m) := m.draw
  (m.mgtErr status cmd).reply (.mgmt status (w.getD (BitVec.ofNat 32 (Config.badWord k))))

/-- The end of a write command: its status is kept for MSTATUS. -/
def Engine.mgtWrote (m : Engine) (status cmd : Nat) : Engine :=
  ((m.setMgt { m.mgt with lastStatus := status }).mgtErr status cmd).reply (if status = 5 then .nack else .done)

/-- A write command arrives: NOT_READY is a status too, and a bad PEC ends it (R460). -/
def Chip.mgtWrite (c : Chip) (cmd : Nat) (pec : Bool) (f : Chip → Chip) : Chip :=
  let m := c.eng
  if !m.mgt.powered then c
  else if !m.flag R.MGT_ADDR_SETTLED then { c with eng := m.reply .done }
  else
    let m := m.addWrap R.MGT_CMDCNT 1
    if !pec then { c with eng := (((m.addSat R.MGT_PECERR 1).status R.E_MGT_PECERR).mgtWrote 5 cmd) }
    else if !m.mgtServes then { c with eng := m.mgtWrote 1 cmd }
    else f { c with eng := m }

/-- REG_READ (R459): the four bytes sent are the register address. -/
def Chip.smbRegRead (c : Chip) (sent : List Byte) : Chip :=
  let m := c.eng
  let a := leNat sent
  if !m.mgt.powered || !m.flag R.MGT_ADDR_SETTLED || !m.mgtServes then { c with eng := m.mgtCommand 0x20 (.mgmt 1 0) id }
  else
    let c := { c with eng := m.addWrap R.MGT_CMDCNT 1 }
    if sent.length ≠ 4 ∨ a % 4 ≠ 0 then { c with eng := c.eng.mgtAnswer 6 0x20 none }
    else
      let (c, b, w) := c.readReg .mgmt a
      { c with eng := c.eng.mgtAnswer (busStatus b) 0x20 (if b = .ok then some w else none) }

/-- REG_WRITE (R459): eight bytes, address and data. -/
def Chip.smbRegWrite (c : Chip) (sent : List Byte) (pec : Bool) : Chip :=
  c.mgtWrite 0x21 pec (fun c =>
    let a := leNat (sent.take 4)
    let v := leNat (sent.drop 4)
    if sent.length ≠ 8 ∨ a % 4 ≠ 0 then { c with eng := c.eng.mgtWrote 6 0x21 }
    else
      let drop := c.eng.dammed && !damWrite .mgmt a v
      let (c, b) := c.writeReg .mgmt 0 a (BitVec.ofNat 32 v)
      { c with eng := c.eng.mgtWrote (if drop then 8 else busStatus b) 0x21 })

/-- Why the management port's tank access is refused: DAMMED, unaligned, out of range, by owner; 0 where it is not. DESIGN CHOICE: notes/assumptions/48.md. -/
def Engine.mgtTankStatus (m : Engine) (a : Nat) (short write : Bool) : Nat :=
  if short || a % 4 != 0 then 6 else if m.dammed || m.lost then 8 else if 0x1000000 ≤ a then 2 else if (m.tankRefusal a 4 write).isSome then 7 else 0

/-- The refusal's marks (R317). -/
def Engine.mgtTankRefuse (m : Engine) (a status : Nat) (write : Bool) : Engine := if status = 7 then m.tankRefuse (a / tankSize) true write else m

/-- TANK_READ (R459): four bytes, the BAR4 offset. DESIGN CHOICE: notes/assumptions/49.md. -/
def Chip.smbTankRead (c : Chip) (sent : List Byte) (ecc : Ecc) : Chip :=
  let m := c.eng
  let a := leNat sent
  if !m.mgt.powered || !m.flag R.MGT_ADDR_SETTLED || !m.mgtServes then { c with eng := m.mgtCommand 0x22 (.mgmt 1 0) id }
  else
    let m := m.addWrap R.MGT_CMDCNT 1
    let st := m.mgtTankStatus a (sent.length != 4) false
    if st ≠ 0 then { c with eng := (m.mgtTankRefuse a st false).mgtAnswer st 0x22 none }
    else
      let (c, l, bad) := ({ c with eng := m }).tankRead a 4 [(ecc, false)]
      if bad.isEmpty then { c with eng := c.eng.mgtAnswer 0 0x22 (some (BitVec.ofNat 32 (leNat l))) }
      else let (k, m) := c.eng.draw; { c with eng := m.mgtAnswer (Config.openCode k % 256) 0x22 none }

/-- TANK_WRITE (R459): eight bytes, BAR4 offset and data. -/
def Chip.smbTankWrite (c : Chip) (sent : List Byte) (pec : Bool) (ecc : Ecc) (collides : Bool) : Chip :=
  c.mgtWrite 0x23 pec (fun c =>
    let a := leNat (sent.take 4)
    let st := c.eng.mgtTankStatus a (sent.length != 8) true
    if st ≠ 0 then { c with eng := (c.eng.mgtTankRefuse a st true).mgtWrote st 0x23 }
    else
      let c := c.stepsFirst.tankWrite a ((sent.drop 4).map some) [(ecc, collides)]
      { c with eng := c.eng.mgtWrote 0 0x23 })

/-- MSTATUS (R459, R462): the last write's status, and the flags. -/
def Engine.mstatus (m : Engine) : Engine :=
  if !m.mgt.powered then m
  else if !m.flag R.MGT_ADDR_SETTLED then m.reply (.mstatus 1)
  else
    let m := m.addWrap R.MGT_CMDCNT 1
    let flags := (m.flag R.SYS_STATUS_READY).toNat + m.settled.toNat * 2 + m.dammed.toNat * 4 + m.alertLow.toNat * 8 + m.pos * 16
    let st := if m.mgtServes then m.mgt.lastStatus else 1
    (if m.mgtServes then m else m.mgtErr 1 0x24).reply (.mstatus (BitVec.ofNat 16 (st + flags * 256)))

end Sys2Proof.Machine
end

