-- ==== Sys2Proof/Machine/Sample.lean ====
section
/-! DEFINITION. SAMPLE_CYCLE: one CCLK cycle (R8 to R16, R88). What the spec dates to an instant and no command has carried out happens when its cycle has come. -/
namespace Sys2Proof.Machine

/-- Apply an operation for every intake, in ascending order. -/
def Engine.eachIntake (m : Engine) (f : Nat → Engine → Engine) : Engine := forEach 48 f m

/-- What the sample cycles captured so far owe: steps and store gates, measurements that have ended, the weirs, causes that fall due. -/
def Engine.owed (m : Engine) (t : Memory) : Engine :=
  let m := m.pipeNow t
  let m := m.eachIntake (fun n m =>
    let m := forEach 4 (fun g m => m.settleDue n g) m
    let m := (m.intake n).xOver.foldl (fun (m : Engine) p => m.xLimit n p.1) m
    let m := (((m.calDone n).calTimeout n).eyeDone n).eyeTimeout n
    (m.weirDown n).weirUp n)
  ((m.cwrTimeout.slewCheck).dueCause).settle t

/-- The rota's work before a cycle begins: an entry read, copies placed, and the actions whose instant the coming cycle holds: arming and disarming first,
then what acts on the engine as armed or disarmed. -/
def Engine.rotaWork (m : Engine) (t : Memory) : Engine :=
  let m := m.rotaRead t .good
  let m := forEach 7 (fun i m => m.repeaterCopy (i + 1)) m
  let m := forEach 8 (fun _ m => ((m.rotaArm t).rotaDisarm).rotaSegmentNext) m
  let m := m.armingTakesEffect t
  let m := forEach 32 (fun _ m => ((m.rotaTableSwap).rotaSluiceJump).rotaEventAct) m
  let m := m.eachIntake (fun n m => forEach 4 (fun _ m => m.rotaThreshSwap n) m)
  (forEach 16 (fun _ m => m.rotaBcast) m).rotaDam

/-- Everything due before the coming cycle. DESIGN CHOICE: notes/assumptions/10.md. -/
def Chip.catchUp (c : Chip) : Chip :=
  let m := ((c.eng.owed c.tanks).linkSlots).rotaWork c.tanks
  let m := m.modeChange.tbWrap.irqPass
  let m := if m.nextCycle % 2 ^ 19 = 0 then m.windowEnd else m
  let m := if m.armed == m.ring.armedSeen then m else m.armedReport
  let c := ({ c with eng := m }).dispInstants.damStop
  ({ c with eng := forEach 2 (fun o m => m.auxTimeout o) c.eng.drainsPause.wakesDone }).logFlush (c.eng.cc / 2)

/-- TB moves on (R8, R169 to R172): an accepted load takes effect, and passing the last value wraps. The gate commands of the cycle that begins are applied. -/
def Engine.tick (m : Engine) : Engine :=
  let loaded := m.tbLoad.isSome
  let m := m.tbLoadEffect.gateApply
  let tb := if m.first && !loaded then 0 else m.tb + 16
  { m with cc := m.cc + 1, tb := tb, first := false, wrapDue := m.wrapDue || (!m.first && !loaded && tb < m.tb),
           path := { m.path with tbHist := (tb :: m.path.tbHist).take 120 } }

/-- The front ends and the reaches: the cycle is captured, and the one seven cycles before it judged (R9). -/
def Engine.frontCycle (m : Engine) (pins : Pins) : Engine :=
  let m := m.eachIntake (fun n m => m.intakeCycle n pins)
  if m.cc < 8 then m else m.eachIntake (fun n m => (m.reachCycle n (m.cc - 7)).calCycle n (m.cc - 7))

/-- The gauges of every reach judge the sample cycle whose turn it is, and it enters the decision path (R9, R32, R88). -/
def Engine.gaugeStage (m : Engine) : Engine :=
  let lag := m.lag
  let p := m.cc - 7 - lag
  if m.cc < lag + 8 ∨ p < m.path.gauged then m
  else
    let t0 := nth m.path.tbHist (7 + lag) 0
    let (m, outs) := (List.range 48).foldl (fun (a : Engine × List GaugeOut) n =>
      let (m, o) := a.1.gaugeCycle n p lag t0
      (m, a.2 ++ [o])) (m, [])
    { m with path := { m.path with gauged := p + 1, pipe := m.path.pipe ++ [{ phys := p, tb := t0, outs := outs }] } }

/-- The units' work within the cycle. -/
def Chip.unitsCycle (c : Chip) (pins : Pins) : Chip :=
  let c := c.testYield
  let m := ((c.eng.damPinCycle c.eng.tb).weirTimers).budgetCycle.drainsGo.linkCycle
  let m := m.frontCycle pins
  let m := m.gateCycle pins (m.cc - 7)
  let m := m.gaugeStage.pipeStage
  { c with eng := m }

/-- A cycle between the stop of a dam and its clock gate: time and the outputs go on (R433). -/
def Chip.stoppedCycle (c : Chip) : Chip :=
  let c := (c.logFlush (c.eng.cc / 2)).dispInstants
  let c := { c with eng := c.eng.tick }
  if c.eng.damGateDue then c.damGate else c

/-- SAMPLE_CYCLE. While the module is dammed only the link layer goes on (R270); without running clocks nothing happens otherwise. -/
def Chip.sampleCycle (c : Chip) (pins : Pins) : Chip :=
  if c.eng.dammed && c.eng.mgt.powered && !c.eng.lost then { c with eng := c.eng.linkSlots }
  else if !c.eng.running || c.eng.dammed then c
  else if c.eng.dam.stopped then ({ c with eng := c.eng.linkSlots }).stoppedCycle
  else
    let c := c.catchUp
    if c.eng.dam.stopped then c.stoppedCycle else ({ c with eng := c.eng.tick }).unitsCycle pins

end Sys2Proof.Machine
end

