-- ==== Sys2Proof/Machine/Cmd.lean ====
section
/-! DEFINITION. What the meanings of the commands share: the outcome, the states in which a command acts, register accesses that have reached their page, and memory requests. -/
namespace Sys2Proof.Machine

/-- The outcome of a command. -/
abbrev Out := Host.Outcome State Fault Refusal

/-- The next state, with another chip and the same queue. -/
def State.put (s : State) (c : Chip) : Out := .next { s with chip := c }

/-- An effect under a condition on the engine; otherwise nothing changes. DESIGN CHOICE: notes/assumptions/2.md. -/
def State.chipWhen (s : State) (ok : Engine → Bool) (f : Chip → Chip) : Out := if ok s.chip.eng then s.put (f s.chip) else s.put s.chip

/-- An event of a powered module (R454). DEDUCED: notes/assumptions/54.md. -/
def State.powered (s : State) (f : Engine → Engine) : Out := s.chipWhen (fun m => m.mgt.powered) (fun c => { c with eng := f c.eng })

/-- An event of a module whose clocks run (R19, R433, R447). -/
def State.clocked (s : State) (f : Engine → Engine) : Out := s.chipWhen (fun m => m.running) (fun c => { c with eng := f c.eng })

/-- Do the capture units work: clocks running and not stopped by a dam (R433)? -/
def Engine.live (m : Engine) : Bool := m.running && !m.dam.stopped

/-- An event of the capture units. -/
def State.live (s : State) (f : Engine → Engine) : Out := s.chipWhen (fun m => m.live) (fun c => { c with eng := f c.eng })

/-- The answer of a port to a write that ended so (R402). -/
def Engine.answerWrite (m : Engine) (port : Port) (a : Nat) (b : Bus) : Engine :=
  match port with
  | .host => if b = .ok then m.reply .done else (m.hostRefuse 0 true 3 a).reply .completerAbort
  | .mgmt => m.reply (.mgmt (busStatus b) 0)
  | .fa | .fb => m.reply (.crsp (crspResult b) 0)
  | .tap => m.reply (if b = .ok then .done else .scanError)

/-- The answer of a port to a read that ended so (R402). -/
def Engine.answerRead (m : Engine) (port : Port) (a : Nat) (b : Bus) (w : Word) : Engine :=
  match port with
  | .host => if b = .ok then m.reply (.word w) else (m.hostRefuse 0 false 3 a).reply .completerAbort
  | .mgmt => m.reply (.mgmt (busStatus b) w)
  | .fa | .fb => m.reply (.crsp (crspResult b) w)
  | .tap => m.reply (if b = .ok then .word w else .scanError)

/-- A register write that has reached its page, with the port's answer. No page is reached while the module is unpowered or resetting (R451, R454). -/
def Chip.regWrite (c : Chip) (port : Port) (a : Nat) (v : Word) : Chip :=
  if c.eng.reachable then let (c, b) := c.writeReg port 0 a v; { c with eng := c.eng.answerWrite port a b } else c

/-- A register read that has reached its page, with the port's answer. -/
def Chip.regRead (c : Chip) (port : Port) (a : Nat) : Chip :=
  if c.eng.reachable then let (c, b, w) := c.readReg port a; { c with eng := c.eng.answerRead port a b w } else c

/-- A command that writes a register. DESIGN CHOICE: notes/assumptions/29.md. -/
def State.write (s : State) (port : Port) (a : Nat) (v : Word) : Out := s.put (s.chip.regWrite port a v)

/-- A command that reads a register. -/
def State.read (s : State) (port : Port) (a : Nat) : Out := s.put (s.chip.regRead port a)

/-- The length of a memory request in bytes, whether all its bytes are enabled, and what it writes, poisoned or not. -/
def reqLen : Request → Nat
  | .read n _ => n
  | .write l _ => l.length
  | .other _ => 0
def reqFull : Request → Bool
  | .read _ b => b
  | .write l _ => l.all (·.isSome)
  | .other _ => false
def reqWr : Request → Option (List (Option Byte) × Bool)
  | .write l p => some (l, p)
  | _ => none

/-- A request of the host link: one for a BAR is carried out, one of another kind answered as such (R336). -/
def State.request (s : State) (f : Nat) (req : Request) (carry : Chip → Chip) : Out :=
  s.put (match req with | .other k => s.chip.otherRequest f k | _ => carry s.chip)

end Sys2Proof.Machine
end

