-- ==== Sys2Proof/Machine/PowerCmds.lean ====
section
/-! DEFINITION. What the commands do: power, resets and the headrace (spec/ files 01, 16). -/
namespace Sys2Proof.Machine

/-- POWER_ON_RESET (R447). -/
def execPowerOnReset (s : State) : Out := s.put (s.chip.powerOn)

/-- SUPPLY_LOSS (R454). -/
def execSupplyLoss (s : State) : Out := s.put (s.chip.supplyLoss)

/-- HEADRACE_LOCK (R169). -/
def execHeadraceLock (s : State) : Out := s.put { s.chip with eng := s.chip.eng.headraceLock }

/-- TANK_POWER_UP_TEST_DONE (R329). -/
def execTankPowerUpTestDone (fails : List (Fin 64 × List (BitVec 15 × Fin 72))) (s : State) : Out :=
  s.powered (fun m => m.tanksTested (fails.map (fun x => (x.1.val, x.2.map (fun y => (y.1.toNat, y.2.val))))))

/-- SYS_RESET (R451). -/
def execSysReset (port : Port) (key : BitVec 16) (s : State) : Out := s.write port (R.SYS_CTL) (BitVec.ofNat 32 (4 + key.toNat * 2 ^ 16))

/-- SYS_RESET_COMPLETE (R451). -/
def execSysResetComplete (s : State) : Out := s.powered (fun m => m.sysResetDone)

/-- FUNDAMENTAL_RESET (R357). -/
def execFundamentalReset (elapsed : Nat) (s : State) : Out := s.put (s.chip.fundamental elapsed)

/-- PERST_N_DEASSERT (R340). -/
def execPerstNDeassert (common : Bool) (s : State) : Out := s.put { s.chip with eng := s.chip.eng.perstRise common }

/-- HOT_RESET (R357). -/
def execHotReset (elapsed : Nat) (s : State) : Out := s.put (s.chip.hotReset elapsed)

/-- FLR (R358). -/
def execFlr (f : Fin 8) (s : State) : Out := s.chipWhen (fun m => m.mgt.powered && !m.host.perst && m.presented f.val) (fun c => c.flrOf f.val)

/-- FUNCTION_READY (R340). -/
def execFunctionReady (s : State) : Out := s.put { s.chip with eng := s.chip.eng.functionReady }

/-- HEADRACE_SWITCHOVER (R18). -/
def execHeadraceSwitchover (s : State) : Out := s.clocked (fun m => m.switchover)

/-- PLL_RELOCK_ATTEMPT (R19). -/
def execPllRelockAttempt (ok : Bool) (s : State) : Out := s.clocked (fun m => m.relock ok)

/-- HEADRACE_LOST (R19). -/
def execHeadraceLost (s : State) : Out := s.clocked (fun m => m.headraceLost)

/-- HEADRACE_RESUME (R20). -/
def execHeadraceResume (pllB : Bool) (elapsed : Nat) (s : State) : Out := s.put (s.chip.headraceResume pllB elapsed).unstall

/-- REFERENCE_LOST (R23). -/
def execReferenceLost (s : State) : Out := s.clocked (fun m => m.refLost)

/-- REFERENCE_REVERT (R23). -/
def execReferenceRevert (s : State) : Out := s.clocked (fun m => m.refRevert)

/-- REFSEL_WRITE (R23). -/
def execRefselWrite (port : Port) (v : Word) (s : State) : Out := s.write port (R.CLK_REFSEL) v

end Sys2Proof.Machine
end

