-- ==== Sys2Proof/Machine/IntakeCmds.lean ====
section
/-! DEFINITION. What the commands do: intakes: thresholds, discordance, trims and calibration (spec/ file 02). -/
namespace Sys2Proof.Machine

/-- THRESHOLD_WRITE (R41). -/
def execThresholdWrite (port : Port) (n : Fin 48) (which : ThrReg) (v : Word) (s : State) : Out := s.write port (match which with | .a => R.INTK_THR_A n | .b => R.INTK_THR_B n | .ck => R.INTK_CKTHR n) v

/-- THRSEL_WRITE (R42). -/
def execThrselWrite (port : Port) (n : Fin 48) (v : Word) (s : State) : Out := s.write port (R.INTK_THRSEL n) v

/-- THRESH_SWAP (R43). -/
def execThreshSwap (n : Fin 48) (s : State) : Out := s.live (fun m => m.rotaThreshSwap n.val)

/-- DISCORDANCE_WINDOW_END (R49). -/
def execDiscordanceWindowEnd (s : State) : Out := s.live (fun m => if m.nextCycle % 2 ^ 19 = 0 then m.windowEnd else m)

/-- XLIMIT_EXCEEDED (R49). -/
def execXlimitExceeded (n : Fin 48) (line : Fin 48) (s : State) : Out := s.live (fun m => m.xLimit n.val line.val)

/-- TRIM_WRITE (R53). -/
def execTrimWrite (port : Port) (n : Fin 48) (which : TrimReg) (v : Word) (s : State) : Out := s.write port (match which with | .ctl => R.INTK_CTL n | .lcfg line => R.INTK_LCFG n line | .cktrim => R.INTK_CKTRIM n) v

/-- CAL_GO (R54). -/
def execCalGo (port : Port) (n : Fin 48) (v : Word) (s : State) : Out := s.write port (R.INTK_CAL n) (v ||| 0x100)

/-- CAL_DONE (R54). -/
def execCalDone (n : Fin 48) (s : State) : Out := s.live (fun m => m.calDone n.val)

/-- CAL_TIMEOUT (R54). -/
def execCalTimeout (n : Fin 48) (s : State) : Out := s.live (fun m => m.calTimeout n.val)

end Sys2Proof.Machine
end

