-- ==== Sys2Proof/Machine/ReachCmds.lean ====
section
/-! DEFINITION. What the commands do: reaches: configuration, packs, eye scans and gauges (spec/ files 03, 04). -/
namespace Sys2Proof.Machine

/-- RU_CONFIG_WRITE (R82). -/
def execRuConfigWrite (port : Port) (n : Fin 48) (which : RuReg) (v : Word) (s : State) : Out := s.write port (match which with | .stream => R.RU_STREAM n | .statecfg => R.RU_STATECFG n | .ckdelay => R.RU_CKDELAY n | .line i => R.RU_LINE n i) v

/-- FLUSH_WRITE (R79). -/
def execFlushWrite (port : Port) (n : Fin 48) (v : Word) (s : State) : Out := s.write port (R.RU_FLUSH n) v

/-- PACK_FULL (R78). -/
def execPackFull (n : Fin 48) (s : State) : Out := s.live (fun m => m.packFull n.val)

/-- PACK_FLUSH (R79). -/
def execPackFlush (n : Fin 48) (s : State) : Out := s.live (fun m => m.packFlush n.val)

/-- EYE_GO (R73). -/
def execEyeGo (port : Port) (n : Fin 48) (v : Word) (s : State) : Out := s.write port (R.RU_EYECTL n) (v ||| 0x1000)

/-- EYE_DONE (R73). -/
def execEyeDone (n : Fin 48) (s : State) : Out := s.live (fun m => m.eyeDone n.val)

/-- EYE_TIMEOUT (R73). -/
def execEyeTimeout (n : Fin 48) (s : State) : Out := s.live (fun m => m.eyeTimeout n.val)

/-- WIDTH_LONG_HIT (R100). -/
def execWidthLongHit (n : Fin 48) (g : Fin 4) (s : State) : Out := s.live (fun m => m.longHit n.val g.val)

/-- TIMEOUT_EXPIRY (R103). -/
def execTimeoutExpiry (n : Fin 48) (g : Fin 4) (s : State) : Out := s.live (fun m => m.expiry n.val g.val)

/-- GAUGE_CONFIG_WRITE (R113). -/
def execGaugeConfigWrite (port : Port) (n : Fin 48) (off : BitVec 10) (v : Word) (s : State) : Out := s.write port (0x41000 + 0x2000 * n.val + 4 * off.toNat) v

/-- GAUGE_COUNTER_WRITE (R110). -/
def execGaugeCounterWrite (port : Port) (n : Fin 48) (g : Fin 4) (high : Bool) (v : Word) (s : State) : Out := s.write port (if high then R.RUG_CNT_HI n g else R.RUG_CNT_LO n g) v

end Sys2Proof.Machine
end

