-- ==== Sys2Proof/Machine/SluiceCmds.lean ====
section
/-! DEFINITION. What the commands do: the sluice, the table sets and their checks (spec/ file 05). -/
namespace Sys2Proof.Machine

/-- SLUICE_STEP (R132). -/
def execSluiceStep (ecc : Ecc) (s : State) : Out := s.live (fun m => m.stepOnce s.chip.tanks ecc)

/-- SLU_IRQ (R137). -/
def execSluIrq (s : State) : Out := s.live (fun m => m.irqPass)

/-- LEVEL_COUNTER_WRITE (R133). -/
def execLevelCounterWrite (port : Port) (ctrB high : Bool) (v : Word) (s : State) : Out := s.write port (if ctrB then (if high then R.SLU_CTRB_HI else R.SLU_CTRB_LO) else (if high then R.SLU_CTRA_HI else R.SLU_CTRA_LO)) v

/-- TABLE_SWAP (R141). -/
def execTableSwap (s : State) : Out := s.live (fun m => m.rotaTableSwap)

/-- SLUICE_JUMP (R143). -/
def execSluiceJump (s : State) : Out := s.live (fun m => m.rotaSluiceJump)

/-- EVENT (R123). -/
def execEvent (s : State) : Out := s.live (fun m => m.rotaEventAct)

/-- SETSEL_WRITE (R141). -/
def execSetselWrite (port : Port) (v : Word) (s : State) : Out := s.write port (R.CONF_SETSEL) v

/-- TSET_WRITE (R144). -/
def execTsetWrite (port : Port) (v : Word) (s : State) : Out := s.write port (R.CONF_TSET) v

/-- SETCRC_WRITE (R144). -/
def execSetcrcWrite (port : Port) (setB : Bool) (k : Fin 11) (v : Word) (s : State) : Out := s.write port (if setB then R.CONF_SETCRC_B k else R.CONF_SETCRC_A k) v

/-- VERIFY_GO (R144). -/
def execVerifyGo (port : Port) (setB : Bool) (s : State) : Out := s.write port (R.CONF_VERIFY) (if setB then 3 else 1)

/-- VERIFY_DONE (R144). -/
def execVerifyDone (s : State) : Out := s.live (fun m => m.verifyDone s.chip.tanks)

/-- CRC_BACKGROUND_PASS (R145). -/
def execCrcBackgroundPass (s : State) : Out := s.live (fun m => m.crcBackground s.chip.tanks)

/-- SNAPSHOT_GO (R151). -/
def execSnapshotGo (port : Port) (named : Bool) (s : State) : Out := s.write port (R.CONF_SNAPCTL) (if named then 3 else 1)

/-- SNAPSHOT_TAKEN (R151). -/
def execSnapshotTaken (s : State) : Out := s.live (fun m => m.snapTake)

end Sys2Proof.Machine
end

