-- ==== Sys2Proof/Machine/TimeCmds.lean ====
section
/-! DEFINITION. What the commands do: arming, the timebase and the rota (spec/ files 01, 07, 16). -/
namespace Sys2Proof.Machine

/-- ARM (R455). -/
def execArm (port : Port) (s : State) : Out := s.write port (R.SYS_CTL) 1

/-- ARMING_TAKES_EFFECT (R139). -/
def execArmingTakesEffect (s : State) : Out := s.live (fun m => m.armingTakesEffect s.chip.tanks)

/-- DISARM (R14). -/
def execDisarm (port : Port) (s : State) : Out := s.write port (R.SYS_CTL) 2

/-- TB_LOAD (R171). -/
def execTbLoad (port : Port) (s : State) : Out := s.write port (R.TB_CTL) 1

/-- TB_WRAP (R172). -/
def execTbWrap (s : State) : Out := s.clocked (fun m => m.tbWrap)

/-- ROTA_READ_ENTRY (R179). -/
def execRotaReadEntry (ecc : Ecc) (s : State) : Out := s.live (fun m => m.rotaRead s.chip.tanks ecc)

/-- REPEATER_COPY (R183). -/
def execRepeaterCopy (r : Fin 7) (s : State) : Out := s.live (fun m => m.repeaterCopy (r.val + 1))

/-- REPSTOP (R183). -/
def execRepstop (port : Port) (v : Word) (s : State) : Out := s.write port (R.ROTA_REPSTOP) v

/-- ROTA_RESUME (R185). -/
def execRotaResume (port : Port) (v : Word) (s : State) : Out := s.write port (R.ROTA_CTL) (v ||| 0x2)

/-- ROTA_HEAD_WRITE (R186). -/
def execRotaHeadWrite (port : Port) (v : Word) (s : State) : Out := s.write port (R.ROTA_HEAD) v

/-- ROTA_ARM (R184). -/
def execRotaArm (s : State) : Out := s.live (fun m => m.rotaArm s.chip.tanks)

/-- ROTA_DISARM (R17). -/
def execRotaDisarm (s : State) : Out := s.live (fun m => m.rotaDisarm)

/-- SEGMENT_NEXT (R220). -/
def execSegmentNext (s : State) : Out := s.live (fun m => m.rotaSegmentNext)

/-- DISP_FLIP (R385). -/
def execDispFlip (o : Fin 2) (s : State) : Out := s.live (fun m => m.rotaDispFlip o.val)

/-- FLUME_BCAST (R254). -/
def execFlumeBcast (s : State) : Out := s.live (fun m => m.rotaBcast)

/-- DAM (R431). -/
def execDam (s : State) : Out := s.live (fun m => m.rotaDam)

end Sys2Proof.Machine
end

