-- ==== Sys2Proof/Machine/GateCmds.lean ====
section
/-! DEFINITION. What the commands do: gate lines (spec/ file 07). -/
namespace Sys2Proof.Machine

/-- GATE_SET (R192). -/
def execGateSet (s : State) : Out := s.live (fun m => m.gateRotaCommand 4)

/-- GATE_CLR (R192). -/
def execGateClr (s : State) : Out := s.live (fun m => m.gateRotaCommand 5)

/-- GATE_PULSE (R192). -/
def execGatePulse (s : State) : Out := s.live (fun m => m.gateRotaCommand 6)

/-- GATE_PULSE_END (R192). -/
def execGatePulseEnd (s : State) : Out := s.live (fun m => m.gatePulseEnd)

/-- GATE_COMMAND_TICK (R192). -/
def execGateCommandTick (s : State) : Out := s.live (fun m => m.gateCommandTick)

/-- BANKCFG_WRITE (R187). -/
def execBankcfgWrite (port : Port) (v : Word) (s : State) : Out := s.write port (R.GATE_BANKCFG) v

/-- GATE_LINE_WRITE (R188). -/
def execGateLineWrite (port : Port) (which : GateReg) (v : Word) (s : State) : Out := s.write port (match which with | .line i => R.GATE_LINE i | .sel k => R.GATE_GLUT_SEL k | .tt k => R.GATE_GLUT_TT k) v

end Sys2Proof.Machine
end

