-- ==== Sys2Proof/Machine/StoreCmds.lean ====
section
/-! DEFINITION. What the commands do: the store gate, segments and weirs (spec/ file 08). -/
namespace Sys2Proof.Machine

/-- STORE_GATE (R12). -/
def execStoreGate (s : State) : Out := s.live (fun m => m.storeGate)

/-- SEGMENT_BOUNDARY (R220). -/
def execSegmentBoundary (s : State) : Out := s.live (fun m => m.segmentBoundary)

/-- REARM_GAP_END (R220). -/
def execRearmGapEnd (s : State) : Out := s.live (fun m => m.rearmGapEnd)

/-- POST_COMPLETE (R217). -/
def execPostComplete (s : State) : Out := s.live (fun m => m.postComplete)

/-- POST_SHORT_FULL (R217). -/
def execPostShortFull (n : Fin 48) (s : State) : Out := s.live (fun m => m.postFull n.val)

/-- MARKER_PACK_FLUSH (R208). -/
def execMarkerPackFlush (s : State) : Out := s.live (fun m => m.markerFlush)

/-- SEG_LOCK_ACQ (R223). -/
def execSegLockAcq (port : Port) (seg : Fin 256) (s : State) : Out := s.write port (R.SEG_LOCKCTL seg) 1

/-- SEG_LOCK_REL (R223). -/
def execSegLockRel (port : Port) (seg : Fin 256) (s : State) : Out := s.write port (R.SEG_LOCKCTL seg) 2

/-- MARKREAD (R222). -/
def execMarkread (port : Port) (seg : Fin 256) (s : State) : Out := s.write port (R.SEG_LOCKCTL seg) 4

/-- WEIR_STEP_DOWN (R226). -/
def execWeirStepDown (n : Fin 48) (s : State) : Out := s.live (fun m => m.weirDown n.val)

/-- WEIR_STEP_UP (R226). -/
def execWeirStepUp (n : Fin 48) (s : State) : Out := s.live (fun m => m.weirUp n.val)

/-- PACK_DISCARD (R229). -/
def execPackDiscard (n : Fin 48) (s : State) : Out := s.live (fun m => m.packDiscard n.val)

/-- GAP_END (R229). -/
def execGapEnd (n : Fin 48) (s : State) : Out := s.live (fun m => m.gapEnd n.val)

/-- PACK_TO_CISTERN (R80). -/
def execPackToCistern (src : Fin 49) (s : State) : Out := s.live (fun m => m.packToCistern src.val)

/-- WRITE_COMPLETE (R282). -/
def execWriteComplete (pc : Fin 64) (s : State) : Out := s.chipWhen (fun m => m.running) (fun c => c.writeComplete pc.val)

end Sys2Proof.Machine
end

