-- ==== Sys2Proof/Machine/RingCmds.lean ====
section
/-! DEFINITION. What the commands do: flume links and the ring (spec/ file 09). -/
namespace Sys2Proof.Machine

/-- LINK_UP (R242). -/
def execLinkUp (side peer : Side) (s : State) : Out := s.powered (fun m => m.linkCameUp side peer)

/-- LINK_DOWN (R242). -/
def execLinkDown (side : Side) (s : State) : Out := s.powered (fun m => m.linkWentDown side)

/-- LINK_RETRAIN (R242). -/
def execLinkRetrain (side : Side) (s : State) : Out := s.powered (fun m => m.linkRetries side)

/-- HELLO_SEND (R243). -/
def execHelloSend (s : State) : Out := s.clocked (fun m => m.helloSend)

/-- HELLO (R243). -/
def execHello (side : Side) (id : BitVec 64) (port : Side) (pref : Fin 4) (hostup : Bool) (hostage : BitVec 32) (stackCount : Fin 4) (trail : Trail) (s : State) : Out :=
  s.clocked (fun m => m.helloHeard side trail.src.val id.toNat port pref.val hostup hostage.toNat stackCount.val trail.hops.val)

/-- HEAD_ELECTION (R244). -/
def execHeadElection (s : State) : Out := s.clocked (fun m => m.headElection)

/-- ASSIGN (R245). -/
def execAssign (side : Side) (id : BitVec 64) (pos : Fin 8) (up : Bool) (s : State) : Out := s.clocked (fun m => m.assignHeard side id.toNat pos.val up)

/-- ASSIGN_TIMEOUT (R245). -/
def execAssignTimeout (s : State) : Out := s.clocked (fun m => m.assignTimeout)

/-- LINKSTATE (R265). -/
def execLinkstate (side : Side) (pos : Fin 8) (port : Side) (up : Bool) (hops : Fin 8) (armed : Bool) (s : State) : Out := s.clocked (fun m => m.linkStateHeard side pos.val port up hops.val armed)

/-- REDISCOVER (R247). -/
def execRediscover (port : Port) (v : Word) (s : State) : Out := s.write port (R.RING_CTL) (v ||| 0x10)

/-- DELAY_EXCHANGE (R249). -/
def execDelayExchange (at_ : Fin 1024) (s : State) : Out := s.clocked (fun m => m.delayExchange at_.val)

/-- DREQ (R249). -/
def execDreq (side : Side) (t1 : BitVec 64) (at_ stay : Fin 1024) (s : State) : Out := s.clocked (fun m => m.dreqHeard side t1.toNat at_.val stay.val)

/-- DRSP (R249). -/
def execDrsp (side : Side) (t1 t2 t3 : BitVec 64) (at_ : Fin 1024) (s : State) : Out := s.clocked (fun m => m.drspHeard side t1.toNat t2.toNat t3.toNat at_.val)

/-- SYNC_SEND (R250). -/
def execSyncSend (s : State) : Out := s.clocked (fun m => m.syncSend)

/-- SYNC (R251). -/
def execSync (side : Side) (tbh : BitVec 64) (corr : BitVec 24) (hops : Fin 8) (mode funnel : Bool) (present : BitVec 8) (at_ stay : Fin 1024) (s : State) : Out := s.clocked (fun m => m.syncHeard side tbh.toNat corr.toNat hops.val mode funnel present.toNat at_.val stay.val)

/-- EV (R254). -/
def execEv (side : Side) (recs : List EvRec) (s : State) : Out := s.clocked (fun m => m.evHeard side recs)

/-- EVRISK_SPAN (R258). -/
def execEvriskSpan (s : State) : Out := s.clocked (fun m => m.evRisk)

/-- SETTLE_FLIT (R267). -/
def execSettleFlit (side : Side) (tb : BitVec 64) (cause : BitVec 16) (origin hops : Fin 8) (s : State) : Out := s.clocked (fun m => m.settleFlit s.chip.tanks side tb.toNat cause.toNat origin.val hops.val)

/-- CWR_GO (R260). -/
def execCwrGo (port : Port) (v : Word) (s : State) : Out := s.write port (R.RING_CWR_CTL) (v ||| 0x1)

/-- CWR (R261). -/
def execCwr (side : Side) (src dst : Fin 8) (seq : BitVec 16) (off : BitVec 20) (data : Word) (s : State) : Out := s.chipWhen (fun m => m.mgt.powered) (fun c => c.cwrHeard side src.val dst.val seq.toNat off.toNat data.toNat)

/-- CRD (R261). -/
def execCrd (side : Side) (src dst : Fin 8) (seq : BitVec 16) (off : BitVec 20) (s : State) : Out := s.chipWhen (fun m => m.mgt.powered) (fun c => c.crdHeard side src.val dst.val seq.toNat off.toNat)

/-- CRSP (R260). -/
def execCrsp (side : Side) (src dst : Fin 8) (seq req : BitVec 16) (data : Word) (result : Fin 4) (s : State) : Out := s.clocked (fun m => m.crspHeard side src.val dst.val seq.toNat req.toNat data.toNat result.val)

/-- CWR_TIMEOUT (R260). -/
def execCwrTimeout (s : State) : Out := s.clocked (fun m => m.cwrTimeout)

/-- HOSTREQ (R261). -/
def execHostreq (side : Side) (src dst : Fin 8) (seq : BitVec 16) (type : Fin 4) (tag : BitVec 8) (off : BitVec 40) (len : Nat) (data : Word) (bytes : List Byte) (s : State) : Out := s.chipWhen (fun m => m.mgt.powered) (fun c => c.hostReq side src.val dst.val seq.toNat type.val tag.toNat off.toNat len data.toNat bytes)

/-- DMAHDR (R263). -/
def execDmahdr (side : Side) (src dst : Fin 8) (seq : BitVec 16) (addr : BitVec 64) (drain : Fin 4) (bytes : List Byte) (s : State) : Out := s.clocked (fun m => m.dmaHeard side src.val dst.val seq.toNat addr.toNat drain.val bytes)

/-- CPLHDR (R263). -/
def execCplhdr (side : Side) (src dst : Fin 8) (seq : BitVec 16) (tag : BitVec 8) (status : Fin 4) (bytes : List Byte) (s : State) : Out := s.clocked (fun m => m.cplHeard side src.val dst.val seq.toNat tag.toNat status.val bytes)

/-- ACK (R264). -/
def execAck (side : Side) (src dst : Fin 8) (seq : BitVec 16) (nak : Bool) (s : State) : Out := s.powered (fun m => m.ackHeard side src.val dst.val seq.toNat nak)

/-- RESEND_TIMEOUT (R264). -/
def execResendTimeout (dst : Fin 8) (s : State) : Out := s.clocked (fun m => m.resendTimeout dst.val)

/-- MODE_WRITE (R259). -/
def execModeWrite (port : Port) (v : Word) (s : State) : Out := s.write port (R.RING_CTL) v

/-- MODESET (R259). -/
def execModeset (side : Side) (tb : BitVec 64) (mode : Bool) (s : State) : Out := s.clocked (fun m => m.modesetHeard side tb.toNat mode)

/-- MODE_CHANGE (R259). -/
def execModeChange (s : State) : Out := s.clocked (fun m => m.modeChange)

/-- TRIB_LOST (R365). -/
def execTribLost (f : Fin 8) (s : State) : Out := s.clocked (fun m => m.tribLost f.val)

/-- TRIB_RECOVER (R365). -/
def execTribRecover (port : Port) (v : Word) (s : State) : Out := s.write port (R.HOST_TRIBCTL) v

/-- FLIT_CRC_FAILURE (R239). -/
def execFlitCrcFailure (side : Side) (s : State) : Out := s.powered (fun m => m.flitCrc side)

/-- ACK_DEADLINE (R264). -/
def execAckDeadline (src : Fin 8) (s : State) : Out := s.clocked (fun m => m.ackDeadline src.val)

end Sys2Proof.Machine
end

