-- ==== Sys2Proof/Machine/DamCmds.lean ====
section
/-! DEFINITION. What the commands do: the dam, its image, and settling (spec/ file 15). -/
namespace Sys2Proof.Machine

/-- DAM_FLIT (R270). -/
def execDamFlit (side : Side) (tb : BitVec 64) (origin : Fin 8) (driver : Bool) (hops : Fin 8) (s : State) : Out := s.powered (fun m => m.damFlit side tb.toNat origin.val driver hops.val)

/-- RELEASE_FLIT (R271). -/
def execReleaseFlit (side : Side) (origin hops : Fin 8) (elapsed : Nat) (s : State) : Out := s.powered (fun m => m.releaseFlit side origin.val hops.val elapsed)

/-- DAM_N_LOW (R431). -/
def execDamNLow (s : State) : Out := s.put { s.chip with eng := s.chip.eng.damLow }

/-- DAM_ASSERT (R431). -/
def execDamAssert (port : Port) (s : State) : Out := s.write port (R.DAM_CTL) (s.chip.eng.reg R.DAM_CTL ||| 1)

/-- DAM_STOP (R433). -/
def execDamStop (s : State) : Out := s.put (s.chip.damStop)

/-- DAM_CLOCK_GATE (R433). -/
def execDamClockGate (s : State) : Out := s.put (s.chip.damGate)

/-- DAM_RELEASE (R439). -/
def execDamRelease (port : Port) (elapsed : Nat) (s : State) : Out :=
  if s.chip.eng.reachable && s.chip.eng.dammed && (port == .host || port == .mgmt) then s.put { s.chip with eng := (s.chip.eng.damRelease elapsed).answerWrite port R.DAM_CTL .ok }
  else s.write port R.DAM_CTL (s.chip.eng.reg R.DAM_CTL ||| 2)

/-- DAM_REARM (R432). -/
def execDamRearm (s : State) : Out := s.put { s.chip with eng := s.chip.eng.damRearm }

/-- IMG_DATA_READ (R436). -/
def execImgDataRead (port : Port) (s : State) : Out := s.read port R.DAM_IMG_DATA

/-- DAMSCAN (R437). -/
def execDamscan (dr : BitVec 34) (s : State) : Out := s.put (s.chip.damScan dr)

/-- DAMREL (R437). -/
def execDamrel (elapsed : Nat) (s : State) : Out := s.powered (fun m => m.damRelease elapsed)

/-- SETTLE (R421). -/
def execSettle (s : State) : Out := s.powered (fun m => m.settle s.chip.tanks)

/-- SW_SETTLE (R450). -/
def execSwSettle (port : Port) (s : State) : Out := s.write port (R.SAFE_CTL) (s.chip.eng.reg R.SAFE_CTL ||| 2)

/-- SAFE_RELEASE (R424). -/
def execSafeRelease (port : Port) (s : State) : Out := s.write port (R.SAFE_CTL) (s.chip.eng.reg R.SAFE_CTL ||| 1)

end Sys2Proof.Machine
end

