-- ==== Sys2Proof/Machine/PageCmds.lean ====
section
/-! DEFINITION. What the commands do: the event log, pages and register accesses (spec/ files 14, 15). -/
namespace Sys2Proof.Machine

/-- EVENT_LOG_ENTRY (R427). -/
def execEventLogEntry (s : State) : Out := s.chipWhen (fun m => m.running) (fun c => c.logEntry)

/-- LOG_LOST (R427). -/
def execLogLost (s : State) : Out := s.chipWhen (fun m => m.running) (fun c => c.logLost)

/-- EVENT_LOG_COPY (R428). -/
def execEventLogCopy (s : State) : Out := s.powered (fun m => m.evtCopy s.chip.tanks)

/-- STG_HEAD_WRITE (R428). -/
def execStgHeadWrite (port : Port) (v : Word) (s : State) : Out := s.write port (R.EVT_STG_HEAD) v

/-- INTERRUPT_SEND (R352). -/
def execInterruptSend (v : Fin 64) (s : State) : Out := s.powered (fun m => m.interruptSend v.val)

/-- PAGE_EVENT (R404). -/
def execPageEvent (page : Fin 256) (s : State) : Out := s.clocked (fun m => m.pageEvent page.val)

/-- PAGE_INTEN_WRITE (R404). -/
def execPageIntenWrite (port : Port) (page : Fin 256) (v : Word) (s : State) : Out := s.write port (intenAddr page) v

/-- PAGE_LOCK (R410). -/
def execPageLock (port : Port) (page : Fin 256) (s : State) : Out := s.write port (lockAddr page) 1

/-- RC_READ_CLEAR (R403). -/
def execRcReadClear (addr : BitVec 20) (s : State) : Out := s.read .host addr.toNat

/-- LOW_WORD_READ (R405). -/
def execLowWordRead (port : Port) (addr : BitVec 20) (s : State) : Out := s.read port addr.toNat

/-- REGISTER_SCRUB (R409). -/
def execRegisterScrub (bankB : Bool) (addr : BitVec 20) (bothBad : Bool) (s : State) : Out := s.clocked (fun m => m.scrub (addr.toNat + (if bankB then 0x100000 else 0)) bothBad)

/-- REGISTER_WRITE (R4). -/
def execRegisterWrite (port : Port) (addr : Word) (v : Word) (s : State) : Out := s.write port (addr.toNat) v

end Sys2Proof.Machine
end

