-- ==== Sys2Proof/Machine/CisternCmds.lean ====
section
/-! DEFINITION. What the commands do: the cistern (spec/ file 10). -/
namespace Sys2Proof.Machine

/-- REFRESH (R287). -/
def execRefresh (pc : Fin 64) (bank : Fin 48) (s : State) : Out := s.clocked (fun m => m.cisRefresh pc.val bank.val)

/-- CISTERN_COMMAND (R283). -/
def execCisternCommand (pc : Fin 64) (busy : BitVec 48) (ecc : Ecc) (s : State) : Out := s.clocked (fun m => (m.cisternCommand s.chip.cistern pc.val busy ecc).drainsGo)

/-- PARITY_ALERT (R290). -/
def execParityAlert (pc : Fin 64) (s : State) : Out := s.clocked (fun m => m.parityAlert s.chip.cistern pc.val)

/-- PC_RETRAIN_DONE (R290). -/
def execPcRetrainDone (pc : Fin 64) (ok : Bool) (s : State) : Out := s.clocked (fun m => m.pcRetrainDone s.chip.cistern pc.val ok)

/-- REVIVE (R293). -/
def execRevive (port : Port) (pc : Fin 64) (s : State) : Out := s.write port (R.CISP_PC_CTL (pc.val / 32) (pc.val % 32)) 1

/-- REVIVE_DONE (R293). -/
def execReviveDone (pc : Fin 64) (ok : Bool) (s : State) : Out := s.chipWhen (fun m => m.running) (fun c => c.reviveDone pc.val ok)

/-- TRAINING_PASS (R296) of pseudo-channel `pc` of a stack: it begins to gather, or ends, applying its settings or having found none. -/
def execTrainingPass (stack : Fin 2) (pc : Fin 32) (ends applies : Bool) (s : State) : Out :=
  s.clocked (fun m => m.trainingPass (32 * stack.val + pc.val) (if ends then (if applies then 1 else 2) else 0))

/-- OPGO (R297). -/
def execOpgo (port : Port) (v : Word) (s : State) : Out := s.write port (R.CIS_CTL) (v ||| 0x1)

/-- OP_CHANGE_DONE (R298). -/
def execOpChangeDone (s : State) : Out := s.chipWhen (fun m => m.running) (fun c => c.opDone)

/-- REINIT (R301). -/
def execReinit (port : Port) (v : Word) (s : State) : Out := s.write port (R.CIS_CTL) (v ||| 0x10)

/-- CISTERN_READY (R493). -/
def execCisternReady (phase : Fin 3) (s : State) : Out := s.chipWhen (fun m => m.running) (fun c => c.cisternReady (phase.val + 1))

/-- CBIST_GO (R303). -/
def execCbistGo (port : Port) (v : Word) (s : State) : Out := s.write port (R.CBIST_CTL) (v ||| 0x4)

/-- CBIST_ELEMENT (R303); what the reads of the slot's bursts found, the first first, and which of them differed from the march's pattern. -/
def execCbistElement (ecc : List Ecc) (mismatch : List Bool) (s : State) : Out := s.chipWhen (fun m => m.running) (fun c => c.cbistElement (readsOf ecc mismatch))

/-- CBIST_PASS_DONE (R303). -/
def execCbistPassDone (s : State) : Out := s.clocked (fun m => m.cbistPassDone)

/-- STACK_TEMPERATURE_REPORT (R287). -/
def execStackTemperatureReport (stack : Fin 2) (temp : BitVec 8) (mul : Fin 4) (s : State) : Out := s.powered (fun m => m.stackReport stack.val temp.toNat mul.val)

end Sys2Proof.Machine
end

