-- ==== Sys2Proof/Machine/TankCmds.lean ====
section
/-! DEFINITION. What the commands do: the tanks (spec/ file 11). -/
namespace Sys2Proof.Machine

/-- TANK_HANDOVER_REQUEST (R318). -/
def execTankHandoverRequest (port : Port) (n : Fin 64) (v : Word) (s : State) : Out := s.write port (R.TANK_OWN n) v

/-- TANK_HANDOVER (R318). -/
def execTankHandover (n : Fin 64) (s : State) : Out := s.clocked (fun m => m.handoverDone n.val)

/-- TANK_ACCESS (R317); what the reads of its words found, the first first, and which words collide. -/
def execTankAccess (off : BitVec 24) (req : Request) (ecc : List Ecc) (collides : List Bool) (s : State) : Out :=
  s.request 0 req (fun c => c.bar4Request off.toNat (reqLen req) (reqWr req) (readsOf ecc collides))

/-- RETREQ_WRITE (R324). -/
def execRetreqWrite (port : Port) (v : Word) (s : State) : Out := s.write port (R.TANK_RETREQ) v

/-- RETENTION_ENTER (R324). -/
def execRetentionEnter (g : Fin 8) (s : State) : Out := s.clocked (fun m => m.retentionEnter g.val)

/-- TBIST_GO (R326). -/
def execTbistGo (port : Port) (v : Word) (s : State) : Out := s.write port (R.TBIST_CTL) (v ||| 0x10000)

/-- TBIST_PHASE_DONE (R327). -/
def execTbistPhaseDone (bad : List (BitVec 15 × Fin 72)) (s : State) : Out := s.chipWhen (fun m => m.running) (fun c => c.tbistPhase (bad.map (fun x => (x.1.toNat, x.2.val))))

end Sys2Proof.Machine
end

