-- ==== Sys2Proof/Machine/HostCmds.lean ====
section
/-! DEFINITION. What the commands do: the host link: requests, windows, drains, link power and HOLD (spec/ file 12). -/
namespace Sys2Proof.Machine

/-- CONFIG_REQUEST (R337). -/
def execConfigRequest (f : Fin 8) (dw : Fin 1024) (wr : Option (BitVec 4 × Word)) (s : State) : Out := s.put (s.chip.configRequest f.val (4 * dw.val) wr)

/-- BAR0_REQUEST (R340). -/
def execBar0Request (f : Fin 8) (off : BitVec 20) (req : Request) (s : State) : Out := s.request f.val req (fun c => c.bar0Request f.val off.toNat (reqLen req) (reqFull req) (reqWr req))

/-- WINDOW_REQUEST (R342). -/
def execWindowRequest (f : Fin 8) (off : BitVec 32) (req : Request) (s : State) : Out := s.request f.val req (fun c => c.windowRequest f.val off.toNat (reqLen req) (reqWr req))

/-- WIN_COMMIT (R344). -/
def execWinCommit (port : Port) (v : Word) (s : State) : Out := s.write port (R.WIN_COMMIT) v

/-- DRAIN_TAIL_WRITE (R346). -/
def execDrainTailWrite (port : Port) (d : Fin 4) (v : Word) (s : State) : Out := s.write port (R.DRAIN_TAIL d) v

/-- DESCRIPTOR_FETCH (R348). -/
def execDescriptorFetch (d : Fin 4) (reply : FetchReply) (s : State) : Out := s.chipWhen (fun m => m.running) (fun c => c.descFetch d.val reply.bytes reply.ecc)

/-- DESCRIPTOR_START (R349). -/
def execDescriptorStart (d : Fin 4) (s : State) : Out := s.clocked (fun m => m.descStart d.val)

/-- DESCRIPTOR_COMPLETE (R350); `bad`: a read of it returned no good data, as the drain has it. DESIGN CHOICE: notes/assumptions/2.md. -/
def execDescriptorComplete (d : Fin 4) (bad : Bool) (s : State) : Out := s.clocked (fun m => if (m.drain d).bad = bad then m.descComplete d.val else m)

/-- DRAIN_PAUSE (R355); `issued`: the bytes of its descriptor whose writes were issued, as the drain has them. DESIGN CHOICE: notes/assumptions/2.md. -/
def execDrainPause (d : Fin 4) (issued : BitVec 32) (s : State) : Out := s.powered (fun m => if BitVec.ofNat 32 (m.drainPoint d).2 = issued then m.drainPause d.val else m)

/-- DRAIN_RESUME (R356). -/
def execDrainResume (port : Port) (v : Word) (s : State) : Out := s.write port (R.DRAIN_RESUME) v

/-- L1_ENTRY (R353). -/
def execL1Entry (s : State) : Out := s.powered (fun m => m.l1Entry)

/-- L1_EXIT (R353). -/
def execL1Exit (s : State) : Out := s.powered (fun m => m.l1Exit)

/-- D3HOT_ENTRY (R354). -/
def execD3hotEntry (s : State) : Out := s.powered (fun m => m.d3hotEntry)

/-- SURPRISE_DOWN (R360). -/
def execSurpriseDown (s : State) : Out := s.powered (fun m => m.surpriseDown)

/-- FATAL_ERROR (R360). -/
def execFatalError (s : State) : Out := s.powered (fun m => m.fatalError)

/-- HOLD_RELEASE (R362). -/
def execHoldRelease (port : Port) (s : State) : Out := s.write port (R.HOST_CTL) 1

/-- VSEC_RELEASE (R363). -/
def execVsecRelease (s : State) : Out := s.powered (fun m => m.vsecRelease)

/-- VSEC_RDATA (R363). -/
def execVsecRdata (f : Fin 8) (wr : Option Word) (s : State) : Out := s.put (s.chip.configRequest f.val 0x310 (wr.map (fun v => (0xF, v))))

/-- FUNNEL_TAKES_EFFECT (R262). -/
def execFunnelTakesEffect (linked : List (Fin 8)) (s : State) : Out := s.powered (fun m => m.funnelEffect (linked.map (fun x => x.val)))

/-- HOST_LINK_L0 (R243). -/
def execHostLinkL0 (speed width : Nat) (s : State) : Out := s.powered (fun m => m.linkL0 speed width)

end Sys2Proof.Machine
end

