-- ==== Sys2Proof/Machine/DisplayCmds.lean ====
section
/-! DEFINITION. What the commands do: the display outputs (spec/ file 13). -/
namespace Sys2Proof.Machine

/-- DP_TRAIN (R374). -/
def execDpTrain (o : Fin 2) (wr : Option (Port × Word)) (s : State) : Out :=
  match wr with
  | none => s.clocked (fun m => m.laneLoss o.val)
  | some (port, v) => s.write port (R.DISP_LINKCFG o) (v ||| 0x100)

/-- DP_TRAIN_END (R374). -/
def execDpTrainEnd (o : Fin 2) (reached : Option (Fin 4 × Fin 5)) (async : Bool) (s : State) : Out := s.clocked (fun m => m.dpTrainEnd o.val (reached.map (fun r => (r.1.val, r.2.val))) async)

/-- HPD_UNPLUG (R375). -/
def execHpdUnplug (o : Fin 2) (s : State) : Out := s.clocked (fun m => m.hpdUnplug o.val)

/-- HPD_PLUG (R375). -/
def execHpdPlug (o : Fin 2) (s : State) : Out := s.clocked (fun m => m.hpdPlug o.val)

/-- HPD_IRQ (R375). -/
def execHpdIrq (o : Fin 2) (s : State) : Out := s.clocked (fun m => m.hpdIrq o.val)

/-- AUX_GO (R376). -/
def execAuxGo (port : Port) (o : Fin 2) (v : Word) (s : State) : Out := s.write port (R.DISP_AUXCTL o) (v ||| 0x10000)

/-- AUX_REPLY (R376). -/
def execAuxReply (o : Fin 2) (reply : Fin 16) (data : List Byte) (s : State) : Out := s.clocked (fun m => m.auxReply o.val reply.val data)

/-- AUX_TIMEOUT (R376). -/
def execAuxTimeout (o : Fin 2) (s : State) : Out := s.clocked (fun m => m.auxTimeout o.val)

/-- DISP_ENABLE (R379). -/
def execDispEnable (port : Port) (o : Fin 2) (v : Word) (s : State) : Out := s.write port (R.DISP_CTL o) v

/-- PAGE_COMMIT_TIMING (R380). -/
def execPageCommitTiming (port : Port) (o : Fin 2) (s : State) : Out := s.write port (dispPage o * 0x1000 + 0x1C) 1

/-- PAGE_COMMIT_FRAME (R380). -/
def execPageCommitFrame (port : Port) (o : Fin 2) (s : State) : Out := s.write port (dispPage o * 0x1000 + 0x1C) 2

/-- LATCH_POINT (R380). -/
def execLatchPoint (o : Fin 2) (s : State) : Out := s.chipWhen (fun m => m.running) (fun c => c.latchPoint o.val)

/-- FRAME_START (R386). -/
def execFrameStart (o : Fin 2) (s : State) : Out := s.clocked (fun m => m.frameStart o.val)

/-- VSYNC (R387). -/
def execVsync (o : Fin 2) (s : State) : Out := s.clocked (fun m => m.vsync o.val)

/-- FRAME_FETCH_START (R385). -/
def execFrameFetchStart (o : Fin 2) (s : State) : Out := s.clocked (fun m => m.fetchStart o.val)

/-- DISPLAY_FETCH (R383). -/
def execDisplayFetch (o : Fin 2) (s : State) : Out := s.clocked (fun m => m.dispFetch o.val)

/-- UNDERRUN (R384). -/
def execUnderrun (o : Fin 2) (s : State) : Out := s.clocked (fun m => m.underrun o.val)

end Sys2Proof.Machine
end

