-- ==== Sys2Proof/Machine/MgmtCmds.lean ====
section
/-! DEFINITION. What the commands do: management, fuses and sensors (spec/ file 16). -/
namespace Sys2Proof.Machine

/-- MGT_ADDRESS_SETTLE (R461). -/
def execMgtAddressSettle (s : State) : Out := s.powered (fun m => m.mgtSettle)

/-- REG_READ (R459). -/
def execRegRead (sent : List Byte) (s : State) : Out := s.put (s.chip.smbRegRead sent)

/-- REG_WRITE (R459). -/
def execRegWrite (sent : List Byte) (pec : Bool) (s : State) : Out := s.put (s.chip.smbRegWrite sent pec)

/-- TANK_READ (R459). -/
def execTankRead (sent : List Byte) (ecc : Ecc) (s : State) : Out := s.put (s.chip.smbTankRead sent ecc)

/-- TANK_WRITE (R459). -/
def execTankWrite (sent : List Byte) (pec : Bool) (ecc : Ecc) (collides : Bool) (s : State) : Out := s.put (s.chip.smbTankWrite sent pec ecc collides)

/-- MSTATUS (R459). -/
def execMstatus (s : State) : Out := s.put { s.chip with eng := s.chip.eng.mstatus }

/-- FUSE_PROG (R458). -/
def execFuseProg (port : Port) (key : BitVec 16) (s : State) : Out := s.write port (R.MGT_FUSECTL) (BitVec.ofNat 32 (1 + key.toNat * 2 ^ 16))

/-- FUSE_PROG_DONE (R458). -/
def execFuseProgDone (ok : Bool) (s : State) : Out := s.powered (fun m => m.fuseDone ok)

/-- TEMPERATURE_SAMPLE (R463). -/
def execTemperatureSample (sensor : Fin 8) (v : BitVec 16) (s : State) : Out := s.chipWhen (fun m => m.mgt.powered) (fun c => c.tempSample sensor.val v)

/-- SUPPLY_SAMPLE (R464). -/
def execSupplySample (rail : Fin 12) (mv : BitVec 16) (s : State) : Out := s.powered (fun m => m.supplySample rail.val mv)

end Sys2Proof.Machine
end

