-- ==== Sys2Proof/Machine/SampleCmds.lean ====
section
/-! DEFINITION. What the commands do: SAMPLE_CYCLE (spec/ files 01 to 05). -/
namespace Sys2Proof.Machine

/-- SAMPLE_CYCLE (R88). -/
def execSampleCycle (pins : Pins) (s : State) : Out := s.put (s.chip.sampleCycle pins)

end Sys2Proof.Machine
end

