-- ==== Sys2Proof/Machine/Dispatch.lean ====
section
/-! DEFINITION. One arm per command, each a direct call of its meaning. -/
namespace Sys2Proof.Machine
open Sys2Proof

def exec (i : Instr) (s : State) : Host.Outcome State Fault Refusal :=
  match i with
  | .powerOnReset => Sys2Proof.Machine.execPowerOnReset s
  | .supplyLoss => Sys2Proof.Machine.execSupplyLoss s
  | .headraceLock => Sys2Proof.Machine.execHeadraceLock s
  | .tankPowerUpTestDone fails => Sys2Proof.Machine.execTankPowerUpTestDone fails s
  | .sysReset port key => Sys2Proof.Machine.execSysReset port key s
  | .sysResetComplete => Sys2Proof.Machine.execSysResetComplete s
  | .fundamentalReset elapsed => Sys2Proof.Machine.execFundamentalReset elapsed s
  | .perstNDeassert common => Sys2Proof.Machine.execPerstNDeassert common s
  | .hotReset elapsed => Sys2Proof.Machine.execHotReset elapsed s
  | .flr f => Sys2Proof.Machine.execFlr f s
  | .functionReady => Sys2Proof.Machine.execFunctionReady s
  | .headraceSwitchover => Sys2Proof.Machine.execHeadraceSwitchover s
  | .pllRelockAttempt ok => Sys2Proof.Machine.execPllRelockAttempt ok s
  | .headraceLost => Sys2Proof.Machine.execHeadraceLost s
  | .headraceResume pllB elapsed => Sys2Proof.Machine.execHeadraceResume pllB elapsed s
  | .referenceLost => Sys2Proof.Machine.execReferenceLost s
  | .referenceRevert => Sys2Proof.Machine.execReferenceRevert s
  | .refselWrite port v => Sys2Proof.Machine.execRefselWrite port v s
  | .thresholdWrite port n which v => Sys2Proof.Machine.execThresholdWrite port n which v s
  | .thrselWrite port n v => Sys2Proof.Machine.execThrselWrite port n v s
  | .threshSwap n => Sys2Proof.Machine.execThreshSwap n s
  | .discordanceWindowEnd => Sys2Proof.Machine.execDiscordanceWindowEnd s
  | .xlimitExceeded n line => Sys2Proof.Machine.execXlimitExceeded n line s
  | .trimWrite port n which v => Sys2Proof.Machine.execTrimWrite port n which v s
  | .calGo port n v => Sys2Proof.Machine.execCalGo port n v s
  | .calDone n => Sys2Proof.Machine.execCalDone n s
  | .calTimeout n => Sys2Proof.Machine.execCalTimeout n s
  | .ruConfigWrite port n which v => Sys2Proof.Machine.execRuConfigWrite port n which v s
  | .flushWrite port n v => Sys2Proof.Machine.execFlushWrite port n v s
  | .packFull n => Sys2Proof.Machine.execPackFull n s
  | .packFlush n => Sys2Proof.Machine.execPackFlush n s
  | .eyeGo port n v => Sys2Proof.Machine.execEyeGo port n v s
  | .eyeDone n => Sys2Proof.Machine.execEyeDone n s
  | .eyeTimeout n => Sys2Proof.Machine.execEyeTimeout n s
  | .widthLongHit n g => Sys2Proof.Machine.execWidthLongHit n g s
  | .timeoutExpiry n g => Sys2Proof.Machine.execTimeoutExpiry n g s
  | .gaugeConfigWrite port n off v => Sys2Proof.Machine.execGaugeConfigWrite port n off v s
  | .gaugeCounterWrite port n g high v => Sys2Proof.Machine.execGaugeCounterWrite port n g high v s
  | .sluiceStep ecc => Sys2Proof.Machine.execSluiceStep ecc s
  | .sluIrq => Sys2Proof.Machine.execSluIrq s
  | .levelCounterWrite port ctrB high v => Sys2Proof.Machine.execLevelCounterWrite port ctrB high v s
  | .tableSwap => Sys2Proof.Machine.execTableSwap s
  | .sluiceJump => Sys2Proof.Machine.execSluiceJump s
  | .event => Sys2Proof.Machine.execEvent s
  | .setselWrite port v => Sys2Proof.Machine.execSetselWrite port v s
  | .tsetWrite port v => Sys2Proof.Machine.execTsetWrite port v s
  | .setcrcWrite port setB k v => Sys2Proof.Machine.execSetcrcWrite port setB k v s
  | .verifyGo port setB => Sys2Proof.Machine.execVerifyGo port setB s
  | .verifyDone => Sys2Proof.Machine.execVerifyDone s
  | .crcBackgroundPass => Sys2Proof.Machine.execCrcBackgroundPass s
  | .snapshotGo port named => Sys2Proof.Machine.execSnapshotGo port named s
  | .snapshotTaken => Sys2Proof.Machine.execSnapshotTaken s
  | .arm port => Sys2Proof.Machine.execArm port s
  | .armingTakesEffect => Sys2Proof.Machine.execArmingTakesEffect s
  | .disarm port => Sys2Proof.Machine.execDisarm port s
  | .tbLoad port => Sys2Proof.Machine.execTbLoad port s
  | .tbWrap => Sys2Proof.Machine.execTbWrap s
  | .rotaReadEntry ecc => Sys2Proof.Machine.execRotaReadEntry ecc s
  | .repeaterCopy r => Sys2Proof.Machine.execRepeaterCopy r s
  | .repstop port v => Sys2Proof.Machine.execRepstop port v s
  | .rotaResume port v => Sys2Proof.Machine.execRotaResume port v s
  | .rotaHeadWrite port v => Sys2Proof.Machine.execRotaHeadWrite port v s
  | .rotaArm => Sys2Proof.Machine.execRotaArm s
  | .rotaDisarm => Sys2Proof.Machine.execRotaDisarm s
  | .segmentNext => Sys2Proof.Machine.execSegmentNext s
  | .gateSet => Sys2Proof.Machine.execGateSet s
  | .gateClr => Sys2Proof.Machine.execGateClr s
  | .gatePulse => Sys2Proof.Machine.execGatePulse s
  | .gatePulseEnd => Sys2Proof.Machine.execGatePulseEnd s
  | .gateCommandTick => Sys2Proof.Machine.execGateCommandTick s
  | .dispFlip o => Sys2Proof.Machine.execDispFlip o s
  | .flumeBcast => Sys2Proof.Machine.execFlumeBcast s
  | .dam => Sys2Proof.Machine.execDam s
  | .bankcfgWrite port v => Sys2Proof.Machine.execBankcfgWrite port v s
  | .gateLineWrite port which v => Sys2Proof.Machine.execGateLineWrite port which v s
  | .storeGate => Sys2Proof.Machine.execStoreGate s
  | .segmentBoundary => Sys2Proof.Machine.execSegmentBoundary s
  | .rearmGapEnd => Sys2Proof.Machine.execRearmGapEnd s
  | .postComplete => Sys2Proof.Machine.execPostComplete s
  | .postShortFull n => Sys2Proof.Machine.execPostShortFull n s
  | .markerPackFlush => Sys2Proof.Machine.execMarkerPackFlush s
  | .segLockAcq port seg => Sys2Proof.Machine.execSegLockAcq port seg s
  | .segLockRel port seg => Sys2Proof.Machine.execSegLockRel port seg s
  | .markread port seg => Sys2Proof.Machine.execMarkread port seg s
  | .weirStepDown n => Sys2Proof.Machine.execWeirStepDown n s
  | .weirStepUp n => Sys2Proof.Machine.execWeirStepUp n s
  | .packDiscard n => Sys2Proof.Machine.execPackDiscard n s
  | .gapEnd n => Sys2Proof.Machine.execGapEnd n s
  | .packToCistern src => Sys2Proof.Machine.execPackToCistern src s
  | .writeComplete pc => Sys2Proof.Machine.execWriteComplete pc s
  | .linkUp side peer => Sys2Proof.Machine.execLinkUp side peer s
  | .linkDown side => Sys2Proof.Machine.execLinkDown side s
  | .linkRetrain side => Sys2Proof.Machine.execLinkRetrain side s
  | .helloSend => Sys2Proof.Machine.execHelloSend s
  | .hello side id port pref hostup hostage stackCount trail => Sys2Proof.Machine.execHello side id port pref hostup hostage stackCount trail s
  | .headElection => Sys2Proof.Machine.execHeadElection s
  | .assign side id pos up => Sys2Proof.Machine.execAssign side id pos up s
  | .assignTimeout => Sys2Proof.Machine.execAssignTimeout s
  | .mgtAddressSettle => Sys2Proof.Machine.execMgtAddressSettle s
  | .linkstate side pos port up hops armed => Sys2Proof.Machine.execLinkstate side pos port up hops armed s
  | .rediscover port v => Sys2Proof.Machine.execRediscover port v s
  | .delayExchange at_ => Sys2Proof.Machine.execDelayExchange at_ s
  | .dreq side t1 at_ stay => Sys2Proof.Machine.execDreq side t1 at_ stay s
  | .drsp side t1 t2 t3 at_ => Sys2Proof.Machine.execDrsp side t1 t2 t3 at_ s
  | .syncSend => Sys2Proof.Machine.execSyncSend s
  | .sync side tbh corr hops mode funnel present at_ stay => Sys2Proof.Machine.execSync side tbh corr hops mode funnel present at_ stay s
  | .ev side recs => Sys2Proof.Machine.execEv side recs s
  | .evriskSpan => Sys2Proof.Machine.execEvriskSpan s
  | .settleFlit side tb cause origin hops => Sys2Proof.Machine.execSettleFlit side tb cause origin hops s
  | .damFlit side tb origin driver hops => Sys2Proof.Machine.execDamFlit side tb origin driver hops s
  | .releaseFlit side origin hops elapsed => Sys2Proof.Machine.execReleaseFlit side origin hops elapsed s
  | .cwrGo port v => Sys2Proof.Machine.execCwrGo port v s
  | .cwr side src dst seq off data => Sys2Proof.Machine.execCwr side src dst seq off data s
  | .crd side src dst seq off => Sys2Proof.Machine.execCrd side src dst seq off s
  | .crsp side src dst seq req data result => Sys2Proof.Machine.execCrsp side src dst seq req data result s
  | .cwrTimeout => Sys2Proof.Machine.execCwrTimeout s
  | .hostreq side src dst seq type tag off len data bytes => Sys2Proof.Machine.execHostreq side src dst seq type tag off len data bytes s
  | .dmahdr side src dst seq addr drain bytes => Sys2Proof.Machine.execDmahdr side src dst seq addr drain bytes s
  | .cplhdr side src dst seq tag status bytes => Sys2Proof.Machine.execCplhdr side src dst seq tag status bytes s
  | .ack side src dst seq nak => Sys2Proof.Machine.execAck side src dst seq nak s
  | .resendTimeout dst => Sys2Proof.Machine.execResendTimeout dst s
  | .modeWrite port v => Sys2Proof.Machine.execModeWrite port v s
  | .modeset side tb mode => Sys2Proof.Machine.execModeset side tb mode s
  | .modeChange => Sys2Proof.Machine.execModeChange s
  | .tribLost f => Sys2Proof.Machine.execTribLost f s
  | .tribRecover port v => Sys2Proof.Machine.execTribRecover port v s
  | .damNLow => Sys2Proof.Machine.execDamNLow s
  | .damAssert port => Sys2Proof.Machine.execDamAssert port s
  | .damStop => Sys2Proof.Machine.execDamStop s
  | .damClockGate => Sys2Proof.Machine.execDamClockGate s
  | .damRelease port elapsed => Sys2Proof.Machine.execDamRelease port elapsed s
  | .damRearm => Sys2Proof.Machine.execDamRearm s
  | .imgDataRead port => Sys2Proof.Machine.execImgDataRead port s
  | .damscan dr => Sys2Proof.Machine.execDamscan dr s
  | .damrel elapsed => Sys2Proof.Machine.execDamrel elapsed s
  | .settle => Sys2Proof.Machine.execSettle s
  | .swSettle port => Sys2Proof.Machine.execSwSettle port s
  | .safeRelease port => Sys2Proof.Machine.execSafeRelease port s
  | .eventLogEntry => Sys2Proof.Machine.execEventLogEntry s
  | .logLost => Sys2Proof.Machine.execLogLost s
  | .eventLogCopy => Sys2Proof.Machine.execEventLogCopy s
  | .stgHeadWrite port v => Sys2Proof.Machine.execStgHeadWrite port v s
  | .interruptSend v => Sys2Proof.Machine.execInterruptSend v s
  | .pageEvent page => Sys2Proof.Machine.execPageEvent page s
  | .pageIntenWrite port page v => Sys2Proof.Machine.execPageIntenWrite port page v s
  | .pageLock port page => Sys2Proof.Machine.execPageLock port page s
  | .rcReadClear addr => Sys2Proof.Machine.execRcReadClear addr s
  | .lowWordRead port addr => Sys2Proof.Machine.execLowWordRead port addr s
  | .registerScrub bankB addr bothBad => Sys2Proof.Machine.execRegisterScrub bankB addr bothBad s
  | .registerWrite port addr v => Sys2Proof.Machine.execRegisterWrite port addr v s
  | .refresh pc bank => Sys2Proof.Machine.execRefresh pc bank s
  | .cisternCommand pc busy ecc => Sys2Proof.Machine.execCisternCommand pc busy ecc s
  | .parityAlert pc => Sys2Proof.Machine.execParityAlert pc s
  | .pcRetrainDone pc ok => Sys2Proof.Machine.execPcRetrainDone pc ok s
  | .revive port pc => Sys2Proof.Machine.execRevive port pc s
  | .reviveDone pc ok => Sys2Proof.Machine.execReviveDone pc ok s
  | .trainingPass stack pc ends applies => Sys2Proof.Machine.execTrainingPass stack pc ends applies s
  | .opgo port v => Sys2Proof.Machine.execOpgo port v s
  | .opChangeDone => Sys2Proof.Machine.execOpChangeDone s
  | .reinit port v => Sys2Proof.Machine.execReinit port v s
  | .cisternReady phase => Sys2Proof.Machine.execCisternReady phase s
  | .cbistGo port v => Sys2Proof.Machine.execCbistGo port v s
  | .cbistElement ecc mismatch => Sys2Proof.Machine.execCbistElement ecc mismatch s
  | .cbistPassDone => Sys2Proof.Machine.execCbistPassDone s
  | .tankHandoverRequest port n v => Sys2Proof.Machine.execTankHandoverRequest port n v s
  | .tankHandover n => Sys2Proof.Machine.execTankHandover n s
  | .tankAccess off req ecc collides => Sys2Proof.Machine.execTankAccess off req ecc collides s
  | .retreqWrite port v => Sys2Proof.Machine.execRetreqWrite port v s
  | .retentionEnter g => Sys2Proof.Machine.execRetentionEnter g s
  | .tbistGo port v => Sys2Proof.Machine.execTbistGo port v s
  | .tbistPhaseDone bad => Sys2Proof.Machine.execTbistPhaseDone bad s
  | .configRequest f dw wr => Sys2Proof.Machine.execConfigRequest f dw wr s
  | .bar0Request f off req => Sys2Proof.Machine.execBar0Request f off req s
  | .windowRequest f off req => Sys2Proof.Machine.execWindowRequest f off req s
  | .winCommit port v => Sys2Proof.Machine.execWinCommit port v s
  | .drainTailWrite port d v => Sys2Proof.Machine.execDrainTailWrite port d v s
  | .descriptorFetch d reply => Sys2Proof.Machine.execDescriptorFetch d reply s
  | .descriptorStart d => Sys2Proof.Machine.execDescriptorStart d s
  | .descriptorComplete d bad => Sys2Proof.Machine.execDescriptorComplete d bad s
  | .drainPause d issued => Sys2Proof.Machine.execDrainPause d issued s
  | .drainResume port v => Sys2Proof.Machine.execDrainResume port v s
  | .l1Entry => Sys2Proof.Machine.execL1Entry s
  | .l1Exit => Sys2Proof.Machine.execL1Exit s
  | .d3hotEntry => Sys2Proof.Machine.execD3hotEntry s
  | .surpriseDown => Sys2Proof.Machine.execSurpriseDown s
  | .fatalError => Sys2Proof.Machine.execFatalError s
  | .holdRelease port => Sys2Proof.Machine.execHoldRelease port s
  | .vsecRelease => Sys2Proof.Machine.execVsecRelease s
  | .vsecRdata f wr => Sys2Proof.Machine.execVsecRdata f wr s
  | .funnelTakesEffect linked => Sys2Proof.Machine.execFunnelTakesEffect linked s
  | .dpTrain o wr => Sys2Proof.Machine.execDpTrain o wr s
  | .dpTrainEnd o reached async => Sys2Proof.Machine.execDpTrainEnd o reached async s
  | .hpdUnplug o => Sys2Proof.Machine.execHpdUnplug o s
  | .hpdPlug o => Sys2Proof.Machine.execHpdPlug o s
  | .hpdIrq o => Sys2Proof.Machine.execHpdIrq o s
  | .auxGo port o v => Sys2Proof.Machine.execAuxGo port o v s
  | .auxReply o reply data => Sys2Proof.Machine.execAuxReply o reply data s
  | .auxTimeout o => Sys2Proof.Machine.execAuxTimeout o s
  | .dispEnable port o v => Sys2Proof.Machine.execDispEnable port o v s
  | .pageCommitTiming port o => Sys2Proof.Machine.execPageCommitTiming port o s
  | .pageCommitFrame port o => Sys2Proof.Machine.execPageCommitFrame port o s
  | .latchPoint o => Sys2Proof.Machine.execLatchPoint o s
  | .frameStart o => Sys2Proof.Machine.execFrameStart o s
  | .vsync o => Sys2Proof.Machine.execVsync o s
  | .frameFetchStart o => Sys2Proof.Machine.execFrameFetchStart o s
  | .displayFetch o => Sys2Proof.Machine.execDisplayFetch o s
  | .underrun o => Sys2Proof.Machine.execUnderrun o s
  | .regRead sent => Sys2Proof.Machine.execRegRead sent s
  | .regWrite sent pec => Sys2Proof.Machine.execRegWrite sent pec s
  | .tankRead sent ecc => Sys2Proof.Machine.execTankRead sent ecc s
  | .tankWrite sent pec ecc collides => Sys2Proof.Machine.execTankWrite sent pec ecc collides s
  | .mstatus => Sys2Proof.Machine.execMstatus s
  | .fuseProg port key => Sys2Proof.Machine.execFuseProg port key s
  | .fuseProgDone ok => Sys2Proof.Machine.execFuseProgDone ok s
  | .temperatureSample sensor v => Sys2Proof.Machine.execTemperatureSample sensor v s
  | .supplySample rail mv => Sys2Proof.Machine.execSupplySample rail mv s
  | .sampleCycle pins => Sys2Proof.Machine.execSampleCycle pins s
  | .flitCrcFailure side => Sys2Proof.Machine.execFlitCrcFailure side s
  | .ackDeadline src => Sys2Proof.Machine.execAckDeadline src s
  | .hostLinkL0 speed width => Sys2Proof.Machine.execHostLinkL0 speed width s
  | .stackTemperatureReport stack temp mul => Sys2Proof.Machine.execStackTemperatureReport stack temp mul s

end Sys2Proof.Machine
end

