-- ==== Sys2Proof/Machine/Step.lean ====
section
/-! DEFINITION. A step takes the command at the front of the queue and carries it out. -/
namespace Sys2Proof.Machine

/-- One step: the oldest waiting command runs with the rest still waiting; without one the module idles, since time passes only by the command SAMPLE_CYCLE. DESIGN CHOICE: notes/assumptions/1.md. DESIGN CHOICE: notes/assumptions/4.md. -/
def step (s : State) : Host.Outcome State Fault Refusal :=
  match s.pending with
  | [] => .next s
  | c :: rest => exec c { s with pending := rest }

/-- The state with the command that a word spells at the front of the queue. -/
def State.withFetchWord (s : State) (nbits w : Nat) : State :=
  match decodeTableWord nbits w with
  | some c => { s with pending := c :: s.pending }
  | none => s

end Sys2Proof.Machine
end

