-- ==== Sys2Proof/Safety.lean ====
section
/-! DEFINITION. The terms in which statements about a step are written: what a safe outcome is, what a step keeps, when a register write goes through, and the invariant of the memories. -/
namespace Sys2Proof.Machine

/-- An outcome is safe when it is a next state: no command may end in a fault or a refusal. -/
def Safe (o : Out) : Prop := ∃ t, o = .next t

/-- The outcome is a next state of which P holds. -/
def Ends (o : Out) (P : State → Prop) : Prop := ∃ t, o = .next t ∧ P t

/-- The bytes of the tanks and of the cistern are in canonical form: addresses strictly rising, none listed with the value 0 that an unlisted byte reads as. -/
def State.MemOk (s : State) : Prop := Memory.wf s.chip.tanks = true ∧ Memory.wf s.chip.cistern = true

/-- The engine of a state. -/
abbrev State.eng (s : State) : Engine := s.chip.eng

/-- A state with another engine. -/
def State.withEng (s : State) (m : Engine) : State := { s with chip := { s.chip with eng := m } }

/-- Is a PAGE_STATUS bit set? -/
def Engine.hasBit (m : Engine) (b : PageBit) : Bool := bitAt (m.reg (statusAddr b.page)).toNat b.bit

/-- A counter that saturates, n higher. -/
def satAdd (w : Word) (n : Nat) : Word := BitVec.ofNat 32 (min (w.toNat + n) 0xFFFFFFFF)

/-- What has been detected, with one entry more of the cycle at hand. -/
def Engine.nowDetected (m : Engine) (page cls code data : Nat) : List LogEntry := insertEntry ⟨m.pclk, page, cls, code, BitVec.ofNat 32 data, tbOfCycle m.cycle⟩ m.detected

/-- The registers of the SLU page that a sluice step may change, with the seen bits of the class and the level it judged, and every reach's context. -/
def sluiceRegs (e l : Nat) : List Nat :=
  [R.SLU_STATUS, R.SLU_IRQDROP, R.SLU_CTRA_LO, R.SLU_CTRA_HI, R.SLU_CTRB_LO, R.SLU_CTRB_HI, R.SLU_DWELLNOW_LO, R.SLU_DWELLNOW_HI, R.SLU_TRIGCNT, R.SLU_LASTTRIG,
   R.SLU_LASTTRIG_TB_LO, R.SLU_LASTTRIG_TB_HI, R.SLU_ESEEN (e / 32), R.SLU_LVLSEEN (l / 32), statusAddr 0xA1] ++ (List.range 48).map R.RU_CONTEXT

/-- The registers that reads of tank words may change: the error counts, the last uncorrectable word's place and the page's status. -/
def tankEccRegs : List Nat := (List.range 64).map R.TANK_CE ++ (List.range 64).map R.TANK_UE ++ [R.TANK_LASTUE, statusAddr 0xC0]

/-- The level that a sample cycle's step leaves: its jump's, or the entry's NEXT (R132, R143). -/
def nextLevel (j : Option Jump) (ent : Nat) : Nat := match j with | some x => x.level | none => bitsOf ent 0 10

/-- What a step keeps: every register but those listed, every byte of the tanks and of the cistern, the timebase and the commands that wait. -/
def Kept (s t : State) (l : List Nat) : Prop :=
  (∀ a, a ∉ l → t.eng.reg a = s.eng.reg a) ∧ t.chip.tanks = s.chip.tanks ∧ t.chip.cistern = s.chip.cistern ∧ t.eng.tb = s.eng.tb ∧ t.pending = s.pending

/-- The registers whose address meets a test are as before. -/
def RegsKept (s t : State) (p : Nat → Bool) : Prop := ∀ a, p a = true → t.eng.reg a = s.eng.reg a

/-- The registers whose address meets a test hold their reset values. -/
def RegsReset (t : State) (p : Nat → Bool) : Prop := ∀ a, p a = true → t.eng.reg a = resetVal a

/-- Does an address lie on one of the pages listed? -/
def onPages (l : List Nat) (a : Nat) : Bool := l.contains (a / 0x1000)

/-- The pages of the reaches, the weir, the store and the segments, which storing may change. -/
def storePages : List Nat := [0xA4, 0xA8, 0xA9, 0xAA, 0xAB, 0xAC] ++ (List.range 48).map (fun n => 0x40 + 2 * n)

/-- The bytes of the tanks, and of the cistern, whose address meets a test are as before. -/
def TankKept (s t : State) (p : Nat → Bool) : Prop := ∀ a, p a = true → readByte t.chip.tanks a = readByte s.chip.tanks a
def CisternKept (s t : State) (p : Nat → Bool) : Prop := ∀ a, p a = true → readByte t.chip.cistern a = readByte s.chip.cistern a

/-- The bytes of the cistern whose address meets a test are 0. -/
def CisternZero (t : State) (p : Nat → Bool) : Prop := ∀ a, p a = true → readByte t.chip.cistern a = 0

/-- The registers that the start of the cistern's full training sets: the controller's state, the timing of the stacks' parameter data, the stacks' presence and the pseudo-channels' states. -/
def trainRegs : List Nat :=
  [R.CIS_STATUS] ++ (List.range 6).map R.CIS_TIM0 ++ (List.range 6).map R.CIS_TIM1 ++ (List.range 2).map R.CISP_STACKSTAT ++ (List.range 64).map (fun p => R.CISP_PC_STATE (p / 32) (p % 32))

/-- Every byte of the tanks and of the cistern and the commands that wait are kept. -/
def MemKept (s t : State) : Prop := t.chip.tanks = s.chip.tanks ∧ t.chip.cistern = s.chip.cistern ∧ t.pending = s.pending

/-- A register write of a port gets through (R394 to R416): the module is powered, not resetting and not dammed, the register's clock runs, the address holds a register, the port may write its class, no lock freezes
it, and it is not held until the next disarm. -/
def State.accepts (s : State) (port : Port) (a : Nat) (v : Word) : Bool :=
  let m := s.chip.eng
  m.reachable && !m.dammed && !(m.lost && !alwaysOn a) && decide (a < 0x100000) && a % 4 == 0 && !isDirWord a && !m.absentCisp a && !(m.isHeld a && (m.armed || m.store.active)) &&
    (match decodeReg a with
     | none => false
     | some h => classAllows (if h.off = 0x0C then 1 else h.blk.cls) port && !m.frozenBy h a v.toNat)

/-- The answer of a port to a write that completed normally (R402). -/
def okAnswer : Port → Answer
  | .host => .done
  | .mgmt => .mgmt 0 0
  | .fa | .fb => .crsp 0 0
  | .tap => .done

/-- The answer of a port to a read that returned a word (R402). -/
def okRead : Port → Word → Answer
  | .host, w => .word w
  | .mgmt, w => .mgmt 0 w
  | .fa, w => .crsp 0 w
  | .fb, w => .crsp 0 w
  | .tap, w => .word w

/-- What a module with a position tells of a link's end: a LINKSTATE with its arming state (R265). One without a position tells nothing. -/
def State.tells (s : State) (side : Side) (up : Bool) : List Flit :=
  if s.eng.role = 0 then [] else [⟨s.eng.pos, 0, .linkstate s.eng.pos side up 0 s.eng.armed⟩]

/-- The flits that wait on each link are those of before with these after them, where the link is UP. -/
def Sent (s t : State) (l : Side → List Flit) : Prop := ∀ x, (t.eng.link x).tx = (s.eng.link x).tx ++ (if s.eng.sideUp x then l x else [])

/-- A pseudo-channel issues commands for what its own queues hold: clocks run, the controller works, no alert is being handled, and nothing waits for room or comes from a drain. -/
def State.issues (s : State) (p : Nat) : Bool :=
  s.eng.running && decide (p < s.eng.cis.pcs.length) && s.eng.pcIssues p && (s.eng.pc p).rung == 0 && s.eng.cis.waitW.isEmpty && s.eng.cis.waitR.isEmpty && s.eng.host.drains.all (fun d => d.working.isNone)

/-- A memory request: a read of n bytes, or a write of bytes under their enables, poisoned or not. -/
def asked (n : Nat) (full : Bool) : Option (List (Option Byte) × Bool) → Request
  | none => .read n full
  | some (l, p) => .write l p

/-- The configuration space of a state is that of another but for one word. -/
def CfgKept (s t : State) (f off : Nat) : Prop := ∀ (g : Fin 8) (o : Fin 4096), 4096 * g.val + o.val ≠ 4096 * f + off → t.eng.cfg g o = s.eng.cfg g o

/-- The commands that may change the timebase: those that let a CCLK cycle pass, lock or resume the headrace, release a dam, reset or power the module, align the ring, or
write a register or bring flits that release a dam. -/
def mayChangeTime : Instr → Bool
  | .sampleCycle _ | .headraceLock | .headraceResume _ _ | .damAssert _ | .damRelease _ _ | .damrel _ | .releaseFlit .. | .fundamentalReset _ | .hotReset _ | .powerOnReset | .supplyLoss
  | .temperatureSample .. | .sync .. | .registerWrite .. | .regWrite .. | .bar0Request .. | .hostreq .. | .cwr .. | .configRequest .. | .vsecRdata .. => true
  | _ => false

end Sys2Proof.Machine
end

