-- ==== Sys2Proof/Certificates/Slice0/Obligations.lean ====
section
/-! DEFINITION. The statements for the provers, O1 to O60. Each clause speaks of one command in the states and operands its premises name: the next state it answers, what that state holds, and what it keeps. -/
open Sys2Proof Sys2Proof.Machine

/-! ## The machine as a whole -/

/-- O1. The step takes the command at the front of the queue (first in, first out): at a state with c in front, step is exec of c at the state whose queue is the rest. -/
def Obligations.StepRunsFrontCommand : Prop :=
  ∀ (s : State) (c : Instr) (rest : List Instr), step { s with pending := c :: rest } = exec c { s with pending := rest }

/-- O2. The model's choice (notes/assumptions/1.md): on an empty queue the module idles, and the state stays as it is. -/
def Obligations.StepIdlesWithoutCommand : Prop :=
  ∀ s : State, s.pending = [] → step s = .next s

/-- O3. Every command ends in a next state, in every state: no command is a fault or a refusal, and none touches the commands that wait behind it. -/
def Obligations.EveryCommandEnds : Prop :=
  ∀ (c : Instr) (s : State), Ends (exec c s) (fun t => t.pending = s.pending)

/-- O4. Right after reset the tanks' and the cistern's bytes are in canonical form, nothing is listed and nothing waits. The model's choices it rests on: notes/assumptions/7. -/
def Obligations.ResetMemOk : Prop :=
  State.reset.MemOk ∧ State.reset.chip.tanks = [] ∧ State.reset.chip.cistern = [] ∧ State.reset.pending = []

/-- O5. Every step keeps the canonical form of the tanks' and the cistern's bytes: addresses strictly rising, no byte listed that reads 0. The model's choices it rests on: notes/assumptions/7. -/
def Obligations.StepKeepsMemOk : Prop :=
  ∀ s t : State, s.MemOk → step s = .next t → t.MemOk

/-- O6. No other command moves the timebase (R169): TB counts cycles, and only loads, ring alignment and the returns after a dam or a loss of the headrace change it otherwise. The model's choices it rests on: notes/assumptions/1. -/
def Obligations.TimeMovesOnlyByItsCommands : Prop :=
  ∀ (c : Instr) (s t : State), mayChangeTime c = false → exec c s = .next t → t.eng.tb = s.eng.tb

/-! ## Register accesses (R394 to R416) -/

/-- O7. A register write that its port may make completes normally: the writable fields of the register take the value, as `writeAt` carries it out with what the write brings about, and the port gets its normal answer (R4, R394, R402). One statement for REGISTER_WRITE at every register and port. -/
def Obligations.AcceptedWriteCompletes : Prop :=
  ∀ (s : State) (port : Port) (addr v : Word), s.accepts port addr.toNat v = true →
    ∃ h : RegHit, decodeReg addr.toNat = some h ∧
      exec (.registerWrite port addr v) s =
        .next { s with chip := { s.chip.writeAt h addr.toNat v with eng := (s.chip.writeAt h addr.toNat v).eng.reply (okAnswer port) } }

/-- O8. R435: while the module is dammed a register write does nothing but count in DAM.WDISC, except a RELEASE in DAM.CTL from the host link or management and a management write of IMG_ADDR; it completes normally. While the headrace is lost a write of a register whose clock stands still waits for it, behind the earlier ones (R20, R407; the model's reading: notes/assumptions/133.md). -/
def Obligations.DammedWritesAreDiscarded : Prop :=
  (∀ (s : State) (port : Port) (addr v : Word), s.eng.reachable = true → s.eng.dammed = true → damWrite port addr.toNat v.toNat = false →
    exec (.registerWrite port addr v) s = .next { s with chip := { s.chip with eng := (s.eng.addSat R.DAM_WDISC 1).reply (okAnswer port) } }) ∧
  (∀ (s : State) (port : Port) (addr v : Word), s.eng.reachable = true → s.eng.dammed = false → s.eng.lost = true → alwaysOn addr.toNat = false →
    Ends (exec (.registerWrite port addr v) s) (fun t => t.eng.mgt.stalled = s.eng.mgt.stalled ++ [(port, 0, addr.toNat, v)] ∧ t.eng.answer = okAnswer port ∧ Kept s t []))

/-- O9. R398 and R402: a write by a port that may not write the page's class changes nothing but the page's PAGE_FAULT (bit 3 with the port, the direction and the offset), one class U entry 0x0215 and the answer: a CRSP with RESULT 1 to a flume link, Completer Abort with HOST.REFUSED and LASTREF to the host link, an error to the TAP; no other register changes. -/
def Obligations.ForbiddenWriteIsRefused : Prop :=
  (∀ (s : State) (port : Port) (addr v : Word) (h : RegHit), s.eng.reachable = true → s.eng.dammed = false → (s.eng.lost && !alwaysOn addr.toNat) = false → isDirWord addr.toNat = false →
    addr.toNat < 0x100000 → addr.toNat % 4 = 0 → decodeReg addr.toNat = some h → s.eng.absentCisp addr.toNat = false → port ≠ .host → classAllows (if h.off = 0x0C then 1 else h.blk.cls) port = false →
    Ends (exec (.registerWrite port addr v) s) (fun t => Kept s t [faultAddr h.page] ∧
      t.eng.reg (faultAddr h.page) = BitVec.ofNat 32 (((s.eng.reg (faultAddr h.page)).toNat % 32 ||| 8) + port.code * 2 ^ 8 + 2 ^ 11 + h.off / 4 * 2 ^ 12) ∧
      t.eng.detected = s.eng.nowDetected h.page 2 0x0215 (violData port true h.off 0) ∧ t.eng.answer = (if port = .tap then .scanError else .crsp 1 0))) ∧
  (∀ (s : State) (addr v : Word) (h : RegHit), s.eng.reachable = true → s.eng.dammed = false → (s.eng.lost && !alwaysOn addr.toNat) = false → isDirWord addr.toNat = false →
    addr.toNat < 0x100000 → addr.toNat % 4 = 0 → decodeReg addr.toNat = some h → s.eng.absentCisp addr.toNat = false → s.eng.host.hold = false → classAllows (if h.off = 0x0C then 1 else h.blk.cls) .host = false →
    Ends (exec (.registerWrite .host addr v) s) (fun t => Kept s t [faultAddr h.page, R.HOST_REFUSED, R.HOST_LASTREF, statusAddr 0xD0] ∧
      t.eng.reg (faultAddr h.page) = BitVec.ofNat 32 (((s.eng.reg (faultAddr h.page)).toNat % 32 ||| 8) + 2 ^ 11 + h.off / 4 * 2 ^ 12) ∧
      t.eng.reg R.HOST_REFUSED = satAdd (s.eng.reg R.HOST_REFUSED) 1 ∧
      t.eng.detected = s.eng.nowDetected h.page 2 0x0215 (violData .host true h.off 0) ∧ t.eng.answer = .completerAbort)) ∧
  (∀ (s : State) (port : Port) (addr v : Word), s.eng.reachable = true → s.eng.dammed = false → s.eng.lost = false → isDirWord addr.toNat = true → port ≠ .host → classAllows 0 port = false →
    Ends (exec (.registerWrite port addr v) s) (fun t => Kept s t [faultAddr (addr.toNat / 0x1000)] ∧
      t.eng.detected = s.eng.nowDetected (addr.toNat / 0x1000) 2 0x0215 (violData port true (addr.toNat % 0x1000) 0) ∧ t.eng.answer = (if port = .tap then .scanError else .crsp 1 0)))

/-- O10. R82: while the engine is armed a write of a held register waits behind the earlier ones; no register but the page's PEND bit changes, which reads 1, and a read of it returns the value written in its RW fields. -/
def Obligations.HeldWritesWait : Prop :=
  ∀ (s : State) (port : Port) (addr v : Word), s.eng.isHeld addr.toNat = true → s.eng.armed = true → s.eng.arming = none → s.eng.reachable = true → s.eng.dammed = false → s.eng.lost = false →
    s.eng.absentCisp addr.toNat = false → port ≠ .tap →
    (match decodeReg addr.toNat with | none => false | some h => classAllows h.blk.cls port && !s.eng.frozenBy h addr.toNat v.toNat) = true →
    Ends (exec (.registerWrite port addr v) s) (fun t => Kept s t ((pendField addr.toNat).map (·.addr)).toList ∧ t.eng.held = s.eng.held ++ [(addr.toNat, v)] ∧
      t.eng.heldReg addr.toNat = mergeRw addr.toNat (s.eng.reg addr.toNat) v ∧ (pendField addr.toNat).all (fun f => t.eng.flag f) = true ∧ t.eng.answer = okAnswer port)

/-! ## Power, resets and the headrace (R18 to R23, R169, R447 to R454) -/

/-- O11. R447, R454, R457: a power-on reset of a powered module starts with nothing in the tanks and the cistern, the clocks stopped, TB 0, nothing armed, held or logged and the cistern in INIT; every register but those of the pages that fuses, identity and the start-up set reads its reset value, the fuse words, safe levels and gate bank voltages are those of the row in force, and the management address is provisional. A loss of the supplies takes a powered module to its unpowered state: every byte is lost and every register but the identity's and the trip bit reads its reset value; the same power-on reset follows it. An unpowered module loses nothing more, and powers up. The model's choices it rests on: notes/assumptions/5. -/
def Obligations.PowerComesAndGoes : Prop :=
  (∀ s : State, s.eng.mgt.powered = true → Ends (exec .powerOnReset s) (fun t => t.eng.mgt.powered = true ∧ t.eng.running = false ∧ t.eng.lost = false ∧ t.eng.tb = 0 ∧
    t.chip.tanks = [] ∧ t.chip.cistern = [] ∧ t.pending = s.pending ∧ t.eng.held = [] ∧ t.eng.detected = [] ∧ t.eng.armed = false ∧ t.eng.settled = false ∧ t.eng.dammed = false ∧
    t.eng.cisState = 0 ∧ RegsReset t (fun a => !onPages [0x4, 0x7, 0x9, 0xA, 0xA3, 0xB0, 0xB1, 0xB2, 0xF2] a) ∧
    (∀ k : Fin 8, t.eng.reg (R.MGT_FUSEROW k) = nth t.eng.mgt.inForce.2 k 0) ∧ (∀ k : Fin 3, t.eng.reg (R.SAFE_LEVEL k) = t.eng.reg (R.MGT_FUSEROW (k + 2))) ∧
    t.eng.reg R.GATE_BANKCFG = BitVec.ofNat 32 (bitsOf (t.eng.reg (R.MGT_FUSEROW 1)).toNat 8 8) ∧
    t.eng.flag R.MGT_ADDR_SETTLED = false ∧ t.eng.fld R.MGT_ADDR_EFFECTIVE = (t.eng.mgtBase + 8) % 128 ∧ t.eng.flag R.SYS_STATUS_READY = false ∧
    t.eng.reg R.SYS_IDENT = s.eng.reg R.SYS_IDENT ∧ t.eng.reg64 R.RING_ID_LO = s.eng.reg64 R.RING_ID_LO)) ∧
  (∀ s u : State, s.eng.mgt.powered = true → exec .supplyLoss s = .next u → exec .powerOnReset u = exec .powerOnReset s) ∧
  (∀ s : State, s.eng.mgt.powered = false → Ends (exec .powerOnReset s) (fun t => t.eng.mgt.powered = true ∧ MemKept s t ∧
    RegsKept s t (fun a => !onPages [0x4, 0x7, 0x9, 0xA3, 0xB0, 0xB1, 0xB2] a))) ∧
  (∀ s : State, s.eng.mgt.powered = true → Ends (exec .supplyLoss s) (fun t => t.eng.mgt.powered = false ∧ t.eng.running = false ∧ t.eng.tb = 0 ∧ t.chip.tanks = [] ∧ t.chip.cistern = [] ∧
    t.eng.held = [] ∧ t.eng.detected = [] ∧ RegsReset t (fun a => !([R.SYS_IDENT, R.SYS_BUDGET_HI, R.RING_ID_LO, R.RING_ID_LO + 4, R.THRM_STATUS].contains a)) ∧
    t.eng.flag R.THRM_STATUS_TRIPPED = s.eng.flag R.THRM_STATUS_TRIPPED ∧ t.eng.reg R.SYS_IDENT = s.eng.reg R.SYS_IDENT ∧ t.eng.reg64 R.RING_ID_LO = s.eng.reg64 R.RING_ID_LO ∧
    (s.eng.mgt.prog = none → t.eng.mgt.rows = s.eng.mgt.rows ∧ t.eng.mgt.bad = s.eng.mgt.bad) ∧ t.eng.host.perst = s.eng.host.perst ∧ t.pending = s.pending)) ∧
  (∀ s : State, s.eng.mgt.powered = false → exec .supplyLoss s = .next s)

/-- O12. R169, R447, R329, R461: at headrace lock the clocks start with TB 0, both PLLs lock and the standby tracks, and the flume links that are enabled train; a tank test that ends makes SYS.STATUS.TANKS_DONE read 1, and READY with it once the management address is settled; every failing tank shows in FAILMAP, and the first of them, unless it is T62, is remapped to T62 with owner BIST; once the ring position is known the management address settles at base + position. The model's choices it rests on: notes/assumptions/9, 127. -/
def Obligations.StartUp : Prop :=
  (∀ s : State, s.eng.running = false → s.eng.lost = false → s.eng.dammed = false → s.eng.mgt.powered = true → s.eng.flag R.CLK_STATUS_LOCK_A = false →
    Ends (exec .headraceLock s) (fun t => t.eng.running = true ∧ t.eng.tb = 0 ∧ t.eng.nextCycle = (match s.eng.tbLoad with | some c => c | none => 0) ∧
      t.eng.flag R.CLK_STATUS_LOCK_A = true ∧ t.eng.flag R.CLK_STATUS_LOCK_B = true ∧ t.eng.flag R.CLK_STATUS_REDUNDANT = true ∧
      t.eng.fld R.CLK_STATUS_INUSE = s.eng.fld R.CLK_REFSEL_SRC ∧
      (∀ n : Fin 2, t.eng.fld (R.FLU_STATUS_STATE n) = (if s.eng.flag (R.FLU_CTL_EN n) && s.eng.fld (R.FLU_STATUS_STATE n) == 0 then 1 else s.eng.fld (R.FLU_STATUS_STATE n))) ∧
      RegsKept s t (fun a => !([R.CLK_STATUS, R.FLU_STATUS 0, R.FLU_STATUS 1, R.RING_MEMBERS, statusAddr 0xF2].contains a)) ∧ MemKept s t)) ∧
  (∀ (s : State) (fails : List (Fin 64 × List (BitVec 15 × Fin 72))), s.eng.mgt.powered = true → s.eng.mgt.tanksDone = false →
    Ends (exec (.tankPowerUpTestDone fails) s) (fun t => t.eng.mgt.tanksDone = true ∧ t.eng.flag R.SYS_STATUS_TANKS_DONE = true ∧
      t.eng.flag R.SYS_STATUS_READY = t.eng.flag R.MGT_ADDR_SETTLED ∧ t.eng.tank.errs = [] ∧
      (∀ f ∈ fails, bitAt (t.eng.reg (if f.1.val < 32 then R.TBIST_FAILMAP_LO else R.TBIST_FAILMAP_HI)).toNat (f.1.val % 32) = true) ∧
      (∀ f ∈ fails.head?, f.1.val ≠ 62 → t.eng.reg R.TBIST_REMAP = BitVec.ofNat 32 (f.1.val + 62 * 2 ^ 8 + 2 ^ 14) ∧ t.eng.owner 62 = 6) ∧
      Kept s t ([R.SYS_STATUS, statusAddr 4] ++ (if fails = [] then [] else
        [R.TBIST_STATUS, R.TBIST_FAILMAP_LO, R.TBIST_FAILMAP_HI, R.TBIST_FAULTCNT, R.TBIST_LASTFAULT, R.TBIST_REMAP, R.TANK_OWN 62, statusAddr 0xC1])))) ∧
  (∀ s : State, s.eng.mgt.powered = true → s.eng.ring.positioned = true →
    Ends (exec .mgtAddressSettle s) (fun t => t.eng.flag R.MGT_ADDR_SETTLED = true ∧ t.eng.fld R.MGT_ADDR_EFFECTIVE = (s.eng.mgtBase + s.eng.pos) % 128 ∧
      t.eng.flag R.SYS_STATUS_READY = s.eng.mgt.tanksDone ∧ Kept s t [R.MGT_ADDR, R.SYS_STATUS, statusAddr 4, statusAddr 9]))

/-- O13. R451, R452: SYS.RESET with the key A5C3 puts a module that is not dammed into its reset, from which no page is reached, until the reset completes: the engine is disarmed, the cistern in self-refresh, nothing is held or detected, the decision path's pages read their reset values, SYS.STATUS shows the cause, and TB and the tanks stand; with another key the write changes no register. The reset's completion takes the cistern out of self-refresh. The model's choices it rests on: notes/assumptions/32. -/
def Obligations.SysReset : Prop :=
  (∀ (s : State) (port : Port), s.accepts port R.SYS_CTL (BitVec.ofNat 32 (4 + 0xA5C3 * 2 ^ 16)) = true →
    Ends (exec (.sysReset port 0xA5C3) s) (fun t => t.eng.mgt.resetting = true ∧ t.eng.reachable = false ∧ t.eng.answer = okAnswer port ∧ t.eng.armed = false ∧ t.eng.arming = none ∧
      t.eng.cisState = 4 ∧ t.eng.held = [] ∧ t.eng.detected = [] ∧ t.eng.fld R.SYS_STATUS_RESETCAUSE = 1 ∧ t.eng.flag R.SYS_STATUS_READY = false ∧ t.eng.role = 0 ∧ t.eng.pos = 0 ∧
      RegsReset t (onPages [0xA0, 0xA1, 0xA2, 0xD0, 0xD1]) ∧ t.eng.tb = s.eng.tb ∧ t.chip.tanks = s.chip.tanks ∧ t.pending = s.pending)) ∧
  (∀ (s : State) (port : Port) (key : BitVec 16), key ≠ 0xA5C3 → s.accepts port R.SYS_CTL (BitVec.ofNat 32 (4 + key.toNat * 2 ^ 16)) = true →
    Ends (exec (.sysReset port key) s) (fun t => Kept s t [] ∧ t.eng.answer = okAnswer port)) ∧
  (∀ s : State, s.eng.mgt.powered = true → s.eng.mgt.resetting = true →
    Ends (exec .sysResetComplete s) (fun t => t.eng.reachable = true ∧ Kept s t (if s.eng.cisState = 4 then (if s.eng.cis.full then trainRegs else [R.CIS_STATUS]) else []) ∧
      t.eng.cisState = (if s.eng.cisState = 4 then 1 else s.eng.cisState)))

/-- O14. R340, R357, R358, R448, R452: PERST_N low is recorded and holds until it rises; it and a hot reset disable the functions, clear the configuration space and, once the start-up after power-on is over, disarm the engine, put the cistern in self-refresh and return the decision path's pages to their reset values but for PAGE_LOCK and a locked page's frozen fields, with the cause in SYS.STATUS; the rise of PERST_N and the end of a hot reset take the cistern out of self-refresh; during the start-up they act on the host side only. A function level reset of function 0 stops the drains, disables the windows, event copying, MSI and MSI-X, ends HOLD and clears pending vectors, and leaves every page below 0x08, the cistern and the tanks alone; one of another function disables its MSI and MSI-X at the head. A function becomes ready with the positions then present. The model's choices it rests on: notes/assumptions/33, 35. -/
def Obligations.LinkResets : Prop :=
  (∀ (s : State) (k : Nat), s.eng.mgt.powered = true → s.eng.host.perst = false → s.eng.dammed = false →
    Ends (exec (.fundamentalReset k) s) (fun t => t.eng.host.perst = true ∧ t.eng.host.ready = false ∧ t.eng.host.cfg = [] ∧ t.eng.host.l0 = false ∧ t.eng.host.hold = false ∧
      t.eng.host.pending = 0 ∧ (∀ d : Fin 4, t.eng.drainSt d = 0) ∧ t.eng.tb = s.eng.tb ∧ t.chip.tanks = s.chip.tanks ∧ t.pending = s.pending ∧
      (s.eng.starting = true → t.eng.cisState = s.eng.cisState ∧ t.eng.armed = s.eng.armed ∧ t.chip.cistern = s.chip.cistern) ∧
      (s.eng.starting = false → t.eng.cisState = 4 ∧ t.eng.armed = false ∧ t.eng.arming = none ∧ t.eng.held = [] ∧ t.eng.fld R.SYS_STATUS_RESETCAUSE = 2 ∧
        RegsReset t (fun a => onPages [0xA0, 0xA1, 0xA2] a && a % 0x1000 != 0x0C && !bitAt (s.eng.reg (lockAddr (a / 0x1000))).toNat 0)))) ∧
  (∀ (s : State) (k : Nat), s.eng.mgt.powered = true → s.eng.host.perst = false → s.eng.dammed = true →
    Ends (exec (.fundamentalReset k) s) (fun t => t.eng.host.perst = true ∧ t.eng.host.ready = false ∧ t.eng.dammed = false ∧ t.eng.tb = s.eng.reg64 R.TB_DAM_TB_LO + 96 * BitVec.ofNat 64 k ∧
      t.chip.tanks = s.chip.tanks ∧ t.pending = s.pending)) ∧
  (∀ (s : State) (common : Bool), s.eng.host.perst = true →
    Ends (exec (.perstNDeassert common) s) (fun t => t.eng.host.perst = false ∧ t.eng.host.commonClk = common ∧
      t.eng.cisState = (if s.eng.cisState = 4 then 1 else s.eng.cisState) ∧
      Kept s t (if s.eng.cisState = 4 then (if s.eng.cis.full then trainRegs else [R.CIS_STATUS]) else []))) ∧
  (∀ (s : State) (k : Nat), s.eng.mgt.powered = true → s.eng.host.perst = false → s.eng.dammed = false →
    Ends (exec (.hotReset k) s) (fun t => t.eng.host.perst = false ∧ t.eng.host.ready = false ∧ t.eng.host.cfg = [] ∧ t.eng.host.l0 = false ∧ t.eng.host.hold = false ∧
      t.eng.host.pending = 0 ∧ (∀ d : Fin 4, t.eng.drainSt d = 0) ∧ t.eng.tb = s.eng.tb ∧ t.chip.tanks = s.chip.tanks ∧ t.pending = s.pending ∧
      (s.eng.starting = true → t.eng.cisState = s.eng.cisState ∧ t.eng.armed = s.eng.armed ∧ t.chip.cistern = s.chip.cistern) ∧
      (s.eng.starting = false → t.eng.cisState = 1 ∧ t.eng.armed = false ∧ t.eng.arming = none ∧ t.eng.held = [] ∧ t.eng.fld R.SYS_STATUS_RESETCAUSE = 3 ∧
        RegsReset t (fun a => onPages [0xA0, 0xA1, 0xA2] a && a % 0x1000 != 0x0C && !bitAt (s.eng.reg (lockAddr (a / 0x1000))).toNat 0)))) ∧
  (∀ s : State, s.eng.mgt.powered = true → s.eng.host.perst = false → s.eng.presented 0 = true →
    Ends (exec (.flr 0) s) (fun t => t.eng.host.hold = false ∧ t.eng.host.pending = 0 ∧ t.eng.host.evtPhase = true ∧ t.eng.flag R.EVT_CTL_EN = false ∧
      t.eng.fld R.EVT_HEAD_INDEX = 0 ∧ t.eng.fld R.EVT_TAIL_INDEX = 0 ∧ t.eng.msiOn = false ∧ t.eng.msixOn = false ∧ (∀ d : Fin 4, t.eng.drainSt d = 0) ∧
      (∀ w : Fin 16, t.eng.flag (R.WIN_CFG_EN w) = false) ∧ RegsKept s t (fun a => decide (a < 0xA0000) && !onPages [0x8] a) ∧ t.eng.tb = s.eng.tb ∧ MemKept s t)) ∧
  (∀ (s : State) (f : Fin 8), f ≠ 0 → s.eng.mgt.powered = true → s.eng.host.perst = false → s.eng.presented f.val = true →
    Ends (exec (.flr f) s) (fun t => (∀ o ∈ ([0x50, 0x54, 0x58, 0x5C, 0x60, 0xB0] : List Nat), t.eng.cfg f.val o = 0) ∧ Kept s t [])) ∧
  (∀ s : State, s.eng.mgt.powered = true → s.eng.host.perst = false → s.eng.host.ready = false →
    Ends (exec .functionReady s) (fun t => t.eng.host.ready = true ∧ t.eng.host.funnelSet = some (s.eng.fld R.RING_MEMBERS_PRESENT) ∧ Kept s t [])) ∧
  (∀ s : State, s.eng.host.ready = true → exec .functionReady s = .next s)

/-- O15. R18 and R19: a switch-over to the standby makes it the active PLL, leaves the failed PLL unlocked and REDUNDANT 0 until it relocks, counts, sets PAGE_STATUS and logs the class C entry 0x0101; TB does not step. A relock restores REDUNDANT; an attempt that fails changes nothing. -/
def Obligations.SwitchOverAndRelock : Prop :=
  (∀ s : State, s.eng.running = true → s.eng.flag R.CLK_STATUS_REDUNDANT = true →
    Ends (exec .headraceSwitchover s) (fun t => t.eng.flag R.CLK_STATUS_ACTIVE = !s.eng.flag R.CLK_STATUS_ACTIVE ∧ t.eng.flag R.CLK_STATUS_REDUNDANT = false ∧
      t.eng.flag (if s.eng.flag R.CLK_STATUS_ACTIVE then R.CLK_STATUS_LOCK_B else R.CLK_STATUS_LOCK_A) = false ∧
      t.eng.reg R.CLK_SWITCHCNT = satAdd (s.eng.reg R.CLK_SWITCHCNT) 1 ∧ bitAt (t.eng.reg (statusAddr 5)).toNat 0 = true ∧
      t.eng.detected = insertEntry ⟨s.eng.pclk, 5, 1, 0x0101, BitVec.ofNat 32 (!s.eng.flag R.CLK_STATUS_ACTIVE).toNat, tbOfCycle s.eng.cycle⟩ s.eng.detected ∧
      Kept s t [R.CLK_STATUS, R.CLK_SWITCHCNT, statusAddr 5])) ∧
  (∀ s : State, s.eng.running = true → s.eng.flag R.CLK_STATUS_REDUNDANT = false →
    Ends (exec (.pllRelockAttempt true) s) (fun t => t.eng.flag R.CLK_STATUS_REDUNDANT = true ∧ t.eng.flag R.CLK_STATUS_LOCK_A = true ∧ t.eng.flag R.CLK_STATUS_LOCK_B = true ∧
      bitAt (t.eng.reg (statusAddr 5)).toNat 3 = true ∧ Kept s t [R.CLK_STATUS, statusAddr 5])) ∧
  (∀ s : State, exec (.pllRelockAttempt false) s = .next s)

/-- O16. R19 and R20: without a standby the loss of the headrace stops the clocks and records TB in TB.DAM_TB, the engine is settled with cause 9 and no gate action stays queued; when a PLL relocks after `elapsed` reference cycles the clocks run again, it is the active one, and TB goes on at DAM_TB + 96 × elapsed, so that the next cycle has 16 more; the engine is disarmed, every segment EMPTY and the cistern in INIT. -/
def Obligations.HeadraceLossAndReturn : Prop :=
  (∀ s : State, s.eng.running = true → s.eng.flag R.CLK_STATUS_REDUNDANT = false →
    Ends (exec .headraceLost s) (fun t => t.eng.running = false ∧ t.eng.lost = true ∧ t.eng.reg64 R.TB_DAM_TB_LO = s.eng.tb ∧ t.eng.settled = true ∧
      bitAt (t.eng.fld R.SAFE_CAUSES_CAUSE) 8 = true ∧ t.eng.gateOrders = [] ∧ t.eng.gate.pulses = [] ∧
      t.eng.flag R.CLK_STATUS_LOCK_A = false ∧ t.eng.flag R.CLK_STATUS_LOCK_B = false ∧
      (s.eng.settled = false → t.eng.fld R.SAFE_STATUS_CAUSE = 9 ∧ t.eng.reg64 R.SAFE_SETTLE_TB_LO = s.eng.firstNotStored ∧ t.eng.reg R.SAFE_SETTLECNT = satAdd (s.eng.reg R.SAFE_SETTLECNT) 1) ∧
      Kept s t [R.TB_DAM_TB_LO, R.TB_DAM_TB_LO + 4, R.CLK_STATUS, R.SAFE_STATUS, R.SAFE_CAUSES, R.SAFE_SETTLECNT, R.SAFE_SETTLE_TB_LO, R.SAFE_SETTLE_TB_LO + 4, statusAddr 7])) ∧
  (∀ (s : State) (b : Bool) (elapsed : Nat), s.eng.lost = true → s.eng.mgt.stalled = [] →
    Ends (exec (.headraceResume b elapsed) s) (fun t => t.eng.running = true ∧ t.eng.lost = false ∧ t.eng.flag R.CLK_STATUS_ACTIVE = b ∧
      t.eng.flag (if b then R.CLK_STATUS_LOCK_B else R.CLK_STATUS_LOCK_A) = true ∧ t.eng.tb = s.eng.reg64 R.TB_DAM_TB_LO + 96 * BitVec.ofNat 64 elapsed ∧
      t.eng.reg64 R.TB_DAM_ELAPSED_LO = BitVec.ofNat 64 elapsed ∧ t.eng.flag R.TB_STATUS_DAMREC = true ∧ t.eng.armed = false ∧ t.eng.path.pipe = [] ∧
      (∀ g : Fin 256, t.eng.fld (R.SEG_STATUS_STATE g) = 0) ∧ t.eng.cisState = 0 ∧ t.chip.tanks = s.chip.tanks ∧ t.pending = s.pending)) ∧
  (∀ (s : State) (b : Bool) (elapsed : Nat), s.eng.lost = false → exec (.headraceResume b elapsed) s = .next { s with chip := s.chip.unstall })

/-- O17. R23: a lost reference other than the on-module oscillator takes a running headrace into holdover, which counts and logs the class C entry 0x0102; a return ends it; a write of REFSEL that selects another source stores it and ends it too. The model's choices it rests on: notes/assumptions/72. -/
def Obligations.References : Prop :=
  (∀ s : State, s.eng.running = true → s.eng.flag R.CLK_STATUS_HOLDOVER = false → s.eng.fld R.CLK_REFSEL_SRC ≠ 0 → s.eng.fld R.CLK_REFSEL_SRC ≠ 3 →
    Ends (exec .referenceLost s) (fun t => t.eng.flag R.CLK_STATUS_HOLDOVER = true ∧ t.eng.fld R.CLK_STATUS_INUSE = 0 ∧
      t.eng.detected = insertEntry ⟨s.eng.pclk, 5, 1, 0x0102, BitVec.ofNat 32 (s.eng.fld R.CLK_REFSEL_SRC), tbOfCycle s.eng.cycle⟩ s.eng.detected ∧
      Kept s t [R.CLK_STATUS, R.CLK_HOLDCNT, statusAddr 5])) ∧
  (∀ s : State, s.eng.running = true → s.eng.flag R.CLK_STATUS_HOLDOVER = true → s.eng.flag R.CLK_REFCTL_REVERT = true → s.eng.fld R.CLK_REFSEL_SRC ≠ 3 →
    Ends (exec .referenceRevert s) (fun t => t.eng.flag R.CLK_STATUS_HOLDOVER = false ∧ t.eng.fld R.CLK_STATUS_INUSE = s.eng.fld R.CLK_REFSEL_SRC ∧
      Kept s t [R.CLK_STATUS, statusAddr 5])) ∧
  (∀ (s : State) (port : Port) (v : Word), s.accepts port R.CLK_REFSEL v = true →
    Ends (exec (.refselWrite port v) s) (fun t => t.eng.fld R.CLK_REFSEL_SRC = bitsOf v.toNat 0 2 ∧ t.eng.answer = okAnswer port ∧
      (bitsOf v.toNat 0 2 ≠ s.eng.fld R.CLK_REFSEL_SRC → t.eng.flag R.CLK_STATUS_HOLDOVER = false ∧ t.eng.fld R.CLK_STATUS_INUSE = bitsOf v.toNat 0 2) ∧
      Kept s t [R.CLK_REFSEL, R.CLK_STATUS]))

/-! ## Intakes (R37 to R56) -/

/-- O18. R38, R39, R41, R42, R43, R44, R49: a threshold register takes the writable bits of the value; STATUS.ORDER_A says whether VTL of set A lies above VTH, both codes acting as at most 4000; a write of THRSEL while disarmed makes the set it names the one in force from the next CCLK cycle on, or from the cycle after that where a swap of the rota falls in the same cycle, and while armed it moves no set; a discordance window that ends restarts every count, and a line past its limit gets its XFAULT bit and one class U entry 0x0201 with the TB of the exceeding tick; a rota THRESH_SWAP whose instant has come leaves its queue, and the set it names is in force from its tick on. -/
def Obligations.Thresholds : Prop :=
  (∀ (s : State) (port : Port) (n : Fin 48) (v : Word), s.accepts port (R.INTK_THR_A n) v = true →
    Ends (exec (.thresholdWrite port n .a v) s) (fun t => t.eng.reg (R.INTK_THR_A n) = (s.eng.reg (R.INTK_THR_A n) &&& ~~~0x0FFF0FFF#32) ||| (v &&& 0x0FFF0FFF#32) ∧
      t.eng.flag (R.INTK_STATUS_ORDER_A n) = decide (min (bitsOf v.toNat 16 12) 4000 < min (bitsOf v.toNat 0 12) 4000) ∧ t.eng.answer = okAnswer port ∧
      Kept s t [R.INTK_THR_A n, R.INTK_STATUS n, R.INTK_CALSTAT n, statusAddr (0x10 + n)])) ∧
  (∀ (s : State) (port : Port) (n : Fin 48) (v : Word), s.accepts port (R.INTK_THR_B n) v = true →
    Ends (exec (.thresholdWrite port n .b v) s) (fun t => t.eng.reg (R.INTK_THR_B n) = (s.eng.reg (R.INTK_THR_B n) &&& ~~~0x0FFF0FFF#32) ||| (v &&& 0x0FFF0FFF#32) ∧
      t.eng.flag (R.INTK_STATUS_ORDER_B n) = decide (min (bitsOf v.toNat 16 12) 4000 < min (bitsOf v.toNat 0 12) 4000) ∧
      t.eng.answer = okAnswer port ∧ Kept s t [R.INTK_THR_B n, R.INTK_STATUS n, R.INTK_CALSTAT n, statusAddr (0x10 + n)])) ∧
  (∀ (s : State) (port : Port) (n : Fin 48) (v : Word), s.accepts port (R.INTK_CKTHR n) v = true →
    Ends (exec (.thresholdWrite port n .ck v) s) (fun t => t.eng.reg (R.INTK_CKTHR n) = (s.eng.reg (R.INTK_CKTHR n) &&& ~~~0x0FFF0FFF#32) ||| (v &&& 0x0FFF0FFF#32) ∧
      t.eng.answer = okAnswer port ∧ Kept s t [R.INTK_CKTHR n, R.INTK_STATUS n, R.INTK_CALSTAT n, statusAddr (0x10 + n)])) ∧
  (∀ (s : State) (port : Port) (n : Fin 48) (v : Word), s.accepts port (R.INTK_THRSEL n) v = true →
    Ends (exec (.thrselWrite port n v) s) (fun t => t.eng.flag (R.INTK_THRSEL_SET n) = bitAt v.toNat 0 ∧ t.eng.answer = okAnswer port ∧
      (s.eng.armed = true → t.eng.intake n = s.eng.intake n) ∧
      (s.eng.armed = false → n.val < s.eng.intakes.length → (s.eng.intake n).setChanges.all (fun c => decide (c.tick < s.eng.nextTick)) = true →
        (t.eng.intake n).lastSet = bitAt v.toNat 0 ∧ (t.eng.intake n).setAt s.eng.nextTick = bitAt v.toNat 0 ∧ t.eng.flag (R.INTK_STATUS_ACTIVE_SET n) = bitAt v.toNat 0) ∧
      (s.eng.armed = false → n.val < s.eng.intakes.length → (s.eng.intake n).setChanges.all (fun c => decide (c.tick < s.eng.nextTick + 16)) = true →
        (s.eng.intake n).setChanges.any (fun c => !c.byWrite && decide (s.eng.nextTick ≤ c.tick)) = true →
        (t.eng.intake n).lastSet = bitAt v.toNat 0 ∧ (t.eng.intake n).setAt (s.eng.nextTick + 15) = (s.eng.intake n).setAt (s.eng.nextTick + 15)) ∧
      Kept s t [R.INTK_THRSEL n, R.INTK_STATUS n, R.INTK_SWAP_TB_LO n, R.INTK_SWAP_TB_LO n + 4])) ∧
  (∀ s : State, s.eng.live = true → s.eng.nextCycle % 2 ^ 19 = 0 →
    Ends (exec .discordanceWindowEnd s) (fun t => (∀ i ∈ t.eng.intakes, i.xWindow = [] ∧ i.xDone = []) ∧ Kept s t [])) ∧
  (∀ s : State, s.eng.live = true → s.eng.nextCycle % 2 ^ 19 ≠ 0 → exec .discordanceWindowEnd s = .next s) ∧
  (∀ (s : State) (n line : Fin 48) (p : Nat × Tb), s.eng.live = true → n.val < s.eng.intakes.length → (s.eng.intake n).xOver.find? (fun q => q.1 == line.val) = some p →
    Ends (exec (.xlimitExceeded n line) s) (fun t => lineBit (t.eng.xfault n) line = true ∧
      t.eng.detected = insertEntry ⟨s.eng.pclk, 0x10 + n, 2, 0x0201, BitVec.ofNat 32 line, p.2⟩ s.eng.detected ∧
      Kept s t [R.INTK_XFAULT0 n, R.INTK_XFAULT1 n, statusAddr (0x10 + n)])) ∧
  (∀ (s : State) (n : Fin 48) (a : RotaAct), s.eng.live = true → n.val < s.eng.intakes.length → s.eng.actAt (16 + n) 7 = some a →
      (s.eng.intake n).setChanges.all (fun c => decide (c.tick < s.eng.nextTick)) = true →
      Ends (exec (.threshSwap n) s) (fun t => t.eng.rota.queue = s.eng.rota.queue.erase a ∧ (t.eng.intake n).lastSet = bitAt a.arg 0 ∧ t.eng.flag (R.INTK_STATUS_ACTIVE_SET n) = bitAt a.arg 0 ∧
        Kept s t [R.INTK_STATUS n, R.INTK_SWAP_TB_LO n, R.INTK_SWAP_TB_LO n + 4, R.INTK_CALSTAT n]))

/-- O19. R45, R53, R54, R55: a trim, hysteresis or clock mode write of a disarmed engine takes the writable bits and changes no other register; a GO with a legal setting clears the results and starts the measurement with the mode, reference and count written, and one with a setting that is refused sets REFUSED and starts nothing; a measurement that has its COUNT edges, or none for 2^20 CCLK (judged 7 CCLK later), ends with BUSY and GO clear and PAGE_STATUS.CAL_DONE set, the second with TIMEOUT. The model's choices it rests on: notes/assumptions/13, 85. -/
def Obligations.TrimsAndCalibration : Prop :=
  (∀ (s : State) (port : Port) (n : Fin 48) (which : TrimReg) (v : Word), s.eng.armed = false → s.eng.store.active = false →
      s.accepts port (match which with | .ctl => R.INTK_CTL n | .lcfg line => R.INTK_LCFG n line | .cktrim => R.INTK_CKTRIM n) v = true →
      Ends (exec (.trimWrite port n which v) s) (fun t =>
        t.eng.reg (match which with | .ctl => R.INTK_CTL n | .lcfg line => R.INTK_LCFG n line | .cktrim => R.INTK_CKTRIM n) =
          mergeRw (match which with | .ctl => R.INTK_CTL n | .lcfg line => R.INTK_LCFG n line | .cktrim => R.INTK_CKTRIM n)
            (s.eng.reg (match which with | .ctl => R.INTK_CTL n | .lcfg line => R.INTK_LCFG n line | .cktrim => R.INTK_CKTRIM n)) v ∧
        t.eng.answer = okAnswer port ∧
        Kept s t [match which with | .ctl => R.INTK_CTL n | .lcfg line => R.INTK_LCFG n line | .cktrim => R.INTK_CKTRIM n])) ∧
  (∀ (s : State) (port : Port) (n : Fin 48) (v : Word), s.accepts port (R.INTK_CAL n) (v ||| 0x100) = true → s.eng.armed = false → bitsOf v.toNat 0 2 = 1 ∨ bitsOf v.toNat 0 2 = 2 →
    bitsOf v.toNat 2 6 < 48 → bitsOf v.toNat 16 16 ≠ 0 → n.val < s.eng.intakes.length →
    Ends (exec (.calGo port n v) s) (fun t => t.eng.flag (R.INTK_CALSTAT_BUSY n) = true ∧ t.eng.flag (R.INTK_CALSTAT_REFUSED n) = false ∧ t.eng.fld (R.INTK_CALSTAT_DONE n) = 0 ∧
      (t.eng.intake n).calMode = bitsOf v.toNat 0 2 ∧ (t.eng.intake n).calRef = bitsOf v.toNat 2 6 ∧ (t.eng.intake n).calCount = bitsOf v.toNat 16 16 ∧ t.eng.flag (R.INTK_CAL_GO n) = true ∧
      (∀ x : Fin 48, t.eng.reg (R.INTK_CALSUM n x) = 0 ∧ t.eng.reg (R.INTK_CALMISS n x) = 0) ∧ t.eng.reg (R.INTK_CK0SUM n) = 0 ∧ t.eng.reg (R.INTK_CK1SUM n) = 0 ∧
      t.eng.reg (R.INTK_CKMISS n) = 0 ∧ t.eng.answer = okAnswer port ∧ RegsKept s t (fun a => !onPages [0x10 + n] a) ∧ t.eng.tb = s.eng.tb ∧ MemKept s t)) ∧
  (∀ (s : State) (port : Port) (n : Fin 48) (v : Word), s.accepts port (R.INTK_CAL n) (v ||| 0x100) = true →
    (bitsOf v.toNat 0 2 = 0 ∨ bitsOf v.toNat 0 2 = 3 ∨ 49 < bitsOf v.toNat 2 6 ∨ bitsOf v.toNat 16 16 = 0 ∨ bitsOf v.toNat 0 2 = 1 ∧ s.eng.armed = true) →
    Ends (exec (.calGo port n v) s) (fun t => t.eng.flag (R.INTK_CALSTAT_REFUSED n) = true ∧ t.eng.flag (R.INTK_CALSTAT_BUSY n) = s.eng.flag (R.INTK_CALSTAT_BUSY n) ∧
      t.eng.flag (R.INTK_CAL_GO n) = s.eng.flag (R.INTK_CALSTAT_BUSY n) ∧ t.eng.answer = okAnswer port ∧ Kept s t [R.INTK_CAL n, R.INTK_CALSTAT n])) ∧
  (∀ (s : State) (n : Fin 48), s.eng.live = true → s.eng.flag (R.INTK_CALSTAT_BUSY n) = true → (s.eng.intake n).calCount ≤ s.eng.fld (R.INTK_CALSTAT_DONE n) →
    Ends (exec (.calDone n) s) (fun t => t.eng.flag (R.INTK_CALSTAT_BUSY n) = false ∧ t.eng.flag (R.INTK_CAL_GO n) = false ∧ bitAt (t.eng.reg (statusAddr (0x10 + n))).toNat 2 = true ∧
      Kept s t [R.INTK_CALSTAT n, R.INTK_CAL n, statusAddr (0x10 + n)])) ∧
  (∀ (s : State) (n : Fin 48), s.eng.live = true → s.eng.flag (R.INTK_CALSTAT_BUSY n) = true → (s.eng.intake n).calLast + 2 ^ 20 + 7 ≤ s.eng.cc →
    Ends (exec (.calTimeout n) s) (fun t => t.eng.flag (R.INTK_CALSTAT_BUSY n) = false ∧ t.eng.flag (R.INTK_CAL_GO n) = false ∧ t.eng.flag (R.INTK_CALSTAT_TIMEOUT n) = true ∧
      bitAt (t.eng.reg (statusAddr (0x10 + n))).toNat 2 = true ∧ Kept s t [R.INTK_CALSTAT n, R.INTK_CAL n, statusAddr (0x10 + n)]))

/-! ## Reaches and gauges (R69 to R113) -/

/-- O20. R82, R84: a write of STREAM, STATECFG, CKDELAY or LINE[m] of a disarmed engine takes the writable bits; only STATECFG also moves STATUS.EDGE_INV. FLUSH takes its exponent at once. -/
def Obligations.ReachWrites : Prop :=
  (∀ (s : State) (port : Port) (n : Fin 48) (which : RuReg) (v : Word), s.eng.armed = false → s.eng.store.active = false →
    s.accepts port (match which with | .stream => R.RU_STREAM n | .statecfg => R.RU_STATECFG n | .ckdelay => R.RU_CKDELAY n | .line i => R.RU_LINE n i) v = true →
    Ends (exec (.ruConfigWrite port n which v) s) (fun t =>
      t.eng.reg (match which with | .stream => R.RU_STREAM n | .statecfg => R.RU_STATECFG n | .ckdelay => R.RU_CKDELAY n | .line i => R.RU_LINE n i) =
        mergeRw (match which with | .stream => R.RU_STREAM n | .statecfg => R.RU_STATECFG n | .ckdelay => R.RU_CKDELAY n | .line i => R.RU_LINE n i)
          (s.eng.reg (match which with | .stream => R.RU_STREAM n | .statecfg => R.RU_STATECFG n | .ckdelay => R.RU_CKDELAY n | .line i => R.RU_LINE n i)) v ∧
      t.eng.answer = okAnswer port ∧
      Kept s t [match which with | .stream => R.RU_STREAM n | .statecfg => R.RU_STATECFG n | .ckdelay => R.RU_CKDELAY n | .line i => R.RU_LINE n i, R.RU_STATUS n, statusAddr (0x40 + 2 * n)])) ∧
  (∀ (s : State) (port : Port) (n : Fin 48) (v : Word), s.accepts port (R.RU_FLUSH n) v = true →
    Ends (exec (.flushWrite port n v) s) (fun t => t.eng.fld (R.RU_FLUSH_EXP n) = bitsOf v.toNat (R.RU_FLUSH_EXP n).lo (R.RU_FLUSH_EXP n).width ∧ t.eng.answer = okAnswer port ∧
      Kept s t [R.RU_FLUSH n]))

/-- O21. R73, R74: a GO with a legal setting clears the bins' counts and starts the eye scan; a GO with a setting that is refused sets REFUSED and starts nothing; a scan that has its COUNT edges, or none for 2^20 CCLK, ends with BUSY and GO clear and PAGE_STATUS.EYE_DONE set, the second with TIMEOUT. The model's choices it rests on: notes/assumptions/135. -/
def Obligations.EyeScan : Prop :=
  (∀ (s : State) (port : Port) (n : Fin 48) (v : Word), s.accepts port (R.RU_EYECTL n) (v ||| 0x1000) = true →
    bitsOf v.toNat 0 6 < 48 → bitsOf v.toNat 8 2 < 2 → bitsOf v.toNat 16 16 ≠ 0 → s.eng.fld (R.RU_STATECFG_EDGE n) < 6 →
    s.eng.fld (R.INTK_CTL_CK0_MODE n) = 1 ∨ s.eng.fld (R.INTK_CTL_CK0_MODE n) = 2 → s.eng.fld (R.INTK_CTL_CK1_MODE n) = 1 ∨ s.eng.fld (R.INTK_CTL_CK1_MODE n) = 2 →
    Ends (exec (.eyeGo port n v) s) (fun t => t.eng.flag (R.RU_EYESTAT_BUSY n) = true ∧ t.eng.flag (R.RU_EYECTL_GO n) = true ∧ t.eng.flag (R.RU_EYESTAT_REFUSED n) = false ∧
      t.eng.fld (R.RU_EYESTAT_DONE n) = 0 ∧ t.eng.fld (R.RU_EYECTL_LINE n) = bitsOf v.toNat 0 6 ∧ t.eng.fld (R.RU_EYECTL_MODE n) = bitsOf v.toNat 8 2 ∧ t.eng.fld (R.RU_EYECTL_COUNT n) = bitsOf v.toNat 16 16 ∧
      (∀ o : Fin 64, t.eng.reg (R.RU_EYECNT n o) = 0) ∧ t.eng.answer = okAnswer port ∧ RegsKept s t (fun a => !onPages [0x40 + 2 * n] a) ∧ t.eng.tb = s.eng.tb ∧ MemKept s t)) ∧
  (∀ (s : State) (port : Port) (n : Fin 48) (v : Word), s.accepts port (R.RU_EYECTL n) (v ||| 0x1000) = true →
    (47 < bitsOf v.toNat 0 6 ∨ 2 ≤ bitsOf v.toNat 8 2 ∨ bitsOf v.toNat 16 16 = 0 ∨ 6 ≤ s.eng.fld (R.RU_STATECFG_EDGE n)) →
    Ends (exec (.eyeGo port n v) s) (fun t => t.eng.flag (R.RU_EYESTAT_REFUSED n) = true ∧ t.eng.flag (R.RU_EYESTAT_BUSY n) = s.eng.flag (R.RU_EYESTAT_BUSY n) ∧
      t.eng.flag (R.RU_EYECTL_GO n) = s.eng.flag (R.RU_EYESTAT_BUSY n) ∧ t.eng.answer = okAnswer port ∧ Kept s t [R.RU_EYECTL n, R.RU_EYESTAT n])) ∧
  (∀ (s : State) (n : Fin 48), s.eng.live = true → s.eng.flag (R.RU_EYESTAT_BUSY n) = true → s.eng.fld (R.RU_EYECTL_COUNT n) ≤ s.eng.fld (R.RU_EYESTAT_DONE n) →
    Ends (exec (.eyeDone n) s) (fun t => t.eng.flag (R.RU_EYESTAT_BUSY n) = false ∧ t.eng.flag (R.RU_EYECTL_GO n) = false ∧
      bitAt (t.eng.reg (statusAddr (0x40 + 2 * n))).toNat (R.E_RU_EYE_DONE n).bit = true ∧ Kept s t [R.RU_EYESTAT n, R.RU_EYECTL n, statusAddr (0x40 + 2 * n)])) ∧
  (∀ (s : State) (n : Fin 48), s.eng.live = true → s.eng.flag (R.RU_EYESTAT_BUSY n) = true → (s.eng.intake n).eyeLast + 2 ^ 20 ≤ s.eng.cc →
    Ends (exec (.eyeTimeout n) s) (fun t => t.eng.flag (R.RU_EYESTAT_BUSY n) = false ∧ t.eng.flag (R.RU_EYECTL_GO n) = false ∧ t.eng.flag (R.RU_EYESTAT_TIMEOUT n) = true ∧
      bitAt (t.eng.reg (statusAddr (0x40 + 2 * n))).toNat (R.E_RU_EYE_DONE n).bit = true ∧ Kept s t [R.RU_EYESTAT n, R.RU_EYECTL n, statusAddr (0x40 + 2 * n)]))

/-- O22. R78 and R79: a pack at its capacity closes with code 0, and an open pack whose first item is 2^EXP CCLK old (EXP at least 10) closes with code 6; a pack that closes enters a stream FIFO with room under its sequence number, which moves on by one. -/
def Obligations.PacksClose : Prop :=
  (∀ (s : State) (n : Fin 48) (p : OpenPack), s.eng.live = true → (s.eng.sto n).pack = some p → packCapacity p.type ≤ p.items.length →
    exec (.packFull n) s = .next { s with chip := { s.chip with eng := s.eng.packClose n 0 } }) ∧
  (∀ (s : State) (n : Fin 48) (p : OpenPack), s.eng.live = true → (s.eng.sto n).pack = some p → s.eng.fld (R.RU_FLUSH_EXP n) ≠ 0 →
    p.since + 2 ^ (max 10 (s.eng.fld (R.RU_FLUSH_EXP n))) ≤ s.eng.store.gated + 1 →
    exec (.packFlush n) s = .next { s with chip := { s.chip with eng := s.eng.packClose n 6 } }) ∧
  (∀ (s : State) (n : Fin 48) (p : OpenPack), s.eng.live = true → 128 ≤ (s.eng.sto n).fifo.length → (s.eng.sto n).pack = some p → packCapacity p.type ≤ p.items.length → n.val < s.eng.store.intakes.length → (s.eng.sto n).lostEnd = none →
    Ends (exec (.packDiscard n) s) (fun t => (t.eng.sto n).pack = none ∧ (t.eng.sto n).fifo = (s.eng.sto n).fifo ∧ (t.eng.sto n).lost.isSome = true ∧
      t.eng.reg (R.WEIR_GAPCNT n) = BitVec.ofNat 32 (min ((s.eng.reg (R.WEIR_GAPCNT n)).toNat + 1) 0xFFFFFFFF) ∧
      Kept s t [R.WEIR_GAPCNT n, R.RU_STATUS n, R.RU_FIFO_PEAK n])) ∧
  (∀ (m : Engine) (n : Fin 48) (close : Nat) (p : OpenPack), (m.sto n).pack = some p → (m.sto n).fifo.length < 128 → n.val < m.store.intakes.length →
    ((m.packClose n close).sto n).pack = none ∧ ((m.packClose n close).sto n).seq = (m.sto n).seq + 1 ∧
    ((m.packClose n close).sto n).fifo = (m.sto n).fifo ++ [⟨m.packSlot n (m.sto n).seq, p.image n close m.segGen⟩] ∧
    (m.packClose n close).reg64 (R.RU_PACKS_LO n) = m.reg64 (R.RU_PACKS_LO n) + 1)

/-- O23. R100, R103, R110, R113: the oldest long hit, or expiry, that waits is taken from its list and counted and recorded with its tick; a write of a gauge configuration register, in the bank that CTL.BANKSEL names, takes the writable bits; a write of a counter's low word clears its high word, and either clears STATUS.SAT of the gauge. -/
def Obligations.Gauges : Prop :=
  (∀ (s : State) (n : Fin 48) (g : Fin 4) (x : Tb) (l : List Tb), s.eng.live = true → (s.eng.timed n g).longDue = x :: l →
    exec (.widthLongHit n g) s = .next { s with chip := { s.chip with eng := (s.eng.setTimed n g { s.eng.timed n g with longDue := l }).decisionHit n g (s.eng.dueCycle x) x } }) ∧
  (∀ (s : State) (n : Fin 48) (g : Fin 4) (x : Tb) (l : List Tb), s.eng.live = true → (s.eng.timed n g).expiryDue = x :: l →
    exec (.timeoutExpiry n g) s = .next { s with chip := { s.chip with eng := (s.eng.setTimed n g { s.eng.timed n g with expiryDue := l }).decisionHit n g (s.eng.dueCycle x) x } }) ∧
  (∀ (s : State) (n : Fin 48) (g : Fin 4), (s.eng.timed n g).longDue = [] → exec (.widthLongHit n g) s = .next s) ∧
  (∀ (s : State) (port : Port) (n : Fin 48) (off : BitVec 10) (v : Word) (h : RegHit), decodeReg (0x41000 + 0x2000 * n.val + 4 * off.toNat) = some h → 0x100 ≤ h.off →
    s.accepts port (0x41000 + 0x2000 * n.val + 4 * off.toNat) v = true →
    Ends (exec (.gaugeConfigWrite port n off v) s) (fun t =>
      t.eng.reg (s.eng.keyOf h (0x41000 + 0x2000 * n.val + 4 * off.toNat)) =
        (s.eng.reg (s.eng.keyOf h (0x41000 + 0x2000 * n.val + 4 * off.toNat)) &&& ~~~BitVec.ofNat 32 (h.row.rw ||| h.row.rwh)) ||| (v &&& BitVec.ofNat 32 (h.row.rw ||| h.row.rwh)) ∧
      t.eng.answer = okAnswer port ∧ Kept s t [s.eng.keyOf h (0x41000 + 0x2000 * n.val + 4 * off.toNat)])) ∧
  (∀ (s : State) (port : Port) (n : Fin 48) (g : Fin 4) (v : Word), s.accepts port (R.RUG_CNT_LO n g) v = true →
    Ends (exec (.gaugeCounterWrite port n g false v) s) (fun t => t.eng.reg (R.RUG_CNT_LO n g) = v ∧ t.eng.reg (R.RUG_CNT_HI n g) = 0 ∧
      bitAt (t.eng.reg (R.RUG_STATUS n)).toNat (16 + g) = false ∧ t.eng.answer = okAnswer port ∧ Kept s t [R.RUG_CNT_LO n g, R.RUG_CNT_HI n g, R.RUG_STATUS n])) ∧
  (∀ (s : State) (port : Port) (n : Fin 48) (g : Fin 4) (v : Word), s.accepts port (R.RUG_CNT_HI n g) v = true →
    Ends (exec (.gaugeCounterWrite port n g true v) s) (fun t => t.eng.fld ⟨R.RUG_CNT_HI n g, 0, 16⟩ = bitsOf v.toNat 0 16 ∧ t.eng.reg (R.RUG_CNT_LO n g) = s.eng.reg (R.RUG_CNT_LO n g) ∧
      bitAt (t.eng.reg (R.RUG_STATUS n)).toNat (16 + g) = false ∧ t.eng.answer = okAnswer port ∧ Kept s t [R.RUG_CNT_HI n g, R.RUG_STATUS n]))

/-! ## The confluence and the sluice (R117 to R151) -/

/-- O24. R132, R133, R135, R136, R137, R138, R143, R145: the step of the oldest sample cycle that waits for it takes the table entry of its event class and the level held. The next level is the entry's NEXT, or the level of a jump; the level counters take the entry's operations, or 0 by a jump's clear; the dwell timer restarts on a change and counts otherwise; the context of the next level goes to every reach; with TRIG it counts a trigger and records its TB, that of the sample cycle and its position tick; with IRQ an entry joins the queue that has room; with GATEACT an order goes to the gates 52 CCLK and the lag after the sample cycle. No other register changes but those of the SLU page, the contexts and the tanks' error counts. A cycle whose steps are not taken leaves level and counters, but for a jump of its own. With an uncorrectable table word the step goes on with an open word, and a cause of settling with code 3 and the tank's place in the set is detected. The model's choices it rests on: notes/assumptions/10, 14, 84, 126, 143. -/
def Obligations.SluiceStep : Prop :=
  (∀ (s : State) (e : PipeEntry) (ecc : Ecc) (c : ConfOut) (l ent : Nat), s.eng.live = true → s.eng.stepDue = some e → s.eng.stepsFor e.phys = true → ecc ≠ .double →
    c = s.eng.confluence s.chip.tanks e → l = s.eng.fld R.SLU_STATUS_LEVEL → ent = s.eng.sluEntry s.chip.tanks (s.eng.setAt e.phys) c.e l →
    Ends (exec (.sluiceStep ecc) s) (fun t =>
      t.eng.fld R.SLU_STATUS_LEVEL = nextLevel (s.eng.path.jumpAt e.phys) ent % 1024 ∧ t.eng.flag R.SLU_STATUS_STEPPING = true ∧
      t.eng.reg64 R.SLU_CTRA_LO = (if ((s.eng.path.jumpAt e.phys).map (·.clrA)).getD false then 0
        else BitVec.ofNat 64 (ctrOp (s.eng.flag R.SLU_CTL_CTRA_SAT) (s.eng.reg64 R.SLU_CTRA_LO).toNat (bitsOf ent 17 2)).1) ∧
      t.eng.reg64 R.SLU_CTRB_LO = (if ((s.eng.path.jumpAt e.phys).map (·.clrB)).getD false then 0
        else BitVec.ofNat 64 (ctrOp (s.eng.flag R.SLU_CTL_CTRB_SAT) (s.eng.reg64 R.SLU_CTRB_LO).toNat (bitsOf ent 19 2)).1) ∧
      t.eng.reg64 R.SLU_DWELLNOW_LO = (if (s.eng.path.jumpAt e.phys).isSome ∨ bitsOf ent 0 10 ≠ l ∨ s.eng.setAt (e.phys - 1) ≠ s.eng.setAt e.phys then 0
        else BitVec.ofNat 64 (min ((s.eng.reg64 R.SLU_DWELLNOW_LO).toNat + 1) (2 ^ 48 - 1))) ∧
      (∀ n : Fin 48, t.eng.fld (R.RU_CONTEXT_CTX n) = bitsOf (s.eng.levelAttr s.chip.tanks (s.eng.setAt e.phys) (nextLevel (s.eng.path.jumpAt e.phys) ent)) 48 4) ∧
      (bitAt ent 10 = true → t.eng.reg R.SLU_TRIGCNT = satAdd (s.eng.reg R.SLU_TRIGCNT) 1 ∧ t.eng.hasBit R.E_SLU_TRIG = true ∧
        t.eng.reg64 R.SLU_LASTTRIG_TB_LO = e.tb + BitVec.ofNat 64 (position (bitsOf ent 11 6) e.outs c).1) ∧
      (bitAt ent 10 = false → t.eng.reg R.SLU_TRIGCNT = s.eng.reg R.SLU_TRIGCNT ∧ t.eng.reg64 R.SLU_LASTTRIG_TB_LO = s.eng.reg64 R.SLU_LASTTRIG_TB_LO) ∧
      (bitAt ent 31 = true → s.eng.path.irqQueue.length < 16 → t.eng.hasBit R.E_SLU_IRQ = true ∧
        t.eng.path.irqQueue = s.eng.path.irqQueue ++ [(s.eng.cc + 1, e.tb + BitVec.ofNat 64 (position (bitsOf ent 11 6) e.outs c).1, l + c.e * 2 ^ 16 + (bitAt ent 10).toNat * 2 ^ 24)]) ∧
      t.eng.gateOrders = s.eng.gateOrders ++ (if bitsOf ent 21 5 = 0 then [] else
        [gateOrderOf (s.eng.gateEntry s.chip.tanks (s.eng.setAt e.phys) (bitsOf ent 21 5)) e.tb s.eng.lag (position (bitsOf ent 11 6) e.outs c).1]) ∧
      (∀ f ∈ t.eng.path.pipe, f.phys = e.phys → f.stepped = true) ∧ Kept s t (sluiceRegs c.e l ++ tankEccRegs))) ∧
  (∀ (s : State) (e : PipeEntry) (ecc : Ecc), s.eng.live = true → s.eng.stepDue = some e → s.eng.stepsFor e.phys = false → s.eng.path.jumpAt e.phys = none →
    Ends (exec (.sluiceStep ecc) s) (fun t => (∀ f ∈ t.eng.path.pipe, f.phys = e.phys → f.stepped = true) ∧ t.eng.flag R.SLU_STATUS_STEPPING = false ∧
      t.eng.fld R.SLU_STATUS_LEVEL = s.eng.fld R.SLU_STATUS_LEVEL ∧ Kept s t (R.SLU_STATUS :: tankEccRegs))) ∧
  (∀ (s : State) (e : PipeEntry) (ecc : Ecc) (j : Jump), s.eng.live = true → s.eng.stepDue = some e → s.eng.stepsFor e.phys = false → s.eng.path.jumpAt e.phys = some j →
    Ends (exec (.sluiceStep ecc) s) (fun t => (∀ f ∈ t.eng.path.pipe, f.phys = e.phys → f.stepped = true) ∧ t.eng.flag R.SLU_STATUS_STEPPING = false ∧
      t.eng.fld R.SLU_STATUS_LEVEL = j.level % 1024 ∧ t.eng.reg64 R.SLU_DWELLNOW_LO = 0 ∧ t.eng.hasBit R.E_SLU_JUMP = true ∧
      t.eng.reg64 R.SLU_CTRA_LO = (if j.clrA then 0 else s.eng.reg64 R.SLU_CTRA_LO) ∧ t.eng.reg64 R.SLU_CTRB_LO = (if j.clrB then 0 else s.eng.reg64 R.SLU_CTRB_LO) ∧
      (∀ n : Fin 48, t.eng.fld (R.RU_CONTEXT_CTX n) = bitsOf (s.eng.levelAttr s.chip.tanks (s.eng.setAt e.phys) j.level) 48 4) ∧
      Kept s t ([R.SLU_STATUS, R.SLU_CTRA_LO, R.SLU_CTRA_HI, R.SLU_CTRB_LO, R.SLU_CTRB_HI, R.SLU_DWELLNOW_LO, R.SLU_DWELLNOW_HI, statusAddr 0xA1] ++ (List.range 48).map R.RU_CONTEXT ++ tankEccRegs))) ∧
  (∀ (s : State) (e : PipeEntry) (k : Nat), s.eng.live = true → s.eng.stepDue = some e → s.eng.stepsFor e.phys = true → s.eng.tank.errs = [] →
    k = s.eng.setBaseTank (s.eng.setAt e.phys) + 6 + (s.eng.confluence s.chip.tanks e).e / 64 → s.eng.tankReadable k = true →
    Ends (exec (.sluiceStep .double) s) (fun t =>
      (⟨3, 6 + (s.eng.confluence s.chip.tanks e).e / 64 + 16 * (s.eng.setAt e.phys).toNat, 0xA0⟩ : Cause) ∈ t.eng.causes ∧
      t.eng.reg (R.TANK_UE k) = satAdd (s.eng.reg (R.TANK_UE k)) 1 ∧ t.eng.hasBit R.E_TANK_UE = true ∧
      t.eng.reg R.TANK_LASTUE = BitVec.ofNat 32 (((s.eng.confluence s.chip.tanks e).e % 64 * 1024 + s.eng.fld R.SLU_STATUS_LEVEL) / 2 + k * 2 ^ 16) ∧
      (∀ f ∈ t.eng.path.pipe, f.phys = e.phys → f.stepped = true) ∧ t.eng.tb = s.eng.tb ∧ MemKept s t)) ∧
  (∀ (s : State) (ecc : Ecc), s.eng.live = true → s.eng.stepDue = none → exec (.sluiceStep ecc) s = .next s)

/-- O25. R123, R133, R137, R143, R151: a level counter takes a written value; the oldest IRQ entry, from the cycle after its step on, passes into the log, at most one in a PCLK cycle; a jump and an event of the rota join those of the sample cycle about to be captured; a snapshot gets its target, is LATE at once where the cycle named has passed C1, and takes its cycle's values once that has passed the confluence. The model's choices it rests on: notes/assumptions/3, 86. -/
def Obligations.SluiceInputsAndSnapshots : Prop :=
  (∀ (s : State) (port : Port) (b : Bool) (v : Word), s.accepts port (if b then R.SLU_CTRB_LO else R.SLU_CTRA_LO) v = true →
    Ends (exec (.levelCounterWrite port b false v) s) (fun t => t.eng.reg (if b then R.SLU_CTRB_LO else R.SLU_CTRA_LO) = v ∧ t.eng.answer = okAnswer port ∧
      Kept s t [if b then R.SLU_CTRB_LO else R.SLU_CTRA_LO])) ∧
  (∀ (s : State) (port : Port) (b : Bool) (v : Word), s.accepts port (if b then R.SLU_CTRB_HI else R.SLU_CTRA_HI) v = true →
    Ends (exec (.levelCounterWrite port b true v) s) (fun t => t.eng.fld (if b then R.SLU_CTRB_HI_COUNT else R.SLU_CTRA_HI_COUNT) = v.toNat % 2 ^ 16 ∧ t.eng.answer = okAnswer port ∧
      Kept s t [if b then R.SLU_CTRB_HI else R.SLU_CTRA_HI])) ∧
  (∀ (s : State) (since : Nat) (u : Tb) (d : Nat) (l : List (Nat × Tb × Nat)), s.eng.live = true → s.eng.path.irqQueue = (since, u, d) :: l → s.eng.path.irqAt ≠ some s.eng.pclk → since ≤ s.eng.cc →
    Ends (exec .sluIrq s) (fun t => t.eng.path.irqQueue = l ∧ t.eng.detected = insertEntry ⟨s.eng.pclk, 0xA1, 0, 0x0002, BitVec.ofNat 32 d, u⟩ s.eng.detected ∧ Kept s t [])) ∧
  (∀ s : State, s.eng.live = true → (s.eng.path.irqAt = some s.eng.pclk ∨ s.eng.path.irqQueue = []) → exec .sluIrq s = .next s) ∧
  (∀ (s : State) (a : RotaAct), s.eng.live = true → s.eng.actAt 2 8 = some a →
    Ends (exec .sluiceJump s) (fun t => t.eng.rota.queue = s.eng.rota.queue.erase a ∧
      t.eng.path.jumps = s.eng.path.jumps ++ [⟨s.eng.cc + 1, bitsOf a.arg 0 10, bitAt a.arg 16, bitAt a.arg 17⟩] ∧ Kept s t [])) ∧
  (∀ (s : State) (a : RotaAct), s.eng.live = true → s.eng.actAt 2 9 = some a →
    Ends (exec .event s) (fun t => t.eng.rota.queue = s.eng.rota.queue.erase a ∧
      t.eng.path.revActs = s.eng.path.revActs ++ (if bitsOf a.arg 0 2 = 3 then [] else [⟨s.eng.cc + 1, a.target, bitsOf a.arg 0 2⟩]) ∧ Kept s t [])) ∧
  (∀ (s : State) (port : Port), s.accepts port R.CONF_SNAPCTL 1 = true →
    Ends (exec (.snapshotGo port false) s) (fun t => t.eng.flag R.CONF_SNAPCTL_GO = true ∧ t.eng.flag R.CONF_SNAPCTL_DONE = false ∧ t.eng.flag R.CONF_SNAPCTL_LATE = false ∧
      t.eng.path.snapPhys = some (s.eng.cc - (14 + s.eng.lag)) ∧ t.eng.answer = okAnswer port ∧ Kept s t [R.CONF_SNAPCTL])) ∧
  (∀ (s : State) (port : Port), s.accepts port R.CONF_SNAPCTL 3 = true →
      cycleOf (nth s.eng.path.tbHist (14 + s.eng.lag) (tbOfCycle (s.eng.cycle - (14 + s.eng.lag)))) ≤ cycleOf (s.eng.reg64 R.CONF_SNAP_TB_LO) →
    Ends (exec (.snapshotGo port true) s) (fun t => t.eng.flag R.CONF_SNAPCTL_GO = true ∧ t.eng.flag R.CONF_SNAPCTL_DONE = false ∧ t.eng.flag R.CONF_SNAPCTL_LATE = false ∧
      t.eng.path.snapPhys = none ∧ t.eng.path.snapTarget = cycleOf (s.eng.reg64 R.CONF_SNAP_TB_LO) ∧ t.eng.answer = okAnswer port ∧ Kept s t [R.CONF_SNAPCTL])) ∧
  (∀ (s : State) (port : Port), s.accepts port R.CONF_SNAPCTL 3 = true →
      cycleOf (s.eng.reg64 R.CONF_SNAP_TB_LO) < cycleOf (nth s.eng.path.tbHist (14 + s.eng.lag) (tbOfCycle (s.eng.cycle - (14 + s.eng.lag)))) →
    Ends (exec (.snapshotGo port true) s) (fun t => t.eng.flag R.CONF_SNAPCTL_GO = false ∧ t.eng.flag R.CONF_SNAPCTL_LATE = true ∧ t.eng.hasBit R.E_CONF_SNAP_DONE = true ∧
      t.eng.answer = okAnswer port ∧ Kept s t [R.CONF_SNAPCTL, statusAddr 0xA0])) ∧
  (∀ (s : State) (e : PipeEntry), s.eng.live = true → s.eng.flag R.CONF_SNAPCTL_GO = true →
    s.eng.path.pipe.find? s.eng.path.snapMatch = some e →
    Ends (exec .snapshotTaken s) (fun t => t.eng.flag R.CONF_SNAPCTL_GO = false ∧ t.eng.flag R.CONF_SNAPCTL_DONE = true ∧ t.eng.hasBit R.E_CONF_SNAP_DONE = true ∧
      (∀ k : Fin 3, t.eng.reg (R.CONF_SNAPC1 k) = packBytes (e.conf.getD {}).c1 (4 * k)) ∧ (∀ k : Fin 2, t.eng.reg (R.CONF_SNAPC2 k) = packBytes (e.conf.getD {}).c2 (4 * k)) ∧
      t.eng.reg R.CONF_SNAPC3 = packBytes (e.conf.getD {}).c3 0 ∧ t.eng.reg R.CONF_SNAPPOS = BitVec.ofNat 32 ((e.conf.getD {}).xTick + 16 * (e.conf.getD {}).xValid.toNat) ∧
      t.eng.reg R.CONF_SNAPC45 = packBytes [(e.conf.getD {}).c4a, (e.conf.getD {}).c4b, (e.conf.getD {}).x, (e.conf.getD {}).e] 0 ∧
      Kept s t ([R.CONF_SNAPCTL, statusAddr 0xA0, R.CONF_SNAPC3, R.CONF_SNAPC45, R.CONF_SNAPPOS] ++ (List.range 6).map R.CONF_SNAPRC ++ (List.range 3).map R.CONF_SNAPC1 ++
        (List.range 2).map R.CONF_SNAPC2)))

/-- O26. R141, R142, R144, R145, R150: a TABLE_SWAP to a verified set, or of a disarmed engine, puts it in force for the sample cycles from the next on, with the jump it asks for, and a SETSEL write of the same cycle follows one cycle later; one to an unverified set while armed bars every step from the first sample cycle it meets on and makes a cause due 31 CCLK and the lag after it. SETSEL acts at once only while disarmed. A changed BASE and a written SETCRC clear the set's VER, and a SETCRC write starts the set's verification. A verification ends with VER or FAIL. While armed a set in force that no longer matches is a cause of settling, shown by FAIL, FAILTANK and CRC_FAIL; while disarmed no pass runs. The model's choices it rests on: notes/assumptions/84. -/
def Obligations.TableSets : Prop :=
  (∀ (s : State) (a : RotaAct), s.eng.live = true → s.eng.actAt 2 0xA = some a → (s.eng.armedAt (s.eng.cc + 1) && !s.eng.verified (bitAt a.arg 0)) = false →
    Ends (exec .tableSwap s) (fun t => t.eng.rota.queue = s.eng.rota.queue.erase a ∧ t.eng.setAt (s.eng.cc + 1) = bitAt a.arg 0 ∧ t.eng.path.stepBar = s.eng.path.stepBar ∧
      t.eng.flag R.CONF_STATUS_INFORCE = (if s.eng.path.selAt = some (s.eng.cc + 1) ∧ s.eng.armedAt (s.eng.cc + 1) = false then s.eng.flag R.CONF_SETSEL_SET else bitAt a.arg 0) ∧
      t.eng.path.jumps = s.eng.path.jumps ++ (if bitAt a.arg 31 then [⟨s.eng.cc + 1, bitsOf a.arg 16 10, false, false⟩] else []) ∧ Kept s t [R.CONF_STATUS, statusAddr 0xA0])) ∧
  (∀ (s : State) (a : RotaAct), s.eng.live = true → s.eng.actAt 2 0xA = some a → (s.eng.armedAt (s.eng.cc + 1) && !s.eng.verified (bitAt a.arg 0)) = true →
    Ends (exec .tableSwap s) (fun t => t.eng.rota.queue = s.eng.rota.queue.erase a ∧ t.eng.stepsFor (s.eng.cc + 1) = false ∧
      t.eng.path.stepBar = some (match s.eng.path.stepBar with | none => s.eng.cc + 1 | some b => min b (s.eng.cc + 1)) ∧
      t.eng.path.dueCauses = s.eng.path.dueCauses ++ [(s.eng.cc + 32 + s.eng.lag, 3, s.eng.fld R.CONF_STATUS_FAILTANK + 16 * (bitAt a.arg 0).toNat)] ∧ Kept s t [])) ∧
  (∀ (s : State) (port : Port) (v : Word), s.accepts port R.CONF_SETSEL v = true →
    Ends (exec (.setselWrite port v) s) (fun t => t.eng.flag R.CONF_SETSEL_SET = bitAt v.toNat 0 ∧ t.eng.answer = okAnswer port ∧
      t.eng.flag R.CONF_STATUS_INFORCE = (if s.eng.armed then s.eng.flag R.CONF_STATUS_INFORCE else bitAt v.toNat 0) ∧
      (s.eng.armed = false → t.eng.setAt (if s.eng.path.swapAt = some (s.eng.cc + 1) then s.eng.cc + 2 else s.eng.cc + 1) = bitAt v.toNat 0) ∧ Kept s t [R.CONF_SETSEL, R.CONF_STATUS, statusAddr 0xA0])) ∧
  (∀ (s : State) (port : Port) (v : Word), s.eng.armed = false → s.eng.store.active = false → s.accepts port R.CONF_TSET v = true →
    Ends (exec (.tsetWrite port v) s) (fun t => t.eng.fld R.CONF_TSET_BASE_A = bitsOf v.toNat 0 6 ∧ t.eng.fld R.CONF_TSET_BASE_B = bitsOf v.toNat 8 6 ∧
      t.eng.flag R.CONF_STATUS_VER_A = (s.eng.flag R.CONF_STATUS_VER_A && s.eng.fld R.CONF_TSET_BASE_A == bitsOf v.toNat 0 6) ∧
      t.eng.flag R.CONF_STATUS_VER_B = (s.eng.flag R.CONF_STATUS_VER_B && s.eng.fld R.CONF_TSET_BASE_B == bitsOf v.toNat 8 6) ∧
      t.eng.answer = okAnswer port ∧ Kept s t [R.CONF_TSET, R.CONF_STATUS])) ∧
  (∀ (s : State) (port : Port) (b : Bool) (k : Fin 11) (v : Word), s.eng.armed = false → s.eng.store.active = false → s.eng.path.verifying = none →
    s.accepts port (if b then R.CONF_SETCRC_B k else R.CONF_SETCRC_A k) v = true →
    Ends (exec (.setcrcWrite port b k v) s) (fun t => t.eng.reg (if b then R.CONF_SETCRC_B k else R.CONF_SETCRC_A k) = v ∧ t.eng.verified b = false ∧
      t.eng.path.verifying = some b ∧ t.eng.flag R.CONF_STATUS_BUSY = true ∧ t.eng.answer = okAnswer port ∧
      Kept s t [if b then R.CONF_SETCRC_B k else R.CONF_SETCRC_A k, R.CONF_STATUS, R.CONF_VERIFY])) ∧
  (∀ (s : State) (port : Port) (b : Bool), s.eng.path.verifying = none → s.accepts port R.CONF_VERIFY (if b then 3 else 1) = true →
    Ends (exec (.verifyGo port b) s) (fun t => t.eng.path.verifying = some b ∧ t.eng.flag R.CONF_STATUS_BUSY = true ∧ t.eng.flag R.CONF_VERIFY_GO = true ∧ t.eng.answer = okAnswer port ∧
      Kept s t [R.CONF_VERIFY, R.CONF_STATUS])) ∧
  (∀ (s : State) (port : Port) (b r : Bool), s.eng.path.verifying = some r → s.accepts port R.CONF_VERIFY (if b then 3 else 1) = true →
    Ends (exec (.verifyGo port b) s) (fun t => t.eng.path.verifying = some r ∧ t.eng.path.verifyWaits = (if r = b then s.eng.path.verifyWaits else some b) ∧ t.eng.answer = okAnswer port ∧
      Kept s t [R.CONF_VERIFY])) ∧
  (∀ (s : State) (b : Bool), s.eng.live = true → s.eng.path.verifying = some b → s.eng.path.verifyWaits = none →
    Ends (exec .verifyDone s) (fun t => t.eng.verified b = (s.eng.setPass s.chip.tanks b).2.isNone ∧
      t.eng.flag (if b then R.CONF_STATUS_FAIL_B else R.CONF_STATUS_FAIL_A) = (s.eng.setPass s.chip.tanks b).2.isSome ∧
      (s.eng.tank.errs = [] → (s.eng.setPass s.chip.tanks b).2 = s.eng.badTableTank s.chip.tanks b) ∧
      (∀ k ∈ (s.eng.setPass s.chip.tanks b).2, t.eng.fld R.CONF_STATUS_FAILTANK = k % 16 ∧ t.eng.hasBit R.E_CONF_CRC_FAIL = true) ∧
      t.eng.flag R.CONF_STATUS_BUSY = false ∧ t.eng.flag R.CONF_VERIFY_GO = false ∧ t.eng.path.verifying = none ∧ t.eng.hasBit R.E_CONF_VERIFY_DONE = true ∧
      Kept s t ([R.CONF_STATUS, R.CONF_VERIFY, statusAddr 0xA0] ++ tankEccRegs))) ∧
  (∀ s : State, s.eng.live = true → s.eng.armed = true →
    Ends (exec .crcBackgroundPass s) (fun t =>
      t.eng.causes = s.eng.causes ++ (match (s.eng.setPass s.chip.tanks (s.eng.setAt s.eng.cc)).2 with | none => [] | some k => [⟨3, k + 16 * (s.eng.setAt s.eng.cc).toNat, 0xA0⟩]) ∧
      (∀ k ∈ (s.eng.setPass s.chip.tanks (s.eng.setAt s.eng.cc)).2, t.eng.flag (if s.eng.setAt s.eng.cc then R.CONF_STATUS_FAIL_B else R.CONF_STATUS_FAIL_A) = true ∧ t.eng.hasBit R.E_CONF_CRC_FAIL = true) ∧
      t.eng.verified (s.eng.setAt s.eng.cc) = s.eng.verified (s.eng.setAt s.eng.cc) ∧ Kept s t ([R.CONF_STATUS, statusAddr 0xA0] ++ tankEccRegs))) ∧
  (∀ s : State, s.eng.live = true → s.eng.armed = false → exec .crcBackgroundPass s = .next s)

/-! ## Arming, the timebase and the rota (R14, R139, R169 to R186, R455) -/

/-- O27. R14, R31, R82, R83, R165, R455, R456: an ARM of a settled engine is refused with reason 14; one that waits for the cistern reads ARMING, takes the STREAM registers as they stand and changes nothing else; with the cistern READY, the table set verified and owned, and budget and plan in order, its checks pass at once; passed checks arm at the next boundary, with ARM_TB that of the first sample cycle, ARMCNT one more, the level of START and storage on, or are refused with reason 2 where a table tank has left SLUICE; an ARM while armed or while checks run changes nothing; DISARM ends arming for the sample cycles from the next one on, and cancels checks that run with reason 15. The model's choices it rests on: notes/assumptions/3, 137. -/
def Obligations.Arming : Prop :=
  (∀ (s : State) (port : Port), s.accepts port R.SYS_CTL 1 = true → s.eng.armed = false → s.eng.arming = none → s.eng.settled = true →
    Ends (exec (.arm port) s) (fun t => t.eng.armed = false ∧ t.eng.arming = none ∧ t.eng.fld R.SYS_ARM_HI_REASON = 14 ∧ t.eng.hasBit R.E_SYS_ARM_REF = true ∧
      t.eng.reg R.SYS_ARM_LO = BitVec.ofNat 32 (s.eng.fld R.SAFE_STATUS_CAUSE) ∧ t.eng.answer = okAnswer port ∧ Kept s t [R.SYS_CTL, R.SYS_ARM_LO, R.SYS_ARM_HI, statusAddr 4])) ∧
  (∀ (s : State) (port : Port), s.accepts port R.SYS_CTL 1 = true → s.eng.armed = false → s.eng.arming = none → s.eng.settled = false → s.eng.cisReady = false → s.eng.cycleWrites = [] →
    Ends (exec (.arm port) s) (fun t => t.eng.armed = false ∧ t.eng.arming = some { src := 0, since := s.eng.cc, stream := (List.range 48).map (fun n => s.eng.heldReg (R.RU_STREAM n)) } ∧
      t.eng.flag R.SYS_STATUS_ARMING = true ∧ t.eng.answer = okAnswer port ∧ Kept s t [R.SYS_CTL, R.SYS_STATUS])) ∧
  (∀ (s : State) (port : Port), s.accepts port R.SYS_CTL 1 = true → s.eng.armed = false → s.eng.arming = none → s.eng.settled = false → s.eng.cisReady = false →
    Ends (exec (.arm port) s) (fun t => t.eng.armed = false ∧ t.eng.arming.map (·.passed) = some false ∧ t.eng.flag R.SYS_STATUS_ARMING = true ∧ t.eng.flag R.SYS_CTL_ARM = true ∧
      (∀ w ∈ s.eng.cycleWrites, (w.addr, w.new) ∈ t.eng.allHeld) ∧ t.eng.answer = okAnswer port ∧ t.eng.tb = s.eng.tb ∧ MemKept s t)) ∧
  (∀ (s : State) (port : Port) (total : Nat), s.accepts port R.SYS_CTL 1 = true → s.eng.armed = false → s.eng.arming = none → s.eng.settled = false → s.eng.cisReady = true →
    s.eng.cycleWrites = [] → s.eng.held = [] → s.eng.store.active = false → (List.range 48).find? s.eng.calInternal = none → s.eng.tablePlaceBad = false → s.eng.tableOwnerBad = none →
    s.eng.verified (s.eng.flag R.CONF_SETSEL_SET) = true → s.eng.budgetCheck = (none, some total) → s.eng.planCheck = none →
    Ends (exec (.arm port) s) (fun t => t.eng.armed = false ∧ t.eng.arming.map (·.passed) = some true ∧ t.eng.flag R.SYS_STATUS_ARMING = true ∧
      t.eng.reg R.SYS_BUDGET_LO = BitVec.ofNat 32 total ∧ t.eng.fld R.SYS_BUDGET_HI_LIMIT = s.eng.budgetLimit % 2 ^ R.SYS_BUDGET_HI_LIMIT.width ∧ t.eng.answer = okAnswer port ∧
      Kept s t [R.SYS_CTL, R.SYS_STATUS, R.SYS_BUDGET_LO, R.SYS_BUDGET_HI])) ∧
  (∀ (s : State) (port : Port), s.accepts port R.SYS_CTL 1 = true → (s.eng.armed = true ∨ s.eng.arming.isSome = true) →
    Ends (exec (.arm port) s) (fun t => t.eng.arming = s.eng.arming ∧ t.eng.armed = s.eng.armed ∧ t.eng.answer = okAnswer port ∧ Kept s t [R.SYS_CTL])) ∧
  (∀ (s : State) (r : ArmReq), s.eng.live = true → s.eng.arming = some r → r.passed = true → r.act = none → s.eng.tableOwnerBad = none →
    Ends (exec .armingTakesEffect s) (fun t => t.eng.armed = true ∧ t.eng.arming = none ∧ t.eng.flag R.SYS_STATUS_ARMING = false ∧ t.eng.reg64 R.SYS_ARM_TB_LO = tbOfCycle s.eng.nextCycle ∧
      t.eng.reg R.SYS_ARMCNT = s.eng.reg R.SYS_ARMCNT + 1 ∧ t.eng.fld R.SYS_ARM_HI_REASON = 0 ∧ t.eng.hasBit R.E_SYS_ARM_DONE = true ∧ t.eng.hasBit R.E_SYS_ARM_REF = s.eng.hasBit R.E_SYS_ARM_REF ∧
      t.eng.setAt (s.eng.cc + 1) = s.eng.flag R.CONF_SETSEL_SET ∧
      t.eng.fld R.SLU_STATUS_LEVEL = (if s.eng.flag R.SLU_START_KEEP then s.eng.fld R.SLU_STATUS_LEVEL else s.eng.fld R.SLU_START_LEVEL) ∧ t.eng.reg64 R.SLU_DWELLNOW_LO = 0 ∧
      (s.eng.flag R.SLU_START_CTRCLR = true → t.eng.reg64 R.SLU_CTRA_LO = 0 ∧ t.eng.reg64 R.SLU_CTRB_LO = 0) ∧ t.eng.store.active = true ∧
      t.eng.flag R.STORE_STATUS_STORING = true ∧ t.eng.armSpan = some (s.eng.cc + 1, none) ∧ t.eng.tb = s.eng.tb ∧ MemKept s t)) ∧
  (∀ (s : State) (r : ArmReq) (k : Nat), s.eng.live = true → s.eng.arming = some r → r.passed = true → r.act = none → s.eng.tableOwnerBad = some k → s.eng.held = [] → r.late = [] →
    Ends (exec .armingTakesEffect s) (fun t => t.eng.armed = s.eng.armed ∧ t.eng.arming = none ∧ t.eng.flag R.SYS_STATUS_ARMING = false ∧ t.eng.fld R.SYS_ARM_HI_REASON = 2 ∧
      t.eng.reg R.SYS_ARM_LO = BitVec.ofNat 32 k ∧ t.eng.hasBit R.E_SYS_ARM_REF = true ∧ Kept s t [R.SYS_CTL, R.SYS_STATUS, R.SYS_ARM_LO, R.SYS_ARM_HI, statusAddr 4])) ∧
  (∀ (s : State) (port : Port), s.accepts port R.SYS_CTL 2 = true → s.eng.armed = true → s.eng.arming = none →
    Ends (exec (.disarm port) s) (fun t => t.eng.armed = false ∧ t.eng.hasBit R.E_SYS_DISARMED = true ∧
      t.eng.armSpan = s.eng.armSpan.map (fun p => (p.1, some (s.eng.cc + 1))) ∧ t.eng.answer = okAnswer port ∧ Kept s t [R.SYS_CTL, R.SYS_STATUS, statusAddr 4])) ∧
  (∀ (s : State) (port : Port) (r : ArmReq), s.accepts port R.SYS_CTL 2 = true → s.eng.armed = false → s.eng.arming = some r → r.act = none → s.eng.held = [] → r.late = [] →
    Ends (exec (.disarm port) s) (fun t => t.eng.armed = false ∧ t.eng.arming = none ∧ t.eng.flag R.SYS_STATUS_ARMING = false ∧ t.eng.fld R.SYS_ARM_HI_REASON = 15 ∧
      t.eng.hasBit R.E_SYS_ARM_REF = true ∧ t.eng.answer = okAnswer port ∧ Kept s t [R.SYS_CTL, R.SYS_STATUS, R.SYS_ARM_LO, R.SYS_ARM_HI, statusAddr 4]))

/-- O28. R8, R169, R171, R172, R185, R270: one CCLK cycle raises TB by 16 and the count of cycles by one; with an accepted load pending TB takes the loaded cycle instead, the rota halts and nothing is left in its queues; while the module is dammed only its links move, and with the clocks stopped nothing does. A load is refused while armed, at a tributary and while one is pending. The wrap of TB sets its status bit. The model's choices it rests on: notes/assumptions/1. -/
def Obligations.Timebase : Prop :=
  (∀ (s : State) (pins : Pins), s.eng.running = true → s.eng.dammed = false → s.eng.first = false → s.eng.tbLoad = none →
    Ends (exec (.sampleCycle pins) s) (fun t => t.eng.tb = s.eng.tb + 16 ∧ t.eng.cc = s.eng.cc + 1 ∧ (s.eng.tb + 16 = 0 → t.eng.wrapDue = true) ∧ t.pending = s.pending)) ∧
  (∀ (s : State) (pins : Pins) (c : Nat), s.eng.running = true → s.eng.dammed = false → s.eng.tbLoad = some c →
    Ends (exec (.sampleCycle pins) s) (fun t => t.eng.tb = tbOfCycle c ∧ t.eng.cc = s.eng.cc + 1 ∧ t.eng.tbLoad = none ∧ t.eng.flag R.ROTA_STATUS_HALTED = true ∧ t.eng.rota.queue = [] ∧
      t.eng.hasBit R.E_TB_LOADED = true ∧ t.pending = s.pending)) ∧
  (∀ (s : State) (pins : Pins), s.eng.dammed = true → s.eng.mgt.powered = true → s.eng.lost = false →
    exec (.sampleCycle pins) s = .next { s with chip := { s.chip with eng := s.eng.setRing { s.eng.ring with fa := s.eng.ring.fa.slots, fb := s.eng.ring.fb.slots } } }) ∧
  (∀ (s : State) (pins : Pins), s.eng.dammed = false → s.eng.running = false → exec (.sampleCycle pins) s = .next s) ∧
  (∀ (s : State) (port : Port), s.accepts port R.TB_CTL 1 = true → s.eng.armed = false → s.eng.flag R.TB_STATUS_TRIB = false → s.eng.tbLoad = none →
    Ends (exec (.tbLoad port) s) (fun t => t.eng.tbLoad = some (cycleOf (s.eng.reg64 R.TB_LOADVAL_LO)) ∧ t.eng.flag R.TB_CTL_LOAD = true ∧ t.eng.flag R.TB_STATUS_REFUSED = false ∧
      t.eng.answer = okAnswer port ∧ Kept s t [R.TB_CTL, R.TB_STATUS])) ∧
  (∀ (s : State) (port : Port), s.accepts port R.TB_CTL 1 = true → s.eng.armed = true ∨ s.eng.flag R.TB_STATUS_TRIB = true ∨ s.eng.tbLoad.isSome = true →
    Ends (exec (.tbLoad port) s) (fun t => t.eng.tbLoad = s.eng.tbLoad ∧ t.eng.flag R.TB_STATUS_REFUSED = true ∧ t.eng.answer = okAnswer port ∧ Kept s t [R.TB_CTL, R.TB_STATUS])) ∧
  (∀ s : State, s.eng.running = true → s.eng.wrapDue = true →
    Ends (exec .tbWrap s) (fun t => t.eng.wrapDue = false ∧ t.eng.hasBit R.E_TB_TB_WRAP = true ∧ Kept s t [statusAddr 6]))

/-- O29. R174 to R186, R322: an entry of a valid action that is on time enters its queue and HEAD moves on, a NOP only moves HEAD and the reference TB, an ARM asks for arming, and one with a repeater number loads its repeater; a late entry is placed 16 cycles on and counted, or skipped and counted where it asks for that; one out of order and an invalid one are counted and logged, as is one that an uncorrectable word makes invalid; one beyond the horizon or with its queue full waits; HEAD is written only while the rota is off or halted. A repeater's copy comes one period on at its due cycle, a repeater that REPSTOP names stops, and RESUME ends a halt. The model's choices it rests on: notes/assumptions/10, 78. -/
def Obligations.RotaRing : Prop :=
  (∀ s : State, s.eng.live = true → s.eng.rotaRunning = false ∨ s.eng.fld R.ROTA_HEAD_INDEX = s.eng.fld R.ROTA_TAIL_INDEX ∨ s.eng.rota.lastRead = s.eng.cc → exec (.rotaReadEntry .good) s = .next s) ∧
  (∀ (s : State) (a : RotaAct), s.eng.live = true → s.eng.tank.errs = [] → s.eng.rotaRunning = true → s.eng.fld R.ROTA_HEAD_INDEX ≠ s.eng.fld R.ROTA_TAIL_INDEX → s.eng.rota.lastRead ≠ s.eng.cc →
    a = s.eng.rotaEntry s.chip.tanks (s.eng.fld R.ROTA_HEAD_INDEX) → (s.eng.beyondHorizon a || s.eng.rotaFull a) = true → exec (.rotaReadEntry .good) s = .next s) ∧
  (∀ (s : State) (a : RotaAct), s.eng.live = true → s.eng.tank.errs = [] → s.eng.rotaRunning = true → s.eng.fld R.ROTA_HEAD_INDEX ≠ s.eng.fld R.ROTA_TAIL_INDEX → s.eng.rota.lastRead ≠ s.eng.cc →
    a = s.eng.rotaEntry s.chip.tanks (s.eng.fld R.ROTA_HEAD_INDEX) → dueOf a.code a.tb ≤ s.eng.cycle + 4096 → (0xD < a.code ∨ targetOk a.code a.target = false) →
    Ends (exec (.rotaReadEntry .good) s) (fun t => t.eng.reg R.ROTA_BADCNT = satAdd (s.eng.reg R.ROTA_BADCNT) 1 ∧
      t.eng.fld R.ROTA_HEAD_INDEX = (s.eng.fld R.ROTA_HEAD_INDEX + 1) % 16384 ∧ t.eng.rota.queue = s.eng.rota.queue ∧
      t.eng.detected = insertEntry ⟨s.eng.pclk, 0xA2, 2, 0x0214, BitVec.ofNat 32 (a.word + a.target * 2 ^ 16), a.tb⟩ s.eng.detected ∧
      Kept s t [R.ROTA_HEAD, R.ROTA_BADCNT, statusAddr 0xA2, R.TANK_RETSTAT])) ∧
  (∀ s : State, s.eng.live = true → s.eng.rotaRunning = true → s.eng.fld R.ROTA_HEAD_INDEX ≠ s.eng.fld R.ROTA_TAIL_INDEX → s.eng.rota.lastRead ≠ s.eng.cc →
    Ends (exec (.rotaReadEntry .double) s) (fun t => t.eng.reg R.ROTA_BADCNT = satAdd (s.eng.reg R.ROTA_BADCNT) 1 ∧
      t.eng.fld R.ROTA_HEAD_INDEX = (s.eng.fld R.ROTA_HEAD_INDEX + 1) % 16384 ∧ t.eng.rota.queue = s.eng.rota.queue ∧ t.eng.hasBit R.E_TANK_UE = true ∧
      Kept s t ([R.ROTA_HEAD, R.ROTA_BADCNT, statusAddr 0xA2, R.TANK_RETSTAT] ++ tankEccRegs))) ∧
  (∀ (s : State) (a : RotaAct), s.eng.live = true → s.eng.tank.errs = [] → s.eng.rotaRunning = true → s.eng.fld R.ROTA_HEAD_INDEX ≠ s.eng.fld R.ROTA_TAIL_INDEX → s.eng.rota.lastRead ≠ s.eng.cc →
    a = s.eng.rotaEntry s.chip.tanks (s.eng.fld R.ROTA_HEAD_INDEX) → dueOf a.code a.tb ≤ s.eng.cycle + 4096 → a.bad = false → s.eng.outOfOrder a = true →
    Ends (exec (.rotaReadEntry .good) s) (fun t => t.eng.reg R.ROTA_ORDERCNT = satAdd (s.eng.reg R.ROTA_ORDERCNT) 1 ∧ t.eng.hasBit R.E_ROTA_ORDER = true ∧
      t.eng.fld R.ROTA_HEAD_INDEX = (s.eng.fld R.ROTA_HEAD_INDEX + 1) % 16384 ∧ t.eng.rota.queue = s.eng.rota.queue ∧ t.eng.rota.refTb = s.eng.rota.refTb ∧
      t.eng.detected = insertEntry ⟨s.eng.pclk, 0xA2, 2, 0x0212, BitVec.ofNat 32 (a.word + a.target * 2 ^ 16), a.tb⟩ s.eng.detected ∧
      Kept s t [R.ROTA_HEAD, R.ROTA_ORDERCNT, statusAddr 0xA2, R.TANK_RETSTAT])) ∧
  (∀ (s : State) (a : RotaAct), s.eng.live = true → s.eng.tank.errs = [] → s.eng.rotaRunning = true → s.eng.fld R.ROTA_HEAD_INDEX ≠ s.eng.fld R.ROTA_TAIL_INDEX → s.eng.rota.lastRead ≠ s.eng.cc →
    a = s.eng.rotaEntry s.chip.tanks (s.eng.fld R.ROTA_HEAD_INDEX) → dueOf a.code a.tb ≤ s.eng.cycle + 4096 → a.bad = false → s.eng.outOfOrder a = false → a.code = 0 →
    Ends (exec (.rotaReadEntry .good) s) (fun t => t.eng.rota.queue = s.eng.rota.queue ∧ t.eng.rota.refTb = some a.tb ∧
      t.eng.fld R.ROTA_HEAD_INDEX = (s.eng.fld R.ROTA_HEAD_INDEX + 1) % 16384 ∧ Kept s t [R.ROTA_HEAD, statusAddr 0xA2, R.TANK_RETSTAT])) ∧
  (∀ (s : State) (a : RotaAct), s.eng.live = true → s.eng.tank.errs = [] → s.eng.rotaRunning = true → s.eng.fld R.ROTA_HEAD_INDEX ≠ s.eng.fld R.ROTA_TAIL_INDEX → s.eng.rota.lastRead ≠ s.eng.cc →
    a = s.eng.rotaEntry s.chip.tanks (s.eng.fld R.ROTA_HEAD_INDEX) → dueOf a.code a.tb ≤ s.eng.cycle + 4096 → s.eng.cycle + 16 ≤ dueOf a.code a.tb → 1 < a.code → a.bad = false →
    s.eng.outOfOrder a = false → s.eng.rota.hasRoom (queueOf a.code a.target) = true →
    Ends (exec (.rotaReadEntry .good) s) (fun t => t.eng.rota.queue = placeAct a s.eng.rota.queue ∧ t.eng.rota.refTb = some a.tb ∧
      t.eng.fld R.ROTA_HEAD_INDEX = (s.eng.fld R.ROTA_HEAD_INDEX + 1) % 16384 ∧
      (bitsOf a.word 12 3 ≠ 0 → bitAt (t.eng.reg R.ROTA_REPACTIVE).toNat (bitsOf a.word 12 3) = true ∧
        t.eng.reg (R.ROTA_REP_REMAIN (bitsOf a.word 12 3 - 1)) = s.eng.reg (R.ROTA_REP_COUNT (bitsOf a.word 12 3 - 1)) ∧
        (∃ x ∈ t.eng.rota.reps, x.slot = bitsOf a.word 12 3 ∧ x.tb = a.tb ∧ x.word = a.word)) ∧
      Kept s t ([R.ROTA_HEAD, statusAddr 0xA2, R.TANK_RETSTAT] ++ (if bitsOf a.word 12 3 = 0 then [] else [R.ROTA_REPACTIVE, R.ROTA_REP_REMAIN (bitsOf a.word 12 3 - 1)])))) ∧
  (∀ (s : State) (a : RotaAct), s.eng.live = true → s.eng.tank.errs = [] → s.eng.rotaRunning = true → s.eng.fld R.ROTA_HEAD_INDEX ≠ s.eng.fld R.ROTA_TAIL_INDEX → s.eng.rota.lastRead ≠ s.eng.cc →
    a = s.eng.rotaEntry s.chip.tanks (s.eng.fld R.ROTA_HEAD_INDEX) → dueOf a.code a.tb < s.eng.cycle + 16 → 1 < a.code → a.bad = false → s.eng.outOfOrder a = false →
    s.eng.rota.hasRoom (queueOf a.code a.target) = true → bitsOf a.word 12 3 = 0 →
    Ends (exec (.rotaReadEntry .good) s) (fun t => t.eng.rota.refTb = some a.tb ∧ t.eng.reg64 R.ROTA_LASTLATE_TB_LO = a.tb ∧
      t.eng.fld R.ROTA_HEAD_INDEX = (s.eng.fld R.ROTA_HEAD_INDEX + 1) % 16384 ∧
      (bitAt a.word 8 = true → t.eng.rota.queue = s.eng.rota.queue ∧ t.eng.reg R.ROTA_SKIPCNT = satAdd (s.eng.reg R.ROTA_SKIPCNT) 1 ∧ t.eng.hasBit R.E_ROTA_SKIP = true) ∧
      (bitAt a.word 8 = false → t.eng.reg R.ROTA_LATECNT = satAdd (s.eng.reg R.ROTA_LATECNT) 1 ∧ t.eng.hasBit R.E_ROTA_LATE = true ∧
        t.eng.rota.queue = placeAct { a with eff := tbOfCycle (s.eng.cycle + 16) + (if tickPlaced a.code then BitVec.ofNat 64 (a.tb.toNat % 16) else 0) } s.eng.rota.queue) ∧
      Kept s t [R.ROTA_HEAD, statusAddr 0xA2, R.TANK_RETSTAT, R.ROTA_LATECNT, R.ROTA_SKIPCNT, R.ROTA_LASTLATE_TB_LO, R.ROTA_LASTLATE_TB_LO + 4])) ∧
  (∀ (s : State) (a : RotaAct), s.eng.live = true → s.eng.tank.errs = [] → s.eng.rotaRunning = true → s.eng.fld R.ROTA_HEAD_INDEX ≠ s.eng.fld R.ROTA_TAIL_INDEX → s.eng.rota.lastRead ≠ s.eng.cc →
    a = s.eng.rotaEntry s.chip.tanks (s.eng.fld R.ROTA_HEAD_INDEX) → dueOf a.code a.tb ≤ s.eng.cycle + 4096 → s.eng.cycle + 16 ≤ dueOf a.code a.tb → a.code = 1 → a.bad = false →
    s.eng.outOfOrder a = false → s.eng.rota.hasRoom 0 = true → bitsOf a.word 12 3 = 0 → s.eng.armed = false → s.eng.arming = none → s.eng.settled = false → s.eng.cisReady = false → s.eng.cycleWrites = [] →
    Ends (exec (.rotaReadEntry .good) s) (fun t => t.eng.rota.queue = placeAct a s.eng.rota.queue ∧ t.eng.rota.refTb = some a.tb ∧
      t.eng.arming = some { src := 1, since := s.eng.cc, stream := (List.range 48).map (fun n => s.eng.heldReg (R.RU_STREAM n)), act := some a } ∧ t.eng.flag R.SYS_STATUS_ARMING = true ∧
      t.eng.fld R.ROTA_HEAD_INDEX = (s.eng.fld R.ROTA_HEAD_INDEX + 1) % 16384 ∧ Kept s t [R.ROTA_HEAD, statusAddr 0xA2, R.TANK_RETSTAT, R.SYS_STATUS])) ∧
  (∀ (s : State) (port : Port) (v : Word), s.accepts port R.ROTA_HEAD v = true → s.eng.flag R.ROTA_CTL_EN = false ∨ s.eng.flag R.ROTA_STATUS_HALTED = true →
    Ends (exec (.rotaHeadWrite port v) s) (fun t => t.eng.fld R.ROTA_HEAD_INDEX = bitsOf v.toNat 0 14 ∧ t.eng.rota.refTb = none ∧ t.eng.answer = okAnswer port ∧ Kept s t [R.ROTA_HEAD])) ∧
  (∀ (s : State) (port : Port) (v : Word), s.accepts port R.ROTA_HEAD v = true → s.eng.flag R.ROTA_CTL_EN = true → s.eng.flag R.ROTA_STATUS_HALTED = false →
    Ends (exec (.rotaHeadWrite port v) s) (fun t => t.eng.rota.refTb = s.eng.rota.refTb ∧ t.eng.answer = okAnswer port ∧ Kept s t [])) ∧
  (∀ (s : State) (port : Port) (v : Word), s.accepts port R.ROTA_CTL (v ||| 2) = true →
    Ends (exec (.rotaResume port v) s) (fun t => t.eng.flag R.ROTA_STATUS_HALTED = false ∧ t.eng.flag R.ROTA_CTL_EN = bitAt v.toNat 0 ∧
      t.eng.fld R.ROTA_CTL_TANK = (if s.eng.flag R.ROTA_CTL_EN then s.eng.fld R.ROTA_CTL_TANK else bitsOf v.toNat 8 2) ∧ t.eng.answer = okAnswer port ∧
      Kept s t [R.ROTA_CTL, R.ROTA_STATUS])) ∧
  (∀ (s : State) (r : Fin 7) (x : Repeater), s.eng.live = true → s.eng.rota.reps.find? (fun x => x.slot == r.val + 1) = some x → x.word % 256 ≠ 1 →
    dueOf (x.word % 256) (x.tb + BitVec.ofNat 64 ((x.k + 1) * x.period)) = s.eng.cycle + 16 → s.eng.rota.hasRoom (queueOf (x.word % 256) x.target) = true →
    Ends (exec (.repeaterCopy r) s) (fun t => t.eng.rota.queue = placeAct ⟨x.tb + BitVec.ofNat 64 ((x.k + 1) * x.period), x.tb + BitVec.ofNat 64 ((x.k + 1) * x.period), x.word % 256, x.target, x.arg, x.word⟩
        s.eng.rota.queue ∧ (x.left = some 1 → t.eng.hasBit R.E_ROTA_REPDONE = true ∧ ∀ y ∈ t.eng.rota.reps, y.slot ≠ r.val + 1) ∧
      t.eng.reg (R.ROTA_REP_REMAIN r) = BitVec.ofNat 32 ((x.left.map (· - 1)).getD 0) ∧ Kept s t [R.ROTA_REP_REMAIN r, R.ROTA_REPACTIVE, statusAddr 0xA2])) ∧
  (∀ (s : State) (port : Port) (v : Word), s.accepts port R.ROTA_REPSTOP v = true →
    Ends (exec (.repstop port v) s) (fun t => (∀ i : Fin 7, bitAt v.toNat (i.val + 1) = true → (∀ y ∈ t.eng.rota.reps, y.slot ≠ i.val + 1) ∧ t.eng.reg (R.ROTA_REP_REMAIN i) = 0) ∧
      t.eng.answer = okAnswer port ∧ Kept s t ([R.ROTA_REPSTOP, R.ROTA_REPACTIVE] ++ (List.range 7).map R.ROTA_REP_REMAIN)))

/-- O30. R17, R165, R184, R220, R254, R385, R388, R431: an action of the rota whose instant has come leaves its queue and acts: ARM arms a passed request, DISARM disarms, SEGMENT_NEXT asks for a boundary before the next sample cycle, FLUME_BCAST makes a record of the step at hand, and DAM is an own cause of a dam with code 4; DISP_FLIP waits for the next latch point of an output that runs, and is dropped for one that does not and refused for DO1 while it clones. The model's choices it rests on: notes/assumptions/3, 10, 149. -/
def Obligations.RotaActions : Prop :=
  (∀ (s : State) (r : ArmReq) (a : RotaAct), s.eng.live = true → s.eng.arming = some r → r.passed = true → r.act = some a → s.eng.tbLoad = none → dueAfter a.eff ≤ s.eng.nextCycle →
    s.eng.tableOwnerBad = none →
    Ends (exec .rotaArm s) (fun t => t.eng.armed = true ∧ t.eng.arming = none ∧ t.eng.rota.queue = s.eng.rota.queue.erase a ∧ t.eng.fld R.SYS_ARM_HI_REASON = 0 ∧ t.eng.fld R.SYS_ARM_HI_SRC = 1 ∧
      t.eng.reg R.SYS_ARMCNT = s.eng.reg R.SYS_ARMCNT + 1 ∧ t.eng.armSpan = some (s.eng.cc + 1, none) ∧ t.eng.store.active = true ∧
      t.eng.reg64 R.SYS_ARM_TB_LO = tbOfCycle s.eng.nextCycle ∧ t.eng.tb = s.eng.tb ∧ MemKept s t)) ∧
  (∀ (s : State) (r : ArmReq) (a : RotaAct) (k : Nat), s.eng.live = true → s.eng.arming = some r → r.passed = true → r.act = some a → s.eng.tbLoad = none → dueAfter a.eff ≤ s.eng.nextCycle →
    s.eng.tableOwnerBad = some k → s.eng.held = [] → r.late = [] →
    Ends (exec .rotaArm s) (fun t => t.eng.armed = s.eng.armed ∧ t.eng.arming = none ∧ t.eng.rota.queue = s.eng.rota.queue.erase a ∧ t.eng.fld R.SYS_ARM_HI_REASON = 2 ∧
      t.eng.reg R.SYS_ARM_LO = BitVec.ofNat 32 k ∧ Kept s t [R.SYS_CTL, R.SYS_STATUS, R.SYS_ARM_LO, R.SYS_ARM_HI, statusAddr 4])) ∧
  (∀ s : State, s.eng.live = true → s.eng.arming = none → exec .rotaArm s = .next s) ∧
  (∀ (s : State) (a : RotaAct), s.eng.live = true → s.eng.storeAct 2 = some a →
    Ends (exec .rotaDisarm s) (fun t => t.eng.rota.queue = s.eng.rota.queue.erase a ∧ t.eng.armed = false ∧
      (s.eng.armed = true → t.eng.hasBit R.E_SYS_DISARMED = true ∧ t.eng.armSpan = s.eng.armSpan.map (fun p => (p.1, some (s.eng.cc + 1)))) ∧
      (s.eng.armed = false → t.eng.armSpan = s.eng.armSpan) ∧ Kept s t (if s.eng.armed then [R.SYS_STATUS, statusAddr 4] else []))) ∧
  (∀ (s : State) (a : RotaAct), s.eng.live = true → s.eng.storeAct 3 = some a →
    Ends (exec .segmentNext s) (fun t => t.eng.rota.queue = s.eng.rota.queue.erase a ∧
      t.eng.store.segNext = s.eng.store.segNext ++ (if s.eng.armed then [s.eng.cc + 1] else []) ∧ Kept s t [])) ∧
  (∀ (s : State) (o : Fin 2) (a : RotaAct), s.eng.live = true → s.eng.actAt (8 + o.val) 0xB = some a → o.val < s.eng.disp.length → (s.eng.dsp o).running = true → (s.eng.dsp o).rotaFlip = none →
    (o = 1 → (s.eng.dsp 1).cloning = false) →
    Ends (exec (.dispFlip o) s) (fun t => t.eng.rota.queue = s.eng.rota.queue ∧ (t.eng.dsp o).rotaFlip = some a.eff ∧ Kept s t [])) ∧
  (∀ (s : State) (o : Fin 2) (a : RotaAct), s.eng.live = true → s.eng.actAt (8 + o.val) 0xB = some a → (s.eng.dsp o).running = false → (o = 1 → (s.eng.dsp 1).cloning = false) →
    Ends (exec (.dispFlip o) s) (fun t => t.eng.rota.queue = s.eng.rota.queue.erase a ∧ t.eng.disp = s.eng.disp ∧ Kept s t [])) ∧
  (∀ (s : State) (a : RotaAct), s.eng.live = true → s.eng.actAt 9 0xB = some a → (s.eng.dsp 1).cloning = true →
    Ends (exec (.dispFlip 1) s) (fun t => t.eng.rota.queue = s.eng.rota.queue.erase a ∧ t.eng.fld (R.DISP_STATUS_REJ 1) = 4 ∧ t.eng.hasBit (R.E_DISP_COMMIT_REJ 1) = true ∧ Kept s t [R.DISP_STATUS 1, statusAddr 0xE1])) ∧
  (∀ (s : State) (a : RotaAct), s.eng.live = true → s.eng.actAt 3 0xC = some a →
    Ends (exec .flumeBcast s) (fun t => t.eng.rota.queue = s.eng.rota.queue.erase a ∧
      (∃ f ∈ t.eng.path.fluX, f.phys = s.eng.cc + 1 - 24 - s.eng.lag + (if s.eng.flag R.RING_STATUS_MODE then 104 else 8) ∧ f.pos = s.eng.pos ∧ f.bits ||| bitsOf a.arg 0 4 = f.bits) ∧ Kept s t [])) ∧
  (∀ (s : State) (a : RotaAct), s.eng.live = true → s.eng.actAt 4 0xD = some a → s.eng.damUnderWay = false →
    Ends (exec .dam s) (fun t => t.eng.rota.queue = s.eng.rota.queue.erase a ∧ t.eng.dam.driveAt = some (driveInstant a.eff, 4) ∧ Kept s t [])) ∧
  (∀ (s : State) (a : RotaAct), s.eng.live = true → s.eng.actAt 4 0xD = some a → s.eng.damUnderWay = true →
    Ends (exec .dam s) (fun t => t.eng.rota.queue = s.eng.rota.queue.erase a ∧ t.eng.dam = s.eng.dam ∧ Kept s t []))

/-! ## Gate lines (R187 to R194) -/

/-- O31. R192, R185: a rota command whose instant has come leaves its queue; on an output line SET drives 1, CLEAR drives 0, both cancel the line's pulse, and PULSE drives 1 with an end its width (at least 1) later; while the engine is settled the command is dropped and counted. A pulse that ends drives 0. At a tick on which the sluice sets or clears lines, every output line among them takes that level. The model's choices it rests on: notes/assumptions/10. -/
def Obligations.GateCommands : Prop :=
  (∀ (s : State) (a : RotaAct), s.eng.live = true → s.eng.gateQueue = [a] → a.code = 4 → s.eng.gateReady a.eff = true → s.eng.gateOrders = [] → s.eng.gate.pulses = [] → s.eng.settled = false →
    s.eng.gateOutput a.target = true → s.eng.gate.met.1 ≠ a.eff →
    Ends (exec .gateSet s) (fun t => t.eng.rota.queue = s.eng.rota.queue.erase a ∧ t.eng.gate.level = s.eng.gate.level ||| BitVec.ofNat 48 (2 ^ a.target) ∧ t.eng.gate.pulses = [] ∧ Kept s t [])) ∧
  (∀ (s : State) (a : RotaAct), s.eng.live = true → s.eng.gateQueue = [a] → a.code = 5 → s.eng.gateReady a.eff = true → s.eng.gateOrders = [] → s.eng.gate.pulses = [] → s.eng.settled = false →
    s.eng.gateOutput a.target = true → s.eng.gate.met.1 ≠ a.eff →
    Ends (exec .gateClr s) (fun t => t.eng.rota.queue = s.eng.rota.queue.erase a ∧ t.eng.gate.level = s.eng.gate.level &&& ~~~BitVec.ofNat 48 (2 ^ a.target) ∧ t.eng.gate.pulses = [] ∧ Kept s t [])) ∧
  (∀ (s : State) (a : RotaAct), s.eng.live = true → s.eng.gateQueue = [a] → a.code = 6 → s.eng.gateReady a.eff = true → s.eng.gateOrders = [] → s.eng.gate.pulses = [] → s.eng.settled = false →
    s.eng.gateOutput a.target = true → s.eng.gate.met.1 ≠ a.eff →
    Ends (exec .gatePulse s) (fun t => t.eng.rota.queue = s.eng.rota.queue.erase a ∧ t.eng.gate.level = s.eng.gate.level ||| BitVec.ofNat 48 (2 ^ a.target) ∧
      t.eng.gate.pulses = [(a.target, a.eff + BitVec.ofNat 64 (max 1 a.arg))] ∧ Kept s t [])) ∧
  (∀ (s : State) (a : RotaAct) (c : Instr), s.eng.live = true → s.eng.gateQueue = [a] → (a.code = 4 ∧ c = .gateSet) ∨ (a.code = 5 ∧ c = .gateClr) ∨ (a.code = 6 ∧ c = .gatePulse) →
    s.eng.gateReady a.eff = true → s.eng.gateOrders = [] → s.eng.gate.pulses = [] → s.eng.settled = true →
    Ends (exec c s) (fun t => t.eng.rota.queue = s.eng.rota.queue.erase a ∧ t.eng.gate.level = s.eng.gate.level ∧ t.eng.reg R.GATE_DROPPED = satAdd (s.eng.reg R.GATE_DROPPED) 1 ∧
      t.eng.hasBit R.E_GATE_DROPPED = true ∧ Kept s t [R.GATE_DROPPED, statusAddr 0xA3])) ∧
  (∀ (s : State) (i : Nat) (u : Tb), s.eng.live = true → s.eng.gate.pulses = [(i, u)] → s.eng.gateReady u = true → s.eng.gateOrders = [] → s.eng.gateQueue = [] →
    Ends (exec .gatePulseEnd s) (fun t => t.eng.gate.pulses = [] ∧ t.eng.gate.level = s.eng.gate.level &&& ~~~BitVec.ofNat 48 (2 ^ i) ∧ Kept s t [])) ∧
  (∀ (s : State) (o : GateOrder), s.eng.live = true → s.eng.gateOrders = [o] → o.op = 1 ∨ o.op = 2 → s.eng.gateReady o.tick = true → s.eng.gate.pulses = [] → s.eng.gateQueue = [] →
    Ends (exec .gateCommandTick s) (fun t => t.eng.gateOrders = [] ∧
      (∀ i : Fin 48, lineBit t.eng.gate.level i = if lineBit o.lines i && s.eng.gateOutput i then o.op == 1 else lineBit s.eng.gate.level i) ∧ Kept s t [])) ∧
  (∀ s : State, s.eng.live = true → s.eng.gateNext = none → exec .gateCommandTick s = .next s)

/-- O32. R187 and R188: while disarmed a gate line register, a gate LUT selector or truth table takes its writable bits; a line that becomes an output starts at its INITV, one that is none drives no commanded 1. A BANKCFG write leaves the voltage of a bank with a driven line as it was and sets the bank's VSEL_REJ bit; with no driven bank it takes the value and clears VSEL_REJ. The model's choices it rests on: notes/assumptions/17. -/
def Obligations.GateWrites : Prop :=
  (∀ (s : State) (port : Port) (i : Fin 48) (v : Word), s.eng.armed = false → s.eng.store.active = false → s.accepts port (R.GATE_LINE i) v = true →
    Ends (exec (.gateLineWrite port (.line i) v) s) (fun t => t.eng.reg (R.GATE_LINE i) = mergeRw (R.GATE_LINE i) (s.eng.reg (R.GATE_LINE i)) v ∧ lineBit t.eng.gate.written i = true ∧
      (t.eng.gateOutput i = true → s.eng.gateOutput i = false → lineBit t.eng.gate.level i = bitAt v.toNat 3) ∧ (t.eng.gateOutput i = false → lineBit t.eng.gate.level i = false) ∧
      (∀ j : Fin 48, j ≠ i → lineBit t.eng.gate.level j = lineBit s.eng.gate.level j) ∧ t.eng.answer = okAnswer port ∧ Kept s t [R.GATE_LINE i])) ∧
  (∀ (s : State) (port : Port) (k : Fin 16) (v : Word), s.eng.armed = false → s.eng.store.active = false → s.accepts port (R.GATE_GLUT_SEL k) v = true →
    Ends (exec (.gateLineWrite port (.sel k) v) s) (fun t => t.eng.reg (R.GATE_GLUT_SEL k) = mergeRw (R.GATE_GLUT_SEL k) (s.eng.reg (R.GATE_GLUT_SEL k)) v ∧ t.eng.answer = okAnswer port ∧
      Kept s t [R.GATE_GLUT_SEL k])) ∧
  (∀ (s : State) (port : Port) (k : Fin 16) (v : Word), s.eng.armed = false → s.eng.store.active = false → s.accepts port (R.GATE_GLUT_TT k) v = true →
    Ends (exec (.gateLineWrite port (.tt k) v) s) (fun t => t.eng.reg (R.GATE_GLUT_TT k) = mergeRw (R.GATE_GLUT_TT k) (s.eng.reg (R.GATE_GLUT_TT k)) v ∧ t.eng.answer = okAnswer port ∧
      Kept s t [R.GATE_GLUT_TT k])) ∧
  (∀ (s : State) (port : Port) (v : Word), s.accepts port R.GATE_BANKCFG v = true →
    Ends (exec (.bankcfgWrite port v) s) (fun t => t.eng.answer = okAnswer port ∧ Kept s t [R.GATE_BANKCFG, R.GATE_STATUS, statusAddr 0xA3] ∧
      (∀ b : Fin 4, (List.range 12).any (fun k => s.eng.gateOutput (12 * b.val + k) || (s.eng.gateHeld (12 * b.val + k) && decide (2 ≤ s.eng.safeLevel (12 * b.val + k)))) = true →
        vselOf v b ≠ vselOf (s.eng.reg R.GATE_BANKCFG) b →
        vselOf (t.eng.reg R.GATE_BANKCFG) b = vselOf (s.eng.reg R.GATE_BANKCFG) b ∧ bitAt (t.eng.fld R.GATE_STATUS_VSEL_REJ) b = true ∧ t.eng.hasBit R.E_GATE_VSEL_REJ = true))) ∧
  (∀ (s : State) (port : Port) (v : Word), s.accepts port R.GATE_BANKCFG v = true → (∀ i, i < 48 → s.eng.gateOutput i = false ∧ (s.eng.gateHeld i = false ∨ s.eng.safeLevel i < 2)) →
    Ends (exec (.bankcfgWrite port v) s) (fun t => (∀ b : Fin 4, vselOf (t.eng.reg R.GATE_BANKCFG) b = vselOf v b) ∧ t.eng.fld R.GATE_STATUS_VSEL_REJ = 0 ∧
      t.eng.answer = okAnswer port ∧ Kept s t [R.GATE_BANKCFG, R.GATE_STATUS]))

/-! ## The store gate, segments and the weir (R12 to R14, R209 to R229) -/

/-- O33. R12 and R14: the oldest stepped sample cycle passes the store gate 32 CCLK after its capture, later by the lag, and no sooner; the first one past a disarm ends the capture. R214, R216: a trigger in an OPEN segment outside the re-arm gap, with its pre side as PREPOL asks, makes the segment TRIGGERED and records its TB. The model's choices it rests on: notes/assumptions/10. -/
def Obligations.StoreGate : Prop :=
  (∀ (s : State) (e : PipeEntry) (rest : List PipeEntry), s.eng.live = true → s.eng.path.pipe = e :: rest → e.stepped = true → e.phys + 32 + s.eng.lag ≤ s.eng.cc →
    Ends (exec .storeGate s) (fun t => t.eng.path.pipe = rest ∧ t.eng.store.gated = e.phys ∧ t.eng.store.gatedTb = e.tb ∧
      (s.eng.armedAt e.phys = false → s.eng.pastEnd e.phys = true → t.eng.store.active = false) ∧ t.eng.tb = s.eng.tb ∧ MemKept s t)) ∧
  (∀ (s : State) (e : PipeEntry) (rest : List PipeEntry), s.eng.live = true → s.eng.path.pipe = e :: rest → e.stepped = false ∨ s.eng.cc < e.phys + 32 + s.eng.lag →
    exec .storeGate s = .next s) ∧
  (∀ (m : Engine) (t : Tb) (exact : Bool) (data : Nat), m.segOpen = true → m.store.gapUntil = none → m.fld (R.SEG_STATUS_STATE m.curSeg) = 1 →
    (m.flag (R.SEG_CFG_PREPOL m.curSeg) && !((List.range 48).filter m.stored).all (fun n => m.preFull n t)) = false →
    (m.triggerAt t exact data).fld (R.SEG_STATUS_STATE m.curSeg) = 2 ∧ (m.triggerAt t exact data).reg64 (R.SEG_TRIG_TB_LO m.curSeg) = t)

/-- O34. R217, R220, R221, R222, R223: a boundary closes the current segment and opens the one the train enters, with a re-arm gap of 32 sample cycles, or stops storage with a cause. The gap's end reckons the missed triggers; an intake that stopped for want of a slot gets its POST_SHORT; a marker pack is written 2^10 CCLK after its first item. An acquisition raises a segment's lock count by one, a release lowers it, and one at 255 or at 0 changes nothing but LOCK_ERR. MARKREAD makes a CLOSED segment with lock count 0 READ. The model's choices it rests on: notes/assumptions/10. -/
def Obligations.Segments : Prop :=
  (∀ (s : State) (b : Boundary) (n c k : Nat), s.eng.live = true → s.eng.store.boundary = some b → (b.segact || b.next) = true → s.eng.segOpen = true →
    s.eng.advance s.eng.curSeg = ((some n, c), k) → n < 256 →
    Ends (exec .segmentBoundary s) (fun t => t.eng.curSeg = n ∧ t.eng.fld (R.SEG_STATUS_STATE n) = 1 ∧ t.eng.flag R.STORE_STATUS_GAP = true ∧ t.eng.store.gapUntil = some (b.phys + 32) ∧
      t.eng.reg R.STORE_SEGCNT = s.eng.reg R.STORE_SEGCNT + 1 ∧ t.eng.store.boundary = none ∧ t.eng.reg64 (R.SEG_OPEN_TB_LO n) = b.tb + 16 ∧
      (n ≠ s.eng.curSeg → t.eng.fld (R.SEG_STATUS_STATE s.eng.curSeg) = 3 ∧ t.eng.reg64 (R.SEG_CLOSE_TB_LO s.eng.curSeg) = b.tb + 16) ∧ RegsKept s t (fun a => !onPages storePages a) ∧ t.eng.tb = s.eng.tb ∧ MemKept s t)) ∧
  (∀ (s : State) (b : Boundary) (c k : Nat), s.eng.live = true → s.eng.store.boundary = some b → (b.segact || b.next) = true → s.eng.segOpen = true →
    s.eng.advance s.eng.curSeg = ((none, c), k) →
    Ends (exec .segmentBoundary s) (fun t => t.eng.flag R.STORE_STATUS_STOPPED = true ∧ t.eng.fld R.STORE_STATUS_STOPCAUSE = c ∧ t.eng.flag R.STORE_STATUS_STORING = false ∧
      t.eng.fld (R.SEG_STATUS_STATE s.eng.curSeg) = 3 ∧ t.eng.store.boundary = none ∧ t.eng.hasBit R.E_STORE_STOPPED = true ∧ RegsKept s t (fun a => !onPages storePages a) ∧ t.eng.tb = s.eng.tb ∧ MemKept s t)) ∧
  (∀ (s : State) (b : Boundary) (n c k : Nat), s.eng.live = true → s.eng.store.boundary = some b → b.post = true → s.eng.segOpen = true → s.eng.advance s.eng.curSeg = ((some n, c), k) → n < 256 →
    Ends (exec .postComplete s) (fun t => t.eng.curSeg = n ∧ t.eng.fld (R.SEG_STATUS_STATE n) = 1 ∧ t.eng.flag R.STORE_STATUS_GAP = true ∧ t.eng.store.boundary = none ∧
      t.eng.reg64 (R.SEG_OPEN_TB_LO n) = b.tb + 16 ∧ (n ≠ s.eng.curSeg → t.eng.fld (R.SEG_STATUS_STATE s.eng.curSeg) = 3) ∧ RegsKept s t (fun a => !onPages storePages a) ∧ t.eng.tb = s.eng.tb ∧ MemKept s t)) ∧
  (∀ s : State, s.eng.live = true → s.eng.store.boundary = none → exec .segmentBoundary s = .next s ∧ exec .postComplete s = .next s) ∧
  (∀ (s : State) (p : Nat), s.eng.live = true → s.eng.store.gapUntil = some p → p ≤ s.eng.store.gated →
    Ends (exec .rearmGapEnd s) (fun t => t.eng.store.gapUntil = none ∧ t.eng.flag R.STORE_STATUS_GAP = false ∧ (s.eng.store.missed = 0 → Kept s t [R.STORE_STATUS]) ∧
      (s.eng.store.missed ≠ 0 → t.eng.reg64 R.STORE_MISSED_TB_LO = s.eng.store.missedTb) ∧ RegsKept s t (fun a => !onPages storePages a) ∧ t.eng.tb = s.eng.tb ∧ MemKept s t)) ∧
  (∀ (s : State) (n : Fin 48), s.eng.live = true → n.val < s.eng.store.intakes.length → (s.eng.sto n).fullDue = true →
    Ends (exec (.postShortFull n) s) (fun t => (t.eng.sto n).fullDue = false ∧ t.eng.flag (R.SEG_STATUS_POST_SHORT s.eng.curSeg) = true ∧ t.eng.hasBit R.E_STORE_POST_SHORT = true ∧
      RegsKept s t (fun a => !onPages storePages a) ∧ t.eng.tb = s.eng.tb ∧ MemKept s t)) ∧
  (∀ s : State, s.eng.live = true → s.eng.store.marks ≠ [] → s.eng.store.markSince + 1024 ≤ s.eng.store.gated + 1 →
    s.eng.fld (R.SEG_MARK_MKUSED s.eng.curSeg) < s.eng.fld (R.SEG_MARK_MKPACKS s.eng.curSeg) →
    Ends (exec .markerPackFlush s) (fun t => t.eng.store.marks = [] ∧ t.eng.fld (R.SEG_MARK_MKUSED s.eng.curSeg) = s.eng.fld (R.SEG_MARK_MKUSED s.eng.curSeg) + 1 ∧
      t.eng.store.markPacks.length = s.eng.store.markPacks.length + 1 ∧ Kept s t [R.SEG_MARK s.eng.curSeg])) ∧
  (∀ s : State, s.eng.live = true → s.eng.store.gated + 1 < s.eng.store.markSince + 1024 → exec .markerPackFlush s = .next s) ∧
  (∀ (s : State) (port : Port) (seg : Fin 256), s.accepts port (R.SEG_LOCKCTL seg) 1 = true →
    Ends (exec (.segLockAcq port seg) s) (fun t => t.eng.fld (R.SEG_STATUS_LOCK seg) = (if s.eng.fld (R.SEG_STATUS_LOCK seg) = 255 then 255 else s.eng.fld (R.SEG_STATUS_LOCK seg) + 1) ∧
      (s.eng.fld (R.SEG_STATUS_LOCK seg) = 255 → t.eng.hasBit (R.E_SEG_LOCK_ERR seg) = true) ∧ t.eng.answer = okAnswer port ∧
      Kept s t (if s.eng.fld (R.SEG_STATUS_LOCK seg) = 255 then [statusAddr (0xA9 + seg / 64)] else [R.SEG_STATUS seg]))) ∧
  (∀ (s : State) (port : Port) (seg : Fin 256), s.accepts port (R.SEG_LOCKCTL seg) 2 = true →
    Ends (exec (.segLockRel port seg) s) (fun t => t.eng.fld (R.SEG_STATUS_LOCK seg) = s.eng.fld (R.SEG_STATUS_LOCK seg) - 1 ∧
      (s.eng.fld (R.SEG_STATUS_LOCK seg) = 0 → t.eng.hasBit (R.E_SEG_LOCK_ERR seg) = true) ∧ t.eng.answer = okAnswer port ∧
      Kept s t (if s.eng.fld (R.SEG_STATUS_LOCK seg) = 0 then [statusAddr (0xA9 + seg / 64)] else [R.SEG_STATUS seg]))) ∧
  (∀ (s : State) (port : Port) (seg : Fin 256), s.accepts port (R.SEG_LOCKCTL seg) 4 = true →
    Ends (exec (.markread port seg) s) (fun t => t.eng.fld (R.SEG_STATUS_STATE seg) = (if s.eng.fld (R.SEG_STATUS_STATE seg) = 3 ∧ s.eng.fld (R.SEG_STATUS_LOCK seg) = 0 then 4 else s.eng.fld (R.SEG_STATUS_STATE seg)) ∧
      t.eng.fld (R.SEG_STATUS_LOCK seg) = s.eng.fld (R.SEG_STATUS_LOCK seg) ∧ t.eng.answer = okAnswer port ∧ Kept s t [R.SEG_STATUS seg]))

/-- O35. R29, R226, R229, R80, R282, R290, R292: the weir steps down under its conditions, with DOWNCNT one more, and up after its hold. A pack that closes at a full FIFO is discarded and counted, and a lost span that has ended is logged. The oldest pack of a stream FIFO, paid from its intake's reserve or the spare budget, or of the marker writer, enters the write queue of its pseudo-channel, which must be online and have room; a retraining one takes none, and what is bound for an offline one is lost. A write whose last command has left the retry buffer changes its bytes of the cistern and no others. The model's choices it rests on: notes/assumptions/10, 117. -/
def Obligations.WeirAndPacks : Prop :=
  (∀ (s : State) (n : Fin 48), s.eng.live = true → n.val < s.eng.store.intakes.length → s.eng.flag R.SYS_STATUS_ARMED = true → s.eng.weirOn n = true → 96 < (s.eng.sto n).fifo.length → s.eng.weirSteps n < 8 →
    (s.eng.sto n).lastDown.all (fun c => decide (c + 64 ≤ s.eng.cc)) = true →
    Ends (exec (.weirStepDown n) s) (fun t => t.eng.weirSteps n = s.eng.weirSteps n + 1 ∧ t.eng.reg (R.WEIR_DOWNCNT n) = satAdd (s.eng.reg (R.WEIR_DOWNCNT n)) 1 ∧
      (t.eng.sto n).lastDown = some s.eng.cc ∧ (t.eng.sto n).pack.isSome = (!s.eng.segOpen && (s.eng.sto n).pack.isSome) ∧ (s.eng.weirSteps n = 7 → t.eng.hasBit R.E_WEIR_FLOOR = true) ∧
      t.eng.hasBit R.E_WEIR_STEP = true ∧ RegsKept s t (fun a => !onPages storePages a) ∧ t.eng.tb = s.eng.tb ∧ MemKept s t)) ∧
  (∀ (s : State) (n : Fin 48), s.eng.live = true → (s.eng.sto n).fifo.length ≤ 96 ∨ 8 ≤ s.eng.weirSteps n → exec (.weirStepDown n) s = .next s) ∧
  (∀ (s : State) (n : Fin 48), s.eng.live = true → n.val < s.eng.store.intakes.length → s.eng.flag R.SYS_STATUS_ARMED = true → s.eng.weirOn n = true → 0 < s.eng.weirSteps n →
    s.eng.weirHold ≤ (s.eng.sto n).lowCount →
    Ends (exec (.weirStepUp n) s) (fun t => t.eng.weirSteps n = s.eng.weirSteps n - 1 ∧ (t.eng.sto n).lowCount = 0 ∧ t.eng.reg (R.WEIR_DOWNCNT n) = s.eng.reg (R.WEIR_DOWNCNT n) ∧
      (t.eng.sto n).pack.isSome = (!s.eng.segOpen && (s.eng.sto n).pack.isSome) ∧ RegsKept s t (fun a => !onPages storePages a) ∧ t.eng.tb = s.eng.tb ∧ MemKept s t)) ∧
  (∀ (s : State) (n : Fin 48) (p : OpenPack), s.eng.live = true → n.val < s.eng.store.intakes.length → 128 ≤ (s.eng.sto n).fifo.length → (s.eng.sto n).pack = some p →
    packCapacity p.type ≤ p.items.length → (s.eng.sto n).lost = none → (s.eng.sto n).lostEnd = none →
    Ends (exec (.packDiscard n) s) (fun t => (t.eng.sto n).pack = none ∧ (t.eng.sto n).lost = some (p.tb, 1) ∧ (t.eng.sto n).fifo = (s.eng.sto n).fifo ∧ (t.eng.sto n).seq = (s.eng.sto n).seq ∧
      t.eng.reg (R.WEIR_GAPCNT n) = satAdd (s.eng.reg (R.WEIR_GAPCNT n)) 1 ∧ Kept s t [R.WEIR_GAPCNT n, R.RU_STATUS n, R.RU_FIFO_PEAK n])) ∧
  (∀ (s : State) (n : Fin 48) (t0 t1 : Tb) (k seq : Nat), s.eng.live = true → n.val < s.eng.store.intakes.length → (s.eng.sto n).lost = some (t0, k) → (s.eng.sto n).lostEnd = some (t1, seq) →
    Ends (exec (.gapEnd n) s) (fun t => (t.eng.sto n).lost = none ∧ (t.eng.sto n).lostEnd = none ∧ t.eng.hasBit R.E_WEIR_GAP = true ∧
      t.eng.detected = s.eng.nowDetected 0xA4 2 0x0202 (min k 0xFFFFFFFF) ∧ RegsKept s t (fun a => !onPages storePages a) ∧ t.eng.tb = s.eng.tb ∧ MemKept s t)) ∧
  (∀ (s : State) (src : Fin 48) (k : Pack) (rest : List Pack) (p : Nat) (paid : StoreState), s.eng.live = true → src.val < s.eng.store.intakes.length → (s.eng.sto src).fifo = k :: rest →
    p = s.eng.pcOf (256 * k.slot) → p < s.eng.cis.pcs.length → s.eng.payPack src = some paid → s.eng.packTaken k = true → s.eng.pcSt p = 1 →
    Ends (exec (.packToCistern (src.castLE (by decide))) s) (fun t => (t.eng.sto src).fifo = rest ∧ t.eng.store.credits = paid.credits ∧ t.eng.store.spare = paid.spare ∧ t.eng.store.served = paid.served ∧
      (t.eng.pc p).wq = (s.eng.pc p).wq ++ [{ addr := 256 * k.slot, bytes := k.bytes, src := src, since := s.eng.cc }] ∧ Kept s t [R.RU_STATUS src, R.RU_FIFO_PEAK src])) ∧
  (∀ (s : State) (src : Fin 48) (k : Pack) (rest : List Pack), s.eng.live = true → (s.eng.sto src).fifo = k :: rest → (s.eng.payPack src = none ∨ s.eng.pcSt (s.eng.pcOf (256 * k.slot)) = 2) →
    exec (.packToCistern (src.castLE (by decide))) s = .next s) ∧
  (∀ (s : State) (src : Fin 48) (k : Pack) (rest : List Pack) (paid : StoreState), s.eng.live = true → src.val < s.eng.store.intakes.length → (s.eng.sto src).fifo = k :: rest →
    s.eng.payPack src = some paid → s.eng.cisServes = true → s.eng.pcSt (s.eng.pcOf (256 * k.slot)) = 3 → (s.eng.sto src).lost = none →
    Ends (exec (.packToCistern (src.castLE (by decide))) s) (fun t => (t.eng.sto src).fifo = rest ∧ (t.eng.sto src).lost = some (packTb k.bytes, 1) ∧
      t.eng.reg (R.WEIR_GAPCNT src) = satAdd (s.eng.reg (R.WEIR_GAPCNT src)) 1 ∧ Kept s t [R.RU_STATUS src, R.RU_FIFO_PEAK src, R.WEIR_GAPCNT src])) ∧
  (∀ (s : State) (k : Pack) (j : Nat) (rest : List (Pack × Nat)) (p : Nat), s.eng.live = true → s.eng.store.markPacks = (k, j) :: rest → p = s.eng.pcOf (256 * k.slot) →
    p < s.eng.cis.pcs.length → s.eng.packTaken k = true → s.eng.pcSt p = 1 →
    Ends (exec (.packToCistern 48) s) (fun t => t.eng.store.markPacks = rest ∧
      (t.eng.pc p).wq = (s.eng.pc p).wq ++ [{ addr := 256 * k.slot, bytes := k.bytes, src := 48, since := s.eng.cc }] ∧ Kept s t [])) ∧
  (∀ (s : State) (pc : Fin 64) (w : CisWrite) (rest : List CisWrite), s.eng.running = true → pc.val < s.eng.cis.pcs.length → (s.eng.pc pc).flight = w :: rest → (s.eng.pc pc).rung = 0 →
    w.last + 16 ≤ (s.eng.pc pc).count →
    Ends (exec (.writeComplete pc) s) (fun t => (t.eng.pc pc).flight = rest ∧ (∀ k : Fin w.bytes.length, readByte t.chip.cistern (w.addr + k) = w.bytes[k]) ∧
      CisternKept s t (fun a => decide (a < w.addr) || decide (w.addr + w.bytes.length ≤ a)) ∧ RegsKept s t (fun _ => true) ∧
      t.chip.tanks = s.chip.tanks ∧ t.eng.tb = s.eng.tb ∧ t.pending = s.pending)) ∧
  (∀ (s : State) (pc : Fin 64) (w : CisWrite) (rest : List CisWrite), (s.eng.pc pc).flight = w :: rest → (s.eng.pc pc).count < w.last + 16 → exec (.writeComplete pc) s = .next s)

/-! ## Flume links and the ring (R237 to R271) -/

/-- O36. R239, R242, R265: an enabled link that trains comes UP, or MISWIRED where the peer's port has its own name; a link that leaves UP is counted and logged, what waits on it is dropped and its unacknowledged flits go out by the other link; a link that leaves TRAINING or MISWIRED only goes DOWN; a DOWN link trains again. Each change is told by a LINKSTATE on the UP links of a module with a position. A flit with a bad CRC is counted, and the sixteenth within 1,024 CCLK takes the link DOWN. The model's choices it rests on: notes/assumptions/105. -/
def Obligations.LinkTraining : Prop :=
  (∀ (s : State) (side peer : Side), s.eng.mgt.powered = true → s.eng.running = true → s.eng.flag (R.FLU_CTL_EN side.code) = true → s.eng.fld (R.FLU_STATUS_STATE side.code) ≠ 2 →
    s.eng.fld (R.FLU_STATUS_STATE side.code) ≠ 3 → side ≠ peer →
    Ends (exec (.linkUp side peer) s) (fun t => t.eng.sideUp side = true ∧ t.eng.fld (R.FLU_STATUS_PEER_PORT side.code) = peer.code ∧ t.eng.fld (R.FLU_STATUS_LANES side.code) = 255 ∧
      t.eng.flag (R.FLU_CTL_RETRAIN side.code) = false ∧ t.eng.hasBit (R.E_FLU_UP side.code) = true ∧ t.eng.hasBit R.E_RING_TOPOLOGY = true ∧ (t.eng.link side).upAt = some s.eng.cc ∧
      (t.eng.link side).tx = (s.eng.link side).tx ++ s.tells side true ∧ (t.eng.link side.other).tx = (s.eng.link side.other).tx ++ (if s.eng.sideUp side.other then s.tells side true else []) ∧
      RegsKept s t (fun a => !onPages [0xF0 + side.code, 0xF2, 5] a) ∧ t.eng.tb = s.eng.tb ∧ MemKept s t)) ∧
  (∀ (s : State) (side : Side), s.eng.mgt.powered = true → s.eng.running = true → s.eng.flag (R.FLU_CTL_EN side.code) = true → s.eng.fld (R.FLU_STATUS_STATE side.code) ≠ 2 →
    s.eng.fld (R.FLU_STATUS_STATE side.code) ≠ 3 →
    Ends (exec (.linkUp side side) s) (fun t => t.eng.fld (R.FLU_STATUS_STATE side.code) = 3 ∧ t.eng.fld (R.FLU_STATUS_PEER_PORT side.code) = side.code ∧ t.eng.hasBit (R.E_FLU_MISWIRED side.code) = true ∧
      Sent s t (fun _ => s.tells side false) ∧ Kept s t [R.FLU_CTL side.code, R.FLU_STATUS side.code, statusAddr (0xF0 + side.code), R.RING_MEMBERS, statusAddr 0xF2])) ∧
  (∀ (s : State) (side peer : Side), s.eng.mgt.powered = true → s.eng.running = false ∨ s.eng.flag (R.FLU_CTL_EN side.code) = false ∨ s.eng.fld (R.FLU_STATUS_STATE side.code) = 2 ∨ s.eng.fld (R.FLU_STATUS_STATE side.code) = 3 →
    exec (.linkUp side peer) s = .next s) ∧
  (∀ (s : State) (side : Side), s.eng.mgt.powered = true → s.eng.sideUp side = true →
    Ends (exec (.linkDown side) s) (fun t => t.eng.reg (R.FLU_STATUS side.code) = 0 ∧ t.eng.reg (R.FLU_HOPDLY side.code) = 0 ∧ t.eng.flag (R.FLU_CTL_RETRAIN side.code) = false ∧
      t.eng.reg (R.FLU_DOWNCNT side.code) = satAdd (s.eng.reg (R.FLU_DOWNCNT side.code)) 1 ∧ t.eng.hasBit (R.E_FLU_DOWN side.code) = true ∧ t.eng.hasBit R.E_RING_TOPOLOGY = true ∧
      (s.eng.role ≠ 2 → t.eng.detected = s.eng.nowDetected (0xF0 + side.code) 1 0x0106 side.code) ∧ (t.eng.link side).tx = [] ∧
      (t.eng.link side.other).tx = (s.eng.link side.other).tx ++ (if s.eng.sideUp side.other then (s.eng.ring.unacked.filter (fun u => u.side == side)).map (fun u => u.flit) ++ s.tells side false else []) ∧
      (∀ u ∈ t.eng.ring.unacked, u.side ≠ side) ∧ RegsKept s t (fun a => !onPages [0xF0 + side.code, 0xF2, 5] a) ∧ t.eng.tb = s.eng.tb ∧ MemKept s t)) ∧
  (∀ (s : State) (side : Side), s.eng.mgt.powered = true → s.eng.fld (R.FLU_STATUS_STATE side.code) = 1 ∨ s.eng.fld (R.FLU_STATUS_STATE side.code) = 3 →
    Ends (exec (.linkDown side) s) (fun t => t.eng.reg (R.FLU_STATUS side.code) = 0 ∧ t.eng.reg (R.FLU_HOPDLY side.code) = 0 ∧ t.eng.flag (R.FLU_CTL_RETRAIN side.code) = false ∧ (t.eng.link side).tx = [] ∧
      (t.eng.link side.other).tx = (s.eng.link side.other).tx ++ (if s.eng.sideUp side.other then s.tells side false else []) ∧
      Kept s t [R.FLU_CTL side.code, R.FLU_STATUS side.code, R.FLU_HOPDLY side.code, R.RING_MEMBERS, statusAddr 0xF2])) ∧
  (∀ (s : State) (side : Side), s.eng.mgt.powered = true → s.eng.fld (R.FLU_STATUS_STATE side.code) = 0 → exec (.linkDown side) s = .next s) ∧
  (∀ (s : State) (side : Side), s.eng.mgt.powered = true → s.eng.running = true → s.eng.flag (R.FLU_CTL_EN side.code) = true → s.eng.fld (R.FLU_STATUS_STATE side.code) = 0 →
    Ends (exec (.linkRetrain side) s) (fun t => t.eng.fld (R.FLU_STATUS_STATE side.code) = 1 ∧ Sent s t (fun _ => s.tells side false) ∧ (s.eng.role ≠ 0 → t.eng.hasBit R.E_RING_TOPOLOGY = true) ∧
      Kept s t ([R.FLU_STATUS side.code] ++ if s.eng.role = 0 then [] else [R.RING_MEMBERS, statusAddr 0xF2]))) ∧
  (∀ (s : State) (side : Side), s.eng.mgt.powered = true → s.eng.running = false ∨ s.eng.flag (R.FLU_CTL_EN side.code) = false ∨ s.eng.fld (R.FLU_STATUS_STATE side.code) ≠ 0 → exec (.linkRetrain side) s = .next s) ∧
  (∀ (s : State) (side : Side), s.eng.mgt.powered = true → s.eng.sideUp side = true → (s.eng.link side).crcAt.length < 15 →
    Ends (exec (.flitCrcFailure side) s) (fun t => t.eng.reg (R.FLU_CRCERR side.code) = satAdd (s.eng.reg (R.FLU_CRCERR side.code)) 1 ∧ t.eng.hasBit (R.E_FLU_CRCERR side.code) = true ∧
      t.eng.sideUp side = true ∧ (t.eng.link side).crcAt = s.eng.cc :: (s.eng.link side).crcAt ∧ (t.eng.link side).failAt = some s.eng.cc ∧ Kept s t [R.FLU_CRCERR side.code, statusAddr (0xF0 + side.code)])) ∧
  (∀ (s : State) (side : Side), s.eng.mgt.powered = true → s.eng.sideUp side = true → 15 ≤ (s.eng.link side).crcAt.length → nth (s.eng.link side).crcAt 14 0 + 1024 ≤ s.eng.cc →
    Ends (exec (.flitCrcFailure side) s) (fun t => t.eng.reg (R.FLU_CRCERR side.code) = satAdd (s.eng.reg (R.FLU_CRCERR side.code)) 1 ∧ t.eng.hasBit (R.E_FLU_CRCERR side.code) = true ∧
      t.eng.sideUp side = true ∧ Kept s t [R.FLU_CRCERR side.code, statusAddr (0xF0 + side.code)])) ∧
  (∀ (s : State) (side : Side), s.eng.mgt.powered = true → s.eng.sideUp side = true → 15 ≤ (s.eng.link side).crcAt.length → s.eng.cc < nth (s.eng.link side).crcAt 14 0 + 1024 →
    Ends (exec (.flitCrcFailure side) s) (fun t => t.eng.reg (R.FLU_STATUS side.code) = 0 ∧ t.eng.reg (R.FLU_CRCERR side.code) = satAdd (s.eng.reg (R.FLU_CRCERR side.code)) 1 ∧
      t.eng.reg (R.FLU_DOWNCNT side.code) = satAdd (s.eng.reg (R.FLU_DOWNCNT side.code)) 1 ∧ t.eng.hasBit (R.E_FLU_DOWN side.code) = true ∧ t.eng.hasBit R.E_RING_TOPOLOGY = true ∧ (t.eng.link side).tx = [] ∧
      RegsKept s t (fun a => !onPages [0xF0 + side.code, 0xF2, 5] a) ∧ t.eng.tb = s.eng.tb ∧ MemKept s t)) ∧
  (∀ (s : State) (side : Side), s.eng.mgt.powered = true → s.eng.sideUp side = false → exec (.flitCrcFailure side) s = .next s)

/-- O37. R243 to R247: HELLOs go out of the UP links and are recorded and passed on with their source; 1 ms after the last new ID the module ranked first becomes the head and assigns position 1, one that heard none stays ALONE, and one behind another goes on waiting; an ASSIGN gives a module its position and role and goes on with the next position, or leaves it ALONE where the position is held, and at the head's FA it closes the ring with the RINGSIZE it carries; a chain is assigned upstream after 1 ms; LINKSTATE reports are kept, passed on and, within 1 ms of the head's last ASSIGN, make their sender present; REDISCOVER tells the ring's other modules and starts afresh unless a present module is armed. The model's choices it rests on: notes/assumptions/11, 64, 66, 111, 144, 145. -/
def Obligations.Discovery : Prop :=
  (∀ s : State, s.eng.running = true →
    Ends (exec .helloSend s) (fun t => Sent s t (fun side => [⟨s.eng.pos, 0, .hello s.eng.moduleId side s.eng.headPref s.eng.ring.hostUp s.eng.hostAge s.eng.stackCount 0⟩]) ∧
      t.eng.fld R.RING_STATUS_STATE = (if s.eng.role = 0 ∧ s.eng.ring.positioned = false ∧ s.eng.fld R.RING_STATUS_STATE = 0 then 1 else s.eng.fld R.RING_STATUS_STATE) ∧ Kept s t [R.RING_STATUS])) ∧
  (∀ (s : State) (side port : Side) (src hops : Fin 8) (id : BitVec 64) (pref : Fin 4) (hostup : Bool) (age : BitVec 32) (stk : Fin 4), s.eng.running = true → s.eng.sideUp side = true → id.toNat ≠ s.eng.moduleId →
    Ends (exec (.hello side id port pref hostup age stk ⟨src, hops⟩) s) (fun t => (⟨id.toNat, pref, hostup, age.toNat, stk, src⟩ : Heard) ∈ t.eng.ring.heard ∧
      (s.eng.ring.heard.any (fun h => h.id == id.toNat) = false → t.eng.ring.lastNew = s.eng.cc) ∧
      Sent s t (fun x => if x ≠ side ∧ hops.val < 7 then [⟨src, 0, .hello id.toNat port pref hostup age.toNat stk (hops + 1)⟩] else []) ∧
      (hops = 0 → t.eng.reg64 (R.FLU_PEER_ID_LO side.code) = id ∧ t.eng.fld (R.FLU_STATUS_PEER_PORT side.code) = port.code) ∧
      Kept s t ([R.RING_STATUS] ++ if hops = 0 then [R.FLU_PEER_ID_LO side.code, R.FLU_PEER_ID_LO side.code + 4, R.FLU_STATUS side.code] else []))) ∧
  (∀ s : State, s.eng.running = true → s.eng.role = 0 → s.eng.ring.positioned = false → s.eng.rankBase + 600000 ≤ s.eng.cc → s.eng.ring.heard = [] →
    Ends (exec .headElection s) (fun t => t.eng.ring.positioned = true ∧ t.eng.fld R.RING_STATUS_STATE = 2 ∧ t.eng.role = 0 ∧ t.eng.ringSize = 1 ∧ t.eng.fld R.RING_MEMBERS_PRESENT = 1 ∧
      t.eng.flag R.RING_CTL_REDISCOVER = false ∧ t.eng.reg R.RING_TBERR = 0 ∧ Sent s t (fun _ => []) ∧ Kept s t [R.RING_STATUS, R.RING_MEMBERS, R.RING_CTL, R.RING_TBERR])) ∧
  (∀ s : State, s.eng.running = true → s.eng.role = 0 → s.eng.ring.positioned = false → s.eng.rankBase + 600000 ≤ s.eng.cc → s.eng.ring.heard ≠ [] → s.eng.headPref ≠ 2 →
    (∀ h ∈ s.eng.ring.heard, h.pref ≠ 2 ∧ ranksBefore s.eng.selfHeard h = true) →
    Ends (exec .headElection s) (fun t => t.eng.ring.positioned = true ∧ t.eng.role = 1 ∧ t.eng.fld R.RING_STATUS_STATE = 4 ∧ t.eng.fld R.RING_MEMBERS_PRESENT = 1 ∧ t.eng.hasBit R.E_RING_POSITION = true ∧
      t.eng.ring.assignAt = some s.eng.cc ∧ (7 < s.eng.ring.heard.length → t.eng.reg R.RING_REASON = 6) ∧
      Sent s t (fun x => if x = .fb then [⟨s.eng.pos, 0, .assign s.eng.moduleId 1 false⟩] else []) ∧ Kept s t [R.RING_STATUS, R.RING_MEMBERS, R.RING_TBERR, R.RING_REASON, statusAddr 0xF2])) ∧
  (∀ (s : State) (h : Heard), s.eng.running = true → s.eng.role = 0 → s.eng.ring.positioned = false → s.eng.rankBase + 600000 ≤ s.eng.cc → h ∈ s.eng.ring.heard → h.pref ≠ 2 → h ≠ s.eng.selfHeard →
    ranksBefore s.eng.selfHeard h = false ∨ s.eng.headPref = 2 →
    Ends (exec .headElection s) (fun t => t.eng.role = 0 ∧ t.eng.ring.positioned = false ∧ t.eng.fld R.RING_STATUS_STATE = 1 ∧ Sent s t (fun _ => []) ∧ Kept s t [R.RING_STATUS, R.RING_TBERR])) ∧
  (∀ s : State, s.eng.running = true → s.eng.role ≠ 0 ∨ s.eng.ring.positioned = true ∨ s.eng.cc < s.eng.rankBase + 600000 → exec .headElection s = .next s) ∧
  (∀ (s : State) (side : Side) (id : BitVec 64) (pos : Fin 8) (up : Bool), s.eng.running = true → s.eng.sideUp side = true → side = (if up then .fb else .fa) → s.eng.role = 0 → s.eng.ring.positioned = false →
    pos ≠ 0 → s.eng.ring.heldPos.contains pos.val = false →
    Ends (exec (.assign side id pos up) s) (fun t => t.eng.role = 2 ∧ t.eng.pos = pos ∧ t.eng.fld R.RING_STATUS_STATE = 3 ∧ t.eng.flag R.TB_STATUS_TRIB = true ∧ t.eng.ring.positioned = true ∧
      t.eng.flag R.RING_CTL_REDISCOVER = false ∧ (s.eng.flag R.RING_CTL_AUTOREF = true → t.eng.fld R.CLK_REFSEL_SRC = 3) ∧ t.eng.hasBit R.E_RING_POSITION = true ∧
      Sent s t (fun x => (if x = side then [] else [⟨pos, 0, .assign id.toNat (if up then pos.val - 1 else (pos.val + 1) % 8) up⟩]) ++
        [⟨pos, 0, .linkstate pos .fa (s.eng.sideUp .fa) 0 s.eng.armed⟩, ⟨pos, 0, .linkstate pos .fb (s.eng.sideUp .fb) 0 s.eng.armed⟩]) ∧
      RegsKept s t (fun a => !onPages [5, 6, 0xF2] a) ∧ t.eng.tb = s.eng.tb ∧ MemKept s t)) ∧
  (∀ (s : State) (side : Side) (id : BitVec 64) (pos : Fin 8) (up : Bool), s.eng.running = true → s.eng.sideUp side = true → side = (if up then .fb else .fa) → s.eng.role = 0 → s.eng.ring.positioned = false →
    pos = 0 ∨ s.eng.ring.heldPos.contains pos.val = true →
    Ends (exec (.assign side id pos up) s) (fun t => t.eng.role = 0 ∧ t.eng.fld R.RING_STATUS_STATE = 2 ∧ t.eng.ring.positioned = true ∧ t.eng.flag R.RING_CTL_REDISCOVER = false ∧ t.eng.fld R.RING_MEMBERS_PRESENT = 1 ∧
      Sent s t (fun _ => []) ∧ Kept s t [R.RING_STATUS, R.RING_CTL, R.RING_MEMBERS])) ∧
  (∀ (s : State) (id : BitVec 64) (pos : Fin 8), s.eng.running = true → s.eng.sideUp .fa = true → s.eng.role = 1 →
    Ends (exec (.assign .fa id pos false) s) (fun t => t.eng.flag R.RING_STATUS_CLOSED = true ∧ t.eng.ringSize = (if pos = 0 then 8 else pos.val) ∧ t.eng.flag R.RING_CTL_REDISCOVER = false ∧ Kept s t [R.RING_STATUS, R.RING_CTL])) ∧
  (∀ (s : State) (side : Side) (id : BitVec 64) (pos : Fin 8) (up : Bool), s.eng.running = true →
    s.eng.sideUp side = false ∨ side ≠ (if up then .fb else .fa) ∨ (s.eng.role = 1 ∧ up = true) ∨ (s.eng.role ≠ 1 ∧ (s.eng.role ≠ 0 ∨ s.eng.ring.positioned = true)) → exec (.assign side id pos up) s = .next s) ∧
  (∀ (s : State) (t0 : Nat), s.eng.running = true → s.eng.ring.assignAt = some t0 → s.eng.role = 1 → s.eng.flag R.RING_STATUS_CLOSED = false → s.eng.ring.assignUp = false → t0 + 600000 ≤ s.eng.cc →
    Ends (exec .assignTimeout s) (fun t => t.eng.ring.assignUp = true ∧ t.eng.ring.assignAt = some s.eng.cc ∧ t.eng.flag R.RING_CTL_REDISCOVER = false ∧
      Sent s t (fun x => if x = .fa then [⟨s.eng.pos, 0, .assign s.eng.moduleId 7 true⟩] else []) ∧ Kept s t [R.RING_CTL])) ∧
  (∀ (s : State) (side port : Side) (pos hops : Fin 8) (up armed : Bool), s.eng.running = true → s.eng.sideUp side = true → s.eng.role = 0 ∨ pos.val ≠ s.eng.pos →
    Ends (exec (.linkstate side pos port up hops armed) s) (fun t => t.eng.ring.heldPos.contains pos.val = true ∧ t.eng.ring.downEnds.contains (pos.val, port) = !up ∧
      bitAt (t.eng.fld R.RING_MEMBERS_ARMED) pos = armed ∧ (hops = 0 → t.eng.fld (R.FLU_STATUS_PEER_POS side.code) = pos ∧ t.eng.flag (R.FLU_STATUS_PEER_POSV side.code) = true) ∧
      t.eng.fld R.RING_MEMBERS_PRESENT = (if s.eng.role = 1 ∧ s.eng.ring.assignAt.any (fun t0 => decide (s.eng.cc ≤ t0 + 600000)) = true then s.eng.fld R.RING_MEMBERS_PRESENT ||| 2 ^ pos.val
        else s.eng.fld R.RING_MEMBERS_PRESENT) ∧
      (s.eng.sideUp side.other = true → hops.val < 7 → (⟨pos, 0, .linkstate pos port up (hops + 1) armed⟩ : Flit) ∈ (t.eng.link side.other).tx) ∧
      RegsKept s t (fun a => !onPages [5, 0xF2] a && !(a == R.FLU_STATUS side.code)) ∧ t.eng.tb = s.eng.tb ∧ MemKept s t)) ∧
  (∀ (s : State) (side port : Side) (pos hops : Fin 8) (up armed : Bool), s.eng.running = true → s.eng.sideUp side = true → s.eng.role ≠ 0 → pos.val = s.eng.pos →
    Ends (exec (.linkstate side pos port up hops armed) s) (fun t => t.eng.ring = s.eng.ring ∧ Kept s t [R.FLU_STATUS side.code])) ∧
  (∀ (s : State) (port : Port) (v : Word), s.accepts port R.RING_CTL (v ||| 0x10) = true → s.eng.armed = false → s.eng.fld R.RING_MEMBERS_ARMED = 0 →
    Ends (exec (.rediscover port v) s) (fun t => t.eng.reg R.RING_STATUS = BitVec.ofNat 32 (0x200 + (s.eng.flag R.RING_STATUS_FUNNEL).toNat * 2 ^ 13) ∧
      t.eng.reg R.RING_MEMBERS = BitVec.ofNat 32 (s.eng.fld R.RING_MEMBERS_FUNNEL_MAP * 2 ^ 24) ∧ t.eng.reg R.RING_TBERR = 0 ∧ t.eng.ring.heard = [] ∧ t.eng.ring.positioned = false ∧ t.eng.ring.unacked = [] ∧
      t.eng.ring.heldPos = [] ∧ t.eng.ring.lastNew = s.eng.cc ∧ t.eng.flag R.TB_STATUS_TRIB = false ∧ (s.eng.role ≠ 0 → t.eng.hasBit R.E_RING_POSITION = true) ∧
      (∀ q : Fin 8, s.eng.role ≠ 0 → (s.eng.hopsTo q).isSome = true → q.val ≠ s.eng.pos → s.eng.ring.peers.length = 8 → (s.eng.peer q).waiting = [] → s.eng.ring.unacked.countP (fun u => u.flit.dst == q.val) < 512 →
        ∃ x, (⟨s.eng.pos, q, .cwr (s.eng.peer q).txSeq R.RING_CTL (t.eng.reg R.RING_CTL).toNat⟩ : Flit) ∈ (t.eng.link x).tx) ∧
      t.eng.flag R.RING_CTL_REDISCOVER = true ∧ t.eng.flag R.MGT_ADDR_SETTLED = false ∧ t.eng.fld R.MGT_ADDR_EFFECTIVE = (s.eng.fld R.MGT_ADDR_BASE + 8) % 128 ∧ t.eng.answer = okAnswer port ∧
      RegsKept s t (fun a => !onPages [0xF2] a && !(a == R.TB_STATUS) && !(a == R.MGT_ADDR)) ∧ t.eng.tb = s.eng.tb ∧ MemKept s t)) ∧
  (∀ (s : State) (port : Port) (v : Word) (q : Nat), s.accepts port R.RING_CTL (v ||| 0x10) = true →
    (List.range 8).find? (fun q => bitAt (s.eng.fld R.RING_MEMBERS_ARMED ||| (if s.eng.armed then 2 ^ s.eng.pos else 0)) q) = some q →
    Ends (exec (.rediscover port v) s) (fun t => t.eng.reg R.RING_REASON = BitVec.ofNat 32 (2 + q * 16) ∧ t.eng.ring.heard = s.eng.ring.heard ∧ t.eng.ring.positioned = s.eng.ring.positioned ∧ t.eng.answer = okAnswer port ∧
      Kept s t [R.RING_CTL, R.RING_REASON]))

/-- O38. R249 to R253: a delay exchange sends a DREQ on each UP link, a DREQ is answered with the stamps of its arrival and departure, and a DRSP gives the flight, its mean over the last 16 and the hop delay; the head sends SYNCs; every SYNC is relayed with its correction while its HOPS allow, and the first of a period gives a tributary the error, PRESENT and the funnel mode: disarmed beyond 2 tk, TB and the sampler grid shift by the whole ticks nearest to the error, and at each the sampler phase moves by one step against what is left; armed, the end of the range or an error above 4 tk is alignment lost, once; 16 good ones lock. The model's choices it rests on: notes/assumptions/11, 67, 68, 69. -/
def Obligations.Alignment : Prop :=
  (∀ (s : State) (at_ : Fin 1024), s.eng.running = true →
    Ends (exec (.delayExchange at_) s) (fun t => Sent s t (fun _ => [⟨s.eng.pos, 0, .dreq (s.eng.stamp at_)⟩]) ∧ Kept s t [])) ∧
  (∀ (s : State) (side : Side) (t1 : BitVec 64) (at_ stay : Fin 1024), s.eng.running = true →
    Ends (exec (.dreq side t1 at_ stay) s) (fun t =>
      Sent s t (fun x => if x = side then [⟨s.eng.pos, 0, .drsp t1.toNat (s.eng.stamp at_) ((s.eng.stamp at_ + stay) % 2 ^ 64)⟩] else []) ∧ Kept s t [])) ∧
  (∀ (s : State) (side : Side) (t1 t2 t3 : BitVec 64) (at_ : Fin 1024) (fs : List Int) (mean : Nat), s.eng.running = true → s.eng.sideUp side = true →
    fs = ((stampDiff (s.eng.stamp at_) t1.toNat - stampDiff t3.toNat t2.toNat) / 2 :: (s.eng.link side).flights).take 16 → mean = (fs.foldl (· + ·) 0 / (fs.length : Int)).toNat →
    Ends (exec (.drsp side t1 t2 t3 at_) s) (fun t => (t.eng.link side).flights = fs ∧ t.eng.fld (R.FLU_FLIGHT_FLIGHT side.code) = mean % 2 ^ 24 ∧
      t.eng.fld (R.FLU_HOPDLY_CCLK side.code) = (10 + (mean + 1023) / 1024) % 32 ∧ Kept s t [R.FLU_FLIGHT side.code, R.FLU_HOPDLY side.code])) ∧
  (∀ (s : State) (side : Side) (t1 t2 t3 : BitVec 64) (at_ : Fin 1024), s.eng.running = true → s.eng.sideUp side = false → exec (.drsp side t1 t2 t3 at_) s = .next s) ∧
  (∀ s : State, s.eng.running = true → s.eng.role = 1 →
    Ends (exec .syncSend s) (fun t => Sent s t (fun _ =>
        [⟨s.eng.pos, 0, .sync (tbOfCycle s.eng.nextCycle).toNat 0 0 (s.eng.flag R.RING_STATUS_MODE) (s.eng.flag R.RING_STATUS_FUNNEL) (s.eng.fld R.RING_MEMBERS_PRESENT)⟩]) ∧ Kept s t [])) ∧
  (∀ s : State, s.eng.running = true → s.eng.role ≠ 1 → exec .syncSend s = .next s) ∧
  (∀ (s : State) (side : Side) (tbh : BitVec 64) (corr : BitVec 24) (hops : Fin 8) (mode funnel : Bool) (present : BitVec 8) (at_ stay : Fin 1024) (e ticks : Int), s.eng.running = true → s.eng.sideUp side = true →
    s.eng.role = 2 → s.eng.ring.syncAt = none ∨ s.eng.ring.syncAt.any (fun t => decide (2 ^ 15 ≤ (stampDiff tbh.toNat t).natAbs)) = true →
    e = stampDiff (s.eng.stamp at_) ((tbh.toNat * 64 + corr.toNat + s.eng.fld (R.FLU_FLIGHT_FLIGHT side.code)) % 2 ^ 64) →
    ticks = (if s.eng.armed = false ∧ 128 < e.natAbs then (e + 32) / 64 else 0) →
    Ends (exec (.sync side tbh corr hops mode funnel present at_ stay) s) (fun t => t.eng.reg R.RING_TBERR = BitVec.ofInt 32 e ∧ t.eng.ring.syncAt = some tbh.toNat ∧ t.eng.flag R.RING_STATUS_FUNNEL = funnel ∧
      t.eng.fld R.RING_MEMBERS_PRESENT = present.toNat ∧ (present.toNat ≠ s.eng.fld R.RING_MEMBERS_PRESENT → t.eng.ringSize = (List.range 8).countP (fun q => bitAt present.toNat q)) ∧
      t.eng.tb = s.eng.tb - BitVec.ofInt 64 (16 * (ticks / 16)) ∧ t.eng.ring.grid = s.eng.ring.grid - ticks ∧ t.eng.ring.phase = max (-128) (min 128 (s.eng.ring.phase - (e - 64 * ticks).sign)) ∧
      Sent s t (fun x => if x ≠ side ∧ hops.val + 1 < t.eng.ringSize - 1 then
        [⟨0, 0, .sync tbh.toNat ((corr.toNat + stay.val + s.eng.fld (R.FLU_FLIGHT_FLIGHT side.code)) % 2 ^ 24) (hops.val + 1) mode funnel present.toNat⟩] else []) ∧
      RegsKept s t (fun a => !onPages [5, 0xF2] a) ∧ MemKept s t)) ∧
  (∀ (s : State) (side : Side) (tbh : BitVec 64) (corr : BitVec 24) (hops : Fin 8) (mode funnel : Bool) (present : BitVec 8) (at_ stay : Fin 1024) (e : Int), s.eng.running = true → s.eng.sideUp side = true →
    s.eng.role = 2 → s.eng.ring.syncAt = none → present.toNat = s.eng.fld R.RING_MEMBERS_PRESENT → s.eng.armed = true → s.eng.ring.alignBad = false →
    e = stampDiff (s.eng.stamp at_) ((tbh.toNat * 64 + corr.toNat + s.eng.fld (R.FLU_FLIGHT_FLIGHT side.code)) % 2 ^ 64) → 256 < e.natAbs ∨ (s.eng.ring.phase - e.sign).natAbs = 128 →
    Ends (exec (.sync side tbh corr hops mode funnel present at_ stay) s) (fun t => t.eng.hasBit R.E_RING_ALIGN_LOST = true ∧ t.eng.detected = s.eng.nowDetected 0xF2 2 0x020C (BitVec.ofInt 32 e).toNat ∧
      t.eng.fld R.RING_STATUS_STATE = 3 ∧ t.eng.ring.alignBad = true ∧ t.eng.ring.lockCount = 0 ∧ Kept s t [R.RING_TBERR, R.RING_STATUS, statusAddr 0xF2])) ∧
  (∀ (s : State) (side : Side) (tbh : BitVec 64) (corr : BitVec 24) (hops : Fin 8) (mode funnel : Bool) (present : BitVec 8) (at_ stay : Fin 1024) (e : Int), s.eng.running = true → s.eng.sideUp side = true →
    s.eng.role = 2 → s.eng.ring.syncAt = none → present.toNat = s.eng.fld R.RING_MEMBERS_PRESENT → s.eng.armed = false → s.eng.ring.lockCount = 15 → s.eng.fld R.RING_STATUS_STATE ≠ 4 →
    e = stampDiff (s.eng.stamp at_) ((tbh.toNat * 64 + corr.toNat + s.eng.fld (R.FLU_FLIGHT_FLIGHT side.code)) % 2 ^ 64) → e.natAbs ≤ 32 →
    Ends (exec (.sync side tbh corr hops mode funnel present at_ stay) s) (fun t => t.eng.fld R.RING_STATUS_STATE = 4 ∧ t.eng.hasBit R.E_RING_LOCKED = true ∧ Kept s t [R.RING_TBERR, R.RING_STATUS, statusAddr 0xF2])) ∧
  (∀ (s : State) (side : Side) (tbh : BitVec 64) (corr : BitVec 24) (hops : Fin 8) (mode funnel : Bool) (present : BitVec 8) (at_ stay : Fin 1024) (t0 : Nat), s.eng.running = true → s.eng.sideUp side = true →
    s.eng.role = 2 → s.eng.ring.syncAt = some t0 → (stampDiff tbh.toNat t0).natAbs < 2 ^ 15 →
    Ends (exec (.sync side tbh corr hops mode funnel present at_ stay) s) (fun t => Sent s t (fun x => if x ≠ side ∧ hops.val + 1 < s.eng.ringSize - 1 then
      [⟨0, 0, .sync tbh.toNat ((corr.toNat + stay.val + s.eng.fld (R.FLU_FLIGHT_FLIGHT side.code)) % 2 ^ 24) (hops.val + 1) mode funnel present.toNat⟩] else []) ∧ Kept s t [])) ∧
  (∀ (s : State) (side : Side) (tbh : BitVec 64) (corr : BitVec 24) (hops : Fin 8) (mode funnel : Bool) (present : BitVec 8) (at_ stay : Fin 1024), s.eng.running = true → s.eng.sideUp side = false ∨ s.eng.role ≠ 2 →
    exec (.sync side tbh corr hops mode funnel present at_ stay) s = .next s)

/-- O39. R254, R256, R258, R267, R270, R271: the first arrival of a record of another module is used, the second discarded, and each goes on while its HOPS allow; in lockstep it takes effect with the lag of 104, and a late one is counted and logged; failures of both inputs within 98 CCLK are counted and logged. A SETTLE flit sets SETTLE_RX, goes on at every arrival, and at the first settles a following engine in local mode, or in lockstep at the instant of cycle c + 104; a DAM flit with another instant is recorded, and one that drove the pin makes the cause PEER; a RELEASE flit goes on and releases a dammed module, whose TB goes on at DAM_TB + 96 × elapsed. The model's choices it rests on: notes/assumptions/97. -/
def Obligations.Records : Prop :=
  (∀ (s : State) (side : Side) (r : EvRec), s.eng.running = true → s.eng.sideUp side = true → r.origin.val ≠ s.eng.pos → s.eng.flag R.RING_STATUS_MODE = false →
    Ends (exec (.ev side [r]) s) (fun t => t.eng.path.fluX = s.eng.path.fluX ++
        (if s.eng.ring.evSeen.contains (r.origin.val, s.eng.cc - (s.eng.cycle + 256 - r.cyc.val) % 256) then [] else [⟨s.eng.cc - 16, r.origin, r.bits, r.tick⟩]) ∧
      t.eng.ring.evSeen.contains (r.origin.val, s.eng.cc - (s.eng.cycle + 256 - r.cyc.val) % 256) = true ∧
      (s.eng.sideUp side.other = true → r.hops.val + 1 < s.eng.ringSize - 1 → (s.eng.link side.other).tx.all (fun f => f.body.kind.1 != 2) = true →
        (t.eng.link side.other).tx = (s.eng.link side.other).tx ++ [⟨s.eng.pos, 0, .ev [{ r with hops := r.hops + 1 }]⟩]) ∧ Kept s t [])) ∧
  (∀ (s : State) (side : Side) (r : EvRec), s.eng.running = true → s.eng.sideUp side = false ∨ r.origin.val = s.eng.pos → exec (.ev side [r]) s = .next s) ∧
  (∀ (s : State) (side : Side) (r : EvRec) (n : Nat), s.eng.running = true → s.eng.sideUp side = true → r.origin.val ≠ s.eng.pos → s.eng.flag R.RING_STATUS_MODE = true →
    n = s.eng.cc - (s.eng.cycle + 256 - r.cyc.val) % 256 → s.eng.ring.evSeen.contains (r.origin.val, n) = false → s.eng.cc < n + 218 →
    Ends (exec (.ev side [r]) s) (fun t => t.eng.path.fluX = s.eng.path.fluX ++ [⟨n + 104, r.origin, r.bits, r.tick⟩] ∧ Kept s t [])) ∧
  (∀ (s : State) (side : Side) (r : EvRec) (n : Nat), s.eng.running = true → s.eng.sideUp side = true → r.origin.val ≠ s.eng.pos → s.eng.flag R.RING_STATUS_MODE = true →
    n = s.eng.cc - (s.eng.cycle + 256 - r.cyc.val) % 256 → s.eng.ring.evSeen.contains (r.origin.val, n) = false → n + 218 ≤ s.eng.cc →
    Ends (exec (.ev side [r]) s) (fun t => t.eng.path.fluX = s.eng.path.fluX ∧ t.eng.reg R.RING_EVLATE = satAdd (s.eng.reg R.RING_EVLATE) 1 ∧ t.eng.hasBit R.E_RING_EVLATE = true ∧
      t.eng.detected = s.eng.nowDetected 0xF2 2 0x020D (r.origin.val + r.cyc.val * 256) ∧ Kept s t [R.RING_EVLATE, statusAddr 0xF2])) ∧
  (∀ (s : State) (a b d : Nat), s.eng.running = true → s.eng.fld (R.FLU_STATUS_STATE 0) ≠ 0 → s.eng.fld (R.FLU_STATUS_STATE 1) ≠ 0 → (s.eng.link .fa).failAt = some a → (s.eng.link .fb).failAt = some b →
    d = (if a ≤ b then b - a else a - b) → d < 98 → 1 < s.eng.ringSize →
    Ends (exec .evriskSpan s) (fun t => t.eng.reg R.RING_EVRISK = satAdd (s.eng.reg R.RING_EVRISK) 1 ∧ t.eng.hasBit R.E_RING_EVRISK = true ∧ (t.eng.link .fa).failAt = none ∧ (t.eng.link .fb).failAt = none ∧
      t.eng.detected = s.eng.nowDetected 0xF2 2 0x020E d ∧ Kept s t [R.RING_EVRISK, statusAddr 0xF2])) ∧
  (∀ (s : State) (side : Side) (tb : BitVec 64) (cause : BitVec 16) (origin hops : Fin 8), s.eng.running = true → s.eng.sideUp side = true →
    s.eng.ring.settleSeen.contains (tb.toNat, origin.val) = true ∨ origin.val = s.eng.pos ∨ s.eng.flag R.RING_CTL_SETTLE_FOLLOW = false →
    Ends (exec (.settleFlit side tb cause origin hops) s) (fun t => t.eng.hasBit R.E_RING_SETTLE_RX = true ∧ t.eng.settled = s.eng.settled ∧
      Sent s t (fun x => if x ≠ side ∧ hops.val + 1 < s.eng.ringSize - 1 ∧ origin.val ≠ s.eng.pos then [⟨origin, 0, .settle tb.toNat cause.toNat origin (hops + 1)⟩] else []) ∧ Kept s t [statusAddr 0xF2])) ∧
  (∀ (s : State) (side : Side) (tb : BitVec 64) (cause : BitVec 16) (origin hops : Fin 8), s.eng.running = true → s.eng.sideUp side = true → s.eng.ring.settleSeen.contains (tb.toNat, origin.val) = false →
    origin.val ≠ s.eng.pos → s.eng.flag R.RING_CTL_SETTLE_FOLLOW = true → s.eng.flag R.RING_STATUS_MODE = false → s.eng.dammed = false → s.eng.lost = false →
    Ends (exec (.settleFlit side tb cause origin hops) s) (fun t => t.eng.settled = true ∧ bitAt (t.eng.fld R.SAFE_CAUSES_CAUSE) 6 = true ∧ t.eng.causes = [] ∧ t.eng.armed = false ∧
      t.eng.hasBit R.E_RING_SETTLE_RX = true ∧ t.eng.ring.settleSeen.contains (tb.toNat, origin.val) = true ∧
      (s.eng.sideUp side.other = true → hops.val + 1 < s.eng.ringSize - 1 → (⟨origin, 0, .settle tb.toNat cause.toNat origin (hops + 1)⟩ : Flit) ∈ (t.eng.link side.other).tx) ∧
      t.eng.tb = s.eng.tb ∧ MemKept s t)) ∧
  (∀ (s : State) (side : Side) (tb : BitVec 64) (cause : BitVec 16) (origin hops : Fin 8), s.eng.running = true → s.eng.sideUp side = true → s.eng.ring.settleSeen.contains (tb.toNat, origin.val) = false →
    origin.val ≠ s.eng.pos → s.eng.flag R.RING_CTL_SETTLE_FOLLOW = true → s.eng.flag R.RING_STATUS_MODE = true → s.eng.cycle < tb.toNat / 16 + 231 →
    Ends (exec (.settleFlit side tb cause origin hops) s) (fun t => t.eng.settled = s.eng.settled ∧
      t.eng.path.dueCauses = s.eng.path.dueCauses ++ [(s.eng.cc + tb.toNat / 16 + 104 - s.eng.cycle + 127, 7, origin.val + cause.toNat * 2 ^ 16)] ∧ t.eng.hasBit R.E_RING_SETTLE_RX = true ∧ Kept s t [statusAddr 0xF2])) ∧
  (∀ (s : State) (side : Side) (tb : BitVec 64) (cause : BitVec 16) (origin hops : Fin 8), s.eng.running = true → s.eng.sideUp side = false → exec (.settleFlit side tb cause origin hops) s = .next s) ∧
  (∀ (s : State) (side : Side) (tb : BitVec 64) (origin hops : Fin 8) (driver : Bool) (td : Tb), s.eng.mgt.powered = true → s.eng.sideUp side = true → origin.val ≠ s.eng.pos → s.eng.dam.td = some td →
    Ends (exec (.damFlit side tb origin driver hops) s) (fun t => (td ≠ tb → t.eng.reg64 R.RING_DAM_PEER_TB_LO = tb ∧ t.eng.hasBit R.E_RING_DAM_SPLIT = true) ∧
      t.eng.fld R.DAM_STATUS_CAUSE = (if driver ∧ s.eng.fld R.DAM_STATUS_CAUSE = 1 then 5 else s.eng.fld R.DAM_STATUS_CAUSE) ∧
      Sent s t (fun x => if x ≠ side ∧ hops.val + 1 < s.eng.ringSize - 1 then [⟨origin, 0, .dam tb.toNat origin driver (hops + 1)⟩] else []) ∧
      Kept s t ([R.DAM_STATUS] ++ if td = tb then [] else [R.RING_DAM_PEER_TB_LO, R.RING_DAM_PEER_TB_LO + 4, statusAddr 0xF2]))) ∧
  (∀ (s : State) (side : Side) (tb : BitVec 64) (origin hops : Fin 8) (driver : Bool), s.eng.mgt.powered = true → s.eng.sideUp side = true → origin.val ≠ s.eng.pos → s.eng.dam.td = none →
    Ends (exec (.damFlit side tb origin driver hops) s) (fun t =>
      Sent s t (fun x => if x ≠ side ∧ hops.val + 1 < s.eng.ringSize - 1 then [⟨origin, 0, .dam tb.toNat origin driver (hops + 1)⟩] else []) ∧ Kept s t [])) ∧
  (∀ (s : State) (side : Side) (origin hops : Fin 8) (elapsed : Nat), s.eng.mgt.powered = true → s.eng.sideUp side = true → origin.val ≠ s.eng.pos → s.eng.dammed = true →
    Ends (exec (.releaseFlit side origin hops elapsed) s) (fun t => t.eng.dammed = false ∧ t.eng.running = true ∧ t.eng.tb = s.eng.reg64 R.TB_DAM_TB_LO + 96 * BitVec.ofNat 64 elapsed ∧
      t.eng.armed = false ∧ t.eng.hasBit R.E_DAM_RELEASED = true ∧
      (s.eng.sideUp side.other = true → hops.val + 1 < s.eng.ringSize - 1 → (⟨origin, 0, .release origin (hops + 1)⟩ : Flit) ∈ (t.eng.link side.other).tx) ∧ MemKept s t)) ∧
  (∀ (s : State) (side : Side) (origin hops : Fin 8) (elapsed : Nat), s.eng.mgt.powered = true → s.eng.sideUp side = true → origin.val ≠ s.eng.pos → s.eng.dammed = false →
    Ends (exec (.releaseFlit side origin hops elapsed) s) (fun t =>
      Sent s t (fun x => if x ≠ side ∧ hops.val + 1 < s.eng.ringSize - 1 then [⟨origin, 0, .release origin (hops + 1)⟩] else []) ∧ Kept s t []))

/-- O40. R260, R261, R264, R402: a control request to a position with a path is sent and waits for its answer, one without a path ends UNREACHABLE, one unanswered for 2^14 CCLK ends as TIMEOUT, and one written while another is under way changes nothing. A CWR from the flume writes a register of class RING, as a write of that link's port does, and is refused and logged elsewhere; a CRD reads as a read of that port does; both are answered with a CRSP, by a module that holds a position or to position 0. A flit for another position goes on, and one out of order changes nothing but is answered with a NAK. The model's choices it rests on: notes/assumptions/65, 144, 146. -/
def Obligations.ControlTraffic : Prop :=
  (∀ (s : State) (port : Port) (v : Word), s.accepts port R.RING_CWR_CTL (v ||| 1) = true → s.eng.flag R.RING_CWR_CTL_BUSY = false →
    bitAt (s.eng.fld R.RING_MEMBERS_REACH) (bitsOf v.toNat 2 3) = false ∨ bitsOf v.toNat 2 3 = s.eng.pos →
    Ends (exec (.cwrGo port v) s) (fun t => t.eng.fld R.RING_CWR_CTL_RESULT = 4 ∧ t.eng.flag R.RING_CWR_CTL_GO = false ∧ t.eng.hasBit R.E_RING_CWR_DONE = true ∧ t.eng.answer = okAnswer port ∧
      Kept s t [R.RING_CWR_CTL, statusAddr 0xF2])) ∧
  (∀ (s : State) (port : Port) (v : Word), s.accepts port R.RING_CWR_CTL (v ||| 1) = true → s.eng.flag R.RING_CWR_CTL_BUSY = false →
    bitAt (s.eng.fld R.RING_MEMBERS_REACH) (bitsOf v.toNat 2 3) = true → bitsOf v.toNat 2 3 ≠ s.eng.pos →
    Ends (exec (.cwrGo port v) s) (fun t => t.eng.flag R.RING_CWR_CTL_BUSY = true ∧
      t.eng.ring.cwr = some (bitsOf v.toNat 2 3, ((s.eng.peer (bitsOf v.toNat 2 3)).txSeq + (s.eng.peer (bitsOf v.toNat 2 3)).waiting.length) % 2 ^ 16, bitAt v.toNat 1, s.eng.cc) ∧
      ((s.eng.peer (bitsOf v.toNat 2 3)).waiting = [] → s.eng.ring.peers.length = 8 → s.eng.ring.unacked.countP (fun u => u.flit.dst == bitsOf v.toNat 2 3) < 512 →
        ∃ u ∈ t.eng.ring.unacked, u.flit = ⟨s.eng.pos, bitsOf v.toNat 2 3, if bitAt v.toNat 1 then .crd (s.eng.peer (bitsOf v.toNat 2 3)).txSeq (s.eng.fld R.RING_CWR_ADDR_OFFSET * 4)
          else .cwr (s.eng.peer (bitsOf v.toNat 2 3)).txSeq (s.eng.fld R.RING_CWR_ADDR_OFFSET * 4) (s.eng.reg R.RING_CWR_DATA).toNat⟩) ∧
      t.eng.answer = okAnswer port ∧ Kept s t [R.RING_CWR_CTL])) ∧
  (∀ (s : State) (port : Port) (v : Word), s.accepts port R.RING_CWR_CTL (v ||| 1) = true → s.eng.flag R.RING_CWR_CTL_BUSY = true →
    Ends (exec (.cwrGo port v) s) (fun t => t.eng.flag R.RING_CWR_CTL_BUSY = true ∧ t.eng.ring = s.eng.ring ∧ t.eng.answer = okAnswer port ∧ Kept s t [R.RING_CWR_CTL])) ∧
  (∀ (s : State) (side : Side) (src dst : Fin 8) (seq : BitVec 16) (off : BitVec 20) (data : Word), s.accepts (linkPort side) off.toNat data = true → s.eng.sideUp side = true → dst.val = s.eng.pos →
    src.val < s.eng.ring.peers.length → seq.toNat = (s.eng.peer src).rxSeq → (s.eng.peer src).waiting = [] → s.eng.ring.unacked.countP (fun u => u.flit.dst == src.val) < 512 →
    Ends (exec (.cwr side src dst seq off data) s) (fun t => Ends (exec (.registerWrite (linkPort side) (off.setWidth 32) data) s) (fun u => RegsKept u t (fun _ => true) ∧ t.eng.tb = u.eng.tb ∧ MemKept u t) ∧
      (off.toNat ≠ R.RING_CTL → off.toNat ≠ R.RING_CWR_CTL → s.eng.role ≠ 0 ∨ src = 0 → ∃ u ∈ t.eng.ring.unacked, u.flit.dst = src ∧ u.flit.body = .crsp (s.eng.peer src).txSeq seq.toNat 0 0) ∧
      (off.toNat = R.TB_LOADVAL_LO → t.eng.reg R.TB_LOADVAL_LO = data ∧ Kept s t [R.TB_LOADVAL_LO]))) ∧
  (∀ (s : State) (side : Side) (src dst : Fin 8) (seq : BitVec 16) (off : BitVec 20) (data : Word) (h : RegHit), s.eng.mgt.powered = true → s.eng.dammed = false → decodeReg off.toNat = some h → isDirWord off.toNat = false →
    off.toNat % 4 = 0 → s.eng.absentCisp off.toNat = false → classAllows (if h.off = 0x0C then 1 else h.blk.cls) (linkPort side) = false → s.eng.sideUp side = true → dst.val = s.eng.pos →
    src.val < s.eng.ring.peers.length → seq.toNat = (s.eng.peer src).rxSeq → (s.eng.peer src).waiting = [] → s.eng.ring.unacked.countP (fun u => u.flit.dst == src.val) < 512 →
    Ends (exec (.cwr side src dst seq off data) s) (fun t => t.eng.detected = s.eng.nowDetected h.page 2 0x0215 (violData (linkPort side) true h.off src) ∧
      t.eng.ring.refused = some (src.val, (s.eng.ring.heard.find? (fun h => h.pos == src.val)).map (fun h => h.id)) ∧
      (s.eng.role ≠ 0 ∨ src = 0 → ∃ u ∈ t.eng.ring.unacked, u.flit.dst = src ∧ u.flit.body = .crsp (s.eng.peer src).txSeq seq.toNat 0 1) ∧ Kept s t [faultAddr h.page])) ∧
  (∀ (s : State) (side : Side) (src dst : Fin 8) (seq : BitVec 16) (off : BitVec 20), s.eng.reachable = true → s.eng.sideUp side = true → dst.val = s.eng.pos → src.val < s.eng.ring.peers.length →
    seq.toNat = (s.eng.peer src).rxSeq → (s.eng.peer src).waiting = [] → s.eng.ring.unacked.countP (fun u => u.flit.dst == src.val) < 512 →
    Ends (exec (.crd side src dst seq off) s) (fun t => Ends (exec (.lowWordRead (linkPort side) off) s) (fun u => RegsKept u t (fun _ => true) ∧ MemKept u t ∧
        t.eng.ring.unacked.any (fun x => x.flit.dst == src.val &&
          (match x.flit.body with | .crsp q r d res => q == (s.eng.peer src).txSeq && r == seq.toNat && u.eng.answer == .crsp res (BitVec.ofNat 32 d) | _ => false)) = true) ∧
      (off.toNat = R.TB_LOADVAL_LO → Kept s t []))) ∧
  (∀ (s : State) (side : Side) (src dst : Fin 8) (seq : BitVec 16) (off : BitVec 20) (data : Word), s.eng.mgt.powered = true → s.eng.sideUp side = true → dst.val ≠ s.eng.pos →
    Ends (exec (.cwr side src dst seq off data) s) (fun t => Sent s t (fun x => if x ≠ side ∧ s.eng.role ≠ 0 then [⟨src, dst, .cwr seq.toNat off.toNat data.toNat⟩] else []) ∧ Kept s t [])) ∧
  (∀ (s : State) (side : Side) (src dst : Fin 8) (seq : BitVec 16) (off : BitVec 20) (data : Word), s.eng.mgt.powered = true → s.eng.sideUp side = true → dst.val = s.eng.pos → seq.toNat ≠ (s.eng.peer src).rxSeq →
    Ends (exec (.cwr side src dst seq off data) s) (fun t => (t.eng.peer src).rxSeq = (s.eng.peer src).rxSeq ∧
      (src.val < s.eng.ring.peers.length → (seq.toNat + 2 ^ 16 - (s.eng.peer src).rxSeq) % 2 ^ 16 < 2 ^ 15 → (t.eng.peer src).naked = true) ∧ Kept s t [])) ∧
  (∀ (s : State) (side : Side) (src dst : Fin 8) (seq req : BitVec 16) (data : Word) (result : Fin 4) (read : Bool) (t0 : Nat), s.eng.running = true → s.eng.sideUp side = true → dst.val = s.eng.pos →
    seq.toNat = (s.eng.peer src).rxSeq → s.eng.ring.cwr = some (src.val, req.toNat, read, t0) →
    Ends (exec (.crsp side src dst seq req data result) s) (fun t => t.eng.ring.cwr = none ∧ t.eng.flag R.RING_CWR_CTL_BUSY = false ∧ t.eng.flag R.RING_CWR_CTL_GO = false ∧
      t.eng.fld R.RING_CWR_CTL_RESULT = result ∧ t.eng.reg R.RING_CWR_RDATA = (if read ∧ result = 0 then data else s.eng.reg R.RING_CWR_RDATA) ∧ t.eng.hasBit R.E_RING_CWR_DONE = true ∧
      Kept s t [R.RING_CWR_CTL, R.RING_CWR_RDATA, statusAddr 0xF2])) ∧
  (∀ (s : State) (tg q t0 : Nat) (read : Bool), s.eng.running = true → s.eng.ring.cwr = some (tg, q, read, t0) → t0 + 2 ^ 14 ≤ s.eng.cc →
    Ends (exec .cwrTimeout s) (fun t => t.eng.ring.cwr = none ∧ t.eng.flag R.RING_CWR_CTL_BUSY = false ∧ t.eng.fld R.RING_CWR_CTL_RESULT = 3 ∧ t.eng.hasBit R.E_RING_CWR_DONE = true ∧
      Kept s t [R.RING_CWR_CTL, statusAddr 0xF2])) ∧
  (∀ s : State, s.eng.running = true → s.eng.ring.cwr.all (fun x => decide (s.eng.cc < x.2.2.2 + 2 ^ 14)) = true → exec .cwrTimeout s = .next s)

/-- O41. R261 to R264: a host request not from position 0, or to a module not in funnel mode, is ignored and logged; from position 0, register writes and reads are carried out as the host link's own are, and window writes and reads as its BAR2 requests; a read is answered by a completion run. At the head a tributary's run goes out as TLPs of at most the maximum payload size, and its completion answers the host. An ACK frees the flits up to its SEQ, a NAK or 2^11 CCLK without progress resends all, and an unacknowledged source is acknowledged 256 CCLK after its first flit. The model's choices it rests on: notes/assumptions/42, 65. -/
def Obligations.SequencedTraffic : Prop :=
  (∀ (s : State) (side : Side) (src dst : Fin 8) (seq : BitVec 16) (type : Fin 4) (tag : BitVec 8) (off : BitVec 40) (len : Nat) (data : Word) (bytes : List Byte), s.eng.mgt.powered = true →
    s.eng.sideUp side = true → dst.val = s.eng.pos → seq.toNat = (s.eng.peer src).rxSeq → src ≠ 0 ∨ s.eng.toFlume = false →
    Ends (exec (.hostreq side src dst seq type tag off len data bytes) s) (fun t => t.eng.detected = s.eng.nowDetected 0xF2 2 0x0218 src ∧ Kept s t [])) ∧
  (∀ (s : State) (side : Side) (dst : Fin 8) (seq : BitVec 16) (tag : BitVec 8) (off : BitVec 20) (data : Word), s.accepts .host off.toNat data = true →
    s.eng.sideUp side = true → dst.val = s.eng.pos → seq.toNat = (s.eng.peer 0).rxSeq → s.eng.toFlume = true →
    Ends (exec (.hostreq side 0 dst seq 1 tag (off.setWidth 40) 4 data []) s) (fun t => Ends (exec (.registerWrite .host (off.setWidth 32) data) s) (fun u => RegsKept u t (fun _ => true) ∧ t.eng.tb = u.eng.tb ∧ MemKept u t) ∧
      (off.toNat = R.TB_LOADVAL_LO → t.eng.reg R.TB_LOADVAL_LO = data ∧ Kept s t [R.TB_LOADVAL_LO]))) ∧
  (∀ (s : State) (side : Side) (dst : Fin 8) (seq : BitVec 16) (tag : BitVec 8) (off : BitVec 20) (data : Word) (h : RegHit), s.eng.reachable = true → s.eng.badParity = [] → decodeReg off.toNat = some h → isDirWord off.toNat = false →
    s.eng.absentCisp off.toNat = false → s.eng.sideUp side = true → dst.val = s.eng.pos → seq.toNat = (s.eng.peer 0).rxSeq → s.eng.toFlume = true → s.eng.ring.peers.length = 8 → (s.eng.peer 0).waiting = [] →
    s.eng.ring.unacked.countP (fun u => u.flit.dst == 0) < 511 →
    Ends (exec (.hostreq side 0 dst seq 0 tag (off.setWidth 40) 4 data []) s) (fun t => Ends (exec (.lowWordRead .host off) s) (fun u => RegsKept u t (fun _ => true) ∧ MemKept u t ∧
      t.eng.ring.unacked.any (fun x => x.flit.dst == 0 && x.flit.body == .cplhdr (s.eng.peer 0).txSeq tag.toNat 4 0) = true ∧
      t.eng.ring.unacked.any (fun x => x.flit.dst == 0 &&
        (match x.flit.body with | .payload q b => q == ((s.eng.peer 0).txSeq + 1) % 2 ^ 16 && decide (b < 2 ^ 32) && u.eng.answer == .word (BitVec.ofNat 32 b) | _ => false)) = true))) ∧
  (∀ (s : State) (side : Side) (dst : Fin 8) (seq : BitVec 16) (tag : BitVec 8) (off : BitVec 32) (len : Nat) (data : Word) (bytes : List Byte), s.eng.reachable = true → s.eng.sideUp side = true → dst.val = s.eng.pos →
    seq.toNat = (s.eng.peer 0).rxSeq → s.eng.toFlume = true → s.eng.host.perst = false → s.eng.tlpHere.memRefusal 2 true off.toNat true = none →
    Ends (exec (.hostreq side 0 dst seq 3 tag (off.setWidth 40) len data bytes) s) (fun t => Ends (exec (.windowRequest 0 off (.write ((bytes.take len).map some) false)) s)
      (fun u => t.eng.cis = u.eng.cis ∧ (∀ p : Fin 64, t.eng.pc p = u.eng.pc p) ∧ RegsKept u t (fun a => !onPages [0xD0] a) ∧ MemKept u t))) ∧
  (∀ (s : State) (side : Side) (dst : Fin 8) (seq : BitVec 16) (tag : BitVec 8) (off : BitVec 32) (len : Nat) (data : Word), s.eng.reachable = true → s.eng.sideUp side = true → dst.val = s.eng.pos →
    seq.toNat = (s.eng.peer 0).rxSeq → s.eng.toFlume = true → s.eng.winClosed = false → s.eng.winRefusal off.toNat len false = none → 0 < len → len ≤ 32 → off.toNat % 32 = 0 →
    s.eng.pcSt (s.eng.pcOf (s.eng.winBase (bitsOf off.toNat 28 4) + off.toNat % 2 ^ 28)) ≠ 3 →
    Ends (exec (.hostreq side 0 dst seq 2 tag (off.setWidth 40) len data []) s) (fun t => t.eng.cis.reads.length = s.eng.cis.reads.length + 1 ∧
      t.eng.cis.reads.any (fun r => r.reply == some (0, tag.toNat)) = true ∧ Kept s t [])) ∧
  (∀ (s : State) (side : Side) (src dst : Fin 8) (seq : BitVec 16) (addr : BitVec 64) (drain : Fin 4) (bytes : List Byte), s.eng.running = true → s.eng.sideUp side = true → dst.val = s.eng.pos →
    seq.toNat = (s.eng.peer src).rxSeq → s.eng.funnelHead = true → s.eng.presented src = true → s.eng.lostFn src = false → s.eng.bme src = true → s.eng.d3hot src = false → s.eng.host.ready = true →
    s.eng.host.perst = false → s.eng.host.hold = false →
    Ends (exec (.dmahdr side src dst seq addr drain bytes) s) (fun t => t.eng.host.out = s.eng.host.out ++ (splitRun s.eng.mps bytes.length addr.toNat bytes).map (fun p => .tlp src p.1 p.2) ∧
      (splitRun s.eng.mps bytes.length addr.toNat bytes).flatMap (fun p => p.2) = bytes ∧
      (∀ p ∈ splitRun s.eng.mps bytes.length addr.toNat bytes, p.2.length ≤ s.eng.mps ∧ p.1 / 4096 = (p.1 + p.2.length - 1) / 4096) ∧ Kept s t [])) ∧
  (∀ (s : State) (side : Side) (src dst : Fin 8) (seq : BitVec 16) (addr : BitVec 64) (drain : Fin 4) (bytes : List Byte), s.eng.running = true → s.eng.sideUp side = true → dst.val = s.eng.pos →
    s.eng.funnelHead = false ∨ s.eng.lostFn src = true ∨ s.eng.bme src = false ∨ s.eng.host.hold = true →
    Ends (exec (.dmahdr side src dst seq addr drain bytes) s) (fun t => t.eng.host.out = s.eng.host.out ∧ Kept s t [])) ∧
  (∀ (s : State) (side : Side) (src dst : Fin 8) (seq : BitVec 16) (tag : BitVec 8) (status : Fin 4) (bytes : List Byte), s.eng.running = true → s.eng.sideUp side = true → dst.val = s.eng.pos →
    seq.toNat = (s.eng.peer src).rxSeq → s.eng.funnelHead = true → s.eng.lostFn src = false →
    Ends (exec (.cplhdr side src dst seq tag status bytes) s) (fun t => t.eng.answer = (if status = 0 then .bytes bytes else if status = 1 then .unsupported else if status = 2 then .completerAbort else .poisoned) ∧
      (src.val < s.eng.ring.peers.length → (t.eng.peer src).rxSeq = (seq.toNat + (bytes.length + 23) / 24 + 1) % 2 ^ 16) ∧ Kept s t [])) ∧
  (∀ (s : State) (side : Side) (src dst : Fin 8) (seq : BitVec 16), s.eng.mgt.powered = true → s.eng.sideUp side = true → dst.val = s.eng.pos → (s.eng.peer src).waiting = [] →
    Ends (exec (.ack side src dst seq false) s) (fun t => t.eng.ring.unacked.map (fun u => u.flit) =
        (s.eng.ring.unacked.filter (fun u => !(u.flit.dst == src.val && decide ((seq.toNat + 2 ^ 16 - u.seq) % 2 ^ 16 < 2 ^ 15)))).map (fun u => u.flit) ∧ Sent s t (fun _ => []) ∧ Kept s t [])) ∧
  (∀ (s : State) (side x : Side) (src dst : Fin 8) (seq : BitVec 16), s.eng.mgt.powered = true → s.eng.sideUp side = true → dst.val = s.eng.pos → (s.eng.peer src).waiting = [] → (s.eng.route src).1 = some x → s.eng.sideUp x = true →
    Ends (exec (.ack side src dst seq true) s) (fun t => (t.eng.link x).tx = (s.eng.link x).tx ++ (s.eng.ring.unacked.filter (fun u => u.flit.dst == src.val && !decide ((seq.toNat + 2 ^ 16 - u.seq) % 2 ^ 16 < 2 ^ 15))).map
        (fun u => ⟨s.eng.pos, src, u.flit.body⟩) ∧ Kept s t [])) ∧
  (∀ (s : State) (x : Side) (dst : Fin 8), s.eng.running = true → s.eng.ring.unacked.any (fun u => u.flit.dst == dst.val && decide (u.since + 2 ^ 11 ≤ s.eng.cc)) = true → (s.eng.route dst).1 = some x → s.eng.sideUp x = true →
    Ends (exec (.resendTimeout dst) s) (fun t => (∀ u ∈ t.eng.ring.unacked, u.flit.dst = dst.val → u.since = s.eng.cc ∧ u.side = x) ∧ t.eng.ring.unacked.map (fun u => u.flit) = s.eng.ring.unacked.map (fun u => u.flit) ∧
      (t.eng.link x).tx = (s.eng.link x).tx ++ (s.eng.ring.unacked.filter (fun u => u.flit.dst == dst.val)).map (fun u => ⟨s.eng.pos, dst, u.flit.body⟩) ∧ Kept s t [])) ∧
  (∀ (s : State) (dst : Fin 8), s.eng.running = true → s.eng.ring.unacked.any (fun u => u.flit.dst == dst.val && decide (u.since + 2 ^ 11 ≤ s.eng.cc)) = false → exec (.resendTimeout dst) s = .next s) ∧
  (∀ (s : State) (src : Fin 8), s.eng.running = true → src.val < s.eng.ring.peers.length → 0 < (s.eng.peer src).rxOpen → (s.eng.peer src).rxSince + 256 ≤ s.eng.cc → s.eng.sideUp .fa = true → s.eng.sideUp .fb = true →
    Ends (exec (.ackDeadline src) s) (fun t => (t.eng.peer src).rxOpen = 0 ∧
      (∃ side, (t.eng.link side).tx = (s.eng.link side).tx ++ [⟨s.eng.pos, src, .ack (((s.eng.peer src).rxSeq + 2 ^ 16 - 1) % 2 ^ 16) false⟩]) ∧ Kept s t [])) ∧
  (∀ (s : State) (src : Fin 8), s.eng.running = true → (s.eng.peer src).rxOpen = 0 ∨ s.eng.cc < (s.eng.peer src).rxSince + 256 → exec (.ackDeadline src) s = .next s)

/-- O42. R257, R259, R365: a mode is asked for at the head only, while no present module is armed, and is then sent out for 2^16 CCLK later; asking for the mode held or asked for changes nothing; a tributary schedules a MODESET and passes it on or, where its TB has passed, changes mode at once and logs it; the mode changes at its TB. A funnel function whose position left REACH, or whose flit went 600,000 CCLK without acknowledgement, is lost and logged, and a RECOVER of reachable ones ends that. The model's choices it rests on: notes/assumptions/53, 73. -/
def Obligations.ModesAndTributaries : Prop :=
  (∀ (s : State) (port : Port) (v : Word), s.accepts port R.RING_CTL v = true → bitAt v.toNat 4 = false → bitAt v.toNat 0 = (s.eng.ring.modeAt.map (fun x => x.2)).getD (s.eng.flag R.RING_STATUS_MODE) →
    Ends (exec (.modeWrite port v) s) (fun t => t.eng.flag R.RING_CTL_MODE = bitAt v.toNat 0 ∧ t.eng.ring.modeAt = s.eng.ring.modeAt ∧ Sent s t (fun _ => []) ∧ t.eng.answer = okAnswer port ∧ Kept s t [R.RING_CTL])) ∧
  (∀ (s : State) (port : Port) (v : Word), s.accepts port R.RING_CTL v = true → bitAt v.toNat 4 = false → bitAt v.toNat 0 ≠ (s.eng.ring.modeAt.map (fun x => x.2)).getD (s.eng.flag R.RING_STATUS_MODE) → s.eng.role ≠ 1 →
    Ends (exec (.modeWrite port v) s) (fun t => t.eng.flag R.RING_CTL_MODE = s.eng.flag R.RING_CTL_MODE ∧ t.eng.reg R.RING_REASON = 1 ∧ t.eng.ring.modeAt = s.eng.ring.modeAt ∧ Sent s t (fun _ => []) ∧
      t.eng.answer = okAnswer port ∧ Kept s t [R.RING_CTL, R.RING_REASON])) ∧
  (∀ (s : State) (port : Port) (v : Word) (q : Nat), s.accepts port R.RING_CTL v = true → bitAt v.toNat 4 = false → bitAt v.toNat 0 ≠ (s.eng.ring.modeAt.map (fun x => x.2)).getD (s.eng.flag R.RING_STATUS_MODE) → s.eng.role = 1 →
    s.eng.present.find? (fun q => bitAt (s.eng.fld R.RING_MEMBERS_ARMED ||| (if s.eng.armed then 2 ^ s.eng.pos else 0)) q) = some q →
    Ends (exec (.modeWrite port v) s) (fun t => t.eng.flag R.RING_CTL_MODE = s.eng.flag R.RING_CTL_MODE ∧ t.eng.reg R.RING_REASON = BitVec.ofNat 32 (2 + q * 16) ∧ t.eng.ring.modeAt = s.eng.ring.modeAt ∧
      Sent s t (fun _ => []) ∧ t.eng.answer = okAnswer port ∧ Kept s t [R.RING_CTL, R.RING_REASON])) ∧
  (∀ (s : State) (port : Port) (v : Word), s.accepts port R.RING_CTL v = true → bitAt v.toNat 4 = false → bitAt v.toNat 0 ≠ (s.eng.ring.modeAt.map (fun x => x.2)).getD (s.eng.flag R.RING_STATUS_MODE) → s.eng.role = 1 →
    s.eng.armed = false → s.eng.fld R.RING_MEMBERS_ARMED = 0 → bitAt v.toNat 0 = false ∨ s.eng.fld R.RING_MEMBERS_PRESENT = 1 →
    Ends (exec (.modeWrite port v) s) (fun t => t.eng.flag R.RING_CTL_MODE = bitAt v.toNat 0 ∧ t.eng.ring.modeAt = some ((tbOfCycle (s.eng.nextCycle + 2 ^ 16)).toNat, bitAt v.toNat 0) ∧
      Sent s t (fun _ => [⟨s.eng.pos, 0, .modeset (tbOfCycle (s.eng.nextCycle + 2 ^ 16)).toNat (bitAt v.toNat 0)⟩]) ∧ t.eng.answer = okAnswer port ∧ Kept s t [R.RING_CTL])) ∧
  (∀ (s : State) (side : Side) (tb : BitVec 64) (mode : Bool), s.eng.running = true → s.eng.sideUp side = true → s.eng.role = 2 → s.eng.ring.modeSeen.contains (tb.toNat, mode) = false →
    s.eng.nextCycle ≤ tb.toNat / 16 →
    Ends (exec (.modeset side tb mode) s) (fun t => t.eng.ring.modeAt = some (tb.toNat, mode) ∧ t.eng.ring.modeSeen.contains (tb.toNat, mode) = true ∧
      Sent s t (fun x => if x = side then [] else [⟨0, 0, .modeset tb.toNat mode⟩]) ∧ Kept s t [])) ∧
  (∀ (s : State) (side : Side) (tb : BitVec 64) (mode : Bool), s.eng.running = true → s.eng.sideUp side = true → s.eng.role = 2 → s.eng.ring.modeSeen.contains (tb.toNat, mode) = false →
    tb.toNat / 16 < s.eng.nextCycle →
    Ends (exec (.modeset side tb mode) s) (fun t => t.eng.flag R.RING_STATUS_MODE = mode ∧ t.eng.ring.modeAt = none ∧ Sent s t (fun x => if x = side then [] else [⟨0, 0, .modeset tb.toNat mode⟩]) ∧
      t.eng.detected = s.eng.nowDetected 0xF2 2 0x021A (min (s.eng.nextCycle - tb.toNat / 16) 0xFFFFFFFF) ∧ Kept s t [R.RING_STATUS, statusAddr 0xF2])) ∧
  (∀ (s : State) (side : Side) (tb : BitVec 64) (mode : Bool), s.eng.running = true → s.eng.sideUp side = false ∨ s.eng.role ≠ 2 ∨ s.eng.ring.modeSeen.contains (tb.toNat, mode) = true → exec (.modeset side tb mode) s = .next s) ∧
  (∀ (s : State) (tb : Nat) (mode : Bool), s.eng.running = true → s.eng.ring.modeAt = some (tb, mode) → tb / 16 ≤ s.eng.nextCycle →
    Ends (exec .modeChange s) (fun t => t.eng.ring.modeAt = none ∧ t.eng.flag R.RING_STATUS_MODE = mode ∧ (s.eng.flag R.RING_STATUS_MODE ≠ mode → t.eng.hasBit R.E_RING_MODE = true) ∧
      Kept s t (if s.eng.flag R.RING_STATUS_MODE = mode then [] else [R.RING_STATUS, statusAddr 0xF2]))) ∧
  (∀ s : State, s.eng.running = true → s.eng.ring.modeAt.all (fun x => decide (s.eng.nextCycle < x.1 / 16)) = true → exec .modeChange s = .next s) ∧
  (∀ (s : State) (f : Fin 8), s.eng.running = true → f ≠ 0 → s.eng.funnelHead = true → s.eng.presented f = true → s.eng.lostFn f = false →
    bitAt (s.eng.fld R.RING_MEMBERS_REACH) f = false ∨ s.eng.ring.unacked.any (fun u => u.flit.dst == f.val && decide (u.born + 600000 ≤ s.eng.cc)) = true →
    Ends (exec (.tribLost f) s) (fun t => t.eng.lostFn f = true ∧ t.eng.hasBit R.E_HOST_TRIB_LOST = true ∧ t.eng.detected = s.eng.nowDetected 0xD0 2 0x020B f ∧ Kept s t [R.HOST_TRIB_LOST, statusAddr 0xD0])) ∧
  (∀ (s : State) (f : Fin 8), s.eng.running = true → f = 0 ∨ s.eng.funnelHead = false ∨ s.eng.presented f = false ∨ s.eng.lostFn f = true ∨
      (bitAt (s.eng.fld R.RING_MEMBERS_REACH) f = true ∧ s.eng.ring.unacked.all (fun u => u.flit.dst != f.val || decide (s.eng.cc < u.born + 600000)) = true) →
    exec (.tribLost f) s = .next s) ∧
  (∀ (s : State) (port : Port) (v : Word), s.accepts port R.HOST_TRIBCTL v = true →
    Ends (exec (.tribRecover port v) s) (fun t => t.eng.reg R.HOST_TRIB_LOST = s.eng.reg R.HOST_TRIB_LOST &&& ~~~BitVec.ofNat 32 (v.toNat &&& s.eng.fld R.RING_MEMBERS_REACH &&& 0xFE) ∧
      (∀ f : Fin 8, f ≠ 0 ∧ bitAt v.toNat f = true ∧ s.eng.lostFn f = true ∧ bitAt (s.eng.fld R.RING_MEMBERS_REACH) f = true → ([0x50, 0x54, 0x58, 0x5C, 0x60, 0xB0].all (fun o => t.eng.cfg f o == 0)) = true) ∧
      t.eng.answer = okAnswer port ∧ Kept s t [R.HOST_TRIB_LOST, R.HOST_TRIBCTL]))

/-! ## The dam, settling, the event log and pages (R403 to R440, R450) -/

/-- O43. R269, R270, R431, R432, R433: an ASSERT makes the module drive DAM_N 48 tk past a sampling instant, once; the dam begins at a sampling instant at which a heeded pin reads low, and is told to the ring; between sampling instants and where the pin is not heeded nothing begins; 64 CCLK later the engine stops, its rota halts, drains pause and gate orders end; then the queues are worked off and the clocks gated, with TB kept in DAM_TB and the cistern in self-refresh. The model's choices it rests on: notes/assumptions/10, 118, 121. -/
def Obligations.DamBegins : Prop :=
  (∀ (s : State) (port : Port), s.accepts port R.DAM_CTL (s.eng.reg R.DAM_CTL ||| 1) = true → s.eng.running = true → s.eng.damUnderWay = false →
    Ends (exec (.damAssert port) s) (fun t => t.eng.dam.driveAt = some (driveInstant (tbOfCycle s.eng.nextCycle), 2) ∧ (driveInstant (tbOfCycle s.eng.nextCycle)).toNat % 96 = 48 ∧ t.eng.answer = okAnswer port ∧
      Kept s t [R.DAM_CTL])) ∧
  (∀ (s : State) (port : Port), s.accepts port R.DAM_CTL (s.eng.reg R.DAM_CTL ||| 1) = true → s.eng.running = false ∨ s.eng.damUnderWay = true →
    Ends (exec (.damAssert port) s) (fun t => t.eng.dam = s.eng.dam ∧ t.eng.answer = okAnswer port ∧ Kept s t [R.DAM_CTL])) ∧
  (∀ (s : State) (u : Tb), u = tbOfCycle s.eng.nextCycle → u.toNat % 96 = 0 → s.eng.running = true → s.eng.dam.stopped = false → s.eng.dammed = false → s.eng.dam.td = none → s.eng.dam.driveAt = none →
    s.eng.dam.driving = false → s.eng.cisReady = true → s.eng.flag R.DAM_CTL_PIN_EN = true → s.eng.flag R.DAM_STATUS_REARMED = true →
    Ends (exec .damNLow s) (fun t => t.eng.dam.td = some u ∧ t.eng.reg64 R.DAM_TD_LO = u ∧ t.eng.fld R.DAM_STATUS_CAUSE = 1 ∧ t.eng.flag R.DAM_STATUS_STOPPING = true ∧ t.eng.flag R.DAM_STATUS_DRIVER = false ∧
      t.eng.flag R.DAM_STATUS_PINLOW = true ∧ t.eng.reg R.DAM_DAMCNT = satAdd (s.eng.reg R.DAM_DAMCNT) 1 ∧ t.eng.hasBit R.E_DAM_DAM = true ∧
      Sent s t (fun _ => if s.eng.role = 0 then [] else [⟨s.eng.pos, 0, .dam u.toNat s.eng.pos false 0⟩]) ∧
      t.eng.detected = insertEntry ⟨s.eng.pclk, 0xB, 0, 0x0401, 1, u⟩ s.eng.detected ∧ Kept s t [R.DAM_STATUS, R.DAM_TD_LO, R.DAM_TD_LO + 4, R.DAM_DAMCNT, statusAddr 0xB])) ∧
  (∀ s : State, s.eng.dam.driveAt = none → s.eng.dam.driving = false → s.eng.flag R.DAM_CTL_PIN_EN = false ∨ s.eng.flag R.DAM_STATUS_REARMED = false →
    Ends (exec .damNLow s) (fun t => t.eng.dam.td = s.eng.dam.td ∧ t.eng.dam.extLow = true ∧ Kept s t [R.DAM_STATUS])) ∧
  (∀ s : State, s.eng.running = false ∨ s.eng.dam.stopped = true ∨ (s.eng.dam.driveAt = none ∧ (tbOfCycle s.eng.nextCycle).toNat % 96 ≠ 0) →
    Ends (exec .damNLow s) (fun t => t.eng.dam.td = s.eng.dam.td ∧ t.eng.dam.extLow = true ∧ t.eng.damPin = true ∧ Kept s t [])) ∧
  (∀ (s : State) (u : Tb), s.eng.running = true → s.eng.dam.stopped = false → s.eng.dam.td = some u → cycleOf (u + 1024) ≤ s.eng.nextCycle →
    Ends (exec .damStop s) (fun t => t.eng.dam.stopped = true ∧ t.eng.rota.queue = [] ∧ t.eng.flag R.ROTA_STATUS_HALTED = true ∧ t.eng.gateOrders = [] ∧ t.eng.gate.pulses = [] ∧
      t.eng.store.active = false ∧ (s.eng.flag R.SAFE_CTL_DAM_SAFE = true → t.eng.gate.damHold = true) ∧ (∀ d : Fin 4, s.eng.fld (R.DRAIN_DSTAT_STATE d) = 1 → t.eng.fld (R.DRAIN_DSTAT_STATE d) ≠ 1) ∧
      RegsKept s t (onPages [4, 5, 6, 9, 0xB, 0xC0, 0xF0, 0xF1, 0xF2]) ∧ t.eng.tb = s.eng.tb ∧ MemKept s t)) ∧
  (∀ s : State, s.eng.running = false ∨ s.eng.dam.stopped = true ∨ s.eng.dam.td.all (fun u => decide (s.eng.nextCycle < cycleOf (u + 1024))) = true → exec .damStop s = .next s) ∧
  (∀ s : State, s.eng.dam.stopped = true → s.eng.dammed = false →
    Ends (exec .damClockGate s) (fun t => t.eng.dammed = true ∧ t.eng.running = false ∧ t.eng.reg64 R.TB_DAM_TB_LO = s.eng.tb ∧ t.eng.cisState = 4 ∧ t.eng.flag R.DAM_STATUS_STOPPING = false ∧
      (∀ p : Fin 64, (t.eng.pc p).wq = [] ∧ (t.eng.pc p).rq = [] ∧ (t.eng.pc p).flight = []) ∧
      RegsKept s t (onPages ([4, 5, 7, 8, 9, 0xA, 0xF0, 0xF1, 0xF2, 0xC0] ++ storePages)) ∧ t.chip.tanks = s.chip.tanks ∧ t.eng.tb = s.eng.tb ∧ t.pending = s.pending)) ∧
  (∀ s : State, s.eng.dam.stopped = true → s.eng.dammed = false → (∀ p : Fin 64, (s.eng.pc p).wq = [] ∧ (s.eng.pc p).rq = [] ∧ (s.eng.pc p).flight = []) → s.eng.cis.waitW = [] → s.eng.cis.waitR = [] →
    Ends (exec .damClockGate s) (fun t => t.eng.dammed = true ∧ Kept s t [R.DAM_STATUS, R.TB_DAM_TB_LO, R.TB_DAM_TB_LO + 4, R.CIS_STATUS])) ∧
  (∀ s : State, s.eng.dam.stopped = false ∨ s.eng.dammed = true → exec .damClockGate s = .next s)

/-- O44. R20, R271, R432, R436, R437, R439: a release lets the clocks run again with TB at DAM_TB + 96 × elapsed, so that the next cycle has 16 more, tells the ring, and leaves the engine disarmed and the cistern training; the pin is rearmed once it reads high, unless the module drives it or is dammed; IMG_DATA reads the word of the image at IMG_ADDR, or 0 outside it or while not dammed, and IMG_ADDR advances by 4; a DAMSCAN captures the last read and starts the next one. The model's choices it rests on: notes/assumptions/25, 56, 91. -/
def Obligations.DamEnds : Prop :=
  (∀ (s : State) (port : Port) (elapsed : Nat), s.eng.reachable = true → s.eng.dammed = true → port = .host ∨ port = .mgmt →
    Ends (exec (.damRelease port elapsed) s) (fun t => t.eng.dammed = false ∧ t.eng.running = true ∧ t.eng.tb = s.eng.reg64 R.TB_DAM_TB_LO + 96 * BitVec.ofNat 64 elapsed ∧
      t.eng.reg64 R.TB_DAM_ELAPSED_LO = BitVec.ofNat 64 elapsed ∧ t.eng.hasBit R.E_DAM_RELEASED = true ∧ t.eng.armed = false ∧ t.eng.dam.td = none ∧ t.eng.dam.stopped = false ∧ t.eng.dam.driving = false ∧
      t.eng.flag R.DAM_STATUS_REARMED = false ∧ t.eng.path.pipe = [] ∧ (s.eng.cisState = 4 → t.eng.cisState = 1) ∧
      (∀ x, s.eng.role ≠ 0 → s.eng.sideUp x = true → (⟨s.eng.pos, 0, .release s.eng.pos 0⟩ : Flit) ∈ (t.eng.link x).tx) ∧ t.eng.answer = okAnswer port ∧ MemKept s t)) ∧
  (∀ (s : State) (port : Port) (elapsed : Nat), s.accepts port R.DAM_CTL (s.eng.reg R.DAM_CTL ||| 2) = true → bitAt (s.eng.reg R.DAM_CTL).toNat 0 = false →
    Ends (exec (.damRelease port elapsed) s) (fun t => t.eng.dam = s.eng.dam ∧ t.eng.answer = okAnswer port ∧ Kept s t [R.DAM_CTL])) ∧
  (∀ (s : State) (elapsed : Nat), s.eng.mgt.powered = true → s.eng.dammed = true →
    Ends (exec (.damrel elapsed) s) (fun t => t.eng.dammed = false ∧ t.eng.running = true ∧ t.eng.tb = s.eng.reg64 R.TB_DAM_TB_LO + 96 * BitVec.ofNat 64 elapsed ∧ t.eng.armed = false ∧
      t.eng.hasBit R.E_DAM_RELEASED = true ∧ t.eng.dam.td = none ∧ MemKept s t)) ∧
  (∀ (s : State) (elapsed : Nat), s.eng.mgt.powered = true → s.eng.dammed = false → exec (.damrel elapsed) s = .next s) ∧
  (∀ s : State, s.eng.dam.driving = false → s.eng.dammed = false →
    Ends (exec .damRearm s) (fun t => t.eng.dam.extLow = false ∧ t.eng.damPin = false ∧ t.eng.flag R.DAM_STATUS_REARMED = true ∧ t.eng.flag R.DAM_STATUS_PINLOW = false ∧ Kept s t [R.DAM_STATUS])) ∧
  (∀ s : State, s.eng.dam.driving = true ∨ s.eng.dammed = true → exec .damRearm s = .next s) ∧
  (∀ (s : State) (port : Port) (w : Word), s.eng.reachable = true → s.eng.badParity = [] → s.eng.dammed = true → s.chip.imageWord ((s.eng.reg R.DAM_IMG_ADDR).toNat / 4 * 4) = some w →
    Ends (exec (.imgDataRead port) s) (fun t => t.eng.answer = okRead port w ∧ t.eng.reg R.DAM_IMG_ADDR = s.eng.reg R.DAM_IMG_ADDR + 4 ∧ Kept s t [R.DAM_IMG_ADDR])) ∧
  (∀ (s : State) (port : Port), s.eng.reachable = true → s.eng.badParity = [] → s.eng.dammed = false ∨ s.chip.imageWord ((s.eng.reg R.DAM_IMG_ADDR).toNat / 4 * 4) = none →
    Ends (exec (.imgDataRead port) s) (fun t => t.eng.answer = okRead port 0 ∧ t.eng.reg R.DAM_IMG_ADDR = s.eng.reg R.DAM_IMG_ADDR + 4 ∧ t.eng.hasBit R.E_DAM_IMG_ERR = true ∧
      Kept s t [R.DAM_IMG_ADDR, statusAddr 0xB])) ∧
  (∀ (s : State) (dr : BitVec 34), s.eng.mgt.powered = true → dr.getLsbD 32 = false →
    Ends (exec (.damscan dr) s) (fun t => t.eng.answer = .scan s.eng.dam.scan ∧ t.eng.dam.scan = s.eng.dam.scan ∧ Kept s t [])) ∧
  (∀ (s : State) (dr : BitVec 34) (w : Word), s.eng.mgt.powered = true → dr.getLsbD 32 = true → s.eng.dammed = true → s.chip.imageWord (dr.toNat % 2 ^ 32 / 4 * 4) = some w →
    Ends (exec (.damscan dr) s) (fun t => t.eng.answer = .scan s.eng.dam.scan ∧ t.eng.dam.scan = BitVec.ofNat 34 (w.toNat + 2 ^ 32) ∧ Kept s t [])) ∧
  (∀ (s : State) (dr : BitVec 34), s.eng.mgt.powered = true → dr.getLsbD 32 = true → s.eng.dammed = false ∨ s.chip.imageWord (dr.toNat % 2 ^ 32 / 4 * 4) = none →
    Ends (exec (.damscan dr) s) (fun t => t.eng.answer = .scan s.eng.dam.scan ∧ t.eng.dam.scan = BitVec.ofNat 34 (2 ^ 32 + 2 ^ 33) ∧ Kept s t []))

/-- O45. R267, R421 to R424, R450: causes at hand settle the engine, which is disarmed, counted, logged and told to the ring, with the code of the first of them; in the settled state they are only recorded; during a dam or a loss of the headrace they are recorded and wait. A SETTLE written is cause 8. A RELEASE ends the settled state and clears the causes, unless one is active, and does nothing outside it. The model's choices it rests on: notes/assumptions/59, 60, 100. -/
def Obligations.Settling : Prop :=
  (∀ (s : State) (c : Cause), s.eng.mgt.powered = true → s.eng.causes = [c] → s.eng.dammed = false → s.eng.lost = false → s.eng.settled = false → 1 ≤ c.code → c.code ≤ 9 →
    Ends (exec .settle s) (fun t => t.eng.settled = true ∧ t.eng.fld R.SAFE_STATUS_CAUSE = c.code ∧ bitAt (t.eng.fld R.SAFE_CAUSES_CAUSE) (c.code - 1) = true ∧ t.eng.causes = [] ∧
      t.eng.reg R.SAFE_SETTLECNT = satAdd (s.eng.reg R.SAFE_SETTLECNT) 1 ∧ t.eng.hasBit R.E_SAFE_SETTLED = true ∧ t.eng.armed = false ∧ t.eng.store.active = false ∧ t.eng.gate.pulses = [] ∧ t.eng.gateOrders = [] ∧
      (s.eng.path.pipe = [] → t.eng.reg64 R.SAFE_SETTLE_TB_LO = tbOfCycle s.eng.nextCycle) ∧ (∃ e ∈ t.eng.detected, e.page = c.page ∧ e.code = 0x300 + c.code ∧ e.data = BitVec.ofNat 32 c.data) ∧
      (∀ x, s.eng.role ≠ 0 → s.eng.sideUp x = true → (⟨s.eng.pos, 0, .settle (t.eng.reg64 R.SAFE_SETTLE_TB_LO).toNat c.code s.eng.pos 0⟩ : Flit) ∈ (t.eng.link x).tx) ∧
      RegsKept s t (onPages [5, 6, 8, 9, 0xB, 0xB0, 0xB1, 0xC0, 0xF0, 0xF1]) ∧ t.eng.tb = s.eng.tb ∧ MemKept s t)) ∧
  (∀ (s : State) (c : Cause), s.eng.mgt.powered = true → s.eng.causes = [c] → s.eng.dammed = false → s.eng.lost = false → s.eng.settled = true → 1 ≤ c.code →
    Ends (exec .settle s) (fun t => t.eng.settled = true ∧ t.eng.fld R.SAFE_CAUSES_CAUSE = (s.eng.fld R.SAFE_CAUSES_CAUSE ||| 2 ^ (c.code - 1)) % 2 ^ 9 ∧ t.eng.causes = [] ∧
      t.eng.detected = s.eng.nowDetected c.page 3 (0x300 + c.code) c.data ∧ Kept s t [R.SAFE_CAUSES])) ∧
  (∀ s : State, s.eng.mgt.powered = true → s.eng.causes = [] → exec .settle s = .next s) ∧
  (∀ s : State, s.eng.mgt.powered = true → s.eng.dammed = true ∨ s.eng.lost = true →
    Ends (exec .settle s) (fun t => t.eng.causes = s.eng.causes ∧ t.eng.settled = s.eng.settled ∧ (∀ c ∈ s.eng.causes, 1 ≤ c.code → c.code ≤ 9 → bitAt (t.eng.fld R.SAFE_CAUSES_CAUSE) (c.code - 1) = true) ∧
      Kept s t [R.SAFE_CAUSES])) ∧
  (∀ (s : State) (port : Port), s.accepts port R.SAFE_CTL (s.eng.reg R.SAFE_CTL ||| 2) = true → s.eng.lost = false →
    Ends (exec (.swSettle port) s) (fun t => t.eng.settled = true ∧ bitAt (t.eng.fld R.SAFE_CAUSES_CAUSE) 7 = true ∧ t.eng.causes = [] ∧ (s.eng.settled = true → t.eng.reg R.SAFE_SETTLECNT = s.eng.reg R.SAFE_SETTLECNT) ∧
      (s.eng.settled = false → t.eng.armed = false ∧ t.eng.reg R.SAFE_SETTLECNT = satAdd (s.eng.reg R.SAFE_SETTLECNT) 1 ∧ (s.eng.causes = [] → t.eng.fld R.SAFE_STATUS_CAUSE = 8)) ∧
      t.eng.answer = okAnswer port ∧ RegsKept s t (onPages [5, 6, 8, 9, 0xB, 0xB0, 0xB1, 0xC0, 0xF0, 0xF1]) ∧ t.eng.tb = s.eng.tb ∧ MemKept s t)) ∧
  (∀ (s : State) (port : Port), s.accepts port R.SAFE_CTL (s.eng.reg R.SAFE_CTL ||| 1) = true → bitAt (s.eng.reg R.SAFE_CTL).toNat 1 = false → s.eng.settled = true → s.eng.anyActive = false → s.eng.causes = [] →
    s.eng.lost = false →
    Ends (exec (.safeRelease port) s) (fun t => t.eng.settled = false ∧ t.eng.reg R.SAFE_CAUSES = 0 ∧ t.eng.flag R.SAFE_STATUS_RELEASE_REJ = false ∧ t.eng.hasBit R.E_SAFE_RELEASED = true ∧
      t.eng.detected = insertEntry ⟨s.eng.pclk, 7, 0, 0x0403, s.eng.reg R.SAFE_CAUSES, tbOfCycle s.eng.nextCycle⟩ s.eng.detected ∧ t.eng.answer = okAnswer port ∧
      Kept s t [R.SAFE_CTL, R.SAFE_STATUS, R.SAFE_CAUSES, statusAddr 7])) ∧
  (∀ (s : State) (port : Port), s.accepts port R.SAFE_CTL (s.eng.reg R.SAFE_CTL ||| 1) = true → bitAt (s.eng.reg R.SAFE_CTL).toNat 1 = false → s.eng.settled = true →
    s.eng.anyActive = true ∨ s.eng.causes ≠ [] ∨ s.eng.lost = true →
    Ends (exec (.safeRelease port) s) (fun t => t.eng.settled = true ∧ t.eng.flag R.SAFE_STATUS_RELEASE_REJ = true ∧ t.eng.hasBit R.E_SAFE_RELEASE_REJ = true ∧ t.eng.answer = okAnswer port ∧
      Kept s t [R.SAFE_CTL, R.SAFE_STATUS, statusAddr 7])) ∧
  (∀ (s : State) (port : Port), s.accepts port R.SAFE_CTL (s.eng.reg R.SAFE_CTL ||| 1) = true → bitAt (s.eng.reg R.SAFE_CTL).toNat 1 = false → s.eng.settled = false →
    Ends (exec (.safeRelease port) s) (fun t => t.eng.settled = false ∧ t.eng.answer = okAnswer port ∧ Kept s t [R.SAFE_CTL]))

/-- O46. R352, R404, R426 to R429: the oldest entry detected is written at STG_TAIL as 16 bytes of tank 63, or dropped and counted where the tank is not the log's or the staging is full but for the reserve, which class S and dam entries may use; an entry LOG_LOST tells how many were; the copier moves the oldest staged entry, unless a word of it holds no good data, to the host ring, over the flume for a tributary in funnel mode, and stops while the ring is full; STG_HEAD is written only forward within FILL while the copier is off; a pending vector goes out once nothing masks or blocks it, under MSI with all of its message; what a page raised makes its entry. The model's choices it rests on: notes/assumptions/99, 102. -/
def Obligations.EventLog : Prop :=
  (∀ (s : State) (e : LogEntry) (rest : List LogEntry) (n : Nat), s.eng.running = true → s.eng.detected = e :: rest → s.eng.lostSince = 0 → s.eng.owner 63 = 5 → n = s.eng.fld R.EVT_STG_TAIL_INDEX →
    s.eng.staged < 16320 ∨ (s.eng.staged < 16384 ∧ 0x300 ≤ e.code ∧ e.code < 0x500) →
    Ends (exec .eventLogEntry s) (fun t => t.eng.detected = rest ∧ t.eng.fld R.EVT_STG_TAIL_INDEX = (n + 1) % 2 ^ 16 ∧ (s.eng.staged = 16319 → t.eng.hasBit R.E_EVT_RESERVE = true) ∧
      (s.eng.mirrorOf 63 = none → (∀ i : Fin 16, readByte t.chip.tanks (stagingAt n + i.val) = nth (e.bytes false) i.val 0) ∧ TankKept s t (fun a => a / 16 != stagingAt n / 16)) ∧
      RegsKept s t (fun a => a != R.EVT_STG_TAIL && a != statusAddr 8) ∧ t.chip.cistern = s.chip.cistern ∧ t.eng.tb = s.eng.tb ∧ t.pending = s.pending)) ∧
  (∀ (s : State) (e : LogEntry) (rest : List LogEntry), s.eng.running = true → s.eng.detected = e :: rest →
    s.eng.owner 63 ≠ 5 ∨ 16384 ≤ s.eng.staged ∨ (16320 ≤ s.eng.staged ∧ (e.code < 0x300 ∨ 0x500 ≤ e.code)) →
    Ends (exec .eventLogEntry s) (fun t => t.eng.detected = rest ∧ t.eng.reg R.EVT_LOST = satAdd (s.eng.reg R.EVT_LOST) 1 ∧ t.eng.hasBit R.E_EVT_LOST = true ∧ t.eng.lostSince = min (s.eng.lostSince + 1) 0xFFFFFFFF ∧
      (s.eng.lostSince = 0 → t.eng.lostTb = e.tb) ∧ Kept s t [R.EVT_LOST, statusAddr 8])) ∧
  (∀ s : State, s.eng.running = true → s.eng.detected = [] → exec .eventLogEntry s = .next s) ∧
  (∀ (s : State) (n : Nat), s.eng.running = true → s.eng.lostSince ≠ 0 → s.eng.owner 63 = 5 → s.eng.staged < 16320 → n = s.eng.fld R.EVT_STG_TAIL_INDEX →
    Ends (exec .logLost s) (fun t => t.eng.lostSince = 0 ∧ t.eng.fld R.EVT_STG_TAIL_INDEX = (n + 1) % 2 ^ 16 ∧
      (s.eng.mirrorOf 63 = none → (∀ i : Fin 16, readByte t.chip.tanks (stagingAt n + i.val) =
        nth ((⟨s.eng.pclk, 8, 0, 3, BitVec.ofNat 32 s.eng.lostSince, s.eng.lostTb⟩ : LogEntry).bytes false) i.val 0) ∧ TankKept s t (fun a => a / 16 != stagingAt n / 16)) ∧
      RegsKept s t (fun a => a != R.EVT_STG_TAIL && a != statusAddr 8) ∧ t.chip.cistern = s.chip.cistern ∧ t.eng.tb = s.eng.tb ∧ t.pending = s.pending)) ∧
  (∀ s : State, s.eng.running = true → s.eng.lostSince = 0 ∨ s.eng.owner 63 ≠ 5 ∨ 16320 ≤ s.eng.staged → exec .logLost s = .next s) ∧
  (∀ (s : State) (a lo hi n : Nat), s.eng.mgt.powered = true → s.eng.flag R.EVT_CTL_EN = true → s.eng.hostIssues = true → s.eng.staged ≠ 0 → n = s.eng.fld R.EVT_TAIL_INDEX →
    (n + 1) % s.eng.evtRing ≠ s.eng.fld R.EVT_HEAD_INDEX → a = stagingAt (s.eng.fld R.EVT_STG_HEAD_INDEX) → s.eng.wordError (a / 8) = .good → s.eng.wordError (a / 8 + 1) = .good →
    lo = readLE s.chip.tanks a 8 → hi = readLE s.chip.tanks (a + 8) 8 + s.eng.host.evtPhase.toNat * 2 ^ 14 →
    Ends (exec .eventLogCopy s) (fun t => t.eng.fld R.EVT_TAIL_INDEX = (n + 1) % s.eng.evtRing ∧ t.eng.fld R.EVT_STG_HEAD_INDEX = (s.eng.fld R.EVT_STG_HEAD_INDEX + 1) % 2 ^ 16 ∧
      (s.eng.toFlume = false → t.eng.host.out.take (s.eng.host.out.length + 1) = s.eng.host.out ++ [.event ((s.eng.reg64 R.EVT_RING_BASE_LO).toNat / 16 * 16 + 16 * n) (bytesLE 8 lo ++ bytesLE 8 hi)]) ∧
      (s.eng.toFlume = true → s.eng.ring.peers.length = 8 → (s.eng.peer 0).waiting = [] → s.eng.ring.unacked.countP (fun u => u.flit.dst == 0) < 511 →
        t.eng.ring.unacked.any (fun u => u.flit.dst == 0 && u.flit.body == .dmahdr (s.eng.peer 0).txSeq ((s.eng.reg64 R.EVT_RING_BASE_LO).toNat / 16 * 16 + 16 * n) 16 0) = true ∧
        t.eng.ring.unacked.any (fun u => u.flit.dst == 0 && u.flit.body == .payload (((s.eng.peer 0).txSeq + 1) % 2 ^ 16) (leNat (bytesLE 8 lo ++ bytesLE 8 hi))) = true) ∧
      t.eng.host.evtPhase = (if (n + 1) % s.eng.evtRing = 0 then !s.eng.host.evtPhase else s.eng.host.evtPhase) ∧ Kept s t [R.EVT_TAIL, R.EVT_STG_HEAD])) ∧
  (∀ s : State, s.eng.mgt.powered = true → s.eng.flag R.EVT_CTL_EN = true → s.eng.hostIssues = true → s.eng.staged ≠ 0 → (s.eng.fld R.EVT_TAIL_INDEX + 1) % s.eng.evtRing = s.eng.fld R.EVT_HEAD_INDEX →
    Ends (exec .eventLogCopy s) (fun t => t.eng.hasBit R.E_EVT_RING_FULL = true ∧ t.eng.host.out = s.eng.host.out ∧ Kept s t [statusAddr 8])) ∧
  (∀ s : State, s.eng.mgt.powered = true → s.eng.flag R.EVT_CTL_EN = false ∨ s.eng.hostIssues = false ∨ s.eng.staged = 0 → exec .eventLogCopy s = .next s) ∧
  (∀ (s : State) (port : Port) (v : Word), s.accepts port R.EVT_STG_HEAD v = true → s.eng.flag R.EVT_CTL_EN = false →
    (bitsOf v.toNat 0 16 + 2 ^ 16 - s.eng.fld R.EVT_STG_HEAD_INDEX) % 2 ^ 16 ≤ s.eng.staged →
    Ends (exec (.stgHeadWrite port v) s) (fun t => t.eng.fld R.EVT_STG_HEAD_INDEX = bitsOf v.toNat 0 16 ∧ t.eng.answer = okAnswer port ∧ Kept s t [R.EVT_STG_HEAD])) ∧
  (∀ (s : State) (port : Port) (v : Word), s.accepts port R.EVT_STG_HEAD v = true →
    s.eng.flag R.EVT_CTL_EN = true ∨ s.eng.staged < (bitsOf v.toNat 0 16 + 2 ^ 16 - s.eng.fld R.EVT_STG_HEAD_INDEX) % 2 ^ 16 →
    Ends (exec (.stgHeadWrite port v) s) (fun t => t.eng.answer = okAnswer port ∧ Kept s t [])) ∧
  (∀ (s : State) (v : Fin 64), s.eng.mgt.powered = true → s.eng.host.pending.getLsbD v = true → s.eng.hostIssues = true → s.eng.msixOn = true → s.eng.masked v = false →
    Ends (exec (.interruptSend v) s) (fun t => t.eng.host.pending.getLsbD v = false ∧ (∀ k : Fin 64, k ≠ v → t.eng.host.pending.getLsbD k = s.eng.host.pending.getLsbD k) ∧
      t.eng.host.out = s.eng.host.out ++ [.msix v] ∧ Kept s t [])) ∧
  (∀ (s : State) (v : Fin 64), s.eng.mgt.powered = true → s.eng.host.pending.getLsbD v = true → s.eng.hostIssues = true → s.eng.msixOn = false → s.eng.masked v = false →
    Ends (exec (.interruptSend v) s) (fun t => (∀ k : Fin 64, t.eng.host.pending.getLsbD k = (s.eng.host.pending.getLsbD k && decide (k.val % s.eng.msiCount ≠ v.val % s.eng.msiCount))) ∧
      t.eng.host.out = s.eng.host.out ++ [.msi (v.val % s.eng.msiCount)] ∧ Kept s t [])) ∧
  (∀ (s : State) (v : Fin 64), s.eng.mgt.powered = true → s.eng.host.pending.getLsbD v = false ∨ s.eng.hostIssues = false ∨ s.eng.masked v = true → exec (.interruptSend v) s = .next s) ∧
  (∀ (s : State) (page : Fin 256) (r : Raised), s.eng.running = true → s.eng.raised.find? (fun r => r.page == page.val) = some r →
    Ends (exec (.pageEvent page) s) (fun t => t.eng.raised = s.eng.raised.erase r ∧ t.eng.detected = insertEntry ⟨r.pclk, page, 0, 1, r.bits, r.tb⟩ s.eng.detected ∧ Kept s t [])) ∧
  (∀ (s : State) (page : Fin 256), s.eng.running = true → s.eng.raised.find? (fun r => r.page == page.val) = none → exec (.pageEvent page) s = .next s)

/-- O47. R404, R409, R410: PAGE_INTEN takes its bits, and enables over set status bits raise the event; PAGE_LOCK locks a page, the directory's excepted; the scrubber restores one bad copy with an entry, and two bad ones are a cause of settling. -/
def Obligations.CommonHead : Prop :=
  (∀ (s : State) (port : Port) (page : Fin 256) (v : Word) (h : RegHit), s.accepts port (intenAddr page) v = true → decodeReg (intenAddr page) = some h →
    Ends (exec (.pageIntenWrite port page v) s) (fun t =>
      t.eng.reg (intenAddr page) = (s.eng.reg (intenAddr page) &&& ~~~BitVec.ofNat 32 (h.row.rw ||| h.row.rwh)) ||| (v &&& BitVec.ofNat 32 (h.row.rw ||| h.row.rwh)) ∧
      (t.eng.reg (intenAddr page) &&& ~~~s.eng.reg (intenAddr page) &&& s.eng.reg (statusAddr page) ≠ 0 →
        ∃ r ∈ t.eng.raised, r.page = page ∧ r.pclk = s.eng.pclk ∧ (t.eng.reg (intenAddr page) &&& ~~~s.eng.reg (intenAddr page) &&& s.eng.reg (statusAddr page)) ||| r.bits = r.bits) ∧
      t.eng.answer = okAnswer port ∧ Kept s t [intenAddr page])) ∧
  (∀ (s : State) (port : Port) (page : Fin 256), s.accepts port (lockAddr page) 1 = true →
    Ends (exec (.pageLock port page) s) (fun t => (4 ≤ page.val → t.eng.reg (lockAddr page) = 1) ∧ t.eng.answer = okAnswer port ∧ Kept s t (if 4 ≤ page.val then [lockAddr page] else []))) ∧
  (∀ (s : State) (bankB : Bool) (addr : BitVec 20) (key : Nat), key = addr.toNat + (if bankB then 0x100000 else 0) → s.eng.running = true → isConfig key = true →
    Ends (exec (.registerScrub bankB addr false) s) (fun t => t.eng.detected = s.eng.nowDetected (keyPage key) 1 0x0104 (keyOff key / 4) ∧ bitAt (t.eng.reg (faultAddr (keyPage key))).toNat 0 = true ∧
      t.eng.badParity = s.eng.badParity ∧ Kept s t [faultAddr (keyPage key)])) ∧
  (∀ (s : State) (bankB : Bool) (addr : BitVec 20) (key : Nat), key = addr.toNat + (if bankB then 0x100000 else 0) → s.eng.running = true → isConfig key = true → s.eng.badParity.contains key = false →
    Ends (exec (.registerScrub bankB addr true) s) (fun t => t.eng.badParity = key :: s.eng.badParity ∧ t.eng.causes = s.eng.causes ++ [⟨1, keyPage key + keyOff key / 4 * 2 ^ 12, keyPage key⟩] ∧
      bitAt (t.eng.reg (faultAddr (keyPage key))).toNat 1 = true ∧ Kept s t [faultAddr (keyPage key)])) ∧
  (∀ (s : State) (bankB bothBad : Bool) (addr : BitVec 20), s.eng.running = true → isConfig (addr.toNat + (if bankB then 0x100000 else 0)) = false → exec (.registerScrub bankB addr bothBad) s = .next s)

/-- O48. R403, the rule as it stands: a host-link read of an RC field returns it and clears each bit returned as 1, bit by bit; a read from any other port, and any read while the module is dammed, clears nothing. -/
def Obligations.ReadClears : Prop :=
  (∀ (s : State) (port : Port) (addr : BitVec 20) (h : RegHit), s.eng.reachable = true → s.eng.badParity = [] → decodeReg addr.toNat = some h → isDirWord addr.toNat = false → s.eng.absentCisp addr.toNat = false → h.row.rc ≠ 0 →
    Ends (exec (.lowWordRead port addr) s) (fun t => t.eng.answer = okRead port (s.chip.shows port h addr.toNat) ∧
      t.eng.reg addr.toNat = (if port = .host ∧ s.eng.dammed = false then s.eng.reg addr.toNat &&& ~~~(s.chip.shows port h addr.toNat &&& BitVec.ofNat 32 h.row.rc) else s.eng.reg addr.toNat) ∧ Kept s t [addr.toNat])) ∧
  (∀ (s : State) (addr : BitVec 20), exec (.rcReadClear addr) s = exec (.lowWordRead .host addr) s)

/-- O49. R405, the rule as it stands: a read of a low word puts the high word of the same cycle into the port's one shadow; a read of the high word returns the shadow when the port's latest low-word read was of the matching low word, and the live high word otherwise; BAR0 and the proxy of R363 share the host link's shadow; the shadow survives a dam, and reads of the dammed module use it in the same way (no clause asks whether the module is dammed). -/
def Obligations.HighWordShadows : Prop :=
  (∀ (s : State) (port : Port) (addr : BitVec 20) (h h' : RegHit), s.eng.reachable = true → s.eng.badParity = [] → decodeReg addr.toNat = some h → isDirWord addr.toNat = false → s.eng.absentCisp addr.toNat = false →
    h.row.low = true → decodeReg (addr.toNat + 4) = some h' → s.eng.mgt.shadows.length = 5 →
    Ends (exec (.lowWordRead port addr) s) (fun t => t.eng.shadowFor port (addr.toNat + 4) = some (s.chip.shows port h' (addr.toNat + 4)) ∧ (∀ q, q ≠ port → ∀ a, t.eng.shadowFor q a = s.eng.shadowFor q a) ∧
      t.eng.answer = okRead port (s.chip.shows port h addr.toNat) ∧ Kept s t [])) ∧
  (∀ (s : State) (port : Port) (addr : BitVec 20) (h : RegHit), s.eng.reachable = true → s.eng.badParity = [] → decodeReg addr.toNat = some h → isDirWord addr.toNat = false → s.eng.absentCisp addr.toNat = false → h.row.high = true →
    Ends (exec (.lowWordRead port addr) s) (fun t => t.eng.answer = okRead port (match s.eng.shadowFor port addr.toNat with | some w => w | none => s.chip.shows port h addr.toNat) ∧ t.eng.mgt.shadows = s.eng.mgt.shadows ∧ Kept s t [])) ∧
  (∀ (s : State) (addr : BitVec 20) (h : RegHit), s.eng.host.perst = false → s.eng.reachable = true → s.eng.mse 0 = true → s.eng.d3hot 0 = false → s.eng.host.hold = false → s.eng.badParity = [] →
    decodeReg addr.toNat = some h → isDirWord addr.toNat = false → s.eng.absentCisp addr.toNat = false → h.row.high = true →
    Ends (exec (.bar0Request 0 addr (.read 4 true)) s) (fun t => t.eng.answer = .bytes (bytesLE 4 (match s.eng.shadowFor .host addr.toNat with | some w => w | none => s.chip.shows .host h addr.toNat).toNat))) ∧
  (∀ (s : State) (addr : BitVec 20) (h : RegHit), s.eng.host.perst = false → s.eng.mgt.powered = true → s.eng.host.ready = true → s.eng.badParity = [] → (s.eng.cfg 0 0x30C).toNat = addr.toNat →
    decodeReg addr.toNat = some h → isDirWord addr.toNat = false → s.eng.absentCisp addr.toNat = false → h.row.high = true →
    Ends (exec (.vsecRdata 0 none) s) (fun t => t.eng.answer = .word (match s.eng.shadowFor .host addr.toNat with | some w => w | none => s.chip.shows .host h addr.toNat))) ∧
  (∀ (s : State) (addr : BitVec 20) (h h' : RegHit), s.eng.host.perst = false → s.eng.mgt.powered = true → s.eng.host.ready = true → s.eng.badParity = [] → (s.eng.cfg 0 0x30C).toNat = addr.toNat →
    decodeReg addr.toNat = some h → isDirWord addr.toNat = false → s.eng.absentCisp addr.toNat = false → h.row.low = true → decodeReg (addr.toNat + 4) = some h' → s.eng.mgt.shadows.length = 5 →
    Ends (exec (.vsecRdata 0 none) s) (fun t => t.eng.shadowFor .host (addr.toNat + 4) = some (s.chip.shows .host h' (addr.toNat + 4)))) ∧
  (∀ s : State, Ends (exec .damStop s) (fun t => t.eng.mgt.shadows = s.eng.mgt.shadows) ∧ Ends (exec .damClockGate s) (fun t => t.eng.mgt.shadows = s.eng.mgt.shadows)) ∧
  (∀ (s : State) (port : Port) (elapsed : Nat), Ends (exec (.damRelease port elapsed) s) (fun t => t.eng.mgt.shadows = s.eng.mgt.shadows))

/-! ## The cistern (R278 to R305) -/

/-- O50. R282, R283, R285, R287 to R290, R294, R342: the controller issues one command to a pseudo-channel at a time: a refresh first, then a neighbour refresh whose bank is free, of the rows around the activated one, then the bursts of its queues, each with its row opened first; a burst covered in part is read before it is written, a write all of whose bursts went out awaits completion, and a window read all of whose bursts came in is answered. Every command enters the retry buffer, and under an alert the sixteenth good one ends the ladder. A stack's report sets its temperature and its refresh multiplier. The model's choices it rests on: notes/assumptions/108, 109, 116. -/
def Obligations.CisternCommands : Prop :=
  (∀ (s : State) (pc : Fin 64) (bank : Fin 48), s.eng.running = true → pc.val < s.eng.cis.pcs.length → s.eng.pcIssues pc = true → (s.eng.pc pc).rung = 0 →
    Ends (exec (.refresh pc bank) s) (fun t => (t.eng.pc pc).count = (s.eng.pc pc).count + 1 ∧ (t.eng.pc pc).retry = (⟨4, bank, 0, 0, []⟩ :: (s.eng.pc pc).retry).take 16 ∧
      (∀ r ∈ (t.eng.pc pc).openRows, r.1 ≠ bank.val) ∧ (t.eng.pc pc).wq = (s.eng.pc pc).wq ∧ Kept s t [])) ∧
  (∀ (s : State) (pc : Fin 64) (bank : Fin 48), s.eng.running = true → pc.val < s.eng.cis.pcs.length → s.eng.pcIssues pc = true → (s.eng.pc pc).good = 1 → 1 ≤ (s.eng.pc pc).rung → (s.eng.pc pc).rung ≤ 3 →
    Ends (exec (.refresh pc bank) s) (fun t => (t.eng.pc pc).rung = 0 ∧ t.eng.fld (R.CISP_PC_STATE_LADDER (pc / 32) (pc % 32)) = 0 ∧
      t.eng.reg (R.CISP_PC_REPLAY (pc / 32) (pc % 32)) = satAdd (s.eng.reg (R.CISP_PC_REPLAY (pc / 32) (pc % 32))) 1 ∧ t.eng.hasBit R.E_CIS_REPLAY = true ∧
      Kept s t [R.CISP_PC_STATE (pc / 32) (pc % 32), R.CISP_PC_REPLAY (pc / 32) (pc % 32), statusAddr 0xB0])) ∧
  (∀ (s : State) (pc : Fin 64) (bank : Fin 48), s.eng.running = true → pc.val < s.eng.cis.pcs.length → s.eng.pcIssues pc = true → (s.eng.pc pc).good = 1 → 4 ≤ (s.eng.pc pc).rung →
    Ends (exec (.refresh pc bank) s) (fun t => (t.eng.pc pc).rung = 0 ∧ t.eng.fld (R.CISP_PC_STATE_LADDER (pc / 32) (pc % 32)) = 0 ∧
      t.eng.reg (R.CISP_PC_RETRAIN (pc / 32) (pc % 32)) = satAdd (s.eng.reg (R.CISP_PC_RETRAIN (pc / 32) (pc % 32))) 1 ∧ t.eng.hasBit R.E_CIS_RETRAIN = true ∧ t.eng.detected = s.eng.nowDetected 0xB0 1 0x0105 pc ∧
      Kept s t [R.CISP_PC_STATE (pc / 32) (pc % 32), R.CISP_PC_RETRAIN (pc / 32) (pc % 32), statusAddr 0xB0])) ∧
  (∀ (s : State) (pc : Fin 64) (bank : Fin 48), s.eng.running = true → s.eng.pcIssues pc = false → exec (.refresh pc bank) s = .next s) ∧
  (∀ (s : State) (pc : Fin 64) (busy : BitVec 48) (ecc : Ecc) (bank row : Nat), s.issues pc = true → (s.eng.pc pc).nr.find? (fun b => !busy.getLsbD b.1) = some (bank, row) →
    Ends (exec (.cisternCommand pc busy ecc) s) (fun t => (t.eng.pc pc).nr = (s.eng.pc pc).nr.erase (bank, row) ∧ (t.eng.pc pc).count = (s.eng.pc pc).count + 1 ∧
      (t.eng.pc pc).retry = (⟨5, bank, row, 0, s.eng.neighbours row⟩ :: (s.eng.pc pc).retry).take 16 ∧
      t.eng.reg (R.CISP_PC_NR (pc / 32) (pc % 32)) = satAdd (s.eng.reg (R.CISP_PC_NR (pc / 32) (pc % 32))) 1 ∧ Kept s t [R.CISP_PC_NR (pc / 32) (pc % 32)])) ∧
  (∀ (s : State) (pc : Fin 64) (ecc : Ecc) (w : CisWrite), s.issues pc = true → (s.eng.pc pc).nr = [] → (s.eng.pc pc).rq = [] → (s.eng.pc pc).wq = [w] → w.readsFirst = false → (s.eng.needs pc w.next 3).op = 3 →
    Ends (exec (.cisternCommand pc 0 ecc) s) (fun t => (t.eng.pc pc).count = (s.eng.pc pc).count + 1 ∧
      (if burstsOf w.addr w.bytes.length ≤ w.sent + 1
       then (t.eng.pc pc).wq = [] ∧ (t.eng.pc pc).flight = (s.eng.pc pc).flight ++ [{ w with sent := w.sent + 1, last := (s.eng.pc pc).count + 1, rmw := false }]
       else (t.eng.pc pc).wq = [{ w with sent := w.sent + 1, last := (s.eng.pc pc).count + 1, rmw := false }] ∧ (t.eng.pc pc).flight = (s.eng.pc pc).flight) ∧
      Kept s t [R.CISP_PC_STATE (pc / 32) (pc % 32)])) ∧
  (∀ (s : State) (pc : Fin 64) (w : CisWrite), s.issues pc = true → (s.eng.pc pc).nr = [] → (s.eng.pc pc).rq = [] → (s.eng.pc pc).wq = [w] → w.readsFirst = true → (s.eng.needs pc w.next 2).op = 2 →
    Ends (exec (.cisternCommand pc 0 .good) s) (fun t => (t.eng.pc pc).wq = [{ w with rmw := true }] ∧ (t.eng.pc pc).retry = (s.eng.needs pc w.next 2 :: (s.eng.pc pc).retry).take 16 ∧
      Kept s t [R.CISP_PC_STATE (pc / 32) (pc % 32)])) ∧
  (∀ (s : State) (pc : Fin 64) (ecc : Ecc) (w : CisWrite), s.issues pc = true → (s.eng.pc pc).nr = [] → (s.eng.pc pc).rq = [] → (s.eng.pc pc).wq = [w] → s.eng.flag R.CIS_NRCTL_EN = false → (s.eng.needs pc w.next 3).op = 0 →
    Ends (exec (.cisternCommand pc 0 ecc) s) (fun t => (t.eng.pc pc).wq = [w] ∧ (bankOf (s.eng.pcAddr w.next).2, rowOf (s.eng.pcAddr w.next).2) ∈ (t.eng.pc pc).openRows ∧ (t.eng.pc pc).lfsr = lfsrStep (s.eng.pc pc).lfsr ∧
      (t.eng.pc pc).retry = (⟨0, bankOf (s.eng.pcAddr w.next).2, rowOf (s.eng.pcAddr w.next).2, 0, []⟩ :: (s.eng.pc pc).retry).take 16 ∧ Kept s t [R.CISP_PC_STATE (pc / 32) (pc % 32)])) ∧
  (∀ (s : State) (pc : Fin 64) (r : CisRead), s.issues pc = true → (s.eng.pc pc).nr = [] → (s.eng.pc pc).rq = [r] → (s.eng.pc pc).wq = [] → (s.eng.pc pc).flight = [] → (s.eng.needs pc r.next 2).op = 2 → r.sent + 1 < burstsOf r.addr r.len →
    Ends (exec (.cisternCommand pc 0 .good) s) (fun t => (t.eng.pc pc).rq = [{ r with sent := r.sent + 1 }] ∧ (t.eng.pc pc).count = (s.eng.pc pc).count + 1 ∧
      Kept s t [R.CISP_PC_STATE (pc / 32) (pc % 32)])) ∧
  (∀ (s : State) (pc : Fin 64) (r : CisRead) (x : WinRead), s.issues pc = true → (s.eng.pc pc).nr = [] → (s.eng.pc pc).rq = [r] → (s.eng.pc pc).wq = [] → (s.eng.pc pc).flight = [] → (s.eng.needs pc r.next 2).op = 2 →
    burstsOf r.addr r.len ≤ r.sent + 1 → s.eng.cis.reads = [x] → r.reader = .window x.tag → r.addr = x.addr → r.len = x.len → 0 < x.len → r.bad = [] → x.parts = [] → x.bad = [] → x.reply = none →
    Ends (exec (.cisternCommand pc 0 .good) s) (fun t => (t.eng.pc pc).rq = [] ∧ t.eng.cis.reads = [] ∧
      t.eng.answer = .completions (completionsOf s.eng.mps x.addr ((List.range x.len).map (fun i => readByte s.chip.cistern (x.addr + i))) []) ∧ Kept s t [R.CISP_PC_STATE (pc / 32) (pc % 32)])) ∧
  (∀ (s : State) (pc : Fin 64) (r : CisRead), s.issues pc = true → (s.eng.pc pc).nr = [] → (s.eng.pc pc).rq = [r] → (s.eng.pc pc).wq = [] → (s.eng.pc pc).flight = [] → (s.eng.needs pc r.next 2).op = 2 → r.sent + 1 < burstsOf r.addr r.len →
    s.eng.pcOf r.next = pc.val →
    Ends (exec (.cisternCommand pc 0 .double) s) (fun t => (t.eng.pc pc).rq = [{ r with sent := r.sent + 1, bad := r.bad ++ [r.next / 32] }] ∧
      t.eng.reg (R.CISP_PC_UE (pc / 32) (pc % 32)) = satAdd (s.eng.reg (R.CISP_PC_UE (pc / 32) (pc % 32))) 1 ∧ t.eng.reg64 R.CIS_LASTUE_LO = BitVec.ofNat 64 r.next ∧ t.eng.hasBit R.E_CIS_UE = true ∧
      t.eng.detected = s.eng.nowDetected 0xB0 2 0x0203 (r.next / 256) ∧
      Kept s t [R.CISP_PC_STATE (pc / 32) (pc % 32), R.CISP_PC_UE (pc / 32) (pc % 32), R.CIS_LASTUE_LO, R.CIS_LASTUE_LO + 4, statusAddr 0xB0])) ∧
  (∀ (s : State) (pc : Fin 64) (busy : BitVec 48) (ecc : Ecc), s.issues pc = true → (s.eng.pc pc).nr = [] → (s.eng.pc pc).wq = [] → (s.eng.pc pc).rq = [] →
    Ends (exec (.cisternCommand pc busy ecc) s) (fun t => t.eng.cis.pcs = s.eng.cis.pcs ∧ Kept s t [R.CISP_PC_STATE (pc / 32) (pc % 32)])) ∧
  (∀ (s : State) (stk : Fin 2) (temp : BitVec 8) (mul : Fin 4), s.eng.mgt.powered = true → stk.val < s.eng.stackCount →
    Ends (exec (.stackTemperatureReport stk temp mul) s) (fun t => t.eng.fld (R.CISP_STACKSTAT_TEMP stk) = temp.toNat ∧ t.eng.fld (R.CISP_STACKSTAT_REFMUL stk) = mul ∧
      t.eng.flag (R.CISP_STACKSTAT_PRESENT stk) = true ∧ t.eng.fld (R.CISP_STACKTEMP_MAX_TEMP stk) = max (s.eng.fld (R.CISP_STACKTEMP_MAX_TEMP stk)) temp.toNat ∧
      (s.eng.fld (R.CISP_STACKSTAT_REFMUL stk) ≠ mul.val → t.eng.hasBit (R.E_CISP_REFMUL stk) = true) ∧
      Kept s t [R.CISP_STACKSTAT stk, R.CISP_STACKTEMP_MAX stk, statusAddr (0xB1 + stk)])) ∧
  (∀ (s : State) (stk : Fin 2) (temp : BitVec 8) (mul : Fin 4), s.eng.mgt.powered = true → s.eng.stackCount ≤ stk.val → exec (.stackTemperatureReport stk temp mul) s = .next s)

/-- O51. R290, R292, R293, R295, R296, R423: each parity alert climbs the ladder by a rung: three replays, a retrain of the pseudo-channel, then it is taken offline, shows so, loses its queued writes, and there is a cause of settling. A revival trains an offline pseudo-channel, which comes back with every byte 0, or stays offline. A training pass gathers for the next pseudo-channel of the visit, then applies its settings where the queues are quiet or its share of the period is over, or starts a retrain; a visit that ends after its period is late. The model's choices it rests on: notes/assumptions/110, 119, 120, 124. -/
def Obligations.ParityAndTraining : Prop :=
  (∀ (s : State) (pc : Fin 64), s.eng.running = true → pc.val < s.eng.cis.pcs.length → s.eng.pcIssues pc = true → (s.eng.pc pc).rung < 3 →
    Ends (exec (.parityAlert pc) s) (fun t => (t.eng.pc pc).rung = (s.eng.pc pc).rung + 1 ∧ (t.eng.pc pc).good = 16 ∧ (t.eng.pc pc).openRows = [] ∧ (t.eng.pc pc).wq = (s.eng.pc pc).wq ∧
      t.eng.fld (R.CISP_PC_STATE_LADDER (pc / 32) (pc % 32)) = (s.eng.pc pc).rung + 1 ∧ t.eng.pcSt pc = 1 ∧ (t.eng.pc pc).count = (s.eng.pc pc).count + (s.eng.pc pc).retry.length ∧
      Kept s t [R.CISP_PC_STATE (pc / 32) (pc % 32)])) ∧
  (∀ (s : State) (pc : Fin 64), s.eng.running = true → pc.val < s.eng.cis.pcs.length → s.eng.pcIssues pc = true → (s.eng.pc pc).rung = 3 →
    Ends (exec (.parityAlert pc) s) (fun t => (t.eng.pc pc).rung = 4 ∧ t.eng.pcSt pc = 2 ∧ (t.eng.pc pc).wq = (s.eng.pc pc).wq ∧ Kept s t [R.CISP_PC_STATE (pc / 32) (pc % 32)])) ∧
  (∀ (s : State) (pc : Fin 64), s.eng.running = true → pc.val < s.eng.cis.pcs.length → s.eng.pcIssues pc = true → 4 ≤ (s.eng.pc pc).rung →
    Ends (exec (.parityAlert pc) s) (fun t => t.eng.pcSt pc = 3 ∧ (t.eng.pc pc).wq = [] ∧ (t.eng.pc pc).rq = [] ∧ (t.eng.pc pc).flight = [] ∧ t.eng.hasBit R.E_CIS_OFFLINE = true ∧
      t.eng.hasBit (R.E_CISP_OFFLINE (pc / 32)) = true ∧ bitAt (t.eng.reg64 R.CIS_OFFLINE_LO).toNat pc = true ∧ (⟨2, pc, 0xB0⟩ : Cause) ∈ t.eng.causes ∧ RegsKept s t (onPages [4, 5, 6, 7, 8, 9, 0xA0, 0xA1, 0xB3, 0xC0, 0xF0, 0xF1, 0xF2]) ∧ t.eng.tb = s.eng.tb ∧ MemKept s t)) ∧
  (∀ (s : State) (pc : Fin 64), s.eng.running = true → s.eng.pcIssues pc = false → exec (.parityAlert pc) s = .next s) ∧
  (∀ (s : State) (pc : Fin 64), s.eng.running = true → pc.val < s.eng.cis.pcs.length → s.eng.pcSt pc = 2 → (s.eng.pc pc).rung = 4 →
    Ends (exec (.pcRetrainDone pc true) s) (fun t => t.eng.pcSt pc = 1 ∧ (t.eng.pc pc).rung = 4 ∧ (t.eng.pc pc).good = 16 ∧ (t.eng.pc pc).wq = (s.eng.pc pc).wq ∧ Kept s t [R.CISP_PC_STATE (pc / 32) (pc % 32)])) ∧
  (∀ (s : State) (pc : Fin 64), s.eng.running = true → pc.val < s.eng.cis.pcs.length → s.eng.pcSt pc = 2 → (s.eng.pc pc).rung = 4 →
    Ends (exec (.pcRetrainDone pc false) s) (fun t => t.eng.pcSt pc = 3 ∧ (t.eng.pc pc).wq = [] ∧ (t.eng.pc pc).rq = [] ∧ t.eng.hasBit R.E_CIS_OFFLINE = true ∧ (⟨2, pc, 0xB0⟩ : Cause) ∈ t.eng.causes ∧ RegsKept s t (onPages [4, 5, 6, 7, 8, 9, 0xA0, 0xA1, 0xB3, 0xC0, 0xF0, 0xF1, 0xF2]) ∧ t.eng.tb = s.eng.tb ∧ MemKept s t)) ∧
  (∀ (s : State) (pc : Fin 64) (ok : Bool), s.eng.running = true → s.eng.pcSt pc ≠ 2 ∨ (s.eng.pc pc).rung ≠ 4 → exec (.pcRetrainDone pc ok) s = .next s) ∧
  (∀ (s : State) (port : Port) (pc : Fin 64), s.accepts port (R.CISP_PC_CTL (pc / 32) (pc % 32)) 1 = true → s.eng.armed = false → s.eng.pcSt pc = 3 →
    Ends (exec (.revive port pc) s) (fun t => t.eng.pcSt pc = 2 ∧ t.eng.flag (R.CISP_PC_STATE_REVIVING (pc / 32) (pc % 32)) = true ∧ t.eng.flag (R.CISP_PC_CTL_REVIVE (pc / 32) (pc % 32)) = true ∧
      t.eng.answer = okAnswer port ∧ Kept s t [R.CISP_PC_STATE (pc / 32) (pc % 32), R.CISP_PC_CTL (pc / 32) (pc % 32)])) ∧
  (∀ (s : State) (port : Port) (pc : Fin 64), s.accepts port (R.CISP_PC_CTL (pc / 32) (pc % 32)) 1 = true → s.eng.armed = true ∨ s.eng.pcSt pc ≠ 3 →
    Ends (exec (.revive port pc) s) (fun t => t.eng.answer = okAnswer port ∧ Kept s t [])) ∧
  (∀ (s : State) (pc : Fin 64), s.eng.running = true → s.eng.flag (R.CISP_PC_STATE_REVIVING (pc / 32) (pc % 32)) = true →
    Ends (exec (.reviveDone pc true) s) (fun t => t.eng.pcSt pc = 1 ∧ t.eng.hasBit (R.E_CISP_REVIVED (pc / 32)) = true ∧ bitAt (t.eng.reg64 R.CIS_OFFLINE_LO).toNat pc = false ∧
      CisternZero t (fun a => s.eng.pcOf a == pc.val) ∧ CisternKept s t (fun a => s.eng.pcOf a != pc.val) ∧
      RegsKept s t (fun a => !([R.CISP_PC_STATE (pc / 32) (pc % 32), R.CISP_PC_CTL (pc / 32) (pc % 32), R.CIS_OFFLINE_LO, R.CIS_OFFLINE_HI, R.CIS_STATUS, statusAddr (0xB1 + pc / 32)].contains a)) ∧
      t.chip.tanks = s.chip.tanks ∧ t.eng.tb = s.eng.tb ∧ t.pending = s.pending)) ∧
  (∀ (s : State) (pc : Fin 64), s.eng.running = true → s.eng.flag (R.CISP_PC_STATE_REVIVING (pc / 32) (pc % 32)) = true →
    Ends (exec (.reviveDone pc false) s) (fun t => t.eng.pcSt pc = 3 ∧ t.eng.flag (R.CISP_PC_STATE_REVIVING (pc / 32) (pc % 32)) = false ∧ t.eng.hasBit (R.E_CISP_REVIVE_FAIL (pc / 32)) = true ∧
      Kept s t [R.CISP_PC_STATE (pc / 32) (pc % 32), R.CISP_PC_CTL (pc / 32) (pc % 32), R.CIS_OFFLINE_LO, R.CIS_OFFLINE_HI, R.CIS_STATUS, statusAddr (0xB1 + pc / 32)])) ∧
  (∀ (s : State) (pc : Fin 64) (ok : Bool), s.eng.running = true → s.eng.flag (R.CISP_PC_STATE_REVIVING (pc / 32) (pc % 32)) = false → exec (.reviveDone pc ok) s = .next s) ∧
  (∀ (s : State) (k : Fin 2) (j : Fin 32) (ends : Bool), s.eng.running = true → s.eng.cis.pass = none → s.eng.flag R.CIS_TRAINCTL_EN = true → s.eng.cisState = 3 → s.eng.nextVisit = some (32 * k.val + j.val) → s.eng.cis.visit ≠ 0 ∨ s.eng.cis.visitAt ≤ s.eng.cc →
    Ends (exec (.trainingPass k j false ends) s) (fun t => t.eng.cis.pass = some (32 * k.val + j.val) ∧ t.eng.cis.passAt = s.eng.cc ∧ t.eng.flag R.CIS_STATUS_TRAINING = true ∧ Kept s t [R.CIS_STATUS])) ∧
  (∀ (s : State) (k : Fin 2) (j : Fin 32) (due : Nat), s.eng.running = true → s.eng.cis.pass = some (32 * k.val + j.val) → s.eng.cis.opReq = none → due = s.eng.cis.visitAt + s.eng.visitPeriod →
    ((s.eng.pc (32 * k.val + j.val)).rq = [] ∧ (s.eng.pc (32 * k.val + j.val)).wq.length ≤ s.eng.writeLow) ∨ s.eng.cis.passAt + s.eng.visitPeriod / s.eng.pcCount ≤ s.eng.cc →
    Ends (exec (.trainingPass k j true true) s) (fun t => t.eng.cis.pass = none ∧ t.eng.flag R.CIS_STATUS_TRAINING = false ∧
      ((List.range s.eng.pcCount).any (fun q => decide ((32 * k.val + j.val) < q) && s.eng.pcSt q == 1) = true → t.eng.cis.visit = (32 * k.val + j.val) + 1 ∧ Kept s t [R.CIS_STATUS]) ∧
      ((List.range s.eng.pcCount).any (fun q => decide ((32 * k.val + j.val) < q) && s.eng.pcSt q == 1) = false → t.eng.cis.visit = 0 ∧ t.eng.cis.visitAt = max due s.eng.cc ∧
        (due < s.eng.cc → t.eng.hasBit R.E_CIS_TRAIN_LATE = true) ∧ (s.eng.cc ≤ due → Kept s t [R.CIS_STATUS])) ∧ Kept s t [R.CIS_STATUS, statusAddr 0xB0])) ∧
  (∀ (s : State) (k : Fin 2) (j : Fin 32) (ends applies : Bool), s.eng.running = true → s.eng.cis.pass ≠ some (32 * k.val + j.val) → ends = true ∨ s.eng.flag R.CIS_TRAINCTL_EN = false → exec (.trainingPass k j ends applies) s = .next s) ∧
  (∀ (s : State) (k : Fin 2) (j : Fin 32), s.eng.running = true → (s.eng.pc (32 * k.val + j.val)).rq ≠ [] ∨ s.eng.writeLow < (s.eng.pc (32 * k.val + j.val)).wq.length → s.eng.cc < s.eng.cis.passAt + s.eng.visitPeriod / s.eng.pcCount →
    exec (.trainingPass k j true true) s = .next s) ∧
  (∀ (s : State) (k : Fin 2) (j : Fin 32), s.eng.running = true → (32 * k.val + j.val) < s.eng.cis.pcs.length → s.eng.cis.pass = some (32 * k.val + j.val) → s.eng.cis.opReq = none →
    Ends (exec (.trainingPass k j true false) s) (fun t => t.eng.cis.pass = none ∧ t.eng.pcSt (32 * k.val + j.val) = 2 ∧ (t.eng.pc (32 * k.val + j.val)).rung = 4 ∧ (t.eng.pc (32 * k.val + j.val)).good = 16 ∧
      Kept s t [R.CIS_STATUS, R.CISP_PC_STATE k j, statusAddr 0xB0]))

/-- O52. R297, R298, R301, R303, R493: an OPGO for the point in force ends as SAME, one of an armed engine as FREQ_REJ, one made while another is pending is ignored, one made while the controller is not READY or a training pass runs waits, one with VBALIGN waits for the vertical blank, and an accepted one takes the controller to OPCHANGE until the new point, with its timing set, is in force; a REINIT is refused while the engine is armed, an output enabled or a drain runs, and else starts full training; INIT, TRAINING and FILLING follow each other, and READY is reached with the cistern zeroed after a full initialisation; the background test works slot by slot, reads every burst, scrubs single errors, counts and records faults, leaves each element's fill in a marched slot, and counts its passes. The model's choices it rests on: notes/assumptions/71, 121, 122, 123. -/
def Obligations.OperatingPointsAndTest : Prop :=
  (∀ (s : State) (port : Port) (v : Word), s.accepts port R.CIS_CTL (v ||| 1) = true → bitAt v.toNat 4 = false → s.eng.cis.opReq = none →s.eng.cis.opRun = none → s.eng.cis.opWait = false → s.eng.cisState = 3 → s.eng.flag R.CIS_STATUS_OP = bitAt v.toNat 1 →
    Ends (exec (.opgo port v) s) (fun t => t.eng.fld R.CIS_STATUS_OPRESULT = 3 ∧ t.eng.cisState = 3 ∧ t.eng.flag R.CIS_CTL_OPGO = false ∧ t.eng.cis.opReq = none ∧ t.eng.hasBit R.E_CIS_OP_DONE = true ∧
      t.eng.answer = okAnswer port ∧ Kept s t [R.CIS_CTL, R.CIS_STATUS, statusAddr 0xB0])) ∧
  (∀ (s : State) (port : Port) (v : Word), s.accepts port R.CIS_CTL (v ||| 1) = true → bitAt v.toNat 4 = false → s.eng.cis.opReq = none →s.eng.cis.opRun = none → s.eng.cis.opWait = false → s.eng.cisState = 3 → s.eng.flag R.CIS_STATUS_OP ≠ bitAt v.toNat 1 → s.eng.armed = true → s.eng.settled = false →
    Ends (exec (.opgo port v) s) (fun t => t.eng.fld R.CIS_STATUS_OPRESULT = 2 ∧ t.eng.cisState = 3 ∧ t.eng.flag R.CIS_CTL_OPGO = false ∧ t.eng.cis.opReq = none ∧ t.eng.hasBit R.E_CIS_OP_DONE = true ∧
      t.eng.answer = okAnswer port ∧ Kept s t [R.CIS_CTL, R.CIS_STATUS, statusAddr 0xB0])) ∧
  (∀ (s : State) (port : Port) (v : Word), s.accepts port R.CIS_CTL (v ||| 1) = true → bitAt v.toNat 4 = false → s.eng.cis.opReq = none →s.eng.cis.opRun = none → s.eng.cis.opWait = false → s.eng.cisState = 3 → s.eng.flag R.CIS_STATUS_OP ≠ bitAt v.toNat 1 → s.eng.armed = false ∨ s.eng.settled = true → s.eng.cis.pass = none →
    Ends (exec (.opgo port v) s) (fun t => t.eng.flag R.CIS_CTL_OPGO = true ∧ t.eng.cis.opReq = some ((bitAt v.toNat 1).toNat, bitAt v.toNat 2) ∧ t.eng.flag R.CIS_STATUS_OPPEND = false ∧
      (if bitAt v.toNat 2 = true then t.eng.cisState = 3 ∧ t.eng.cis.opWait = true else t.eng.cisState = 5 ∧ t.eng.cis.opRun = some (bitAt v.toNat 1).toNat) ∧ t.eng.answer = okAnswer port ∧ Kept s t [R.CIS_CTL, R.CIS_STATUS])) ∧
  (∀ (s : State) (port : Port) (v : Word), s.accepts port R.CIS_CTL (v ||| 1) = true → bitAt v.toNat 4 = false → s.eng.cis.opReq = none → s.eng.cisState ≠ 3 →
    Ends (exec (.opgo port v) s) (fun t => t.eng.flag R.CIS_CTL_OPGO = true ∧ t.eng.cis.opReq = some ((bitAt v.toNat 1).toNat, bitAt v.toNat 2) ∧ t.eng.answer = okAnswer port ∧ Kept s t [R.CIS_CTL])) ∧
  (∀ (s : State) (port : Port) (v : Word) (p : Nat), s.accepts port R.CIS_CTL (v ||| 1) = true → bitAt v.toNat 4 = false → s.eng.cis.opReq = none →s.eng.cis.opRun = none → s.eng.cis.opWait = false → s.eng.cisState = 3 → s.eng.flag R.CIS_STATUS_OP ≠ bitAt v.toNat 1 → s.eng.armed = false → s.eng.cis.pass = some p →
    Ends (exec (.opgo port v) s) (fun t => t.eng.flag R.CIS_CTL_OPGO = true ∧ t.eng.flag R.CIS_STATUS_OPPEND = true ∧ t.eng.cis.opReq = some ((bitAt v.toNat 1).toNat, bitAt v.toNat 2) ∧ t.eng.answer = okAnswer port ∧
      Kept s t [R.CIS_CTL, R.CIS_STATUS])) ∧
  (∀ (s : State) (port : Port) (v : Word), s.accepts port R.CIS_CTL (v ||| 1) = true → bitAt v.toNat 4 = false → s.eng.cis.opReq.isSome = true →
    Ends (exec (.opgo port v) s) (fun t => t.eng.cis = s.eng.cis ∧ t.eng.answer = okAnswer port ∧ Kept s t [R.CIS_CTL])) ∧
  (∀ (s : State) (op : Nat), s.eng.running = true → s.eng.cis.opRun = some op → op < 2 → s.eng.cisState = 5 → s.eng.queuesEmpty = true → s.eng.cis.pcs.all (fun x => x.flight.isEmpty) = true →
    Ends (exec .opChangeDone s) (fun t => t.eng.fld R.CIS_STATUS_OP = op ∧ t.eng.cisState = 3 ∧ t.eng.fld R.CIS_STATUS_OPRESULT = 1 ∧ t.eng.flag R.CIS_CTL_OPGO = false ∧ t.eng.cis.opRun = none ∧ t.eng.cis.opReq = none ∧
      t.eng.cis.timing = (List.range 6).map (fun k => s.eng.reg (if op = 0 then R.CIS_TIM0 k else R.CIS_TIM1 k)) ∧ t.eng.cis.pcs.all (fun x => x.openRows.isEmpty) = true ∧
      t.eng.hasBit R.E_CIS_READY = true ∧ t.eng.hasBit R.E_CIS_OP_DONE = true ∧ Kept s t [R.CIS_CTL, R.CIS_STATUS, statusAddr 0xB0])) ∧
  (∀ s : State, s.eng.running = true → s.eng.cis.opRun = none ∨ s.eng.cisState ≠ 5 ∨ s.eng.queuesEmpty = false → exec .opChangeDone s = .next s) ∧
  (∀ (s : State) (port : Port) (v : Word), s.accepts port R.CIS_CTL (v ||| 0x10) = true → s.eng.armed = false → s.eng.flag (R.DISP_CTL_EN 0) = false → s.eng.flag (R.DISP_CTL_EN 1) = false →
    (∀ d : Fin 4, s.eng.drainSt d ≠ 1) → s.eng.flag R.CIS_CTL_REINIT = false →
    Ends (exec (.reinit port v) s) (fun t => t.eng.cisState = 1 ∧ t.eng.cis.full = true ∧ t.eng.flag R.CIS_CTL_REINIT = true ∧ t.eng.flag R.CIS_STATUS_REINIT_REJ = false ∧ t.eng.cis.pass = none ∧
      (∀ p : Fin 64, (t.eng.pc p).wq = [] ∧ (t.eng.pc p).rq = [] ∧ (p.val < s.eng.pcCount → s.eng.pcSt p ≠ 3 → t.eng.pcSt p = 2)) ∧ t.eng.answer = okAnswer port ∧
      RegsKept s t (fun a => !onPages [0xB0, 0xB1, 0xB2] a) ∧ t.chip.tanks = s.chip.tanks ∧ t.eng.tb = s.eng.tb ∧ t.pending = s.pending)) ∧
  (∀ (s : State) (port : Port) (v : Word), s.accepts port R.CIS_CTL (v ||| 0x10) = true → bitAt v.toNat 0 = false →
    s.eng.armed = true ∨ s.eng.flag (R.DISP_CTL_EN 0) = true ∨ s.eng.flag (R.DISP_CTL_EN 1) = true ∨ (∃ d : Fin 4, s.eng.drainSt d = 1) →
    Ends (exec (.reinit port v) s) (fun t => t.eng.cis = s.eng.cis ∧ t.eng.cisState = s.eng.cisState ∧ t.eng.flag R.CIS_STATUS_REINIT_REJ = true ∧ t.eng.answer = okAnswer port ∧ Kept s t [R.CIS_CTL, R.CIS_STATUS])) ∧
  (∀ s : State, s.eng.running = true → s.eng.cisState = 0 →
    Ends (exec (.cisternReady 0) s) (fun t => t.eng.cisState = 1 ∧ (∀ p : Fin 64, p.val < s.eng.pcCount → s.eng.pcSt p ≠ 3 → t.eng.pcSt p = 2) ∧
      (∀ x : Fin 2, t.eng.flag (R.CISP_STACKSTAT_PRESENT x) = decide (x.val < s.eng.stackCount)) ∧ Kept s t trainRegs)) ∧
  (∀ s : State, s.eng.running = true → s.eng.cisState = 1 → s.eng.cis.full = true →
    Ends (exec (.cisternReady 1) s) (fun t => t.eng.cisState = 2 ∧ (∀ p : Fin 64, p.val < s.eng.pcCount → s.eng.pcSt p ≠ 3 → t.eng.pcSt p = 1) ∧ Kept s t trainRegs)) ∧
  (∀ s : State, s.eng.running = true → (s.eng.cis.full = true ∧ s.eng.cisState = 2) ∨ (s.eng.cis.full = false ∧ s.eng.cisState = 1) → s.eng.arming = none → s.eng.cis.opReq = none → s.eng.cis.opRun = none →
    Ends (exec (.cisternReady 2) s) (fun t => t.eng.cisState = 3 ∧ t.eng.cis.full = false ∧ t.eng.hasBit R.E_CIS_READY = true ∧ t.eng.flag R.CIS_CTL_REINIT = false ∧ t.eng.cis.visit = 0 ∧ t.eng.cis.visitAt = s.eng.cc ∧
      t.eng.cis.timing = (List.range 6).map (fun k => s.eng.reg (if s.eng.fld R.CIS_STATUS_OP = 0 then R.CIS_TIM0 k else R.CIS_TIM1 k)) ∧
      (s.eng.cis.full = true → t.eng.fld R.CIS_STATUS_ORDER = (if s.eng.fld R.CIS_CFG_ORDER = 3 then 0 else s.eng.fld R.CIS_CFG_ORDER)) ∧
      RegsKept s t (fun a => !([R.CIS_CTL, R.CIS_STATUS, R.CIS_OFFLINE_LO, R.CIS_OFFLINE_HI, statusAddr 0xB0].contains a)) ∧
      t.chip.cistern = (if s.eng.cis.full then [] else s.chip.cistern) ∧ t.chip.tanks = s.chip.tanks ∧ t.eng.tb = s.eng.tb ∧ t.pending = s.pending)) ∧
  (∀ (s : State) (op : Nat), s.eng.running = true → s.eng.cis.full = false → s.eng.cisState = 1 → s.eng.arming = none → s.eng.cis.opRun = some op → op < 2 →
    Ends (exec (.cisternReady 2) s) (fun t => t.eng.cisState = 3 ∧ t.eng.fld R.CIS_STATUS_OP = op ∧ t.eng.fld R.CIS_STATUS_OPRESULT = 1 ∧ t.eng.cis.opReq = none ∧ t.eng.hasBit R.E_CIS_OP_DONE = true ∧
      Kept s t [R.CIS_CTL, R.CIS_STATUS, R.CIS_OFFLINE_LO, R.CIS_OFFLINE_HI, statusAddr 0xB0])) ∧
  (∀ (s : State) (phase : Fin 3), s.eng.running = true → 3 ≤ s.eng.cisState ∨ (phase = 0 ∧ s.eng.cisState ≠ 0) ∨ (phase = 1 ∧ (s.eng.cisState ≠ 1 ∨ s.eng.cis.full = false)) ∨
      (phase = 2 ∧ (s.eng.cisState = 0 ∨ (s.eng.cis.full = true ∧ s.eng.cisState = 1))) → exec (.cisternReady phase) s = .next s) ∧
  (∀ (s : State) (port : Port) (v : Word), s.accepts port R.CBIST_CTL (v ||| 4) = true → s.eng.fld R.CBIST_RATE_BURSTS ≠ 0 → s.eng.cisState = 3 → s.eng.slotHoldsOnes = false →
    Ends (exec (.cbistGo port v) s) (fun t => t.eng.flag R.CBIST_STATUS_BUSY = true ∧ t.eng.flag R.CBIST_CTL_GO = false ∧ t.eng.reg64 R.CBIST_POS_LO = 0 ∧ t.eng.cis.element = 0 ∧ t.eng.answer = okAnswer port ∧
      Kept s t [R.CBIST_CTL, R.CBIST_STATUS, R.CBIST_POS_LO, R.CBIST_POS_HI])) ∧
  (∀ (s : State) (port : Port) (v : Word), s.accepts port R.CBIST_CTL (v ||| 4) = true → s.eng.fld R.CBIST_RATE_BURSTS = 0 ∨ s.eng.cisState ≠ 3 ∨ s.eng.slotHoldsOnes = true →
    Ends (exec (.cbistGo port v) s) (fun t => t.eng.flag R.CBIST_CTL_GO = true ∧ t.eng.cis.element = s.eng.cis.element ∧ t.eng.answer = okAnswer port ∧ Kept s t [R.CBIST_CTL])) ∧
  (∀ (s : State) (k : Nat) (ecc : List Ecc) (dif : List Bool), s.eng.running = true → s.eng.cisState = 3 → s.eng.fld R.CBIST_RATE_BURSTS ≠ 0 → s.eng.flag R.CBIST_CTL_GO = false → s.eng.flag R.CBIST_STATUS_BUSY = true → k = (s.eng.reg64 R.CBIST_POS_LO).toNat / 256 → s.eng.testSlot s.eng.allotted 4096 k = k → k < s.eng.totalPacks → s.eng.flag R.CBIST_CTL_SCRUB_EN = true → s.eng.flag R.CBIST_CTL_MARCH_EN = false → s.eng.cis.element = 0 →
    Ends (exec (.cbistElement ecc dif) s) (fun t => t.eng.reg64 R.CBIST_POS_LO = BitVec.ofNat 64 (256 * (k + 1)) ∧ t.eng.cis.element = 0 ∧ t.eng.flag R.CBIST_STATUS_MARCH = false ∧
      t.eng.reg R.CBIST_SCRUBCE = satAdd (s.eng.reg R.CBIST_SCRUBCE) ((ecc.take 8).countP (· == .single)) ∧
      t.eng.reg R.CBIST_FAULTCNT = satAdd (s.eng.reg R.CBIST_FAULTCNT) ((ecc.take 8).countP (· == .double)) ∧
      (∀ b : Fin 8, nth ecc b .good = .double → (List.range 8).all (fun c => decide (c ≤ b.val) || nth ecc c .good != .double) = true →
        t.eng.reg64 R.CBIST_LASTFAULT_LO = BitVec.ofNat 64 (256 * k + 32 * b.val) ∧ t.eng.hasBit R.E_CBIST_FAULT = true) ∧
      RegsKept s t (fun a => !onPages [0xB0, 0xB1, 0xB2, 0xB3] a) ∧ t.eng.tb = s.eng.tb ∧ MemKept s t)) ∧
  (∀ (s : State) (k e : Nat) (ecc : List Ecc) (dif : List Bool), s.eng.running = true → s.eng.cisState = 3 → s.eng.fld R.CBIST_RATE_BURSTS ≠ 0 → s.eng.flag R.CBIST_CTL_GO = false → s.eng.flag R.CBIST_STATUS_BUSY = true → k = (s.eng.reg64 R.CBIST_POS_LO).toNat / 256 → s.eng.testSlot s.eng.allotted 4096 k = k → k < s.eng.totalPacks → s.eng.flag R.CBIST_CTL_MARCH_EN = true → e = (if s.eng.cis.element = 0 then 1 else s.eng.cis.element) → e ≤ 6 →
    s.eng.cis.element ≠ 0 ∨ s.eng.flag R.CBIST_CTL_SCRUB_EN = false →
    Ends (exec (.cbistElement ecc dif) s) (fun t => t.eng.cis.element = (if e = 6 then 0 else e + 1) ∧ t.eng.reg64 R.CBIST_POS_LO = BitVec.ofNat 64 (256 * (if e = 6 then k + 1 else k)) ∧ t.eng.flag R.CBIST_STATUS_MARCH = true ∧
      t.eng.reg R.CBIST_FAULTCNT = satAdd (s.eng.reg R.CBIST_FAULTCNT) (if e = 1 then 0 else (List.range 8).countP (fun b => nth ecc b .good == .double || nth dif b false)) ∧
      (∀ i : Fin 256, readByte t.chip.cistern (256 * k + i.val) = (marchFill e).getD (readByte s.chip.cistern (256 * k + i.val))) ∧ CisternKept s t (fun a => a / 256 != k) ∧
      RegsKept s t (fun a => !onPages [0xB0, 0xB1, 0xB2, 0xB3] a) ∧ t.chip.tanks = s.chip.tanks ∧ t.eng.tb = s.eng.tb ∧ t.pending = s.pending)) ∧
  (∀ s : State, s.eng.running = true → s.eng.flag R.CBIST_STATUS_BUSY = true → s.eng.totalPacks ≤ s.eng.testSlot s.eng.allotted 4096 ((s.eng.reg64 R.CBIST_POS_LO).toNat / 256) →
    Ends (exec .cbistPassDone s) (fun t => t.eng.reg R.CBIST_PASSCNT = s.eng.reg R.CBIST_PASSCNT + 1 ∧ t.eng.hasBit R.E_CBIST_PASS_DONE = true ∧ t.eng.reg64 R.CBIST_POS_LO = 0 ∧ t.eng.cis.element = 0 ∧
      Kept s t [R.CBIST_PASSCNT, R.CBIST_STATUS, R.CBIST_POS_LO, R.CBIST_POS_HI, statusAddr 0xB3])) ∧
  (∀ s : State, s.eng.running = true → s.eng.flag R.CBIST_STATUS_BUSY = false ∨ s.eng.testSlot s.eng.allotted 4096 ((s.eng.reg64 R.CBIST_POS_LO).toNat / 256) < s.eng.totalPacks → exec .cbistPassDone s = .next s)

/-! ## The tanks (R315 to R333) -/

/-- O53. R317 to R323: a handover request for the owner in force asks for nothing; another is judged by the owners, refused with its reason and an entry, or in progress; one made while a handover of the tank is in progress waits behind it, and on a locked page none is made; a completed handover gives the tank its new owner, clears the verified bit of a set that holds the tank, and judges what waited. A read of BAR4 that the owner allows returns the bytes, counts the word errors it meets, writes corrected words back and poisons uncorrectable ones; a write stores its bytes in ascending order, in the mirroring spare too, makes whole words good, and drops a part of an uncorrectable word and a word of T00 to T03 that port A writes in the same cycle; an access the owner does not allow is a Completer Abort with HOSTVIOL and LASTVIOL, one that runs over the end is Unsupported Request, one during a dam is Completer Abort. The model's choices it rests on: notes/assumptions/40, 126, 133. -/
def Obligations.TankOwners : Prop :=
  (∀ (s : State) (port : Port) (n : Fin 64) (v : Word), s.accepts port (R.TANK_OWN n) v = true → bitAt (s.eng.reg (lockAddr 0xC0)).toNat 0 = false → s.eng.tank.handing.any (fun h => h.1 == n.val) = false → s.eng.owner n = bitsOf v.toNat 0 3 →
    Ends (exec (.tankHandoverRequest port n v) s) (fun t => t.eng.owner n = s.eng.owner n ∧ t.eng.flag (R.TANK_OWN_PEND n) = false ∧ t.eng.tank = s.eng.tank ∧ t.eng.answer = okAnswer port ∧
      Kept s t [R.TANK_OWN n])) ∧
  (∀ (s : State) (port : Port) (n : Fin 64) (v : Word), s.accepts port (R.TANK_OWN n) v = true → bitAt (s.eng.reg (lockAddr 0xC0)).toNat 0 = false → s.eng.tank.handing.any (fun h => h.1 == n.val) = false → s.eng.owner n ≠ bitsOf v.toNat 0 3 →
    s.eng.handoverReason n (bitsOf v.toNat 0 3) = 0 →
    Ends (exec (.tankHandoverRequest port n v) s) (fun t => t.eng.owner n = s.eng.owner n ∧ t.eng.fld (R.TANK_OWN_REQ n) = bitsOf v.toNat 0 3 ∧ t.eng.flag (R.TANK_OWN_PEND n) = true ∧
      t.eng.flag (R.TANK_OWN_REFUSED n) = false ∧ t.eng.fld (R.TANK_OWN_REASON n) = 0 ∧ t.eng.tank.handing = s.eng.tank.handing ++ [(n.val, bitsOf v.toNat 0 3)] ∧ t.eng.answer = okAnswer port ∧ Kept s t [R.TANK_OWN n])) ∧
  (∀ (s : State) (port : Port) (n : Fin 64) (v : Word) (r : Nat), s.accepts port (R.TANK_OWN n) v = true → bitAt (s.eng.reg (lockAddr 0xC0)).toNat 0 = false → s.eng.tank.handing.any (fun h => h.1 == n.val) = false → s.eng.owner n ≠ bitsOf v.toNat 0 3 →
    s.eng.handoverReason n (bitsOf v.toNat 0 3) = r → r ≠ 0 →
    Ends (exec (.tankHandoverRequest port n v) s) (fun t => t.eng.owner n = s.eng.owner n ∧ t.eng.flag (R.TANK_OWN_REFUSED n) = true ∧ t.eng.flag (R.TANK_OWN_PEND n) = false ∧ t.eng.fld (R.TANK_OWN_REASON n) = r ∧
      t.eng.tank = s.eng.tank ∧ t.eng.hasBit R.E_TANK_REFUSED = true ∧ t.eng.detected = s.eng.nowDetected 0xC0 2 0x0217 (n + r * 2 ^ 8 + bitsOf v.toNat 0 3 * 2 ^ 12) ∧ t.eng.answer = okAnswer port ∧
      Kept s t [R.TANK_OWN n, statusAddr 0xC0])) ∧
  (∀ (s : State) (port : Port) (n : Fin 64) (v : Word), s.accepts port (R.TANK_OWN n) v = true → bitAt (s.eng.reg (lockAddr 0xC0)).toNat 0 = false → s.eng.tank.handing.any (fun h => h.1 == n.val) = true →
    Ends (exec (.tankHandoverRequest port n v) s) (fun t => t.eng.owner n = s.eng.owner n ∧ t.eng.flag (R.TANK_OWN_PEND n) = true ∧ t.eng.tank.handing = s.eng.tank.handing ∧
      t.eng.tank.queued = (s.eng.tank.queued.filter (fun q => q.1 != n.val)) ++ [(n.val, bitsOf v.toNat 0 3)] ∧ t.eng.answer = okAnswer port ∧ Kept s t [R.TANK_OWN n])) ∧
  (∀ (s : State) (port : Port) (n : Fin 64) (v : Word), s.accepts port (R.TANK_OWN n) v = true → bitAt (s.eng.reg (lockAddr 0xC0)).toNat 0 = true →
    Ends (exec (.tankHandoverRequest port n v) s) (fun t => t.eng.owner n = s.eng.owner n ∧ t.eng.tank = s.eng.tank ∧ t.eng.answer = okAnswer port ∧ Kept s t [])) ∧
  (∀ (s : State) (n : Fin 64) (o : Nat), s.eng.running = true → s.eng.tank.handing.find? (fun h => h.1 == n.val) = some (n.val, o) → o < 8 → (s.eng.underTest n && decide (n.val < 4)) = false →
    s.eng.tank.queued.find? (fun q => q.1 == n.val) = none →
    Ends (exec (.tankHandover n) s) (fun t => t.eng.owner n = o ∧ t.eng.hasBit R.E_TANK_HANDOVER = true ∧
      (∀ g : Fin 8, t.eng.retained g = (s.eng.retained g && !(g.val == n.val / 8 && (decide (2 ≤ o) || decide (2 ≤ s.eng.owner n))))) ∧
      (s.eng.setHas false n = true → t.eng.flag R.CONF_STATUS_VER_A = false) ∧ (s.eng.setHas true n = true → t.eng.flag R.CONF_STATUS_VER_B = false) ∧
      t.eng.flag (R.TANK_OWN_PEND n) = false ∧ t.eng.tank.handing = s.eng.tank.handing.filter (fun h => h.1 != n.val) ∧
      Kept s t [R.TANK_OWN n, R.TANK_RETSTAT, R.CONF_STATUS, R.CONF_VERIFY, statusAddr 0xC0])) ∧
  (∀ (s : State) (n : Fin 64) (o q : Nat), s.eng.running = true → s.eng.tank.handing.find? (fun h => h.1 == n.val) = some (n.val, o) → o < 8 → (s.eng.underTest n && decide (n.val < 4)) = false →
    s.eng.tank.queued.find? (fun q => q.1 == n.val) = some (n.val, q) →
    Ends (exec (.tankHandover n) s) (fun t => t.eng.owner n = o ∧ t.eng.hasBit R.E_TANK_HANDOVER = true ∧
      (∀ g : Fin 8, t.eng.retained g = (s.eng.retained g && !(g.val == n.val / 8 && (decide (2 ≤ o) || decide (2 ≤ s.eng.owner n))))) ∧
      (s.eng.setHas false n = true → t.eng.flag R.CONF_STATUS_VER_A = false) ∧ (s.eng.setHas true n = true → t.eng.flag R.CONF_STATUS_VER_B = false) ∧
      t.eng.tank.queued = s.eng.tank.queued.filter (fun x => x.1 != n.val) ∧ t.eng.flag (R.TANK_OWN_PEND n) = (decide (q ≠ o) && decide (t.eng.handoverReason n q = 0)) ∧
      t.eng.tank.handing = s.eng.tank.handing.filter (fun h => h.1 != n.val) ++ (if q ≠ o ∧ t.eng.handoverReason n q = 0 then [(n.val, q)] else []) ∧
      (q ≠ o → t.eng.handoverReason n q ≠ 0 → t.eng.flag (R.TANK_OWN_REFUSED n) = true ∧ t.eng.fld (R.TANK_OWN_REASON n) = t.eng.handoverReason n q ∧ t.eng.hasBit R.E_TANK_REFUSED = true) ∧
      Kept s t [R.TANK_OWN n, R.TANK_RETSTAT, R.CONF_STATUS, R.CONF_VERIFY, statusAddr 0xC0])) ∧
  (∀ (s : State) (n : Fin 64), s.eng.running = true → s.eng.tank.handing.find? (fun h => h.1 == n.val) = none ∨ (s.eng.underTest n && decide (n.val < 4)) = true → exec (.tankHandover n) s = .next s) ∧
  (∀ (s : State) (off : BitVec 24) (len : Nat) (full : Bool), s.eng.host.perst = false → s.eng.reachable = true → s.eng.mse 0 = true → s.eng.d3hot 0 = false → s.eng.host.hold = false → s.eng.dammed = false → s.eng.lost = false → off.toNat + len ≤ 0x1000000 → s.eng.tankRefusal off.toNat len false = none → s.eng.tank.errs = [] →
    Ends (exec (.tankAccess off (.read len full) [] []) s) (fun t =>
      t.eng.answer = .completions (completionsOf s.eng.mps off.toNat ((List.range len).map (fun i => readByte s.chip.tanks (off.toNat + i))) []) ∧ t.eng.tank.errs = [] ∧ Kept s t [R.TANK_RETSTAT])) ∧
  (∀ (s : State) (off : BitVec 24) (len w : Nat) (met : Ecc) (full col : Bool), s.eng.host.perst = false → s.eng.reachable = true → s.eng.mse 0 = true → s.eng.d3hot 0 = false → s.eng.host.hold = false → s.eng.dammed = false → s.eng.lost = false → s.eng.tankRefusal off.toNat len false = none → w = off.toNat / 8 → 0 < len → off.toNat % 8 + len ≤ 8 → s.eng.wordError w = .good →
    Ends (exec (.tankAccess off (.read len full) [met] [col]) s) (fun t =>
      t.eng.answer = .completions (completionsOf s.eng.mps off.toNat ((List.range len).map (fun i => readByte s.chip.tanks (off.toNat + i))) (if met = .double then [w / 4] else [])) ∧
      t.eng.wordError w = (if met = .double then .double else .good) ∧ t.eng.reg (R.TANK_CE (w / 32768)) = satAdd (s.eng.reg (R.TANK_CE (w / 32768))) (if met = .single then 1 else 0) ∧
      t.eng.reg (R.TANK_UE (w / 32768)) = satAdd (s.eng.reg (R.TANK_UE (w / 32768))) (if met = .double then 1 else 0) ∧ (met = .single → t.eng.hasBit R.E_TANK_CE = true) ∧
      (met = .double → t.eng.reg R.TANK_LASTUE = BitVec.ofNat 32 (w % 32768 + w / 32768 * 2 ^ 16) ∧ t.eng.hasBit R.E_TANK_UE = true ∧ t.eng.detected = s.eng.nowDetected 0xC0 2 0x0205 (w % 32768 + w / 32768 * 2 ^ 16)) ∧
      Kept s t (R.TANK_RETSTAT :: tankEccRegs))) ∧
  (∀ (s : State) (off : BitVec 24) (l : List Byte), s.eng.host.perst = false → s.eng.reachable = true → s.eng.mse 0 = true → s.eng.d3hot 0 = false → s.eng.host.hold = false → s.eng.dammed = false → s.eng.lost = false → off.toNat + l.length ≤ 0x1000000 → s.eng.tankRefusal off.toNat l.length true = none → s.eng.path.pipe = [] → s.eng.flag R.TBIST_STATUS_BUSY = false → s.eng.flag R.TBIST_REMAP_VALID = false → s.eng.tank.errs = [] →
    Ends (exec (.tankAccess off (.write (l.map some) false) [] []) s) (fun t => t.eng.answer = .done ∧ (∀ i : Fin l.length, readByte t.chip.tanks (off.toNat + i.val) = nth l i 0) ∧
      TankKept s t (fun a => decide (a < off.toNat) || decide (off.toNat + l.length ≤ a)) ∧ RegsKept s t (fun a => a != R.TANK_RETSTAT) ∧ t.eng.tank.errs = [] ∧ t.chip.cistern = s.chip.cistern ∧ t.eng.tb = s.eng.tb ∧
      t.pending = s.pending)) ∧
  (∀ (s : State) (off : BitVec 24) (l : List Byte) (sp : Nat), s.eng.host.perst = false → s.eng.reachable = true → s.eng.mse 0 = true → s.eng.d3hot 0 = false → s.eng.host.hold = false → s.eng.dammed = false → s.eng.lost = false → off.toNat + l.length ≤ 0x1000000 → s.eng.tankRefusal off.toNat l.length true = none → s.eng.path.pipe = [] → l.length = 8 → off.toNat % 8 = 0 → s.eng.mirrorOf (off.toNat / tankSize) = some sp → sp ≠ off.toNat / tankSize →
    Ends (exec (.tankAccess off (.write (l.map some) false) [] []) s) (fun t => t.eng.answer = .done ∧ t.eng.wordError (off.toNat / 8) = .good ∧
      (∀ i : Fin 8, readByte t.chip.tanks (off.toNat + i.val) = nth l i 0 ∧ readByte t.chip.tanks (sp * tankSize + off.toNat % tankSize + i.val) = nth l i 0) ∧
      TankKept s t (fun a => a / 8 != off.toNat / 8 && a / 8 != (sp * tankSize + off.toNat % tankSize) / 8) ∧ RegsKept s t (fun a => a != R.TANK_RETSTAT) ∧ t.chip.cistern = s.chip.cistern ∧ t.eng.tb = s.eng.tb ∧
      t.pending = s.pending)) ∧
  (∀ (s : State) (off : BitVec 24) (l : List Byte) (met : Ecc) (w : Nat), s.eng.host.perst = false → s.eng.reachable = true → s.eng.mse 0 = true → s.eng.d3hot 0 = false → s.eng.host.hold = false → s.eng.dammed = false → s.eng.lost = false → off.toNat + l.length ≤ 0x1000000 → s.eng.tankRefusal off.toNat l.length true = none → s.eng.path.pipe = [] → w = off.toNat / 8 → 0 < l.length → l.length < 8 → off.toNat % 8 + l.length ≤ 8 → s.eng.wordError w = .double ∨ met = .double →
    Ends (exec (.tankAccess off (.write (l.map some) false) [met] [false]) s) (fun t => t.eng.answer = .done ∧ t.eng.reg (R.TANK_UE (w / 32768)) = satAdd (s.eng.reg (R.TANK_UE (w / 32768))) 1 ∧ t.eng.wordError w = .double ∧
      t.eng.reg R.TANK_LASTUE = BitVec.ofNat 32 (w % 32768 + w / 32768 * 2 ^ 16) ∧ t.eng.hasBit R.E_TANK_UE = true ∧ Kept s t (R.TANK_RETSTAT :: tankEccRegs))) ∧
  (∀ (s : State) (off : BitVec 24) (l : List Byte) (met : Ecc) (n : Fin 4), s.eng.host.perst = false → s.eng.reachable = true → s.eng.mse 0 = true → s.eng.d3hot 0 = false → s.eng.host.hold = false → s.eng.dammed = false → s.eng.lost = false → off.toNat + l.length ≤ 0x1000000 → s.eng.tankRefusal off.toNat l.length true = none → s.eng.path.pipe = [] → n.val = off.toNat / tankSize → 0 < l.length → off.toNat % 8 + l.length ≤ 8 →
    Ends (exec (.tankAccess off (.write (l.map some) false) [met] [true]) s) (fun t => t.eng.answer = .done ∧ t.eng.reg (R.TANK_COLL n) = satAdd (s.eng.reg (R.TANK_COLL n)) 1 ∧ t.eng.hasBit R.E_TANK_COLL = true ∧
      t.eng.detected.length = s.eng.detected.length + 1 ∧ t.eng.tank.errs = s.eng.tank.errs ∧ Kept s t [R.TANK_RETSTAT, R.TANK_COLL n, statusAddr 0xC0])) ∧
  (∀ (s : State) (off : BitVec 24) (len n : Nat) (full : Bool) (ecc : List Ecc) (cols : List Bool), s.eng.host.perst = false → s.eng.reachable = true → s.eng.mse 0 = true → s.eng.d3hot 0 = false → s.eng.host.hold = false → s.eng.dammed = false → s.eng.lost = false → off.toNat + len ≤ 0x1000000 → s.eng.tankRefusal off.toNat len false = some n →
    Ends (exec (.tankAccess off (.read len full) ecc cols) s) (fun t => t.eng.answer = .completerAbort ∧ t.eng.hasBit R.E_TANK_HOSTVIOL = true ∧
      t.eng.reg R.TANK_LASTVIOL = BitVec.ofNat 32 (n + s.eng.owner n * 2 ^ 8) ∧ t.eng.reg R.HOST_LASTREF = BitVec.ofNat 32 (4 + 3 * 2 ^ 4 + off.toNat / 256 * 2 ^ 8) ∧
      Kept s t [R.TANK_LASTVIOL, R.HOST_LASTREF, statusAddr 0xC0])) ∧
  (∀ (s : State) (off : BitVec 24) (l : List (Option Byte)) (n : Nat) (ecc : List Ecc) (cols : List Bool), s.eng.host.perst = false → s.eng.reachable = true → s.eng.mse 0 = true → s.eng.d3hot 0 = false → s.eng.host.hold = false → s.eng.dammed = false → s.eng.lost = false → off.toNat + l.length ≤ 0x1000000 → s.eng.tankRefusal off.toNat l.length true = some n →
    Ends (exec (.tankAccess off (.write l false) ecc cols) s) (fun t => t.eng.answer = .completerAbort ∧ t.eng.hasBit R.E_TANK_HOSTVIOL = true ∧
      t.eng.reg R.TANK_LASTVIOL = BitVec.ofNat 32 (n + 2 ^ 7 + s.eng.owner n * 2 ^ 8) ∧ t.eng.reg R.HOST_LASTREF = BitVec.ofNat 32 (4 + 2 ^ 3 + 3 * 2 ^ 4 + off.toNat / 256 * 2 ^ 8) ∧
      bitAt (t.eng.cfg 0 0x104).toNat 15 = true ∧ Kept s t [R.TANK_LASTVIOL, R.HOST_LASTREF, statusAddr 0xC0])) ∧
  (∀ (s : State) (off : BitVec 24) (len : Nat) (full : Bool) (ecc : List Ecc) (cols : List Bool), s.eng.host.perst = false → s.eng.reachable = true → s.eng.mse 0 = true → s.eng.d3hot 0 = false → s.eng.host.hold = false → off.toNat + len ≤ 0x1000000 → s.eng.dammed = true ∨ s.eng.lost = true →
    Ends (exec (.tankAccess off (.read len full) ecc cols) s) (fun t => t.eng.answer = .completerAbort ∧ t.eng.reg R.HOST_REFUSED = satAdd (s.eng.reg R.HOST_REFUSED) 1 ∧ t.eng.reg R.HOST_LASTREF = BitVec.ofNat 32 (4 + 3 * 2 ^ 4 + off.toNat / 256 * 2 ^ 8) ∧
      t.eng.tank = s.eng.tank ∧ Kept s t [R.HOST_REFUSED, R.HOST_LASTREF, statusAddr 0xD0])) ∧
  (∀ (s : State) (off : BitVec 24) (len : Nat) (full : Bool) (ecc : List Ecc) (cols : List Bool), s.eng.host.perst = false → s.eng.reachable = true → s.eng.mse 0 = true → s.eng.d3hot 0 = false → s.eng.host.hold = false → 0x1000000 < off.toNat + len →
    Ends (exec (.tankAccess off (.read len full) ecc cols) s) (fun t => t.eng.answer = .unsupported ∧ t.eng.reg R.HOST_REFUSED = satAdd (s.eng.reg R.HOST_REFUSED) 1 ∧ t.eng.reg R.HOST_LASTREF = BitVec.ofNat 32 (4 + 2 ^ 4 + off.toNat / 256 * 2 ^ 8) ∧
      t.eng.tank = s.eng.tank ∧ Kept s t [R.HOST_REFUSED, R.HOST_LASTREF, statusAddr 0xD0]))

/-- O54. R324 to R328: RETREQ is held, and a group whose bit is cleared wakes and is no longer in retention; a requested group that may be in retention, awake and idle for RETIDLE µs since it was last woken, enters it, and another stays as it is. A test start is refused with its reason (busy, spare not free, bad pair, owner, retention), or accepted: the spare's owner is BIST and COPY begins; COPY leaves the spare holding the tank's bytes and uncorrectable words; TEST without a mismatch goes on to RESTORE, which frees the spare and ends the test; TEST with mismatches ends it with the tank marked, counted and remapped. The model's choices it rests on: notes/assumptions/89. -/
def Obligations.RetentionAndTankTest : Prop :=
  (∀ (s : State) (port : Port) (v : Word), s.accepts port R.TANK_RETREQ v = true →
    Ends (exec (.retreqWrite port v) s) (fun t => t.eng.fld R.TANK_RETREQ_REQ = bitsOf v.toNat 0 8 ∧
      (∀ g : Fin 8, t.eng.retained g = (s.eng.retained g && bitAt v.toNat g) ∧ bitAt (t.eng.fld R.TANK_RETSTAT_WAKING) g = (bitAt (s.eng.fld R.TANK_RETSTAT_WAKING) g || (s.eng.retained g && !bitAt v.toNat g))) ∧
      t.eng.answer = okAnswer port ∧ Kept s t [R.TANK_RETREQ, R.TANK_RETSTAT])) ∧
  (∀ (s : State) (g : Fin 8), s.eng.running = true → bitAt (s.eng.fld R.TANK_RETREQ_REQ) g = true → s.eng.retained g = false → s.eng.mayRetain g = true → s.eng.tank.waking.any (fun w => w.1 == g.val) = false →
    s.eng.tank.woken.all (fun w => w.1 != g.val || decide (w.2 + 600 * max 1 (s.eng.fld R.TANK_RETIDLE_US) ≤ s.eng.cc)) = true →
    Ends (exec (.retentionEnter g) s) (fun t => (∀ k : Fin 8, t.eng.retained k = (s.eng.retained k || k == g)) ∧ t.eng.tank.woken = s.eng.tank.woken.filter (fun w => w.1 != g.val) ∧ Kept s t [R.TANK_RETSTAT])) ∧
  (∀ (s : State) (g : Fin 8), s.eng.running = true → bitAt (s.eng.fld R.TANK_RETREQ_REQ) g = false ∨ s.eng.retained g = true ∨ s.eng.mayRetain g = false ∨ s.eng.tank.waking.any (fun w => w.1 == g.val) = true ∨
      (s.eng.tank.woken.find? (fun w => w.1 == g.val)).any (fun w => decide (s.eng.cc < w.2 + 600 * max 1 (s.eng.fld R.TANK_RETIDLE_US))) = true →
    exec (.retentionEnter g) s = .next s) ∧
  (∀ (s : State) (port : Port) (v : Word) (tk sp : Nat), s.accepts port R.TBIST_CTL (v ||| 0x10000) = true → tk = bitsOf v.toNat 0 6 → sp = bitsOf v.toNat 8 6 → s.eng.flag R.TBIST_STATUS_BUSY = false →
    s.eng.owner sp = 0 → s.eng.retained (sp / 8) = false → s.eng.flag R.TBIST_REMAP_VALID = false → tk ≠ sp → 4 ≤ sp → 4 ≤ tk ∨ s.eng.owner tk < 2 → s.eng.retained (tk / 8) = false →
    Ends (exec (.tbistGo port v) s) (fun t => t.eng.flag R.TBIST_STATUS_BUSY = true ∧ t.eng.fld R.TBIST_STATUS_PHASE = 1 ∧ t.eng.fld R.TBIST_STATUS_TESTING = tk ∧ t.eng.owner sp = 6 ∧ t.eng.tank.testTank = tk ∧
      t.eng.tank.testSpare = sp ∧ t.eng.tank.mirror = false ∧ t.eng.flag R.TBIST_CTL_GO = true ∧ t.eng.flag R.TBIST_STATUS_REFUSED = false ∧ t.eng.fld R.TBIST_STATUS_REASON = 0 ∧ t.eng.answer = okAnswer port ∧
      Kept s t [R.TBIST_CTL, R.TBIST_STATUS, R.TANK_OWN sp])) ∧
  (∀ (s : State) (port : Port) (v : Word), s.accepts port R.TBIST_CTL (v ||| 0x10000) = true → s.eng.flag R.TBIST_STATUS_BUSY = true →
    Ends (exec (.tbistGo port v) s) (fun t => t.eng.flag R.TBIST_STATUS_REFUSED = true ∧ t.eng.fld R.TBIST_STATUS_REASON = 1 ∧ t.eng.flag R.TBIST_STATUS_BUSY = true ∧ t.eng.tank = s.eng.tank ∧
      t.eng.hasBit R.E_TBIST_REFUSED = true ∧ t.eng.answer = okAnswer port ∧ Kept s t [R.TBIST_CTL, R.TBIST_STATUS, statusAddr 0xC1])) ∧
  (∀ (s : State) (port : Port) (v : Word) (tk sp r : Nat), s.accepts port R.TBIST_CTL (v ||| 0x10000) = true → tk = bitsOf v.toNat 0 6 → sp = bitsOf v.toNat 8 6 → s.eng.flag R.TBIST_STATUS_BUSY = false → r ≠ 0 →
    r = (if s.eng.owner sp ≠ 0 ∨ s.eng.retained (sp / 8) = true ∨ s.eng.flag R.TBIST_REMAP_VALID = true then 2 else if tk = sp ∨ sp < 4 then 3 else if tk < 4 ∧ 2 ≤ s.eng.owner tk then 4
      else if s.eng.retained (tk / 8) = true then 5 else 0) →
    Ends (exec (.tbistGo port v) s) (fun t => t.eng.flag R.TBIST_STATUS_REFUSED = true ∧ t.eng.fld R.TBIST_STATUS_REASON = r ∧ t.eng.flag R.TBIST_STATUS_BUSY = false ∧ t.eng.flag R.TBIST_CTL_GO = false ∧
      t.eng.tank = s.eng.tank ∧ t.eng.hasBit R.E_TBIST_REFUSED = true ∧ t.eng.answer = okAnswer port ∧ Kept s t [R.TBIST_CTL, R.TBIST_STATUS, statusAddr 0xC1])) ∧
  (∀ (s : State) (bad : List (BitVec 15 × Fin 72)) (tk sp : Nat), s.MemOk → s.eng.running = true → s.eng.flag R.TBIST_STATUS_BUSY = true → s.eng.fld R.TBIST_STATUS_PHASE = 1 → tk = s.eng.tank.testTank →
    sp = s.eng.tank.testSpare → tk ≠ sp → sp < 64 →
    Ends (exec (.tbistPhaseDone bad) s) (fun t => t.eng.fld R.TBIST_STATUS_PHASE = 2 ∧ t.eng.tank.mirror = true ∧
      (∀ i : Fin tankSize, readByte t.chip.tanks (sp * tankSize + i.val) = readByte s.chip.tanks (tk * tankSize + i.val)) ∧ TankKept s t (fun a => a / tankSize != sp) ∧
      (∀ w : Fin 32768, (t.eng.wordError (32768 * sp + w.val) = .double ↔ s.eng.wordError (32768 * tk + w.val) = .double) ∧ t.eng.wordError (32768 * tk + w.val) = s.eng.wordError (32768 * tk + w.val)) ∧
      RegsKept s t (fun a => a != R.TBIST_STATUS) ∧ t.chip.cistern = s.chip.cistern ∧ t.eng.tb = s.eng.tb ∧ t.pending = s.pending)) ∧
  (∀ s : State, s.eng.running = true → s.eng.flag R.TBIST_STATUS_BUSY = true → s.eng.fld R.TBIST_STATUS_PHASE = 2 →
    Ends (exec (.tbistPhaseDone []) s) (fun t => t.eng.fld R.TBIST_STATUS_PHASE = 3 ∧ t.eng.flag R.TBIST_STATUS_RESULT = false ∧ t.eng.flag R.TBIST_STATUS_BUSY = true ∧ Kept s t [R.TBIST_STATUS])) ∧
  (∀ (s : State) (l : List (BitVec 15 × Fin 72)) (w : BitVec 15) (b : Fin 72) (tk sp : Nat), s.eng.running = true → s.eng.flag R.TBIST_STATUS_BUSY = true → s.eng.fld R.TBIST_STATUS_PHASE = 2 → tk = s.eng.tank.testTank → sp = s.eng.tank.testSpare →
    tk < 64 → sp < 64 →
    Ends (exec (.tbistPhaseDone (l ++ [(w, b)])) s) (fun t => t.eng.flag R.TBIST_STATUS_RESULT = true ∧ t.eng.flag R.TBIST_STATUS_BUSY = false ∧ t.eng.flag R.TBIST_CTL_GO = false ∧ t.eng.flag R.TBIST_REMAP_VALID = true ∧
      t.eng.fld R.TBIST_REMAP_TANK = tk ∧ t.eng.fld R.TBIST_REMAP_SPARE = sp ∧ t.eng.reg R.TBIST_FAULTCNT = satAdd (s.eng.reg R.TBIST_FAULTCNT) (l.length + 1) ∧
      t.eng.reg R.TBIST_LASTFAULT = BitVec.ofNat 32 (w.toNat + tk * 2 ^ 16 + b.val * 2 ^ 22) ∧
      t.eng.reg (if tk < 32 then R.TBIST_FAILMAP_LO else R.TBIST_FAILMAP_HI) = s.eng.reg (if tk < 32 then R.TBIST_FAILMAP_LO else R.TBIST_FAILMAP_HI) ||| BitVec.ofNat 32 (2 ^ (tk % 32)) ∧ t.eng.reg R.TBIST_TESTCNT = s.eng.reg R.TBIST_TESTCNT + 1 ∧
      t.eng.hasBit R.E_TBIST_FAIL = true ∧ t.eng.hasBit R.E_TBIST_DONE = true ∧ t.eng.detected = s.eng.nowDetected 0xC1 2 0x0206 tk ∧ t.eng.owner sp = s.eng.owner sp ∧
      Kept s t [R.TBIST_STATUS, R.TBIST_CTL, R.TBIST_REMAP, R.TBIST_FAULTCNT, R.TBIST_LASTFAULT, (if tk < 32 then R.TBIST_FAILMAP_LO else R.TBIST_FAILMAP_HI), R.TBIST_TESTCNT, statusAddr 0xC1])) ∧
  (∀ (s : State) (bad : List (BitVec 15 × Fin 72)) (sp : Nat), s.eng.running = true → s.eng.flag R.TBIST_STATUS_BUSY = true → s.eng.fld R.TBIST_STATUS_PHASE = 3 → sp = s.eng.tank.testSpare → sp < 64 →
    Ends (exec (.tbistPhaseDone bad) s) (fun t => t.eng.owner sp = 0 ∧ t.eng.flag R.TBIST_STATUS_BUSY = false ∧ t.eng.flag R.TBIST_CTL_GO = false ∧ t.eng.fld R.TBIST_STATUS_PHASE = 0 ∧ t.eng.tank.mirror = false ∧
      t.eng.reg R.TBIST_TESTCNT = s.eng.reg R.TBIST_TESTCNT + 1 ∧
      t.eng.hasBit R.E_TBIST_DONE = true ∧ Kept s t [R.TANK_OWN sp, R.TBIST_STATUS, R.TBIST_CTL, R.TBIST_TESTCNT, statusAddr 0xC1])) ∧
  (∀ (s : State) (bad : List (BitVec 15 × Fin 72)), s.eng.running = true → s.eng.flag R.TBIST_STATUS_BUSY = false → exec (.tbistPhaseDone bad) s = .next s)

/-! ## The host link (R334 to R365) -/

/-- O55. R336, R337, R339, R340, R342, R343, R344, R363, R365: a configuration request is nothing while the link is in reset, is retried until the function is ready, is Unsupported Request for a function not presented and all ones for a lost one, and else reads the word the header and capabilities give or keeps the writable bits under its byte enables, a status bit written 1 cleared; Bus Master Enable and the power state move the drains. A memory request without MSE is Unsupported Request, one in HOLD Completer Abort, a poisoned write is discarded through AER, one that no BAR serves is Unsupported Request but for a type 1 message; a BAR0 request of one DW is the register access of the host link, and one of another size, or of no register, is Completer Abort; a BAR2 request is Completer Abort while the windows are closed, is refused with its cause, or is translated by the window in force; WIN.COMMIT takes the shadows of the windows named; the VSEC proxy reaches the register at RADDR. The model's choices it rests on: notes/assumptions/23, 38, 45, 104, 147. -/
def Obligations.HostAccess : Prop :=
  (∀ (s : State) (f : Fin 8) (dw : Fin 1024) (wr : Option (BitVec 4 × Word)), s.eng.host.perst = true ∨ s.eng.mgt.powered = false → exec (.configRequest f dw wr) s = .next s) ∧
  (∀ (s : State) (f : Fin 8) (dw : Fin 1024) (wr : Option (BitVec 4 × Word)), s.eng.host.perst = false → s.eng.mgt.powered = true → s.eng.host.ready = false →
    Ends (exec (.configRequest f dw wr) s) (fun t => t.eng.answer = .retry ∧ t.eng.host = { s.eng.host with l1 := false, busyAt := s.eng.cc } ∧ Kept s t [])) ∧
  (∀ (s : State) (f : Fin 8) (dw : Fin 1024), s.eng.host.perst = false → s.eng.mgt.powered = true → s.eng.host.ready = true → s.eng.presented f = true → s.eng.lostFn f = false → dw.val ≠ 0xC4 →
    Ends (exec (.configRequest f dw none) s) (fun t => t.eng.answer = .word (s.eng.cfgRead f (4 * dw.val)) ∧ t.eng.host = { s.eng.host with l1 := false, busyAt := s.eng.cc } ∧ Kept s t [])) ∧
  (∀ (s : State) (dw : Fin 1024) (w : Word), s.eng.host.perst = false → s.eng.mgt.powered = true → s.eng.host.ready = true → (dw.val, w) ∈ [(0, 0x4896C4D1), (2, 0x11800001), (6, 0xC), (13, 0x40), (45, 0xD0800), (46, 0xD0C00), (192, 0x0001000B), (193, 0x01410001)] →
    Ends (exec (.configRequest 0 dw none) s) (fun t => t.eng.answer = .word w ∧ Kept s t [])) ∧
  (∀ (s : State) (dw : Fin 1024) (be : BitVec 4) (v : Word), s.eng.host.perst = false → s.eng.mgt.powered = true → s.eng.host.ready = true → [0x04, 0x44, 0x104, 0x10C, 0x110, 0x308, 0x310].contains (4 * dw.val) = false →
    (4 * dw.val = 0x78 → bitAt (v.toNat &&& beMask be) 15 = false) →
    Ends (exec (.configRequest 0 dw (some (be, v))) s) (fun t => t.eng.cfg 0 (4 * dw.val) = (s.eng.cfg 0 (4 * dw.val) &&& ~~~BitVec.ofNat 32 (cfgMask (4 * dw.val) &&& beMask be)) ||| (v &&& BitVec.ofNat 32 (cfgMask (4 * dw.val) &&& beMask be)) ∧ CfgKept s t 0 (4 * dw.val) ∧ t.eng.answer = .done ∧ Kept s t [])) ∧
  (∀ (s : State) (dw : Fin 1024) (be : BitVec 4) (v : Word), s.eng.host.perst = false → s.eng.mgt.powered = true → s.eng.host.ready = true → 4 * dw.val = 0x04 ∨ (4 * dw.val = 0x44 ∧ (v.toNat &&& beMask be &&& 3 = 0 ∨ v.toNat &&& beMask be &&& 3 = 3)) →
    Ends (exec (.configRequest 0 dw (some (be, v))) s) (fun t => t.eng.cfg 0 (4 * dw.val) = (s.eng.cfg 0 (4 * dw.val) &&& ~~~BitVec.ofNat 32 (cfgMask (4 * dw.val) &&& beMask be)) ||| (v &&& BitVec.ofNat 32 (cfgMask (4 * dw.val) &&& beMask be)) ∧ CfgKept s t 0 (4 * dw.val) ∧
      (∀ d : Fin 4, if t.eng.bme 0 = true ∧ t.eng.d3hot 0 = false
        then t.eng.drainSt d = (if s.eng.drainSt d = 0 ∧ s.eng.flag (R.DRAIN_CTL_EN d) = true ∧ t.eng.drainsMay = true ∧ s.eng.drainHead d ≠ s.eng.drainTail d then 1 else s.eng.drainSt d)
        else t.eng.drainSt d = s.eng.drainSt d ∧ (s.eng.host.drains.length = 4 → s.eng.drainSt d = 1 → (t.eng.drain d).pausing = true)) ∧
      t.eng.answer = .done ∧ Kept s t ((List.range 4).map R.DRAIN_DSTAT))) ∧
  (∀ (s : State) (be : BitVec 4) (v : Word), s.eng.host.perst = false → s.eng.mgt.powered = true → s.eng.host.ready = true → v.toNat &&& beMask be &&& 3 = 1 ∨ v.toNat &&& beMask be &&& 3 = 2 →
    Ends (exec (.configRequest 0 17 (some (be, v))) s) (fun t => t.eng.cfg 0 0x44 = s.eng.cfg 0 0x44 ∧ CfgKept s t 0 0x44 ∧ t.eng.answer = .done ∧ Kept s t ((List.range 4).map R.DRAIN_DSTAT))) ∧
  (∀ (s : State) (dw : Fin 1024) (be : BitVec 4) (v : Word), s.eng.host.perst = false → s.eng.mgt.powered = true → s.eng.host.ready = true → 4 * dw.val = 0x104 ∨ 4 * dw.val = 0x110 →
    Ends (exec (.configRequest 0 dw (some (be, v))) s) (fun t => t.eng.cfg 0 (4 * dw.val) = s.eng.cfg 0 (4 * dw.val) &&& ~~~(v &&& BitVec.ofNat 32 (beMask be)) ∧ CfgKept s t 0 (4 * dw.val) ∧ t.eng.answer = .done ∧ Kept s t [])) ∧
  (∀ (s : State) (f : Fin 8) (dw : Fin 1024) (wr : Option (BitVec 4 × Word)), s.eng.host.perst = false → s.eng.mgt.powered = true → s.eng.host.ready = true → s.eng.presented f = true → s.eng.lostFn f = true →
    Ends (exec (.configRequest f dw wr) s) (fun t => t.eng.answer = (if wr.isSome then .done else .word 0xFFFFFFFF) ∧ t.eng.host = { s.eng.host with l1 := false, busyAt := s.eng.cc } ∧ Kept s t [])) ∧
  (∀ (s : State) (f : Fin 8) (dw : Fin 1024) (wr : Option (BitVec 4 × Word)), s.eng.host.perst = false → s.eng.mgt.powered = true → s.eng.host.ready = true → s.eng.host.hold = false → s.eng.presented f = false →
    Ends (exec (.configRequest f dw wr) s) (fun t => t.eng.answer = .unsupported ∧ t.eng.reg R.HOST_REFUSED = satAdd (s.eng.reg R.HOST_REFUSED) 1 ∧ t.eng.hasBit R.E_HOST_REFUSED = true ∧ Kept s t [R.HOST_REFUSED, R.HOST_LASTREF, statusAddr 0xD0])) ∧
  (∀ (s : State) (off : BitVec 20) (v : Word), s.eng.host.perst = false → s.eng.reachable = true → s.eng.mse 0 = true → s.eng.d3hot 0 = false → s.eng.host.hold = false → s.accepts .host off.toNat v = true →
    exec (.bar0Request 0 off (.write ((bytesLE 4 v.toNat).map some) false)) s = exec (.registerWrite .host (off.setWidth 32) v) { s with chip := { s.chip with eng := s.eng.tlpHere } }) ∧
  (∀ s : State, s.eng.host.perst = false → s.eng.reachable = true → s.eng.mse 0 = true → s.eng.d3hot 0 = false → s.eng.host.hold = false → s.eng.badParity = [] →
    Ends (exec (.bar0Request 0 (BitVec.ofNat 20 R.TB_LOADVAL_LO) (.read 4 true)) s) (fun t => t.eng.answer = .bytes (bytesLE 4 (s.eng.heldReg R.TB_LOADVAL_LO).toNat) ∧ Kept s t [])) ∧
  (∀ (s : State) (off : BitVec 20), s.eng.host.perst = false → s.eng.reachable = true → s.eng.mse 0 = true → s.eng.d3hot 0 = false → s.eng.host.hold = false → off.toNat % 4 = 0 → decodeReg off.toNat = none → isDirWord off.toNat = false →
    Ends (exec (.bar0Request 0 off (.read 4 true)) s) (fun t => t.eng.answer = .completerAbort ∧ t.eng.reg R.HOST_REFUSED = satAdd (s.eng.reg R.HOST_REFUSED) 1 ∧ t.eng.reg R.HOST_LASTREF = BitVec.ofNat 32 (0 + 0 * 2 ^ 3 + 3 * 2 ^ 4 + off.toNat / 256 * 2 ^ 8) ∧ t.eng.hasBit R.E_HOST_REFUSED = true ∧ Kept s t [R.HOST_REFUSED, R.HOST_LASTREF, statusAddr 0xD0])) ∧
  (∀ (s : State) (off : BitVec 20) (n : Nat) (full : Bool) (w : Option (List (Option Byte) × Bool)), s.eng.host.perst = false → s.eng.mgt.powered = true → s.eng.mse 0 = false → s.eng.host.hold = false →
    Ends (exec (.bar0Request 0 off (asked n full w)) s) (fun t => t.eng.answer = .unsupported ∧ t.eng.reg R.HOST_REFUSED = satAdd (s.eng.reg R.HOST_REFUSED) 1 ∧ t.eng.reg R.HOST_LASTREF = BitVec.ofNat 32 (0 + w.isSome.toNat * 2 ^ 3 + 0 * 2 ^ 4 + off.toNat / 256 * 2 ^ 8) ∧ t.eng.hasBit R.E_HOST_REFUSED = true ∧ Kept s t [R.HOST_REFUSED, R.HOST_LASTREF, statusAddr 0xD0])) ∧
  (∀ (s : State) (off : BitVec 20) (n : Nat) (full : Bool) (w : Option (List (Option Byte) × Bool)), s.eng.host.perst = false → s.eng.mgt.powered = true → s.eng.mse 0 = true → s.eng.d3hot 0 = true → s.eng.host.hold = false →
    Ends (exec (.bar0Request 0 off (asked n full w)) s) (fun t => t.eng.answer = .unsupported ∧ t.eng.reg R.HOST_REFUSED = satAdd (s.eng.reg R.HOST_REFUSED) 1 ∧ Kept s t [R.HOST_REFUSED, R.HOST_LASTREF, statusAddr 0xD0])) ∧
  (∀ (s : State) (off : BitVec 20) (n : Nat) (full : Bool) (w : Option (List (Option Byte) × Bool)), s.eng.host.perst = false → s.eng.mgt.powered = true → s.eng.mse 0 = true → s.eng.d3hot 0 = false → s.eng.host.hold = true → w.isNone = true ∨ off.toNat ≠ R.HOST_CTL →
    Ends (exec (.bar0Request 0 off (asked n full w)) s) (fun t => t.eng.answer = .completerAbort ∧ t.eng.host = { s.eng.host with l1 := false, busyAt := s.eng.cc } ∧ Kept s t [])) ∧
  (∀ (s : State) (off : BitVec 20) (l : List (Option Byte)), s.eng.host.perst = false → s.eng.reachable = true → s.eng.mse 0 = true → s.eng.d3hot 0 = false → s.eng.host.hold = false →
    Ends (exec (.bar0Request 0 off (.write l true)) s) (fun t => t.eng.answer = .none ∧ bitAt (t.eng.cfg 0 0x104).toNat 12 = true ∧ t.eng.detected.length = s.eng.detected.length + 1 ∧ Kept s t [])) ∧
  (∀ (s : State) (off : BitVec 20) (n : Nat) (full : Bool) (w : Option (List (Option Byte) × Bool)), s.eng.host.perst = false → s.eng.reachable = true → s.eng.mse 0 = true → s.eng.d3hot 0 = false → s.eng.host.hold = false → w.all (fun x => !x.2) = true →
    bar0Size off.toNat (w.elim n (fun x => x.1.length)) (w.elim full (fun x => x.1.all (·.isSome))) = false →
    Ends (exec (.bar0Request 0 off (asked n full w)) s) (fun t => t.eng.answer = .completerAbort ∧ t.eng.reg R.HOST_REFUSED = satAdd (s.eng.reg R.HOST_REFUSED) 1 ∧ t.eng.reg R.HOST_LASTREF = BitVec.ofNat 32 (0 + w.isSome.toNat * 2 ^ 3 + 2 * 2 ^ 4 + off.toNat / 256 * 2 ^ 8) ∧ t.eng.hasBit R.E_HOST_REFUSED = true ∧ Kept s t [R.HOST_REFUSED, R.HOST_LASTREF, statusAddr 0xD0])) ∧
  (∀ (s : State) (f : Fin 8) (off : BitVec 20) (k : OtherReq), s.eng.host.perst = false → s.eng.mgt.powered = true → s.eng.host.hold = false → k ≠ .vendor1 →
    Ends (exec (.bar0Request f off (.other k)) s) (fun t => t.eng.answer = .unsupported ∧ t.eng.reg R.HOST_REFUSED = satAdd (s.eng.reg R.HOST_REFUSED) 1 ∧ t.eng.hasBit R.E_HOST_REFUSED = true ∧
      (k = .unmapped true ∨ k = .unmapped false → bitsOf (t.eng.reg R.HOST_LASTREF).toNat 4 2 = (s.eng.mse f).toNat) ∧ Kept s t [R.HOST_REFUSED, R.HOST_LASTREF, statusAddr 0xD0])) ∧
  (∀ (s : State) (f : Fin 8) (off : BitVec 20), s.eng.host.perst = false → s.eng.mgt.powered = true →
    Ends (exec (.bar0Request f off (.other .vendor1)) s) (fun t => t.eng.answer = .none ∧ t.eng.host = { s.eng.host with l1 := false, busyAt := s.eng.cc } ∧ Kept s t [])) ∧
  (∀ (s : State) (off : BitVec 32) (n : Nat) (full : Bool) (w : Option (List (Option Byte) × Bool)), s.eng.host.perst = false → s.eng.reachable = true → s.eng.mse 0 = true → s.eng.d3hot 0 = false → s.eng.host.hold = false → s.eng.winClosed = true → w.all (fun x => !x.2) = true →
    Ends (exec (.windowRequest 0 off (asked n full w)) s) (fun t => t.eng.answer = .completerAbort ∧ t.eng.reg R.HOST_REFUSED = satAdd (s.eng.reg R.HOST_REFUSED) 1 ∧ t.eng.reg R.HOST_LASTREF = BitVec.ofNat 32 (2 + w.isSome.toNat * 2 ^ 3 + 3 * 2 ^ 4 + off.toNat / 256 * 2 ^ 8) ∧ t.eng.hasBit R.E_HOST_REFUSED = true ∧ t.eng.cis = s.eng.cis ∧ Kept s t [R.HOST_REFUSED, R.HOST_LASTREF, statusAddr 0xD0])) ∧
  (∀ (s : State) (off : BitVec 32) (n word : Nat) (full : Bool) (w : Option (List (Option Byte) × Bool)), s.eng.host.perst = false → s.eng.reachable = true → s.eng.mse 0 = true → s.eng.d3hot 0 = false → s.eng.host.hold = false → s.eng.winClosed = false → w.all (fun x => !x.2) = true → 0 < w.elim n (fun x => x.1.length) →
    s.eng.winCause off.toNat w.isSome ≠ 0 → word = bitsOf off.toNat 28 4 + s.eng.winCause off.toNat w.isSome * 2 ^ 4 + w.isSome.toNat * 2 ^ 7 + bitsOf off.toNat 8 20 * 2 ^ 8 →
    Ends (exec (.windowRequest 0 off (asked n full w)) s) (fun t => t.eng.answer = .unsupported ∧ t.eng.reg R.WIN_FAULTCNT = satAdd (s.eng.reg R.WIN_FAULTCNT) 1 ∧ t.eng.reg R.WIN_LASTFAULT = BitVec.ofNat 32 word ∧
      t.eng.detected = s.eng.nowDetected 0xD1 2 0x0209 word ∧ t.eng.hasBit R.E_WIN_FAULT = true ∧ t.eng.reg R.HOST_REFUSED = satAdd (s.eng.reg R.HOST_REFUSED) 1 ∧ t.eng.reg R.HOST_LASTREF = BitVec.ofNat 32 (2 + w.isSome.toNat * 2 ^ 3 + 1 * 2 ^ 4 + off.toNat / 256 * 2 ^ 8) ∧ t.eng.hasBit R.E_HOST_REFUSED = true ∧ t.eng.cis = s.eng.cis ∧
      Kept s t [R.WIN_FAULTCNT, R.WIN_LASTFAULT, statusAddr 0xD1, R.HOST_REFUSED, R.HOST_LASTREF, statusAddr 0xD0])) ∧
  (∀ (s : State) (off : BitVec 32) (n a : Nat) (full : Bool), s.eng.host.perst = false → s.eng.reachable = true → s.eng.mse 0 = true → s.eng.d3hot 0 = false → s.eng.host.hold = false → s.eng.winClosed = false → 0 < n →
    s.eng.winRefusal off.toNat n false = none → a = s.eng.winBase (bitsOf off.toNat 28 4) + off.toNat % 2 ^ 28 → a % 256 + n ≤ 256 →
    s.issues (s.eng.pcOf a) = true → (s.eng.pc (s.eng.pcOf a)).rq.length < 32 →
    Ends (exec (.windowRequest 0 off (.read n full)) s) (fun t => t.eng.answer = .none ∧ t.eng.cis.reads = s.eng.cis.reads ++ [{ tag := s.eng.cis.nextTag, addr := a, len := n, reply := none }] ∧
      (t.eng.pc (s.eng.pcOf a)).rq = (s.eng.pc (s.eng.pcOf a)).rq ++ [{ addr := a, len := n, reader := .window s.eng.cis.nextTag, since := s.eng.cc }] ∧ t.eng.cis.waitR = [] ∧ Kept s t [])) ∧
  (∀ (s : State) (off : BitVec 32) (b : Byte) (a : Nat), s.eng.host.perst = false → s.eng.reachable = true → s.eng.mse 0 = true → s.eng.d3hot 0 = false → s.eng.host.hold = false → s.eng.winClosed = false →
    s.eng.winCause off.toNat true = 0 → a = s.eng.winBase (bitsOf off.toNat 28 4) + off.toNat % 2 ^ 28 → s.issues (s.eng.pcOf a) = true → (s.eng.pc (s.eng.pcOf a)).wq.length < 64 →
    Ends (exec (.windowRequest 0 off (.write [some b] false)) s) (fun t => t.eng.answer = .done ∧ t.eng.cis.waitW = [] ∧
      (t.eng.pc (s.eng.pcOf a)).wq = (s.eng.pc (s.eng.pcOf a)).wq ++ [{ addr := a, bytes := [b], src := 49, since := s.eng.cc }] ∧ Kept s t [])) ∧
  (∀ (s : State) (off : BitVec 32) (b : Byte) (a : Nat), s.eng.host.perst = false → s.eng.reachable = true → s.eng.mse 0 = true → s.eng.d3hot 0 = false → s.eng.host.hold = false → s.eng.winClosed = false →
    s.eng.winCause off.toNat true = 0 → a = s.eng.winBase (bitsOf off.toNat 28 4) + off.toNat % 2 ^ 28 → s.eng.pcSt (s.eng.pcOf a) = 3 →
    Ends (exec (.windowRequest 0 off (.write [some b] false)) s) (fun t => t.eng.answer = .done ∧ t.eng.detected = s.eng.nowDetected 0xB0 2 0x0219 (a / 256) ∧ Kept s t [])) ∧
  (∀ (s : State) (port : Port) (v : Word), s.accepts port R.WIN_COMMIT v = true →
    Ends (exec (.winCommit port v) s) (fun t => (∀ w : Fin 16, if bitAt v.toNat w
        then t.eng.reg (R.WIN_BASE_LO w) = s.eng.reg (R.WIN_SH_BASE_LO w) ∧ t.eng.reg (R.WIN_BASE_HI w) = s.eng.reg (R.WIN_SH_BASE_HI w) ∧ t.eng.reg (R.WIN_SIZE w) = s.eng.reg (R.WIN_SH_SIZE w) ∧
          t.eng.reg (R.WIN_CFG w) = s.eng.reg (R.WIN_SH_CFG w)
        else t.eng.reg (R.WIN_BASE_LO w) = s.eng.reg (R.WIN_BASE_LO w) ∧ t.eng.reg (R.WIN_BASE_HI w) = s.eng.reg (R.WIN_BASE_HI w) ∧ t.eng.reg (R.WIN_SIZE w) = s.eng.reg (R.WIN_SIZE w) ∧
          t.eng.reg (R.WIN_CFG w) = s.eng.reg (R.WIN_CFG w)) ∧
      (bitsOf v.toNat 0 16 ≠ 0 → t.eng.hasBit R.E_WIN_COMMIT = true) ∧ t.eng.answer = okAnswer port ∧ t.eng.tb = s.eng.tb ∧ MemKept s t)) ∧
  (∀ (s : State) (port : Port) (v : Word), s.accepts port R.WIN_COMMIT v = true → (∀ w : Fin 16, s.eng.flag (R.WIN_CFG_LOCK w) = false ∧ s.eng.flag (R.WIN_SH_CFG_LOCK w) = false) →
    Ends (exec (.winCommit port v) s) (fun t => Kept s t (statusAddr 0xD1 :: ((List.range 16).map R.WIN_BASE_LO ++ (List.range 16).map R.WIN_BASE_HI ++ (List.range 16).map R.WIN_SIZE ++ (List.range 16).map R.WIN_CFG)))) ∧
  (∀ s : State, s.eng.host.perst = false → s.eng.mgt.powered = true → s.eng.host.ready = true → s.eng.badParity = [] → s.eng.mgt.resetting = false → (s.eng.cfg 0 0x30C).toNat = R.TB_LOADVAL_LO →
    Ends (exec (.vsecRdata 0 none) s) (fun t => t.eng.answer = .word (s.eng.heldReg R.TB_LOADVAL_LO) ∧ Kept s t [])) ∧
  (∀ (s : State) (v : Word), s.eng.host.perst = false → s.eng.host.ready = true → s.accepts .host R.TB_LOADVAL_LO v = true → (s.eng.cfg 0 0x30C).toNat = R.TB_LOADVAL_LO →
    Ends (exec (.vsecRdata 0 (some v)) s) (fun t => t.eng.reg R.TB_LOADVAL_LO = v ∧ t.eng.answer = .done ∧ Kept s t [R.TB_LOADVAL_LO])) ∧
  (∀ (s : State) (a : Nat) (wr : Option Word), s.eng.host.perst = false → s.eng.mgt.powered = true → s.eng.host.ready = true → s.eng.host.hold = false → s.eng.mgt.resetting = false → s.eng.dammed = false → s.eng.lost = false → a = (s.eng.cfg 0 0x30C).toNat % 0x100000 → a % 4 = 0 → decodeReg a = none → isDirWord a = false →
    Ends (exec (.vsecRdata 0 wr) s) (fun t => t.eng.answer = .completerAbort ∧ t.eng.reg R.HOST_REFUSED = satAdd (s.eng.reg R.HOST_REFUSED) 1 ∧
      t.eng.reg R.HOST_LASTREF = BitVec.ofNat 32 (wr.isSome.toNat * 2 ^ 3 + 3 * 2 ^ 4 + a / 256 * 2 ^ 8) ∧ t.eng.hasBit R.E_HOST_REFUSED = true ∧ Kept s t [R.HOST_REFUSED, R.HOST_LASTREF, statusAddr 0xD0]))

/-- O56. R346, R348, R349, R350, R355, R356: a drain with work runs; it fetches the descriptors that the ring has room and work for, from memory or from a tank, an error of the fetch taking the place of the descriptor; it starts the one at HEAD, taking its lock and asking for the first block of its source, or stops at a bad one with its record, its error and a resume point; the bytes that have come in go out as writes; at the last one the descriptor completes with its release, record, event, count and the next HEAD, with SRC_ERR where a burst held no good data; a drain that is to stop pauses with a resume point, and goes on from it at RESUME. A command that does not apply changes nothing. The model's choices it rests on: notes/assumptions/24, 102, 125. -/
def Obligations.Drains : Prop :=
  (∀ (s : State) (port : Port) (d : Fin 4) (v : Word), s.accepts port (R.DRAIN_TAIL d) v = true →
    Ends (exec (.drainTailWrite port d v) s) (fun t => t.eng.fld (R.DRAIN_TAIL_INDEX d) = bitsOf v.toNat 0 16 ∧
      t.eng.drainSt d = (if s.eng.drainSt d = 0 ∧ s.eng.flag (R.DRAIN_CTL_EN d) = true ∧ s.eng.drainsMay = true ∧ s.eng.drainHead d ≠ bitsOf v.toNat 0 16 % s.eng.ringLen d then 1 else s.eng.drainSt d) ∧
      t.eng.answer = okAnswer port ∧ Kept s t [R.DRAIN_TAIL d, R.DRAIN_DSTAT d])) ∧
  (∀ (s : State) (d : Fin 4) (l : List Byte) (ecc : Ecc) (room : Nat), s.eng.running = true → s.eng.host.drains.length = 4 → s.eng.drainSt d = 1 → (s.eng.drain d).pausing = false → s.eng.drainsMay = true → (s.eng.drain d).fetched = [] → (s.eng.drain d).working = none → s.eng.drainHead d ≠ s.eng.drainTail d → s.eng.flag (R.DRAIN_CTL_RING_LOC d) = false → room = min (min 8 (s.eng.ringLen d - s.eng.drainHead d)) ((s.eng.drainTail d + s.eng.ringLen d - s.eng.drainHead d) % s.eng.ringLen d) →
    Ends (exec (.descriptorFetch d ⟨some l, ecc⟩) s) (fun t => (t.eng.drain d).fetched = (List.range (min room (l.length / 32))).map (fun k => (s.eng.drainHead d + k, 0, (l.drop (32 * k)).take 32)) ∧ Kept s t [])) ∧
  (∀ (s : State) (d : Fin 4) (ecc : Ecc), s.eng.running = true → s.eng.host.drains.length = 4 → s.eng.drainSt d = 1 → (s.eng.drain d).pausing = false → s.eng.drainsMay = true → (s.eng.drain d).fetched = [] → (s.eng.drain d).working = none → s.eng.drainHead d ≠ s.eng.drainTail d → s.eng.flag (R.DRAIN_CTL_RING_LOC d) = false →
    Ends (exec (.descriptorFetch d ⟨none, ecc⟩) s) (fun t => (t.eng.drain d).fetched = [(s.eng.drainHead d, 3, [])] ∧ Kept s t [])) ∧
  (∀ (s : State) (d : Fin 4) (reply : Option (List Byte)) (ecc : Ecc) (a : Nat), s.eng.running = true → s.eng.host.drains.length = 4 → s.eng.drainSt d = 1 → (s.eng.drain d).pausing = false → s.eng.drainsMay = true → (s.eng.drain d).fetched = [] → (s.eng.drain d).working = none → s.eng.drainHead d ≠ s.eng.drainTail d → s.eng.flag (R.DRAIN_CTL_RING_LOC d) = true → a = ((s.eng.reg64 (R.DRAIN_RING_BASE_LO d)).toNat % 2 ^ 24 / 32 * 32 + 32 * s.eng.drainHead d) % 2 ^ 24 → s.eng.owner (a / tankSize) ≠ 4 →
    Ends (exec (.descriptorFetch d ⟨reply, ecc⟩) s) (fun t => (t.eng.drain d).fetched = [(s.eng.drainHead d, 4, [])] ∧ Kept s t [])) ∧
  (∀ (s : State) (d : Fin 4) (reply : Option (List Byte)) (room a : Nat), s.eng.running = true → s.eng.host.drains.length = 4 → s.eng.drainSt d = 1 → (s.eng.drain d).pausing = false → s.eng.drainsMay = true → (s.eng.drain d).fetched = [] → (s.eng.drain d).working = none → s.eng.drainHead d ≠ s.eng.drainTail d → s.eng.flag (R.DRAIN_CTL_RING_LOC d) = true → room = min (min 8 (s.eng.ringLen d - s.eng.drainHead d)) ((s.eng.drainTail d + s.eng.ringLen d - s.eng.drainHead d) % s.eng.ringLen d) → a = ((s.eng.reg64 (R.DRAIN_RING_BASE_LO d)).toNat % 2 ^ 24 / 32 * 32 + 32 * s.eng.drainHead d) % 2 ^ 24 → s.eng.owner (a / tankSize) = 4 → s.eng.tank.errs = [] →
    Ends (exec (.descriptorFetch d ⟨reply, .good⟩) s) (fun t => (t.eng.drain d).fetched = (List.range room).map (fun k => (s.eng.drainHead d + k, 0, bytesLE 32 (readLE s.chip.tanks (a + 32 * k) 32))) ∧ Kept s t [R.TANK_RETSTAT])) ∧
  (∀ (s : State) (d : Fin 4) (reply : Option (List Byte)) (a : Nat), s.eng.running = true → s.eng.host.drains.length = 4 → s.eng.drainSt d = 1 → (s.eng.drain d).pausing = false → s.eng.drainsMay = true → (s.eng.drain d).fetched = [] → (s.eng.drain d).working = none → s.eng.drainHead d ≠ s.eng.drainTail d → s.eng.flag (R.DRAIN_CTL_RING_LOC d) = true → a = ((s.eng.reg64 (R.DRAIN_RING_BASE_LO d)).toNat % 2 ^ 24 / 32 * 32 + 32 * s.eng.drainHead d) % 2 ^ 24 → s.eng.owner (a / tankSize) = 4 →
    Ends (exec (.descriptorFetch d ⟨reply, .double⟩) s) (fun t => (t.eng.drain d).fetched = [(s.eng.drainHead d, 3, [])] ∧ t.eng.wordError (a / 8) = .double ∧ t.eng.hasBit R.E_TANK_UE = true ∧
      Kept s t (R.TANK_RETSTAT :: tankEccRegs))) ∧
  (∀ (s : State) (d : Fin 4) (reply : Option (List Byte)) (ecc : Ecc), s.eng.drainSt d ≠ 1 ∨ (s.eng.drain d).pausing = true ∨ s.eng.drainsMay = false ∨
      ((s.eng.drain d).fetched = [] ∧ (s.eng.drain d).working = none ∧ s.eng.drainHead d = s.eng.drainTail d) → exec (.descriptorFetch d ⟨reply, ecc⟩) s = .next s) ∧
  (∀ (s : State) (d : Fin 4) (i err p q : Nat) (l : List Byte) (rest : List (Nat × Nat × List Byte)), s.eng.running = true → s.eng.host.drains.length = 4 → s.eng.drainSt d = 1 → (s.eng.drain d).pausing = false → s.eng.drainsMay = true → (s.eng.drain d).working = none → (s.eng.drain d).fetched = (i, err, l) :: rest → err = 0 → s.eng.descBad (descOf l) = false → q = (if (s.eng.drain d).resumed then min (s.eng.drain d).offset (descOf l).len else 0) →
    q < (descOf l).len → p = s.eng.pcOf ((descOf l).src + q) → s.issues p = true → (s.eng.pc p).rq.length < 32 →
    Ends (exec (.descriptorStart d) s) (fun t => (t.eng.drain d).working = some (i, l) ∧ (t.eng.drain d).fetched = rest ∧ (t.eng.drain d).acquired = (descOf l).acq ∧ (t.eng.drain d).offset = q ∧ t.eng.drainSt d = 1 ∧
      (t.eng.drain d).bad = ((s.eng.drain d).resumed && (s.eng.drain d).bad) ∧ (t.eng.drain d).tag = s.eng.cis.nextTag ∧
      (t.eng.pc p).rq = (s.eng.pc p).rq ++ [{ addr := (descOf l).src + q, len := min ((descOf l).len - q) (256 - ((descOf l).src + q) % 256), reader := .drain d s.eng.cis.nextTag, since := s.eng.cc }] ∧
      ((descOf l).acq = true → ((s.eng.drain d).resumed && (s.eng.drain d).acquired) = false → s.eng.fld (R.SEG_STATUS_LOCK (descOf l).seg) < 255 →
        t.eng.fld (R.SEG_STATUS_LOCK (descOf l).seg) = s.eng.fld (R.SEG_STATUS_LOCK (descOf l).seg) + 1) ∧
      Kept s t (if (descOf l).acq && !((s.eng.drain d).resumed && (s.eng.drain d).acquired) then [R.SEG_STATUS (descOf l).seg, statusAddr (R.E_SEG_LOCK_ERR (descOf l).seg).page] else []))) ∧
  (∀ (s : State) (d : Fin 4) (i err status : Nat) (l : List Byte) (rest : List (Nat × Nat × List Byte)), s.eng.running = true → s.eng.host.drains.length = 4 → s.eng.drainSt d = 1 → (s.eng.drain d).pausing = false → s.eng.drainsMay = true → (s.eng.drain d).working = none → (s.eng.drain d).fetched = (i, err, l) :: rest → s.eng.toFlume = false →
    (err = 3 ∨ err = 4) ∧ status = err ∨ err = 0 ∧ status = 1 ∧ s.eng.descBad (descOf l) = true →
    Ends (exec (.descriptorStart d) s) (fun t => t.eng.drainSt d = 3 ∧ t.eng.drain d = {} ∧ t.eng.fld (R.DRAIN_DSTAT_LASTSTATUS d) = status ∧ t.eng.reg (R.DRAIN_LASTERR d) = BitVec.ofNat 32 (i + status * 2 ^ 16) ∧
      t.eng.reg (R.DRAIN_RESUME_IDX d) = BitVec.ofNat 32 i ∧ t.eng.reg (R.DRAIN_RESUME_OFF d) = 0 ∧ t.eng.flag (R.DRAIN_DSTAT_RESUME_VALID d) = true ∧ t.eng.hasBit ⟨0xD2, 4 + d⟩ = true ∧
      (status = 1 → (descOf l).irq = true → t.eng.hasBit ⟨0xD2, d⟩ = true) ∧
      t.eng.detected = s.eng.nowDetected 0xD2 2 0x0208 (i + status * 2 ^ 16 + d * 2 ^ 24) ∧
      (s.eng.flag (R.DRAIN_CTL_CPL_EN d) = false → t.eng.host.out = s.eng.host.out) ∧ (s.eng.flag (R.DRAIN_CTL_CPL_EN d) = true → t.eng.host.out.length = s.eng.host.out.length + 1) ∧
      Kept s t [R.DRAIN_LASTERR d, R.DRAIN_DSTAT d, R.DRAIN_RESUME_IDX d, R.DRAIN_RESUME_OFF d, statusAddr 0xD2])) ∧
  (∀ (s : State) (d : Fin 4), s.eng.drainSt d ≠ 1 ∨ (s.eng.drain d).fetched = [] ∨ (s.eng.drain d).pausing = true ∨ (s.eng.drain d).working.isSome = true ∨ s.eng.drainsMay = false → exec (.descriptorStart d) s = .next s) ∧
  (∀ (s : State) (d : Fin 4) (i : Nat) (l bytes : List Byte), s.eng.running = true → s.eng.host.drains.length = 4 → s.eng.drainSt d = 1 → (s.eng.drain d).pausing = false → s.eng.drainsMay = true → s.eng.toFlume = false → (∀ k : Fin 4, k ≠ d → (s.eng.drain k).working = none) → (s.eng.drain d).working = some (i, l) → (s.eng.drain d).offset = 0 →
    (s.eng.drain d).got = [(0, bytes)] → bytes.length = (descOf l).len → bytes ≠ [] → bytes.length ≤ s.eng.mps → (descOf l).dst % 4096 + bytes.length ≤ 4096 →
    s.eng.drainsGo.host.out = s.eng.host.out ++ [.copy d (descOf l).dst bytes] ∧ (s.eng.drainsGo.drain d).offset = bytes.length ∧ (s.eng.drainsGo.drain d).got = [] ∧
    s.eng.drainsGo.reg64 (R.DRAIN_BYTES_LO d) = s.eng.reg64 (R.DRAIN_BYTES_LO d) + BitVec.ofNat 64 bytes.length ∧ (s.eng.drainsGo.drain d).lastTb = tbOfCycle s.eng.cycle ∧ s.eng.drainsGo.host.turn = d) ∧
  (∀ (s : State) (d : Fin 4) (i : Nat) (l : List Byte), s.eng.running = true → s.eng.host.drains.length = 4 → s.eng.drainSt d = 1 → (s.eng.drain d).pausing = false → s.eng.drainsMay = true → s.eng.toFlume = false → (s.eng.drain d).working = some (i, l) → (descOf l).len ≤ (s.eng.drain d).offset → (descOf l).release = false → (s.eng.drain d).bad = false → (s.eng.drain d).finishing = false →
    Ends (exec (.descriptorComplete d (s.eng.drain d).bad) s) (fun t =>
      t.eng.host.out = s.eng.host.out ++ (if (descOf l).chain || !s.eng.flag (R.DRAIN_CTL_CPL_EN d) then []
         else [.record ((s.eng.reg64 (R.DRAIN_CPL_BASE_LO d)).toNat / 16 * 16 + 16 * i)
           (bytesLE 8 (s.eng.drain d).lastTb.toNat ++ bytesLE 2 i ++ [0] ++ bytesLE 1 (s.eng.fld (R.DRAIN_DSTAT_PHASE d) + d * 2) ++ bytesLE 4 (descOf l).user)]) ∧
      t.eng.reg (R.DRAIN_DESCCNT d) = s.eng.reg (R.DRAIN_DESCCNT d) + 1 ∧ t.eng.fld (R.DRAIN_HEAD_INDEX d) = (i + 1) % s.eng.ringLen d ∧
      t.eng.fld (R.DRAIN_DSTAT_PHASE d) = (if (i + 1) % s.eng.ringLen d = 0 then 1 - s.eng.fld (R.DRAIN_DSTAT_PHASE d) else s.eng.fld (R.DRAIN_DSTAT_PHASE d)) ∧
      (t.eng.drain d).working = none ∧ (t.eng.drain d).fetched = (s.eng.drain d).fetched ∧ t.eng.drainSt d = (if (i + 1) % s.eng.ringLen d = s.eng.drainTail d then 0 else 1) ∧ t.eng.fld (R.DRAIN_DSTAT_LASTSTATUS d) = 0 ∧
      ((descOf l).irq = true → (descOf l).chain = false → t.eng.hasBit ⟨0xD2, d⟩ = true) ∧ t.eng.detected = s.eng.detected ∧
      Kept s t [R.DRAIN_DESCCNT d, R.DRAIN_DSTAT d, R.DRAIN_HEAD d, statusAddr 0xD2])) ∧
  (∀ (s : State) (d : Fin 4) (i : Nat) (l : List Byte), s.eng.running = true → s.eng.host.drains.length = 4 → s.eng.drainSt d = 1 → (s.eng.drain d).pausing = false → s.eng.drainsMay = true → s.eng.toFlume = false → (s.eng.drain d).working = some (i, l) → (descOf l).len ≤ (s.eng.drain d).offset → (descOf l).release = false → (s.eng.drain d).bad = true → (s.eng.drain d).finishing = false →
    Ends (exec (.descriptorComplete d (s.eng.drain d).bad) s) (fun t => t.eng.host.out = s.eng.host.out ++ (if s.eng.flag (R.DRAIN_CTL_CPL_EN d) then [.record ((s.eng.reg64 (R.DRAIN_CPL_BASE_LO d)).toNat / 16 * 16 + 16 * i)
           (bytesLE 8 (s.eng.drain d).lastTb.toNat ++ bytesLE 2 i ++ [2] ++ bytesLE 1 (s.eng.fld (R.DRAIN_DSTAT_PHASE d) + d * 2) ++ bytesLE 4 (descOf l).user)]
         else []) ∧
      t.eng.reg (R.DRAIN_DESCCNT d) = s.eng.reg (R.DRAIN_DESCCNT d) + 1 ∧ t.eng.fld (R.DRAIN_HEAD_INDEX d) = (i + 1) % s.eng.ringLen d ∧
      t.eng.fld (R.DRAIN_DSTAT_PHASE d) = (if (i + 1) % s.eng.ringLen d = 0 then 1 - s.eng.fld (R.DRAIN_DSTAT_PHASE d) else s.eng.fld (R.DRAIN_DSTAT_PHASE d)) ∧
      (t.eng.drain d).working = none ∧ (t.eng.drain d).fetched = (s.eng.drain d).fetched ∧ t.eng.drainSt d = (if (i + 1) % s.eng.ringLen d = s.eng.drainTail d then 0 else 1) ∧ t.eng.fld (R.DRAIN_DSTAT_LASTSTATUS d) = 2 ∧ t.eng.reg (R.DRAIN_LASTERR d) = BitVec.ofNat 32 (i + 2 * 2 ^ 16) ∧ t.eng.hasBit ⟨0xD2, 4 + d⟩ = true ∧
      t.eng.detected = s.eng.nowDetected 0xD2 2 0x0208 (i + 2 * 2 ^ 16 + d * 2 ^ 24) ∧ ((descOf l).irq = true → t.eng.hasBit ⟨0xD2, d⟩ = true) ∧
      Kept s t [R.DRAIN_DESCCNT d, R.DRAIN_DSTAT d, R.DRAIN_HEAD d, R.DRAIN_LASTERR d, statusAddr 0xD2])) ∧
  (∀ (s : State) (d : Fin 4) (i g : Nat) (l : List Byte), s.eng.running = true → s.eng.host.drains.length = 4 → s.eng.drainSt d = 1 → (s.eng.drain d).pausing = false → s.eng.drainsMay = true → s.eng.toFlume = false → (s.eng.drain d).working = some (i, l) → (descOf l).len ≤ (s.eng.drain d).offset → (descOf l).release = true → g = (descOf l).seg → s.eng.fld (R.SEG_STATUS_LOCK g) = 1 → s.eng.fld (R.SEG_STATUS_STATE g) = 3 → (s.eng.drain d).bad = false →
    (s.eng.drain d).finishing = false →
    Ends (exec (.descriptorComplete d (s.eng.drain d).bad) s) (fun t => t.eng.fld (R.SEG_STATUS_LOCK g) = 0 ∧ t.eng.fld (R.SEG_STATUS_STATE g) = 4 ∧ t.eng.reg (R.DRAIN_DESCCNT d) = s.eng.reg (R.DRAIN_DESCCNT d) + 1 ∧ t.eng.fld (R.DRAIN_HEAD_INDEX d) = (i + 1) % s.eng.ringLen d ∧
      t.eng.fld (R.DRAIN_DSTAT_PHASE d) = (if (i + 1) % s.eng.ringLen d = 0 then 1 - s.eng.fld (R.DRAIN_DSTAT_PHASE d) else s.eng.fld (R.DRAIN_DSTAT_PHASE d)) ∧
      (t.eng.drain d).working = none ∧ (t.eng.drain d).fetched = (s.eng.drain d).fetched ∧ t.eng.drainSt d = (if (i + 1) % s.eng.ringLen d = s.eng.drainTail d then 0 else 1) ∧
      Kept s t [R.SEG_STATUS g, R.DRAIN_DESCCNT d, R.DRAIN_DSTAT d, R.DRAIN_HEAD d, statusAddr 0xD2])) ∧
  (∀ (s : State) (d : Fin 4) (i : Nat) (l : List Byte), s.eng.running = true → s.eng.host.drains.length = 4 → s.eng.drainSt d = 1 → (s.eng.drain d).pausing = false → s.eng.drainsMay = true → s.eng.toFlume = false → (s.eng.drain d).working = some (i, l) → (descOf l).len ≤ (s.eng.drain d).offset → (descOf l).release = false → (s.eng.drain d).bad = false → (s.eng.drain d).finishing = true → (i + 1) % s.eng.ringLen d ≠ s.eng.drainTail d →
    Ends (exec (.descriptorComplete d (s.eng.drain d).bad) s) (fun t => t.eng.drainSt d = 2 ∧ t.eng.fld (R.DRAIN_HEAD_INDEX d) = (i + 1) % s.eng.ringLen d ∧ t.eng.reg (R.DRAIN_RESUME_IDX d) = BitVec.ofNat 32 ((i + 1) % s.eng.ringLen d) ∧
      t.eng.reg (R.DRAIN_RESUME_OFF d) = 0 ∧ t.eng.flag (R.DRAIN_DSTAT_RESUME_VALID d) = true ∧ t.eng.hasBit R.E_DRAIN_PAUSE = true ∧
      Kept s t [R.DRAIN_DESCCNT d, R.DRAIN_DSTAT d, R.DRAIN_HEAD d, R.DRAIN_RESUME_IDX d, R.DRAIN_RESUME_OFF d, statusAddr 0xD2])) ∧
  (∀ (s : State) (d : Fin 4) (bad : Bool), s.eng.drainSt d ≠ 1 ∨ (s.eng.drain d).working = none ∨ (s.eng.drain d).working.any (fun w => decide ((s.eng.drain d).offset < (descOf w.2).len)) = true ∨ (s.eng.drain d).pausing = true ∨
      s.eng.drainsMay = false ∨ (s.eng.drain d).bad ≠ bad → exec (.descriptorComplete d bad) s = .next s) ∧
  (∀ (s : State) (d : Fin 4) (issued : BitVec 32), s.eng.drainSt d ≠ 1 ∨ (s.eng.drain d).pausing = false ∨ BitVec.ofNat 32 (s.eng.drainPoint d).2 ≠ issued → exec (.drainPause d issued) s = .next s) ∧
  (∀ (s : State) (d : Fin 4) (i q : Nat), s.eng.mgt.powered = true → s.eng.host.drains.length = 4 → s.eng.drainSt d = 1 → (s.eng.drain d).pausing = true →
    i = ((s.eng.drain d).working.elim (s.eng.drainHead d) (fun w => w.1)) → q = (if (s.eng.drain d).working.isSome || (s.eng.drain d).resumed then (s.eng.drain d).offset else 0) →
    Ends (exec (.drainPause d (BitVec.ofNat 32 q)) s) (fun t => t.eng.drainSt d = 2 ∧ t.eng.reg (R.DRAIN_RESUME_IDX d) = BitVec.ofNat 32 i ∧
      t.eng.reg (R.DRAIN_RESUME_OFF d) = BitVec.ofNat 32 q ∧ t.eng.flag (R.DRAIN_DSTAT_RESUME_VALID d) = true ∧
      t.eng.drain d = { offset := q, acquired := (s.eng.drain d).acquired, bad := (s.eng.drain d).bad } ∧ t.eng.hasBit R.E_DRAIN_PAUSE = true ∧
      Kept s t [R.DRAIN_DSTAT d, R.DRAIN_RESUME_IDX d, R.DRAIN_RESUME_OFF d, statusAddr 0xD2])) ∧
  (∀ (s : State) (port : Port) (v : Word), s.accepts port R.DRAIN_RESUME v = true → s.eng.host.drains.length = 4 →
    Ends (exec (.drainResume port v) s) (fun t => t.eng.answer = okAnswer port ∧
      (∀ d : Fin 4, bitAt v.toNat d = true → s.eng.flag (R.DRAIN_CTL_EN d) = true → s.eng.drainsMay = true → s.eng.flag (R.DRAIN_DSTAT_RESUME_VALID d) = true →
        t.eng.fld (R.DRAIN_HEAD_INDEX d) = s.eng.fld (R.DRAIN_RESUME_IDX_INDEX d) ∧ t.eng.flag (R.DRAIN_DSTAT_RESUME_VALID d) = false ∧ (t.eng.drain d).offset = (s.eng.reg (R.DRAIN_RESUME_OFF d)).toNat ∧
        (t.eng.drain d).resumed = true ∧ (t.eng.drain d).acquired = (s.eng.drain d).acquired ∧ (t.eng.drain d).bad = (s.eng.drain d).bad ∧
        t.eng.drainSt d = (if s.eng.fld (R.DRAIN_RESUME_IDX_INDEX d) % s.eng.ringLen d = s.eng.drainTail d then 0 else 1)) ∧
      (∀ d : Fin 4, bitAt v.toNat d = false ∨ s.eng.flag (R.DRAIN_CTL_EN d) = false ∨ s.eng.drainsMay = false ∨ s.eng.flag (R.DRAIN_DSTAT_RESUME_VALID d) = false →
        t.eng.reg (R.DRAIN_HEAD d) = s.eng.reg (R.DRAIN_HEAD d) ∧ t.eng.reg (R.DRAIN_DSTAT d) = s.eng.reg (R.DRAIN_DSTAT d) ∧ t.eng.drain d = s.eng.drain d) ∧
      Kept s t ((List.range 4).map R.DRAIN_HEAD ++ (List.range 4).map R.DRAIN_DSTAT)))

/-- O57. R262, R353, R354, R355, R360, R361, R362, R363: the link enters L0; L1 once it has idled for PMCTL.L1IDLE µs, and leaves it; D3hot and a cleared BME stop running drains; a surprise removal or a fatal error enters HOLD once, which a release ends, with the completions of reads under way discarded; once function 0 is ready after a reset of the head's host link, funnel mode takes effect with the positions present when it became ready, leaving out those with a host link of their own. Where a command does not apply nothing changes. The model's choices it rests on: notes/assumptions/50, 52, 150, 151. -/
def Obligations.HostLinkStates : Prop :=
  (∀ (s : State) (speed width : Nat), s.eng.host.perst = false → s.eng.mgt.powered = true →
    Ends (exec (.hostLinkL0 speed width) s) (fun t => t.eng.host = { s.eng.host with l0 := true, l1 := false, speed := speed, width := width } ∧ t.eng.ring.hostUp = true ∧ t.eng.ring.hostSince = s.eng.cc ∧ Kept s t [])) ∧
  (∀ (s : State) (speed width : Nat), s.eng.host.perst = true ∨ s.eng.mgt.powered = false → exec (.hostLinkL0 speed width) s = .next s) ∧
  (∀ s : State, s.eng.mgt.powered = true → s.eng.host.l0 = true → s.eng.host.l1 = false → bitAt (s.eng.cfg 0 0x80).toNat 1 = true → (∀ d : Fin 4, s.eng.drainSt d ≠ 1) → s.eng.hostWaits = false → s.eng.cis.reads = [] →
    s.eng.host.busyAt + 600 * s.eng.fld R.HOST_PMCTL_L1IDLE ≤ s.eng.cc →
    Ends (exec .l1Entry s) (fun t => t.eng.host = { s.eng.host with l1 := true } ∧ t.eng.ring.hostUp = false ∧ Kept s t [])) ∧
  (∀ s : State, s.eng.host.l0 = false ∨ s.eng.host.l1 = true ∨ bitAt (s.eng.cfg 0 0x80).toNat 1 = false ∨ (∃ d : Fin 4, s.eng.drainSt d = 1) ∨ s.eng.hostWaits = true ∨ s.eng.cis.reads ≠ [] ∨
    s.eng.cc < s.eng.host.busyAt + 600 * s.eng.fld R.HOST_PMCTL_L1IDLE → exec .l1Entry s = .next s) ∧
  (∀ s : State, s.eng.mgt.powered = true → s.eng.host.l1 = true → Ends (exec .l1Exit s) (fun t => t.eng.host = { s.eng.host with l1 := false } ∧ t.eng.ring.hostUp = true ∧ t.eng.ring.hostSince = s.eng.cc ∧ Kept s t [])) ∧
  (∀ s : State, s.eng.host.l1 = false → exec .l1Exit s = .next s) ∧
  (∀ s : State, s.eng.mgt.powered = true → s.eng.host.perst = false → s.eng.host.ready = true → s.eng.host.drains.length = 4 →
    Ends (exec .d3hotEntry s) (fun t => t.eng.d3hot 0 = true ∧ CfgKept s t 0 0x44 ∧ (∀ d : Fin 4, if s.eng.drainSt d = 1 then t.eng.drain d = { s.eng.drain d with pausing := true } else t.eng.drain d = s.eng.drain d) ∧ Kept s t [])) ∧
  (∀ s : State, s.eng.host.perst = true ∨ s.eng.host.ready = false → exec .d3hotEntry s = .next s) ∧
  (∀ (s : State) (v : Word), s.eng.mgt.powered = true → s.eng.host.perst = false → s.eng.host.ready = true → s.eng.host.drains.length = 4 → bitAt v.toNat 2 = false →
    Ends (exec (.configRequest 0 1 (some (0xF, v))) s) (fun t => t.eng.bme 0 = false ∧ (∀ d : Fin 4, s.eng.drainSt d = 1 → (t.eng.drain d).pausing = true) ∧ t.eng.answer = .done ∧ Kept s t [])) ∧
  (∀ s : State, s.eng.mgt.powered = true → s.eng.host.l0 = true → s.eng.host.perst = false → s.eng.host.hold = false → s.eng.host.drains.length = 4 →
    Ends (exec .surpriseDown s) (fun t => t.eng.host.hold = true ∧ t.eng.host.holdCause = 1 ∧ t.eng.host.l0 = false ∧ t.eng.ring.hostUp = false ∧
      t.eng.reg R.HOST_LINKDOWNCNT = satAdd (s.eng.reg R.HOST_LINKDOWNCNT) 1 ∧ t.eng.reg R.HOST_HOLDCNT = satAdd (s.eng.reg R.HOST_HOLDCNT) 1 ∧ t.eng.reg64 R.HOST_HOLD_TB_LO = tbOfCycle s.eng.cycle ∧
      t.eng.hasBit R.E_HOST_HOLD = true ∧ t.eng.hasBit R.E_HOST_LINKDOWN = true ∧ t.eng.detected = s.eng.nowDetected 0xD0 2 0x020A 1 ∧ (∀ d : Fin 4, s.eng.drainSt d = 1 → (t.eng.drain d).pausing = true) ∧
      Kept s t [R.HOST_LINKDOWNCNT, R.HOST_HOLDCNT, R.HOST_HOLD_TB_LO, R.HOST_HOLD_TB_HI, statusAddr 0xD0])) ∧
  (∀ s : State, s.eng.mgt.powered = true → s.eng.host.l0 = true → s.eng.host.perst = false → s.eng.host.hold = true →
    Ends (exec .surpriseDown s) (fun t => t.eng.host = { s.eng.host with l0 := false, l1 := false, speed := 0, width := 0 } ∧ t.eng.ring.hostUp = false ∧ t.eng.reg R.HOST_LINKDOWNCNT = satAdd (s.eng.reg R.HOST_LINKDOWNCNT) 1 ∧
      t.eng.hasBit R.E_HOST_LINKDOWN = true ∧ t.eng.detected = s.eng.detected ∧ Kept s t [R.HOST_LINKDOWNCNT, statusAddr 0xD0])) ∧
  (∀ s : State, s.eng.host.l0 = false ∨ s.eng.host.perst = true → exec .surpriseDown s = .next s) ∧
  (∀ s : State, s.eng.mgt.powered = true → s.eng.host.perst = false → s.eng.host.hold = false → s.eng.host.drains.length = 4 →
    Ends (exec .fatalError s) (fun t => t.eng.host.hold = true ∧ t.eng.host.holdCause = 2 ∧ t.eng.reg R.HOST_HOLDCNT = satAdd (s.eng.reg R.HOST_HOLDCNT) 1 ∧ t.eng.reg64 R.HOST_HOLD_TB_LO = tbOfCycle s.eng.cycle ∧
      t.eng.hasBit R.E_HOST_HOLD = true ∧ t.eng.detected = s.eng.nowDetected 0xD0 2 0x020A 2 ∧ (∀ d : Fin 4, s.eng.drainSt d = 1 → (t.eng.drain d).pausing = true) ∧
      Kept s t [R.HOST_HOLDCNT, R.HOST_HOLD_TB_LO, R.HOST_HOLD_TB_HI, statusAddr 0xD0])) ∧
  (∀ s : State, s.eng.host.hold = true ∨ s.eng.host.perst = true → exec .fatalError s = .next s) ∧
  (∀ (s : State) (port : Port), s.accepts port R.HOST_CTL 1 = true → s.eng.host.hold = true →
    Ends (exec (.holdRelease port) s) (fun t => t.eng.host = { s.eng.host with hold := false, holdCause := 0 } ∧ t.eng.cis = { s.eng.cis with reads := s.eng.cis.reads.filter (fun r => r.reply.isSome) } ∧
      t.eng.answer = okAnswer port ∧ Kept s t [])) ∧
  (∀ (s : State) (port : Port), s.accepts port R.HOST_CTL 1 = true → s.eng.host.hold = false →
    Ends (exec (.holdRelease port) s) (fun t => t.eng.host = s.eng.host ∧ t.eng.answer = okAnswer port ∧ Kept s t [])) ∧
  (∀ s : State, s.eng.host.hold = false → exec .vsecRelease s = .next s) ∧
  (∀ s : State, s.eng.mgt.powered = true → s.eng.host.hold = true → Ends (exec .vsecRelease s) (fun t => t.eng.host = { s.eng.host with hold := false, holdCause := 0 } ∧
      t.eng.cis = { s.eng.cis with reads := s.eng.cis.reads.filter (fun r => r.reply.isSome) } ∧ Kept s t [])) ∧
  (∀ (s : State) (linked : List (Fin 8)) (set : Nat), s.eng.mgt.powered = true → s.eng.host.funnelPend = true → s.eng.host.ready = true → s.eng.host.funnelSet = some set → s.eng.role = 1 → s.eng.flag R.RING_CTL_FUNNEL = true →
    Ends (exec (.funnelTakesEffect linked) s) (fun t => t.eng.flag R.RING_STATUS_FUNNEL = true ∧
      (∀ q : Fin 8, bitAt (t.eng.fld R.RING_MEMBERS_FUNNEL_MAP) q = (bitAt set q && !(q != 0 && linked.contains q))) ∧
      (linked.any (fun q => q != 0 && bitAt set q) = true → t.eng.fld R.RING_REASON_CODE = 5) ∧ (linked.any (fun q => q != 0 && bitAt set q) = false → t.eng.reg R.RING_REASON = s.eng.reg R.RING_REASON) ∧ t.eng.host = { s.eng.host with funnelPend := false } ∧
      Kept s t [R.RING_STATUS, R.RING_MEMBERS, R.RING_REASON])) ∧
  (∀ (s : State) (linked : List (Fin 8)), s.eng.mgt.powered = true → s.eng.host.funnelPend = true → s.eng.host.ready = true → s.eng.role ≠ 1 ∨ s.eng.flag R.RING_CTL_FUNNEL = false →
    Ends (exec (.funnelTakesEffect linked) s) (fun t => t.eng.flag R.RING_STATUS_FUNNEL = false ∧ t.eng.fld R.RING_MEMBERS_FUNNEL_MAP = 0 ∧ t.eng.host = { s.eng.host with funnelPend := false } ∧ Kept s t [R.RING_STATUS, R.RING_MEMBERS])) ∧
  (∀ (s : State) (linked : List (Fin 8)), s.eng.host.funnelPend = false ∨ s.eng.host.ready = false → exec (.funnelTakesEffect linked) s = .next s)

/-! ## The display outputs (R372 to R393) -/

/-- O58. R373, R374, R375, R376: training starts on a write, on a plug with AUTO or on a lane that lost lock, and ends UP, SHORT or FAILED; the hot-plug events act where the sink's presence changes; an AUX transaction runs, or waits for training, repeats deferred replies, and ends with its result, its reply and its byte count, or by its timeout. Where a command does not apply nothing changes. The model's choices it rests on: notes/assumptions/110. -/
def Obligations.DisplayLinks : Prop :=
  (∀ (s : State) (o : Fin 2) (port : Port) (v : Word), s.accepts port (R.DISP_LINKCFG o) (v ||| 0x100) = true → s.eng.disp.length = 2 →
    Ends (exec (.dpTrain o (some (port, v))) s) (fun t => t.eng.fld (R.DISP_STATUS_LINK o) = 1 ∧ t.eng.flag (R.DISP_LINKCFG_TRAIN o) = true ∧ t.eng.reg (R.DISP_LINKCFG o) &&& 0x3F = v &&& 0x3F ∧
      (t.eng.dsp o).training = true ∧ t.eng.answer = okAnswer port ∧ Kept s t [R.DISP_LINKCFG o, R.DISP_STATUS o])) ∧
  (∀ (s : State) (o : Fin 2), s.eng.running = true → s.eng.disp.length = 2 → s.eng.flag (R.DISP_STATUS_HPD o) = true → s.eng.flag (R.DISP_LINKCFG_AUTO o) = true → (s.eng.dsp o).training = false →
    Ends (exec (.dpTrain o none) s) (fun t => t.eng.fld (R.DISP_STATUS_LINK o) = 1 ∧ (t.eng.dsp o).training = true ∧ Kept s t [R.DISP_LINKCFG o, R.DISP_STATUS o])) ∧
  (∀ (s : State) (o : Fin 2), s.eng.flag (R.DISP_STATUS_HPD o) = false ∨ s.eng.flag (R.DISP_LINKCFG_AUTO o) = false ∨ (s.eng.dsp o).training = true → exec (.dpTrain o none) s = .next s) ∧
  (∀ (s : State) (o : Fin 2) (rate : Fin 4) (lanes : Fin 5) (async : Bool), s.eng.running = true → s.eng.disp.length = 2 → (s.eng.dsp o).training = true → s.eng.mayReach o rate lanes = true →
    Ends (exec (.dpTrainEnd o (some (rate, lanes)) async) s) (fun t => t.eng.fld (R.DISP_STATUS_TRATE o) = rate ∧ t.eng.fld (R.DISP_STATUS_TLANES o) = lanes ∧ t.eng.flag (R.DISP_STATUS_ASYNC o) = async ∧
      t.eng.fld (R.DISP_STATUS_LINK o) = (if (s.eng.dsp o).running = true ∧ 776 * lanes.val * laneRate rate * (s.eng.curTiming (s.eng.source o)).k < 24 * 4800000 then 4 else 2) ∧
      (t.eng.dsp o).training = false ∧ ((s.eng.dsp o).auxWaits = true → (t.eng.dsp o).auxSince = some s.eng.cc) ∧ t.eng.hasBit (R.E_DISP_TRAIN_DONE o) = true ∧
      Kept s t [R.DISP_LINKCFG o, R.DISP_STATUS o, statusAddr (0xE0 + o)])) ∧
  (∀ (s : State) (o : Fin 2) (reached : Option (Fin 4 × Fin 5)) (async : Bool), s.eng.running = true → s.eng.disp.length = 2 → (s.eng.dsp o).training = true → reached.any (fun x => s.eng.mayReach o x.1 x.2) = false →
    Ends (exec (.dpTrainEnd o reached async) s) (fun t => t.eng.fld (R.DISP_STATUS_LINK o) = 3 ∧ (t.eng.dsp o).training = false ∧ ((s.eng.dsp o).auxWaits = true → (t.eng.dsp o).auxSince = some s.eng.cc) ∧ t.eng.hasBit (R.E_DISP_TRAIN_FAIL o) = true ∧
      Kept s t [R.DISP_LINKCFG o, R.DISP_STATUS o, statusAddr (0xE0 + o)])) ∧
  (∀ (s : State) (o : Fin 2) (reached : Option (Fin 4 × Fin 5)) (async : Bool), (s.eng.dsp o).training = false → exec (.dpTrainEnd o reached async) s = .next s) ∧
  (∀ (s : State) (o : Fin 2), s.eng.running = true → s.eng.flag (R.DISP_STATUS_HPD o) = true →
    Ends (exec (.hpdUnplug o) s) (fun t => t.eng.flag (R.DISP_STATUS_HPD o) = false ∧ t.eng.fld (R.DISP_STATUS_LINK o) = 0 ∧ t.eng.hasBit (R.E_DISP_HPD_UNPLUG o) = true ∧ t.eng.disp = s.eng.disp ∧
      Kept s t [R.DISP_STATUS o, statusAddr (0xE0 + o)])) ∧
  (∀ (s : State) (o : Fin 2), s.eng.flag (R.DISP_STATUS_HPD o) = false → exec (.hpdUnplug o) s = .next s ∧ exec (.hpdIrq o) s = .next s) ∧
  (∀ (s : State) (o : Fin 2), s.eng.running = true → s.eng.disp.length = 2 → s.eng.flag (R.DISP_STATUS_HPD o) = false →
    Ends (exec (.hpdPlug o) s) (fun t => t.eng.flag (R.DISP_STATUS_HPD o) = true ∧ t.eng.hasBit (R.E_DISP_HPD_PLUG o) = true ∧
      (t.eng.dsp o).training = ((s.eng.dsp o).training || s.eng.flag (R.DISP_LINKCFG_AUTO o)) ∧ (s.eng.flag (R.DISP_LINKCFG_AUTO o) = true → (s.eng.dsp o).training = false → t.eng.fld (R.DISP_STATUS_LINK o) = 1) ∧ Kept s t [R.DISP_STATUS o, R.DISP_LINKCFG o, statusAddr (0xE0 + o)])) ∧
  (∀ (s : State) (o : Fin 2), s.eng.flag (R.DISP_STATUS_HPD o) = true → exec (.hpdPlug o) s = .next s) ∧
  (∀ (s : State) (o : Fin 2), s.eng.running = true → s.eng.flag (R.DISP_STATUS_HPD o) = true →
    Ends (exec (.hpdIrq o) s) (fun t => t.eng.hasBit (R.E_DISP_HPD_IRQ o) = true ∧ t.eng.disp = s.eng.disp ∧ Kept s t [statusAddr (0xE0 + o)])) ∧
  (∀ (s : State) (o : Fin 2) (port : Port) (v : Word), s.accepts port (R.DISP_AUXCTL o) (v ||| 0x10000) = true → s.eng.disp.length = 2 → s.eng.flag (R.DISP_AUXSTAT_BUSY o) = false → s.eng.flag (R.DISP_STATUS_HPD o) = true →
    Ends (exec (.auxGo port o v) s) (fun t => t.eng.flag (R.DISP_AUXSTAT_BUSY o) = true ∧ t.eng.flag (R.DISP_AUXCTL_GO o) = true ∧ t.eng.reg (R.DISP_AUXCTL o) &&& 0xF00F0F = v &&& 0xF00F0F ∧
      (t.eng.dsp o).auxWord = t.eng.reg (R.DISP_AUXCTL o) ∧ (t.eng.dsp o).auxTries = 0 ∧ (t.eng.dsp o).auxWaits = (s.eng.dsp o).training ∧
      (t.eng.dsp o).auxSince = (if (s.eng.dsp o).training then none else some s.eng.cc) ∧ t.eng.answer = okAnswer port ∧ Kept s t [R.DISP_AUXCTL o, R.DISP_AUXSTAT o])) ∧
  (∀ (s : State) (o : Fin 2) (port : Port) (v : Word), s.accepts port (R.DISP_AUXCTL o) (v ||| 0x10000) = true → s.eng.disp.length = 2 → s.eng.flag (R.DISP_AUXSTAT_BUSY o) = false → s.eng.flag (R.DISP_STATUS_HPD o) = false →
    Ends (exec (.auxGo port o v) s) (fun t => t.eng.reg (R.DISP_AUXSTAT o) = 8 ∧ t.eng.flag (R.DISP_AUXCTL_GO o) = false ∧ t.eng.hasBit (R.E_DISP_AUX_DONE o) = true ∧ t.eng.answer = okAnswer port ∧
      Kept s t [R.DISP_AUXCTL o, R.DISP_AUXSTAT o, statusAddr (0xE0 + o)])) ∧
  (∀ (s : State) (o : Fin 2) (port : Port) (v : Word), s.accepts port (R.DISP_AUXCTL o) (v ||| 0x10000) = true → s.eng.flag (R.DISP_AUXSTAT_BUSY o) = true →
    Ends (exec (.auxGo port o v) s) (fun t => t.eng.disp = s.eng.disp ∧ t.eng.answer = okAnswer port ∧ Kept s t [R.DISP_AUXCTL o])) ∧
  (∀ (s : State) (o : Fin 2) (reply : Fin 16) (data : List Byte) (t0 : Nat), s.eng.running = true → s.eng.disp.length = 2 → s.eng.flag (R.DISP_AUXSTAT_BUSY o) = true → (s.eng.dsp o).auxSince = some t0 →
    reply.val % 4 = 2 ∨ reply.val / 4 = 2 → (s.eng.dsp o).auxTries < bitsOf (s.eng.dsp o).auxWord.toNat 20 4 →
    Ends (exec (.auxReply o reply data) s) (fun t => (t.eng.dsp o).auxTries = (s.eng.dsp o).auxTries + 1 ∧ (t.eng.dsp o).auxSince = some s.eng.cc ∧ Kept s t [])) ∧
  (∀ (s : State) (o : Fin 2) (reply : Fin 16) (data : List Byte) (t0 : Nat), s.eng.running = true → s.eng.disp.length = 2 → s.eng.flag (R.DISP_AUXSTAT_BUSY o) = true → (s.eng.dsp o).auxSince = some t0 →
    reply.val % 4 = 2 ∨ reply.val / 4 = 2 → bitsOf (s.eng.dsp o).auxWord.toNat 20 4 ≤ (s.eng.dsp o).auxTries →
    Ends (exec (.auxReply o reply data) s) (fun t => t.eng.reg (R.DISP_AUXSTAT o) = BitVec.ofNat 32 (2 * 2 + reply.val * 2 ^ 4) ∧ t.eng.flag (R.DISP_AUXCTL_GO o) = false ∧ (t.eng.dsp o).auxSince = none ∧
      t.eng.hasBit (R.E_DISP_AUX_DONE o) = true ∧ Kept s t [R.DISP_AUXCTL o, R.DISP_AUXSTAT o, statusAddr (0xE0 + o)])) ∧
  (∀ (s : State) (o : Fin 2) (data : List Byte) (t0 : Nat), s.eng.running = true → s.eng.disp.length = 2 → s.eng.flag (R.DISP_AUXSTAT_BUSY o) = true → (s.eng.dsp o).auxSince = some t0 →
    bitAt (s.eng.dsp o).auxWord.toNat 0 = true → data.length ≤ bitsOf (s.eng.dsp o).auxWord.toNat 8 4 + 1 →
    Ends (exec (.auxReply o 0 data) s) (fun t => t.eng.reg (R.DISP_AUXSTAT o) = BitVec.ofNat 32 (data.length * 2 ^ 8) ∧
      (∀ i : Fin data.length, bitsOf (t.eng.reg (R.DISP_AUXDATA o (i.val / 4))).toNat (8 * (i.val % 4)) 8 = (nth data i 0).toNat) ∧ t.eng.hasBit (R.E_DISP_AUX_DONE o) = true ∧
      Kept s t ([R.DISP_AUXCTL o, R.DISP_AUXSTAT o, statusAddr (0xE0 + o)] ++ (List.range 4).map (R.DISP_AUXDATA o)))) ∧
  (∀ (s : State) (o : Fin 2) (t0 : Nat), s.eng.running = true → s.eng.disp.length = 2 → s.eng.flag (R.DISP_AUXSTAT_BUSY o) = true → (s.eng.dsp o).auxSince = some t0 → bitAt (s.eng.dsp o).auxWord.toNat 0 = false →
    Ends (exec (.auxReply o 0 []) s) (fun t => t.eng.reg (R.DISP_AUXSTAT o) = BitVec.ofNat 32 ((bitsOf (s.eng.dsp o).auxWord.toNat 8 4 + 1) * 2 ^ 8) ∧ t.eng.hasBit (R.E_DISP_AUX_DONE o) = true ∧
      Kept s t [R.DISP_AUXCTL o, R.DISP_AUXSTAT o, statusAddr (0xE0 + o)])) ∧
  (∀ (s : State) (o : Fin 2) (reply : Fin 16) (b : Byte) (t0 : Nat), s.eng.running = true → s.eng.disp.length = 2 → s.eng.flag (R.DISP_AUXSTAT_BUSY o) = true → (s.eng.dsp o).auxSince = some t0 → reply.val = 1 ∨ reply.val = 4 → bitAt (s.eng.dsp o).auxWord.toNat 0 = false → b.toNat < 17 →
    Ends (exec (.auxReply o reply [b]) s) (fun t => t.eng.reg (R.DISP_AUXSTAT o) = BitVec.ofNat 32 (1 * 2 + reply.val * 2 ^ 4 + b.toNat * 2 ^ 8) ∧ t.eng.flag (R.DISP_AUXCTL_GO o) = false ∧ (t.eng.dsp o).auxSince = none ∧
      t.eng.hasBit (R.E_DISP_AUX_DONE o) = true ∧ Kept s t [R.DISP_AUXCTL o, R.DISP_AUXSTAT o, statusAddr (0xE0 + o)])) ∧
  (∀ (s : State) (o : Fin 2) (reply : Fin 16) (data : List Byte), s.eng.flag (R.DISP_AUXSTAT_BUSY o) = false ∨ (s.eng.dsp o).auxSince = none → exec (.auxReply o reply data) s = .next s) ∧
  (∀ (s : State) (o : Fin 2) (t0 : Nat), s.eng.running = true → s.eng.disp.length = 2 → (s.eng.dsp o).auxSince = some t0 → t0 + 240000 ≤ s.eng.cc →
    Ends (exec (.auxTimeout o) s) (fun t => t.eng.reg (R.DISP_AUXSTAT o) = BitVec.ofNat 32 (3 * 2 + s.eng.fld (R.DISP_AUXSTAT_REPLY o) * 2 ^ 4) ∧ t.eng.flag (R.DISP_AUXCTL_GO o) = false ∧ (t.eng.dsp o).auxSince = none ∧
      t.eng.hasBit (R.E_DISP_AUX_DONE o) = true ∧ Kept s t [R.DISP_AUXCTL o, R.DISP_AUXSTAT o, statusAddr (0xE0 + o)])) ∧
  (∀ (s : State) (o : Fin 2), (s.eng.dsp o).auxSince.all (fun x => decide (s.eng.cc < x + 240000)) = true → exec (.auxTimeout o) s = .next s)

/-- O59. R377, R378, R379, R380, R381, R382, R383, R384, R385, R386, R387, R388, R389, R390, R298: an enabled output takes its shadows into force after their checks and starts a background frame; commits and flips apply at latch points, or are refused with a reason; at the latch point a link that carries the stream is sent its attributes, whose clock ratio is the reduced fraction at the largest Nvid of at most 32,768, and a change of operating point that waits for DO0's vertical blank starts; a lowered refresh adds lines; frames start, fetch and count, and an output that clones follows; an underrun is counted and the first one of a frame logged. The model's choices it rests on: notes/assumptions/10. -/
def Obligations.DisplayFrames : Prop :=
  (∀ (s : State) (o : Fin 2) (port : Port) (v : Word), s.accepts port (R.DISP_CTL o) v = true → s.eng.disp.length = 2 → bitAt v.toNat 0 = true → (s.eng.dsp o).running = false → o.val = 0 ∨ bitAt v.toNat 1 = false →
    s.eng.timingRej o = 0 → s.eng.frameRej o (timingOf (s.eng.shadowTiming o)) = false →
    Ends (exec (.dispEnable port o v) s) (fun t => (t.eng.dsp o).running = true ∧ (t.eng.dsp o).bg = true ∧ (t.eng.dsp o).stage = 0 ∧ (t.eng.dsp o).frameStart = s.eng.nextTick ∧
      [t.eng.reg (R.DISP_CUR_HTIM0 o), t.eng.reg (R.DISP_CUR_HTIM1 o), t.eng.reg (R.DISP_CUR_VTIM0 o), t.eng.reg (R.DISP_CUR_VTIM1 o), t.eng.reg (R.DISP_CUR_PIXDIV o)] = s.eng.shadowTiming o ∧
      t.eng.reg (R.DISP_CUR_FB_BASE_LO o) = s.eng.reg (R.DISP_FB_BASE_LO o) ∧ t.eng.reg (R.DISP_CUR_FB_BASE_HI o) = s.eng.reg (R.DISP_FB_BASE_HI o) ∧ t.eng.reg (R.DISP_CUR_FBCFG o) = s.eng.reg (R.DISP_FBCFG o) ∧
      t.eng.answer = okAnswer port ∧
      Kept s t [R.DISP_CTL o, R.DISP_STATUS o, R.DISP_CUR_HTIM0 o, R.DISP_CUR_HTIM1 o, R.DISP_CUR_VTIM0 o, R.DISP_CUR_VTIM1 o, R.DISP_CUR_PIXDIV o, R.DISP_CUR_FB_BASE_LO o, R.DISP_CUR_FB_BASE_HI o, R.DISP_CUR_FBCFG o])) ∧
  (∀ (s : State) (o : Fin 2) (port : Port) (v : Word), s.accepts port (R.DISP_CTL o) v = true → s.eng.disp.length = 2 → bitAt v.toNat 0 = true → (s.eng.dsp o).running = false → o.val = 0 ∨ bitAt v.toNat 1 = false →
    s.eng.timingRej o ≠ 0 ∨ s.eng.frameRej o (timingOf (s.eng.shadowTiming o)) = true →
    Ends (exec (.dispEnable port o v) s) (fun t => (t.eng.dsp o).running = false ∧ t.eng.fld (R.DISP_STATUS_REJ o) = (if s.eng.timingRej o ≠ 0 then s.eng.timingRej o else 3) ∧
      t.eng.hasBit (R.E_DISP_COMMIT_REJ o) = true ∧ t.eng.answer = okAnswer port ∧ Kept s t [R.DISP_CTL o, R.DISP_STATUS o, statusAddr (0xE0 + o)])) ∧
  (∀ (s : State) (o : Fin 2) (port : Port) (v : Word), s.accepts port (R.DISP_CTL o) v = true → s.eng.disp.length = 2 → bitAt v.toNat 0 = false →
    Ends (exec (.dispEnable port o v) s) (fun t => (t.eng.dsp o).running = false ∧ t.eng.flag (R.DISP_STATUS_BG o) = false ∧ t.eng.flag (R.DISP_STATUS_STRETCH o) = false ∧
      t.eng.reg (R.DISP_FRAMECNT o) = s.eng.reg (R.DISP_FRAMECNT o) ∧ t.eng.answer = okAnswer port ∧ Kept s t [R.DISP_CTL o, R.DISP_STATUS o])) ∧
  (∀ (s : State) (port : Port) (v : Word), s.accepts port (R.DISP_CTL 1) v = true → s.eng.disp.length = 2 → bitAt v.toNat 0 = true → bitAt v.toNat 1 = true → (s.eng.dsp 1).running = false →
    Ends (exec (.dispEnable port 1 v) s) (fun t => (t.eng.dsp 1).running = true ∧ (t.eng.dsp 1).cloning = true ∧ t.eng.flag (R.DISP_STATUS_BG 1) = true ∧ t.eng.answer = okAnswer port ∧ Kept s t [R.DISP_CTL 1, R.DISP_STATUS 1])) ∧
  (∀ (s : State) (o : Fin 2) (port : Port) (v : Word), s.accepts port (R.DISP_CTL o) v = true → bitAt v.toNat 0 = true → (s.eng.dsp o).running = true →
    Ends (exec (.dispEnable port o v) s) (fun t => t.eng.disp = s.eng.disp ∧ t.eng.answer = okAnswer port ∧ Kept s t [R.DISP_CTL o])) ∧
  (∀ (s : State) (o : Fin 2) (port : Port), s.accepts port (0xE001C + 0x1000 * o) 1 = true → o.val = 0 ∨ (s.eng.dsp 1).cloning = false →
    Ends (exec (.pageCommitTiming port o) s) (fun t => t.eng.commitBit o 0 = true ∧ t.eng.disp = s.eng.disp ∧ t.eng.answer = okAnswer port ∧ Kept s t [0xE001C + 0x1000 * o])) ∧
  (∀ (s : State) (o : Fin 2) (port : Port), s.accepts port (0xE001C + 0x1000 * o) 2 = true → o.val = 0 ∨ (s.eng.dsp 1).cloning = false →
    Ends (exec (.pageCommitFrame port o) s) (fun t => t.eng.commitBit o 1 = true ∧ t.eng.disp = s.eng.disp ∧ t.eng.answer = okAnswer port ∧ Kept s t [0xE001C + 0x1000 * o])) ∧
  (∀ (s : State) (port : Port), s.accepts port 0xE101C 1 = true → (s.eng.dsp 1).cloning = true →
    Ends (exec (.pageCommitTiming port 1) s) (fun t => t.eng.commitBit 1 0 = false ∧ t.eng.fld (R.DISP_STATUS_REJ 1) = 4 ∧ t.eng.hasBit (R.E_DISP_COMMIT_REJ 1) = true ∧ t.eng.answer = okAnswer port ∧
      Kept s t [0xE101C, R.DISP_STATUS 1, statusAddr 0xE1])) ∧
  (∀ (s : State) (port : Port), s.accepts port 0xE101C 2 = true → (s.eng.dsp 1).cloning = true →
    Ends (exec (.pageCommitFrame port 1) s) (fun t => t.eng.commitBit 1 1 = false ∧ t.eng.answer = okAnswer port ∧ t.eng.fld (R.DISP_STATUS_REJ 1) = 4 ∧ t.eng.hasBit (R.E_DISP_COMMIT_REJ 1) = true ∧
      Kept s t [0xE101C, R.DISP_STATUS 1, statusAddr 0xE1])) ∧
  (∀ (s : State) (o : Fin 2), s.eng.disp.length = 2 → s.eng.dispDue o 1 = true → s.eng.rota.queue = [] → (s.eng.dsp o).rotaFlip = none → o.val = 1 ∨ s.eng.cis.opWait = false →
    s.eng.commitBit o 0 = true → s.eng.commitBit o 1 = false → s.eng.timingRej o = 0 →
    Ends (exec (.latchPoint o) s) (fun t => (t.eng.dsp o).newTiming = some (s.eng.shadowTiming o) ∧ (t.eng.dsp o).stage = 2 ∧ t.eng.commitBit o 0 = false ∧ t.eng.hasBit (R.E_DISP_TIMING o) = true ∧
      Kept s t [0xE001C + 0x1000 * o, statusAddr (0xE0 + o)])) ∧
  (∀ (s : State) (o : Fin 2), s.eng.disp.length = 2 → s.eng.dispDue o 1 = true → s.eng.rota.queue = [] → (s.eng.dsp o).rotaFlip = none → o.val = 1 ∨ s.eng.cis.opWait = false →
    s.eng.commitBit o 0 = true → s.eng.commitBit o 1 = false → s.eng.timingRej o ≠ 0 →
    Ends (exec (.latchPoint o) s) (fun t => (t.eng.dsp o).newTiming = (s.eng.dsp o).newTiming ∧ t.eng.commitBit o 0 = false ∧ t.eng.fld (R.DISP_STATUS_REJ o) = s.eng.timingRej o ∧
      t.eng.hasBit (R.E_DISP_COMMIT_REJ o) = true ∧ Kept s t [0xE001C + 0x1000 * o, R.DISP_STATUS o, statusAddr (0xE0 + o)])) ∧
  (∀ (s : State) (o : Fin 2), s.eng.disp.length = 2 → s.eng.dispDue o 1 = true → s.eng.rota.queue = [] → (s.eng.dsp o).rotaFlip = none → (s.eng.dsp o).newTiming = none → o.val = 1 ∨ s.eng.cis.opWait = false →
    s.eng.commitBit o 0 = false → s.eng.commitBit o 1 = true → s.eng.settled = false → s.eng.frameRej o (s.eng.curTiming o) = false →
    Ends (exec (.latchPoint o) s) (fun t => (t.eng.dsp o).flipPending = true ∧ (t.eng.dsp o).still = 0 ∧ t.eng.commitBit o 1 = false ∧ t.eng.reg (R.DISP_CUR_FB_BASE_LO o) = s.eng.reg (R.DISP_FB_BASE_LO o) ∧
      t.eng.reg (R.DISP_CUR_FB_BASE_HI o) = s.eng.reg (R.DISP_FB_BASE_HI o) ∧ t.eng.reg (R.DISP_CUR_FBCFG o) = s.eng.reg (R.DISP_FBCFG o) ∧
      Kept s t [0xE001C + 0x1000 * o, R.DISP_CUR_FB_BASE_LO o, R.DISP_CUR_FB_BASE_HI o, R.DISP_CUR_FBCFG o])) ∧
  (∀ (s : State) (o : Fin 2), s.eng.disp.length = 2 → s.eng.dispDue o 1 = true → s.eng.rota.queue = [] → (s.eng.dsp o).rotaFlip = none → (s.eng.dsp o).newTiming = none → o.val = 1 ∨ s.eng.cis.opWait = false →
    s.eng.commitBit o 0 = false → s.eng.commitBit o 1 = true → s.eng.settled = false → s.eng.frameRej o (s.eng.curTiming o) = true →
    Ends (exec (.latchPoint o) s) (fun t => (t.eng.dsp o).flipPending = (s.eng.dsp o).flipPending ∧ t.eng.commitBit o 1 = false ∧ t.eng.fld (R.DISP_STATUS_REJ o) = 3 ∧ t.eng.hasBit (R.E_DISP_COMMIT_REJ o) = true ∧
      Kept s t [0xE001C + 0x1000 * o, R.DISP_STATUS o, statusAddr (0xE0 + o)])) ∧
  (∀ (s : State) (o : Fin 2), s.eng.disp.length = 2 → s.eng.dispDue o 1 = true → s.eng.rota.queue = [] → (s.eng.dsp o).rotaFlip = none → o.val = 1 ∨ s.eng.cis.opWait = false → s.eng.commitBit o 0 = false → s.eng.settled = true →
    Ends (exec (.latchPoint o) s) (fun t => (t.eng.dsp o).stage = 2 ∧ (t.eng.dsp o).flipPending = (s.eng.dsp o).flipPending ∧ Kept s t [])) ∧
  (∀ (s : State) (o : Fin 2) (tb : Tb), s.eng.disp.length = 2 → s.eng.dispDue o 1 = true → s.eng.rota.queue = [] → (s.eng.dsp o).rotaFlip = some tb → tb ≤ s.eng.tbOfTick (s.eng.dispInstant o) → (s.eng.dsp o).newTiming = none → o.val = 1 ∨ s.eng.cis.opWait = false →
    s.eng.commitBit o 0 = false → s.eng.settled = false → s.eng.frameRej o (s.eng.curTiming o) = false →
    Ends (exec (.latchPoint o) s) (fun t => (t.eng.dsp o).flipPending = true ∧ (t.eng.dsp o).rotaFlip = none ∧ (t.eng.dsp o).stage = 2 ∧ t.eng.commitBit o 1 = false ∧ t.eng.reg (R.DISP_CUR_FB_BASE_LO o) = s.eng.reg (R.DISP_FB_BASE_LO o) ∧
      t.eng.reg (R.DISP_CUR_FB_BASE_HI o) = s.eng.reg (R.DISP_FB_BASE_HI o) ∧ t.eng.reg (R.DISP_CUR_FBCFG o) = s.eng.reg (R.DISP_FBCFG o) ∧
      Kept s t [0xE001C + 0x1000 * o, R.DISP_CUR_FB_BASE_LO o, R.DISP_CUR_FB_BASE_HI o, R.DISP_CUR_FBCFG o])) ∧
  (∀ (s : State) (o : Fin 2), s.eng.disp.length = 2 → s.eng.dispDue o 1 = true → s.eng.rota.queue = [] → (s.eng.dsp o).rotaFlip = none → o.val = 1 ∨ s.eng.cis.opWait = false → s.eng.commitBit o 0 = false → s.eng.commitBit o 1 = false →
    Ends (exec (.latchPoint o) s) (fun t => (t.eng.dsp o).stage = 2 ∧ (t.eng.dsp o).flipPending = (s.eng.dsp o).flipPending ∧ t.eng.cis = s.eng.cis ∧
      (∀ q : Fin 2, (t.eng.dsp q).msa = (if (q = o ∨ (o = 0 ∧ (s.eng.dsp 1).running = true ∧ (s.eng.dsp 1).cloning = true)) ∧ s.eng.fld (R.DISP_STATUS_LINK q) = 2 then some (s.eng.msaOf q) else (s.eng.dsp q).msa)) ∧ Kept s t [])) ∧
  (∀ (rate : Fin 4) (k : Fin 256), 12 ≤ k.val → (msaClock rate k).1 * laneRate rate * k = (msaClock rate k).2 * 48000 ∧ (msaClock rate k).2 ≤ 32768 ∧
    (∀ n : Fin 32769, (msaClock rate k).2 < n.val → 48000 * n.val % (laneRate rate * k) ≠ 0)) ∧
  (∀ (s : State) (o : Fin 2), (s.eng.msaOf o).mvid = (msaClock (s.eng.fld (R.DISP_STATUS_TRATE o)) (s.eng.curTiming (s.eng.source o)).k).1 ∧
    (s.eng.msaOf o).nvid = (msaClock (s.eng.fld (R.DISP_STATUS_TRATE o)) (s.eng.curTiming (s.eng.source o)).k).2 ∧ (s.eng.msaOf o).sync = true) ∧
  (∀ (s : State) (op : Nat) (vb : Bool), s.eng.disp.length = 2 → s.eng.dispDue 0 1 = true → s.eng.rota.queue = [] → (s.eng.dsp 0).rotaFlip = none → s.eng.commitBit 0 0 = false → s.eng.commitBit 0 1 = false →
    s.eng.cis.opReq = some (op, vb) → s.eng.cis.opWait = true → s.eng.cisServes = true →
    Ends (exec (.latchPoint 0) s) (fun t => t.eng.cisState = 5 ∧ t.eng.cis.opRun = some op ∧ t.eng.cis.opWait = false ∧ (t.eng.dsp 0).stage = 2 ∧ Kept s t [R.CIS_STATUS])) ∧
  (∀ (s : State) (o : Fin 2), s.eng.disp.length = 2 → s.eng.dispDue o 2 = true → s.eng.mayStretch o = true → s.eng.fld (R.DISP_STATIC_FRAMES o) ≤ (s.eng.dsp o).still → (s.eng.dsp o).newTiming = none →
    (s.eng.curTiming o).vt + (s.eng.dsp o).added < s.eng.fld (R.DISP_STATIC_VTMAX o) → s.eng.rota.queue = [] → (s.eng.dsp o).rotaFlip = none → s.eng.commitBit o 0 = false → s.eng.commitBit o 1 = false →
    Ends (exec (.latchPoint o) s) (fun t => (t.eng.dsp o).added = (s.eng.dsp o).added + 1 ∧ (t.eng.dsp o).stage = 2 ∧ t.eng.flag (R.DISP_STATUS_STRETCH o) = true ∧ Kept s t [R.DISP_STATUS o]) ∧ exec (.vsync o) s = .next s) ∧
  (∀ (s : State) (o : Fin 2), s.eng.dispDue o 1 = false → s.eng.dispDue o 2 = false ∨ s.eng.mayStretch o = false → exec (.latchPoint o) s = .next s) ∧
  (∀ (s : State) (o : Fin 2), s.eng.disp.length = 2 → s.eng.dispDue o 0 = true ∨ s.eng.dispDue o 4 = true → (s.eng.dsp 1).cloning = false → (s.eng.dsp o).newTiming = none →
    Ends (exec (.frameStart o) s) (fun t => t.eng.reg (R.DISP_FRAMECNT o) = s.eng.reg (R.DISP_FRAMECNT o) + 1 ∧ (t.eng.dsp o).frameStart = s.eng.dispInstant o ∧ (t.eng.dsp o).stage = 1 ∧ (t.eng.dsp o).underruns = 0 ∧
      t.eng.flag (R.DISP_STATUS_BG o) = ((s.eng.dsp o).stage == 0 || (s.eng.dsp o).bgNext || s.eng.settled || !s.eng.curFits o (s.eng.curTiming o)) ∧
      (s.eng.reg (R.DISP_FRAMECNT o) = 0xFFFFFFFF → t.eng.hasBit (R.E_DISP_FRAME_WRAP o) = true) ∧ Kept s t [R.DISP_FRAMECNT o, R.DISP_STATUS o, statusAddr (0xE0 + o)])) ∧
  (∀ (s : State) (o : Fin 2) (w0 w1 w2 w3 w4 : Word), s.eng.disp.length = 2 → s.eng.dispDue o 0 = true ∨ s.eng.dispDue o 4 = true → (s.eng.dsp 1).cloning = false → (s.eng.dsp o).newTiming = some [w0, w1, w2, w3, w4] →
    Ends (exec (.frameStart o) s) (fun t => t.eng.reg (R.DISP_FRAMECNT o) = s.eng.reg (R.DISP_FRAMECNT o) + 1 ∧ (t.eng.dsp o).newTiming = none ∧
      [t.eng.reg (R.DISP_CUR_HTIM0 o), t.eng.reg (R.DISP_CUR_HTIM1 o), t.eng.reg (R.DISP_CUR_VTIM0 o), t.eng.reg (R.DISP_CUR_VTIM1 o), t.eng.reg (R.DISP_CUR_PIXDIV o)] = [w0, w1, w2, w3, w4] ∧
      Kept s t [R.DISP_FRAMECNT o, R.DISP_STATUS o, statusAddr (0xE0 + o), R.DISP_CUR_HTIM0 o, R.DISP_CUR_HTIM1 o, R.DISP_CUR_VTIM0 o, R.DISP_CUR_VTIM1 o, R.DISP_CUR_PIXDIV o])) ∧
  (∀ s : State, s.eng.disp.length = 2 → s.eng.dispDue 0 0 = true ∨ s.eng.dispDue 0 4 = true → (s.eng.dsp 1).running = true → (s.eng.dsp 1).cloning = true → (s.eng.dsp 0).newTiming = none →
    Ends (exec (.frameStart 0) s) (fun t => t.eng.reg (R.DISP_FRAMECNT 0) = s.eng.reg (R.DISP_FRAMECNT 0) + 1 ∧ t.eng.reg (R.DISP_FRAMECNT 1) = s.eng.reg (R.DISP_FRAMECNT 1) + 1 ∧ (t.eng.dsp 0).stage = 1 ∧
      t.eng.flag (R.DISP_STATUS_BG 1) = t.eng.flag (R.DISP_STATUS_BG 0) ∧ Kept s t [R.DISP_FRAMECNT 0, R.DISP_FRAMECNT 1, R.DISP_STATUS 0, R.DISP_STATUS 1, statusAddr 0xE0, statusAddr 0xE1])) ∧
  (∀ (s : State) (o : Fin 2), s.eng.dispDue o 0 = false → s.eng.dispDue o 4 = false → exec (.frameStart o) s = .next s) ∧
  (∀ (s : State) (o : Fin 2), s.eng.disp.length = 2 → s.eng.dispDue o 2 = true → s.eng.mayStretch o = false → (s.eng.dsp 1).cloning = false →
    Ends (exec (.vsync o) s) (fun t => t.eng.reg64 (R.DISP_VS_TB_LO o) = s.eng.tbOfTick (s.eng.dispInstant o) ∧ t.eng.path.vsync = s.eng.path.vsync ++ [(s.eng.dispInstant o / 16, o.val, s.eng.dispInstant o % 16)] ∧
      (t.eng.dsp o).stage = 3 ∧ t.eng.hasBit (R.E_DISP_VSYNC o) = true ∧ Kept s t [R.DISP_VS_TB_LO o, R.DISP_VS_TB_HI o, R.DISP_STATUS o, statusAddr (0xE0 + o)])) ∧
  (∀ (s : State) (o : Fin 2), s.eng.dispDue o 2 = false → exec (.vsync o) s = .next s) ∧
  (∀ (s : State) (o : Fin 2), s.eng.disp.length = 2 → s.eng.dispDue o 3 = true → (s.eng.dsp 1).cloning = false → (s.eng.dsp o).flipPending = true →
    Ends (exec (.frameFetchStart o) s) (fun t => t.eng.reg64 (R.DISP_FLIP_TB_LO o) = s.eng.tbOfTick (s.eng.dispInstant o) ∧ t.eng.reg (R.DISP_FLIP_FRAME o) = s.eng.reg (R.DISP_FRAMECNT o) + 1 ∧
      (t.eng.dsp o).stage = 4 ∧ (t.eng.dsp o).flipPending = false ∧ (t.eng.dsp o).fetched = 0 ∧ t.eng.hasBit (R.E_DISP_FLIP o) = true ∧
      Kept s t [R.DISP_FLIP_TB_LO o, R.DISP_FLIP_TB_HI o, R.DISP_FLIP_FRAME o, statusAddr (0xE0 + o)])) ∧
  (∀ (s : State) (o : Fin 2), s.eng.disp.length = 2 → s.eng.dispDue o 3 = true → (s.eng.dsp o).flipPending = false →
    Ends (exec (.frameFetchStart o) s) (fun t => (t.eng.dsp o).stage = 4 ∧ (t.eng.dsp o).fetched = 0 ∧ Kept s t [])) ∧
  (∀ (s : State) (o : Fin 2), s.eng.dispDue o 3 = false → exec (.frameFetchStart o) s = .next s) ∧
  (∀ (s : State) (o : Fin 2) (a : Nat), s.eng.disp.length = 2 → s.eng.running = true → (s.eng.dsp o).running = true → (s.eng.dsp o).cloning = false → (s.eng.dsp o).stage = 4 → (s.eng.dsp o).bgNext = false → s.eng.settled = false →
    (s.eng.dsp o).fetched < s.eng.lineBlocks o * (s.eng.curTiming o).vact → (s.eng.dsp o).fill + (s.eng.dsp o).ahead + 256 ≤ 131072 →
    a = (s.eng.reg64 (R.DISP_CUR_FB_BASE_LO o)).toNat / 256 % 2 ^ 32 * 256 + 256 * s.eng.fld (R.DISP_CUR_FBCFG_STRIDE o) * ((s.eng.dsp o).fetched / s.eng.lineBlocks o) + 256 * ((s.eng.dsp o).fetched % s.eng.lineBlocks o) →
    s.issues (s.eng.pcOf a) = true → (s.eng.pc (s.eng.pcOf a)).rq.length < 32 →
    Ends (exec (.displayFetch o) s) (fun t => (t.eng.dsp o).fetched = (s.eng.dsp o).fetched + 1 ∧ (t.eng.dsp o).ahead = (s.eng.dsp o).ahead + 256 ∧
      (t.eng.pc (s.eng.pcOf a)).rq = (s.eng.pc (s.eng.pcOf a)).rq ++ [{ addr := a, len := 256, reader := .display o.val, urgent := decide ((s.eng.dsp o).fill < 1024 * min 127 (max 1 (s.eng.fld (R.DISP_FETCH_URGMARK o)))), since := s.eng.cc }] ∧ Kept s t [])) ∧
  (∀ (s : State) (o : Fin 2), (s.eng.dsp o).running = false ∨ (s.eng.dsp o).cloning = true ∨ s.eng.settled = true ∨ s.eng.lineBlocks o * (s.eng.curTiming o).vact ≤ (s.eng.dsp o).fetched ∨ s.eng.cisServes = false →
    exec (.displayFetch o) s = .next s) ∧
  (∀ (s : State) (o : Fin 2), s.eng.disp.length = 2 → s.eng.underrunDue o = true → (s.eng.dsp 1).cloning = false →
    Ends (exec (.underrun o) s) (fun t => t.eng.reg (R.DISP_UNDERRUN o) = satAdd (s.eng.reg (R.DISP_UNDERRUN o)) 1 ∧ t.eng.hasBit (R.E_DISP_UNDERRUN o) = true ∧
      (t.eng.dsp o).underLine = some (s.eng.dispLine o (s.eng.nextTick + 15)) ∧
      (t.eng.dsp o).fetched = max (s.eng.dsp o).fetched (s.eng.lineBlocks o * (s.eng.dispLine o (s.eng.nextTick + 15) + 1)) ∧ (t.eng.dsp o).underruns = (s.eng.dsp o).underruns + 1 ∧
      t.eng.detected = (if (s.eng.dsp o).underruns = 0 then s.eng.nowDetected (0xE0 + o) 2 0x0207 (s.eng.dispLine o (s.eng.nextTick + 15)) else s.eng.detected) ∧
      Kept s t [R.DISP_UNDERRUN o, statusAddr (0xE0 + o)])) ∧
  (∀ (s : State) (o : Fin 2), s.eng.underrunDue o = false → exec (.underrun o) s = .next s)

/-! ## Management (R457 to R464) -/

/-- O60. R451, R458, R459, R460, R461, R462, R463, R464: a command of the management port is nothing while the module is unpowered, a fixed NOT_READY while its address is provisional, and is counted from then on; it ends with its status, an error is kept with its code, and a write's status is kept for MSTATUS; a bad PEC, a wrong length, an unimplemented register, a dam and a tank's owner each have theirs. A fuse row is programmed once, or refused with its reason. Samples of temperatures and supplies set their bits and maxima; the second at or above CRIT and the third outside the settle window are causes of settling, and the second at 125 °C of a sensor that trips takes the module to its unpowered state. The model's choices it rests on: notes/assumptions/47, 48, 93, 94. -/
def Obligations.Management : Prop :=
  (∀ s : State, s.eng.mgt.powered = true → s.eng.flag R.MGT_ADDR_SETTLED = true → s.eng.mgtServes = true → s.eng.badParity = [] →
    Ends (exec (.regRead (bytesLE 4 R.TB_LOADVAL_LO)) s) (fun t => t.eng.answer = .mgmt 0 (s.eng.heldReg R.TB_LOADVAL_LO) ∧ t.eng.reg R.MGT_CMDCNT = s.eng.reg R.MGT_CMDCNT + 1 ∧ Kept s t [R.MGT_CMDCNT])) ∧
  (∀ (s : State) (sent : List Byte), s.eng.mgt.powered = true → s.eng.flag R.MGT_ADDR_SETTLED = true → s.eng.mgtServes = true → sent.length ≠ 4 ∨ leNat sent % 4 ≠ 0 →
    Ends (exec (.regRead sent) s) (fun t => (∃ w, t.eng.answer = .mgmt 6 w) ∧ t.eng.reg R.MGT_LASTERR = 0x2006 ∧ t.eng.reg R.MGT_CMDCNT = s.eng.reg R.MGT_CMDCNT + 1 ∧ Kept s t [R.MGT_CMDCNT, R.MGT_LASTERR])) ∧
  (∀ (s : State) (a : Word), s.eng.mgt.powered = true → s.eng.flag R.MGT_ADDR_SETTLED = true → s.eng.mgtServes = true → a.toNat % 4 = 0 → 0x100000 ≤ a.toNat →
    Ends (exec (.regRead (bytesLE 4 a.toNat)) s) (fun t => (∃ w, t.eng.answer = .mgmt 2 w) ∧ t.eng.reg R.MGT_LASTERR = 0x2002 ∧ t.eng.reg R.MGT_CMDCNT = s.eng.reg R.MGT_CMDCNT + 1 ∧ Kept s t [R.MGT_CMDCNT, R.MGT_LASTERR])) ∧
  (∀ (s : State) (sent : List Byte) (ecc : Ecc), s.eng.mgt.powered = true → s.eng.flag R.MGT_ADDR_SETTLED = true → s.eng.mgtServes = false →
    Ends (exec (.regRead sent) s) (fun t => t.eng.answer = .mgmt 1 0 ∧ t.eng.reg R.MGT_LASTERR = 0x2001 ∧ t.eng.reg R.MGT_CMDCNT = s.eng.reg R.MGT_CMDCNT + 1 ∧ Kept s t [R.MGT_CMDCNT, R.MGT_LASTERR]) ∧
    Ends (exec (.tankRead sent ecc) s) (fun t => t.eng.answer = .mgmt 1 0 ∧ t.eng.reg R.MGT_LASTERR = 0x2201 ∧ t.eng.reg R.MGT_CMDCNT = s.eng.reg R.MGT_CMDCNT + 1 ∧ Kept s t [R.MGT_CMDCNT, R.MGT_LASTERR])) ∧
  (∀ (s : State) (sent : List Byte) (ecc : Ecc), s.eng.mgt.powered = true → s.eng.flag R.MGT_ADDR_SETTLED = false →
    Ends (exec (.regRead sent) s) (fun t => t.eng.answer = .mgmt 1 0 ∧ Kept s t []) ∧ Ends (exec (.tankRead sent ecc) s) (fun t => t.eng.answer = .mgmt 1 0 ∧ Kept s t []) ∧
    Ends (exec .mstatus s) (fun t => t.eng.answer = .mstatus 1 ∧ Kept s t [])) ∧
  (∀ (s : State) (v : Word), s.accepts .mgmt R.TB_LOADVAL_LO v = true → s.eng.flag R.MGT_ADDR_SETTLED = true → s.eng.mgtServes = true →
    Ends (exec (.regWrite (bytesLE 4 R.TB_LOADVAL_LO ++ bytesLE 4 v.toNat) true) s) (fun t => t.eng.reg R.TB_LOADVAL_LO = v ∧ t.eng.answer = .done ∧ t.eng.mgt.lastStatus = 0 ∧
      t.eng.reg R.MGT_CMDCNT = s.eng.reg R.MGT_CMDCNT + 1 ∧ Kept s t [R.MGT_CMDCNT, R.TB_LOADVAL_LO])) ∧
  (∀ (s : State) (sent : List Byte) (ecc : Ecc) (collides : Bool), s.eng.mgt.powered = true → s.eng.flag R.MGT_ADDR_SETTLED = true →
    Ends (exec (.regWrite sent false) s) (fun t => t.eng.answer = .nack ∧ t.eng.mgt.lastStatus = 5 ∧ t.eng.reg R.MGT_LASTERR = 0x2105 ∧ t.eng.reg R.MGT_PECERR = satAdd (s.eng.reg R.MGT_PECERR) 1 ∧
      t.eng.hasBit R.E_MGT_PECERR = true ∧ Kept s t [R.MGT_CMDCNT, R.MGT_PECERR, R.MGT_LASTERR, statusAddr 9]) ∧
    Ends (exec (.tankWrite sent false ecc collides) s) (fun t => t.eng.answer = .nack ∧ t.eng.mgt.lastStatus = 5 ∧ t.eng.reg R.MGT_LASTERR = 0x2305 ∧ t.eng.reg R.MGT_PECERR = satAdd (s.eng.reg R.MGT_PECERR) 1 ∧
      t.eng.hasBit R.E_MGT_PECERR = true ∧ Kept s t [R.MGT_CMDCNT, R.MGT_PECERR, R.MGT_LASTERR, statusAddr 9])) ∧
  (∀ (s : State) (sent : List Byte) (ecc : Ecc) (collides : Bool), s.eng.mgt.powered = true → s.eng.flag R.MGT_ADDR_SETTLED = true → s.eng.mgtServes = true → sent.length ≠ 8 →
    Ends (exec (.regWrite sent true) s) (fun t => t.eng.answer = .done ∧ t.eng.mgt.lastStatus = 6 ∧ t.eng.reg R.MGT_LASTERR = 0x2106 ∧ t.eng.reg R.MGT_CMDCNT = s.eng.reg R.MGT_CMDCNT + 1 ∧ Kept s t [R.MGT_CMDCNT, R.MGT_LASTERR]) ∧
    Ends (exec (.tankWrite sent true ecc collides) s) (fun t => t.eng.answer = .done ∧ t.eng.mgt.lastStatus = 6 ∧ t.eng.reg R.MGT_LASTERR = 0x2306 ∧ t.eng.reg R.MGT_CMDCNT = s.eng.reg R.MGT_CMDCNT + 1 ∧ Kept s t [R.MGT_CMDCNT, R.MGT_LASTERR])) ∧
  (∀ (s : State) (a v : Word), s.eng.mgt.powered = true → s.eng.flag R.MGT_ADDR_SETTLED = true → s.eng.mgtServes = true → a.toNat % 4 = 0 → s.eng.dammed = true → damWrite .mgmt a.toNat v.toNat = false →
    Ends (exec (.regWrite (bytesLE 4 a.toNat ++ bytesLE 4 v.toNat) true) s) (fun t => t.eng.answer = .done ∧ t.eng.mgt.lastStatus = 8 ∧ t.eng.reg R.MGT_LASTERR = 0x2108 ∧
      t.eng.reg R.DAM_WDISC = satAdd (s.eng.reg R.DAM_WDISC) 1 ∧ Kept s t [R.MGT_CMDCNT, R.MGT_LASTERR, R.DAM_WDISC])) ∧
  (∀ (s : State) (a : Nat) (ecc : Ecc), s.eng.mgt.powered = true → s.eng.flag R.MGT_ADDR_SETTLED = true → s.eng.mgtServes = true → a < 0x1000000 → s.eng.mgtTankStatus a false false = 0 → s.eng.wordError (a / 8) = .good → ecc ≠ .double →
    Ends (exec (.tankRead (bytesLE 4 a) ecc) s) (fun t => t.eng.answer = .mgmt 0 (BitVec.ofNat 32 (readLE s.chip.tanks a 4)) ∧ t.eng.reg R.MGT_CMDCNT = s.eng.reg R.MGT_CMDCNT + 1 ∧
      t.eng.reg (R.TANK_CE (a / tankSize)) = satAdd (s.eng.reg (R.TANK_CE (a / tankSize))) (if ecc = .single then 1 else 0) ∧ t.eng.wordError (a / 8) = .good ∧ Kept s t (R.MGT_CMDCNT :: R.TANK_RETSTAT :: tankEccRegs))) ∧
  (∀ (s : State) (a : Nat), s.eng.mgt.powered = true → s.eng.flag R.MGT_ADDR_SETTLED = true → s.eng.mgtServes = true → a < 0x1000000 → s.eng.mgtTankStatus a false false = 0 →
    Ends (exec (.tankRead (bytesLE 4 a) .double) s) (fun t => (∃ st w, t.eng.answer = .mgmt st w) ∧ t.eng.reg (R.TANK_UE (a / tankSize)) = satAdd (s.eng.reg (R.TANK_UE (a / tankSize))) 1 ∧
      t.eng.hasBit R.E_TANK_UE = true ∧ Kept s t (R.MGT_CMDCNT :: R.MGT_LASTERR :: R.TANK_RETSTAT :: tankEccRegs))) ∧
  (∀ (s : State) (a st : Nat) (ecc : Ecc), s.eng.mgt.powered = true → s.eng.flag R.MGT_ADDR_SETTLED = true → s.eng.mgtServes = true → a < 2 ^ 32 → s.eng.mgtTankStatus a false false = st → st ≠ 0 →
    Ends (exec (.tankRead (bytesLE 4 a) ecc) s) (fun t => (∃ w, t.eng.answer = .mgmt st w) ∧ t.eng.reg R.MGT_LASTERR = BitVec.ofNat 32 (st + 0x22 * 2 ^ 8) ∧
      (st = 7 → t.eng.hasBit R.E_TANK_HOSTVIOL = true ∧ t.eng.reg R.TANK_LASTVIOL = BitVec.ofNat 32 (a / tankSize + 2 ^ 6 + s.eng.owner (a / tankSize) * 2 ^ 8)) ∧ t.eng.tank = s.eng.tank ∧
      Kept s t [R.MGT_CMDCNT, R.MGT_LASTERR, R.TANK_LASTVIOL, statusAddr 0xC0])) ∧
  (∀ (s : State) (a : Nat) (v : Word), s.eng.mgt.powered = true → s.eng.flag R.MGT_ADDR_SETTLED = true → s.eng.mgtServes = true → a < 0x1000000 → s.eng.mgtTankStatus a false true = 0 → s.eng.path.pipe = [] → s.eng.wordError (a / 8) = .good → s.eng.mirrorOf (a / tankSize) = none →
    Ends (exec (.tankWrite (bytesLE 4 a ++ bytesLE 4 v.toNat) true .good false) s) (fun t => readLE t.chip.tanks a 4 = v.toNat ∧ TankKept s t (fun b => decide (b < a) || decide (a + 4 ≤ b)) ∧
      t.eng.answer = .done ∧ t.eng.mgt.lastStatus = 0 ∧ t.eng.reg R.MGT_CMDCNT = s.eng.reg R.MGT_CMDCNT + 1 ∧ RegsKept s t (fun r => r != R.MGT_CMDCNT && r != R.TANK_RETSTAT) ∧ t.chip.cistern = s.chip.cistern ∧ t.eng.tb = s.eng.tb ∧ t.pending = s.pending)) ∧
  (∀ (s : State) (a st : Nat) (v : Word) (ecc : Ecc) (collides : Bool), s.eng.mgt.powered = true → s.eng.flag R.MGT_ADDR_SETTLED = true → s.eng.mgtServes = true → a < 2 ^ 32 → s.eng.mgtTankStatus a false true = st → st ≠ 0 →
    Ends (exec (.tankWrite (bytesLE 4 a ++ bytesLE 4 v.toNat) true ecc collides) s) (fun t => t.eng.mgt.lastStatus = st ∧ t.eng.answer = .done ∧ t.eng.reg R.MGT_LASTERR = BitVec.ofNat 32 (st + 0x23 * 2 ^ 8) ∧
      (st = 7 → t.eng.hasBit R.E_TANK_HOSTVIOL = true ∧ t.eng.reg R.TANK_LASTVIOL = BitVec.ofNat 32 (a / tankSize + 2 ^ 6 + 2 ^ 7 + s.eng.owner (a / tankSize) * 2 ^ 8)) ∧ t.eng.tank = s.eng.tank ∧
      Kept s t [R.MGT_CMDCNT, R.MGT_LASTERR, R.TANK_LASTVIOL, statusAddr 0xC0])) ∧
  (∀ s : State, s.eng.mgt.powered = true → s.eng.flag R.MGT_ADDR_SETTLED = true →
    Ends (exec .mstatus s) (fun t => t.eng.answer = .mstatus (BitVec.ofNat 16 ((if s.eng.mgtServes = true then s.eng.mgt.lastStatus else 1) +
        ((s.eng.flag R.SYS_STATUS_READY).toNat + s.eng.settled.toNat * 2 + s.eng.dammed.toNat * 4 + s.eng.alertLow.toNat * 8 + s.eng.pos * 16) * 256)) ∧
      (s.eng.mgtServes = false → t.eng.reg R.MGT_LASTERR = 0x2401) ∧ t.eng.reg R.MGT_CMDCNT = s.eng.reg R.MGT_CMDCNT + 1 ∧ Kept s t (if s.eng.mgtServes then [R.MGT_CMDCNT] else [R.MGT_CMDCNT, R.MGT_LASTERR]))) ∧
  (∀ (s : State) (sent : List Byte) (pec collides : Bool) (ecc : Ecc), s.eng.mgt.powered = false → exec .mstatus s = .next s ∧ exec (.regRead sent) s = .next s ∧ exec (.tankRead sent ecc) s = .next s ∧
    exec (.regWrite sent pec) s = .next s ∧ exec (.tankWrite sent pec ecc collides) s = .next s) ∧
  (∀ (s : State) (port : Port), s.accepts port R.MGT_FUSECTL 0x5AFE0001 = true → s.eng.mgt.prog = none → s.eng.fuseReason = 0 →
    Ends (exec (.fuseProg port 0x5AFE) s) (fun t => t.eng.mgt.prog = some ((List.range 7).map (fun k => s.eng.reg (R.MGT_FUSEDATA k)) ++ [rowCrc ((List.range 7).map (fun k => s.eng.reg (R.MGT_FUSEDATA k)))]) ∧
      t.eng.flag R.MGT_FUSESTAT_BUSY = true ∧ t.eng.flag R.MGT_FUSECTL_PROG = true ∧ t.eng.fld R.MGT_FUSESTAT_REJ = 0 ∧ t.eng.fld R.MGT_FUSESTAT_RESULT = 0 ∧ t.eng.answer = okAnswer port ∧
      Kept s t [R.MGT_FUSECTL, R.MGT_FUSESTAT])) ∧
  (∀ (s : State) (port : Port) (key : BitVec 16), s.accepts port R.MGT_FUSECTL (BitVec.ofNat 32 (1 + key.toNat * 2 ^ 16)) = true → s.eng.mgt.prog = none → s.eng.fuseReason ≠ 0 ∨ key ≠ 0x5AFE →
    Ends (exec (.fuseProg port key) s) (fun t => t.eng.mgt = s.eng.mgt ∧ t.eng.fld R.MGT_FUSESTAT_REJ = (if s.eng.fuseReason ≠ 0 then s.eng.fuseReason else 4) ∧ t.eng.fld R.MGT_FUSESTAT_RESULT = 3 ∧
      t.eng.flag R.MGT_FUSECTL_PROG = false ∧ t.eng.answer = okAnswer port ∧
      Kept s t [R.MGT_FUSECTL, R.MGT_FUSESTAT])) ∧
  (∀ (s : State) (port : Port) (key : BitVec 16), s.accepts port R.MGT_FUSECTL (BitVec.ofNat 32 (1 + key.toNat * 2 ^ 16)) = true → s.eng.mgt.prog.isSome = true →
    Ends (exec (.fuseProg port key) s) (fun t => t.eng.mgt = s.eng.mgt ∧ t.eng.answer = okAnswer port ∧ Kept s t [R.MGT_FUSECTL])) ∧
  (∀ (s : State) (ok : Bool) (l : List Word) (r : Fin 4), s.eng.mgt.powered = true → s.eng.mgt.prog = some l → s.eng.mgt.rows.length = 4 → s.eng.mgt.bad.length = 4 → (∀ q : Fin 4, q < r → nth s.eng.mgt.rows q none ≠ none) →
    nth s.eng.mgt.rows r none = none →
    Ends (exec (.fuseProgDone ok) s) (fun t => t.eng.mgt.rows = s.eng.mgt.rows.set r (some l) ∧ t.eng.mgt.bad = s.eng.mgt.bad.set r (!ok) ∧ t.eng.mgt.prog = none ∧ t.eng.flag R.MGT_FUSESTAT_BUSY = false ∧
      bitAt (t.eng.fld R.MGT_FUSESTAT_USED) r = true ∧ bitAt (t.eng.fld R.MGT_FUSESTAT_BAD) r = !ok ∧ t.eng.flag R.MGT_FUSECTL_PROG = false ∧
      t.eng.fld R.MGT_FUSESTAT_RESULT = (if ok then 1 else 2) ∧ t.eng.hasBit R.E_MGT_FUSE_DONE = true ∧ Kept s t [R.MGT_FUSECTL, R.MGT_FUSESTAT, statusAddr 9])) ∧
  (∀ (s : State) (ok : Bool), s.eng.mgt.prog = none → exec (.fuseProgDone ok) s = .next s) ∧
  (∀ (s : State) (n : Fin 8) (v : BitVec 16), s.eng.mgt.powered = true → s.eng.tripDue = false → n.val ≠ 5 ∨ 2 ≤ s.eng.stackCount → v.toInt < 16 * 125 → s.eng.mgt.crit.length = 8 →
    Ends (exec (.temperatureSample n v) s) (fun t => t.eng.reg (R.THRM_TEMP n) = BitVec.ofNat 32 (v.toNat + 2 ^ 16) ∧
      t.eng.fld (R.THRM_TMAX_DEGC n) = (if signedOf 16 (s.eng.fld (R.THRM_TMAX_DEGC n)) < v.toInt ∨ s.eng.fld (R.THRM_TMAX_DEGC n) = 0 then v.toNat else s.eng.fld (R.THRM_TMAX_DEGC n)) ∧
      bitAt (t.eng.fld R.THRM_STATUS_WARN) n = decide (16 * s.eng.limits.2.1 < v.toInt) ∧ bitAt (t.eng.fld R.THRM_STATUS_CRIT) n = decide (16 * s.eng.limits.2.2 ≤ v.toInt) ∧
      (16 * s.eng.limits.2.1 < v.toInt → bitAt (s.eng.fld R.THRM_STATUS_WARN) n = false → t.eng.hasBit R.E_THRM_TEMP_WARN = true) ∧
      nth t.eng.mgt.crit n 0 = (if 16 * s.eng.limits.2.2 ≤ v.toInt then nth s.eng.mgt.crit n 0 + 1 else 0) ∧
      (16 * s.eng.limits.2.2 ≤ v.toInt → nth s.eng.mgt.crit n 0 = 1 → t.eng.hasBit R.E_THRM_TEMP_CRIT = true) ∧
      t.eng.causes = s.eng.causes ++ (if 16 * s.eng.limits.2.2 ≤ v.toInt ∧ nth s.eng.mgt.crit n 0 = 1 then [⟨5, (BitVec.ofInt 32 (v.toInt / 16)).toNat, 0xA⟩] else []) ∧
      Kept s t [R.THRM_TEMP n, R.THRM_TMAX n, R.THRM_STATUS, statusAddr 0xA])) ∧
  (∀ (s : State) (n : Fin 8) (v : BitVec 16), s.eng.mgt.powered = true → n.val ≠ 4 → n.val ≠ 5 → s.eng.mgt.trip.length = 8 → 1 ≤ nth s.eng.mgt.trip n 0 → 16 * 125 ≤ v.toInt →
    Ends (exec (.temperatureSample n v) s) (fun t => t.eng.mgt.powered = false ∧ t.eng.mgt.tripped = true ∧ t.eng.flag R.THRM_STATUS_TRIPPED = true ∧ t.chip.tanks = [] ∧ t.chip.cistern = [] ∧ t.eng.tb = 0 ∧
      RegsReset t (fun a => !([R.SYS_IDENT, R.SYS_BUDGET_HI, R.RING_ID_LO, R.RING_ID_LO + 4, R.THRM_STATUS].contains a)) ∧ t.pending = s.pending)) ∧
  (∀ (s : State) (n : Fin 8) (v : BitVec 16), s.eng.mgt.powered = false ∨ (n.val = 5 ∧ s.eng.stackCount < 2 ∧ s.eng.tripDue = false) → exec (.temperatureSample n v) s = .next s) ∧
  (∀ (s : State) (r : Fin 12) (mv : BitVec 16), s.eng.mgt.powered = true → s.eng.mgt.warnRun.length = 12 → s.eng.mgt.outRun.length = 12 →
    Ends (exec (.supplySample r mv) s) (fun t => t.eng.fld (R.THRM_SUPPLY_MV r) = mv.toNat ∧
      nth t.eng.mgt.warnRun r 0 = (if s.eng.railOutside r mv.toNat false then nth s.eng.mgt.warnRun r 0 + 1 else 0) ∧ nth t.eng.mgt.outRun r 0 = (if s.eng.railOutside r mv.toNat true then nth s.eng.mgt.outRun r 0 + 1 else 0) ∧
      bitAt (t.eng.fld R.THRM_SUPSTAT_WARN) r = (if s.eng.railOutside r mv.toNat false then bitAt (s.eng.fld R.THRM_SUPSTAT_WARN) r || decide (2 ≤ nth s.eng.mgt.warnRun r 0) else false) ∧
      bitAt (t.eng.fld R.THRM_SUPSTAT_OUT) r = (if s.eng.railOutside r mv.toNat true then bitAt (s.eng.fld R.THRM_SUPSTAT_OUT) r || decide (2 ≤ nth s.eng.mgt.outRun r 0) else false) ∧
      (s.eng.railOutside r mv.toNat false = true → nth s.eng.mgt.warnRun r 0 = 2 → t.eng.hasBit R.E_THRM_SUP_WARN = true) ∧
      (s.eng.railOutside r mv.toNat true = true → nth s.eng.mgt.outRun r 0 = 2 → t.eng.hasBit R.E_THRM_SUP_OUT = true) ∧
      t.eng.causes = s.eng.causes ++ (if s.eng.railOutside r mv.toNat true = true ∧ nth s.eng.mgt.outRun r 0 = 2 then [⟨4, r.val, 0xA⟩] else []) ∧
      Kept s t [R.THRM_SUPPLY r, R.THRM_SUPSTAT, statusAddr 0xA])) ∧
  (∀ (s : State) (r : Fin 12) (mv : BitVec 16), s.eng.mgt.powered = false → exec (.supplySample r mv) s = .next s)
end

