-- ==== Sys2Proof/Laws/Memory.lean ====
section
/-! SUPPORT. Sparse maps, byte memories and the register file: what is read after a write, and that the canonical form is kept. -/
namespace Sys2Proof.Machine

section Maps
variable {α : Type}

@[simp] theorem mapFind_nil (k : Nat) : mapFind ([] : List (Nat × α)) k = none := rfl

theorem mapFind_append (a b : List (Nat × α)) (k : Nat) : mapFind (a ++ b) k = (mapFind a k).or (mapFind b k) := by
  simp [mapFind, List.find?_append, Option.map_or]

/-- A key is absent exactly where no pair bears it. -/
theorem mapFind_eq_none {l : List (Nat × α)} {k : Nat} : mapFind l k = none ↔ ∀ p ∈ l, p.1 ≠ k := by
  simp [mapFind]

theorem mapFind_insert_same (k : Nat) (v : α) (l : List (Nat × α)) : mapFind (mapInsert k v l) k = some v := by
  have below : mapFind (l.takeWhile (fun p => decide (p.1 < k))) k = none :=
    mapFind_eq_none.2 fun p hp => Nat.ne_of_lt (by simpa using List.mem_takeWhile_imp hp)
  rw [mapInsert, mapFind_append, below]; simp [mapFind]

theorem mapFind_insert_ne (k j : Nat) (v : α) (l : List (Nat × α)) (h : j ≠ k) : mapFind (mapInsert k v l) j = mapFind l j := by
  conv_rhs => rw [← List.takeWhile_append_dropWhile (p := fun p => decide (p.1 < k)) (l := l)]
  rw [mapInsert, mapFind_append, mapFind_append]; simp [mapFind, Ne.symm h]

theorem mapFind_erase_same (k : Nat) (l : List (Nat × α)) : mapFind (mapErase k l) k = none :=
  mapFind_eq_none.2 (by simp [mapErase])

theorem mapFind_erase_ne (k j : Nat) (l : List (Nat × α)) (h : j ≠ k) : mapFind (mapErase k l) j = mapFind l j := by
  have other : ∀ p : Nat × α, decide ((p.1 != k) = true ∧ (p.1 == j) = true) = (p.1 == j) := by
    intro p; by_cases e : p.1 = j <;> simp [e, h]
  simp only [mapFind, mapErase, List.find?_filter, other]

/-! The canonical form: keys rise. -/

theorem keysRise_iff (l : List (Nat × α)) : keysRise l = true ↔ l.IsChain (fun p q => p.1 < q.1) := decide_eq_true_iff

/-- Rising keys rise over any distance. -/
theorem keysRise_pairwise (l : List (Nat × α)) : keysRise l = true ↔ l.Pairwise (fun p q => p.1 < q.1) := by
  have tr : IsTrans (Nat × α) (fun p q => p.1 < q.1) := ⟨fun _ _ _ => Nat.lt_trans⟩
  rw [keysRise_iff]; exact List.isChain_iff_pairwise

theorem keysRise_filter (f : Nat × α → Bool) {l : List (Nat × α)} (h : keysRise l = true) : keysRise (l.filter f) = true :=
  (keysRise_pairwise _).2 (((keysRise_pairwise _).1 h).sublist List.filter_sublist)

theorem mem_mapInsert {k : Nat} {v : α} {l : List (Nat × α)} {q : Nat × α} : q ∈ mapInsert k v l ↔ q = (k, v) ∨ q ∈ l := by
  conv_rhs => rw [← List.takeWhile_append_dropWhile (p := fun p => decide (p.1 < k)) (l := l)]
  simp only [mapInsert, List.mem_append, List.mem_cons]; tauto

theorem keysRise_insert (k : Nat) (v : α) {l : List (Nat × α)} (h : keysRise l = true) (hk : mapFind l k = none) : keysRise (mapInsert k v l) = true := by
  rw [keysRise_pairwise] at *
  have above : ∀ q ∈ l.dropWhile (fun p => decide (p.1 < k)), k < q.1 := by
    intro q hq
    rcases e : l.dropWhile (fun p => decide (p.1 < k)) with _ | ⟨r, t⟩
    · simp [e] at hq
    have sub := (List.dropWhile_sublist (l := l) (fun p => decide (p.1 < k)))
    rw [e] at hq sub
    have first : k < r.1 := by
      have h1 := List.head?_dropWhile_not (fun p : Nat × α => decide (p.1 < k)) l
      have h2 := mapFind_eq_none.1 hk r (sub.subset (by simp))
      simp [e] at h1; omega
    rcases List.mem_cons.1 hq with rfl | hq
    · exact first
    · exact Nat.lt_trans first (List.rel_of_pairwise_cons (h.sublist sub) hq)
  have below : ∀ p ∈ l.takeWhile (fun p => decide (p.1 < k)), p.1 < k := fun p hp => by simpa using List.mem_takeWhile_imp hp
  rw [mapInsert, List.pairwise_append, List.pairwise_cons]
  refine ⟨h.sublist (List.takeWhile_sublist _), ⟨above, h.sublist (List.dropWhile_sublist _)⟩, fun p hp q hq => ?_⟩
  rcases List.mem_cons.1 hq with rfl | hq
  · exact below p hp
  · exact Nat.lt_trans (below p hp) (above q hq)

variable [DecidableEq α]

/-- Reading back a key that was set. -/
@[simp] theorem getD_mapSet_same (d : α) (l : List (Nat × α)) (k : Nat) (v : α) : (mapFind (mapSet d l k v) k).getD d = v := by
  unfold mapSet
  split
  · rename_i h; rw [mapFind_erase_same]; simp [h]
  · rw [mapFind_insert_same]; rfl

/-- Setting a key leaves every other key alone. -/
theorem mapFind_mapSet_ne (d : α) (l : List (Nat × α)) (k j : Nat) (v : α) (h : j ≠ k) : mapFind (mapSet d l k v) j = mapFind l j := by
  unfold mapSet
  split
  · exact mapFind_erase_ne k j l h
  · rw [mapFind_insert_ne _ _ _ _ h, mapFind_erase_ne k j l h]

/-- Setting a key keeps the keys rising. -/
theorem keysRise_mapSet (d : α) {l : List (Nat × α)} (k : Nat) (v : α) (h : keysRise l = true) : keysRise (mapSet d l k v) = true := by
  unfold mapSet
  split
  · exact keysRise_filter _ h
  · exact keysRise_insert k v (keysRise_filter _ h) (mapFind_erase_same k l)

/-- Setting a key lists no default. -/
theorem mapSet_no_default (d : α) {l : List (Nat × α)} (k : Nat) (v : α) (h : ∀ p ∈ l, p.2 ≠ d) : ∀ p ∈ mapSet d l k v, p.2 ≠ d := by
  intro p hp
  unfold mapSet at hp
  split at hp
  · exact h p (List.mem_of_mem_filter hp)
  · rename_i hv
    rcases mem_mapInsert.1 hp with rfl | hp
    · exact hv
    · exact h p (List.mem_of_mem_filter hp)

end Maps

/-! Byte memories. -/

theorem Memory.wf_iff (m : Memory) : Memory.wf m = true ↔ keysRise m = true ∧ ∀ p ∈ m, p.2 ≠ 0 := by
  simp [Memory.wf, List.all_eq_true]

@[simp] theorem Memory.wf_nil : Memory.wf [] = true := rfl

/-- A byte that was written reads back. -/
@[simp] theorem readByte_writeByte_same (m : Memory) (a : Nat) (v : Byte) : readByte (writeByte m a v) a = v := getD_mapSet_same 0 m a v

/-- A write of one byte leaves every other byte alone. -/
theorem readByte_writeByte_ne (m : Memory) {a b : Nat} (v : Byte) (h : b ≠ a) : readByte (writeByte m a v) b = readByte m b := by
  unfold readByte writeByte; rw [mapFind_mapSet_ne 0 m a b v h]

/-- A write of one byte keeps the canonical form. -/
theorem writeByte_wf {m : Memory} (a : Nat) (v : Byte) (h : Memory.wf m = true) : Memory.wf (writeByte m a v) = true := by
  rw [Memory.wf_iff] at *
  exact ⟨keysRise_mapSet 0 a v h.1, mapSet_no_default 0 a v h.2⟩

/-- A write of several bytes keeps the canonical form. -/
theorem writeBytes_wf {m : Memory} (a : Nat) (l : List Byte) (h : Memory.wf m = true) : Memory.wf (writeBytes m a l) = true := by
  induction l generalizing m a with
  | nil => exact h
  | cons b l ih => exact ih (a + 1) (writeByte_wf a b h)

theorem writeLE_wf {m : Memory} (a n x : Nat) (h : Memory.wf m = true) : Memory.wf (writeLE m a n x) = true := writeBytes_wf a _ h

/-- Dropping entries keeps the canonical form. -/
theorem filter_wf {m : Memory} (f : Host.Cell → Bool) (h : Memory.wf m = true) : Memory.wf (List.filter f m) = true := by
  rw [Memory.wf_iff] at *
  exact ⟨keysRise_filter f h.1, fun p hp => h.2 p (List.mem_of_mem_filter hp)⟩

/-- Zeroing a range keeps the canonical form. -/
theorem zeroRange_wf {m : Memory} (lo hi : Nat) (h : Memory.wf m = true) : Memory.wf (zeroRange m lo hi) = true := filter_wf _ h

/-- Bytes outside a write of several bytes read as before. -/
theorem readByte_writeBytes_outside (m : Memory) (a b : Nat) (l : List Byte) (h : b < a ∨ a + l.length ≤ b) : readByte (writeBytes m a l) b = readByte m b := by
  induction l generalizing m a with
  | nil => rfl
  | cons x l ih =>
    simp only [List.length_cons] at h
    unfold writeBytes
    rw [ih (writeByte m a x) (a + 1) (by omega), readByte_writeByte_ne m x (by omega)]

/-- Byte i of a write of several bytes reads back. -/
theorem readByte_writeBytes_inside (m : Memory) (a i : Nat) (l : List Byte) (h : i < l.length) : readByte (writeBytes m a l) (a + i) = l[i] := by
  induction l generalizing m a i with
  | nil => simp at h
  | cons x l ih =>
    unfold writeBytes
    cases i with
    | zero => rw [Nat.add_zero, readByte_writeBytes_outside _ _ _ _ (Or.inl (by omega))]; simp
    | succ i =>
      have := ih (writeByte m a x) (a + 1) i (by simpa using h)
      rw [show a + (i + 1) = a + 1 + i by omega, this]; rfl

/-! The register file. -/

/-- A register that was set reads back. -/
@[simp] theorem Engine.reg_setReg_same (m : Engine) (a : Nat) (v : Word) : (m.setReg a v).reg a = v := getD_mapSet_same (resetVal a) m.regs a v

/-- Setting a register leaves every other register alone. -/
theorem Engine.reg_setReg_ne (m : Engine) {a b : Nat} (v : Word) (h : b ≠ a) : (m.setReg a v).reg b = m.reg b := by
  unfold Engine.reg Engine.setReg; rw [mapFind_mapSet_ne (resetVal a) m.regs a b v h]

theorem Engine.reg_setReg (m : Engine) (a b : Nat) (v : Word) : (m.setReg a v).reg b = if b = a then v else m.reg b := by
  split
  · rename_i h; subst h; exact m.reg_setReg_same b v
  · rename_i h; exact m.reg_setReg_ne v h

/-- Setting a field leaves every other register alone. -/
theorem Engine.reg_setFld_ne (m : Engine) (f : Field) (v : Nat) {b : Nat} (h : b ≠ f.addr) : (m.setFld f v).reg b = m.reg b := m.reg_setReg_ne _ h

theorem Engine.reg_setFlag_ne (m : Engine) (f : Field) (v : Bool) {b : Nat} (h : b ≠ f.addr) : (m.setFlag f v).reg b = m.reg b := m.reg_setReg_ne _ h

end Sys2Proof.Machine
end

