-- ==== Sys2Proof/Laws/State.lean ====
section
/-! SUPPORT. One lemma per field of the engine and named update: the update leaves the field as it is, or sets it. -/
namespace Sys2Proof.Machine

/-! `setReg`. -/

@[simp] theorem Engine.setReg_held (m : Engine) (a : Nat) (v : Word) : (m.setReg a v).held = m.held := rfl
@[simp] theorem Engine.setReg_badParity (m : Engine) (a : Nat) (v : Word) : (m.setReg a v).badParity = m.badParity := rfl
@[simp] theorem Engine.setReg_running (m : Engine) (a : Nat) (v : Word) : (m.setReg a v).running = m.running := rfl
@[simp] theorem Engine.setReg_first (m : Engine) (a : Nat) (v : Word) : (m.setReg a v).first = m.first := rfl
@[simp] theorem Engine.setReg_cc (m : Engine) (a : Nat) (v : Word) : (m.setReg a v).cc = m.cc := rfl
@[simp] theorem Engine.setReg_tb (m : Engine) (a : Nat) (v : Word) : (m.setReg a v).tb = m.tb := rfl
@[simp] theorem Engine.setReg_intakes (m : Engine) (a : Nat) (v : Word) : (m.setReg a v).intakes = m.intakes := rfl
@[simp] theorem Engine.setReg_tableSet (m : Engine) (a : Nat) (v : Word) : (m.setReg a v).tableSet = m.tableSet := rfl
@[simp] theorem Engine.setReg_tableChanges (m : Engine) (a : Nat) (v : Word) : (m.setReg a v).tableChanges = m.tableChanges := rfl
@[simp] theorem Engine.setReg_path (m : Engine) (a : Nat) (v : Word) : (m.setReg a v).path = m.path := rfl
@[simp] theorem Engine.setReg_gateOrders (m : Engine) (a : Nat) (v : Word) : (m.setReg a v).gateOrders = m.gateOrders := rfl
@[simp] theorem Engine.setReg_causes (m : Engine) (a : Nat) (v : Word) : (m.setReg a v).causes = m.causes := rfl
@[simp] theorem Engine.setReg_gate (m : Engine) (a : Nat) (v : Word) : (m.setReg a v).gate = m.gate := rfl
@[simp] theorem Engine.setReg_store (m : Engine) (a : Nat) (v : Word) : (m.setReg a v).store = m.store := rfl
@[simp] theorem Engine.setReg_rota (m : Engine) (a : Nat) (v : Word) : (m.setReg a v).rota = m.rota := rfl
@[simp] theorem Engine.setReg_tank (m : Engine) (a : Nat) (v : Word) : (m.setReg a v).tank = m.tank := rfl
@[simp] theorem Engine.setReg_slewEnd (m : Engine) (a : Nat) (v : Word) : (m.setReg a v).slewEnd = m.slewEnd := rfl
@[simp] theorem Engine.setReg_lost (m : Engine) (a : Nat) (v : Word) : (m.setReg a v).lost = m.lost := rfl
@[simp] theorem Engine.setReg_ring (m : Engine) (a : Nat) (v : Word) : (m.setReg a v).ring = m.ring := rfl
@[simp] theorem Engine.setReg_dam (m : Engine) (a : Nat) (v : Word) : (m.setReg a v).dam = m.dam := rfl
@[simp] theorem Engine.setReg_cis (m : Engine) (a : Nat) (v : Word) : (m.setReg a v).cis = m.cis := rfl
@[simp] theorem Engine.setReg_disp (m : Engine) (a : Nat) (v : Word) : (m.setReg a v).disp = m.disp := rfl
@[simp] theorem Engine.setReg_host (m : Engine) (a : Nat) (v : Word) : (m.setReg a v).host = m.host := rfl
@[simp] theorem Engine.setReg_mgt (m : Engine) (a : Nat) (v : Word) : (m.setReg a v).mgt = m.mgt := rfl
@[simp] theorem Engine.setReg_lostSince (m : Engine) (a : Nat) (v : Word) : (m.setReg a v).lostSince = m.lostSince := rfl
@[simp] theorem Engine.setReg_lostTb (m : Engine) (a : Nat) (v : Word) : (m.setReg a v).lostTb = m.lostTb := rfl
@[simp] theorem Engine.setReg_settledAt (m : Engine) (a : Nat) (v : Word) : (m.setReg a v).settledAt = m.settledAt := rfl
@[simp] theorem Engine.setReg_answer (m : Engine) (a : Nat) (v : Word) : (m.setReg a v).answer = m.answer := rfl
@[simp] theorem Engine.setReg_armSpan (m : Engine) (a : Nat) (v : Word) : (m.setReg a v).armSpan = m.armSpan := rfl
@[simp] theorem Engine.setReg_arming (m : Engine) (a : Nat) (v : Word) : (m.setReg a v).arming = m.arming := rfl
@[simp] theorem Engine.setReg_tbLoad (m : Engine) (a : Nat) (v : Word) : (m.setReg a v).tbLoad = m.tbLoad := rfl
@[simp] theorem Engine.setReg_wrapDue (m : Engine) (a : Nat) (v : Word) : (m.setReg a v).wrapDue = m.wrapDue := rfl
@[simp] theorem Engine.setReg_detected (m : Engine) (a : Nat) (v : Word) : (m.setReg a v).detected = m.detected := rfl
@[simp] theorem Engine.setReg_raised (m : Engine) (a : Nat) (v : Word) : (m.setReg a v).raised = m.raised := rfl
@[simp] theorem Engine.setReg_freeCtr (m : Engine) (a : Nat) (v : Word) : (m.setReg a v).freeCtr = m.freeCtr := rfl

/-! `setFld`. -/

@[simp] theorem Engine.setFld_held (m : Engine) (f : Field) (v : Nat) : (m.setFld f v).held = m.held := rfl
@[simp] theorem Engine.setFld_badParity (m : Engine) (f : Field) (v : Nat) : (m.setFld f v).badParity = m.badParity := rfl
@[simp] theorem Engine.setFld_running (m : Engine) (f : Field) (v : Nat) : (m.setFld f v).running = m.running := rfl
@[simp] theorem Engine.setFld_first (m : Engine) (f : Field) (v : Nat) : (m.setFld f v).first = m.first := rfl
@[simp] theorem Engine.setFld_cc (m : Engine) (f : Field) (v : Nat) : (m.setFld f v).cc = m.cc := rfl
@[simp] theorem Engine.setFld_tb (m : Engine) (f : Field) (v : Nat) : (m.setFld f v).tb = m.tb := rfl
@[simp] theorem Engine.setFld_intakes (m : Engine) (f : Field) (v : Nat) : (m.setFld f v).intakes = m.intakes := rfl
@[simp] theorem Engine.setFld_tableSet (m : Engine) (f : Field) (v : Nat) : (m.setFld f v).tableSet = m.tableSet := rfl
@[simp] theorem Engine.setFld_tableChanges (m : Engine) (f : Field) (v : Nat) : (m.setFld f v).tableChanges = m.tableChanges := rfl
@[simp] theorem Engine.setFld_path (m : Engine) (f : Field) (v : Nat) : (m.setFld f v).path = m.path := rfl
@[simp] theorem Engine.setFld_gateOrders (m : Engine) (f : Field) (v : Nat) : (m.setFld f v).gateOrders = m.gateOrders := rfl
@[simp] theorem Engine.setFld_causes (m : Engine) (f : Field) (v : Nat) : (m.setFld f v).causes = m.causes := rfl
@[simp] theorem Engine.setFld_gate (m : Engine) (f : Field) (v : Nat) : (m.setFld f v).gate = m.gate := rfl
@[simp] theorem Engine.setFld_store (m : Engine) (f : Field) (v : Nat) : (m.setFld f v).store = m.store := rfl
@[simp] theorem Engine.setFld_rota (m : Engine) (f : Field) (v : Nat) : (m.setFld f v).rota = m.rota := rfl
@[simp] theorem Engine.setFld_tank (m : Engine) (f : Field) (v : Nat) : (m.setFld f v).tank = m.tank := rfl
@[simp] theorem Engine.setFld_slewEnd (m : Engine) (f : Field) (v : Nat) : (m.setFld f v).slewEnd = m.slewEnd := rfl
@[simp] theorem Engine.setFld_lost (m : Engine) (f : Field) (v : Nat) : (m.setFld f v).lost = m.lost := rfl
@[simp] theorem Engine.setFld_ring (m : Engine) (f : Field) (v : Nat) : (m.setFld f v).ring = m.ring := rfl
@[simp] theorem Engine.setFld_dam (m : Engine) (f : Field) (v : Nat) : (m.setFld f v).dam = m.dam := rfl
@[simp] theorem Engine.setFld_cis (m : Engine) (f : Field) (v : Nat) : (m.setFld f v).cis = m.cis := rfl
@[simp] theorem Engine.setFld_disp (m : Engine) (f : Field) (v : Nat) : (m.setFld f v).disp = m.disp := rfl
@[simp] theorem Engine.setFld_host (m : Engine) (f : Field) (v : Nat) : (m.setFld f v).host = m.host := rfl
@[simp] theorem Engine.setFld_mgt (m : Engine) (f : Field) (v : Nat) : (m.setFld f v).mgt = m.mgt := rfl
@[simp] theorem Engine.setFld_lostSince (m : Engine) (f : Field) (v : Nat) : (m.setFld f v).lostSince = m.lostSince := rfl
@[simp] theorem Engine.setFld_lostTb (m : Engine) (f : Field) (v : Nat) : (m.setFld f v).lostTb = m.lostTb := rfl
@[simp] theorem Engine.setFld_settledAt (m : Engine) (f : Field) (v : Nat) : (m.setFld f v).settledAt = m.settledAt := rfl
@[simp] theorem Engine.setFld_answer (m : Engine) (f : Field) (v : Nat) : (m.setFld f v).answer = m.answer := rfl
@[simp] theorem Engine.setFld_armSpan (m : Engine) (f : Field) (v : Nat) : (m.setFld f v).armSpan = m.armSpan := rfl
@[simp] theorem Engine.setFld_arming (m : Engine) (f : Field) (v : Nat) : (m.setFld f v).arming = m.arming := rfl
@[simp] theorem Engine.setFld_tbLoad (m : Engine) (f : Field) (v : Nat) : (m.setFld f v).tbLoad = m.tbLoad := rfl
@[simp] theorem Engine.setFld_wrapDue (m : Engine) (f : Field) (v : Nat) : (m.setFld f v).wrapDue = m.wrapDue := rfl
@[simp] theorem Engine.setFld_detected (m : Engine) (f : Field) (v : Nat) : (m.setFld f v).detected = m.detected := rfl
@[simp] theorem Engine.setFld_raised (m : Engine) (f : Field) (v : Nat) : (m.setFld f v).raised = m.raised := rfl
@[simp] theorem Engine.setFld_freeCtr (m : Engine) (f : Field) (v : Nat) : (m.setFld f v).freeCtr = m.freeCtr := rfl

/-! `setFlag`. -/

@[simp] theorem Engine.setFlag_held (m : Engine) (f : Field) (b : Bool) : (m.setFlag f b).held = m.held := rfl
@[simp] theorem Engine.setFlag_badParity (m : Engine) (f : Field) (b : Bool) : (m.setFlag f b).badParity = m.badParity := rfl
@[simp] theorem Engine.setFlag_running (m : Engine) (f : Field) (b : Bool) : (m.setFlag f b).running = m.running := rfl
@[simp] theorem Engine.setFlag_first (m : Engine) (f : Field) (b : Bool) : (m.setFlag f b).first = m.first := rfl
@[simp] theorem Engine.setFlag_cc (m : Engine) (f : Field) (b : Bool) : (m.setFlag f b).cc = m.cc := rfl
@[simp] theorem Engine.setFlag_tb (m : Engine) (f : Field) (b : Bool) : (m.setFlag f b).tb = m.tb := rfl
@[simp] theorem Engine.setFlag_intakes (m : Engine) (f : Field) (b : Bool) : (m.setFlag f b).intakes = m.intakes := rfl
@[simp] theorem Engine.setFlag_tableSet (m : Engine) (f : Field) (b : Bool) : (m.setFlag f b).tableSet = m.tableSet := rfl
@[simp] theorem Engine.setFlag_tableChanges (m : Engine) (f : Field) (b : Bool) : (m.setFlag f b).tableChanges = m.tableChanges := rfl
@[simp] theorem Engine.setFlag_path (m : Engine) (f : Field) (b : Bool) : (m.setFlag f b).path = m.path := rfl
@[simp] theorem Engine.setFlag_gateOrders (m : Engine) (f : Field) (b : Bool) : (m.setFlag f b).gateOrders = m.gateOrders := rfl
@[simp] theorem Engine.setFlag_causes (m : Engine) (f : Field) (b : Bool) : (m.setFlag f b).causes = m.causes := rfl
@[simp] theorem Engine.setFlag_gate (m : Engine) (f : Field) (b : Bool) : (m.setFlag f b).gate = m.gate := rfl
@[simp] theorem Engine.setFlag_store (m : Engine) (f : Field) (b : Bool) : (m.setFlag f b).store = m.store := rfl
@[simp] theorem Engine.setFlag_rota (m : Engine) (f : Field) (b : Bool) : (m.setFlag f b).rota = m.rota := rfl
@[simp] theorem Engine.setFlag_tank (m : Engine) (f : Field) (b : Bool) : (m.setFlag f b).tank = m.tank := rfl
@[simp] theorem Engine.setFlag_slewEnd (m : Engine) (f : Field) (b : Bool) : (m.setFlag f b).slewEnd = m.slewEnd := rfl
@[simp] theorem Engine.setFlag_lost (m : Engine) (f : Field) (b : Bool) : (m.setFlag f b).lost = m.lost := rfl
@[simp] theorem Engine.setFlag_ring (m : Engine) (f : Field) (b : Bool) : (m.setFlag f b).ring = m.ring := rfl
@[simp] theorem Engine.setFlag_dam (m : Engine) (f : Field) (b : Bool) : (m.setFlag f b).dam = m.dam := rfl
@[simp] theorem Engine.setFlag_cis (m : Engine) (f : Field) (b : Bool) : (m.setFlag f b).cis = m.cis := rfl
@[simp] theorem Engine.setFlag_disp (m : Engine) (f : Field) (b : Bool) : (m.setFlag f b).disp = m.disp := rfl
@[simp] theorem Engine.setFlag_host (m : Engine) (f : Field) (b : Bool) : (m.setFlag f b).host = m.host := rfl
@[simp] theorem Engine.setFlag_mgt (m : Engine) (f : Field) (b : Bool) : (m.setFlag f b).mgt = m.mgt := rfl
@[simp] theorem Engine.setFlag_lostSince (m : Engine) (f : Field) (b : Bool) : (m.setFlag f b).lostSince = m.lostSince := rfl
@[simp] theorem Engine.setFlag_lostTb (m : Engine) (f : Field) (b : Bool) : (m.setFlag f b).lostTb = m.lostTb := rfl
@[simp] theorem Engine.setFlag_settledAt (m : Engine) (f : Field) (b : Bool) : (m.setFlag f b).settledAt = m.settledAt := rfl
@[simp] theorem Engine.setFlag_answer (m : Engine) (f : Field) (b : Bool) : (m.setFlag f b).answer = m.answer := rfl
@[simp] theorem Engine.setFlag_armSpan (m : Engine) (f : Field) (b : Bool) : (m.setFlag f b).armSpan = m.armSpan := rfl
@[simp] theorem Engine.setFlag_arming (m : Engine) (f : Field) (b : Bool) : (m.setFlag f b).arming = m.arming := rfl
@[simp] theorem Engine.setFlag_tbLoad (m : Engine) (f : Field) (b : Bool) : (m.setFlag f b).tbLoad = m.tbLoad := rfl
@[simp] theorem Engine.setFlag_wrapDue (m : Engine) (f : Field) (b : Bool) : (m.setFlag f b).wrapDue = m.wrapDue := rfl
@[simp] theorem Engine.setFlag_detected (m : Engine) (f : Field) (b : Bool) : (m.setFlag f b).detected = m.detected := rfl
@[simp] theorem Engine.setFlag_raised (m : Engine) (f : Field) (b : Bool) : (m.setFlag f b).raised = m.raised := rfl
@[simp] theorem Engine.setFlag_freeCtr (m : Engine) (f : Field) (b : Bool) : (m.setFlag f b).freeCtr = m.freeCtr := rfl

/-! `orReg`. -/

@[simp] theorem Engine.orReg_held (m : Engine) (a n : Nat) : (m.orReg a n).held = m.held := rfl
@[simp] theorem Engine.orReg_badParity (m : Engine) (a n : Nat) : (m.orReg a n).badParity = m.badParity := rfl
@[simp] theorem Engine.orReg_running (m : Engine) (a n : Nat) : (m.orReg a n).running = m.running := rfl
@[simp] theorem Engine.orReg_first (m : Engine) (a n : Nat) : (m.orReg a n).first = m.first := rfl
@[simp] theorem Engine.orReg_cc (m : Engine) (a n : Nat) : (m.orReg a n).cc = m.cc := rfl
@[simp] theorem Engine.orReg_tb (m : Engine) (a n : Nat) : (m.orReg a n).tb = m.tb := rfl
@[simp] theorem Engine.orReg_intakes (m : Engine) (a n : Nat) : (m.orReg a n).intakes = m.intakes := rfl
@[simp] theorem Engine.orReg_tableSet (m : Engine) (a n : Nat) : (m.orReg a n).tableSet = m.tableSet := rfl
@[simp] theorem Engine.orReg_tableChanges (m : Engine) (a n : Nat) : (m.orReg a n).tableChanges = m.tableChanges := rfl
@[simp] theorem Engine.orReg_path (m : Engine) (a n : Nat) : (m.orReg a n).path = m.path := rfl
@[simp] theorem Engine.orReg_gateOrders (m : Engine) (a n : Nat) : (m.orReg a n).gateOrders = m.gateOrders := rfl
@[simp] theorem Engine.orReg_causes (m : Engine) (a n : Nat) : (m.orReg a n).causes = m.causes := rfl
@[simp] theorem Engine.orReg_gate (m : Engine) (a n : Nat) : (m.orReg a n).gate = m.gate := rfl
@[simp] theorem Engine.orReg_store (m : Engine) (a n : Nat) : (m.orReg a n).store = m.store := rfl
@[simp] theorem Engine.orReg_rota (m : Engine) (a n : Nat) : (m.orReg a n).rota = m.rota := rfl
@[simp] theorem Engine.orReg_tank (m : Engine) (a n : Nat) : (m.orReg a n).tank = m.tank := rfl
@[simp] theorem Engine.orReg_slewEnd (m : Engine) (a n : Nat) : (m.orReg a n).slewEnd = m.slewEnd := rfl
@[simp] theorem Engine.orReg_lost (m : Engine) (a n : Nat) : (m.orReg a n).lost = m.lost := rfl
@[simp] theorem Engine.orReg_ring (m : Engine) (a n : Nat) : (m.orReg a n).ring = m.ring := rfl
@[simp] theorem Engine.orReg_dam (m : Engine) (a n : Nat) : (m.orReg a n).dam = m.dam := rfl
@[simp] theorem Engine.orReg_cis (m : Engine) (a n : Nat) : (m.orReg a n).cis = m.cis := rfl
@[simp] theorem Engine.orReg_disp (m : Engine) (a n : Nat) : (m.orReg a n).disp = m.disp := rfl
@[simp] theorem Engine.orReg_host (m : Engine) (a n : Nat) : (m.orReg a n).host = m.host := rfl
@[simp] theorem Engine.orReg_mgt (m : Engine) (a n : Nat) : (m.orReg a n).mgt = m.mgt := rfl
@[simp] theorem Engine.orReg_lostSince (m : Engine) (a n : Nat) : (m.orReg a n).lostSince = m.lostSince := rfl
@[simp] theorem Engine.orReg_lostTb (m : Engine) (a n : Nat) : (m.orReg a n).lostTb = m.lostTb := rfl
@[simp] theorem Engine.orReg_settledAt (m : Engine) (a n : Nat) : (m.orReg a n).settledAt = m.settledAt := rfl
@[simp] theorem Engine.orReg_answer (m : Engine) (a n : Nat) : (m.orReg a n).answer = m.answer := rfl
@[simp] theorem Engine.orReg_armSpan (m : Engine) (a n : Nat) : (m.orReg a n).armSpan = m.armSpan := rfl
@[simp] theorem Engine.orReg_arming (m : Engine) (a n : Nat) : (m.orReg a n).arming = m.arming := rfl
@[simp] theorem Engine.orReg_tbLoad (m : Engine) (a n : Nat) : (m.orReg a n).tbLoad = m.tbLoad := rfl
@[simp] theorem Engine.orReg_wrapDue (m : Engine) (a n : Nat) : (m.orReg a n).wrapDue = m.wrapDue := rfl
@[simp] theorem Engine.orReg_detected (m : Engine) (a n : Nat) : (m.orReg a n).detected = m.detected := rfl
@[simp] theorem Engine.orReg_raised (m : Engine) (a n : Nat) : (m.orReg a n).raised = m.raised := rfl
@[simp] theorem Engine.orReg_freeCtr (m : Engine) (a n : Nat) : (m.orReg a n).freeCtr = m.freeCtr := rfl

/-! `clearBits`. -/

@[simp] theorem Engine.clearBits_held (m : Engine) (a n : Nat) : (m.clearBits a n).held = m.held := rfl
@[simp] theorem Engine.clearBits_badParity (m : Engine) (a n : Nat) : (m.clearBits a n).badParity = m.badParity := rfl
@[simp] theorem Engine.clearBits_running (m : Engine) (a n : Nat) : (m.clearBits a n).running = m.running := rfl
@[simp] theorem Engine.clearBits_first (m : Engine) (a n : Nat) : (m.clearBits a n).first = m.first := rfl
@[simp] theorem Engine.clearBits_cc (m : Engine) (a n : Nat) : (m.clearBits a n).cc = m.cc := rfl
@[simp] theorem Engine.clearBits_tb (m : Engine) (a n : Nat) : (m.clearBits a n).tb = m.tb := rfl
@[simp] theorem Engine.clearBits_intakes (m : Engine) (a n : Nat) : (m.clearBits a n).intakes = m.intakes := rfl
@[simp] theorem Engine.clearBits_tableSet (m : Engine) (a n : Nat) : (m.clearBits a n).tableSet = m.tableSet := rfl
@[simp] theorem Engine.clearBits_tableChanges (m : Engine) (a n : Nat) : (m.clearBits a n).tableChanges = m.tableChanges := rfl
@[simp] theorem Engine.clearBits_path (m : Engine) (a n : Nat) : (m.clearBits a n).path = m.path := rfl
@[simp] theorem Engine.clearBits_gateOrders (m : Engine) (a n : Nat) : (m.clearBits a n).gateOrders = m.gateOrders := rfl
@[simp] theorem Engine.clearBits_causes (m : Engine) (a n : Nat) : (m.clearBits a n).causes = m.causes := rfl
@[simp] theorem Engine.clearBits_gate (m : Engine) (a n : Nat) : (m.clearBits a n).gate = m.gate := rfl
@[simp] theorem Engine.clearBits_store (m : Engine) (a n : Nat) : (m.clearBits a n).store = m.store := rfl
@[simp] theorem Engine.clearBits_rota (m : Engine) (a n : Nat) : (m.clearBits a n).rota = m.rota := rfl
@[simp] theorem Engine.clearBits_tank (m : Engine) (a n : Nat) : (m.clearBits a n).tank = m.tank := rfl
@[simp] theorem Engine.clearBits_slewEnd (m : Engine) (a n : Nat) : (m.clearBits a n).slewEnd = m.slewEnd := rfl
@[simp] theorem Engine.clearBits_lost (m : Engine) (a n : Nat) : (m.clearBits a n).lost = m.lost := rfl
@[simp] theorem Engine.clearBits_ring (m : Engine) (a n : Nat) : (m.clearBits a n).ring = m.ring := rfl
@[simp] theorem Engine.clearBits_dam (m : Engine) (a n : Nat) : (m.clearBits a n).dam = m.dam := rfl
@[simp] theorem Engine.clearBits_cis (m : Engine) (a n : Nat) : (m.clearBits a n).cis = m.cis := rfl
@[simp] theorem Engine.clearBits_disp (m : Engine) (a n : Nat) : (m.clearBits a n).disp = m.disp := rfl
@[simp] theorem Engine.clearBits_host (m : Engine) (a n : Nat) : (m.clearBits a n).host = m.host := rfl
@[simp] theorem Engine.clearBits_mgt (m : Engine) (a n : Nat) : (m.clearBits a n).mgt = m.mgt := rfl
@[simp] theorem Engine.clearBits_lostSince (m : Engine) (a n : Nat) : (m.clearBits a n).lostSince = m.lostSince := rfl
@[simp] theorem Engine.clearBits_lostTb (m : Engine) (a n : Nat) : (m.clearBits a n).lostTb = m.lostTb := rfl
@[simp] theorem Engine.clearBits_settledAt (m : Engine) (a n : Nat) : (m.clearBits a n).settledAt = m.settledAt := rfl
@[simp] theorem Engine.clearBits_answer (m : Engine) (a n : Nat) : (m.clearBits a n).answer = m.answer := rfl
@[simp] theorem Engine.clearBits_armSpan (m : Engine) (a n : Nat) : (m.clearBits a n).armSpan = m.armSpan := rfl
@[simp] theorem Engine.clearBits_arming (m : Engine) (a n : Nat) : (m.clearBits a n).arming = m.arming := rfl
@[simp] theorem Engine.clearBits_tbLoad (m : Engine) (a n : Nat) : (m.clearBits a n).tbLoad = m.tbLoad := rfl
@[simp] theorem Engine.clearBits_wrapDue (m : Engine) (a n : Nat) : (m.clearBits a n).wrapDue = m.wrapDue := rfl
@[simp] theorem Engine.clearBits_detected (m : Engine) (a n : Nat) : (m.clearBits a n).detected = m.detected := rfl
@[simp] theorem Engine.clearBits_raised (m : Engine) (a n : Nat) : (m.clearBits a n).raised = m.raised := rfl
@[simp] theorem Engine.clearBits_freeCtr (m : Engine) (a n : Nat) : (m.clearBits a n).freeCtr = m.freeCtr := rfl

/-! `addSat`. -/

@[simp] theorem Engine.addSat_held (m : Engine) (a n : Nat) : (m.addSat a n).held = m.held := rfl
@[simp] theorem Engine.addSat_badParity (m : Engine) (a n : Nat) : (m.addSat a n).badParity = m.badParity := rfl
@[simp] theorem Engine.addSat_running (m : Engine) (a n : Nat) : (m.addSat a n).running = m.running := rfl
@[simp] theorem Engine.addSat_first (m : Engine) (a n : Nat) : (m.addSat a n).first = m.first := rfl
@[simp] theorem Engine.addSat_cc (m : Engine) (a n : Nat) : (m.addSat a n).cc = m.cc := rfl
@[simp] theorem Engine.addSat_tb (m : Engine) (a n : Nat) : (m.addSat a n).tb = m.tb := rfl
@[simp] theorem Engine.addSat_intakes (m : Engine) (a n : Nat) : (m.addSat a n).intakes = m.intakes := rfl
@[simp] theorem Engine.addSat_tableSet (m : Engine) (a n : Nat) : (m.addSat a n).tableSet = m.tableSet := rfl
@[simp] theorem Engine.addSat_tableChanges (m : Engine) (a n : Nat) : (m.addSat a n).tableChanges = m.tableChanges := rfl
@[simp] theorem Engine.addSat_path (m : Engine) (a n : Nat) : (m.addSat a n).path = m.path := rfl
@[simp] theorem Engine.addSat_gateOrders (m : Engine) (a n : Nat) : (m.addSat a n).gateOrders = m.gateOrders := rfl
@[simp] theorem Engine.addSat_causes (m : Engine) (a n : Nat) : (m.addSat a n).causes = m.causes := rfl
@[simp] theorem Engine.addSat_gate (m : Engine) (a n : Nat) : (m.addSat a n).gate = m.gate := rfl
@[simp] theorem Engine.addSat_store (m : Engine) (a n : Nat) : (m.addSat a n).store = m.store := rfl
@[simp] theorem Engine.addSat_rota (m : Engine) (a n : Nat) : (m.addSat a n).rota = m.rota := rfl
@[simp] theorem Engine.addSat_tank (m : Engine) (a n : Nat) : (m.addSat a n).tank = m.tank := rfl
@[simp] theorem Engine.addSat_slewEnd (m : Engine) (a n : Nat) : (m.addSat a n).slewEnd = m.slewEnd := rfl
@[simp] theorem Engine.addSat_lost (m : Engine) (a n : Nat) : (m.addSat a n).lost = m.lost := rfl
@[simp] theorem Engine.addSat_ring (m : Engine) (a n : Nat) : (m.addSat a n).ring = m.ring := rfl
@[simp] theorem Engine.addSat_dam (m : Engine) (a n : Nat) : (m.addSat a n).dam = m.dam := rfl
@[simp] theorem Engine.addSat_cis (m : Engine) (a n : Nat) : (m.addSat a n).cis = m.cis := rfl
@[simp] theorem Engine.addSat_disp (m : Engine) (a n : Nat) : (m.addSat a n).disp = m.disp := rfl
@[simp] theorem Engine.addSat_host (m : Engine) (a n : Nat) : (m.addSat a n).host = m.host := rfl
@[simp] theorem Engine.addSat_mgt (m : Engine) (a n : Nat) : (m.addSat a n).mgt = m.mgt := rfl
@[simp] theorem Engine.addSat_lostSince (m : Engine) (a n : Nat) : (m.addSat a n).lostSince = m.lostSince := rfl
@[simp] theorem Engine.addSat_lostTb (m : Engine) (a n : Nat) : (m.addSat a n).lostTb = m.lostTb := rfl
@[simp] theorem Engine.addSat_settledAt (m : Engine) (a n : Nat) : (m.addSat a n).settledAt = m.settledAt := rfl
@[simp] theorem Engine.addSat_answer (m : Engine) (a n : Nat) : (m.addSat a n).answer = m.answer := rfl
@[simp] theorem Engine.addSat_armSpan (m : Engine) (a n : Nat) : (m.addSat a n).armSpan = m.armSpan := rfl
@[simp] theorem Engine.addSat_arming (m : Engine) (a n : Nat) : (m.addSat a n).arming = m.arming := rfl
@[simp] theorem Engine.addSat_tbLoad (m : Engine) (a n : Nat) : (m.addSat a n).tbLoad = m.tbLoad := rfl
@[simp] theorem Engine.addSat_wrapDue (m : Engine) (a n : Nat) : (m.addSat a n).wrapDue = m.wrapDue := rfl
@[simp] theorem Engine.addSat_detected (m : Engine) (a n : Nat) : (m.addSat a n).detected = m.detected := rfl
@[simp] theorem Engine.addSat_raised (m : Engine) (a n : Nat) : (m.addSat a n).raised = m.raised := rfl
@[simp] theorem Engine.addSat_freeCtr (m : Engine) (a n : Nat) : (m.addSat a n).freeCtr = m.freeCtr := rfl

/-! `setIntake`. -/

@[simp] theorem Engine.setIntake_regs (m : Engine) (n : Nat) (i : Intake) : (m.setIntake n i).regs = m.regs := rfl
@[simp] theorem Engine.setIntake_held (m : Engine) (n : Nat) (i : Intake) : (m.setIntake n i).held = m.held := rfl
@[simp] theorem Engine.setIntake_badParity (m : Engine) (n : Nat) (i : Intake) : (m.setIntake n i).badParity = m.badParity := rfl
@[simp] theorem Engine.setIntake_running (m : Engine) (n : Nat) (i : Intake) : (m.setIntake n i).running = m.running := rfl
@[simp] theorem Engine.setIntake_first (m : Engine) (n : Nat) (i : Intake) : (m.setIntake n i).first = m.first := rfl
@[simp] theorem Engine.setIntake_cc (m : Engine) (n : Nat) (i : Intake) : (m.setIntake n i).cc = m.cc := rfl
@[simp] theorem Engine.setIntake_tb (m : Engine) (n : Nat) (i : Intake) : (m.setIntake n i).tb = m.tb := rfl
@[simp] theorem Engine.setIntake_tableSet (m : Engine) (n : Nat) (i : Intake) : (m.setIntake n i).tableSet = m.tableSet := rfl
@[simp] theorem Engine.setIntake_tableChanges (m : Engine) (n : Nat) (i : Intake) : (m.setIntake n i).tableChanges = m.tableChanges := rfl
@[simp] theorem Engine.setIntake_path (m : Engine) (n : Nat) (i : Intake) : (m.setIntake n i).path = m.path := rfl
@[simp] theorem Engine.setIntake_gateOrders (m : Engine) (n : Nat) (i : Intake) : (m.setIntake n i).gateOrders = m.gateOrders := rfl
@[simp] theorem Engine.setIntake_causes (m : Engine) (n : Nat) (i : Intake) : (m.setIntake n i).causes = m.causes := rfl
@[simp] theorem Engine.setIntake_gate (m : Engine) (n : Nat) (i : Intake) : (m.setIntake n i).gate = m.gate := rfl
@[simp] theorem Engine.setIntake_store (m : Engine) (n : Nat) (i : Intake) : (m.setIntake n i).store = m.store := rfl
@[simp] theorem Engine.setIntake_rota (m : Engine) (n : Nat) (i : Intake) : (m.setIntake n i).rota = m.rota := rfl
@[simp] theorem Engine.setIntake_tank (m : Engine) (n : Nat) (i : Intake) : (m.setIntake n i).tank = m.tank := rfl
@[simp] theorem Engine.setIntake_slewEnd (m : Engine) (n : Nat) (i : Intake) : (m.setIntake n i).slewEnd = m.slewEnd := rfl
@[simp] theorem Engine.setIntake_lost (m : Engine) (n : Nat) (i : Intake) : (m.setIntake n i).lost = m.lost := rfl
@[simp] theorem Engine.setIntake_ring (m : Engine) (n : Nat) (i : Intake) : (m.setIntake n i).ring = m.ring := rfl
@[simp] theorem Engine.setIntake_dam (m : Engine) (n : Nat) (i : Intake) : (m.setIntake n i).dam = m.dam := rfl
@[simp] theorem Engine.setIntake_cis (m : Engine) (n : Nat) (i : Intake) : (m.setIntake n i).cis = m.cis := rfl
@[simp] theorem Engine.setIntake_disp (m : Engine) (n : Nat) (i : Intake) : (m.setIntake n i).disp = m.disp := rfl
@[simp] theorem Engine.setIntake_host (m : Engine) (n : Nat) (i : Intake) : (m.setIntake n i).host = m.host := rfl
@[simp] theorem Engine.setIntake_mgt (m : Engine) (n : Nat) (i : Intake) : (m.setIntake n i).mgt = m.mgt := rfl
@[simp] theorem Engine.setIntake_lostSince (m : Engine) (n : Nat) (i : Intake) : (m.setIntake n i).lostSince = m.lostSince := rfl
@[simp] theorem Engine.setIntake_lostTb (m : Engine) (n : Nat) (i : Intake) : (m.setIntake n i).lostTb = m.lostTb := rfl
@[simp] theorem Engine.setIntake_settledAt (m : Engine) (n : Nat) (i : Intake) : (m.setIntake n i).settledAt = m.settledAt := rfl
@[simp] theorem Engine.setIntake_answer (m : Engine) (n : Nat) (i : Intake) : (m.setIntake n i).answer = m.answer := rfl
@[simp] theorem Engine.setIntake_armSpan (m : Engine) (n : Nat) (i : Intake) : (m.setIntake n i).armSpan = m.armSpan := rfl
@[simp] theorem Engine.setIntake_arming (m : Engine) (n : Nat) (i : Intake) : (m.setIntake n i).arming = m.arming := rfl
@[simp] theorem Engine.setIntake_tbLoad (m : Engine) (n : Nat) (i : Intake) : (m.setIntake n i).tbLoad = m.tbLoad := rfl
@[simp] theorem Engine.setIntake_wrapDue (m : Engine) (n : Nat) (i : Intake) : (m.setIntake n i).wrapDue = m.wrapDue := rfl
@[simp] theorem Engine.setIntake_detected (m : Engine) (n : Nat) (i : Intake) : (m.setIntake n i).detected = m.detected := rfl
@[simp] theorem Engine.setIntake_raised (m : Engine) (n : Nat) (i : Intake) : (m.setIntake n i).raised = m.raised := rfl
@[simp] theorem Engine.setIntake_freeCtr (m : Engine) (n : Nat) (i : Intake) : (m.setIntake n i).freeCtr = m.freeCtr := rfl
@[simp] theorem Engine.reg_setIntake (m : Engine) (n : Nat) (i : Intake) (r : Nat) : (m.setIntake n i).reg r = m.reg r := rfl
@[simp] theorem Engine.fld_setIntake (m : Engine) (n : Nat) (i : Intake) (r : Field) : (m.setIntake n i).fld r = m.fld r := rfl
@[simp] theorem Engine.flag_setIntake (m : Engine) (n : Nat) (i : Intake) (r : Field) : (m.setIntake n i).flag r = m.flag r := rfl

/-! `setGate`. -/

@[simp] theorem Engine.setGate_regs (m : Engine) (g : GateState) : (m.setGate g).regs = m.regs := rfl
@[simp] theorem Engine.setGate_held (m : Engine) (g : GateState) : (m.setGate g).held = m.held := rfl
@[simp] theorem Engine.setGate_badParity (m : Engine) (g : GateState) : (m.setGate g).badParity = m.badParity := rfl
@[simp] theorem Engine.setGate_running (m : Engine) (g : GateState) : (m.setGate g).running = m.running := rfl
@[simp] theorem Engine.setGate_first (m : Engine) (g : GateState) : (m.setGate g).first = m.first := rfl
@[simp] theorem Engine.setGate_cc (m : Engine) (g : GateState) : (m.setGate g).cc = m.cc := rfl
@[simp] theorem Engine.setGate_tb (m : Engine) (g : GateState) : (m.setGate g).tb = m.tb := rfl
@[simp] theorem Engine.setGate_intakes (m : Engine) (g : GateState) : (m.setGate g).intakes = m.intakes := rfl
@[simp] theorem Engine.setGate_tableSet (m : Engine) (g : GateState) : (m.setGate g).tableSet = m.tableSet := rfl
@[simp] theorem Engine.setGate_tableChanges (m : Engine) (g : GateState) : (m.setGate g).tableChanges = m.tableChanges := rfl
@[simp] theorem Engine.setGate_path (m : Engine) (g : GateState) : (m.setGate g).path = m.path := rfl
@[simp] theorem Engine.setGate_gateOrders (m : Engine) (g : GateState) : (m.setGate g).gateOrders = m.gateOrders := rfl
@[simp] theorem Engine.setGate_causes (m : Engine) (g : GateState) : (m.setGate g).causes = m.causes := rfl
@[simp] theorem Engine.setGate_store (m : Engine) (g : GateState) : (m.setGate g).store = m.store := rfl
@[simp] theorem Engine.setGate_rota (m : Engine) (g : GateState) : (m.setGate g).rota = m.rota := rfl
@[simp] theorem Engine.setGate_tank (m : Engine) (g : GateState) : (m.setGate g).tank = m.tank := rfl
@[simp] theorem Engine.setGate_slewEnd (m : Engine) (g : GateState) : (m.setGate g).slewEnd = m.slewEnd := rfl
@[simp] theorem Engine.setGate_lost (m : Engine) (g : GateState) : (m.setGate g).lost = m.lost := rfl
@[simp] theorem Engine.setGate_ring (m : Engine) (g : GateState) : (m.setGate g).ring = m.ring := rfl
@[simp] theorem Engine.setGate_dam (m : Engine) (g : GateState) : (m.setGate g).dam = m.dam := rfl
@[simp] theorem Engine.setGate_cis (m : Engine) (g : GateState) : (m.setGate g).cis = m.cis := rfl
@[simp] theorem Engine.setGate_disp (m : Engine) (g : GateState) : (m.setGate g).disp = m.disp := rfl
@[simp] theorem Engine.setGate_host (m : Engine) (g : GateState) : (m.setGate g).host = m.host := rfl
@[simp] theorem Engine.setGate_mgt (m : Engine) (g : GateState) : (m.setGate g).mgt = m.mgt := rfl
@[simp] theorem Engine.setGate_lostSince (m : Engine) (g : GateState) : (m.setGate g).lostSince = m.lostSince := rfl
@[simp] theorem Engine.setGate_lostTb (m : Engine) (g : GateState) : (m.setGate g).lostTb = m.lostTb := rfl
@[simp] theorem Engine.setGate_settledAt (m : Engine) (g : GateState) : (m.setGate g).settledAt = m.settledAt := rfl
@[simp] theorem Engine.setGate_answer (m : Engine) (g : GateState) : (m.setGate g).answer = m.answer := rfl
@[simp] theorem Engine.setGate_armSpan (m : Engine) (g : GateState) : (m.setGate g).armSpan = m.armSpan := rfl
@[simp] theorem Engine.setGate_arming (m : Engine) (g : GateState) : (m.setGate g).arming = m.arming := rfl
@[simp] theorem Engine.setGate_tbLoad (m : Engine) (g : GateState) : (m.setGate g).tbLoad = m.tbLoad := rfl
@[simp] theorem Engine.setGate_wrapDue (m : Engine) (g : GateState) : (m.setGate g).wrapDue = m.wrapDue := rfl
@[simp] theorem Engine.setGate_detected (m : Engine) (g : GateState) : (m.setGate g).detected = m.detected := rfl
@[simp] theorem Engine.setGate_raised (m : Engine) (g : GateState) : (m.setGate g).raised = m.raised := rfl
@[simp] theorem Engine.setGate_freeCtr (m : Engine) (g : GateState) : (m.setGate g).freeCtr = m.freeCtr := rfl
@[simp] theorem Engine.setGate_gate (m : Engine) (g : GateState) : (m.setGate g).gate = g := rfl
@[simp] theorem Engine.reg_setGate (m : Engine) (g : GateState) (r : Nat) : (m.setGate g).reg r = m.reg r := rfl
@[simp] theorem Engine.fld_setGate (m : Engine) (g : GateState) (r : Field) : (m.setGate g).fld r = m.fld r := rfl
@[simp] theorem Engine.flag_setGate (m : Engine) (g : GateState) (r : Field) : (m.setGate g).flag r = m.flag r := rfl

/-! `setStore`. -/

@[simp] theorem Engine.setStore_regs (m : Engine) (x : StoreState) : (m.setStore x).regs = m.regs := rfl
@[simp] theorem Engine.setStore_held (m : Engine) (x : StoreState) : (m.setStore x).held = m.held := rfl
@[simp] theorem Engine.setStore_badParity (m : Engine) (x : StoreState) : (m.setStore x).badParity = m.badParity := rfl
@[simp] theorem Engine.setStore_running (m : Engine) (x : StoreState) : (m.setStore x).running = m.running := rfl
@[simp] theorem Engine.setStore_first (m : Engine) (x : StoreState) : (m.setStore x).first = m.first := rfl
@[simp] theorem Engine.setStore_cc (m : Engine) (x : StoreState) : (m.setStore x).cc = m.cc := rfl
@[simp] theorem Engine.setStore_tb (m : Engine) (x : StoreState) : (m.setStore x).tb = m.tb := rfl
@[simp] theorem Engine.setStore_intakes (m : Engine) (x : StoreState) : (m.setStore x).intakes = m.intakes := rfl
@[simp] theorem Engine.setStore_tableSet (m : Engine) (x : StoreState) : (m.setStore x).tableSet = m.tableSet := rfl
@[simp] theorem Engine.setStore_tableChanges (m : Engine) (x : StoreState) : (m.setStore x).tableChanges = m.tableChanges := rfl
@[simp] theorem Engine.setStore_path (m : Engine) (x : StoreState) : (m.setStore x).path = m.path := rfl
@[simp] theorem Engine.setStore_gateOrders (m : Engine) (x : StoreState) : (m.setStore x).gateOrders = m.gateOrders := rfl
@[simp] theorem Engine.setStore_causes (m : Engine) (x : StoreState) : (m.setStore x).causes = m.causes := rfl
@[simp] theorem Engine.setStore_gate (m : Engine) (x : StoreState) : (m.setStore x).gate = m.gate := rfl
@[simp] theorem Engine.setStore_rota (m : Engine) (x : StoreState) : (m.setStore x).rota = m.rota := rfl
@[simp] theorem Engine.setStore_tank (m : Engine) (x : StoreState) : (m.setStore x).tank = m.tank := rfl
@[simp] theorem Engine.setStore_slewEnd (m : Engine) (x : StoreState) : (m.setStore x).slewEnd = m.slewEnd := rfl
@[simp] theorem Engine.setStore_lost (m : Engine) (x : StoreState) : (m.setStore x).lost = m.lost := rfl
@[simp] theorem Engine.setStore_ring (m : Engine) (x : StoreState) : (m.setStore x).ring = m.ring := rfl
@[simp] theorem Engine.setStore_dam (m : Engine) (x : StoreState) : (m.setStore x).dam = m.dam := rfl
@[simp] theorem Engine.setStore_cis (m : Engine) (x : StoreState) : (m.setStore x).cis = m.cis := rfl
@[simp] theorem Engine.setStore_disp (m : Engine) (x : StoreState) : (m.setStore x).disp = m.disp := rfl
@[simp] theorem Engine.setStore_host (m : Engine) (x : StoreState) : (m.setStore x).host = m.host := rfl
@[simp] theorem Engine.setStore_mgt (m : Engine) (x : StoreState) : (m.setStore x).mgt = m.mgt := rfl
@[simp] theorem Engine.setStore_lostSince (m : Engine) (x : StoreState) : (m.setStore x).lostSince = m.lostSince := rfl
@[simp] theorem Engine.setStore_lostTb (m : Engine) (x : StoreState) : (m.setStore x).lostTb = m.lostTb := rfl
@[simp] theorem Engine.setStore_settledAt (m : Engine) (x : StoreState) : (m.setStore x).settledAt = m.settledAt := rfl
@[simp] theorem Engine.setStore_answer (m : Engine) (x : StoreState) : (m.setStore x).answer = m.answer := rfl
@[simp] theorem Engine.setStore_armSpan (m : Engine) (x : StoreState) : (m.setStore x).armSpan = m.armSpan := rfl
@[simp] theorem Engine.setStore_arming (m : Engine) (x : StoreState) : (m.setStore x).arming = m.arming := rfl
@[simp] theorem Engine.setStore_tbLoad (m : Engine) (x : StoreState) : (m.setStore x).tbLoad = m.tbLoad := rfl
@[simp] theorem Engine.setStore_wrapDue (m : Engine) (x : StoreState) : (m.setStore x).wrapDue = m.wrapDue := rfl
@[simp] theorem Engine.setStore_detected (m : Engine) (x : StoreState) : (m.setStore x).detected = m.detected := rfl
@[simp] theorem Engine.setStore_raised (m : Engine) (x : StoreState) : (m.setStore x).raised = m.raised := rfl
@[simp] theorem Engine.setStore_freeCtr (m : Engine) (x : StoreState) : (m.setStore x).freeCtr = m.freeCtr := rfl
@[simp] theorem Engine.setStore_store (m : Engine) (x : StoreState) : (m.setStore x).store = x := rfl
@[simp] theorem Engine.reg_setStore (m : Engine) (x : StoreState) (r : Nat) : (m.setStore x).reg r = m.reg r := rfl
@[simp] theorem Engine.fld_setStore (m : Engine) (x : StoreState) (r : Field) : (m.setStore x).fld r = m.fld r := rfl
@[simp] theorem Engine.flag_setStore (m : Engine) (x : StoreState) (r : Field) : (m.setStore x).flag r = m.flag r := rfl

/-! `setRota`. -/

@[simp] theorem Engine.setRota_regs (m : Engine) (x : RotaState) : (m.setRota x).regs = m.regs := rfl
@[simp] theorem Engine.setRota_held (m : Engine) (x : RotaState) : (m.setRota x).held = m.held := rfl
@[simp] theorem Engine.setRota_badParity (m : Engine) (x : RotaState) : (m.setRota x).badParity = m.badParity := rfl
@[simp] theorem Engine.setRota_running (m : Engine) (x : RotaState) : (m.setRota x).running = m.running := rfl
@[simp] theorem Engine.setRota_first (m : Engine) (x : RotaState) : (m.setRota x).first = m.first := rfl
@[simp] theorem Engine.setRota_cc (m : Engine) (x : RotaState) : (m.setRota x).cc = m.cc := rfl
@[simp] theorem Engine.setRota_tb (m : Engine) (x : RotaState) : (m.setRota x).tb = m.tb := rfl
@[simp] theorem Engine.setRota_intakes (m : Engine) (x : RotaState) : (m.setRota x).intakes = m.intakes := rfl
@[simp] theorem Engine.setRota_tableSet (m : Engine) (x : RotaState) : (m.setRota x).tableSet = m.tableSet := rfl
@[simp] theorem Engine.setRota_tableChanges (m : Engine) (x : RotaState) : (m.setRota x).tableChanges = m.tableChanges := rfl
@[simp] theorem Engine.setRota_path (m : Engine) (x : RotaState) : (m.setRota x).path = m.path := rfl
@[simp] theorem Engine.setRota_gateOrders (m : Engine) (x : RotaState) : (m.setRota x).gateOrders = m.gateOrders := rfl
@[simp] theorem Engine.setRota_causes (m : Engine) (x : RotaState) : (m.setRota x).causes = m.causes := rfl
@[simp] theorem Engine.setRota_gate (m : Engine) (x : RotaState) : (m.setRota x).gate = m.gate := rfl
@[simp] theorem Engine.setRota_store (m : Engine) (x : RotaState) : (m.setRota x).store = m.store := rfl
@[simp] theorem Engine.setRota_tank (m : Engine) (x : RotaState) : (m.setRota x).tank = m.tank := rfl
@[simp] theorem Engine.setRota_slewEnd (m : Engine) (x : RotaState) : (m.setRota x).slewEnd = m.slewEnd := rfl
@[simp] theorem Engine.setRota_lost (m : Engine) (x : RotaState) : (m.setRota x).lost = m.lost := rfl
@[simp] theorem Engine.setRota_ring (m : Engine) (x : RotaState) : (m.setRota x).ring = m.ring := rfl
@[simp] theorem Engine.setRota_dam (m : Engine) (x : RotaState) : (m.setRota x).dam = m.dam := rfl
@[simp] theorem Engine.setRota_cis (m : Engine) (x : RotaState) : (m.setRota x).cis = m.cis := rfl
@[simp] theorem Engine.setRota_disp (m : Engine) (x : RotaState) : (m.setRota x).disp = m.disp := rfl
@[simp] theorem Engine.setRota_host (m : Engine) (x : RotaState) : (m.setRota x).host = m.host := rfl
@[simp] theorem Engine.setRota_mgt (m : Engine) (x : RotaState) : (m.setRota x).mgt = m.mgt := rfl
@[simp] theorem Engine.setRota_lostSince (m : Engine) (x : RotaState) : (m.setRota x).lostSince = m.lostSince := rfl
@[simp] theorem Engine.setRota_lostTb (m : Engine) (x : RotaState) : (m.setRota x).lostTb = m.lostTb := rfl
@[simp] theorem Engine.setRota_settledAt (m : Engine) (x : RotaState) : (m.setRota x).settledAt = m.settledAt := rfl
@[simp] theorem Engine.setRota_answer (m : Engine) (x : RotaState) : (m.setRota x).answer = m.answer := rfl
@[simp] theorem Engine.setRota_armSpan (m : Engine) (x : RotaState) : (m.setRota x).armSpan = m.armSpan := rfl
@[simp] theorem Engine.setRota_arming (m : Engine) (x : RotaState) : (m.setRota x).arming = m.arming := rfl
@[simp] theorem Engine.setRota_tbLoad (m : Engine) (x : RotaState) : (m.setRota x).tbLoad = m.tbLoad := rfl
@[simp] theorem Engine.setRota_wrapDue (m : Engine) (x : RotaState) : (m.setRota x).wrapDue = m.wrapDue := rfl
@[simp] theorem Engine.setRota_detected (m : Engine) (x : RotaState) : (m.setRota x).detected = m.detected := rfl
@[simp] theorem Engine.setRota_raised (m : Engine) (x : RotaState) : (m.setRota x).raised = m.raised := rfl
@[simp] theorem Engine.setRota_freeCtr (m : Engine) (x : RotaState) : (m.setRota x).freeCtr = m.freeCtr := rfl
@[simp] theorem Engine.setRota_rota (m : Engine) (x : RotaState) : (m.setRota x).rota = x := rfl
@[simp] theorem Engine.reg_setRota (m : Engine) (x : RotaState) (r : Nat) : (m.setRota x).reg r = m.reg r := rfl
@[simp] theorem Engine.fld_setRota (m : Engine) (x : RotaState) (r : Field) : (m.setRota x).fld r = m.fld r := rfl
@[simp] theorem Engine.flag_setRota (m : Engine) (x : RotaState) (r : Field) : (m.setRota x).flag r = m.flag r := rfl

/-! `setRing`. -/

@[simp] theorem Engine.setRing_regs (m : Engine) (x : RingState) : (m.setRing x).regs = m.regs := rfl
@[simp] theorem Engine.setRing_held (m : Engine) (x : RingState) : (m.setRing x).held = m.held := rfl
@[simp] theorem Engine.setRing_badParity (m : Engine) (x : RingState) : (m.setRing x).badParity = m.badParity := rfl
@[simp] theorem Engine.setRing_running (m : Engine) (x : RingState) : (m.setRing x).running = m.running := rfl
@[simp] theorem Engine.setRing_first (m : Engine) (x : RingState) : (m.setRing x).first = m.first := rfl
@[simp] theorem Engine.setRing_cc (m : Engine) (x : RingState) : (m.setRing x).cc = m.cc := rfl
@[simp] theorem Engine.setRing_tb (m : Engine) (x : RingState) : (m.setRing x).tb = m.tb := rfl
@[simp] theorem Engine.setRing_intakes (m : Engine) (x : RingState) : (m.setRing x).intakes = m.intakes := rfl
@[simp] theorem Engine.setRing_tableSet (m : Engine) (x : RingState) : (m.setRing x).tableSet = m.tableSet := rfl
@[simp] theorem Engine.setRing_tableChanges (m : Engine) (x : RingState) : (m.setRing x).tableChanges = m.tableChanges := rfl
@[simp] theorem Engine.setRing_path (m : Engine) (x : RingState) : (m.setRing x).path = m.path := rfl
@[simp] theorem Engine.setRing_gateOrders (m : Engine) (x : RingState) : (m.setRing x).gateOrders = m.gateOrders := rfl
@[simp] theorem Engine.setRing_causes (m : Engine) (x : RingState) : (m.setRing x).causes = m.causes := rfl
@[simp] theorem Engine.setRing_gate (m : Engine) (x : RingState) : (m.setRing x).gate = m.gate := rfl
@[simp] theorem Engine.setRing_store (m : Engine) (x : RingState) : (m.setRing x).store = m.store := rfl
@[simp] theorem Engine.setRing_rota (m : Engine) (x : RingState) : (m.setRing x).rota = m.rota := rfl
@[simp] theorem Engine.setRing_tank (m : Engine) (x : RingState) : (m.setRing x).tank = m.tank := rfl
@[simp] theorem Engine.setRing_slewEnd (m : Engine) (x : RingState) : (m.setRing x).slewEnd = m.slewEnd := rfl
@[simp] theorem Engine.setRing_lost (m : Engine) (x : RingState) : (m.setRing x).lost = m.lost := rfl
@[simp] theorem Engine.setRing_dam (m : Engine) (x : RingState) : (m.setRing x).dam = m.dam := rfl
@[simp] theorem Engine.setRing_cis (m : Engine) (x : RingState) : (m.setRing x).cis = m.cis := rfl
@[simp] theorem Engine.setRing_disp (m : Engine) (x : RingState) : (m.setRing x).disp = m.disp := rfl
@[simp] theorem Engine.setRing_host (m : Engine) (x : RingState) : (m.setRing x).host = m.host := rfl
@[simp] theorem Engine.setRing_mgt (m : Engine) (x : RingState) : (m.setRing x).mgt = m.mgt := rfl
@[simp] theorem Engine.setRing_lostSince (m : Engine) (x : RingState) : (m.setRing x).lostSince = m.lostSince := rfl
@[simp] theorem Engine.setRing_lostTb (m : Engine) (x : RingState) : (m.setRing x).lostTb = m.lostTb := rfl
@[simp] theorem Engine.setRing_settledAt (m : Engine) (x : RingState) : (m.setRing x).settledAt = m.settledAt := rfl
@[simp] theorem Engine.setRing_answer (m : Engine) (x : RingState) : (m.setRing x).answer = m.answer := rfl
@[simp] theorem Engine.setRing_armSpan (m : Engine) (x : RingState) : (m.setRing x).armSpan = m.armSpan := rfl
@[simp] theorem Engine.setRing_arming (m : Engine) (x : RingState) : (m.setRing x).arming = m.arming := rfl
@[simp] theorem Engine.setRing_tbLoad (m : Engine) (x : RingState) : (m.setRing x).tbLoad = m.tbLoad := rfl
@[simp] theorem Engine.setRing_wrapDue (m : Engine) (x : RingState) : (m.setRing x).wrapDue = m.wrapDue := rfl
@[simp] theorem Engine.setRing_detected (m : Engine) (x : RingState) : (m.setRing x).detected = m.detected := rfl
@[simp] theorem Engine.setRing_raised (m : Engine) (x : RingState) : (m.setRing x).raised = m.raised := rfl
@[simp] theorem Engine.setRing_freeCtr (m : Engine) (x : RingState) : (m.setRing x).freeCtr = m.freeCtr := rfl
@[simp] theorem Engine.setRing_ring (m : Engine) (x : RingState) : (m.setRing x).ring = x := rfl
@[simp] theorem Engine.reg_setRing (m : Engine) (x : RingState) (r : Nat) : (m.setRing x).reg r = m.reg r := rfl
@[simp] theorem Engine.fld_setRing (m : Engine) (x : RingState) (r : Field) : (m.setRing x).fld r = m.fld r := rfl
@[simp] theorem Engine.flag_setRing (m : Engine) (x : RingState) (r : Field) : (m.setRing x).flag r = m.flag r := rfl

/-! `setDam`. -/

@[simp] theorem Engine.setDam_regs (m : Engine) (x : DamState) : (m.setDam x).regs = m.regs := rfl
@[simp] theorem Engine.setDam_held (m : Engine) (x : DamState) : (m.setDam x).held = m.held := rfl
@[simp] theorem Engine.setDam_badParity (m : Engine) (x : DamState) : (m.setDam x).badParity = m.badParity := rfl
@[simp] theorem Engine.setDam_running (m : Engine) (x : DamState) : (m.setDam x).running = m.running := rfl
@[simp] theorem Engine.setDam_first (m : Engine) (x : DamState) : (m.setDam x).first = m.first := rfl
@[simp] theorem Engine.setDam_cc (m : Engine) (x : DamState) : (m.setDam x).cc = m.cc := rfl
@[simp] theorem Engine.setDam_tb (m : Engine) (x : DamState) : (m.setDam x).tb = m.tb := rfl
@[simp] theorem Engine.setDam_intakes (m : Engine) (x : DamState) : (m.setDam x).intakes = m.intakes := rfl
@[simp] theorem Engine.setDam_tableSet (m : Engine) (x : DamState) : (m.setDam x).tableSet = m.tableSet := rfl
@[simp] theorem Engine.setDam_tableChanges (m : Engine) (x : DamState) : (m.setDam x).tableChanges = m.tableChanges := rfl
@[simp] theorem Engine.setDam_path (m : Engine) (x : DamState) : (m.setDam x).path = m.path := rfl
@[simp] theorem Engine.setDam_gateOrders (m : Engine) (x : DamState) : (m.setDam x).gateOrders = m.gateOrders := rfl
@[simp] theorem Engine.setDam_causes (m : Engine) (x : DamState) : (m.setDam x).causes = m.causes := rfl
@[simp] theorem Engine.setDam_gate (m : Engine) (x : DamState) : (m.setDam x).gate = m.gate := rfl
@[simp] theorem Engine.setDam_store (m : Engine) (x : DamState) : (m.setDam x).store = m.store := rfl
@[simp] theorem Engine.setDam_rota (m : Engine) (x : DamState) : (m.setDam x).rota = m.rota := rfl
@[simp] theorem Engine.setDam_tank (m : Engine) (x : DamState) : (m.setDam x).tank = m.tank := rfl
@[simp] theorem Engine.setDam_slewEnd (m : Engine) (x : DamState) : (m.setDam x).slewEnd = m.slewEnd := rfl
@[simp] theorem Engine.setDam_lost (m : Engine) (x : DamState) : (m.setDam x).lost = m.lost := rfl
@[simp] theorem Engine.setDam_ring (m : Engine) (x : DamState) : (m.setDam x).ring = m.ring := rfl
@[simp] theorem Engine.setDam_cis (m : Engine) (x : DamState) : (m.setDam x).cis = m.cis := rfl
@[simp] theorem Engine.setDam_disp (m : Engine) (x : DamState) : (m.setDam x).disp = m.disp := rfl
@[simp] theorem Engine.setDam_host (m : Engine) (x : DamState) : (m.setDam x).host = m.host := rfl
@[simp] theorem Engine.setDam_mgt (m : Engine) (x : DamState) : (m.setDam x).mgt = m.mgt := rfl
@[simp] theorem Engine.setDam_lostSince (m : Engine) (x : DamState) : (m.setDam x).lostSince = m.lostSince := rfl
@[simp] theorem Engine.setDam_lostTb (m : Engine) (x : DamState) : (m.setDam x).lostTb = m.lostTb := rfl
@[simp] theorem Engine.setDam_settledAt (m : Engine) (x : DamState) : (m.setDam x).settledAt = m.settledAt := rfl
@[simp] theorem Engine.setDam_answer (m : Engine) (x : DamState) : (m.setDam x).answer = m.answer := rfl
@[simp] theorem Engine.setDam_armSpan (m : Engine) (x : DamState) : (m.setDam x).armSpan = m.armSpan := rfl
@[simp] theorem Engine.setDam_arming (m : Engine) (x : DamState) : (m.setDam x).arming = m.arming := rfl
@[simp] theorem Engine.setDam_tbLoad (m : Engine) (x : DamState) : (m.setDam x).tbLoad = m.tbLoad := rfl
@[simp] theorem Engine.setDam_wrapDue (m : Engine) (x : DamState) : (m.setDam x).wrapDue = m.wrapDue := rfl
@[simp] theorem Engine.setDam_detected (m : Engine) (x : DamState) : (m.setDam x).detected = m.detected := rfl
@[simp] theorem Engine.setDam_raised (m : Engine) (x : DamState) : (m.setDam x).raised = m.raised := rfl
@[simp] theorem Engine.setDam_freeCtr (m : Engine) (x : DamState) : (m.setDam x).freeCtr = m.freeCtr := rfl
@[simp] theorem Engine.setDam_dam (m : Engine) (x : DamState) : (m.setDam x).dam = x := rfl
@[simp] theorem Engine.reg_setDam (m : Engine) (x : DamState) (r : Nat) : (m.setDam x).reg r = m.reg r := rfl
@[simp] theorem Engine.fld_setDam (m : Engine) (x : DamState) (r : Field) : (m.setDam x).fld r = m.fld r := rfl
@[simp] theorem Engine.flag_setDam (m : Engine) (x : DamState) (r : Field) : (m.setDam x).flag r = m.flag r := rfl

/-! `setCis`. -/

@[simp] theorem Engine.setCis_regs (m : Engine) (x : CisState) : (m.setCis x).regs = m.regs := rfl
@[simp] theorem Engine.setCis_held (m : Engine) (x : CisState) : (m.setCis x).held = m.held := rfl
@[simp] theorem Engine.setCis_badParity (m : Engine) (x : CisState) : (m.setCis x).badParity = m.badParity := rfl
@[simp] theorem Engine.setCis_running (m : Engine) (x : CisState) : (m.setCis x).running = m.running := rfl
@[simp] theorem Engine.setCis_first (m : Engine) (x : CisState) : (m.setCis x).first = m.first := rfl
@[simp] theorem Engine.setCis_cc (m : Engine) (x : CisState) : (m.setCis x).cc = m.cc := rfl
@[simp] theorem Engine.setCis_tb (m : Engine) (x : CisState) : (m.setCis x).tb = m.tb := rfl
@[simp] theorem Engine.setCis_intakes (m : Engine) (x : CisState) : (m.setCis x).intakes = m.intakes := rfl
@[simp] theorem Engine.setCis_tableSet (m : Engine) (x : CisState) : (m.setCis x).tableSet = m.tableSet := rfl
@[simp] theorem Engine.setCis_tableChanges (m : Engine) (x : CisState) : (m.setCis x).tableChanges = m.tableChanges := rfl
@[simp] theorem Engine.setCis_path (m : Engine) (x : CisState) : (m.setCis x).path = m.path := rfl
@[simp] theorem Engine.setCis_gateOrders (m : Engine) (x : CisState) : (m.setCis x).gateOrders = m.gateOrders := rfl
@[simp] theorem Engine.setCis_causes (m : Engine) (x : CisState) : (m.setCis x).causes = m.causes := rfl
@[simp] theorem Engine.setCis_gate (m : Engine) (x : CisState) : (m.setCis x).gate = m.gate := rfl
@[simp] theorem Engine.setCis_store (m : Engine) (x : CisState) : (m.setCis x).store = m.store := rfl
@[simp] theorem Engine.setCis_rota (m : Engine) (x : CisState) : (m.setCis x).rota = m.rota := rfl
@[simp] theorem Engine.setCis_tank (m : Engine) (x : CisState) : (m.setCis x).tank = m.tank := rfl
@[simp] theorem Engine.setCis_slewEnd (m : Engine) (x : CisState) : (m.setCis x).slewEnd = m.slewEnd := rfl
@[simp] theorem Engine.setCis_lost (m : Engine) (x : CisState) : (m.setCis x).lost = m.lost := rfl
@[simp] theorem Engine.setCis_ring (m : Engine) (x : CisState) : (m.setCis x).ring = m.ring := rfl
@[simp] theorem Engine.setCis_dam (m : Engine) (x : CisState) : (m.setCis x).dam = m.dam := rfl
@[simp] theorem Engine.setCis_disp (m : Engine) (x : CisState) : (m.setCis x).disp = m.disp := rfl
@[simp] theorem Engine.setCis_host (m : Engine) (x : CisState) : (m.setCis x).host = m.host := rfl
@[simp] theorem Engine.setCis_mgt (m : Engine) (x : CisState) : (m.setCis x).mgt = m.mgt := rfl
@[simp] theorem Engine.setCis_lostSince (m : Engine) (x : CisState) : (m.setCis x).lostSince = m.lostSince := rfl
@[simp] theorem Engine.setCis_lostTb (m : Engine) (x : CisState) : (m.setCis x).lostTb = m.lostTb := rfl
@[simp] theorem Engine.setCis_settledAt (m : Engine) (x : CisState) : (m.setCis x).settledAt = m.settledAt := rfl
@[simp] theorem Engine.setCis_answer (m : Engine) (x : CisState) : (m.setCis x).answer = m.answer := rfl
@[simp] theorem Engine.setCis_armSpan (m : Engine) (x : CisState) : (m.setCis x).armSpan = m.armSpan := rfl
@[simp] theorem Engine.setCis_arming (m : Engine) (x : CisState) : (m.setCis x).arming = m.arming := rfl
@[simp] theorem Engine.setCis_tbLoad (m : Engine) (x : CisState) : (m.setCis x).tbLoad = m.tbLoad := rfl
@[simp] theorem Engine.setCis_wrapDue (m : Engine) (x : CisState) : (m.setCis x).wrapDue = m.wrapDue := rfl
@[simp] theorem Engine.setCis_detected (m : Engine) (x : CisState) : (m.setCis x).detected = m.detected := rfl
@[simp] theorem Engine.setCis_raised (m : Engine) (x : CisState) : (m.setCis x).raised = m.raised := rfl
@[simp] theorem Engine.setCis_freeCtr (m : Engine) (x : CisState) : (m.setCis x).freeCtr = m.freeCtr := rfl
@[simp] theorem Engine.setCis_cis (m : Engine) (x : CisState) : (m.setCis x).cis = x := rfl
@[simp] theorem Engine.reg_setCis (m : Engine) (x : CisState) (r : Nat) : (m.setCis x).reg r = m.reg r := rfl
@[simp] theorem Engine.fld_setCis (m : Engine) (x : CisState) (r : Field) : (m.setCis x).fld r = m.fld r := rfl
@[simp] theorem Engine.flag_setCis (m : Engine) (x : CisState) (r : Field) : (m.setCis x).flag r = m.flag r := rfl

/-! `setHost`. -/

@[simp] theorem Engine.setHost_regs (m : Engine) (x : HostState) : (m.setHost x).regs = m.regs := rfl
@[simp] theorem Engine.setHost_held (m : Engine) (x : HostState) : (m.setHost x).held = m.held := rfl
@[simp] theorem Engine.setHost_badParity (m : Engine) (x : HostState) : (m.setHost x).badParity = m.badParity := rfl
@[simp] theorem Engine.setHost_running (m : Engine) (x : HostState) : (m.setHost x).running = m.running := rfl
@[simp] theorem Engine.setHost_first (m : Engine) (x : HostState) : (m.setHost x).first = m.first := rfl
@[simp] theorem Engine.setHost_cc (m : Engine) (x : HostState) : (m.setHost x).cc = m.cc := rfl
@[simp] theorem Engine.setHost_tb (m : Engine) (x : HostState) : (m.setHost x).tb = m.tb := rfl
@[simp] theorem Engine.setHost_intakes (m : Engine) (x : HostState) : (m.setHost x).intakes = m.intakes := rfl
@[simp] theorem Engine.setHost_tableSet (m : Engine) (x : HostState) : (m.setHost x).tableSet = m.tableSet := rfl
@[simp] theorem Engine.setHost_tableChanges (m : Engine) (x : HostState) : (m.setHost x).tableChanges = m.tableChanges := rfl
@[simp] theorem Engine.setHost_path (m : Engine) (x : HostState) : (m.setHost x).path = m.path := rfl
@[simp] theorem Engine.setHost_gateOrders (m : Engine) (x : HostState) : (m.setHost x).gateOrders = m.gateOrders := rfl
@[simp] theorem Engine.setHost_causes (m : Engine) (x : HostState) : (m.setHost x).causes = m.causes := rfl
@[simp] theorem Engine.setHost_gate (m : Engine) (x : HostState) : (m.setHost x).gate = m.gate := rfl
@[simp] theorem Engine.setHost_store (m : Engine) (x : HostState) : (m.setHost x).store = m.store := rfl
@[simp] theorem Engine.setHost_rota (m : Engine) (x : HostState) : (m.setHost x).rota = m.rota := rfl
@[simp] theorem Engine.setHost_tank (m : Engine) (x : HostState) : (m.setHost x).tank = m.tank := rfl
@[simp] theorem Engine.setHost_slewEnd (m : Engine) (x : HostState) : (m.setHost x).slewEnd = m.slewEnd := rfl
@[simp] theorem Engine.setHost_lost (m : Engine) (x : HostState) : (m.setHost x).lost = m.lost := rfl
@[simp] theorem Engine.setHost_ring (m : Engine) (x : HostState) : (m.setHost x).ring = m.ring := rfl
@[simp] theorem Engine.setHost_dam (m : Engine) (x : HostState) : (m.setHost x).dam = m.dam := rfl
@[simp] theorem Engine.setHost_cis (m : Engine) (x : HostState) : (m.setHost x).cis = m.cis := rfl
@[simp] theorem Engine.setHost_disp (m : Engine) (x : HostState) : (m.setHost x).disp = m.disp := rfl
@[simp] theorem Engine.setHost_mgt (m : Engine) (x : HostState) : (m.setHost x).mgt = m.mgt := rfl
@[simp] theorem Engine.setHost_lostSince (m : Engine) (x : HostState) : (m.setHost x).lostSince = m.lostSince := rfl
@[simp] theorem Engine.setHost_lostTb (m : Engine) (x : HostState) : (m.setHost x).lostTb = m.lostTb := rfl
@[simp] theorem Engine.setHost_settledAt (m : Engine) (x : HostState) : (m.setHost x).settledAt = m.settledAt := rfl
@[simp] theorem Engine.setHost_answer (m : Engine) (x : HostState) : (m.setHost x).answer = m.answer := rfl
@[simp] theorem Engine.setHost_armSpan (m : Engine) (x : HostState) : (m.setHost x).armSpan = m.armSpan := rfl
@[simp] theorem Engine.setHost_arming (m : Engine) (x : HostState) : (m.setHost x).arming = m.arming := rfl
@[simp] theorem Engine.setHost_tbLoad (m : Engine) (x : HostState) : (m.setHost x).tbLoad = m.tbLoad := rfl
@[simp] theorem Engine.setHost_wrapDue (m : Engine) (x : HostState) : (m.setHost x).wrapDue = m.wrapDue := rfl
@[simp] theorem Engine.setHost_detected (m : Engine) (x : HostState) : (m.setHost x).detected = m.detected := rfl
@[simp] theorem Engine.setHost_raised (m : Engine) (x : HostState) : (m.setHost x).raised = m.raised := rfl
@[simp] theorem Engine.setHost_freeCtr (m : Engine) (x : HostState) : (m.setHost x).freeCtr = m.freeCtr := rfl
@[simp] theorem Engine.setHost_host (m : Engine) (x : HostState) : (m.setHost x).host = x := rfl
@[simp] theorem Engine.reg_setHost (m : Engine) (x : HostState) (r : Nat) : (m.setHost x).reg r = m.reg r := rfl
@[simp] theorem Engine.fld_setHost (m : Engine) (x : HostState) (r : Field) : (m.setHost x).fld r = m.fld r := rfl
@[simp] theorem Engine.flag_setHost (m : Engine) (x : HostState) (r : Field) : (m.setHost x).flag r = m.flag r := rfl

/-! `setMgt`. -/

@[simp] theorem Engine.setMgt_regs (m : Engine) (x : MgtState) : (m.setMgt x).regs = m.regs := rfl
@[simp] theorem Engine.setMgt_held (m : Engine) (x : MgtState) : (m.setMgt x).held = m.held := rfl
@[simp] theorem Engine.setMgt_badParity (m : Engine) (x : MgtState) : (m.setMgt x).badParity = m.badParity := rfl
@[simp] theorem Engine.setMgt_running (m : Engine) (x : MgtState) : (m.setMgt x).running = m.running := rfl
@[simp] theorem Engine.setMgt_first (m : Engine) (x : MgtState) : (m.setMgt x).first = m.first := rfl
@[simp] theorem Engine.setMgt_cc (m : Engine) (x : MgtState) : (m.setMgt x).cc = m.cc := rfl
@[simp] theorem Engine.setMgt_tb (m : Engine) (x : MgtState) : (m.setMgt x).tb = m.tb := rfl
@[simp] theorem Engine.setMgt_intakes (m : Engine) (x : MgtState) : (m.setMgt x).intakes = m.intakes := rfl
@[simp] theorem Engine.setMgt_tableSet (m : Engine) (x : MgtState) : (m.setMgt x).tableSet = m.tableSet := rfl
@[simp] theorem Engine.setMgt_tableChanges (m : Engine) (x : MgtState) : (m.setMgt x).tableChanges = m.tableChanges := rfl
@[simp] theorem Engine.setMgt_path (m : Engine) (x : MgtState) : (m.setMgt x).path = m.path := rfl
@[simp] theorem Engine.setMgt_gateOrders (m : Engine) (x : MgtState) : (m.setMgt x).gateOrders = m.gateOrders := rfl
@[simp] theorem Engine.setMgt_causes (m : Engine) (x : MgtState) : (m.setMgt x).causes = m.causes := rfl
@[simp] theorem Engine.setMgt_gate (m : Engine) (x : MgtState) : (m.setMgt x).gate = m.gate := rfl
@[simp] theorem Engine.setMgt_store (m : Engine) (x : MgtState) : (m.setMgt x).store = m.store := rfl
@[simp] theorem Engine.setMgt_rota (m : Engine) (x : MgtState) : (m.setMgt x).rota = m.rota := rfl
@[simp] theorem Engine.setMgt_tank (m : Engine) (x : MgtState) : (m.setMgt x).tank = m.tank := rfl
@[simp] theorem Engine.setMgt_slewEnd (m : Engine) (x : MgtState) : (m.setMgt x).slewEnd = m.slewEnd := rfl
@[simp] theorem Engine.setMgt_lost (m : Engine) (x : MgtState) : (m.setMgt x).lost = m.lost := rfl
@[simp] theorem Engine.setMgt_ring (m : Engine) (x : MgtState) : (m.setMgt x).ring = m.ring := rfl
@[simp] theorem Engine.setMgt_dam (m : Engine) (x : MgtState) : (m.setMgt x).dam = m.dam := rfl
@[simp] theorem Engine.setMgt_cis (m : Engine) (x : MgtState) : (m.setMgt x).cis = m.cis := rfl
@[simp] theorem Engine.setMgt_disp (m : Engine) (x : MgtState) : (m.setMgt x).disp = m.disp := rfl
@[simp] theorem Engine.setMgt_host (m : Engine) (x : MgtState) : (m.setMgt x).host = m.host := rfl
@[simp] theorem Engine.setMgt_lostSince (m : Engine) (x : MgtState) : (m.setMgt x).lostSince = m.lostSince := rfl
@[simp] theorem Engine.setMgt_lostTb (m : Engine) (x : MgtState) : (m.setMgt x).lostTb = m.lostTb := rfl
@[simp] theorem Engine.setMgt_settledAt (m : Engine) (x : MgtState) : (m.setMgt x).settledAt = m.settledAt := rfl
@[simp] theorem Engine.setMgt_answer (m : Engine) (x : MgtState) : (m.setMgt x).answer = m.answer := rfl
@[simp] theorem Engine.setMgt_armSpan (m : Engine) (x : MgtState) : (m.setMgt x).armSpan = m.armSpan := rfl
@[simp] theorem Engine.setMgt_arming (m : Engine) (x : MgtState) : (m.setMgt x).arming = m.arming := rfl
@[simp] theorem Engine.setMgt_tbLoad (m : Engine) (x : MgtState) : (m.setMgt x).tbLoad = m.tbLoad := rfl
@[simp] theorem Engine.setMgt_wrapDue (m : Engine) (x : MgtState) : (m.setMgt x).wrapDue = m.wrapDue := rfl
@[simp] theorem Engine.setMgt_detected (m : Engine) (x : MgtState) : (m.setMgt x).detected = m.detected := rfl
@[simp] theorem Engine.setMgt_raised (m : Engine) (x : MgtState) : (m.setMgt x).raised = m.raised := rfl
@[simp] theorem Engine.setMgt_freeCtr (m : Engine) (x : MgtState) : (m.setMgt x).freeCtr = m.freeCtr := rfl
@[simp] theorem Engine.setMgt_mgt (m : Engine) (x : MgtState) : (m.setMgt x).mgt = x := rfl
@[simp] theorem Engine.reg_setMgt (m : Engine) (x : MgtState) (r : Nat) : (m.setMgt x).reg r = m.reg r := rfl
@[simp] theorem Engine.fld_setMgt (m : Engine) (x : MgtState) (r : Field) : (m.setMgt x).fld r = m.fld r := rfl
@[simp] theorem Engine.flag_setMgt (m : Engine) (x : MgtState) (r : Field) : (m.setMgt x).flag r = m.flag r := rfl

/-! `log`. -/

@[simp] theorem Engine.log_regs (m : Engine) (p c k d : Nat) (t : Tb) : (m.log p c k d t).regs = m.regs := rfl
@[simp] theorem Engine.log_held (m : Engine) (p c k d : Nat) (t : Tb) : (m.log p c k d t).held = m.held := rfl
@[simp] theorem Engine.log_badParity (m : Engine) (p c k d : Nat) (t : Tb) : (m.log p c k d t).badParity = m.badParity := rfl
@[simp] theorem Engine.log_running (m : Engine) (p c k d : Nat) (t : Tb) : (m.log p c k d t).running = m.running := rfl
@[simp] theorem Engine.log_first (m : Engine) (p c k d : Nat) (t : Tb) : (m.log p c k d t).first = m.first := rfl
@[simp] theorem Engine.log_cc (m : Engine) (p c k d : Nat) (t : Tb) : (m.log p c k d t).cc = m.cc := rfl
@[simp] theorem Engine.log_tb (m : Engine) (p c k d : Nat) (t : Tb) : (m.log p c k d t).tb = m.tb := rfl
@[simp] theorem Engine.log_intakes (m : Engine) (p c k d : Nat) (t : Tb) : (m.log p c k d t).intakes = m.intakes := rfl
@[simp] theorem Engine.log_tableSet (m : Engine) (p c k d : Nat) (t : Tb) : (m.log p c k d t).tableSet = m.tableSet := rfl
@[simp] theorem Engine.log_tableChanges (m : Engine) (p c k d : Nat) (t : Tb) : (m.log p c k d t).tableChanges = m.tableChanges := rfl
@[simp] theorem Engine.log_path (m : Engine) (p c k d : Nat) (t : Tb) : (m.log p c k d t).path = m.path := rfl
@[simp] theorem Engine.log_gateOrders (m : Engine) (p c k d : Nat) (t : Tb) : (m.log p c k d t).gateOrders = m.gateOrders := rfl
@[simp] theorem Engine.log_causes (m : Engine) (p c k d : Nat) (t : Tb) : (m.log p c k d t).causes = m.causes := rfl
@[simp] theorem Engine.log_gate (m : Engine) (p c k d : Nat) (t : Tb) : (m.log p c k d t).gate = m.gate := rfl
@[simp] theorem Engine.log_store (m : Engine) (p c k d : Nat) (t : Tb) : (m.log p c k d t).store = m.store := rfl
@[simp] theorem Engine.log_rota (m : Engine) (p c k d : Nat) (t : Tb) : (m.log p c k d t).rota = m.rota := rfl
@[simp] theorem Engine.log_tank (m : Engine) (p c k d : Nat) (t : Tb) : (m.log p c k d t).tank = m.tank := rfl
@[simp] theorem Engine.log_slewEnd (m : Engine) (p c k d : Nat) (t : Tb) : (m.log p c k d t).slewEnd = m.slewEnd := rfl
@[simp] theorem Engine.log_lost (m : Engine) (p c k d : Nat) (t : Tb) : (m.log p c k d t).lost = m.lost := rfl
@[simp] theorem Engine.log_ring (m : Engine) (p c k d : Nat) (t : Tb) : (m.log p c k d t).ring = m.ring := rfl
@[simp] theorem Engine.log_dam (m : Engine) (p c k d : Nat) (t : Tb) : (m.log p c k d t).dam = m.dam := rfl
@[simp] theorem Engine.log_cis (m : Engine) (p c k d : Nat) (t : Tb) : (m.log p c k d t).cis = m.cis := rfl
@[simp] theorem Engine.log_disp (m : Engine) (p c k d : Nat) (t : Tb) : (m.log p c k d t).disp = m.disp := rfl
@[simp] theorem Engine.log_host (m : Engine) (p c k d : Nat) (t : Tb) : (m.log p c k d t).host = m.host := rfl
@[simp] theorem Engine.log_mgt (m : Engine) (p c k d : Nat) (t : Tb) : (m.log p c k d t).mgt = m.mgt := rfl
@[simp] theorem Engine.log_lostSince (m : Engine) (p c k d : Nat) (t : Tb) : (m.log p c k d t).lostSince = m.lostSince := rfl
@[simp] theorem Engine.log_lostTb (m : Engine) (p c k d : Nat) (t : Tb) : (m.log p c k d t).lostTb = m.lostTb := rfl
@[simp] theorem Engine.log_settledAt (m : Engine) (p c k d : Nat) (t : Tb) : (m.log p c k d t).settledAt = m.settledAt := rfl
@[simp] theorem Engine.log_answer (m : Engine) (p c k d : Nat) (t : Tb) : (m.log p c k d t).answer = m.answer := rfl
@[simp] theorem Engine.log_armSpan (m : Engine) (p c k d : Nat) (t : Tb) : (m.log p c k d t).armSpan = m.armSpan := rfl
@[simp] theorem Engine.log_arming (m : Engine) (p c k d : Nat) (t : Tb) : (m.log p c k d t).arming = m.arming := rfl
@[simp] theorem Engine.log_tbLoad (m : Engine) (p c k d : Nat) (t : Tb) : (m.log p c k d t).tbLoad = m.tbLoad := rfl
@[simp] theorem Engine.log_wrapDue (m : Engine) (p c k d : Nat) (t : Tb) : (m.log p c k d t).wrapDue = m.wrapDue := rfl
@[simp] theorem Engine.log_raised (m : Engine) (p c k d : Nat) (t : Tb) : (m.log p c k d t).raised = m.raised := rfl
@[simp] theorem Engine.log_freeCtr (m : Engine) (p c k d : Nat) (t : Tb) : (m.log p c k d t).freeCtr = m.freeCtr := rfl
@[simp] theorem Engine.reg_log (m : Engine) (p c k d : Nat) (t : Tb) (r : Nat) : (m.log p c k d t).reg r = m.reg r := rfl
@[simp] theorem Engine.fld_log (m : Engine) (p c k d : Nat) (t : Tb) (r : Field) : (m.log p c k d t).fld r = m.fld r := rfl
@[simp] theorem Engine.flag_log (m : Engine) (p c k d : Nat) (t : Tb) (r : Field) : (m.log p c k d t).flag r = m.flag r := rfl

/-! `logNow`. -/

@[simp] theorem Engine.logNow_regs (m : Engine) (p c k d : Nat) : (m.logNow p c k d).regs = m.regs := rfl
@[simp] theorem Engine.logNow_held (m : Engine) (p c k d : Nat) : (m.logNow p c k d).held = m.held := rfl
@[simp] theorem Engine.logNow_badParity (m : Engine) (p c k d : Nat) : (m.logNow p c k d).badParity = m.badParity := rfl
@[simp] theorem Engine.logNow_running (m : Engine) (p c k d : Nat) : (m.logNow p c k d).running = m.running := rfl
@[simp] theorem Engine.logNow_first (m : Engine) (p c k d : Nat) : (m.logNow p c k d).first = m.first := rfl
@[simp] theorem Engine.logNow_cc (m : Engine) (p c k d : Nat) : (m.logNow p c k d).cc = m.cc := rfl
@[simp] theorem Engine.logNow_tb (m : Engine) (p c k d : Nat) : (m.logNow p c k d).tb = m.tb := rfl
@[simp] theorem Engine.logNow_intakes (m : Engine) (p c k d : Nat) : (m.logNow p c k d).intakes = m.intakes := rfl
@[simp] theorem Engine.logNow_tableSet (m : Engine) (p c k d : Nat) : (m.logNow p c k d).tableSet = m.tableSet := rfl
@[simp] theorem Engine.logNow_tableChanges (m : Engine) (p c k d : Nat) : (m.logNow p c k d).tableChanges = m.tableChanges := rfl
@[simp] theorem Engine.logNow_path (m : Engine) (p c k d : Nat) : (m.logNow p c k d).path = m.path := rfl
@[simp] theorem Engine.logNow_gateOrders (m : Engine) (p c k d : Nat) : (m.logNow p c k d).gateOrders = m.gateOrders := rfl
@[simp] theorem Engine.logNow_causes (m : Engine) (p c k d : Nat) : (m.logNow p c k d).causes = m.causes := rfl
@[simp] theorem Engine.logNow_gate (m : Engine) (p c k d : Nat) : (m.logNow p c k d).gate = m.gate := rfl
@[simp] theorem Engine.logNow_store (m : Engine) (p c k d : Nat) : (m.logNow p c k d).store = m.store := rfl
@[simp] theorem Engine.logNow_rota (m : Engine) (p c k d : Nat) : (m.logNow p c k d).rota = m.rota := rfl
@[simp] theorem Engine.logNow_tank (m : Engine) (p c k d : Nat) : (m.logNow p c k d).tank = m.tank := rfl
@[simp] theorem Engine.logNow_slewEnd (m : Engine) (p c k d : Nat) : (m.logNow p c k d).slewEnd = m.slewEnd := rfl
@[simp] theorem Engine.logNow_lost (m : Engine) (p c k d : Nat) : (m.logNow p c k d).lost = m.lost := rfl
@[simp] theorem Engine.logNow_ring (m : Engine) (p c k d : Nat) : (m.logNow p c k d).ring = m.ring := rfl
@[simp] theorem Engine.logNow_dam (m : Engine) (p c k d : Nat) : (m.logNow p c k d).dam = m.dam := rfl
@[simp] theorem Engine.logNow_cis (m : Engine) (p c k d : Nat) : (m.logNow p c k d).cis = m.cis := rfl
@[simp] theorem Engine.logNow_disp (m : Engine) (p c k d : Nat) : (m.logNow p c k d).disp = m.disp := rfl
@[simp] theorem Engine.logNow_host (m : Engine) (p c k d : Nat) : (m.logNow p c k d).host = m.host := rfl
@[simp] theorem Engine.logNow_mgt (m : Engine) (p c k d : Nat) : (m.logNow p c k d).mgt = m.mgt := rfl
@[simp] theorem Engine.logNow_lostSince (m : Engine) (p c k d : Nat) : (m.logNow p c k d).lostSince = m.lostSince := rfl
@[simp] theorem Engine.logNow_lostTb (m : Engine) (p c k d : Nat) : (m.logNow p c k d).lostTb = m.lostTb := rfl
@[simp] theorem Engine.logNow_settledAt (m : Engine) (p c k d : Nat) : (m.logNow p c k d).settledAt = m.settledAt := rfl
@[simp] theorem Engine.logNow_answer (m : Engine) (p c k d : Nat) : (m.logNow p c k d).answer = m.answer := rfl
@[simp] theorem Engine.logNow_armSpan (m : Engine) (p c k d : Nat) : (m.logNow p c k d).armSpan = m.armSpan := rfl
@[simp] theorem Engine.logNow_arming (m : Engine) (p c k d : Nat) : (m.logNow p c k d).arming = m.arming := rfl
@[simp] theorem Engine.logNow_tbLoad (m : Engine) (p c k d : Nat) : (m.logNow p c k d).tbLoad = m.tbLoad := rfl
@[simp] theorem Engine.logNow_wrapDue (m : Engine) (p c k d : Nat) : (m.logNow p c k d).wrapDue = m.wrapDue := rfl
@[simp] theorem Engine.logNow_raised (m : Engine) (p c k d : Nat) : (m.logNow p c k d).raised = m.raised := rfl
@[simp] theorem Engine.logNow_freeCtr (m : Engine) (p c k d : Nat) : (m.logNow p c k d).freeCtr = m.freeCtr := rfl
@[simp] theorem Engine.reg_logNow (m : Engine) (p c k d : Nat) (r : Nat) : (m.logNow p c k d).reg r = m.reg r := rfl
@[simp] theorem Engine.fld_logNow (m : Engine) (p c k d : Nat) (r : Field) : (m.logNow p c k d).fld r = m.fld r := rfl
@[simp] theorem Engine.flag_logNow (m : Engine) (p c k d : Nat) (r : Field) : (m.logNow p c k d).flag r = m.flag r := rfl

/-! `reply`. -/

@[simp] theorem Engine.reply_regs (m : Engine) (x : Answer) : (m.reply x).regs = m.regs := rfl
@[simp] theorem Engine.reply_held (m : Engine) (x : Answer) : (m.reply x).held = m.held := rfl
@[simp] theorem Engine.reply_badParity (m : Engine) (x : Answer) : (m.reply x).badParity = m.badParity := rfl
@[simp] theorem Engine.reply_running (m : Engine) (x : Answer) : (m.reply x).running = m.running := rfl
@[simp] theorem Engine.reply_first (m : Engine) (x : Answer) : (m.reply x).first = m.first := rfl
@[simp] theorem Engine.reply_cc (m : Engine) (x : Answer) : (m.reply x).cc = m.cc := rfl
@[simp] theorem Engine.reply_tb (m : Engine) (x : Answer) : (m.reply x).tb = m.tb := rfl
@[simp] theorem Engine.reply_intakes (m : Engine) (x : Answer) : (m.reply x).intakes = m.intakes := rfl
@[simp] theorem Engine.reply_tableSet (m : Engine) (x : Answer) : (m.reply x).tableSet = m.tableSet := rfl
@[simp] theorem Engine.reply_tableChanges (m : Engine) (x : Answer) : (m.reply x).tableChanges = m.tableChanges := rfl
@[simp] theorem Engine.reply_path (m : Engine) (x : Answer) : (m.reply x).path = m.path := rfl
@[simp] theorem Engine.reply_gateOrders (m : Engine) (x : Answer) : (m.reply x).gateOrders = m.gateOrders := rfl
@[simp] theorem Engine.reply_causes (m : Engine) (x : Answer) : (m.reply x).causes = m.causes := rfl
@[simp] theorem Engine.reply_gate (m : Engine) (x : Answer) : (m.reply x).gate = m.gate := rfl
@[simp] theorem Engine.reply_store (m : Engine) (x : Answer) : (m.reply x).store = m.store := rfl
@[simp] theorem Engine.reply_rota (m : Engine) (x : Answer) : (m.reply x).rota = m.rota := rfl
@[simp] theorem Engine.reply_tank (m : Engine) (x : Answer) : (m.reply x).tank = m.tank := rfl
@[simp] theorem Engine.reply_slewEnd (m : Engine) (x : Answer) : (m.reply x).slewEnd = m.slewEnd := rfl
@[simp] theorem Engine.reply_lost (m : Engine) (x : Answer) : (m.reply x).lost = m.lost := rfl
@[simp] theorem Engine.reply_ring (m : Engine) (x : Answer) : (m.reply x).ring = m.ring := rfl
@[simp] theorem Engine.reply_dam (m : Engine) (x : Answer) : (m.reply x).dam = m.dam := rfl
@[simp] theorem Engine.reply_cis (m : Engine) (x : Answer) : (m.reply x).cis = m.cis := rfl
@[simp] theorem Engine.reply_disp (m : Engine) (x : Answer) : (m.reply x).disp = m.disp := rfl
@[simp] theorem Engine.reply_host (m : Engine) (x : Answer) : (m.reply x).host = m.host := rfl
@[simp] theorem Engine.reply_mgt (m : Engine) (x : Answer) : (m.reply x).mgt = m.mgt := rfl
@[simp] theorem Engine.reply_lostSince (m : Engine) (x : Answer) : (m.reply x).lostSince = m.lostSince := rfl
@[simp] theorem Engine.reply_lostTb (m : Engine) (x : Answer) : (m.reply x).lostTb = m.lostTb := rfl
@[simp] theorem Engine.reply_settledAt (m : Engine) (x : Answer) : (m.reply x).settledAt = m.settledAt := rfl
@[simp] theorem Engine.reply_armSpan (m : Engine) (x : Answer) : (m.reply x).armSpan = m.armSpan := rfl
@[simp] theorem Engine.reply_arming (m : Engine) (x : Answer) : (m.reply x).arming = m.arming := rfl
@[simp] theorem Engine.reply_tbLoad (m : Engine) (x : Answer) : (m.reply x).tbLoad = m.tbLoad := rfl
@[simp] theorem Engine.reply_wrapDue (m : Engine) (x : Answer) : (m.reply x).wrapDue = m.wrapDue := rfl
@[simp] theorem Engine.reply_detected (m : Engine) (x : Answer) : (m.reply x).detected = m.detected := rfl
@[simp] theorem Engine.reply_raised (m : Engine) (x : Answer) : (m.reply x).raised = m.raised := rfl
@[simp] theorem Engine.reply_freeCtr (m : Engine) (x : Answer) : (m.reply x).freeCtr = m.freeCtr := rfl
@[simp] theorem Engine.reply_answer (m : Engine) (x : Answer) : (m.reply x).answer = x := rfl
@[simp] theorem Engine.reg_reply (m : Engine) (x : Answer) (r : Nat) : (m.reply x).reg r = m.reg r := rfl
@[simp] theorem Engine.fld_reply (m : Engine) (x : Answer) (r : Field) : (m.reply x).fld r = m.fld r := rfl
@[simp] theorem Engine.flag_reply (m : Engine) (x : Answer) (r : Field) : (m.reply x).flag r = m.flag r := rfl

/-! PAGE_STATUS bits and events. -/

@[simp] theorem Engine.raise_regs (m : Engine) (p : Nat) (w : Word) : (m.raise p w).regs = m.regs := by unfold Engine.raise; split <;> rfl
@[simp] theorem Engine.raise_held (m : Engine) (p : Nat) (w : Word) : (m.raise p w).held = m.held := by unfold Engine.raise; split <;> rfl
@[simp] theorem Engine.raise_badParity (m : Engine) (p : Nat) (w : Word) : (m.raise p w).badParity = m.badParity := by unfold Engine.raise; split <;> rfl
@[simp] theorem Engine.raise_running (m : Engine) (p : Nat) (w : Word) : (m.raise p w).running = m.running := by unfold Engine.raise; split <;> rfl
@[simp] theorem Engine.raise_first (m : Engine) (p : Nat) (w : Word) : (m.raise p w).first = m.first := by unfold Engine.raise; split <;> rfl
@[simp] theorem Engine.raise_cc (m : Engine) (p : Nat) (w : Word) : (m.raise p w).cc = m.cc := by unfold Engine.raise; split <;> rfl
@[simp] theorem Engine.raise_tb (m : Engine) (p : Nat) (w : Word) : (m.raise p w).tb = m.tb := by unfold Engine.raise; split <;> rfl
@[simp] theorem Engine.raise_intakes (m : Engine) (p : Nat) (w : Word) : (m.raise p w).intakes = m.intakes := by unfold Engine.raise; split <;> rfl
@[simp] theorem Engine.raise_tableSet (m : Engine) (p : Nat) (w : Word) : (m.raise p w).tableSet = m.tableSet := by unfold Engine.raise; split <;> rfl
@[simp] theorem Engine.raise_tableChanges (m : Engine) (p : Nat) (w : Word) : (m.raise p w).tableChanges = m.tableChanges := by unfold Engine.raise; split <;> rfl
@[simp] theorem Engine.raise_path (m : Engine) (p : Nat) (w : Word) : (m.raise p w).path = m.path := by unfold Engine.raise; split <;> rfl
@[simp] theorem Engine.raise_gateOrders (m : Engine) (p : Nat) (w : Word) : (m.raise p w).gateOrders = m.gateOrders := by unfold Engine.raise; split <;> rfl
@[simp] theorem Engine.raise_causes (m : Engine) (p : Nat) (w : Word) : (m.raise p w).causes = m.causes := by unfold Engine.raise; split <;> rfl
@[simp] theorem Engine.raise_gate (m : Engine) (p : Nat) (w : Word) : (m.raise p w).gate = m.gate := by unfold Engine.raise; split <;> rfl
@[simp] theorem Engine.raise_store (m : Engine) (p : Nat) (w : Word) : (m.raise p w).store = m.store := by unfold Engine.raise; split <;> rfl
@[simp] theorem Engine.raise_rota (m : Engine) (p : Nat) (w : Word) : (m.raise p w).rota = m.rota := by unfold Engine.raise; split <;> rfl
@[simp] theorem Engine.raise_tank (m : Engine) (p : Nat) (w : Word) : (m.raise p w).tank = m.tank := by unfold Engine.raise; split <;> rfl
@[simp] theorem Engine.raise_slewEnd (m : Engine) (p : Nat) (w : Word) : (m.raise p w).slewEnd = m.slewEnd := by unfold Engine.raise; split <;> rfl
@[simp] theorem Engine.raise_lost (m : Engine) (p : Nat) (w : Word) : (m.raise p w).lost = m.lost := by unfold Engine.raise; split <;> rfl
@[simp] theorem Engine.raise_ring (m : Engine) (p : Nat) (w : Word) : (m.raise p w).ring = m.ring := by unfold Engine.raise; split <;> rfl
@[simp] theorem Engine.raise_dam (m : Engine) (p : Nat) (w : Word) : (m.raise p w).dam = m.dam := by unfold Engine.raise; split <;> rfl
@[simp] theorem Engine.raise_cis (m : Engine) (p : Nat) (w : Word) : (m.raise p w).cis = m.cis := by unfold Engine.raise; split <;> rfl
@[simp] theorem Engine.raise_disp (m : Engine) (p : Nat) (w : Word) : (m.raise p w).disp = m.disp := by unfold Engine.raise; split <;> rfl
@[simp] theorem Engine.raise_host (m : Engine) (p : Nat) (w : Word) : (m.raise p w).host = m.host := by unfold Engine.raise; split <;> rfl
@[simp] theorem Engine.raise_mgt (m : Engine) (p : Nat) (w : Word) : (m.raise p w).mgt = m.mgt := by unfold Engine.raise; split <;> rfl
@[simp] theorem Engine.raise_lostSince (m : Engine) (p : Nat) (w : Word) : (m.raise p w).lostSince = m.lostSince := by unfold Engine.raise; split <;> rfl
@[simp] theorem Engine.raise_lostTb (m : Engine) (p : Nat) (w : Word) : (m.raise p w).lostTb = m.lostTb := by unfold Engine.raise; split <;> rfl
@[simp] theorem Engine.raise_settledAt (m : Engine) (p : Nat) (w : Word) : (m.raise p w).settledAt = m.settledAt := by unfold Engine.raise; split <;> rfl
@[simp] theorem Engine.raise_answer (m : Engine) (p : Nat) (w : Word) : (m.raise p w).answer = m.answer := by unfold Engine.raise; split <;> rfl
@[simp] theorem Engine.raise_armSpan (m : Engine) (p : Nat) (w : Word) : (m.raise p w).armSpan = m.armSpan := by unfold Engine.raise; split <;> rfl
@[simp] theorem Engine.raise_arming (m : Engine) (p : Nat) (w : Word) : (m.raise p w).arming = m.arming := by unfold Engine.raise; split <;> rfl
@[simp] theorem Engine.raise_tbLoad (m : Engine) (p : Nat) (w : Word) : (m.raise p w).tbLoad = m.tbLoad := by unfold Engine.raise; split <;> rfl
@[simp] theorem Engine.raise_wrapDue (m : Engine) (p : Nat) (w : Word) : (m.raise p w).wrapDue = m.wrapDue := by unfold Engine.raise; split <;> rfl
@[simp] theorem Engine.raise_detected (m : Engine) (p : Nat) (w : Word) : (m.raise p w).detected = m.detected := by unfold Engine.raise; split <;> rfl
@[simp] theorem Engine.raise_freeCtr (m : Engine) (p : Nat) (w : Word) : (m.raise p w).freeCtr = m.freeCtr := by unfold Engine.raise; split <;> rfl
@[simp] theorem Engine.reg_raise (m : Engine) (p : Nat) (w : Word) (r : Nat) : (m.raise p w).reg r = m.reg r := by unfold Engine.reg; rw [Engine.raise_regs]
@[simp] theorem Engine.status_held (m : Engine) (b : PageBit) : (m.status b).held = m.held := by unfold Engine.status; dsimp only; split_ifs <;> simp
@[simp] theorem Engine.status_badParity (m : Engine) (b : PageBit) : (m.status b).badParity = m.badParity := by unfold Engine.status; dsimp only; split_ifs <;> simp
@[simp] theorem Engine.status_running (m : Engine) (b : PageBit) : (m.status b).running = m.running := by unfold Engine.status; dsimp only; split_ifs <;> simp
@[simp] theorem Engine.status_first (m : Engine) (b : PageBit) : (m.status b).first = m.first := by unfold Engine.status; dsimp only; split_ifs <;> simp
@[simp] theorem Engine.status_cc (m : Engine) (b : PageBit) : (m.status b).cc = m.cc := by unfold Engine.status; dsimp only; split_ifs <;> simp
@[simp] theorem Engine.status_tb (m : Engine) (b : PageBit) : (m.status b).tb = m.tb := by unfold Engine.status; dsimp only; split_ifs <;> simp
@[simp] theorem Engine.status_intakes (m : Engine) (b : PageBit) : (m.status b).intakes = m.intakes := by unfold Engine.status; dsimp only; split_ifs <;> simp
@[simp] theorem Engine.status_tableSet (m : Engine) (b : PageBit) : (m.status b).tableSet = m.tableSet := by unfold Engine.status; dsimp only; split_ifs <;> simp
@[simp] theorem Engine.status_tableChanges (m : Engine) (b : PageBit) : (m.status b).tableChanges = m.tableChanges := by unfold Engine.status; dsimp only; split_ifs <;> simp
@[simp] theorem Engine.status_path (m : Engine) (b : PageBit) : (m.status b).path = m.path := by unfold Engine.status; dsimp only; split_ifs <;> simp
@[simp] theorem Engine.status_gateOrders (m : Engine) (b : PageBit) : (m.status b).gateOrders = m.gateOrders := by unfold Engine.status; dsimp only; split_ifs <;> simp
@[simp] theorem Engine.status_causes (m : Engine) (b : PageBit) : (m.status b).causes = m.causes := by unfold Engine.status; dsimp only; split_ifs <;> simp
@[simp] theorem Engine.status_gate (m : Engine) (b : PageBit) : (m.status b).gate = m.gate := by unfold Engine.status; dsimp only; split_ifs <;> simp
@[simp] theorem Engine.status_store (m : Engine) (b : PageBit) : (m.status b).store = m.store := by unfold Engine.status; dsimp only; split_ifs <;> simp
@[simp] theorem Engine.status_rota (m : Engine) (b : PageBit) : (m.status b).rota = m.rota := by unfold Engine.status; dsimp only; split_ifs <;> simp
@[simp] theorem Engine.status_tank (m : Engine) (b : PageBit) : (m.status b).tank = m.tank := by unfold Engine.status; dsimp only; split_ifs <;> simp
@[simp] theorem Engine.status_slewEnd (m : Engine) (b : PageBit) : (m.status b).slewEnd = m.slewEnd := by unfold Engine.status; dsimp only; split_ifs <;> simp
@[simp] theorem Engine.status_lost (m : Engine) (b : PageBit) : (m.status b).lost = m.lost := by unfold Engine.status; dsimp only; split_ifs <;> simp
@[simp] theorem Engine.status_ring (m : Engine) (b : PageBit) : (m.status b).ring = m.ring := by unfold Engine.status; dsimp only; split_ifs <;> simp
@[simp] theorem Engine.status_dam (m : Engine) (b : PageBit) : (m.status b).dam = m.dam := by unfold Engine.status; dsimp only; split_ifs <;> simp
@[simp] theorem Engine.status_cis (m : Engine) (b : PageBit) : (m.status b).cis = m.cis := by unfold Engine.status; dsimp only; split_ifs <;> simp
@[simp] theorem Engine.status_disp (m : Engine) (b : PageBit) : (m.status b).disp = m.disp := by unfold Engine.status; dsimp only; split_ifs <;> simp
@[simp] theorem Engine.status_host (m : Engine) (b : PageBit) : (m.status b).host = m.host := by unfold Engine.status; dsimp only; split_ifs <;> simp
@[simp] theorem Engine.status_mgt (m : Engine) (b : PageBit) : (m.status b).mgt = m.mgt := by unfold Engine.status; dsimp only; split_ifs <;> simp
@[simp] theorem Engine.status_lostSince (m : Engine) (b : PageBit) : (m.status b).lostSince = m.lostSince := by unfold Engine.status; dsimp only; split_ifs <;> simp
@[simp] theorem Engine.status_lostTb (m : Engine) (b : PageBit) : (m.status b).lostTb = m.lostTb := by unfold Engine.status; dsimp only; split_ifs <;> simp
@[simp] theorem Engine.status_settledAt (m : Engine) (b : PageBit) : (m.status b).settledAt = m.settledAt := by unfold Engine.status; dsimp only; split_ifs <;> simp
@[simp] theorem Engine.status_answer (m : Engine) (b : PageBit) : (m.status b).answer = m.answer := by unfold Engine.status; dsimp only; split_ifs <;> simp
@[simp] theorem Engine.status_armSpan (m : Engine) (b : PageBit) : (m.status b).armSpan = m.armSpan := by unfold Engine.status; dsimp only; split_ifs <;> simp
@[simp] theorem Engine.status_arming (m : Engine) (b : PageBit) : (m.status b).arming = m.arming := by unfold Engine.status; dsimp only; split_ifs <;> simp
@[simp] theorem Engine.status_tbLoad (m : Engine) (b : PageBit) : (m.status b).tbLoad = m.tbLoad := by unfold Engine.status; dsimp only; split_ifs <;> simp
@[simp] theorem Engine.status_wrapDue (m : Engine) (b : PageBit) : (m.status b).wrapDue = m.wrapDue := by unfold Engine.status; dsimp only; split_ifs <;> simp
@[simp] theorem Engine.status_detected (m : Engine) (b : PageBit) : (m.status b).detected = m.detected := by unfold Engine.status; dsimp only; split_ifs <;> simp
@[simp] theorem Engine.status_freeCtr (m : Engine) (b : PageBit) : (m.status b).freeCtr = m.freeCtr := by unfold Engine.status; dsimp only; split_ifs <;> simp

/-- Setting a PAGE_STATUS bit changes no other register. -/
theorem Engine.reg_status_ne (m : Engine) (b : PageBit) {r : Nat} (h : r ≠ statusAddr b.page) : (m.status b).reg r = m.reg r := by
  unfold Engine.status
  dsimp only
  split
  · rfl
  · split
    · rw [Engine.reg_raise, Engine.reg_setReg_ne _ _ h]
    · rw [Engine.reg_setReg_ne _ _ h]

/-- A field of another register is as before after a PAGE_STATUS bit was set. -/
theorem Engine.fld_status_ne (m : Engine) (b : PageBit) {f : Field} (h : f.addr ≠ statusAddr b.page) : (m.status b).fld f = m.fld f := by
  unfold Engine.fld; rw [Engine.reg_status_ne m b h]

/-- A field of another register is as before after a register was set. -/
theorem Engine.fld_setReg_ne (m : Engine) {f : Field} {a : Nat} (v : Word) (h : f.addr ≠ a) : (m.setReg a v).fld f = m.fld f := by
  unfold Engine.fld; rw [Engine.reg_setReg_ne m v h]

theorem Engine.fld_setFld_ne (m : Engine) {f g : Field} (v : Nat) (h : f.addr ≠ g.addr) : (m.setFld g v).fld f = m.fld f := m.fld_setReg_ne _ h

theorem Engine.flag_setFlag_ne (m : Engine) {f g : Field} (b : Bool) (h : f.addr ≠ g.addr) : (m.setFlag g b).flag f = m.flag f := by
  unfold Engine.flag; rw [show (m.setFlag g b).fld f = m.fld f from m.fld_setReg_ne _ h]

/-- A field put into a word reads back. -/
theorem bitsOf_putBits (w : Word) (lo width v : Nat) (h : lo + width ≤ 32) : bitsOf (putBits w lo width v).toNat lo width = v % 2 ^ width := by
  apply Nat.eq_of_testBit_eq
  intro i
  unfold bitsOf putBits
  simp only [BitVec.toNat_or, BitVec.toNat_and, BitVec.toNat_not, BitVec.toNat_shiftLeft, BitVec.toNat_ofNat, Nat.testBit_mod_two_pow, Nat.testBit_shiftRight, Nat.testBit_or,
    Nat.testBit_and, Nat.testBit_shiftLeft]
  by_cases hi : i < width
  · have h1 : lo + i < 32 := by omega
    have h3 : ((2 ^ width - 1) <<< lo % 2 ^ 32).testBit (lo + i) = true := by
      rw [Nat.testBit_mod_two_pow, Nat.testBit_shiftLeft, Nat.testBit_two_pow_sub_one]
      simp; omega
    have h2 : (2 ^ 32 - 1 - (2 ^ width - 1) <<< lo % 2 ^ 32).testBit (lo + i) = false := by
      rw [show 2 ^ 32 - 1 - (2 ^ width - 1) <<< lo % 2 ^ 32 = 2 ^ 32 - ((2 ^ width - 1) <<< lo % 2 ^ 32 + 1) by omega, Nat.testBit_two_pow_sub_succ (Nat.mod_lt _ (by decide)), h3]
      simp
    rw [h2]
    simp [hi, h1]
    omega
  · have : (v % 2 ^ width).testBit i = false := by simp [Nat.testBit_mod_two_pow, hi]
    simp [hi]

/-- A field of a register that was set reads back. -/
theorem Engine.fld_setFld_same (m : Engine) (f : Field) (v : Nat) (h : f.lo + f.width ≤ 32) : (m.setFld f v).fld f = v % 2 ^ f.width := by
  unfold Engine.fld Engine.setFld; rw [Engine.reg_setReg_same]; exact bitsOf_putBits _ _ _ _ h

/-- A flag that was set reads back. -/
theorem Engine.flag_setFlag_same (m : Engine) (f : Field) (b : Bool) (h : f.lo < 32) (hw : f.width = 1) : (m.setFlag f b).flag f = b := by
  unfold Engine.flag Engine.setFlag
  rw [Engine.fld_setFld_same m f _ (by omega), hw]
  cases b <;> rfl

end Sys2Proof.Machine
end

