-- ==== Sys2Proof/Laws/Chip.lean ====
section
/-! SUPPORT. The operations over the chip: what they keep of the memories' canonical form, what they leave alone, and what the shared forms of the commands answer. -/
namespace Sys2Proof.Machine

/-! The memories. -/

/-- A write entry stored into the cistern keeps its canonical form. -/
theorem CisWrite.store_wf (w : CisWrite) {c : Memory} (h : Memory.wf c = true) : Memory.wf (w.store c) = true := writeBytes_wf _ _ h

theorem zeroPc_wf (m : Engine) (p : Nat) {c : Memory} (h : Memory.wf c = true) : Memory.wf (zeroPc m p c) = true := filter_wf _ h

/-- Single bytes written one after another keep the canonical form. -/
theorem foldl_writeByte_wf {X : Type} (place : X → Nat) (byte : X → Byte) (xs : List X) {m : Memory} (h : Memory.wf m = true) :
    Memory.wf (xs.foldl (fun t x => writeByte t (place x) (byte x)) m) = true :=
  List.foldlRecOn (motive := fun t => Memory.wf t = true) _ _ h fun _ ht _ _ => writeByte_wf _ _ ht

/-- Copying a tank keeps the canonical form. -/
theorem copyTank_wf {t : Memory} (src dst : Nat) (h : Memory.wf t = true) : Memory.wf (copyTank t src dst) = true :=
  foldl_writeByte_wf _ _ _ (zeroRange_wf _ _ h)

/-- A stored byte of a tank keeps the canonical form, and changes neither the engine nor the cistern. -/
theorem Chip.tankByte_wf (c : Chip) (off : Nat) (b : Byte) (h : Memory.wf c.tanks = true) : Memory.wf (c.tankByte off b).tanks = true := by
  unfold Chip.tankByte
  dsimp only
  split
  · exact writeByte_wf _ _ h
  · exact writeByte_wf _ _ (writeByte_wf _ _ h)

@[simp] theorem Chip.tankByte_eng (c : Chip) (off : Nat) (b : Byte) : (c.tankByte off b).eng = c.eng := rfl
@[simp] theorem Chip.tankByte_cistern (c : Chip) (off : Nat) (b : Byte) : (c.tankByte off b).cistern = c.cistern := rfl

/-- Stored bytes of the tanks keep the canonical form. -/
theorem Chip.tankBytes_wf (c : Chip) (off : Nat) (l : List (Option Byte)) (h : Memory.wf c.tanks = true) : Memory.wf (c.tankBytes off l).tanks = true := by
  induction l generalizing c off with
  | nil => exact h
  | cons b l ih =>
    unfold Chip.tankBytes
    cases b with
    | none => exact ih c (off + 1) h
    | some b => exact ih _ (off + 1) (c.tankByte_wf off b h)

@[simp] theorem Chip.tankBytes_eng (c : Chip) (off : Nat) (l : List (Option Byte)) : (c.tankBytes off l).eng = c.eng := by
  induction l generalizing c off with
  | nil => rfl
  | cons b l ih => unfold Chip.tankBytes; cases b <;> simp [ih]

@[simp] theorem Chip.tankBytes_cistern (c : Chip) (off : Nat) (l : List (Option Byte)) : (c.tankBytes off l).cistern = c.cistern := by
  induction l generalizing c off with
  | nil => rfl
  | cons b l ih => unfold Chip.tankBytes; cases b <;> simp [ih]

/-- What every pass of a loop keeps holds after the loop. -/
theorem forEach_keeps {X : Type} {keeps : X → Prop} (n : Nat) {pass : Nat → X → X} (each : ∀ x, keeps x → ∀ j, keeps (pass j x)) {x : X} (start : keeps x) :
    keeps (forEach n pass x) :=
  List.foldlRecOn (motive := keeps) _ _ start fun x hx j _ => each x hx j

/-! The shared forms of the commands. -/

@[simp] theorem State.put_eq (s : State) (c : Chip) : s.put c = .next { s with chip := c } := rfl

/-- An effect whose condition holds. -/
theorem State.chipWhen_pos (s : State) {ok : Engine → Bool} (f : Chip → Chip) (h : ok s.chip.eng = true) : s.chipWhen ok f = .next { s with chip := f s.chip } := by
  unfold State.chipWhen; simp [h]

/-- An effect whose condition fails changes nothing. -/
theorem State.chipWhen_neg (s : State) {ok : Engine → Bool} (f : Chip → Chip) (h : ok s.chip.eng = false) : s.chipWhen ok f = .next s := by
  unfold State.chipWhen; simp [h]

/-- A guarded effect answers a next state, with the same queue. -/
theorem State.chipWhen_next (s : State) (ok : Engine → Bool) (f : Chip → Chip) : ∃ c, s.chipWhen ok f = .next { s with chip := c } := by
  unfold State.chipWhen State.put; split <;> exact ⟨_, rfl⟩

theorem State.powered_pos (s : State) (f : Engine → Engine) (h : s.chip.eng.mgt.powered = true) : s.powered f = .next { s with chip := { s.chip with eng := f s.chip.eng } } :=
  s.chipWhen_pos _ h

theorem State.clocked_pos (s : State) (f : Engine → Engine) (h : s.chip.eng.running = true) : s.clocked f = .next { s with chip := { s.chip with eng := f s.chip.eng } } :=
  s.chipWhen_pos _ h

theorem State.live_pos (s : State) (f : Engine → Engine) (h : s.chip.eng.live = true) : s.live f = .next { s with chip := { s.chip with eng := f s.chip.eng } } :=
  s.chipWhen_pos _ h

/-- A guarded effect on the engine leaves the memories alone. -/
theorem State.powered_mem (s : State) (f : Engine → Engine) : ∃ m, s.powered f = .next { s with chip := { s.chip with eng := m } } := by
  unfold State.powered State.chipWhen State.put; split <;> exact ⟨_, rfl⟩

theorem State.clocked_mem (s : State) (f : Engine → Engine) : ∃ m, s.clocked f = .next { s with chip := { s.chip with eng := m } } := by
  unfold State.clocked State.chipWhen State.put; split <;> exact ⟨_, rfl⟩

theorem State.live_mem (s : State) (f : Engine → Engine) : ∃ m, s.live f = .next { s with chip := { s.chip with eng := m } } := by
  unfold State.live State.chipWhen State.put; split <;> exact ⟨_, rfl⟩

/-- A register write whose port may write the page, at a register whose page is not locked, while the module is not dammed. -/
theorem Chip.writeReg_ok (c : Chip) (port : Port) (origin a : Nat) (v : Word) (h : RegHit) (hd : c.eng.dammed = false) (hl : (c.eng.lost && !alwaysOn a) = false) (ha : a < 0x100000) (h4 : a % 4 = 0)
    (hdir : isDirWord a = false) (hr : decodeReg a = some h) (hc : c.eng.absentCisp a = false) (hcls : classAllows (if h.off = 0x0C then 1 else h.blk.cls) port = true)
    (hf : c.eng.frozenBy h a v.toNat = false) : c.writeReg port origin a v = (c.writeAt h a v, .ok) := by
  have hl' : c.eng.lost = true → alwaysOn a = true := by
    intro e; simpa [e] using hl
  by_cases e : c.eng.lost = true
  · simp [Chip.writeReg, hd, hl' e, hr, hc, hcls, hf, hdir, h4, Nat.not_le.2 ha]
  · simp [Chip.writeReg, hd, e, hr, hc, hcls, hf, hdir, h4, Nat.not_le.2 ha]

end Sys2Proof.Machine
end

