-- ==== Sys2Proof/Laws/Fields.lean ====
section
/-! SUPPORT. Bits of fields, counters, 64-bit pairs, PAGE_STATUS bits and the order of log entries: what each operation changes. -/
namespace Sys2Proof.Machine

/-- A bit of a field's value is the register's bit at its place. -/
theorem testBit_bitsOf (x lo w i : Nat) : (bitsOf x lo w).testBit i = (decide (i < w) && x.testBit (lo + i)) := by
  simp [bitsOf, Nat.testBit_mod_two_pow, Nat.testBit_shiftRight]

/-- A bit of a word after a field was put into it. -/
theorem testBit_putBits (x : Word) (lo w v i : Nat) :
    (putBits x lo w v).toNat.testBit i = (decide (i < 32) && if lo ≤ i ∧ i < lo + w then v.testBit (i - lo) else x.toNat.testBit i) := by
  rw [BitVec.testBit_toNat, BitVec.testBit_toNat]
  simp only [putBits, BitVec.getLsbD_or, BitVec.getLsbD_and, BitVec.getLsbD_not, BitVec.getLsbD_shiftLeft, BitVec.getLsbD_ofNat,
    Nat.testBit_shiftLeft, Nat.testBit_two_pow_sub_one, Nat.testBit_mod_two_pow]
  by_cases h : i < 32
  · by_cases hl : lo ≤ i
    · have h1 : ¬ i < lo := by omega
      have h2 : i - lo < 32 := by omega
      by_cases hw : i < lo + w
      · have h3 : i - lo < w := by omega
        simp only [h, hl, hw, h1, h2, h3, decide_true, decide_false, Bool.true_and, Bool.not_true, Bool.not_false, Bool.and_false, Bool.false_or,
          and_self, if_true]
      · have h3 : ¬ i - lo < w := by omega
        simp only [h, hl, hw, h1, h2, h3, decide_true, decide_false, Bool.true_and, Bool.not_false, Bool.and_true, Bool.and_false, Bool.false_and,
          Bool.or_false, and_false, if_false]
    · have h1 : i < lo := by omega
      simp only [h, hl, h1, decide_true, decide_false, Bool.true_and, Bool.not_true, Bool.not_false, Bool.and_true, Bool.and_false, Bool.false_and,
        Bool.or_false, false_and, if_false]
  · simp only [h, decide_false, Bool.false_and, Bool.and_false, Bool.or_false]

/-- A field put into a word leaves every field beside it alone. -/
theorem bitsOf_putBits_disjoint (x : Word) (lo w v lo' w' : Nat) (h : lo' + w' ≤ lo ∨ lo + w ≤ lo') :
    bitsOf (putBits x lo w v).toNat lo' w' = bitsOf x.toNat lo' w' := by
  apply Nat.eq_of_testBit_eq; intro i
  rw [testBit_bitsOf, testBit_bitsOf, testBit_putBits]
  by_cases hi : i < w'
  · have hn : ¬ (lo ≤ lo' + i ∧ lo' + i < lo + w) := by omega
    rw [if_neg hn]
    by_cases h32 : lo' + i < 32
    · simp [h32]
    · have : x.toNat.testBit (lo' + i) = false := by rw [BitVec.testBit_toNat]; exact BitVec.getLsbD_of_ge _ _ (by omega)
      simp [h32, this]
  · simp [hi]

/-- Setting a field leaves the fields beside it in the same register alone. -/
theorem Engine.fld_setFld_beside (m : Engine) (f g : Field) (v : Nat) (ha : g.addr = f.addr) (h : g.lo + g.width ≤ f.lo ∨ f.lo + f.width ≤ g.lo) :
    (m.setFld f v).fld g = m.fld g := by
  unfold Engine.fld Engine.setFld; rw [ha, reg_setReg_same]; exact bitsOf_putBits_disjoint _ _ _ _ _ _ h

theorem Engine.flag_setFlag_beside (m : Engine) (f g : Field) (b : Bool) (ha : g.addr = f.addr) (h : g.lo + g.width ≤ f.lo ∨ f.lo + f.width ≤ g.lo) :
    (m.setFlag f b).flag g = m.flag g := by
  unfold Engine.flag Engine.setFlag; rw [fld_setFld_beside _ _ _ _ ha h]

theorem Engine.flag_setReg_ne (m : Engine) (f : Field) (a : Nat) (v : Word) (h : f.addr ≠ a) : (m.setReg a v).flag f = m.flag f := by
  unfold Engine.flag; rw [fld_setReg_ne _ _ h]

/-! Counters and pairs of words. -/

@[simp] theorem Engine.reg_addSat_same (m : Engine) (a n : Nat) : (m.addSat a n).reg a = BitVec.ofNat 32 (min ((m.reg a).toNat + n) 0xFFFFFFFF) := reg_setReg_same _ _ _
@[simp] theorem Engine.reg_addWrap_same (m : Engine) (a n : Nat) : (m.addWrap a n).reg a = BitVec.ofNat 32 ((m.reg a).toNat + n) := reg_setReg_same _ _ _
@[simp] theorem Engine.reg_orReg_same (m : Engine) (a n : Nat) : (m.orReg a n).reg a = m.reg a ||| BitVec.ofNat 32 n := reg_setReg_same _ _ _
@[simp] theorem Engine.reg_clearBits_same (m : Engine) (a n : Nat) : (m.clearBits a n).reg a = m.reg a &&& ~~~ (BitVec.ofNat 32 n) := reg_setReg_same _ _ _
theorem Engine.reg_addSat_ne (m : Engine) (a n : Nat) {b : Nat} (h : b ≠ a) : (m.addSat a n).reg b = m.reg b := reg_setReg_ne _ _ h
theorem Engine.reg_addWrap_ne (m : Engine) (a n : Nat) {b : Nat} (h : b ≠ a) : (m.addWrap a n).reg b = m.reg b := reg_setReg_ne _ _ h
theorem Engine.reg_orReg_ne (m : Engine) (a n : Nat) {b : Nat} (h : b ≠ a) : (m.orReg a n).reg b = m.reg b := reg_setReg_ne _ _ h
theorem Engine.reg_clearBits_ne (m : Engine) (a n : Nat) {b : Nat} (h : b ≠ a) : (m.clearBits a n).reg b = m.reg b := reg_setReg_ne _ _ h

/-- A 64-bit value is its two words joined. -/
@[simp] theorem join64_words (v : Tb) : join64 (loWord v) (hiWord v) = v := by
  apply BitVec.eq_of_toNat_eq
  have hv : v.toNat < 2 ^ 64 := v.isLt
  simp only [join64, loWord, hiWord, BitVec.toNat_ofNat, Nat.shiftLeft_eq, Nat.shiftRight_eq_div_pow]
  omega

/-- A 64-bit quantity that was set reads back. -/
@[simp] theorem Engine.reg64_setReg64_same (m : Engine) (a : Nat) (v : Tb) : (m.setReg64 a v).reg64 a = v := by
  unfold Engine.reg64 Engine.setReg64
  rw [reg_setReg_same, reg_setReg_ne _ _ (by omega), reg_setReg_same, join64_words]

/-- Setting a 64-bit quantity leaves every register but its two words alone. -/
theorem Engine.reg_setReg64_ne (m : Engine) (a : Nat) (v : Tb) {b : Nat} (h : b ≠ a) (h' : b ≠ a + 4) : (m.setReg64 a v).reg b = m.reg b := by
  unfold Engine.setReg64; rw [reg_setReg_ne _ _ h', reg_setReg_ne _ _ h]

theorem Engine.reg64_setReg_ne (m : Engine) (a b : Nat) (v : Word) (h : a ≠ b) (h' : a + 4 ≠ b) : (m.setReg b v).reg64 a = m.reg64 a := by
  unfold Engine.reg64; rw [reg_setReg_ne _ _ h, reg_setReg_ne _ _ h']

/-! PAGE_STATUS bits and log entries. -/

/-- A status bit ORs one bit into PAGE_STATUS (R404). -/
theorem Engine.testBit_status (m : Engine) (b : PageBit) (h : b.bit < 32) (i : Nat) :
    ((m.status b).reg (statusAddr b.page)).toNat.testBit i = (decide (i = b.bit) || (m.reg (statusAddr b.page)).toNat.testBit i) := by
  have key : (m.reg (statusAddr b.page) ||| BitVec.ofNat 32 (2 ^ b.bit)).toNat.testBit i
      = (decide (i = b.bit) || (m.reg (statusAddr b.page)).toNat.testBit i) := by
    rw [BitVec.toNat_or, Nat.testBit_or, BitVec.toNat_ofNat, Nat.mod_eq_of_lt (Nat.pow_lt_pow_right (by decide) h), Nat.testBit_two_pow, Bool.or_comm]
    congr 1; exact decide_eq_decide.mpr eq_comm
  unfold Engine.status; dsimp only
  split
  · rename_i hb
    by_cases hi : i = b.bit
    · subst hi; simpa [bitAt] using hb
    · simp [hi]
  · split
    · rw [reg_raise, reg_setReg_same]; exact key
    · rw [reg_setReg_same]; exact key

/-- A status bit touches the registers and the raised bits, and no other field of the engine. -/
theorem Engine.status_fields (m : Engine) (b : PageBit) : ∃ rs ra, m.status b = { m with regs := rs, raised := ra } := by
  unfold Engine.status; dsimp only
  split
  · exact ⟨m.regs, m.raised, rfl⟩
  · split
    · unfold Engine.raise; split <;> exact ⟨_, _, rfl⟩
    · exact ⟨_, _, rfl⟩

/-- An entry stands in the queue once it was inserted, with the others (R427). -/
theorem mem_insertEntry (e x : LogEntry) (l : List LogEntry) : x ∈ insertEntry e l ↔ x = e ∨ x ∈ l := by
  induction l with
  | nil => simp [insertEntry]
  | cons y l ih =>
    unfold insertEntry; split
    · simp
    · simp only [List.mem_cons, ih]; tauto

theorem length_insertEntry (e : LogEntry) (l : List LogEntry) : (insertEntry e l).length = l.length + 1 := by
  induction l with
  | nil => rfl
  | cons y l ih => unfold insertEntry; split <;> simp [ih]

end Sys2Proof.Machine
end

