-- ==== Sys2Proof/WellFormed.lean ====
section
/-! DEFINITION. Which commands the module's pins, links and ports can deliver. The meanings are total: an ill-formed command has a next state too, but no rule speaks of it. -/
namespace Sys2Proof

/-- No value twice. -/
def distinct {α : Type} [DecidableEq α] (l : List α) : Bool := decide l.Nodup

/-- The pins of one cycle: 16 ticks each (R8), and no pin named twice. -/
def Pins.wellFormed (p : Pins) : Bool :=
  p.lines.all (fun l => l.volts.length == 16) && p.clocks.all (fun c => c.p.length == 16 && c.n.length == 16) &&
    distinct (p.lines.map (fun l => (l.intake, l.line))) && distinct (p.clocks.map (fun c => (c.intake, c.ck))) && distinct (p.gates.map (·.line))

/-- A memory request: at least one byte, at most what the link carries (R335). -/
def Request.wellFormed (r : Request) : Bool :=
  match r with
  | .read n _ => decide (1 ≤ n) && decide (n ≤ 4096)
  | .write l _ => decide (1 ≤ l.length) && decide (l.length ≤ 512)
  | .other _ => true

/-- Can the command be delivered? -/
def Instr.wellFormed (i : Instr) : Bool :=
  match i with
  | .sampleCycle pins => pins.wellFormed
  | .tankPowerUpTestDone fails => distinct (fails.map (·.1)) && fails.all (fun f => !f.2.isEmpty && distinct (f.2.map (·.1)))
  | .tankAccess _ req _ _ | .bar0Request _ _ req | .windowRequest _ _ req => req.wellFormed
  | .hostLinkL0 speed width => decide (1 ≤ speed) && decide (speed ≤ 5) && [4, 8, 16].contains width
  | .funnelTakesEffect linked => distinct linked
  | .auxReply _ _ data => decide (data.length ≤ 16)
  | .descriptorFetch _ ⟨some l, _⟩ => decide (1 ≤ l.length) && decide (l.length ≤ 256) && l.length % 32 == 0
  | .cbistElement ecc mismatch => decide (ecc.length ≤ 8) && decide (mismatch.length ≤ 8)
  | .hostreq _ _ _ _ _ _ _ len _ bytes => decide (len ≤ 4096) && (bytes.isEmpty || bytes.length == len)
  | .dmahdr _ _ _ _ _ _ bytes => decide (1 ≤ bytes.length) && decide (bytes.length ≤ 4096)
  | .cplhdr _ _ _ _ _ _ bytes => decide (bytes.length ≤ 4096)
  | .ev _ recs => distinct (recs.map (·.origin))
  | .tbistPhaseDone bad => distinct (bad.map (·.1))
  | _ => true

end Sys2Proof
end

