-- ==== Sys2Proof/Tests/Slice0.lean ====
section
/-! SUPPORT. The model's own tests: well-formedness, worked figures of the spec, and for each statement of Certificates/Slice0/Obligations.lean a state and operands that meet
the premises of every clause, at a boundary of a range where it has one. -/
open Sys2Proof Sys2Proof.Machine
namespace Sys2Proof.Tests

set_option Elab.async false

/-- Registers of a started module: ready, tanks tested, address settled, both PLLs locked, the cistern and its pseudo-channels in service. -/
def startRegs : List (Nat × Word) :=
  [(0x4048, 0x41), (0x5048, 0xE), (0x9040, 0x5AE2), (0x9080, 0x4896C4D1), (0x9084, 0xFF5A), (0xB0048, 3)] ++ (List.range 32).map (fun p => (0xB1040 + 32 * p, 1)) ++
    (List.range 32).map (fun p => (0xB2040 + 32 * p, 1))

/-- A started module's engine, 3 × 2^20 CCLK after headrace lock. -/
def startEng : Engine :=
  { regs := startRegs, running := true, cc := 3145728, tb := 50397184, host := { perst := false, ready := true, l0 := true, cfg := [(4, 6)] }, mgt := { tanksDone := true } }

/-- A started module after some changes of its engine, in order. -/
def mk (l : List (Engine → Engine)) : State := { chip := { eng := l.foldl (fun m f => f m) startEng } }

/-- A started module. -/
def ready : State := mk []

/-- The register at an address that holds one. -/
def hit (a : Nat) : RegHit :=
  (decodeReg a).getD ⟨.safeB, 0, 0, 0, { off := 0, s1 := 0, c1 := 1, s2 := 0, c2 := 1, reset := 0, rw := 0, rwh := 0, rc := 0, w1s := 0, wo := 0, low := false, high := false, banked := false }⟩

/-- The engine after a command. -/
def after (o : Out) : Engine := match o with | .next t => t.eng | _ => startEng

/-- The STREAM registers of the Vennick bench: 20 intakes SPEED at RATE 0, 16 BREADTH at RATE 1, 12 TRANSITION with a reserve of 80. -/
def vennick (m : Engine) : Engine :=
  forEach 48 (fun n m => m.setReg (R.RU_STREAM n) (if n < 20 then 2 else if n < 36 then 1 + 1 * 8 else 5 + 80 * 2 ^ 16)) m

/-- A small display timing: 64 by 64 pixels, in force. -/
def vt (m : Engine) (o : Nat) : Engine := m.setCur o [0x00100040, 0x00100010, 0x00010040, 0x00010001, 12]

/-- The same timing in the shadow registers. -/
def vs (m : Engine) (o : Nat) : Engine :=
  ((((m.setReg (R.DISP_HTIM0 o) 0x00100040).setReg (R.DISP_HTIM1 o) 0x00100010).setReg (R.DISP_VTIM0 o) 0x00010040).setReg (R.DISP_VTIM1 o) 0x00010001).setReg (R.DISP_PIXDIV o) 12

/-- A sample cycle on its way to its step, and a module whose live step is due: the sluice table's entry of class 0 and level 0 asks for a trigger, an IRQ entry, gate action 1 and both counters. -/
def waiting : PipeEntry := { phys := 3145704, tb := 16 * 3149800, outs := List.replicate 48 {}, codes := some [1, 2, 3] }
def stepping : State :=
  { chip := { eng := (mk [fun m => { m with path.pipe := [waiting], armSpan := some (0, none) }, fun m => forEach 26 (fun k m => m.setFld (R.TANK_OWN_CUR k) 2) m]).eng
              tanks := writeLE (writeLE [] (10 * 0x40000) 4 0x802A07FF) (14 * 0x40000 + 16 * 1023 + 6) 1 9 } }
/-- A module with a verified table set of its own at tank 4 and the live tank 3, after some more changes. -/
def armable (l : List (Engine → Engine)) : State :=
  mk ([fun m => forEach 12 (fun k m => m.setFld (R.TANK_OWN_CUR (3 + k)) 2) m, fun m => (((m.setFld R.CONF_TSET_BASE_A 4).setFld R.CONF_TSET_BASE_B 16).setFld R.CONF_TSET_LIVE 3).setFlag R.CONF_STATUS_VER_A true,
    fun m => ((((((m.setReg R.SYS_IDENT 2).setReg (R.RU_STREAM 0) 2).setFld (R.SEG_SIZE_PACKS 0) 1000).setFld (R.SEG_MARK_MKPACKS 0) 10).setFlag (R.SEG_CFG_WINMODE 0) true).setFld R.STORE_PROFCTL_AUTO 1)] ++ l)
/-- A module whose rota has one entry to read, after some more changes. -/
def rotaWith (tb word target arg : Nat) (l : List (Engine → Engine)) : State :=
  let s := mk ([fun m => m.setFlag R.ROTA_CTL_EN true, fun m => m.setFld (R.TANK_OWN_CUR m.rotaTank) 3, fun m => m.setFld R.ROTA_TAIL_INDEX 1] ++ l)
  { s with chip.tanks := writeLE (writeLE (writeLE (writeLE [] 0 8 tb) 8 2 word) 10 2 target) 12 4 arg }
/-- A module with one action of the rota waiting, after some more changes. -/
def queued (a : RotaAct) (l : List (Engine → Engine)) : State := mk ([fun m => { m with rota.queue := [a] }] ++ l)
/-- A module with one pack in the last intake's stream FIFO and the budget to move it, after some more changes. -/
def fifoPack (l : List (Engine → Engine)) : State :=
  mk ([fun m => m.setSto 47 { m.sto 47 with fifo := [⟨0, List.replicate 256 1⟩] }, fun m => m.setStore { m.store with credits := List.replicate 48 5120 }] ++ l)

/-! ## The smoke test of well-formedness: an ill-formed term for each check, which the check refuses -/

/-- R8: a line's voltages cover 16 ticks. -/
theorem test_ill_formed_line_ticks : (Instr.sampleCycle { lines := [⟨0, 0, [1]⟩] }).wellFormed = false := by decide
/-- R8: both pins of a clock input cover 16 ticks. -/
theorem test_ill_formed_clock_ticks : (Instr.sampleCycle { clocks := [⟨0, 0, List.replicate 16 0, []⟩] }).wellFormed = false := by decide
theorem test_ill_formed_line_twice : (Instr.sampleCycle { lines := [⟨0, 1, List.replicate 16 0⟩, ⟨0, 1, List.replicate 16 5⟩] }).wellFormed = false := by decide
theorem test_ill_formed_clock_twice :
    (Instr.sampleCycle { clocks := [⟨0, 1, List.replicate 16 0, List.replicate 16 0⟩, ⟨0, 1, List.replicate 16 5, List.replicate 16 0⟩] }).wellFormed = false := by decide
theorem test_ill_formed_gate_twice : (Instr.sampleCycle { gates := [⟨3, 0⟩, ⟨3, 1⟩] }).wellFormed = false := by decide
theorem test_ill_formed_fails_twice : (Instr.tankPowerUpTestDone [(5, [(0, 0)]), (5, [(1, 0)])]).wellFormed = false := by decide
theorem test_ill_formed_fails_empty : (Instr.tankPowerUpTestDone [(5, [])]).wellFormed = false := by decide
theorem test_ill_formed_empty_read : (Instr.bar0Request 0 0 (.read 0 true)).wellFormed = false := by decide
theorem test_ill_formed_long_read : (Instr.windowRequest 0 0 (.read 4097 true)).wellFormed = false := by decide +kernel
theorem test_ill_formed_empty_write : (Instr.tankAccess 0 (.write [] false) [] []).wellFormed = false := by decide
theorem test_ill_formed_long_write : (Instr.windowRequest 0 0 (.write (List.replicate 513 none) false)).wellFormed = false := by decide +kernel
theorem test_ill_formed_speed : (Instr.hostLinkL0 6 16).wellFormed = false ∧ (Instr.hostLinkL0 0 16).wellFormed = false := by decide
theorem test_ill_formed_width : (Instr.hostLinkL0 5 12).wellFormed = false := by decide
theorem test_ill_formed_funnel : (Instr.funnelTakesEffect [1, 1]).wellFormed = false := by decide
theorem test_ill_formed_aux_reply : (Instr.auxReply 0 0 (List.replicate 17 0)).wellFormed = false := by decide
theorem test_ill_formed_descriptor : (Instr.descriptorFetch 0 ⟨some [1], .good⟩).wellFormed = false := by decide
theorem test_ill_formed_hostreq : (Instr.hostreq .fa 1 0 0 1 0 0 4097 0 []).wellFormed = false ∧ (Instr.hostreq .fa 1 0 0 1 0 0 4 0 [1]).wellFormed = false := by decide
theorem test_ill_formed_dmahdr : (Instr.dmahdr .fa 1 0 0 0 0 []).wellFormed = false ∧ (Instr.dmahdr .fa 1 0 0 0 0 (List.replicate 4097 0)).wellFormed = false := by decide +kernel
theorem test_ill_formed_cplhdr : (Instr.cplhdr .fa 1 0 0 0 0 (List.replicate 4097 0)).wellFormed = false := by decide +kernel
theorem test_ill_formed_ev : (Instr.ev .fa [⟨1, 1, 0, 0, 0⟩, ⟨1, 2, 0, 0, 0⟩]).wellFormed = false := by decide
theorem test_ill_formed_tank_test : (Instr.tbistPhaseDone [(1, 2), (1, 2)]).wellFormed = false := by decide
theorem test_well_formed_cycle : (Instr.sampleCycle { lines := [⟨47, 47, List.replicate 16 (-5)⟩], gates := [⟨47, 0xFFFF⟩] }).wellFormed = true := by decide

/-! ## The queue and the words -/

/-- First in, first out. -/
theorem test_step_takes_the_front : step { ready with pending := [.functionReady, .helloSend] } = exec .functionReady { ready with pending := [.helloSend] } := by rfl
/-- The table gives its rows no bits. -/
theorem test_no_word_spells_a_command : decodeTableWord 32 0 = none := by decide

/-! ## The two readers and the lock on the SLU page, 14_registers.md -/

/-- p: the host reads PAGE_STATUS 0x0000_0001 and clears what it read. -/
theorem test_host_reads_page_status :
    (after (exec (.lowWordRead .host (BitVec.ofNat 20 (statusAddr 0xA1))) (mk [fun m => m.setReg (statusAddr 0xA1) 1]))).answer = .word 1 ∧
      (after (exec (.lowWordRead .host (BitVec.ofNat 20 (statusAddr 0xA1))) (mk [fun m => m.setReg (statusAddr 0xA1) 1]))).reg (statusAddr 0xA1) = 0 := by decide +kernel
/-- p + 2: management reads it and clears nothing. -/
theorem test_management_reads_page_status :
    (after (exec (.lowWordRead .mgmt (BitVec.ofNat 20 (statusAddr 0xA1))) (mk [fun m => m.setReg (statusAddr 0xA1) 2]))).answer = .mgmt 0 2 ∧
      (after (exec (.lowWordRead .mgmt (BitVec.ofNat 20 (statusAddr 0xA1))) (mk [fun m => m.setReg (statusAddr 0xA1) 2]))).reg (statusAddr 0xA1) = 2 := by decide +kernel
/-- p + 4: management reads CTRA (low), 0 after the carry, and its shadow holds the high word 1. -/
theorem test_low_word_fills_the_shadow :
    (after (exec (.lowWordRead .mgmt (BitVec.ofNat 20 R.SLU_CTRA_LO)) (mk [fun m => m.setReg R.SLU_CTRA_HI 1]))).shadowFor .mgmt R.SLU_CTRA_HI = some 1 := by decide +kernel
/-- p + 5: the host reads CTRA (high) as its shadow has it. -/
theorem test_high_word_from_the_shadow :
    (after (exec (.lowWordRead .host (BitVec.ofNat 20 R.SLU_CTRA_HI)) (mk [fun m => m.setReg R.SLU_CTRA_HI 1, fun m => m.setShadow .host (some (R.SLU_CTRA_LO, 0))]))).answer = .word 0 := by
  decide +kernel
/-- p + 7: a locked page keeps START and PAGE_FAULT reads 0x0001_1804. -/
theorem test_lock_violation :
    (after (exec (.registerWrite .host 0xA1044 5) (mk [fun m => m.setReg (lockAddr 0xA1) 1]))).reg (faultAddr 0xA1) = 0x00011804 ∧
      (after (exec (.registerWrite .host 0xA1044 5) (mk [fun m => m.setReg (lockAddr 0xA1) 1]))).reg 0xA1044 = 0 := by decide +kernel
/-- p + 8: a counter is not frozen. -/
theorem test_lock_leaves_counters :
    (after (exec (.registerWrite .host 0xA1068 0) (mk [fun m => m.setReg (lockAddr 0xA1) 1, fun m => m.setReg 0xA1068 41]))).reg 0xA1068 = 0 := by decide +kernel

/-! ## Worked figures -/

/-- 01_architecture.md: the Vennick configuration costs 15,296 bu, within the limit of an A48. -/
theorem test_budget_a48 : (vennick (startEng.setFld R.SYS_IDENT_STACKS 2)).budgetCheck = (none, some 15296) := by decide +kernel
/-- The same on an A24 is refused with BUDGET_OVER and DETAIL 15,296. -/
theorem test_budget_a24 : (vennick (startEng.setFld R.SYS_IDENT_STACKS 1)).budgetCheck = (some (7, 15296), some 15296) := by decide +kernel
/-- 03_reach_regimes.md: with F = 4 the runs before tick 7 are replaced by L, and the run from tick 7 is accepted. -/
theorem test_settle_length_four :
    (List.range 8).map (settle 4 0 (fun j => nth [0, 0, 3, 3, 0, 0, 1, 3, 3, 3, 3] j 0)) = [0, 0, 0, 0, 0, 0, 0, 3] := by decide +kernel
/-- 07_timebase_rota_gates.md: the strobe's entry 0x1106, target GL20, argument 19,200. -/
theorem test_rota_entry :
    startEng.rotaEntry (writeLE (writeLE [] 0 8 0x3400EA600) 8 8 0x00004B0000141106) 0 =
      { tb := 0x3400EA600, eff := 0x3400EA600, code := 6, target := 0x14, arg := 0x4B00, word := 0x1106 } := by decide +kernel
/-- The due cycle of the entry. -/
theorem test_rota_due : dueOf 6 0x3400EA600 = 0x3400EA60 := by decide
/-- Its copy k = 1 rises at 0x0000_0003_45C7_7E00. -/
theorem test_repeater_copy :
    (after (exec (.repeaterCopy 0)
      (mk [fun m => { m with tb := BitVec.ofNat 64 (16 * (0x345C77E0 - 16)), rota.reps := [{ slot := 1, tb := 0x3400EA600, target := 20, arg := 0x4B00, word := 0x1106, period := 96000000, k := 0, left := none }] }]))).rota.queue =
      [⟨0x345C77E00, 0x345C77E00, 6, 20, 0x4B00, 0x1106⟩] := by decide +kernel
/-- 10_cistern.md: the pack 3,150,000 under ORD_C lies on PC 1, SID 0, row 66, bank group 3, bank 0, column 0. -/
theorem test_pack_under_ord_c :
    ((startEng.setFld R.CIS_STATUS_ORDER 2).pcAddr 806400000).1 = 1 ∧ rowOf ((startEng.setFld R.CIS_STATUS_ORDER 2).pcAddr 806400000).2 = 66 ∧
      bankOf ((startEng.setFld R.CIS_STATUS_ORDER 2).pcAddr 806400000).2 = 12 ∧ colOf ((startEng.setFld R.CIS_STATUS_ORDER 2).pcAddr 806400000).2 = 0 := by decide +kernel
/-- Under ORD_A it lies on PC 48, row 769, bank group 0, bank 0, column 16. -/
theorem test_pack_under_ord_a :
    (startEng.pcAddr 806400000).1 = 48 ∧ rowOf (startEng.pcAddr 806400000).2 = 769 ∧ bankOf (startEng.pcAddr 806400000).2 = 0 ∧ colOf (startEng.pcAddr 806400000).2 = 16 := by decide +kernel
/-- 13_display.md: at 1920 by 1080 the latch point is 0x3D_6000 after the frame's start, line 1,080 of 128,000 tk. -/
theorem test_latch_instant :
    ((startEng.setCur 0 [0x00200780, 0x00200010, 0x00030438, 0x00A60001, 32]).setDsp 0 { running := true, stage := 1, frameStart := 0x200000000 }).dispInstant 0 = 0x2083D6000 := by decide +kernel
/-- 13_display.md: with k = 3 the main stream attributes at 8.1 Gb/s (rate code 3) carry Mvid 6,065 and Nvid 32,751. -/
theorem test_msa_clock : msaClock 3 32 = (6065, 32751) := by decide +kernel
/-- The check value of CRC-32 as R144 names it. -/
theorem test_crc32 : crc32 [0x31, 0x32, 0x33, 0x34, 0x35, 0x36, 0x37, 0x38, 0x39] = 0xCBF43926 := by decide +kernel

/-! ## The premises of the statements -/

/-- The premises of every clause of StepIdlesWithoutCommand can be met. -/
theorem witness_StepIdlesWithoutCommand :
    ∃ (s : State), s.pending = [] :=
  ⟨ready, by decide +kernel⟩

/-- Premises of StepKeepsMemOk can be met. -/
theorem witness_StepKeepsMemOk : ∃ s t : State, s.MemOk ∧ step s = .next t :=
  ⟨{ mk [fun m => { m with host.perst := true }] with pending := [.functionReady] }, mk [fun m => { m with host.perst := true }], ⟨by decide +kernel, by decide +kernel⟩, by rfl⟩

/-- Premises of TimeMovesOnlyByItsCommands can be met. -/
theorem witness_TimeMovesOnlyByItsCommands : ∃ (c : Instr) (s t : State), mayChangeTime c = false ∧ exec c s = .next t :=
  ⟨.functionReady, mk [fun m => { m with host.perst := true }], mk [fun m => { m with host.perst := true }], by decide +kernel, by rfl⟩

/-- The premises of every clause of AcceptedWriteCompletes can be met. -/
theorem witness_AcceptedWriteCompletes :
    ∃ (s : State) (port : Port) (addr v : Word), s.accepts port addr.toNat v = true :=
  ⟨ready, .host, 0, 0, by decide +kernel⟩

/-- The premises of every clause of DammedWritesAreDiscarded can be met. -/
theorem witness_DammedWritesAreDiscarded :
    (∃ (s : State) (port : Port) (addr v : Word), s.eng.reachable = true ∧ s.eng.dammed = true ∧ damWrite port addr.toNat v.toNat = false) ∧
    (∃ (s : State) (addr : Word), s.eng.reachable = true ∧ s.eng.dammed = false ∧ s.eng.lost = true ∧ alwaysOn addr.toNat = false) :=
  ⟨⟨(mk [fun m => m.setFlag R.DAM_STATUS_DAMMED true]), .host, 0, 0, by decide +kernel⟩,
    ⟨(mk [fun m => { m with lost := true, running := false }]), (BitVec.ofNat 32 (R.INTK_CTL 47)), by decide +kernel⟩⟩

/-- The premises of every clause of ForbiddenWriteIsRefused can be met. -/
theorem witness_ForbiddenWriteIsRefused :
    (∃ (s : State) (port : Port) (addr : Word) (h : RegHit), s.eng.reachable = true ∧ s.eng.dammed = false ∧ (s.eng.lost && !alwaysOn addr.toNat) = false ∧
      isDirWord addr.toNat = false ∧ addr.toNat < 0x100000 ∧ addr.toNat % 4 = 0 ∧ decodeReg addr.toNat = some h ∧ s.eng.absentCisp addr.toNat = false ∧ port ≠ .host ∧
      classAllows (if h.off = 0x0C then 1 else h.blk.cls) port = false) ∧
    (∃ (s : State) (addr : Word) (h : RegHit), s.eng.reachable = true ∧ s.eng.dammed = false ∧ (s.eng.lost && !alwaysOn addr.toNat) = false ∧ isDirWord addr.toNat = false ∧
      addr.toNat < 0x100000 ∧ addr.toNat % 4 = 0 ∧ decodeReg addr.toNat = some h ∧ s.eng.absentCisp addr.toNat = false ∧ s.eng.host.hold = false ∧
      classAllows (if h.off = 0x0C then 1 else h.blk.cls) .host = false) ∧
    (∃ (s : State) (port : Port) (addr : Word), s.eng.reachable = true ∧ s.eng.dammed = false ∧ s.eng.lost = false ∧ isDirWord addr.toNat = true ∧ port ≠ .host ∧
      classAllows 0 port = false) :=
  ⟨⟨ready, .fa, (BitVec.ofNat 32 R.SAFE_CTL), (hit R.SAFE_CTL), by decide +kernel⟩,
    ⟨ready, (BitVec.ofNat 32 R.MGT_FUSECTL), (hit R.MGT_FUSECTL), by decide +kernel⟩,
    ⟨ready, .fa, 0x44, by decide +kernel⟩⟩

/-- The premises of every clause of HeldWritesWait can be met. -/
theorem witness_HeldWritesWait :
    ∃ (s : State) (port : Port) (addr v : Word), s.eng.isHeld addr.toNat = true ∧ s.eng.armed = true ∧ s.eng.arming = none ∧ s.eng.reachable = true ∧ s.eng.dammed = false ∧
      s.eng.lost = false ∧ s.eng.absentCisp addr.toNat = false ∧ port ≠ .tap ∧
      (match decodeReg addr.toNat with | none => false | some h => classAllows h.blk.cls port && !s.eng.frozenBy h addr.toNat v.toNat) = true :=
  ⟨(mk [fun m => m.setFlag R.SYS_STATUS_ARMED true, fun m => m.setFlag R.DAM_STATUS_DAMMED false]), .host, (BitVec.ofNat 32 (R.INTK_CTL 47)), 0, by decide +kernel⟩

/-- The premises of every clause of PowerComesAndGoes can be met. -/
theorem witness_PowerComesAndGoes :
    (∃ (s : State), s.eng.mgt.powered = true) ∧
    (∃ (s u : State), s.eng.mgt.powered = true ∧ exec .supplyLoss s = .next u) ∧
    (∃ (s : State), s.eng.mgt.powered = false) ∧
    (∃ (s : State), s.eng.mgt.powered = true) ∧
    (∃ (s : State), s.eng.mgt.powered = false) :=
  ⟨⟨ready, by decide +kernel⟩,
    ⟨ready, _, by decide +kernel, rfl⟩,
    ⟨(mk [fun m => { m with mgt.powered := false }]), by decide +kernel⟩,
    ⟨ready, by decide +kernel⟩,
    ⟨(mk [fun m => { m with mgt.powered := false }]), by decide +kernel⟩⟩

/-- The premises of every clause of StartUp can be met. -/
theorem witness_StartUp :
    (∃ (s : State), s.eng.running = false ∧ s.eng.lost = false ∧ s.eng.dammed = false ∧ s.eng.mgt.powered = true ∧ s.eng.flag R.CLK_STATUS_LOCK_A = false) ∧
    (∃ (s : State), s.eng.mgt.powered = true ∧ s.eng.mgt.tanksDone = false) ∧
    (∃ (s : State), s.eng.mgt.powered = true ∧ s.eng.ring.positioned = true) :=
  ⟨⟨(mk [fun m => { m with running := false }, fun m => { m with lost := false }, fun m => m.setFlag R.DAM_STATUS_DAMMED false, fun m => { m with mgt.powered := true },
      fun m => m.setFlag R.CLK_STATUS_LOCK_A false]), by decide +kernel⟩,
    ⟨(mk [fun m => { m with mgt.tanksDone := false }]), by decide +kernel⟩,
    ⟨(mk [fun m => { m with mgt.powered := true }, fun m => { m with ring.positioned := true }]), by decide +kernel⟩⟩

/-- The premises of every clause of SysReset can be met. -/
theorem witness_SysReset :
    (∃ (s : State) (port : Port), s.accepts port R.SYS_CTL (BitVec.ofNat 32 (4 + 0xA5C3 * 2 ^ 16)) = true) ∧
    (∃ (s : State) (port : Port) (key : BitVec 16), key ≠ 0xA5C3 ∧ s.accepts port R.SYS_CTL (BitVec.ofNat 32 (4 + key.toNat * 2 ^ 16)) = true) ∧
    (∃ (s : State), s.eng.mgt.powered = true ∧ s.eng.mgt.resetting = true) :=
  ⟨⟨ready, .host, by decide +kernel⟩,
    ⟨ready, .host, 0, by decide +kernel⟩,
    ⟨(mk [fun m => { m with mgt.powered := true }, fun m => { m with mgt.resetting := true }]), by decide +kernel⟩⟩

/-- The premises of every clause of LinkResets can be met. -/
theorem witness_LinkResets :
    (∃ (s : State), s.eng.mgt.powered = true ∧ s.eng.host.perst = false ∧ s.eng.dammed = false) ∧
    (∃ (s : State), s.eng.mgt.powered = true ∧ s.eng.host.perst = false ∧ s.eng.dammed = true) ∧
    (∃ (s : State), s.eng.host.perst = true) ∧
    (∃ (s : State), s.eng.mgt.powered = true ∧ s.eng.host.perst = false ∧ s.eng.dammed = false) ∧
    (∃ (s : State), s.eng.mgt.powered = true ∧ s.eng.host.perst = false ∧ s.eng.presented 0 = true) ∧
    (∃ (s : State) (f : Fin 8), f ≠ 0 ∧ s.eng.mgt.powered = true ∧ s.eng.host.perst = false ∧ s.eng.presented f.val = true) ∧
    (∃ (s : State), s.eng.mgt.powered = true ∧ s.eng.host.perst = false ∧ s.eng.host.ready = false) ∧
    (∃ (s : State), s.eng.host.ready = true) :=
  ⟨⟨(mk [fun m => { m with mgt.powered := true }, fun m => { m with host.perst := false }]), by decide +kernel⟩,
    ⟨(mk [fun m => m.setFlag R.DAM_STATUS_DAMMED true]), by decide +kernel⟩,
    ⟨(mk [fun m => { m with host.perst := true }, fun m => m.setFld R.CIS_STATUS_STATE 4]), by decide +kernel⟩,
    ⟨(mk [fun m => { m with mgt.powered := true }, fun m => { m with host.perst := false }]), by decide +kernel⟩,
    ⟨(mk [fun m => { m with mgt.powered := true }, fun m => { m with host.perst := false }]), by decide +kernel⟩,
    ⟨(mk [fun m => { m with mgt.powered := true }, fun m => { m with host.perst := false }, fun m => (m.setFld R.RING_STATUS_ROLE 1).setFlag R.RING_STATUS_FUNNEL true,
      fun m => m.setFld R.RING_MEMBERS_FUNNEL_MAP 128]), 7, by decide +kernel⟩,
    ⟨(mk [fun m => { m with host.ready := false }]), by decide +kernel⟩,
    ⟨ready, by decide +kernel⟩⟩

/-- The premises of every clause of SwitchOverAndRelock can be met. -/
theorem witness_SwitchOverAndRelock :
    (∃ (s : State), s.eng.running = true ∧ s.eng.flag R.CLK_STATUS_REDUNDANT = true) ∧
    (∃ (s : State), s.eng.running = true ∧ s.eng.flag R.CLK_STATUS_REDUNDANT = false) :=
  ⟨⟨(mk [fun m => { m with running := true }, fun m => m.setFlag R.CLK_STATUS_REDUNDANT true]), by decide +kernel⟩,
    ⟨(mk [fun m => { m with running := true }, fun m => m.setFlag R.CLK_STATUS_REDUNDANT false]), by decide +kernel⟩⟩

/-- The premises of every clause of HeadraceLossAndReturn can be met. -/
theorem witness_HeadraceLossAndReturn :
    (∃ (s : State), s.eng.running = true ∧ s.eng.flag R.CLK_STATUS_REDUNDANT = false) ∧
    (∃ (s : State), s.eng.lost = true ∧ s.eng.mgt.stalled = []) ∧
    (∃ (s : State), s.eng.lost = false) :=
  ⟨⟨(mk [fun m => { m with running := true }, fun m => m.setFlag R.CLK_STATUS_REDUNDANT false]), by decide +kernel⟩,
    ⟨(mk [fun m => { m with lost := true }]), by decide +kernel⟩,
    ⟨ready, by decide +kernel⟩⟩

/-- The premises of every clause of References can be met. -/
theorem witness_References :
    (∃ (s : State), s.eng.running = true ∧ s.eng.flag R.CLK_STATUS_HOLDOVER = false ∧ s.eng.fld R.CLK_REFSEL_SRC ≠ 0 ∧ s.eng.fld R.CLK_REFSEL_SRC ≠ 3) ∧
    (∃ (s : State), s.eng.running = true ∧ s.eng.flag R.CLK_STATUS_HOLDOVER = true ∧ s.eng.flag R.CLK_REFCTL_REVERT = true ∧ s.eng.fld R.CLK_REFSEL_SRC ≠ 3) ∧
    (∃ (s : State) (port : Port) (v : Word), s.accepts port R.CLK_REFSEL v = true) :=
  ⟨⟨(mk [fun m => { m with running := true }, fun m => m.setFlag R.CLK_STATUS_HOLDOVER false, fun m => m.setFld R.CLK_REFSEL_SRC 1]), by decide +kernel⟩,
    ⟨(mk [fun m => { m with running := true }, fun m => m.setFlag R.CLK_STATUS_HOLDOVER true, fun m => m.setFlag R.CLK_REFCTL_REVERT true]), by decide +kernel⟩,
    ⟨ready, .host, 0, by decide +kernel⟩⟩

/-- The premises of every clause of Thresholds can be met. -/
theorem witness_Thresholds :
    (∃ (s : State) (port : Port) (n : Fin 48) (v : Word), s.accepts port (R.INTK_THR_A n) v = true) ∧
    (∃ (s : State) (port : Port) (n : Fin 48) (v : Word), s.accepts port (R.INTK_THR_B n) v = true) ∧
    (∃ (s : State) (port : Port) (n : Fin 48) (v : Word), s.accepts port (R.INTK_CKTHR n) v = true) ∧
    (∃ (s : State) (port : Port) (n : Fin 48) (v : Word), s.accepts port (R.INTK_THRSEL n) v = true) ∧
    (∃ (s : State), s.eng.live = true ∧ s.eng.nextCycle % 2 ^ 19 = 0) ∧
    (∃ (s : State), s.eng.live = true ∧ s.eng.nextCycle % 2 ^ 19 ≠ 0) ∧
    (∃ (s : State) (n line : Fin 48) (p : Nat × Tb), s.eng.live = true ∧ n.val < s.eng.intakes.length ∧ (s.eng.intake n).xOver.find? (fun q => q.1 == line.val) = some p) ∧
    (∃ (s : State) (n : Fin 48) (a : RotaAct), s.eng.live = true ∧ n.val < s.eng.intakes.length ∧ s.eng.actAt (16 + n) 7 = some a ∧
      (s.eng.intake n).setChanges.all (fun c => decide (c.tick < s.eng.nextTick)) = true) :=
  ⟨⟨ready, .host, 47, 0, by decide +kernel⟩,
    ⟨ready, .host, 47, 0, by decide +kernel⟩,
    ⟨ready, .host, 47, 0, by decide +kernel⟩,
    ⟨ready, .host, 47, 0, by decide +kernel⟩,
    ⟨(mk [fun m => { m with tb := BitVec.ofNat 64 (16 * (2 ^ 19 * 7 - 1)) }]), by decide +kernel⟩,
    ⟨ready, by decide +kernel⟩,
    ⟨(mk [fun m => m.setIntake (47 : Fin 48) { m.intake (47 : Fin 48) with xOver := [((47, 5) : Nat × Tb)] }]), 47, 47, ((47, 5)), by decide +kernel⟩,
    ⟨(mk [fun m => { m with rota.queue := [(⟨0, 0, 7, 47, 1, 7⟩ : RotaAct)] }]), 47, (⟨0, 0, 7, 47, 1, 7⟩), by decide +kernel⟩⟩

/-- The premises of every clause of TrimsAndCalibration can be met. -/
theorem witness_TrimsAndCalibration :
    (∃ (s : State) (port : Port) (n : Fin 48) (which : TrimReg) (v : Word), s.eng.armed = false ∧ s.eng.store.active = false ∧
      s.accepts port (match which with | .ctl => R.INTK_CTL n | .lcfg line => R.INTK_LCFG n line | .cktrim => R.INTK_CKTRIM n) v = true) ∧
    (∃ (s : State) (port : Port) (n : Fin 48) (v : Word), s.accepts port (R.INTK_CAL n) (v ||| 0x100) = true ∧ s.eng.armed = false ∧
      (bitsOf v.toNat 0 2 = 1 ∨ bitsOf v.toNat 0 2 = 2) ∧ bitsOf v.toNat 2 6 < 48 ∧ bitsOf v.toNat 16 16 ≠ 0 ∧ n.val < s.eng.intakes.length) ∧
    (∃ (s : State) (port : Port) (n : Fin 48) (v : Word), s.accepts port (R.INTK_CAL n) (v ||| 0x100) = true ∧
      (bitsOf v.toNat 0 2 = 0 ∨ bitsOf v.toNat 0 2 = 3 ∨ 49 < bitsOf v.toNat 2 6 ∨ bitsOf v.toNat 16 16 = 0 ∨ bitsOf v.toNat 0 2 = 1 ∧ s.eng.armed = true)) ∧
    (∃ (s : State) (n : Fin 48), s.eng.live = true ∧ s.eng.flag (R.INTK_CALSTAT_BUSY n) = true ∧ (s.eng.intake n).calCount ≤ s.eng.fld (R.INTK_CALSTAT_DONE n)) ∧
    (∃ (s : State) (n : Fin 48), s.eng.live = true ∧ s.eng.flag (R.INTK_CALSTAT_BUSY n) = true ∧ (s.eng.intake n).calLast + 2 ^ 20 + 7 ≤ s.eng.cc) :=
  ⟨⟨(mk [fun m => m.setFlag R.SYS_STATUS_ARMED false, fun m => { m with store.active := false }]), .host, 47, (.lcfg 47), 0, by decide +kernel⟩,
    ⟨(mk [fun m => m.setFlag R.SYS_STATUS_ARMED false]), .host, 47, 0xFFFF00BD, by decide +kernel⟩,
    ⟨ready, .host, 47, 0x000000BD, by decide +kernel⟩,
    ⟨(mk [fun m => m.setFlag (R.INTK_CALSTAT_BUSY (47 : Fin 48)) true]), 47, by decide +kernel⟩,
    ⟨(mk [fun m => m.setFlag (R.INTK_CALSTAT_BUSY (47 : Fin 48)) true]), 47, by decide +kernel⟩⟩

/-- The premises of every clause of ReachWrites can be met. -/
theorem witness_ReachWrites :
    (∃ (s : State) (port : Port) (n : Fin 48) (which : RuReg) (v : Word), s.eng.armed = false ∧ s.eng.store.active = false ∧
      s.accepts port (match which with | .stream => R.RU_STREAM n | .statecfg => R.RU_STATECFG n | .ckdelay => R.RU_CKDELAY n | .line i => R.RU_LINE n i) v = true) ∧
    (∃ (s : State) (port : Port) (n : Fin 48) (v : Word), s.accepts port (R.RU_FLUSH n) v = true) :=
  ⟨⟨(mk [fun m => m.setFlag R.SYS_STATUS_ARMED false, fun m => { m with store.active := false }]), .host, 47, (.line 47), 0, by decide +kernel⟩,
    ⟨ready, .host, 47, 0, by decide +kernel⟩⟩

/-- The premises of every clause of EyeScan can be met. -/
theorem witness_EyeScan :
    (∃ (s : State) (port : Port) (n : Fin 48) (v : Word), s.accepts port (R.RU_EYECTL n) (v ||| 0x1000) = true ∧ bitsOf v.toNat 0 6 < 48 ∧ bitsOf v.toNat 8 2 < 2 ∧
      bitsOf v.toNat 16 16 ≠ 0 ∧ s.eng.fld (R.RU_STATECFG_EDGE n) < 6 ∧ (s.eng.fld (R.INTK_CTL_CK0_MODE n) = 1 ∨ s.eng.fld (R.INTK_CTL_CK0_MODE n) = 2) ∧
      (s.eng.fld (R.INTK_CTL_CK1_MODE n) = 1 ∨ s.eng.fld (R.INTK_CTL_CK1_MODE n) = 2)) ∧
    (∃ (s : State) (port : Port) (n : Fin 48) (v : Word), s.accepts port (R.RU_EYECTL n) (v ||| 0x1000) = true ∧
      (47 < bitsOf v.toNat 0 6 ∨ 2 ≤ bitsOf v.toNat 8 2 ∨ bitsOf v.toNat 16 16 = 0 ∨ 6 ≤ s.eng.fld (R.RU_STATECFG_EDGE n))) ∧
    (∃ (s : State) (n : Fin 48), s.eng.live = true ∧ s.eng.flag (R.RU_EYESTAT_BUSY n) = true ∧ s.eng.fld (R.RU_EYECTL_COUNT n) ≤ s.eng.fld (R.RU_EYESTAT_DONE n)) ∧
    (∃ (s : State) (n : Fin 48), s.eng.live = true ∧ s.eng.flag (R.RU_EYESTAT_BUSY n) = true ∧ (s.eng.intake n).eyeLast + 2 ^ 20 ≤ s.eng.cc) :=
  ⟨⟨(mk [fun m => m.setFld (R.INTK_CTL_CK0_MODE (47 : Fin 48)) 1, fun m => m.setFld (R.INTK_CTL_CK1_MODE (47 : Fin 48)) 1]), .host, 47, 0x0001012F, by decide +kernel⟩,
    ⟨ready, .host, 47, 0x00010030, by decide +kernel⟩,
    ⟨(mk [fun m => m.setFlag (R.RU_EYESTAT_BUSY (47 : Fin 48)) true]), 47, by decide +kernel⟩,
    ⟨(mk [fun m => m.setFlag (R.RU_EYESTAT_BUSY (47 : Fin 48)) true]), 47, by decide +kernel⟩⟩

/-- The premises of every clause of PacksClose can be met. -/
theorem witness_PacksClose :
    (∃ (s : State) (n : Fin 48) (p : OpenPack), s.eng.live = true ∧ (s.eng.sto n).pack = some p ∧ packCapacity p.type ≤ p.items.length) ∧
    (∃ (s : State) (n : Fin 48) (p : OpenPack), s.eng.live = true ∧ (s.eng.sto n).pack = some p ∧ s.eng.fld (R.RU_FLUSH_EXP n) ≠ 0 ∧
      p.since + 2 ^ (max 10 (s.eng.fld (R.RU_FLUSH_EXP n))) ≤ s.eng.store.gated + 1) ∧
    (∃ (s : State) (n : Fin 48) (p : OpenPack), s.eng.live = true ∧ 128 ≤ (s.eng.sto n).fifo.length ∧ (s.eng.sto n).pack = some p ∧ packCapacity p.type ≤ p.items.length ∧
      n.val < s.eng.store.intakes.length ∧ (s.eng.sto n).lostEnd = none) ∧
    (∃ (m : Engine) (n : Fin 48) (p : OpenPack), (m.sto n).pack = some p ∧ (m.sto n).fifo.length < 128 ∧ n.val < m.store.intakes.length) :=
  ⟨⟨(mk [fun m => m.setSto (47 : Fin 48) { m.sto (47 : Fin 48) with pack := some ({ type := 0, rate := 0, tb := 16, last := 32, since := 0, items := List.replicate 40 1 } : OpenPack) }]),
      47, ({ type := 0, rate := 0, tb := 16, last := 32, since := 0, items := List.replicate 40 1 }), by decide +kernel⟩,
    ⟨(mk [fun m => m.setSto (47 : Fin 48) { m.sto (47 : Fin 48) with pack := some ({ type := 4, rate := 0, tb := 16, last := 32, since := 0, items := [1] } : OpenPack) },
      fun m => m.setFld (R.RU_FLUSH_EXP (47 : Fin 48)) 1, fun m => { m with store.gated := 1023 }]), 47,
      ({ type := 4, rate := 0, tb := 16, last := 32, since := 0, items := [1] }), by decide +kernel⟩,
    ⟨(mk [fun m => m.setSto (47 : Fin 48) { m.sto (47 : Fin 48) with pack := some ({ type := 0, rate := 0, tb := 16, last := 32, since := 0, items := List.replicate 40 1 } : OpenPack) },
      fun m => m.setSto (47 : Fin 48) { m.sto (47 : Fin 48) with lostEnd := none },
      fun m => m.setSto (47 : Fin 48) { m.sto (47 : Fin 48) with fifo := List.replicate 128 ⟨0, []⟩, pack := some ({ type := 0, rate := 0, tb := 16, last := 32, since := 0, items := List.replicate 40 1 } : OpenPack) }]),
      47, ({ type := 0, rate := 0, tb := 16, last := 32, since := 0, items := List.replicate 40 1 }), by decide +kernel⟩,
    ⟨(mk [fun m => m.setSto (47 : Fin 48) { m.sto (47 : Fin 48) with pack := some ({ type := 0, rate := 0, tb := 16, last := 32, since := 0, items := List.replicate 40 1 } : OpenPack) }]).eng,
      47, ({ type := 0, rate := 0, tb := 16, last := 32, since := 0, items := List.replicate 40 1 }), by decide +kernel⟩⟩

/-- The premises of every clause of Gauges can be met. -/
theorem witness_Gauges :
    (∃ (s : State) (n : Fin 48) (g : Fin 4) (x : Tb) (l : List Tb), s.eng.live = true ∧ (s.eng.timed n g).longDue = x :: l) ∧
    (∃ (s : State) (n : Fin 48) (g : Fin 4) (x : Tb) (l : List Tb), s.eng.live = true ∧ (s.eng.timed n g).expiryDue = x :: l) ∧
    (∃ (s : State) (n : Fin 48) (g : Fin 4), (s.eng.timed n g).longDue = []) ∧
    (∃ (s : State) (port : Port) (n : Fin 48) (off : BitVec 10) (v : Word) (h : RegHit), decodeReg (0x41000 + 0x2000 * n.val + 4 * off.toNat) = some h ∧ 0x100 ≤ h.off ∧
      s.accepts port (0x41000 + 0x2000 * n.val + 4 * off.toNat) v = true) ∧
    (∃ (s : State) (port : Port) (n : Fin 48) (g : Fin 4) (v : Word), s.accepts port (R.RUG_CNT_LO n g) v = true) ∧
    (∃ (s : State) (port : Port) (n : Fin 48) (g : Fin 4) (v : Word), s.accepts port (R.RUG_CNT_HI n g) v = true) :=
  ⟨⟨(mk [fun m => m.setTimed (47 : Fin 48) (3 : Fin 4) { m.timed (47 : Fin 48) (3 : Fin 4) with longDue := (5 : Tb) :: ([] : List Tb) }]), 47, 3, 5, ([]), by decide +kernel⟩,
    ⟨(mk [fun m => m.setTimed (47 : Fin 48) (3 : Fin 4) { m.timed (47 : Fin 48) (3 : Fin 4) with expiryDue := (5 : Tb) :: ([] : List Tb) }]), 47, 3, 5, ([]),
      by decide +kernel⟩,
    ⟨ready, 47, 3, by decide +kernel⟩,
    ⟨ready, .host, 47, 0x40, 0, (hit (0x41100 + 0x2000 * 47)), by decide +kernel⟩,
    ⟨ready, .host, 47, 3, 0, by decide +kernel⟩,
    ⟨ready, .host, 47, 3, 0, by decide +kernel⟩⟩

/-- The premises of every clause of SluiceStep can be met. -/
theorem witness_SluiceStep :
    (∃ (s : State) (e : PipeEntry) (ecc : Ecc) (c : ConfOut) (l ent : Nat), s.eng.live = true ∧ s.eng.stepDue = some e ∧ s.eng.stepsFor e.phys = true ∧ ecc ≠ .double ∧
      c = s.eng.confluence s.chip.tanks e ∧ l = s.eng.fld R.SLU_STATUS_LEVEL ∧ ent = s.eng.sluEntry s.chip.tanks (s.eng.setAt e.phys) c.e l) ∧
    (∃ (s : State) (e : PipeEntry), s.eng.live = true ∧ s.eng.stepDue = some e ∧ s.eng.stepsFor e.phys = false ∧ s.eng.path.jumpAt e.phys = none) ∧
    (∃ (s : State) (e : PipeEntry) (j : Jump), s.eng.live = true ∧ s.eng.stepDue = some e ∧ s.eng.stepsFor e.phys = false ∧ s.eng.path.jumpAt e.phys = some j) ∧
    (∃ (s : State) (e : PipeEntry) (k : Nat), s.eng.live = true ∧ s.eng.stepDue = some e ∧ s.eng.stepsFor e.phys = true ∧ s.eng.tank.errs = [] ∧
      k = s.eng.setBaseTank (s.eng.setAt e.phys) + 6 + (s.eng.confluence s.chip.tanks e).e / 64 ∧ s.eng.tankReadable k = true) ∧
    (∃ (s : State), s.eng.live = true ∧ s.eng.stepDue = none) :=
  ⟨⟨(stepping), ({ phys := 3145704, tb := 16 * 3149800, outs := List.replicate 48 {}, codes := some [1, 2, 3] } : PipeEntry), .single,
      ((stepping).eng.confluence (stepping).chip.tanks ({ phys := 3145704, tb := 16 * 3149800, outs := List.replicate 48 {}, codes := some [1, 2, 3] } : PipeEntry)), 0,
      ((stepping).eng.sluEntry (stepping).chip.tanks ((stepping).eng.setAt 3145704) ((stepping).eng.confluence (stepping).chip.tanks ({ phys := 3145704, tb := 16 * 3149800, outs := List.replicate 48 {}, codes := some [1, 2, 3] } : PipeEntry)).e 0),
      by decide +kernel⟩,
    ⟨(mk [fun m => { m with path.pipe := [({ phys := 3145704, tb := 16 * 3149800, outs := List.replicate 48 {}, codes := some [1, 2, 3] } : PipeEntry)], armSpan := none }]),
      ({ phys := 3145704, tb := 16 * 3149800, outs := List.replicate 48 {}, codes := some [1, 2, 3] } : PipeEntry), by decide +kernel⟩,
    ⟨(mk [fun m => { m with path.pipe := [({ phys := 3145704, tb := 16 * 3149800, outs := List.replicate 48 {}, codes := some [1, 2, 3] } : PipeEntry)], armSpan := none, path.jumps := [⟨3145704, 1023, true, false⟩] }]),
      ({ phys := 3145704, tb := 16 * 3149800, outs := List.replicate 48 {}, codes := some [1, 2, 3] } : PipeEntry), ⟨3145704, 1023, true, false⟩, by decide +kernel⟩,
    ⟨stepping, ({ phys := 3145704, tb := 16 * 3149800, outs := List.replicate 48 {}, codes := some [1, 2, 3] } : PipeEntry), 10, by decide +kernel⟩,
    ⟨ready, by decide +kernel⟩⟩

/-- The premises of every clause of SluiceInputsAndSnapshots can be met. -/
theorem witness_SluiceInputsAndSnapshots :
    (∃ (s : State) (port : Port) (b : Bool) (v : Word), s.accepts port (if b then R.SLU_CTRB_LO else R.SLU_CTRA_LO) v = true) ∧
    (∃ (s : State) (port : Port) (b : Bool) (v : Word), s.accepts port (if b then R.SLU_CTRB_HI else R.SLU_CTRA_HI) v = true) ∧
    (∃ (s : State) (since : Nat) (u : Tb) (d : Nat) (l : List (Nat × Tb × Nat)), s.eng.live = true ∧ s.eng.path.irqQueue = (since, u, d) :: l ∧
      s.eng.path.irqAt ≠ some s.eng.pclk ∧ since ≤ s.eng.cc) ∧
    (∃ (s : State), s.eng.live = true ∧ (s.eng.path.irqAt = some s.eng.pclk ∨ s.eng.path.irqQueue = [])) ∧
    (∃ (s : State) (a : RotaAct), s.eng.live = true ∧ s.eng.actAt 2 8 = some a) ∧
    (∃ (s : State) (a : RotaAct), s.eng.live = true ∧ s.eng.actAt 2 9 = some a) ∧
    (∃ (s : State) (port : Port), s.accepts port R.CONF_SNAPCTL 1 = true) ∧
    (∃ (s : State) (port : Port), s.accepts port R.CONF_SNAPCTL 3 = true ∧
      cycleOf (nth s.eng.path.tbHist (14 + s.eng.lag) (tbOfCycle (s.eng.cycle - (14 + s.eng.lag)))) ≤ cycleOf (s.eng.reg64 R.CONF_SNAP_TB_LO)) ∧
    (∃ (s : State) (port : Port), s.accepts port R.CONF_SNAPCTL 3 = true ∧
      cycleOf (s.eng.reg64 R.CONF_SNAP_TB_LO) < cycleOf (nth s.eng.path.tbHist (14 + s.eng.lag) (tbOfCycle (s.eng.cycle - (14 + s.eng.lag))))) ∧
    (∃ (s : State) (e : PipeEntry), s.eng.live = true ∧ s.eng.flag R.CONF_SNAPCTL_GO = true ∧ s.eng.path.pipe.find? s.eng.path.snapMatch = some e) :=
  ⟨⟨ready, .host, true, 0, by decide +kernel⟩,
    ⟨ready, .host, true, 0, by decide +kernel⟩,
    ⟨(mk [fun m => { m with path.irqQueue := [((3145728 : Nat), (5 : Tb), (7 : Nat))] }]), 3145728, 5, 7, [], by decide +kernel⟩,
    ⟨(mk [fun m => { m with path.irqAt := some m.pclk }]), by decide +kernel⟩,
    ⟨(mk [fun m => { m with rota.queue := [(⟨0, 0, 8, 0, 0x303FF, 8⟩ : RotaAct)] }]), (⟨0, 0, 8, 0, 0x303FF, 8⟩), by decide +kernel⟩,
    ⟨(mk [fun m => { m with rota.queue := [(⟨0, 0, 9, 7, 1, 9⟩ : RotaAct)] }]), (⟨0, 0, 9, 7, 1, 9⟩), by decide +kernel⟩,
    ⟨ready, .host, by decide +kernel⟩,
    ⟨(mk [fun m => m.setReg64 R.CONF_SNAP_TB_LO (50397184 + 160)]), .host, by decide +kernel⟩,
    ⟨(mk [fun m => { m with path.tbHist := List.replicate 15 80 }]), .host, by decide +kernel⟩,
    ⟨(mk [fun m => m.setFlag R.CONF_SNAPCTL_GO true,
      fun m => { m with path.pipe := [({ phys := 3145704, tb := 16 * 3149800, conf := some { e := 5 } } : PipeEntry)], path.snapTarget := 3149800 }]),
      ({ phys := 3145704, tb := 16 * 3149800, conf := some { e := 5 } }), by decide +kernel⟩⟩

/-- The premises of every clause of TableSets can be met. -/
theorem witness_TableSets :
    (∃ (s : State) (a : RotaAct), s.eng.live = true ∧ s.eng.actAt 2 0xA = some a ∧ (s.eng.armedAt (s.eng.cc + 1) && !s.eng.verified (bitAt a.arg 0)) = false) ∧
    (∃ (s : State) (a : RotaAct), s.eng.live = true ∧ s.eng.actAt 2 0xA = some a ∧ (s.eng.armedAt (s.eng.cc + 1) && !s.eng.verified (bitAt a.arg 0)) = true) ∧
    (∃ (s : State) (port : Port) (v : Word), s.accepts port R.CONF_SETSEL v = true) ∧
    (∃ (s : State) (port : Port) (v : Word), s.eng.armed = false ∧ s.eng.store.active = false ∧ s.accepts port R.CONF_TSET v = true) ∧
    (∃ (s : State) (port : Port) (b : Bool) (k : Fin 11) (v : Word), s.eng.armed = false ∧ s.eng.store.active = false ∧ s.eng.path.verifying = none ∧
      s.accepts port (if b then R.CONF_SETCRC_B k else R.CONF_SETCRC_A k) v = true) ∧
    (∃ (s : State) (port : Port) (b : Bool), s.eng.path.verifying = none ∧ s.accepts port R.CONF_VERIFY (if b then 3 else 1) = true) ∧
    (∃ (s : State) (port : Port) (b r : Bool), s.eng.path.verifying = some r ∧ s.accepts port R.CONF_VERIFY (if b then 3 else 1) = true) ∧
    (∃ (s : State) (b : Bool), s.eng.live = true ∧ s.eng.path.verifying = some b ∧ s.eng.path.verifyWaits = none) ∧
    (∃ (s : State), s.eng.live = true ∧ s.eng.armed = true) ∧
    (∃ (s : State), s.eng.live = true ∧ s.eng.armed = false) :=
  ⟨⟨(mk [fun m => { m with rota.queue := [(⟨0, 0, 0xA, 0, 1, 0xA⟩ : RotaAct)] }]), (⟨0, 0, 0xA, 0, 1, 0xA⟩), by decide +kernel⟩,
    ⟨(mk [fun m => { m with rota.queue := [(⟨0, 0, 0xA, 0, 1, 0xA⟩ : RotaAct)] }, fun m => { m with armSpan := some (0, none) }]), (⟨0, 0, 0xA, 0, 1, 0xA⟩),
      by decide +kernel⟩,
    ⟨ready, .host, 0, by decide +kernel⟩,
    ⟨(mk [fun m => m.setFlag R.SYS_STATUS_ARMED false, fun m => { m with store.active := false }]), .host, 0, by decide +kernel⟩,
    ⟨(mk [fun m => m.setFlag R.SYS_STATUS_ARMED false, fun m => { m with store.active := false }, fun m => { m with path.verifying := none }]), .host, true, 10, 0,
      by decide +kernel⟩,
    ⟨(mk [fun m => { m with path.verifying := none }]), .host, true, by decide +kernel⟩,
    ⟨(mk [fun m => { m with path.verifying := some false }]), .host, true, false, by decide +kernel⟩,
    ⟨(mk [fun m => { m with path.verifying := some (true : Bool) }, fun m => { m with path.verifyWaits := none }]), true, by decide +kernel⟩,
    ⟨(mk [fun m => m.setFlag R.SYS_STATUS_ARMED true]), by decide +kernel⟩,
    ⟨ready, by decide +kernel⟩⟩

/-- The premises of every clause of Arming can be met. -/
theorem witness_Arming :
    (∃ (s : State) (port : Port), s.accepts port R.SYS_CTL 1 = true ∧ s.eng.armed = false ∧ s.eng.arming = none ∧ s.eng.settled = true) ∧
    (∃ (s : State) (port : Port), s.accepts port R.SYS_CTL 1 = true ∧ s.eng.armed = false ∧ s.eng.arming = none ∧ s.eng.settled = false ∧ s.eng.cisReady = false ∧
      s.eng.cycleWrites = []) ∧
    (∃ (s : State) (port : Port), s.accepts port R.SYS_CTL 1 = true ∧ s.eng.armed = false ∧ s.eng.arming = none ∧ s.eng.settled = false ∧ s.eng.cisReady = false) ∧
    (∃ (s : State) (port : Port) (total : Nat), s.accepts port R.SYS_CTL 1 = true ∧ s.eng.armed = false ∧ s.eng.arming = none ∧ s.eng.settled = false ∧
      s.eng.cisReady = true ∧ s.eng.cycleWrites = [] ∧ s.eng.held = [] ∧ s.eng.store.active = false ∧ (List.range 48).find? s.eng.calInternal = none ∧
      s.eng.tablePlaceBad = false ∧ s.eng.tableOwnerBad = none ∧ s.eng.verified (s.eng.flag R.CONF_SETSEL_SET) = true ∧ s.eng.budgetCheck = (none, some total) ∧
      s.eng.planCheck = none) ∧
    (∃ (s : State) (port : Port), s.accepts port R.SYS_CTL 1 = true ∧ (s.eng.armed = true ∨ s.eng.arming.isSome = true)) ∧
    (∃ (s : State) (r : ArmReq), s.eng.live = true ∧ s.eng.arming = some r ∧ r.passed = true ∧ r.act = none ∧ s.eng.tableOwnerBad = none) ∧
    (∃ (s : State) (r : ArmReq) (k : Nat), s.eng.live = true ∧ s.eng.arming = some r ∧ r.passed = true ∧ r.act = none ∧ s.eng.tableOwnerBad = some k ∧ s.eng.held = [] ∧
      r.late = []) ∧
    (∃ (s : State) (port : Port), s.accepts port R.SYS_CTL 2 = true ∧ s.eng.armed = true ∧ s.eng.arming = none) ∧
    (∃ (s : State) (port : Port) (r : ArmReq), s.accepts port R.SYS_CTL 2 = true ∧ s.eng.armed = false ∧ s.eng.arming = some r ∧ r.act = none ∧ s.eng.held = [] ∧ r.late = []) :=
  ⟨⟨(mk [fun m => m.setFlag R.SYS_STATUS_ARMED false, fun m => { m with arming := none }, fun m => m.setFlag R.SAFE_STATUS_SETTLED true]), .host, by decide +kernel⟩,
    ⟨(mk [fun m => m.setFld R.CIS_STATUS_STATE 0]), .host, by decide +kernel⟩,
    ⟨(mk [fun m => m.setFld R.CIS_STATUS_STATE 0, fun m => m.noteWrite (R.RU_STREAM 47) 2 false]), .host, by decide +kernel⟩,
    ⟨(armable []), .host, 512, by decide +kernel⟩,
    ⟨(mk [fun m => m.setFlag R.SYS_STATUS_ARMED true]), .host, by decide +kernel⟩,
    ⟨(armable [fun m => { m with arming := some ({ src := 0, stream := List.replicate 48 0, asked := true, passed := true } : ArmReq) }]),
      ({ src := 0, stream := List.replicate 48 0, asked := true, passed := true } : ArmReq), by decide +kernel⟩,
    ⟨(mk [fun m => { m with arming := some ({ src := 0, stream := List.replicate 48 0, asked := true, passed := true } : ArmReq) }]),
      ({ src := 0, stream := List.replicate 48 0, asked := true, passed := true } : ArmReq), 4, by decide +kernel⟩,
    ⟨(mk [fun m => m.setFlag R.SYS_STATUS_ARMED true, fun m => { m with arming := none }]), .host, by decide +kernel⟩,
    ⟨(mk [fun m => { m with arming := some ({ src := 0, stream := List.replicate 48 0, asked := true, passed := true } : ArmReq) }]), .host,
      ({ src := 0, stream := List.replicate 48 0, asked := true, passed := true } : ArmReq), by decide +kernel⟩⟩

/-- The premises of every clause of Timebase can be met. -/
theorem witness_Timebase :
    (∃ (s : State), s.eng.running = true ∧ s.eng.dammed = false ∧ s.eng.first = false ∧ s.eng.tbLoad = none) ∧
    (∃ (s : State) (c : Nat), s.eng.running = true ∧ s.eng.dammed = false ∧ s.eng.tbLoad = some c) ∧
    (∃ (s : State), s.eng.dammed = true ∧ s.eng.mgt.powered = true ∧ s.eng.lost = false) ∧
    (∃ (s : State), s.eng.dammed = false ∧ s.eng.running = false) ∧
    (∃ (s : State) (port : Port), s.accepts port R.TB_CTL 1 = true ∧ s.eng.armed = false ∧ s.eng.flag R.TB_STATUS_TRIB = false ∧ s.eng.tbLoad = none) ∧
    (∃ (s : State) (port : Port), s.accepts port R.TB_CTL 1 = true ∧ (s.eng.armed = true ∨ s.eng.flag R.TB_STATUS_TRIB = true ∨ s.eng.tbLoad.isSome = true)) ∧
    (∃ (s : State), s.eng.running = true ∧ s.eng.wrapDue = true) :=
  ⟨⟨(mk [fun m => { m with running := true }, fun m => m.setFlag R.DAM_STATUS_DAMMED false, fun m => { m with first := false }, fun m => { m with tbLoad := none }]),
      by decide +kernel⟩,
    ⟨(mk [fun m => { m with running := true }, fun m => m.setFlag R.DAM_STATUS_DAMMED false, fun m => { m with tbLoad := some (2 ^ 60 - 1 : Nat) }]), (2 ^ 60 - 1),
      by decide +kernel⟩,
    ⟨(mk [fun m => m.setFlag R.DAM_STATUS_DAMMED true]), by decide +kernel⟩,
    ⟨(mk [fun m => { m with running := false }]), by decide +kernel⟩,
    ⟨(mk [fun m => m.setFlag R.SYS_STATUS_ARMED false, fun m => m.setFlag R.TB_STATUS_TRIB false, fun m => { m with tbLoad := none }]), .host, by decide +kernel⟩,
    ⟨(mk [fun m => m.setFlag R.SYS_STATUS_ARMED true]), .host, by decide +kernel⟩,
    ⟨(mk [fun m => { m with running := true }, fun m => { m with wrapDue := true }]), by decide +kernel⟩⟩

/-- The premises of every clause of RotaRing can be met. -/
theorem witness_RotaRing :
    (∃ (s : State), s.eng.live = true ∧ (s.eng.rotaRunning = false ∨ s.eng.fld R.ROTA_HEAD_INDEX = s.eng.fld R.ROTA_TAIL_INDEX ∨ s.eng.rota.lastRead = s.eng.cc)) ∧
    (∃ (s : State) (a : RotaAct), s.eng.live = true ∧ s.eng.tank.errs = [] ∧ s.eng.rotaRunning = true ∧ s.eng.fld R.ROTA_HEAD_INDEX ≠ s.eng.fld R.ROTA_TAIL_INDEX ∧
      s.eng.rota.lastRead ≠ s.eng.cc ∧ a = s.eng.rotaEntry s.chip.tanks (s.eng.fld R.ROTA_HEAD_INDEX) ∧ (s.eng.beyondHorizon a || s.eng.rotaFull a) = true) ∧
    (∃ (s : State) (a : RotaAct), s.eng.live = true ∧ s.eng.tank.errs = [] ∧ s.eng.rotaRunning = true ∧ s.eng.fld R.ROTA_HEAD_INDEX ≠ s.eng.fld R.ROTA_TAIL_INDEX ∧
      s.eng.rota.lastRead ≠ s.eng.cc ∧ a = s.eng.rotaEntry s.chip.tanks (s.eng.fld R.ROTA_HEAD_INDEX) ∧ dueOf a.code a.tb ≤ s.eng.cycle + 4096 ∧
      (0xD < a.code ∨ targetOk a.code a.target = false)) ∧
    (∃ (s : State), s.eng.live = true ∧ s.eng.rotaRunning = true ∧ s.eng.fld R.ROTA_HEAD_INDEX ≠ s.eng.fld R.ROTA_TAIL_INDEX ∧ s.eng.rota.lastRead ≠ s.eng.cc) ∧
    (∃ (s : State) (a : RotaAct), s.eng.live = true ∧ s.eng.tank.errs = [] ∧ s.eng.rotaRunning = true ∧ s.eng.fld R.ROTA_HEAD_INDEX ≠ s.eng.fld R.ROTA_TAIL_INDEX ∧
      s.eng.rota.lastRead ≠ s.eng.cc ∧ a = s.eng.rotaEntry s.chip.tanks (s.eng.fld R.ROTA_HEAD_INDEX) ∧ dueOf a.code a.tb ≤ s.eng.cycle + 4096 ∧ a.bad = false ∧
      s.eng.outOfOrder a = true) ∧
    (∃ (s : State) (a : RotaAct), s.eng.live = true ∧ s.eng.tank.errs = [] ∧ s.eng.rotaRunning = true ∧ s.eng.fld R.ROTA_HEAD_INDEX ≠ s.eng.fld R.ROTA_TAIL_INDEX ∧
      s.eng.rota.lastRead ≠ s.eng.cc ∧ a = s.eng.rotaEntry s.chip.tanks (s.eng.fld R.ROTA_HEAD_INDEX) ∧ dueOf a.code a.tb ≤ s.eng.cycle + 4096 ∧ a.bad = false ∧
      s.eng.outOfOrder a = false ∧ a.code = 0) ∧
    (∃ (s : State) (a : RotaAct), s.eng.live = true ∧ s.eng.tank.errs = [] ∧ s.eng.rotaRunning = true ∧ s.eng.fld R.ROTA_HEAD_INDEX ≠ s.eng.fld R.ROTA_TAIL_INDEX ∧
      s.eng.rota.lastRead ≠ s.eng.cc ∧ a = s.eng.rotaEntry s.chip.tanks (s.eng.fld R.ROTA_HEAD_INDEX) ∧ dueOf a.code a.tb ≤ s.eng.cycle + 4096 ∧
      s.eng.cycle + 16 ≤ dueOf a.code a.tb ∧ 1 < a.code ∧ a.bad = false ∧ s.eng.outOfOrder a = false ∧ s.eng.rota.hasRoom (queueOf a.code a.target) = true) ∧
    (∃ (s : State) (a : RotaAct), s.eng.live = true ∧ s.eng.tank.errs = [] ∧ s.eng.rotaRunning = true ∧ s.eng.fld R.ROTA_HEAD_INDEX ≠ s.eng.fld R.ROTA_TAIL_INDEX ∧
      s.eng.rota.lastRead ≠ s.eng.cc ∧ a = s.eng.rotaEntry s.chip.tanks (s.eng.fld R.ROTA_HEAD_INDEX) ∧ dueOf a.code a.tb < s.eng.cycle + 16 ∧ 1 < a.code ∧ a.bad = false ∧
      s.eng.outOfOrder a = false ∧ s.eng.rota.hasRoom (queueOf a.code a.target) = true ∧ bitsOf a.word 12 3 = 0) ∧
    (∃ (s : State) (a : RotaAct), s.eng.live = true ∧ s.eng.tank.errs = [] ∧ s.eng.rotaRunning = true ∧ s.eng.fld R.ROTA_HEAD_INDEX ≠ s.eng.fld R.ROTA_TAIL_INDEX ∧
      s.eng.rota.lastRead ≠ s.eng.cc ∧ a = s.eng.rotaEntry s.chip.tanks (s.eng.fld R.ROTA_HEAD_INDEX) ∧ dueOf a.code a.tb ≤ s.eng.cycle + 4096 ∧
      s.eng.cycle + 16 ≤ dueOf a.code a.tb ∧ a.code = 1 ∧ a.bad = false ∧ s.eng.outOfOrder a = false ∧ s.eng.rota.hasRoom 0 = true ∧ bitsOf a.word 12 3 = 0 ∧
      s.eng.armed = false ∧ s.eng.arming = none ∧ s.eng.settled = false ∧ s.eng.cisReady = false ∧ s.eng.cycleWrites = []) ∧
    (∃ (s : State) (port : Port) (v : Word), s.accepts port R.ROTA_HEAD v = true ∧ (s.eng.flag R.ROTA_CTL_EN = false ∨ s.eng.flag R.ROTA_STATUS_HALTED = true)) ∧
    (∃ (s : State) (port : Port) (v : Word), s.accepts port R.ROTA_HEAD v = true ∧ s.eng.flag R.ROTA_CTL_EN = true ∧ s.eng.flag R.ROTA_STATUS_HALTED = false) ∧
    (∃ (s : State) (port : Port) (v : Word), s.accepts port R.ROTA_CTL (v ||| 2) = true) ∧
    (∃ (s : State) (r : Fin 7) (x : Repeater), s.eng.live = true ∧ s.eng.rota.reps.find? (fun x => x.slot == r.val + 1) = some x ∧ x.word % 256 ≠ 1 ∧
      dueOf (x.word % 256) (x.tb + BitVec.ofNat 64 ((x.k + 1) * x.period)) = s.eng.cycle + 16 ∧ s.eng.rota.hasRoom (queueOf (x.word % 256) x.target) = true) ∧
    (∃ (s : State) (port : Port) (v : Word), s.accepts port R.ROTA_REPSTOP v = true) :=
  ⟨⟨ready, by decide +kernel⟩,
    ⟨(rotaWith (16 * 3160000) 4 47 7 []), ⟨16 * 3160000, 16 * 3160000, 4, 47, 7, 4⟩, by decide +kernel⟩,
    ⟨(rotaWith 0 0xE 0 0 []), ⟨0, 0, 0xE, 0, 0, 0xE⟩, by decide +kernel⟩,
    ⟨(rotaWith 0 0xE 0 0 []), by decide +kernel⟩,
    ⟨(rotaWith 0 8 0 0 [fun m => { m with rota.refTb := some 1 }]), ⟨0, 0, 8, 0, 0, 8⟩, by decide +kernel⟩,
    ⟨(rotaWith 0 0 0 0 []), ⟨0, 0, 0, 0, 0, 0⟩, by decide +kernel⟩,
    ⟨(rotaWith (16 * 3149840) 0x7004 47 7 []), ⟨16 * 3149840, 16 * 3149840, 4, 47, 7, 0x7004⟩, by decide +kernel⟩,
    ⟨(rotaWith 5 4 47 7 []), ⟨5, 5, 4, 47, 7, 4⟩, by decide +kernel⟩,
    ⟨(rotaWith (16 * 3149840) 1 0 0 [fun m => m.setFld R.CIS_STATUS_STATE 0]), ⟨16 * 3149840, 16 * 3149840, 1, 0, 0, 1⟩, by decide +kernel⟩,
    ⟨ready, .host, 0, by decide +kernel⟩,
    ⟨(mk [fun m => m.setFlag R.ROTA_CTL_EN true, fun m => m.setFlag R.ROTA_STATUS_HALTED false]), .host, 0, by decide +kernel⟩,
    ⟨ready, .host, 0, by decide +kernel⟩,
    ⟨(mk [fun m => { m with rota.reps := [({ slot := 7, tb := 16 * 3149839, target := 0, arg := 0, word := 3, period := 16, k := 0, left := some 1 } : Repeater)] }]), 6,
      ({ slot := 7, tb := 16 * 3149839, target := 0, arg := 0, word := 3, period := 16, k := 0, left := some 1 }), by decide +kernel⟩,
    ⟨ready, .host, 0, by decide +kernel⟩⟩

/-- The premises of every clause of RotaActions can be met. -/
theorem witness_RotaActions :
    (∃ (s : State) (r : ArmReq) (a : RotaAct), s.eng.live = true ∧ s.eng.arming = some r ∧ r.passed = true ∧ r.act = some a ∧ s.eng.tbLoad = none ∧
      dueAfter a.eff ≤ s.eng.nextCycle ∧ s.eng.tableOwnerBad = none) ∧
    (∃ (s : State) (r : ArmReq) (a : RotaAct) (k : Nat), s.eng.live = true ∧ s.eng.arming = some r ∧ r.passed = true ∧ r.act = some a ∧ s.eng.tbLoad = none ∧
      dueAfter a.eff ≤ s.eng.nextCycle ∧ s.eng.tableOwnerBad = some k ∧ s.eng.held = [] ∧ r.late = []) ∧
    (∃ (s : State), s.eng.live = true ∧ s.eng.arming = none) ∧
    (∃ (s : State) (a : RotaAct), s.eng.live = true ∧ s.eng.storeAct 2 = some a) ∧
    (∃ (s : State) (a : RotaAct), s.eng.live = true ∧ s.eng.storeAct 3 = some a) ∧
    (∃ (s : State) (o : Fin 2) (a : RotaAct), s.eng.live = true ∧ s.eng.actAt (8 + o.val) 0xB = some a ∧ o.val < s.eng.disp.length ∧ (s.eng.dsp o).running = true ∧
      (s.eng.dsp o).rotaFlip = none ∧ o = 1 → (s.eng.dsp 1).cloning = false) ∧
    (∃ (s : State) (o : Fin 2) (a : RotaAct), s.eng.live = true ∧ s.eng.actAt (8 + o.val) 0xB = some a ∧ (s.eng.dsp o).running = false ∧
      o = 1 → (s.eng.dsp 1).cloning = false) ∧
    (∃ (s : State) (a : RotaAct), s.eng.live = true ∧ s.eng.actAt 9 0xB = some a ∧ (s.eng.dsp 1).cloning = true) ∧
    (∃ (s : State) (a : RotaAct), s.eng.live = true ∧ s.eng.actAt 3 0xC = some a) ∧
    (∃ (s : State) (a : RotaAct), s.eng.live = true ∧ s.eng.actAt 4 0xD = some a ∧ s.eng.damUnderWay = false) ∧
    (∃ (s : State) (a : RotaAct), s.eng.live = true ∧ s.eng.actAt 4 0xD = some a ∧ s.eng.damUnderWay = true) :=
  ⟨⟨(armable [fun m => { m with arming := some ({ src := 1, stream := List.replicate 48 0, asked := true, passed := true, act := some ⟨0, 0, 1, 0, 0, 1⟩ } : ArmReq), rota.queue := [(⟨0, 0, 1, 0, 0, 1⟩)] }]),
      ({ src := 1, stream := List.replicate 48 0, asked := true, passed := true, act := some ⟨0, 0, 1, 0, 0, 1⟩ } : ArmReq), (⟨0, 0, 1, 0, 0, 1⟩), by decide +kernel⟩,
    ⟨(queued (⟨0, 0, 1, 0, 0,
      1⟩) [fun m => { m with arming := some ({ src := 1, stream := List.replicate 48 0, asked := true, passed := true, act := some ⟨0, 0, 1, 0, 0, 1⟩ } : ArmReq) }]),
      ({ src := 1, stream := List.replicate 48 0, asked := true, passed := true, act := some ⟨0, 0, 1, 0, 0, 1⟩ } : ArmReq), (⟨0, 0, 1, 0, 0, 1⟩), 4, by decide +kernel⟩,
    ⟨(mk [fun m => { m with arming := none }]), by decide +kernel⟩,
    ⟨(mk [fun m => { m with rota.queue := [(⟨0, 0, 2, 0, 0, 2⟩ : RotaAct)] }]), (⟨0, 0, 2, 0, 0, 2⟩), by decide +kernel⟩,
    ⟨(mk [fun m => { m with rota.queue := [(⟨0, 0, 3, 0, 0, 3⟩ : RotaAct)] }]), (⟨0, 0, 3, 0, 0, 3⟩), by decide +kernel⟩,
    ⟨(mk [fun m => m.setDsp (1 : Fin 2) { m.dsp (1 : Fin 2) with running := true }, fun m => m.setDsp (1 : Fin 2) { m.dsp (1 : Fin 2) with rotaFlip := none },
      fun m => { m with rota.queue := [(⟨0, 0, 0xB, 1, 0, 0xB⟩ : RotaAct)] }]), 1, (⟨0, 0, 0xB, 1, 0, 0xB⟩), by decide +kernel⟩,
    ⟨(queued (⟨0, 0, 0xB, 1, 0, 0xB⟩) []), 1, (⟨0, 0, 0xB, 1, 0, 0xB⟩), by decide +kernel⟩,
    ⟨(queued (⟨0, 0, 0xB, 1, 0, 0xB⟩) [fun m => m.setDsp 1 { m.dsp 1 with cloning := true }]), (⟨0, 0, 0xB, 1, 0, 0xB⟩), by decide +kernel⟩,
    ⟨(mk [fun m => { m with rota.queue := [(⟨0, 0, 0xC, 0, 15, 0xC⟩ : RotaAct)] }]), (⟨0, 0, 0xC, 0, 15, 0xC⟩), by decide +kernel⟩,
    ⟨(mk [fun m => { m with rota.queue := [(⟨0, 0, 0xD, 0, 0, 0xD⟩ : RotaAct)] }]), (⟨0, 0, 0xD, 0, 0, 0xD⟩), by decide +kernel⟩,
    ⟨(queued (⟨0, 0, 0xD, 0, 0, 0xD⟩) [fun m => { m with dam.driveAt := some (5, 2) }]), (⟨0, 0, 0xD, 0, 0, 0xD⟩), by decide +kernel⟩⟩

/-- The premises of every clause of GateCommands can be met. -/
theorem witness_GateCommands :
    (∃ (s : State) (a : RotaAct), s.eng.live = true ∧ s.eng.gateQueue = [a] ∧ a.code = 4 ∧ s.eng.gateReady a.eff = true ∧ s.eng.gateOrders = [] ∧ s.eng.gate.pulses = [] ∧
      s.eng.settled = false ∧ s.eng.gateOutput a.target = true ∧ s.eng.gate.met.1 ≠ a.eff) ∧
    (∃ (s : State) (a : RotaAct), s.eng.live = true ∧ s.eng.gateQueue = [a] ∧ a.code = 5 ∧ s.eng.gateReady a.eff = true ∧ s.eng.gateOrders = [] ∧ s.eng.gate.pulses = [] ∧
      s.eng.settled = false ∧ s.eng.gateOutput a.target = true ∧ s.eng.gate.met.1 ≠ a.eff) ∧
    (∃ (s : State) (a : RotaAct), s.eng.live = true ∧ s.eng.gateQueue = [a] ∧ a.code = 6 ∧ s.eng.gateReady a.eff = true ∧ s.eng.gateOrders = [] ∧ s.eng.gate.pulses = [] ∧
      s.eng.settled = false ∧ s.eng.gateOutput a.target = true ∧ s.eng.gate.met.1 ≠ a.eff) ∧
    (∃ (s : State) (a : RotaAct) (c : Instr), s.eng.live = true ∧ s.eng.gateQueue = [a] ∧ ((a.code = 4 ∧ c = .gateSet) ∨ (a.code = 5 ∧ c = .gateClr) ∨ (a.code = 6 ∧
      c = .gatePulse)) ∧ s.eng.gateReady a.eff = true ∧ s.eng.gateOrders = [] ∧ s.eng.gate.pulses = [] ∧ s.eng.settled = true) ∧
    (∃ (s : State) (i : Nat) (u : Tb), s.eng.live = true ∧ s.eng.gate.pulses = [(i, u)] ∧ s.eng.gateReady u = true ∧ s.eng.gateOrders = [] ∧ s.eng.gateQueue = []) ∧
    (∃ (s : State) (o : GateOrder), s.eng.live = true ∧ s.eng.gateOrders = [o] ∧ (o.op = 1 ∨ o.op = 2) ∧ s.eng.gateReady o.tick = true ∧ s.eng.gate.pulses = [] ∧
      s.eng.gateQueue = []) ∧
    (∃ (s : State), s.eng.live = true ∧ s.eng.gateNext = none) :=
  ⟨⟨(mk [fun m => { m with rota.queue := [(⟨7, 7, 4, 47, 5, 4⟩ : RotaAct)] }, fun m => { m with gateOrders := [] }, fun m => { m with gate.pulses := [] },
      fun m => m.setFlag R.SAFE_STATUS_SETTLED false, fun m => m.setFld (R.GATE_LINE_MODE 47) 1]), (⟨7, 7, 4, 47, 5, 4⟩), by decide +kernel⟩,
    ⟨(mk [fun m => { m with rota.queue := [(⟨7, 7, 5, 47, 5, 5⟩ : RotaAct)] }, fun m => { m with gateOrders := [] }, fun m => { m with gate.pulses := [] },
      fun m => m.setFlag R.SAFE_STATUS_SETTLED false, fun m => m.setFld (R.GATE_LINE_MODE 47) 1]), (⟨7, 7, 5, 47, 5, 5⟩), by decide +kernel⟩,
    ⟨(mk [fun m => { m with rota.queue := [(⟨7, 7, 6, 47, 5, 6⟩ : RotaAct)] }, fun m => { m with gateOrders := [] }, fun m => { m with gate.pulses := [] },
      fun m => m.setFlag R.SAFE_STATUS_SETTLED false, fun m => m.setFld (R.GATE_LINE_MODE 47) 1]), (⟨7, 7, 6, 47, 5, 6⟩), by decide +kernel⟩,
    ⟨(mk [fun m => { m with rota.queue := [(⟨7, 7, 4, 47, 5, 4⟩ : RotaAct)] }, fun m => { m with gateOrders := [] }, fun m => { m with gate.pulses := [] },
      fun m => m.setFlag R.SAFE_STATUS_SETTLED true]), (⟨7, 7, 4, 47, 5, 4⟩), .gateSet, by decide +kernel⟩,
    ⟨(mk [fun m => { m with gate.pulses := [((0 : Nat), (0 : Tb))] }, fun m => { m with gateOrders := [] }]), 0, 0, by decide +kernel⟩,
    ⟨(mk [fun m => { m with gateOrders := [(⟨7, 1 + 2 ^ 47, 1, 0⟩ : GateOrder)] }, fun m => { m with gate.pulses := [] }, fun m => m.setFld (R.GATE_LINE_MODE 47) 1]), (⟨7,
      1 + 2 ^ 47, 1, 0⟩), by decide +kernel⟩,
    ⟨ready, by decide +kernel⟩⟩

/-- The premises of every clause of GateWrites can be met. -/
theorem witness_GateWrites :
    (∃ (s : State) (port : Port) (i : Fin 48) (v : Word), s.eng.armed = false ∧ s.eng.store.active = false ∧ s.accepts port (R.GATE_LINE i) v = true) ∧
    (∃ (s : State) (port : Port) (k : Fin 16) (v : Word), s.eng.armed = false ∧ s.eng.store.active = false ∧ s.accepts port (R.GATE_GLUT_SEL k) v = true) ∧
    (∃ (s : State) (port : Port) (k : Fin 16) (v : Word), s.eng.armed = false ∧ s.eng.store.active = false ∧ s.accepts port (R.GATE_GLUT_TT k) v = true) ∧
    (∃ (s : State) (port : Port) (v : Word), s.accepts port R.GATE_BANKCFG v = true) ∧
    (∃ (s : State) (port : Port) (v : Word), s.accepts port R.GATE_BANKCFG v = true ∧ (∀ i, i < 48 → s.eng.gateOutput i = false ∧
      (s.eng.gateHeld i = false ∨ s.eng.safeLevel i < 2))) :=
  ⟨⟨(mk [fun m => m.setFlag R.SYS_STATUS_ARMED false, fun m => { m with store.active := false }]), .host, 47, 0, by decide +kernel⟩,
    ⟨(mk [fun m => m.setFlag R.SYS_STATUS_ARMED false, fun m => { m with store.active := false }]), .host, 15, 0, by decide +kernel⟩,
    ⟨(mk [fun m => m.setFlag R.SYS_STATUS_ARMED false, fun m => { m with store.active := false }]), .host, 15, 0, by decide +kernel⟩,
    ⟨ready, .host, 0, by decide +kernel⟩,
    ⟨ready, .host, 0, by decide +kernel⟩⟩

/-- The premises of every clause of StoreGate can be met. -/
theorem witness_StoreGate :
    (∃ (s : State) (e : PipeEntry) (rest : List PipeEntry), s.eng.live = true ∧ s.eng.path.pipe = e :: rest ∧ e.stepped = true ∧ e.phys + 32 + s.eng.lag ≤ s.eng.cc) ∧
    (∃ (s : State) (e : PipeEntry) (rest : List PipeEntry), s.eng.live = true ∧ s.eng.path.pipe = e :: rest ∧ (e.stepped = false ∨ s.eng.cc < e.phys + 32 + s.eng.lag)) ∧
    (∃ (m : Engine) (t : Tb), m.segOpen = true ∧ m.store.gapUntil = none ∧ m.fld (R.SEG_STATUS_STATE m.curSeg) = 1 ∧
      (m.flag (R.SEG_CFG_PREPOL m.curSeg) && !((List.range 48).filter m.stored).all (fun n => m.preFull n t)) = false) :=
  ⟨⟨(mk [fun m => { m with path.pipe := ({ phys := 3145696, tb := 16 * 3149792, stepped := true } : PipeEntry) :: ([] : List PipeEntry) },
      fun m => { m with path.pipe := ({ phys := 3145696, tb := 16 * 3149792, stepped := true } : PipeEntry) :: ([] : List PipeEntry) }]),
      ({ phys := 3145696, tb := 16 * 3149792, stepped := true }), ([]), by decide +kernel⟩,
    ⟨(mk [fun m => { m with path.pipe := ({ phys := 3145697, tb := 16 * 3149793, stepped := true } : PipeEntry) :: ([] : List PipeEntry) },
      fun m => { m with path.pipe := ({ phys := 3145697, tb := 16 * 3149793, stepped := true } : PipeEntry) :: ([] : List PipeEntry) }]),
      ({ phys := 3145697, tb := 16 * 3149793, stepped := true }), ([]), by decide +kernel⟩,
    ⟨(mk [fun m => { m with store.gapUntil := none }, fun m => m.setFld (R.SEG_STATUS_STATE m.curSeg) 1, fun m => { m with store.active := true },
      fun m => m.setFld (R.SEG_STATUS_STATE m.curSeg) 1]).eng, (16 * 3149792), by decide +kernel⟩⟩

/-- The premises of every clause of Segments can be met. -/
theorem witness_Segments :
    (∃ (s : State) (b : Boundary) (n c k : Nat), s.eng.live = true ∧ s.eng.store.boundary = some b ∧ (b.segact || b.next) = true ∧ s.eng.segOpen = true ∧
      s.eng.advance s.eng.curSeg = ((some n, c), k) ∧ n < 256) ∧
    (∃ (s : State) (b : Boundary) (c k : Nat), s.eng.live = true ∧ s.eng.store.boundary = some b ∧ (b.segact || b.next) = true ∧ s.eng.segOpen = true ∧
      s.eng.advance s.eng.curSeg = ((none, c), k)) ∧
    (∃ (s : State) (b : Boundary) (n c k : Nat), s.eng.live = true ∧ s.eng.store.boundary = some b ∧ b.post = true ∧ s.eng.segOpen = true ∧
      s.eng.advance s.eng.curSeg = ((some n, c), k) ∧ n < 256) ∧
    (∃ (s : State), s.eng.live = true ∧ s.eng.store.boundary = none) ∧
    (∃ (s : State) (p : Nat), s.eng.live = true ∧ s.eng.store.gapUntil = some p ∧ p ≤ s.eng.store.gated) ∧
    (∃ (s : State) (n : Fin 48), s.eng.live = true ∧ n.val < s.eng.store.intakes.length ∧ (s.eng.sto n).fullDue = true) ∧
    (∃ (s : State), s.eng.live = true ∧ s.eng.store.marks ≠ [] ∧ s.eng.store.markSince + 1024 ≤ s.eng.store.gated + 1 ∧
      s.eng.fld (R.SEG_MARK_MKUSED s.eng.curSeg) < s.eng.fld (R.SEG_MARK_MKPACKS s.eng.curSeg)) ∧
    (∃ (s : State), s.eng.live = true ∧ s.eng.store.gated + 1 < s.eng.store.markSince + 1024) ∧
    (∃ (s : State) (port : Port) (seg : Fin 256), s.accepts port (R.SEG_LOCKCTL seg) 1 = true) ∧
    (∃ (s : State) (port : Port) (seg : Fin 256), s.accepts port (R.SEG_LOCKCTL seg) 2 = true) ∧
    (∃ (s : State) (port : Port) (seg : Fin 256), s.accepts port (R.SEG_LOCKCTL seg) 4 = true) :=
  ⟨⟨(mk [fun m => { m with store.boundary := some ({ phys := 3145696, tb := 16 * 3149792, segact := true, next := false, post := false } : Boundary) },
      fun m => { m with store.active := true }, fun m => m.setFlag (R.SEG_CFG_LINK_EN m.curSeg) true, fun m => m.setFld (R.SEG_CFG_NEXT m.curSeg) 255]),
      ({ phys := 3145696, tb := 16 * 3149792, segact := true, next := false, post := false }), 255, 0, 0, by decide +kernel⟩,
    ⟨(mk [fun m => { m with store.boundary := some ({ phys := 3145696, tb := 16 * 3149792, segact := true, next := false, post := false } : Boundary) },
      fun m => { m with store.active := true }]), ({ phys := 3145696, tb := 16 * 3149792, segact := true, next := false, post := false }), 1, 0, by decide +kernel⟩,
    ⟨(mk [fun m => { m with store.boundary := some ({ phys := 3145696, tb := 16 * 3149792, segact := false, next := false, post := true } : Boundary) },
      fun m => { m with store.active := true }, fun m => m.setFlag (R.SEG_CFG_LINK_EN m.curSeg) true, fun m => m.setFld (R.SEG_CFG_NEXT m.curSeg) 255]),
      ({ phys := 3145696, tb := 16 * 3149792, segact := false, next := false, post := true }), 255, 0, 0, by decide +kernel⟩,
    ⟨(mk [fun m => { m with store.boundary := none }]), by decide +kernel⟩,
    ⟨(mk [fun m => { m with store.gapUntil := some (0 : Nat) }]), 0, by decide +kernel⟩,
    ⟨(mk [fun m => m.setSto (47 : Fin 48) { m.sto (47 : Fin 48) with fullDue := true }]), 47, by decide +kernel⟩,
    ⟨(mk [fun m => { m with store.marks := [{ type := 1, intake := 0, tb := 16 }], store.markSince := 0, store.gated := 1023 },
      fun m => m.setFld (R.SEG_MARK_MKPACKS m.curSeg) 1]), by decide +kernel⟩,
    ⟨ready, by decide +kernel⟩,
    ⟨ready, .host, 255, by decide +kernel⟩,
    ⟨ready, .host, 255, by decide +kernel⟩,
    ⟨ready, .host, 255, by decide +kernel⟩⟩

/-- The premises of every clause of WeirAndPacks can be met. -/
theorem witness_WeirAndPacks :
    (∃ (s : State) (n : Fin 48), s.eng.live = true ∧ n.val < s.eng.store.intakes.length ∧ s.eng.flag R.SYS_STATUS_ARMED = true ∧ s.eng.weirOn n = true ∧
      96 < (s.eng.sto n).fifo.length ∧ s.eng.weirSteps n < 8 ∧ (s.eng.sto n).lastDown.all (fun c => decide (c + 64 ≤ s.eng.cc)) = true) ∧
    (∃ (s : State) (n : Fin 48), s.eng.live = true ∧ ((s.eng.sto n).fifo.length ≤ 96 ∨ 8 ≤ s.eng.weirSteps n)) ∧
    (∃ (s : State) (n : Fin 48), s.eng.live = true ∧ n.val < s.eng.store.intakes.length ∧ s.eng.flag R.SYS_STATUS_ARMED = true ∧ s.eng.weirOn n = true ∧
      0 < s.eng.weirSteps n ∧ s.eng.weirHold ≤ (s.eng.sto n).lowCount) ∧
    (∃ (s : State) (n : Fin 48) (p : OpenPack), s.eng.live = true ∧ n.val < s.eng.store.intakes.length ∧ 128 ≤ (s.eng.sto n).fifo.length ∧ (s.eng.sto n).pack = some p ∧
      packCapacity p.type ≤ p.items.length ∧ (s.eng.sto n).lost = none ∧ (s.eng.sto n).lostEnd = none) ∧
    (∃ (s : State) (n : Fin 48) (t0 t1 : Tb) (k seq : Nat), s.eng.live = true ∧ n.val < s.eng.store.intakes.length ∧ (s.eng.sto n).lost = some (t0, k) ∧
      (s.eng.sto n).lostEnd = some (t1, seq)) ∧
    (∃ (s : State) (src : Fin 48) (k : Pack) (rest : List Pack) (p : Nat) (paid : StoreState), s.eng.live = true ∧ src.val < s.eng.store.intakes.length ∧
      (s.eng.sto src).fifo = k :: rest ∧ p = s.eng.pcOf (256 * k.slot) ∧ p < s.eng.cis.pcs.length ∧ s.eng.payPack src = some paid ∧ s.eng.packTaken k = true ∧ s.eng.pcSt p = 1) ∧
    (∃ (s : State) (src : Fin 48) (k : Pack) (rest : List Pack), s.eng.live = true ∧ (s.eng.sto src).fifo = k :: rest ∧
      (s.eng.payPack src = none ∨ s.eng.pcSt (s.eng.pcOf (256 * k.slot)) = 2)) ∧
    (∃ (s : State) (src : Fin 48) (k : Pack) (rest : List Pack) (paid : StoreState), s.eng.live = true ∧ src.val < s.eng.store.intakes.length ∧
      (s.eng.sto src).fifo = k :: rest ∧ s.eng.payPack src = some paid ∧ s.eng.cisServes = true ∧ s.eng.pcSt (s.eng.pcOf (256 * k.slot)) = 3 ∧ (s.eng.sto src).lost = none) ∧
    (∃ (s : State) (k : Pack) (j : Nat) (rest : List (Pack × Nat)) (p : Nat), s.eng.live = true ∧ s.eng.store.markPacks = (k, j) :: rest ∧ p = s.eng.pcOf (256 * k.slot) ∧
      p < s.eng.cis.pcs.length ∧ s.eng.packTaken k = true ∧ s.eng.pcSt p = 1) ∧
    (∃ (s : State) (pc : Fin 64) (w : CisWrite) (rest : List CisWrite), s.eng.running = true ∧ pc.val < s.eng.cis.pcs.length ∧ (s.eng.pc pc).flight = w :: rest ∧
      (s.eng.pc pc).rung = 0 ∧ w.last + 16 ≤ (s.eng.pc pc).count) ∧
    (∃ (s : State) (pc : Fin 64) (w : CisWrite) (rest : List CisWrite), (s.eng.pc pc).flight = w :: rest ∧ (s.eng.pc pc).count < w.last + 16) :=
  ⟨⟨(mk [fun m => m.setFlag R.SYS_STATUS_ARMED true, fun m => m.setSto (47 : Fin 48) { m.sto (47 : Fin 48) with fifo := List.replicate 97 ⟨0, []⟩ }]), 47, by decide +kernel⟩,
    ⟨ready, 47, by decide +kernel⟩,
    ⟨(mk [fun m => m.setFlag R.SYS_STATUS_ARMED true, fun m => m.setSteps (47 : Fin 48) 1, fun m => m.setReg R.WEIR_HOLD 16,
      fun m => m.setSto (47 : Fin 48) { m.sto (47 : Fin 48) with lowCount := 1 }]), 47, by decide +kernel⟩,
    ⟨(mk [fun m => m.setSto (47 : Fin 48) { m.sto (47 : Fin 48) with pack := some ({ type := 0, rate := 0, tb := 16, last := 32, since := 0, items := List.replicate 40 1 } : OpenPack) },
      fun m => m.setSto (47 : Fin 48) { m.sto (47 : Fin 48) with lost := none },
      fun m => m.setSto (47 : Fin 48) { m.sto (47 : Fin 48) with fifo := List.replicate 128 ⟨0, []⟩, pack := some ({ type := 0, rate := 0, tb := 16, last := 32, since := 0, items := List.replicate 40 1 } : OpenPack) }]),
      47, ({ type := 0, rate := 0, tb := 16, last := 32, since := 0, items := List.replicate 40 1 }), by decide +kernel⟩,
    ⟨(mk [fun m => m.setSto (47 : Fin 48) { m.sto (47 : Fin 48) with lost := some ((0 : Tb), (0 : Nat)) },
      fun m => m.setSto (47 : Fin 48) { m.sto (47 : Fin 48) with lostEnd := some ((0 : Tb), (0 : Nat)) }]), 47, 0, 0, 0, 0, by decide +kernel⟩,
    ⟨(fifoPack []), 47, ⟨0, List.replicate 256 1⟩, [], 0, (((fifoPack []).eng.payPack 47).getD startEng.store), by decide +kernel⟩,
    ⟨(fifoPack [fun m => m.setStore { m.store with credits := [] }]), 47, ⟨0, List.replicate 256 1⟩, [], by decide +kernel⟩,
    ⟨(fifoPack [fun m => m.setFld (R.CISP_PC_STATE_STATE 0 0) 3]), 47, ⟨0, List.replicate 256 1⟩, [],
      (((fifoPack [fun m => m.setFld (R.CISP_PC_STATE_STATE 0 0) 3]).eng.payPack 47).getD startEng.store), by decide +kernel⟩,
    ⟨(mk [fun m => { m with store.markPacks := ((⟨0, List.replicate 256 1⟩ : Pack), (0 : Nat)) :: ([] : List (Pack × Nat)) }]), (⟨0, List.replicate 256 1⟩), 0, ([]), 0,
      by decide +kernel⟩,
    ⟨(mk [fun m => { m with running := true },
      fun m => m.setPc (63 : Fin 64) { m.pc (63 : Fin 64) with flight := ({ addr := 5, bytes := [1, 0, 3], src := 0 } : CisWrite) :: ([] : List CisWrite) },
      fun m => m.setPc (63 : Fin 64) { m.pc (63 : Fin 64) with rung := 0 }, fun m => m.setPc (63 : Fin 64) { m.pc (63 : Fin 64) with count := 16 }]), 63,
      ({ addr := 5, bytes := [1, 0, 3], src := 0 }), ([]), by decide +kernel⟩,
    ⟨(mk [fun m => m.setPc 63 { m.pc 63 with flight := [{ addr := 5, bytes := [1, 0, 3], src := 0 }] }]), 63, { addr := 5, bytes := [1, 0, 3], src := 0 }, [],
      by decide +kernel⟩⟩

/-- The premises of every clause of LinkTraining can be met. -/
theorem witness_LinkTraining :
    (∃ (s : State) (side peer : Side), s.eng.mgt.powered = true ∧ s.eng.running = true ∧ s.eng.flag (R.FLU_CTL_EN side.code) = true ∧
      s.eng.fld (R.FLU_STATUS_STATE side.code) ≠ 2 ∧ s.eng.fld (R.FLU_STATUS_STATE side.code) ≠ 3 ∧ side ≠ peer) ∧
    (∃ (s : State) (side : Side), s.eng.mgt.powered = true ∧ s.eng.running = true ∧ s.eng.flag (R.FLU_CTL_EN side.code) = true ∧
      s.eng.fld (R.FLU_STATUS_STATE side.code) ≠ 2 ∧ s.eng.fld (R.FLU_STATUS_STATE side.code) ≠ 3) ∧
    (∃ (s : State) (side : Side), s.eng.mgt.powered = true ∧
      (s.eng.running = false ∨ s.eng.flag (R.FLU_CTL_EN side.code) = false ∨ s.eng.fld (R.FLU_STATUS_STATE side.code) = 2 ∨ s.eng.fld (R.FLU_STATUS_STATE side.code) = 3)) ∧
    (∃ (s : State) (side : Side), s.eng.mgt.powered = true ∧ s.eng.sideUp side = true) ∧
    (∃ (s : State) (side : Side), s.eng.mgt.powered = true ∧ (s.eng.fld (R.FLU_STATUS_STATE side.code) = 1 ∨ s.eng.fld (R.FLU_STATUS_STATE side.code) = 3)) ∧
    (∃ (s : State) (side : Side), s.eng.mgt.powered = true ∧ s.eng.fld (R.FLU_STATUS_STATE side.code) = 0) ∧
    (∃ (s : State) (side : Side), s.eng.mgt.powered = true ∧ s.eng.running = true ∧ s.eng.flag (R.FLU_CTL_EN side.code) = true ∧ s.eng.fld (R.FLU_STATUS_STATE side.code) = 0) ∧
    (∃ (s : State) (side : Side), s.eng.mgt.powered = true ∧
      (s.eng.running = false ∨ s.eng.flag (R.FLU_CTL_EN side.code) = false ∨ s.eng.fld (R.FLU_STATUS_STATE side.code) ≠ 0)) ∧
    (∃ (s : State) (side : Side), s.eng.mgt.powered = true ∧ s.eng.sideUp side = true ∧ (s.eng.link side).crcAt.length < 15) ∧
    (∃ (s : State) (side : Side), s.eng.mgt.powered = true ∧ s.eng.sideUp side = true ∧ 15 ≤ (s.eng.link side).crcAt.length ∧
      nth (s.eng.link side).crcAt 14 0 + 1024 ≤ s.eng.cc) ∧
    (∃ (s : State) (side : Side), s.eng.mgt.powered = true ∧ s.eng.sideUp side = true ∧ 15 ≤ (s.eng.link side).crcAt.length ∧
      s.eng.cc < nth (s.eng.link side).crcAt 14 0 + 1024) ∧
    (∃ (s : State) (side : Side), s.eng.mgt.powered = true ∧ s.eng.sideUp side = false) :=
  ⟨⟨(mk [fun m => { m with mgt.powered := true }, fun m => { m with running := true }, fun m => m.setFlag (R.FLU_CTL_EN (.fa : Side).code) true,
      fun m => m.setFld R.RING_STATUS_ROLE 1, fun m => m.setFld (R.FLU_STATUS_STATE 1) 2]), .fa, .fb, by decide +kernel⟩,
    ⟨(mk [fun m => { m with mgt.powered := true }, fun m => { m with running := true }, fun m => m.setFlag (R.FLU_CTL_EN (.fa : Side).code) true,
      fun m => m.setFld R.RING_STATUS_ROLE 1, fun m => m.setFld (R.FLU_STATUS_STATE 1) 2]), .fa, by decide +kernel⟩,
    ⟨(mk [fun m => { m with mgt.powered := true, running := false }]), .fa, by decide +kernel⟩,
    ⟨(mk [fun m => { m with mgt.powered := true }, fun m => m.setFld (R.FLU_STATUS_STATE (Side.code (.fa : Side))) 2, fun m => m.setFld R.RING_STATUS_ROLE 1,
      fun m => m.setFld (R.FLU_STATUS_STATE 1) 2, fun m => { m with ring.unacked := [⟨⟨0, 3, .crd 0 0⟩, 0, .fa, 0, 0⟩, ⟨⟨0, 3, .crd 1 0⟩, 1, .fb, 7, 0⟩] }]), .fa,
      by decide +kernel⟩,
    ⟨(mk [fun m => m.setFld R.RING_STATUS_ROLE 1, fun m => m.setFld (R.FLU_STATUS_STATE 1) 2, fun m => m.setFld (R.FLU_STATUS_STATE 0) 1]), .fa, by decide +kernel⟩,
    ⟨(mk [fun m => { m with mgt.powered := true }, fun m => m.setFld (R.FLU_STATUS_STATE (.fa : Side).code) 0]), .fa, by decide +kernel⟩,
    ⟨(mk [fun m => { m with mgt.powered := true }, fun m => { m with running := true }, fun m => m.setFlag (R.FLU_CTL_EN (.fa : Side).code) true,
      fun m => m.setFld (R.FLU_STATUS_STATE (.fa : Side).code) 0, fun m => m.setFld R.RING_STATUS_ROLE 1, fun m => m.setFld (R.FLU_STATUS_STATE 1) 2]), .fa, by decide +kernel⟩,
    ⟨(mk [fun m => { m with mgt.powered := true, running := false }]), .fb, by decide +kernel⟩,
    ⟨(mk [fun m => { m with mgt.powered := true }, fun m => m.setFld (R.FLU_STATUS_STATE (Side.code (.fa : Side))) 2]), .fa, by decide +kernel⟩,
    ⟨(mk [fun m => m.setFld (R.FLU_STATUS_STATE 0) 2, fun m => m.setLink .fa { m.link .fa with crcAt := List.replicate 15 (m.cc - 1024) }]), .fa, by decide +kernel⟩,
    ⟨(mk [fun m => m.setFld (R.FLU_STATUS_STATE 0) 2, fun m => m.setLink .fa { m.link .fa with crcAt := List.replicate 15 (m.cc - 1023) }]), .fa, by decide +kernel⟩,
    ⟨ready, .fa, by decide +kernel⟩⟩

/-- The premises of every clause of Discovery can be met. -/
theorem witness_Discovery :
    (∃ (s : State), s.eng.running = true) ∧
    (∃ (s : State) (side : Side) (id : BitVec 64), s.eng.running = true ∧ s.eng.sideUp side = true ∧ id.toNat ≠ s.eng.moduleId) ∧
    (∃ (s : State), s.eng.running = true ∧ s.eng.role = 0 ∧ s.eng.ring.positioned = false ∧ s.eng.rankBase + 600000 ≤ s.eng.cc ∧ s.eng.ring.heard = []) ∧
    (∃ (s : State), s.eng.running = true ∧ s.eng.role = 0 ∧ s.eng.ring.positioned = false ∧ s.eng.rankBase + 600000 ≤ s.eng.cc ∧ s.eng.ring.heard ≠ [] ∧ s.eng.headPref ≠ 2 ∧
      (∀ h ∈ s.eng.ring.heard, h.pref ≠ 2 ∧ ranksBefore s.eng.selfHeard h = true)) ∧
    (∃ (s : State) (h : Heard), s.eng.running = true ∧ s.eng.role = 0 ∧ s.eng.ring.positioned = false ∧ s.eng.rankBase + 600000 ≤ s.eng.cc ∧ h ∈ s.eng.ring.heard ∧
      h.pref ≠ 2 ∧ h ≠ s.eng.selfHeard ∧ (ranksBefore s.eng.selfHeard h = false ∨ s.eng.headPref = 2)) ∧
    (∃ (s : State), s.eng.running = true ∧ (s.eng.role ≠ 0 ∨ s.eng.ring.positioned = true ∨ s.eng.cc < s.eng.rankBase + 600000)) ∧
    (∃ (s : State) (side : Side) (pos : Fin 8) (up : Bool), s.eng.running = true ∧ s.eng.sideUp side = true ∧ side = (if up then .fb else .fa) ∧ s.eng.role = 0 ∧
      s.eng.ring.positioned = false ∧ pos ≠ 0 ∧ s.eng.ring.heldPos.contains pos.val = false) ∧
    (∃ (s : State) (side : Side) (pos : Fin 8) (up : Bool), s.eng.running = true ∧ s.eng.sideUp side = true ∧ side = (if up then .fb else .fa) ∧ s.eng.role = 0 ∧
      s.eng.ring.positioned = false ∧ (pos = 0 ∨ s.eng.ring.heldPos.contains pos.val = true)) ∧
    (∃ (s : State), s.eng.running = true ∧ s.eng.sideUp .fa = true ∧ s.eng.role = 1) ∧
    (∃ (s : State) (side : Side) (up : Bool), s.eng.running = true ∧ (s.eng.sideUp side = false ∨ side ≠ (if up then .fb else .fa) ∨ (s.eng.role = 1 ∧
      up = true) ∨ (s.eng.role ≠ 1 ∧ (s.eng.role ≠ 0 ∨ s.eng.ring.positioned = true)))) ∧
    (∃ (s : State) (t0 : Nat), s.eng.running = true ∧ s.eng.ring.assignAt = some t0 ∧ s.eng.role = 1 ∧ s.eng.flag R.RING_STATUS_CLOSED = false ∧ s.eng.ring.assignUp = false ∧
      t0 + 600000 ≤ s.eng.cc) ∧
    (∃ (s : State) (side : Side) (pos : Fin 8), s.eng.running = true ∧ s.eng.sideUp side = true ∧ (s.eng.role = 0 ∨ pos.val ≠ s.eng.pos)) ∧
    (∃ (s : State) (side : Side) (pos : Fin 8), s.eng.running = true ∧ s.eng.sideUp side = true ∧ s.eng.role ≠ 0 ∧ pos.val = s.eng.pos) ∧
    (∃ (s : State) (port : Port) (v : Word), s.accepts port R.RING_CTL (v ||| 0x10) = true ∧ s.eng.armed = false ∧ s.eng.fld R.RING_MEMBERS_ARMED = 0) ∧
    (∃ (s : State) (port : Port) (v : Word) (q : Nat), s.accepts port R.RING_CTL (v ||| 0x10) = true ∧
      (List.range 8).find? (fun q => bitAt (s.eng.fld R.RING_MEMBERS_ARMED ||| (if s.eng.armed then 2 ^ s.eng.pos else 0)) q) = some q) :=
  ⟨⟨(mk [fun m => m.setFld (R.FLU_STATUS_STATE 0) 2, fun m => m.setFld (R.FLU_STATUS_STATE 1) 2]), by decide +kernel⟩,
    ⟨(mk [fun m => m.setFld (R.FLU_STATUS_STATE 0) 2, fun m => m.setFld (R.FLU_STATUS_STATE 1) 2]), .fa, 77, by decide +kernel⟩,
    ⟨(mk [fun m => m.setFld (R.FLU_STATUS_STATE 0) 2]), by decide +kernel⟩,
    ⟨(mk [fun m => m.setFld (R.FLU_STATUS_STATE 1) 2, fun m => { m with ring.heard := [⟨2 ^ 63, 0, false, 0, 0, 0⟩], ring.hostUp := true }]), by decide +kernel⟩,
    ⟨(mk [fun m => { m with ring.heard := [⟨1, 0, true, 2 ^ 32, 0, 3⟩] }]), ⟨1, 0, true, 2 ^ 32, 0, 3⟩, by decide +kernel⟩,
    ⟨(mk [fun m => m.setFld R.RING_STATUS_ROLE 2]), by decide +kernel⟩,
    ⟨(mk [fun m => m.setFld (R.FLU_STATUS_STATE 0) 2, fun m => m.setFld (R.FLU_STATUS_STATE 1) 2]), .fa, 7, false, by decide +kernel⟩,
    ⟨(mk [fun m => m.setFld (R.FLU_STATUS_STATE 0) 2]), .fa, 0, false, by decide +kernel⟩,
    ⟨(mk [fun m => m.setFld (R.FLU_STATUS_STATE 0) 2, fun m => m.setFld R.RING_STATUS_ROLE 1]), by decide +kernel⟩,
    ⟨(mk [fun m => m.setFld (R.FLU_STATUS_STATE 0) 2, fun m => m.setFld R.RING_STATUS_ROLE 2]), .fa, false, by decide +kernel⟩,
    ⟨(mk [fun m => { m with running := true }, fun m => { m with ring.assignAt := some (0 : Nat) }, fun m => m.setFld R.RING_STATUS_ROLE 1,
      fun m => m.setFlag R.RING_STATUS_CLOSED false, fun m => { m with ring.assignUp := false }, fun m => m.setFld (R.FLU_STATUS_STATE 0) 2]), 0, by decide +kernel⟩,
    ⟨(mk [fun m => m.setFld (R.FLU_STATUS_STATE 0) 2, fun m => m.setFld (R.FLU_STATUS_STATE 1) 2, fun m => m.setFld R.RING_STATUS_ROLE 1,
      fun m => { m with ring.assignAt := some (m.cc - 600000) }]), .fa, 7, by decide +kernel⟩,
    ⟨(mk [fun m => m.setFld (R.FLU_STATUS_STATE 0) 2, fun m => m.setFld R.RING_STATUS_ROLE 2, fun m => m.setFld R.RING_STATUS_POS 7]), .fa, 7, by decide +kernel⟩,
    ⟨(mk [fun m => m.setFld (R.FLU_STATUS_STATE 0) 2, fun m => m.setFld (R.FLU_STATUS_STATE 1) 2, fun m => m.setFld R.RING_STATUS_ROLE 1,
      fun m => (((m.setFld R.RING_MEMBERS_PRESENT 9).setFld R.RING_STATUS_RINGSIZE 2).setFld R.RING_MEMBERS_REACH 9)]), .host, 0, by decide +kernel⟩,
    ⟨(mk [fun m => m.setFld R.RING_MEMBERS_ARMED 0x80]), .host, 0, 7, by decide +kernel⟩⟩

/-- The premises of every clause of Alignment can be met. -/
theorem witness_Alignment :
    (∃ (s : State), s.eng.running = true) ∧
    (∃ (s : State), s.eng.running = true) ∧
    (∃ (s : State) (side : Side) (t1 t2 t3 : BitVec 64) (at_ : Fin 1024) (fs : List Int) (mean : Nat), s.eng.running = true ∧ s.eng.sideUp side = true ∧
      fs = ((stampDiff (s.eng.stamp at_) t1.toNat - stampDiff t3.toNat t2.toNat) / 2 :: (s.eng.link side).flights).take 16 ∧
      mean = (fs.foldl (· + ·) 0 / (fs.length : Int)).toNat) ∧
    (∃ (s : State) (side : Side), s.eng.running = true ∧ s.eng.sideUp side = false) ∧
    (∃ (s : State), s.eng.running = true ∧ s.eng.role = 1) ∧
    (∃ (s : State), s.eng.running = true ∧ s.eng.role ≠ 1) ∧
    (∃ (s : State) (side : Side) (tbh : BitVec 64) (corr : BitVec 24) (at_ : Fin 1024) (e ticks : Int), s.eng.running = true ∧ s.eng.sideUp side = true ∧ s.eng.role = 2 ∧
      (s.eng.ring.syncAt = none ∨ s.eng.ring.syncAt.any (fun t => decide (2 ^ 15 ≤ (stampDiff tbh.toNat t).natAbs)) = true) ∧
      e = stampDiff (s.eng.stamp at_) ((tbh.toNat * 64 + corr.toNat + s.eng.fld (R.FLU_FLIGHT_FLIGHT side.code)) % 2 ^ 64) ∧ ticks = (if s.eng.armed = false ∧
      128 < e.natAbs then (e + 32) / 64 else 0)) ∧
    (∃ (s : State) (side : Side) (tbh : BitVec 64) (corr : BitVec 24) (present : BitVec 8) (at_ : Fin 1024) (e : Int), s.eng.running = true ∧ s.eng.sideUp side = true ∧
      s.eng.role = 2 ∧ s.eng.ring.syncAt = none ∧ present.toNat = s.eng.fld R.RING_MEMBERS_PRESENT ∧ s.eng.armed = true ∧ s.eng.ring.alignBad = false ∧
      e = stampDiff (s.eng.stamp at_) ((tbh.toNat * 64 + corr.toNat + s.eng.fld (R.FLU_FLIGHT_FLIGHT side.code)) % 2 ^ 64) ∧
      (256 < e.natAbs ∨ (s.eng.ring.phase - e.sign).natAbs = 128)) ∧
    (∃ (s : State) (side : Side) (tbh : BitVec 64) (corr : BitVec 24) (present : BitVec 8) (at_ : Fin 1024) (e : Int), s.eng.running = true ∧ s.eng.sideUp side = true ∧
      s.eng.role = 2 ∧ s.eng.ring.syncAt = none ∧ present.toNat = s.eng.fld R.RING_MEMBERS_PRESENT ∧ s.eng.armed = false ∧ s.eng.ring.lockCount = 15 ∧
      s.eng.fld R.RING_STATUS_STATE ≠ 4 ∧ e = stampDiff (s.eng.stamp at_) ((tbh.toNat * 64 + corr.toNat + s.eng.fld (R.FLU_FLIGHT_FLIGHT side.code)) % 2 ^ 64) ∧ e.natAbs ≤ 32) ∧
    (∃ (s : State) (side : Side) (tbh : BitVec 64) (t0 : Nat), s.eng.running = true ∧ s.eng.sideUp side = true ∧ s.eng.role = 2 ∧ s.eng.ring.syncAt = some t0 ∧
      (stampDiff tbh.toNat t0).natAbs < 2 ^ 15) ∧
    (∃ (s : State) (side : Side), s.eng.running = true ∧ (s.eng.sideUp side = false ∨ s.eng.role ≠ 2)) :=
  ⟨⟨(mk [fun m => m.setFld (R.FLU_STATUS_STATE 0) 2, fun m => m.setFld (R.FLU_STATUS_STATE 1) 2]), by decide +kernel⟩,
    ⟨(mk [fun m => m.setFld (R.FLU_STATUS_STATE 0) 2]), by decide +kernel⟩,
    ⟨(mk [fun m => m.setFld (R.FLU_STATUS_STATE 0) 2]), .fa, (16 * 3149825 * 64 + 1023 - 43008), 0, 0, 1023, [21504], 21504, by decide +kernel⟩,
    ⟨(mk [fun m => m.setFld (R.FLU_STATUS_STATE 1) 2]), .fa, by decide +kernel⟩,
    ⟨(mk [fun m => { m with running := true }, fun m => m.setFld R.RING_STATUS_ROLE 1]), by decide +kernel⟩,
    ⟨(mk [fun m => { m with running := true }]), by decide +kernel⟩,
    ⟨(mk [fun m => m.setFld (R.FLU_STATUS_STATE 0) 2, fun m => m.setFld (R.FLU_STATUS_STATE 1) 2, fun m => m.setFld R.RING_STATUS_ROLE 2,
      fun m => m.setFld R.RING_STATUS_RINGSIZE 4]), .fa, (16 * 3149825), 0, 1023, 1023, 16, by decide +kernel⟩,
    ⟨(mk [fun m => m.setFld (R.FLU_STATUS_STATE 0) 2, fun m => m.setFld R.RING_STATUS_ROLE 2, fun m => m.setFlag R.SYS_STATUS_ARMED true,
      fun m => { m with ring.phase := -127 }]), .fa, (16 * 3149825), 0, 0, 3, 3, by decide +kernel⟩,
    ⟨(mk [fun m => m.setFld (R.FLU_STATUS_STATE 0) 2, fun m => m.setFld R.RING_STATUS_ROLE 2, fun m => { m with ring.lockCount := 15 }]), .fa, (16 * 3149825), 0, 0, 32, 32,
      by decide +kernel⟩,
    ⟨(mk [fun m => m.setFld (R.FLU_STATUS_STATE 0) 2, fun m => m.setFld (R.FLU_STATUS_STATE 1) 2, fun m => m.setFld R.RING_STATUS_ROLE 2,
      fun m => m.setFld R.RING_STATUS_RINGSIZE 4, fun m => { m with ring.syncAt := some (16 * 3149825) }]), .fa, (16 * 3149825), (16 * 3149825), by decide +kernel⟩,
    ⟨(mk [fun m => m.setFld (R.FLU_STATUS_STATE 0) 2, fun m => m.setFld R.RING_STATUS_ROLE 1]), .fa, by decide +kernel⟩⟩

/-- The premises of every clause of Records can be met. -/
theorem witness_Records :
    (∃ (s : State) (side : Side) (r : EvRec), s.eng.running = true ∧ s.eng.sideUp side = true ∧ r.origin.val ≠ s.eng.pos ∧ s.eng.flag R.RING_STATUS_MODE = false) ∧
    (∃ (s : State) (side : Side) (r : EvRec), s.eng.running = true ∧ (s.eng.sideUp side = false ∨ r.origin.val = s.eng.pos)) ∧
    (∃ (s : State) (side : Side) (r : EvRec) (n : Nat), s.eng.running = true ∧ s.eng.sideUp side = true ∧ r.origin.val ≠ s.eng.pos ∧ s.eng.flag R.RING_STATUS_MODE = true ∧
      n = s.eng.cc - (s.eng.cycle + 256 - r.cyc.val) % 256 ∧ s.eng.ring.evSeen.contains (r.origin.val, n) = false ∧ s.eng.cc < n + 218) ∧
    (∃ (s : State) (side : Side) (r : EvRec) (n : Nat), s.eng.running = true ∧ s.eng.sideUp side = true ∧ r.origin.val ≠ s.eng.pos ∧ s.eng.flag R.RING_STATUS_MODE = true ∧
      n = s.eng.cc - (s.eng.cycle + 256 - r.cyc.val) % 256 ∧ s.eng.ring.evSeen.contains (r.origin.val, n) = false ∧ n + 218 ≤ s.eng.cc) ∧
    (∃ (s : State) (a b d : Nat), s.eng.running = true ∧ s.eng.fld (R.FLU_STATUS_STATE 0) ≠ 0 ∧ s.eng.fld (R.FLU_STATUS_STATE 1) ≠ 0 ∧ (s.eng.link .fa).failAt = some a ∧
      (s.eng.link .fb).failAt = some b ∧ d = (if a ≤ b then b - a else a - b) ∧ d < 98 ∧ 1 < s.eng.ringSize) ∧
    (∃ (s : State) (side : Side) (tb : BitVec 64) (origin : Fin 8), s.eng.running = true ∧ s.eng.sideUp side = true ∧ (s.eng.ring.settleSeen.contains (tb.toNat,
      origin.val) = true ∨ origin.val = s.eng.pos ∨ s.eng.flag R.RING_CTL_SETTLE_FOLLOW = false)) ∧
    (∃ (s : State) (side : Side) (tb : BitVec 64) (origin : Fin 8), s.eng.running = true ∧ s.eng.sideUp side = true ∧ s.eng.ring.settleSeen.contains (tb.toNat,
      origin.val) = false ∧ origin.val ≠ s.eng.pos ∧ s.eng.flag R.RING_CTL_SETTLE_FOLLOW = true ∧ s.eng.flag R.RING_STATUS_MODE = false ∧ s.eng.dammed = false ∧
      s.eng.lost = false) ∧
    (∃ (s : State) (side : Side) (tb : BitVec 64) (origin : Fin 8), s.eng.running = true ∧ s.eng.sideUp side = true ∧ s.eng.ring.settleSeen.contains (tb.toNat,
      origin.val) = false ∧ origin.val ≠ s.eng.pos ∧ s.eng.flag R.RING_CTL_SETTLE_FOLLOW = true ∧ s.eng.flag R.RING_STATUS_MODE = true ∧ s.eng.cycle < tb.toNat / 16 + 231) ∧
    (∃ (s : State) (side : Side), s.eng.running = true ∧ s.eng.sideUp side = false) ∧
    (∃ (s : State) (side : Side) (origin : Fin 8) (td : Tb), s.eng.mgt.powered = true ∧ s.eng.sideUp side = true ∧ origin.val ≠ s.eng.pos ∧ s.eng.dam.td = some td) ∧
    (∃ (s : State) (side : Side) (origin : Fin 8), s.eng.mgt.powered = true ∧ s.eng.sideUp side = true ∧ origin.val ≠ s.eng.pos ∧ s.eng.dam.td = none) ∧
    (∃ (s : State) (side : Side) (origin : Fin 8), s.eng.mgt.powered = true ∧ s.eng.sideUp side = true ∧ origin.val ≠ s.eng.pos ∧ s.eng.dammed = true) ∧
    (∃ (s : State) (side : Side) (origin : Fin 8), s.eng.mgt.powered = true ∧ s.eng.sideUp side = true ∧ origin.val ≠ s.eng.pos ∧ s.eng.dammed = false) :=
  ⟨⟨(mk [fun m => m.setFld (R.FLU_STATUS_STATE 0) 2, fun m => m.setFld (R.FLU_STATUS_STATE 1) 2, fun m => m.setFld R.RING_STATUS_RINGSIZE 8]), .fa, (⟨7, 15, 15, 255, 5⟩),
      by decide +kernel⟩,
    ⟨(mk [fun m => { m with running := true }, fun m => m.setFld (R.FLU_STATUS_STATE (Side.code (.fa : Side))) 2, fun m => m.setFld R.RING_STATUS_POS (⟨7, 15, 15, 255,
      7⟩ : EvRec).origin.val]), .fa, (⟨7, 15, 15, 255, 7⟩), by decide +kernel⟩,
    ⟨(mk [fun m => m.setFld (R.FLU_STATUS_STATE 0) 2, fun m => m.setFlag R.RING_STATUS_MODE true]), .fa, (⟨7, 15, 15, 39, 5⟩), 3145511, by decide +kernel⟩,
    ⟨(mk [fun m => { m with running := true }, fun m => m.setFld (R.FLU_STATUS_STATE (Side.code (.fa : Side))) 2, fun m => m.setFlag R.RING_STATUS_MODE true]), .fa, (⟨7, 15,
      15, 38, 7⟩), 3145510, by decide +kernel⟩,
    ⟨(mk [fun m => { m with running := true }, fun m => m.setFld (R.FLU_STATUS_STATE 0) 1, fun m => m.setFld (R.FLU_STATUS_STATE 1) 1,
      fun m => m.setLink .fa { m.link .fa with failAt := some (0 : Nat) }, fun m => m.setLink .fb { m.link .fb with failAt := some (97 : Nat) },
      fun m => m.setFld R.RING_STATUS_RINGSIZE 2]), 0, 97, 97, by decide +kernel⟩,
    ⟨(mk [fun m => m.setFld (R.FLU_STATUS_STATE 0) 2, fun m => m.setFld (R.FLU_STATUS_STATE 1) 2, fun m => m.setFld R.RING_STATUS_RINGSIZE 8]), .fa, 0, 7, by decide +kernel⟩,
    ⟨(mk [fun m => { m with running := true }, fun m => m.setFld (R.FLU_STATUS_STATE (Side.code (.fa : Side))) 2, fun m => m.setFlag R.RING_CTL_SETTLE_FOLLOW true,
      fun m => m.setFlag R.RING_STATUS_MODE false, fun m => m.setFlag R.DAM_STATUS_DAMMED false, fun m => { m with lost := false }, fun m => m.setFld (R.FLU_STATUS_STATE 1) 2,
      fun m => m.setFld R.RING_STATUS_RINGSIZE 8]), .fa, 0, 7, by decide +kernel⟩,
    ⟨(mk [fun m => m.setFld (R.FLU_STATUS_STATE 0) 2, fun m => m.setFld (R.FLU_STATUS_STATE 1) 2, fun m => m.setFld R.RING_STATUS_RINGSIZE 8,
      fun m => m.setFlag R.RING_STATUS_MODE true, fun m => m.setFlag R.RING_CTL_SETTLE_FOLLOW true]), .fa, (16 * 3149594), 7, by decide +kernel⟩,
    ⟨ready, .fa, by decide +kernel⟩,
    ⟨(mk [fun m => { m with mgt.powered := true }, fun m => m.setFld (R.FLU_STATUS_STATE (Side.code (.fa : Side))) 2, fun m => { m with dam.td := some (0 : Tb) },
      fun m => m.setFld (R.FLU_STATUS_STATE 1) 2, fun m => m.setFld R.RING_STATUS_RINGSIZE 8]), .fa, 7, 0, by decide +kernel⟩,
    ⟨(mk [fun m => m.setFld (R.FLU_STATUS_STATE 0) 2, fun m => m.setFld (R.FLU_STATUS_STATE 1) 2, fun m => m.setFld R.RING_STATUS_RINGSIZE 8]), .fa, 7, by decide +kernel⟩,
    ⟨(mk [fun m => { m with mgt.powered := true }, fun m => m.setFld (R.FLU_STATUS_STATE (Side.code (.fa : Side))) 2, fun m => m.setFlag R.DAM_STATUS_DAMMED true,
      fun m => m.setFld (R.FLU_STATUS_STATE 1) 2, fun m => m.setFld R.RING_STATUS_RINGSIZE 8]), .fa, 7, by decide +kernel⟩,
    ⟨(mk [fun m => m.setFld (R.FLU_STATUS_STATE 0) 2, fun m => m.setFld (R.FLU_STATUS_STATE 1) 2, fun m => m.setFld R.RING_STATUS_RINGSIZE 8]), .fa, 7, by decide +kernel⟩⟩

/-- The premises of every clause of ControlTraffic can be met. -/
theorem witness_ControlTraffic :
    (∃ (s : State) (port : Port) (v : Word), s.accepts port R.RING_CWR_CTL (v ||| 1) = true ∧ s.eng.flag R.RING_CWR_CTL_BUSY = false ∧
      (bitAt (s.eng.fld R.RING_MEMBERS_REACH) (bitsOf v.toNat 2 3) = false ∨ bitsOf v.toNat 2 3 = s.eng.pos)) ∧
    (∃ (s : State) (port : Port) (v : Word), s.accepts port R.RING_CWR_CTL (v ||| 1) = true ∧ s.eng.flag R.RING_CWR_CTL_BUSY = false ∧
      bitAt (s.eng.fld R.RING_MEMBERS_REACH) (bitsOf v.toNat 2 3) = true ∧ bitsOf v.toNat 2 3 ≠ s.eng.pos) ∧
    (∃ (s : State) (port : Port) (v : Word), s.accepts port R.RING_CWR_CTL (v ||| 1) = true ∧ s.eng.flag R.RING_CWR_CTL_BUSY = true) ∧
    (∃ (s : State) (side : Side) (src dst : Fin 8) (seq : BitVec 16) (off : BitVec 20) (data : Word), s.accepts (linkPort side) off.toNat data = true ∧
      s.eng.sideUp side = true ∧ dst.val = s.eng.pos ∧ src.val < s.eng.ring.peers.length ∧ seq.toNat = (s.eng.peer src).rxSeq ∧ (s.eng.peer src).waiting = [] ∧
      s.eng.ring.unacked.countP (fun u => u.flit.dst == src.val) < 512) ∧
    (∃ (s : State) (side : Side) (src dst : Fin 8) (seq : BitVec 16) (off : BitVec 20) (h : RegHit), s.eng.mgt.powered = true ∧ s.eng.dammed = false ∧
      decodeReg off.toNat = some h ∧ isDirWord off.toNat = false ∧ off.toNat % 4 = 0 ∧ s.eng.absentCisp off.toNat = false ∧
      classAllows (if h.off = 0x0C then 1 else h.blk.cls) (linkPort side) = false ∧ s.eng.sideUp side = true ∧ dst.val = s.eng.pos ∧ src.val < s.eng.ring.peers.length ∧
      seq.toNat = (s.eng.peer src).rxSeq ∧ (s.eng.peer src).waiting = [] ∧ s.eng.ring.unacked.countP (fun u => u.flit.dst == src.val) < 512) ∧
    (∃ (s : State) (side : Side) (src dst : Fin 8) (seq : BitVec 16), s.eng.reachable = true ∧ s.eng.sideUp side = true ∧ dst.val = s.eng.pos ∧
      src.val < s.eng.ring.peers.length ∧ seq.toNat = (s.eng.peer src).rxSeq ∧ (s.eng.peer src).waiting = [] ∧ s.eng.ring.unacked.countP (fun u => u.flit.dst == src.val) < 512) ∧
    (∃ (s : State) (side : Side) (dst : Fin 8), s.eng.mgt.powered = true ∧ s.eng.sideUp side = true ∧ dst.val ≠ s.eng.pos) ∧
    (∃ (s : State) (side : Side) (src dst : Fin 8) (seq : BitVec 16), s.eng.mgt.powered = true ∧ s.eng.sideUp side = true ∧ dst.val = s.eng.pos ∧
      seq.toNat ≠ (s.eng.peer src).rxSeq) ∧
    (∃ (s : State) (side : Side) (src dst : Fin 8) (seq req : BitVec 16) (read : Bool) (t0 : Nat), s.eng.running = true ∧ s.eng.sideUp side = true ∧ dst.val = s.eng.pos ∧
      seq.toNat = (s.eng.peer src).rxSeq ∧ s.eng.ring.cwr = some (src.val, req.toNat, read, t0)) ∧
    (∃ (s : State) (tg q t0 : Nat) (read : Bool), s.eng.running = true ∧ s.eng.ring.cwr = some (tg, q, read, t0) ∧ t0 + 2 ^ 14 ≤ s.eng.cc) ∧
    (∃ (s : State), s.eng.running = true ∧ s.eng.ring.cwr.all (fun x => decide (s.eng.cc < x.2.2.2 + 2 ^ 14)) = true) :=
  ⟨⟨(mk [fun m => m.setFlag R.RING_CWR_CTL_BUSY false]), .host, 0, by decide +kernel⟩,
    ⟨(mk [fun m => m.setFlag R.RING_CWR_CTL_BUSY false, fun m => m.setFld R.RING_MEMBERS_REACH 128]), .host, 0x1C, by decide +kernel⟩,
    ⟨(mk [fun m => m.setFlag R.RING_CWR_CTL_BUSY true]), .host, 0x1E, by decide +kernel⟩,
    ⟨(mk [fun m => m.setFld (R.FLU_STATUS_STATE 0) 2, fun m => m.setFld R.RING_STATUS_POS 7, fun m => m.setFld R.RING_STATUS_ROLE 2]), .fa, 7, 7, 0,
      (BitVec.ofNat 20 R.TB_LOADVAL_LO), 5, by decide +kernel⟩,
    ⟨(mk [fun m => m.setFld (R.FLU_STATUS_STATE 0) 2, fun m => m.setFld R.RING_STATUS_POS 7, fun m => m.setFld R.RING_STATUS_ROLE 2,
      fun m => { m with ring.heard := [⟨9, 0, false, 0, 0, 7⟩] }]), .fa, 7, 7, 0, (BitVec.ofNat 20 R.SAFE_CTL), (hit R.SAFE_CTL), by decide +kernel⟩,
    ⟨(mk [fun m => m.setFld (R.FLU_STATUS_STATE 0) 2, fun m => m.setFld R.RING_STATUS_POS 7, fun m => m.setFld R.RING_STATUS_ROLE 2]), .fa, 7, 7, 0, by decide +kernel⟩,
    ⟨(mk [fun m => m.setFld (R.FLU_STATUS_STATE 0) 2, fun m => m.setFld (R.FLU_STATUS_STATE 1) 2, fun m => m.setFld R.RING_STATUS_ROLE 2]), .fa, 3, by decide +kernel⟩,
    ⟨(mk [fun m => m.setFld (R.FLU_STATUS_STATE 0) 2, fun m => m.setFld (R.FLU_STATUS_STATE 1) 2, fun m => m.setFld R.RING_STATUS_ROLE 2]), .fa, 7, 0, 5, by decide +kernel⟩,
    ⟨(mk [fun m => { m with running := true }, fun m => m.setFld (R.FLU_STATUS_STATE (Side.code (.fa : Side))) 2, fun m => m.setFld R.RING_STATUS_POS (7 : Fin 8).val,
      fun m => { m with ring.cwr := some ((7 : Fin 8).val, (0 : BitVec 16).toNat, (true : Bool), (0 : Nat)) }]), .fa, 7, 7, 0, 0, true, 0, by decide +kernel⟩,
    ⟨(mk [fun m => { m with running := true }, fun m => { m with ring.cwr := some ((0 : Nat), (0 : Nat), (true : Bool), (0 : Nat)) }]), 0, 0, 0, true, by decide +kernel⟩,
    ⟨(mk [fun m => { m with running := true }, fun m => { m with ring.cwr := none }]), by decide +kernel⟩⟩

/-- The premises of every clause of SequencedTraffic can be met. -/
theorem witness_SequencedTraffic :
    (∃ (s : State) (side : Side) (src dst : Fin 8) (seq : BitVec 16), s.eng.mgt.powered = true ∧ s.eng.sideUp side = true ∧ dst.val = s.eng.pos ∧
      seq.toNat = (s.eng.peer src).rxSeq ∧ (src ≠ 0 ∨ s.eng.toFlume = false)) ∧
    (∃ (s : State) (side : Side) (dst : Fin 8) (seq : BitVec 16) (off : BitVec 20) (data : Word), s.accepts .host off.toNat data = true ∧ s.eng.sideUp side = true ∧
      dst.val = s.eng.pos ∧ seq.toNat = (s.eng.peer 0).rxSeq ∧ s.eng.toFlume = true) ∧
    (∃ (s : State) (side : Side) (dst : Fin 8) (seq : BitVec 16) (off : BitVec 20) (h : RegHit), s.eng.reachable = true ∧ s.eng.badParity = [] ∧
      decodeReg off.toNat = some h ∧ isDirWord off.toNat = false ∧ s.eng.absentCisp off.toNat = false ∧ s.eng.sideUp side = true ∧ dst.val = s.eng.pos ∧
      seq.toNat = (s.eng.peer 0).rxSeq ∧ s.eng.toFlume = true ∧ s.eng.ring.peers.length = 8 ∧ (s.eng.peer 0).waiting = [] ∧
      s.eng.ring.unacked.countP (fun u => u.flit.dst == 0) < 511) ∧
    (∃ (s : State) (side : Side) (dst : Fin 8) (seq : BitVec 16) (off : BitVec 32), s.eng.reachable = true ∧ s.eng.sideUp side = true ∧ dst.val = s.eng.pos ∧
      seq.toNat = (s.eng.peer 0).rxSeq ∧ s.eng.toFlume = true ∧ s.eng.host.perst = false ∧ s.eng.tlpHere.memRefusal 2 true off.toNat true = none) ∧
    (∃ (s : State) (side : Side) (dst : Fin 8) (seq : BitVec 16) (off : BitVec 32) (len : Nat), s.eng.reachable = true ∧ s.eng.sideUp side = true ∧ dst.val = s.eng.pos ∧
      seq.toNat = (s.eng.peer 0).rxSeq ∧ s.eng.toFlume = true ∧ s.eng.winClosed = false ∧ s.eng.winRefusal off.toNat len false = none ∧ 0 < len ∧ len ≤ 32 ∧
      off.toNat % 32 = 0 ∧ s.eng.pcSt (s.eng.pcOf (s.eng.winBase (bitsOf off.toNat 28 4) + off.toNat % 2 ^ 28)) ≠ 3) ∧
    (∃ (s : State) (side : Side) (src dst : Fin 8) (seq : BitVec 16), s.eng.running = true ∧ s.eng.sideUp side = true ∧ dst.val = s.eng.pos ∧
      seq.toNat = (s.eng.peer src).rxSeq ∧ s.eng.funnelHead = true ∧ s.eng.presented src = true ∧ s.eng.lostFn src = false ∧ s.eng.bme src = true ∧ s.eng.d3hot src = false ∧
      s.eng.host.ready = true ∧ s.eng.host.perst = false ∧ s.eng.host.hold = false) ∧
    (∃ (s : State) (side : Side) (src dst : Fin 8), s.eng.running = true ∧ s.eng.sideUp side = true ∧ dst.val = s.eng.pos ∧
      (s.eng.funnelHead = false ∨ s.eng.lostFn src = true ∨ s.eng.bme src = false ∨ s.eng.host.hold = true)) ∧
    (∃ (s : State) (side : Side) (src dst : Fin 8) (seq : BitVec 16), s.eng.running = true ∧ s.eng.sideUp side = true ∧ dst.val = s.eng.pos ∧
      seq.toNat = (s.eng.peer src).rxSeq ∧ s.eng.funnelHead = true ∧ s.eng.lostFn src = false) ∧
    (∃ (s : State) (side : Side) (src dst : Fin 8), s.eng.mgt.powered = true ∧ s.eng.sideUp side = true ∧ dst.val = s.eng.pos ∧ (s.eng.peer src).waiting = []) ∧
    (∃ (s : State) (side x : Side) (src dst : Fin 8), s.eng.mgt.powered = true ∧ s.eng.sideUp side = true ∧ dst.val = s.eng.pos ∧ (s.eng.peer src).waiting = [] ∧
      (s.eng.route src).1 = some x ∧ s.eng.sideUp x = true) ∧
    (∃ (s : State) (x : Side) (dst : Fin 8), s.eng.running = true ∧ s.eng.ring.unacked.any (fun u => u.flit.dst == dst.val && decide (u.since + 2 ^ 11 ≤ s.eng.cc)) = true ∧
      (s.eng.route dst).1 = some x ∧ s.eng.sideUp x = true) ∧
    (∃ (s : State) (dst : Fin 8), s.eng.running = true ∧ s.eng.ring.unacked.any (fun u => u.flit.dst == dst.val && decide (u.since + 2 ^ 11 ≤ s.eng.cc)) = false) ∧
    (∃ (s : State) (src : Fin 8), s.eng.running = true ∧ src.val < s.eng.ring.peers.length ∧ 0 < (s.eng.peer src).rxOpen ∧ (s.eng.peer src).rxSince + 256 ≤ s.eng.cc ∧
      s.eng.sideUp .fa = true ∧ s.eng.sideUp .fb = true) ∧
    (∃ (s : State) (src : Fin 8), s.eng.running = true ∧ ((s.eng.peer src).rxOpen = 0 ∨ s.eng.cc < (s.eng.peer src).rxSince + 256)) :=
  ⟨⟨(mk [fun m => { m with mgt.powered := true }, fun m => m.setFld (R.FLU_STATUS_STATE (Side.code (.fa : Side))) 2, fun m => m.setFld R.RING_STATUS_POS (7 : Fin 8).val]),
      .fa, 7, 7, 0, by decide +kernel⟩,
    ⟨(mk [fun m => m.setFld (R.FLU_STATUS_STATE 0) 2, fun m => m.setFld R.RING_STATUS_POS 7, fun m => m.setFld R.RING_STATUS_ROLE 2,
      fun m => m.setFlag R.RING_STATUS_FUNNEL true]), .fa, 7, 0, (BitVec.ofNat 20 R.TB_LOADVAL_LO), 0, by decide +kernel⟩,
    ⟨(mk [fun m => m.setFld (R.FLU_STATUS_STATE 0) 2, fun m => m.setFld R.RING_STATUS_POS 7, fun m => m.setFld R.RING_STATUS_ROLE 2,
      fun m => m.setFlag R.RING_STATUS_FUNNEL true]), .fa, 7, 0, (BitVec.ofNat 20 R.TB_LOADVAL_LO), (hit R.TB_LOADVAL_LO), by decide +kernel⟩,
    ⟨(mk [fun m => m.setFld (R.FLU_STATUS_STATE 0) 2, fun m => m.setFld R.RING_STATUS_POS 7, fun m => m.setFld R.RING_STATUS_ROLE 2,
      fun m => m.setFlag R.RING_STATUS_FUNNEL true, fun m => ((m.setFlag (R.WIN_CFG_EN 0) true).setFlag (R.WIN_CFG_WRITE 0) true).setFld (R.WIN_SIZE_PAGES 0) 1]), .fa, 7, 0,
      64, by decide +kernel⟩,
    ⟨(mk [fun m => m.setFld (R.FLU_STATUS_STATE 0) 2, fun m => m.setFld R.RING_STATUS_POS 7, fun m => m.setFld R.RING_STATUS_ROLE 2,
      fun m => m.setFlag R.RING_STATUS_FUNNEL true, fun m => ((m.setFlag (R.WIN_CFG_EN 0) true).setFlag (R.WIN_CFG_WRITE 0) true).setFld (R.WIN_SIZE_PAGES 0) 1]), .fa, 7, 0,
      64, 32, by decide +kernel⟩,
    ⟨(mk [fun m => { m with running := true }, fun m => m.setFld (R.FLU_STATUS_STATE (Side.code (.fa : Side))) 2, fun m => m.setFld R.RING_STATUS_POS (7 : Fin 8).val,
      fun m => (m.setFld R.RING_STATUS_ROLE 1).setFlag R.RING_STATUS_FUNNEL true, fun m => { m with host.ready := true }, fun m => { m with host.perst := false },
      fun m => { m with host.hold := false }, fun m => m.setFld R.RING_MEMBERS_FUNNEL_MAP 128, fun m => m.setCfg (7 : Fin 8) 4 6]), .fa, 7, 7, 0, by decide +kernel⟩,
    ⟨(mk [fun m => m.setFld (R.FLU_STATUS_STATE 0) 2, fun m => m.setFld R.RING_STATUS_POS 7]), .fa, 7, 7, by decide +kernel⟩,
    ⟨(mk [fun m => { m with running := true }, fun m => m.setFld (R.FLU_STATUS_STATE (Side.code (.fa : Side))) 2, fun m => m.setFld R.RING_STATUS_POS (7 : Fin 8).val,
      fun m => (m.setFld R.RING_STATUS_ROLE 1).setFlag R.RING_STATUS_FUNNEL true]), .fa, 7, 7, 0, by decide +kernel⟩,
    ⟨(mk [fun m => m.setFld (R.FLU_STATUS_STATE 0) 2, fun m => { m with ring.unacked := [⟨⟨0, 3, .crd 0 0⟩, 0, .fa, 0, 0⟩, ⟨⟨0, 3, .crd 1 0⟩, 1, .fb, 7, 0⟩] }]), .fa, 3, 0,
      by decide +kernel⟩,
    ⟨(mk [fun m => m.setFld (R.FLU_STATUS_STATE 0) 2, fun m => m.setFld (R.FLU_STATUS_STATE 1) 2, fun m => m.setFld R.RING_STATUS_ROLE 1,
      fun m => (((m.setFld R.RING_MEMBERS_PRESENT 9).setFld R.RING_STATUS_RINGSIZE 2).setFld R.RING_MEMBERS_REACH 9),
      fun m => { m with ring.unacked := [⟨⟨0, 3, .crd 0 0⟩, 0, .fa, 0, 0⟩, ⟨⟨0, 3, .crd 1 0⟩, 1, .fb, 7, 0⟩] }]), .fa, .fb, 3, 0, by decide +kernel⟩,
    ⟨(mk [fun m => m.setFld (R.FLU_STATUS_STATE 0) 2, fun m => m.setFld (R.FLU_STATUS_STATE 1) 2, fun m => m.setFld R.RING_STATUS_ROLE 1,
      fun m => (((m.setFld R.RING_MEMBERS_PRESENT 9).setFld R.RING_STATUS_RINGSIZE 2).setFld R.RING_MEMBERS_REACH 9),
      fun m => { m with ring.unacked := [⟨⟨0, 3, .crd 0 0⟩, 0, .fa, 0, 0⟩, ⟨⟨0, 3, .crd 1 0⟩, 1, .fb, 7, 0⟩] }]), .fb, 3, by decide +kernel⟩,
    ⟨(mk [fun m => { m with running := true }]), 7, by decide +kernel⟩,
    ⟨(mk [fun m => { m with running := true }, fun m => m.setFld (R.FLU_STATUS_STATE (Side.code .fa)) 2, fun m => m.setFld (R.FLU_STATUS_STATE (Side.code .fb)) 2,
      fun m => m.setPeer (7 : Fin 8) { m.peer (7 : Fin 8) with rxOpen := 1 }]), 7, by decide +kernel⟩,
    ⟨(mk [fun m => { m with running := true }]), 7, by decide +kernel⟩⟩

/-- The premises of every clause of ModesAndTributaries can be met. -/
theorem witness_ModesAndTributaries :
    (∃ (s : State) (port : Port) (v : Word), s.accepts port R.RING_CTL v = true ∧ bitAt v.toNat 4 = false ∧
      bitAt v.toNat 0 = (s.eng.ring.modeAt.map (fun x => x.2)).getD (s.eng.flag R.RING_STATUS_MODE)) ∧
    (∃ (s : State) (port : Port) (v : Word), s.accepts port R.RING_CTL v = true ∧ bitAt v.toNat 4 = false ∧
      bitAt v.toNat 0 ≠ (s.eng.ring.modeAt.map (fun x => x.2)).getD (s.eng.flag R.RING_STATUS_MODE) ∧ s.eng.role ≠ 1) ∧
    (∃ (s : State) (port : Port) (v : Word) (q : Nat), s.accepts port R.RING_CTL v = true ∧ bitAt v.toNat 4 = false ∧
      bitAt v.toNat 0 ≠ (s.eng.ring.modeAt.map (fun x => x.2)).getD (s.eng.flag R.RING_STATUS_MODE) ∧ s.eng.role = 1 ∧
      s.eng.present.find? (fun q => bitAt (s.eng.fld R.RING_MEMBERS_ARMED ||| (if s.eng.armed then 2 ^ s.eng.pos else 0)) q) = some q) ∧
    (∃ (s : State) (port : Port) (v : Word), s.accepts port R.RING_CTL v = true ∧ bitAt v.toNat 4 = false ∧
      bitAt v.toNat 0 ≠ (s.eng.ring.modeAt.map (fun x => x.2)).getD (s.eng.flag R.RING_STATUS_MODE) ∧ s.eng.role = 1 ∧ s.eng.armed = false ∧
      s.eng.fld R.RING_MEMBERS_ARMED = 0 ∧ (bitAt v.toNat 0 = false ∨ s.eng.fld R.RING_MEMBERS_PRESENT = 1)) ∧
    (∃ (s : State) (side : Side) (tb : BitVec 64) (mode : Bool), s.eng.running = true ∧ s.eng.sideUp side = true ∧ s.eng.role = 2 ∧ s.eng.ring.modeSeen.contains (tb.toNat,
      mode) = false ∧ s.eng.nextCycle ≤ tb.toNat / 16) ∧
    (∃ (s : State) (side : Side) (tb : BitVec 64) (mode : Bool), s.eng.running = true ∧ s.eng.sideUp side = true ∧ s.eng.role = 2 ∧ s.eng.ring.modeSeen.contains (tb.toNat,
      mode) = false ∧ tb.toNat / 16 < s.eng.nextCycle) ∧
    (∃ (s : State) (side : Side) (tb : BitVec 64) (mode : Bool), s.eng.running = true ∧ (s.eng.sideUp side = false ∨ s.eng.role ≠ 2 ∨ s.eng.ring.modeSeen.contains (tb.toNat,
      mode) = true)) ∧
    (∃ (s : State) (tb : Nat) (mode : Bool), s.eng.running = true ∧ s.eng.ring.modeAt = some (tb, mode) ∧ tb / 16 ≤ s.eng.nextCycle) ∧
    (∃ (s : State), s.eng.running = true ∧ s.eng.ring.modeAt.all (fun x => decide (s.eng.nextCycle < x.1 / 16)) = true) ∧
    (∃ (s : State) (f : Fin 8), s.eng.running = true ∧ f ≠ 0 ∧ s.eng.funnelHead = true ∧ s.eng.presented f = true ∧ s.eng.lostFn f = false ∧
      (bitAt (s.eng.fld R.RING_MEMBERS_REACH) f = false ∨ s.eng.ring.unacked.any (fun u => u.flit.dst == f.val && decide (u.born + 600000 ≤ s.eng.cc)) = true)) ∧
    (∃ (s : State) (f : Fin 8), s.eng.running = true ∧
      (f = 0 ∨ s.eng.funnelHead = false ∨ s.eng.presented f = false ∨ s.eng.lostFn f = true ∨ (bitAt (s.eng.fld R.RING_MEMBERS_REACH) f = true ∧
      s.eng.ring.unacked.all (fun u => u.flit.dst != f.val || decide (s.eng.cc < u.born + 600000)) = true))) ∧
    (∃ (s : State) (port : Port) (v : Word), s.accepts port R.HOST_TRIBCTL v = true) :=
  ⟨⟨(mk [fun m => m.setFld (R.FLU_STATUS_STATE 0) 2, fun m => { m with ring.modeAt := some (5, true) }]), .host, 1, by decide +kernel⟩,
    ⟨ready, .host, 1, by decide +kernel⟩,
    ⟨(mk [fun m => m.setFld (R.FLU_STATUS_STATE 0) 2, fun m => m.setFld R.RING_STATUS_ROLE 1,
      fun m => (m.setFld R.RING_MEMBERS_PRESENT 0x81).setFld R.RING_MEMBERS_ARMED 0x80]), .host, 1, 7, by decide +kernel⟩,
    ⟨(mk [fun m => m.setFld (R.FLU_STATUS_STATE 0) 2, fun m => m.setFld (R.FLU_STATUS_STATE 1) 2, fun m => m.setFld R.RING_STATUS_ROLE 1,
      fun m => m.setFld R.RING_MEMBERS_PRESENT 1]), .host, 1, by decide +kernel⟩,
    ⟨(mk [fun m => m.setFld (R.FLU_STATUS_STATE 0) 2, fun m => m.setFld (R.FLU_STATUS_STATE 1) 2, fun m => m.setFld R.RING_STATUS_ROLE 2]), .fa, (16 * 3149825), true,
      by decide +kernel⟩,
    ⟨(mk [fun m => m.setFld (R.FLU_STATUS_STATE 0) 2, fun m => m.setFld (R.FLU_STATUS_STATE 1) 2, fun m => m.setFld R.RING_STATUS_ROLE 2]), .fa, (16 * 3149825 - 1), true,
      by decide +kernel⟩,
    ⟨(mk [fun m => m.setFld (R.FLU_STATUS_STATE 0) 2, fun m => m.setFld R.RING_STATUS_ROLE 1]), .fa, 0, true, by decide +kernel⟩,
    ⟨(mk [fun m => { m with running := true }, fun m => { m with ring.modeAt := some ((0 : Nat), (true : Bool)) }]), 0, true, by decide +kernel⟩,
    ⟨(mk [fun m => { m with ring.modeAt := some (16 * 3149826, true) }]), by decide +kernel⟩,
    ⟨(mk [fun m => { m with running := true }, fun m => (m.setFld R.RING_STATUS_ROLE 1).setFlag R.RING_STATUS_FUNNEL true, fun m => m.setFld R.RING_MEMBERS_FUNNEL_MAP 128]),
      7, by decide +kernel⟩,
    ⟨ready, 0, by decide +kernel⟩,
    ⟨(mk [fun m => m.orReg R.HOST_TRIB_LOST 192, fun m => m.setFld R.RING_MEMBERS_REACH 128]), .host, 192, by decide +kernel⟩⟩

/-- The premises of every clause of DamBegins can be met. -/
theorem witness_DamBegins :
    (∃ (s : State) (port : Port), s.accepts port R.DAM_CTL (s.eng.reg R.DAM_CTL ||| 1) = true ∧ s.eng.running = true ∧ s.eng.damUnderWay = false) ∧
    (∃ (s : State) (port : Port), s.accepts port R.DAM_CTL (s.eng.reg R.DAM_CTL ||| 1) = true ∧ (s.eng.running = false ∨ s.eng.damUnderWay = true)) ∧
    (∃ (s : State) (u : Tb), u = tbOfCycle s.eng.nextCycle ∧ u.toNat % 96 = 0 ∧ s.eng.running = true ∧ s.eng.dam.stopped = false ∧ s.eng.dammed = false ∧
      s.eng.dam.td = none ∧ s.eng.dam.driveAt = none ∧ s.eng.dam.driving = false ∧ s.eng.cisReady = true ∧ s.eng.flag R.DAM_CTL_PIN_EN = true ∧
      s.eng.flag R.DAM_STATUS_REARMED = true) ∧
    (∃ (s : State), s.eng.dam.driveAt = none ∧ s.eng.dam.driving = false ∧ (s.eng.flag R.DAM_CTL_PIN_EN = false ∨ s.eng.flag R.DAM_STATUS_REARMED = false)) ∧
    (∃ (s : State), (s.eng.running = false ∨ s.eng.dam.stopped = true ∨ (s.eng.dam.driveAt = none ∧ (tbOfCycle s.eng.nextCycle).toNat % 96 ≠ 0))) ∧
    (∃ (s : State) (u : Tb), s.eng.running = true ∧ s.eng.dam.stopped = false ∧ s.eng.dam.td = some u ∧ cycleOf (u + 1024) ≤ s.eng.nextCycle) ∧
    (∃ (s : State), (s.eng.running = false ∨ s.eng.dam.stopped = true ∨ s.eng.dam.td.all (fun u => decide (s.eng.nextCycle < cycleOf (u + 1024))) = true)) ∧
    (∃ (s : State), s.eng.dam.stopped = true ∧ s.eng.dammed = false) ∧
    (∃ (s : State), s.eng.dam.stopped = true ∧ s.eng.dammed = false ∧ (∀ p : Fin 64, (s.eng.pc p).wq = [] ∧ (s.eng.pc p).rq = [] ∧ (s.eng.pc p).flight = []) ∧
      s.eng.cis.waitW = [] ∧ s.eng.cis.waitR = []) ∧
    (∃ (s : State), (s.eng.dam.stopped = false ∨ s.eng.dammed = true)) :=
  ⟨⟨(mk [fun m => { m with running := true }]), .host, by decide +kernel⟩,
    ⟨(mk [fun m => { m with dam.td := some 5 }]), .host, by decide +kernel⟩,
    ⟨(mk [fun m => { m with running := true }, fun m => { m with dam.stopped := false }, fun m => m.setFlag R.DAM_STATUS_DAMMED false, fun m => { m with dam.td := none },
      fun m => { m with dam.driveAt := none }, fun m => { m with dam.driving := false }, fun m => m.setFlag R.DAM_CTL_PIN_EN true, fun m => m.setFlag R.DAM_STATUS_REARMED true,
      fun m => { m with tb := 16 * 3149831 }, fun m => m.setFld (R.FLU_STATUS_STATE 0) 2, fun m => m.setFld R.RING_STATUS_ROLE 1]), (16 * 3149832), by decide +kernel⟩,
    ⟨(mk [fun m => m.setFlag R.DAM_CTL_PIN_EN false]), by decide +kernel⟩,
    ⟨ready, by decide +kernel⟩,
    ⟨(mk [fun m => { m with dam.td := some (m.tb - 1008) }, fun m => m.setFlag R.SAFE_CTL_DAM_SAFE true, fun m => m.setFld (R.DRAIN_DSTAT_STATE 3) 1]), (16 * (3149824 - 63)),
      by decide +kernel⟩,
    ⟨(mk [fun m => { m with dam.td := some (m.tb - 992) }]), by decide +kernel⟩,
    ⟨(mk [fun m => { m with dam.stopped := true }, fun m => m.setFlag R.DAM_STATUS_DAMMED false,
      fun m => m.setPc 63 { m.pc 63 with wq := [{ addr := 0x7E0, bytes := [1, 2, 3], src := 49 }] }]), by decide +kernel⟩,
    ⟨(mk [fun m => { m with dam.stopped := true }, fun m => m.setFlag R.DAM_STATUS_DAMMED false]), by decide +kernel⟩,
    ⟨(mk [fun m => { m with dam.stopped := false }]), by decide +kernel⟩⟩

/-- The premises of every clause of DamEnds can be met. -/
theorem witness_DamEnds :
    (∃ (s : State) (port : Port), s.eng.reachable = true ∧ s.eng.dammed = true ∧ (port = .host ∨ port = .mgmt)) ∧
    (∃ (s : State) (port : Port), s.accepts port R.DAM_CTL (s.eng.reg R.DAM_CTL ||| 2) = true ∧ bitAt (s.eng.reg R.DAM_CTL).toNat 0 = false) ∧
    (∃ (s : State), s.eng.mgt.powered = true ∧ s.eng.dammed = true) ∧
    (∃ (s : State), s.eng.mgt.powered = true ∧ s.eng.dammed = false) ∧
    (∃ (s : State), s.eng.dam.driving = false ∧ s.eng.dammed = false) ∧
    (∃ (s : State), (s.eng.dam.driving = true ∨ s.eng.dammed = true)) ∧
    (∃ (s : State) (w : Word), s.eng.reachable = true ∧ s.eng.badParity = [] ∧ s.eng.dammed = true ∧ s.chip.imageWord ((s.eng.reg R.DAM_IMG_ADDR).toNat / 4 * 4) = some w) ∧
    (∃ (s : State), s.eng.reachable = true ∧ s.eng.badParity = [] ∧ (s.eng.dammed = false ∨ s.chip.imageWord ((s.eng.reg R.DAM_IMG_ADDR).toNat / 4 * 4) = none)) ∧
    (∃ (s : State) (dr : BitVec 34), s.eng.mgt.powered = true ∧ dr.getLsbD 32 = false) ∧
    (∃ (s : State) (dr : BitVec 34) (w : Word), s.eng.mgt.powered = true ∧ dr.getLsbD 32 = true ∧ s.eng.dammed = true ∧ s.chip.imageWord (dr.toNat % 2 ^ 32 / 4 * 4) = some w) ∧
    (∃ (s : State) (dr : BitVec 34), s.eng.mgt.powered = true ∧ dr.getLsbD 32 = true ∧ (s.eng.dammed = false ∨ s.chip.imageWord (dr.toNat % 2 ^ 32 / 4 * 4) = none)) :=
  ⟨⟨(mk [fun m => m.setFld (R.FLU_STATUS_STATE 1) 2, fun m => m.setFld R.RING_STATUS_ROLE 2, fun m => (m.setFlag R.DAM_STATUS_DAMMED true).setFld R.CIS_STATUS_STATE 4,
      fun m => m.setFlag R.SYS_STATUS_ARMED true]), .mgmt, by decide +kernel⟩,
    ⟨ready, .host, by decide +kernel⟩,
    ⟨(mk [fun m => { m with mgt.powered := true }, fun m => m.setFlag R.DAM_STATUS_DAMMED true]), by decide +kernel⟩,
    ⟨(mk [fun m => { m with mgt.powered := true }, fun m => m.setFlag R.DAM_STATUS_DAMMED false]), by decide +kernel⟩,
    ⟨(mk [fun m => { m with dam.extLow := true }]), by decide +kernel⟩,
    ⟨(mk [fun m => { m with dam.driving := true }]), by decide +kernel⟩,
    ⟨(mk [fun m => { m with badParity := [] }, fun m => m.setFlag R.DAM_STATUS_DAMMED true, fun m => m.setReg R.DAM_IMG_ADDR 0x01000000]), 0, by decide +kernel⟩,
    ⟨(mk [fun m => { m with badParity := [] }, fun m => m.setFlag R.DAM_STATUS_DAMMED false]), by decide +kernel⟩,
    ⟨(mk [fun m => { m with mgt.powered := true }]), 0, by decide +kernel⟩,
    ⟨(mk [fun m => { m with mgt.powered := true }, fun m => m.setFlag R.DAM_STATUS_DAMMED true]), 0x101000000, 0, by decide +kernel⟩,
    ⟨(mk [fun m => { m with mgt.powered := true }, fun m => m.setFlag R.DAM_STATUS_DAMMED false]), 0x101000000, by decide +kernel⟩⟩

/-- The premises of every clause of Settling can be met. -/
theorem witness_Settling :
    (∃ (s : State) (c : Cause), s.eng.mgt.powered = true ∧ s.eng.causes = [c] ∧ s.eng.dammed = false ∧ s.eng.lost = false ∧ s.eng.settled = false ∧ 1 ≤ c.code ∧ c.code ≤ 9) ∧
    (∃ (s : State) (c : Cause), s.eng.mgt.powered = true ∧ s.eng.causes = [c] ∧ s.eng.dammed = false ∧ s.eng.lost = false ∧ s.eng.settled = true ∧ 1 ≤ c.code) ∧
    (∃ (s : State), s.eng.mgt.powered = true ∧ s.eng.causes = []) ∧
    (∃ (s : State), s.eng.mgt.powered = true ∧ (s.eng.dammed = true ∨ s.eng.lost = true)) ∧
    (∃ (s : State) (port : Port), s.accepts port R.SAFE_CTL (s.eng.reg R.SAFE_CTL ||| 2) = true ∧ s.eng.lost = false) ∧
    (∃ (s : State) (port : Port), s.accepts port R.SAFE_CTL (s.eng.reg R.SAFE_CTL ||| 1) = true ∧ bitAt (s.eng.reg R.SAFE_CTL).toNat 1 = false ∧ s.eng.settled = true ∧
      s.eng.anyActive = false ∧ s.eng.causes = [] ∧ s.eng.lost = false) ∧
    (∃ (s : State) (port : Port), s.accepts port R.SAFE_CTL (s.eng.reg R.SAFE_CTL ||| 1) = true ∧ bitAt (s.eng.reg R.SAFE_CTL).toNat 1 = false ∧ s.eng.settled = true ∧
      (s.eng.anyActive = true ∨ s.eng.causes ≠ [] ∨ s.eng.lost = true)) ∧
    (∃ (s : State) (port : Port), s.accepts port R.SAFE_CTL (s.eng.reg R.SAFE_CTL ||| 1) = true ∧ bitAt (s.eng.reg R.SAFE_CTL).toNat 1 = false ∧ s.eng.settled = false) :=
  ⟨⟨(mk [fun m => m.setFld (R.FLU_STATUS_STATE 1) 2, fun m => m.setFld R.RING_STATUS_ROLE 2, fun m => { m with causes := [⟨9, 5, 7⟩] },
      fun m => m.setFlag R.SYS_STATUS_ARMED true]), ⟨9, 5, 7⟩, by decide +kernel⟩,
    ⟨(mk [fun m => { m with causes := [⟨9, 5, 7⟩] }, fun m => m.setFlag R.SAFE_STATUS_SETTLED true]), ⟨9, 5, 7⟩, by decide +kernel⟩,
    ⟨(mk [fun m => { m with mgt.powered := true }, fun m => { m with causes := [] }]), by decide +kernel⟩,
    ⟨(mk [fun m => { m with causes := [⟨9, 5, 7⟩] }, fun m => m.setFlag R.DAM_STATUS_DAMMED true]), by decide +kernel⟩,
    ⟨(mk [fun m => { m with lost := false }]), .mgmt, by decide +kernel⟩,
    ⟨(mk [fun m => m.setFlag R.SAFE_STATUS_SETTLED true, fun m => { m with causes := [] }, fun m => { m with lost := false }]), .mgmt, by decide +kernel⟩,
    ⟨(mk [fun m => m.setFlag R.SAFE_STATUS_SETTLED true, fun m => { m with lost := true }]), .mgmt, by decide +kernel⟩,
    ⟨ready, .mgmt, by decide +kernel⟩⟩

/-- The premises of every clause of EventLog can be met. -/
theorem witness_EventLog :
    (∃ (s : State) (e : LogEntry) (rest : List LogEntry) (n : Nat), s.eng.running = true ∧ s.eng.detected = e :: rest ∧ s.eng.lostSince = 0 ∧ s.eng.owner 63 = 5 ∧
      n = s.eng.fld R.EVT_STG_TAIL_INDEX ∧ (s.eng.staged < 16320 ∨ (s.eng.staged < 16384 ∧ 0x300 ≤ e.code ∧ e.code < 0x500))) ∧
    (∃ (s : State) (e : LogEntry) (rest : List LogEntry), s.eng.running = true ∧ s.eng.detected = e :: rest ∧
      (s.eng.owner 63 ≠ 5 ∨ 16384 ≤ s.eng.staged ∨ (16320 ≤ s.eng.staged ∧ (e.code < 0x300 ∨ 0x500 ≤ e.code)))) ∧
    (∃ (s : State), s.eng.running = true ∧ s.eng.detected = []) ∧
    (∃ (s : State) (n : Nat), s.eng.running = true ∧ s.eng.lostSince ≠ 0 ∧ s.eng.owner 63 = 5 ∧ s.eng.staged < 16320 ∧ n = s.eng.fld R.EVT_STG_TAIL_INDEX) ∧
    (∃ (s : State), s.eng.running = true ∧ (s.eng.lostSince = 0 ∨ s.eng.owner 63 ≠ 5 ∨ 16320 ≤ s.eng.staged)) ∧
    (∃ (s : State) (a lo hi n : Nat), s.eng.mgt.powered = true ∧ s.eng.flag R.EVT_CTL_EN = true ∧ s.eng.hostIssues = true ∧ s.eng.staged ≠ 0 ∧
      n = s.eng.fld R.EVT_TAIL_INDEX ∧ (n + 1) % s.eng.evtRing ≠ s.eng.fld R.EVT_HEAD_INDEX ∧ a = stagingAt (s.eng.fld R.EVT_STG_HEAD_INDEX) ∧ s.eng.wordError (a / 8) = .good ∧
      s.eng.wordError (a / 8 + 1) = .good ∧ lo = readLE s.chip.tanks a 8 ∧ hi = readLE s.chip.tanks (a + 8) 8 + s.eng.host.evtPhase.toNat * 2 ^ 14) ∧
    (∃ (s : State), s.eng.mgt.powered = true ∧ s.eng.flag R.EVT_CTL_EN = true ∧ s.eng.hostIssues = true ∧ s.eng.staged ≠ 0 ∧
      (s.eng.fld R.EVT_TAIL_INDEX + 1) % s.eng.evtRing = s.eng.fld R.EVT_HEAD_INDEX) ∧
    (∃ (s : State), s.eng.mgt.powered = true ∧ (s.eng.flag R.EVT_CTL_EN = false ∨ s.eng.hostIssues = false ∨ s.eng.staged = 0)) ∧
    (∃ (s : State) (port : Port) (v : Word), s.accepts port R.EVT_STG_HEAD v = true ∧ s.eng.flag R.EVT_CTL_EN = false ∧
      (bitsOf v.toNat 0 16 + 2 ^ 16 - s.eng.fld R.EVT_STG_HEAD_INDEX) % 2 ^ 16 ≤ s.eng.staged) ∧
    (∃ (s : State) (port : Port) (v : Word), s.accepts port R.EVT_STG_HEAD v = true ∧
      (s.eng.flag R.EVT_CTL_EN = true ∨ s.eng.staged < (bitsOf v.toNat 0 16 + 2 ^ 16 - s.eng.fld R.EVT_STG_HEAD_INDEX) % 2 ^ 16)) ∧
    (∃ (s : State) (v : Fin 64), s.eng.mgt.powered = true ∧ s.eng.host.pending.getLsbD v = true ∧ s.eng.hostIssues = true ∧ s.eng.msixOn = true ∧ s.eng.masked v = false) ∧
    (∃ (s : State) (v : Fin 64), s.eng.mgt.powered = true ∧ s.eng.host.pending.getLsbD v = true ∧ s.eng.hostIssues = true ∧ s.eng.msixOn = false ∧ s.eng.masked v = false) ∧
    (∃ (s : State) (v : Fin 64), s.eng.mgt.powered = true ∧ (s.eng.host.pending.getLsbD v = false ∨ s.eng.hostIssues = false ∨ s.eng.masked v = true)) ∧
    (∃ (s : State) (page : Fin 256) (r : Raised), s.eng.running = true ∧ s.eng.raised.find? (fun r => r.page == page.val) = some r) ∧
    (∃ (s : State) (page : Fin 256), s.eng.running = true ∧ s.eng.raised.find? (fun r => r.page == page.val) = none) :=
  ⟨⟨(mk [fun m => m.setFld (R.TANK_OWN_CUR 63) 5, fun m => { m with detected := [⟨0, 5, 1, 0x301, 7, 16⟩] }, fun m => m.setFld R.EVT_STG_TAIL_INDEX 16383]), (⟨0, 5, 1,
      0x301, 7, 16⟩), [], 16383, by decide +kernel⟩,
    ⟨(mk [fun m => m.setFld (R.TANK_OWN_CUR 63) 5, fun m => { m with detected := [⟨0, 5, 1, 0x101, 7, 16⟩] }, fun m => m.setFld R.EVT_STG_TAIL_INDEX 16320]), (⟨0, 5, 1,
      0x101, 7, 16⟩), [], by decide +kernel⟩,
    ⟨(mk [fun m => { m with running := true }, fun m => { m with detected := [] }]), by decide +kernel⟩,
    ⟨(mk [fun m => { m with running := true }, fun m => m.setFld (R.TANK_OWN_CUR 63) 5, fun m => { m with lostSince := 9 }]), 0, by decide +kernel⟩,
    ⟨(mk [fun m => { m with running := true }, fun m => { m with lostSince := 0 }]), by decide +kernel⟩,
    ⟨(mk [fun m => m.setFlag R.EVT_CTL_EN true, fun m => m.setFld R.EVT_STG_TAIL_INDEX 1]), (stagingAt 0), 0, (2 ^ 14), 0, by decide +kernel⟩,
    ⟨(mk [fun m => { m with mgt.powered := true }, fun m => m.setFlag R.EVT_CTL_EN true, fun m => m.setFld R.EVT_STG_TAIL_INDEX 1, fun m => m.setFld R.EVT_CTL_RING_LOG2 4,
      fun m => m.setFld R.EVT_TAIL_INDEX 15]), by decide +kernel⟩,
    ⟨ready, by decide +kernel⟩,
    ⟨(mk [fun m => m.setFlag R.EVT_CTL_EN false]), .host, 0, by decide +kernel⟩,
    ⟨ready, .host, 1, by decide +kernel⟩,
    ⟨(mk [fun m => { m with mgt.powered := true }, fun m => { m with host.pending := 2 ^ 63 }, fun m => m.setCfg 0 0xB0 0x80000000,
      fun m => m.setReg (R.HOST_MSIX (63 : Fin 64) 3) 0]), 63, by decide +kernel⟩,
    ⟨(mk [fun m => { m with host.pending := 2 ^ 63 + 1 }, fun m => m.setCfg 0 0x50 0x510000]), 63, by decide +kernel⟩,
    ⟨(mk [fun m => { m with mgt.powered := true }]), 63, by decide +kernel⟩,
    ⟨(mk [fun m => { m with running := true }, fun m => { m with raised := [⟨4, 7, 1, 0⟩, (⟨255, 7, 3, 16⟩ : Raised)] }]), 255, (⟨255, 7, 3, 16⟩), by decide +kernel⟩,
    ⟨(mk [fun m => { m with running := true }]), 255, by decide +kernel⟩⟩

/-- The premises of every clause of CommonHead can be met. -/
theorem witness_CommonHead :
    (∃ (s : State) (port : Port) (page : Fin 256) (v : Word) (h : RegHit), s.accepts port (intenAddr page) v = true ∧ decodeReg (intenAddr page) = some h) ∧
    (∃ (s : State) (port : Port) (page : Fin 256), s.accepts port (lockAddr page) 1 = true) ∧
    (∃ (s : State) (bankB : Bool) (addr : BitVec 20) (key : Nat), key = addr.toNat + (if bankB then 0x100000 else 0) ∧ s.eng.running = true ∧ isConfig key = true) ∧
    (∃ (s : State) (bankB : Bool) (addr : BitVec 20) (key : Nat), key = addr.toNat + (if bankB then 0x100000 else 0) ∧ s.eng.running = true ∧ isConfig key = true ∧
      s.eng.badParity.contains key = false) ∧
    (∃ (s : State) (bankB : Bool) (addr : BitVec 20), s.eng.running = true ∧ isConfig (addr.toNat + (if bankB then 0x100000 else 0)) = false) :=
  ⟨⟨ready, .host, 0xF2, 0, (hit (intenAddr 0xF2)), by decide +kernel⟩,
    ⟨ready, .mgmt, 5, by decide +kernel⟩,
    ⟨(mk [fun m => { m with running := true }]), true, 0x41100, 0x141100, by decide +kernel⟩,
    ⟨(mk [fun m => { m with running := true }]), true, 0x41100, 0x141100, by decide +kernel⟩,
    ⟨(mk [fun m => { m with running := true }]), true, 0, by decide +kernel⟩⟩

/-- The premises of every clause of ReadClears can be met. -/
theorem witness_ReadClears :
    ∃ (s : State) (addr : BitVec 20) (h : RegHit), s.eng.reachable = true ∧ s.eng.badParity = [] ∧ decodeReg addr.toNat = some h ∧ isDirWord addr.toNat = false ∧
      s.eng.absentCisp addr.toNat = false ∧ h.row.rc ≠ 0 :=
  ⟨(mk [fun m => { m with badParity := [] }]), 0x4018, (hit 0x4018), by decide +kernel⟩

/-- The premises of every clause of HighWordShadows can be met. -/
theorem witness_HighWordShadows :
    (∃ (s : State) (addr : BitVec 20) (h h' : RegHit), s.eng.reachable = true ∧ s.eng.badParity = [] ∧ decodeReg addr.toNat = some h ∧ isDirWord addr.toNat = false ∧
      s.eng.absentCisp addr.toNat = false ∧ h.row.low = true ∧ decodeReg (addr.toNat + 4) = some h' ∧ s.eng.mgt.shadows.length = 5) ∧
    (∃ (s : State) (addr : BitVec 20) (h : RegHit), s.eng.reachable = true ∧ s.eng.badParity = [] ∧ decodeReg addr.toNat = some h ∧ isDirWord addr.toNat = false ∧
      s.eng.absentCisp addr.toNat = false ∧ h.row.high = true) ∧
    (∃ (s : State) (addr : BitVec 20) (h : RegHit), s.eng.host.perst = false ∧ s.eng.reachable = true ∧ s.eng.mse 0 = true ∧ s.eng.d3hot 0 = false ∧ s.eng.host.hold = false ∧
      s.eng.badParity = [] ∧ decodeReg addr.toNat = some h ∧ isDirWord addr.toNat = false ∧ s.eng.absentCisp addr.toNat = false ∧ h.row.high = true) ∧
    (∃ (s : State) (addr : BitVec 20) (h : RegHit), s.eng.host.perst = false ∧ s.eng.mgt.powered = true ∧ s.eng.host.ready = true ∧ s.eng.badParity = [] ∧
      (s.eng.cfg 0 0x30C).toNat = addr.toNat ∧ decodeReg addr.toNat = some h ∧ isDirWord addr.toNat = false ∧ s.eng.absentCisp addr.toNat = false ∧ h.row.high = true) ∧
    (∃ (s : State) (addr : BitVec 20) (h h' : RegHit), s.eng.host.perst = false ∧ s.eng.mgt.powered = true ∧ s.eng.host.ready = true ∧ s.eng.badParity = [] ∧
      (s.eng.cfg 0 0x30C).toNat = addr.toNat ∧ decodeReg addr.toNat = some h ∧ isDirWord addr.toNat = false ∧ s.eng.absentCisp addr.toNat = false ∧ h.row.low = true ∧
      decodeReg (addr.toNat + 4) = some h' ∧ s.eng.mgt.shadows.length = 5) :=
  ⟨⟨(mk [fun m => { m with badParity := [] }]), 0x404C, (hit 0x404C), (hit 0x4050), by decide +kernel⟩,
    ⟨(mk [fun m => { m with badParity := [] }]), 0x4050, (hit 0x4050), by decide +kernel⟩,
    ⟨(mk [fun m => { m with host.perst := false }, fun m => { m with host.hold := false }, fun m => { m with badParity := [] }]), 0x4050, (hit 0x4050), by decide +kernel⟩,
    ⟨(mk [fun m => { m with host.perst := false }, fun m => { m with mgt.powered := true }, fun m => { m with host.ready := true }, fun m => { m with badParity := [] },
      fun m => m.setCfg 0 0x30C 0x4050]), 0x4050, (hit 0x4050), by decide +kernel⟩,
    ⟨(mk [fun m => { m with host.perst := false }, fun m => { m with mgt.powered := true }, fun m => { m with host.ready := true }, fun m => { m with badParity := [] },
      fun m => m.setCfg 0 0x30C 0x404C]), 0x404C, (hit 0x404C), (hit 0x4050), by decide +kernel⟩⟩

/-- The premises of every clause of CisternCommands can be met. -/
theorem witness_CisternCommands :
    (∃ (s : State) (pc : Fin 64), s.eng.running = true ∧ pc.val < s.eng.cis.pcs.length ∧ s.eng.pcIssues pc = true ∧ (s.eng.pc pc).rung = 0) ∧
    (∃ (s : State) (pc : Fin 64), s.eng.running = true ∧ pc.val < s.eng.cis.pcs.length ∧ s.eng.pcIssues pc = true ∧ (s.eng.pc pc).good = 1 ∧ 1 ≤ (s.eng.pc pc).rung ∧
      (s.eng.pc pc).rung ≤ 3) ∧
    (∃ (s : State) (pc : Fin 64), s.eng.running = true ∧ pc.val < s.eng.cis.pcs.length ∧ s.eng.pcIssues pc = true ∧ (s.eng.pc pc).good = 1 ∧ 4 ≤ (s.eng.pc pc).rung) ∧
    (∃ (s : State) (pc : Fin 64), s.eng.running = true ∧ s.eng.pcIssues pc = false) ∧
    (∃ (s : State) (pc : Fin 64) (busy : BitVec 48) (bank row : Nat), s.issues pc = true ∧ (s.eng.pc pc).nr.find? (fun b => !busy.getLsbD b.1) = some (bank, row)) ∧
    (∃ (s : State) (pc : Fin 64) (w : CisWrite), s.issues pc = true ∧ (s.eng.pc pc).nr = [] ∧ (s.eng.pc pc).rq = [] ∧ (s.eng.pc pc).wq = [w] ∧ w.readsFirst = false ∧
      (s.eng.needs pc w.next 3).op = 3) ∧
    (∃ (s : State) (pc : Fin 64) (w : CisWrite), s.issues pc = true ∧ (s.eng.pc pc).nr = [] ∧ (s.eng.pc pc).rq = [] ∧ (s.eng.pc pc).wq = [w] ∧ w.readsFirst = true ∧
      (s.eng.needs pc w.next 2).op = 2) ∧
    (∃ (s : State) (pc : Fin 64) (w : CisWrite), s.issues pc = true ∧ (s.eng.pc pc).nr = [] ∧ (s.eng.pc pc).rq = [] ∧ (s.eng.pc pc).wq = [w] ∧
      s.eng.flag R.CIS_NRCTL_EN = false ∧ (s.eng.needs pc w.next 3).op = 0) ∧
    (∃ (s : State) (pc : Fin 64) (r : CisRead), s.issues pc = true ∧ (s.eng.pc pc).nr = [] ∧ (s.eng.pc pc).rq = [r] ∧ (s.eng.pc pc).wq = [] ∧ (s.eng.pc pc).flight = [] ∧
      (s.eng.needs pc r.next 2).op = 2 ∧ r.sent + 1 < burstsOf r.addr r.len) ∧
    (∃ (s : State) (pc : Fin 64) (r : CisRead) (x : WinRead), s.issues pc = true ∧ (s.eng.pc pc).nr = [] ∧ (s.eng.pc pc).rq = [r] ∧ (s.eng.pc pc).wq = [] ∧
      (s.eng.pc pc).flight = [] ∧ (s.eng.needs pc r.next 2).op = 2 ∧ burstsOf r.addr r.len ≤ r.sent + 1 ∧ s.eng.cis.reads = [x] ∧ r.reader = .window x.tag ∧ r.addr = x.addr ∧
      r.len = x.len ∧ 0 < x.len ∧ r.bad = [] ∧ x.parts = [] ∧ x.bad = [] ∧ x.reply = none) ∧
    (∃ (s : State) (pc : Fin 64) (r : CisRead), s.issues pc = true ∧ (s.eng.pc pc).nr = [] ∧ (s.eng.pc pc).rq = [r] ∧ (s.eng.pc pc).wq = [] ∧ (s.eng.pc pc).flight = [] ∧
      (s.eng.needs pc r.next 2).op = 2 ∧ r.sent + 1 < burstsOf r.addr r.len ∧ s.eng.pcOf r.next = pc.val) ∧
    (∃ (s : State) (pc : Fin 64), s.issues pc = true ∧ (s.eng.pc pc).nr = [] ∧ (s.eng.pc pc).wq = [] ∧ (s.eng.pc pc).rq = []) ∧
    (∃ (s : State) (stk : Fin 2), s.eng.mgt.powered = true ∧ stk.val < s.eng.stackCount) ∧
    (∃ (s : State) (stk : Fin 2), s.eng.mgt.powered = true ∧ s.eng.stackCount ≤ stk.val) :=
  ⟨⟨(mk [fun m => { m with running := true }, fun m => m.setPc (63 : Fin 64) { m.pc (63 : Fin 64) with rung := 0 }]), 63, by decide +kernel⟩,
    ⟨(mk [fun m => { m with running := true }, fun m => m.setPc (63 : Fin 64) { m.pc (63 : Fin 64) with good := 1 },
      fun m => m.setPc (63 : Fin 64) { m.pc (63 : Fin 64) with rung := 3 }]), 63, by decide +kernel⟩,
    ⟨(mk [fun m => m.setPc 63 { m.pc 63 with good := 1, rung := 4 }]), 63, by decide +kernel⟩,
    ⟨(mk [fun m => { m with running := true }, fun m => m.setPcSt (63 : Fin 64) 3]), 63, by decide +kernel⟩,
    ⟨(mk [fun m => m.setPc 63 { m.pc 63 with nr := [(1, 5), (2, 0), (3, 16383)] }]), 63, 2, 2, 0, by decide +kernel⟩,
    ⟨(mk [fun m => m.setPc 63 { m.pc 63 with wq := [{ addr := 0x1020, bytes := List.replicate 32 1, src := 49 }], openRows := [(bankOf (m.pcAddr 0x1020).2, rowOf (m.pcAddr 0x1020).2)] }]),
      63, { addr := 0x1020, bytes := List.replicate 32 1, src := 49 }, by decide +kernel⟩,
    ⟨(mk [fun m => m.setPc 63 { m.pc 63 with wq := [{ addr := 0, bytes := [1, 2], src := 0 }], openRows := [(bankOf (m.pcAddr 0).2, rowOf (m.pcAddr 0).2)] }]), 63,
      { addr := 0, bytes := [1, 2], src := 0 }, by decide +kernel⟩,
    ⟨(mk [fun m => m.setFlag R.CIS_NRCTL_EN false, fun m => m.setPc 63 { m.pc 63 with wq := [{ addr := 0, bytes := [1, 2], src := 0 }] }]), 63,
      { addr := 0, bytes := [1, 2], src := 0 }, by decide +kernel⟩,
    ⟨(mk [fun m => m.setPc 63 { m.pc 63 with rq := [{ addr := 0, len := 256, reader := .window 0, sent := 6 }], openRows := [(bankOf (m.pcAddr 0).2, rowOf (m.pcAddr 0).2)] }]),
      63, { addr := 0, len := 256, reader := .window 0, sent := 6 }, by decide +kernel⟩,
    ⟨(mk [fun m => m.setPc 63 { m.pc 63 with rq := [{ addr := 0, len := 256, reader := .window 3, sent := 7 }], openRows := [(bankOf (m.pcAddr 0).2, rowOf (m.pcAddr 0).2)] },
      fun m => { m with cis.reads := [{ tag := 3, addr := 0, len := 256 }] }]), 63, { addr := 0, len := 256, reader := .window 3, sent := 7 },
      { tag := 3, addr := 0, len := 256 }, by decide +kernel⟩,
    ⟨(mk [fun m => m.setPc 63 { m.pc 63 with rq := [{ addr := 63 * 256, len := 256, reader := .window 0, sent := 6 }], openRows := [(bankOf (m.pcAddr (63 * 256)).2, rowOf (m.pcAddr (63 * 256)).2)] }]),
      63, { addr := 63 * 256, len := 256, reader := .window 0, sent := 6 }, by decide +kernel⟩,
    ⟨ready, 63, by decide +kernel⟩,
    ⟨(mk [fun m => { m with mgt.powered := true }]), 1, by decide +kernel⟩,
    ⟨(mk [fun m => { m with mgt.powered := true }, fun m => m.setFld ⟨R.SYS_IDENT, 0, 2⟩ 1]), 1, by decide +kernel⟩⟩

/-- The premises of every clause of ParityAndTraining can be met. -/
theorem witness_ParityAndTraining :
    (∃ (s : State) (pc : Fin 64), s.eng.running = true ∧ pc.val < s.eng.cis.pcs.length ∧ s.eng.pcIssues pc = true ∧ (s.eng.pc pc).rung < 3) ∧
    (∃ (s : State) (pc : Fin 64), s.eng.running = true ∧ pc.val < s.eng.cis.pcs.length ∧ s.eng.pcIssues pc = true ∧ (s.eng.pc pc).rung = 3) ∧
    (∃ (s : State) (pc : Fin 64), s.eng.running = true ∧ pc.val < s.eng.cis.pcs.length ∧ s.eng.pcIssues pc = true ∧ 4 ≤ (s.eng.pc pc).rung) ∧
    (∃ (s : State) (pc : Fin 64), s.eng.running = true ∧ s.eng.pcIssues pc = false) ∧
    (∃ (s : State) (pc : Fin 64), s.eng.running = true ∧ pc.val < s.eng.cis.pcs.length ∧ s.eng.pcSt pc = 2 ∧ (s.eng.pc pc).rung = 4) ∧
    (∃ (s : State) (pc : Fin 64), s.eng.running = true ∧ pc.val < s.eng.cis.pcs.length ∧ s.eng.pcSt pc = 2 ∧ (s.eng.pc pc).rung = 4) ∧
    (∃ (s : State) (pc : Fin 64), s.eng.running = true ∧ (s.eng.pcSt pc ≠ 2 ∨ (s.eng.pc pc).rung ≠ 4)) ∧
    (∃ (s : State) (port : Port) (pc : Fin 64), s.accepts port (R.CISP_PC_CTL (pc / 32) (pc % 32)) 1 = true ∧ s.eng.armed = false ∧ s.eng.pcSt pc = 3) ∧
    (∃ (s : State) (port : Port) (pc : Fin 64), s.accepts port (R.CISP_PC_CTL (pc / 32) (pc % 32)) 1 = true ∧ (s.eng.armed = true ∨ s.eng.pcSt pc ≠ 3)) ∧
    (∃ (s : State) (pc : Fin 64), s.eng.running = true ∧ s.eng.flag (R.CISP_PC_STATE_REVIVING (pc / 32) (pc % 32)) = true) ∧
    (∃ (s : State) (pc : Fin 64), s.eng.running = true ∧ s.eng.flag (R.CISP_PC_STATE_REVIVING (pc / 32) (pc % 32)) = true) ∧
    (∃ (s : State) (pc : Fin 64), s.eng.running = true ∧ s.eng.flag (R.CISP_PC_STATE_REVIVING (pc / 32) (pc % 32)) = false) ∧
    (∃ (s : State) (k : Fin 2) (j : Fin 32), s.eng.running = true ∧ s.eng.cis.pass = none ∧ s.eng.flag R.CIS_TRAINCTL_EN = true ∧ s.eng.cisState = 3 ∧
      s.eng.nextVisit = some (32 * k.val + j.val) ∧ (s.eng.cis.visit ≠ 0 ∨ s.eng.cis.visitAt ≤ s.eng.cc)) ∧
    (∃ (s : State) (k : Fin 2) (j : Fin 32) (due : Nat), s.eng.running = true ∧ s.eng.cis.pass = some (32 * k.val + j.val) ∧ s.eng.cis.opReq = none ∧
      due = s.eng.cis.visitAt + s.eng.visitPeriod ∧ (((s.eng.pc (32 * k.val + j.val)).rq = [] ∧
      (s.eng.pc (32 * k.val + j.val)).wq.length ≤ s.eng.writeLow) ∨ s.eng.cis.passAt + s.eng.visitPeriod / s.eng.pcCount ≤ s.eng.cc)) ∧
    (∃ (s : State) (k : Fin 2) (j : Fin 32) (ends : Bool), s.eng.running = true ∧ s.eng.cis.pass ≠ some (32 * k.val + j.val) ∧
      (ends = true ∨ s.eng.flag R.CIS_TRAINCTL_EN = false)) ∧
    (∃ (s : State) (k : Fin 2) (j : Fin 32), s.eng.running = true ∧ ((s.eng.pc (32 * k.val + j.val)).rq ≠ [] ∨ s.eng.writeLow < (s.eng.pc (32 * k.val + j.val)).wq.length) ∧
      s.eng.cc < s.eng.cis.passAt + s.eng.visitPeriod / s.eng.pcCount) ∧
    (∃ (s : State) (k : Fin 2) (j : Fin 32), s.eng.running = true ∧ (32 * k.val + j.val) < s.eng.cis.pcs.length ∧ s.eng.cis.pass = some (32 * k.val + j.val) ∧
      s.eng.cis.opReq = none) :=
  ⟨⟨(mk [fun m => { m with running := true }]), 63, by decide +kernel⟩,
    ⟨(mk [fun m => { m with running := true }, fun m => m.setPc (63 : Fin 64) { m.pc (63 : Fin 64) with rung := 3 }]), 63, by decide +kernel⟩,
    ⟨(mk [fun m => { m with running := true }, fun m => m.setPc (63 : Fin 64) { m.pc (63 : Fin 64) with rung := 4 }]), 63, by decide +kernel⟩,
    ⟨(mk [fun m => { m with running := true }, fun m => m.setPcSt (63 : Fin 64) 3]), 63, by decide +kernel⟩,
    ⟨(mk [fun m => { m with running := true }, fun m => m.setPcSt (63 : Fin 64) 2, fun m => m.setPc (63 : Fin 64) { m.pc (63 : Fin 64) with rung := 4 }]), 63,
      by decide +kernel⟩,
    ⟨(mk [fun m => { m with running := true }, fun m => m.setPcSt (63 : Fin 64) 2, fun m => m.setPc (63 : Fin 64) { m.pc (63 : Fin 64) with rung := 4 }]), 63,
      by decide +kernel⟩,
    ⟨ready, 63, by decide +kernel⟩,
    ⟨(mk [fun m => m.setFlag R.SYS_STATUS_ARMED false, fun m => m.setPcSt (63 : Fin 64) 3]), .host, 63, by decide +kernel⟩,
    ⟨(mk [fun m => m.setFlag R.SYS_STATUS_ARMED true]), .host, 63, by decide +kernel⟩,
    ⟨({ mk [fun m => m.setFlag (R.CISP_PC_STATE_REVIVING 1 31) true] with chip.cistern := [(5, 1), (63 * 256 + 5, 3)] }), 63, by decide +kernel⟩,
    ⟨(mk [fun m => { m with running := true }, fun m => m.setFlag (R.CISP_PC_STATE_REVIVING ((63 : Fin 64) / 32) ((63 : Fin 64) % 32)) true]), 63, by decide +kernel⟩,
    ⟨ready, 63, by decide +kernel⟩,
    ⟨(mk [fun m => m.setFlag R.CIS_TRAINCTL_EN true, fun m => { m with cis.visit := 5 }]), 0, 5, by decide +kernel⟩,
    ⟨(mk [fun m => { m with cis.pass := some 63 }, fun m => { m with cis.passAt := m.cc, cis.visitAt := 0 }, fun m => m.setFld R.CIS_TRAINCTL_PERIOD 5]), 1, 31, 3000000,
      by decide +kernel⟩,
    ⟨ready, 1, 31, true, by decide +kernel⟩,
    ⟨(mk [fun m => { m with cis.pass := some 63 }, fun m => { m with cis.passAt := m.cc },
      fun m => m.setPc 63 { m.pc 63 with rq := [{ addr := 0, len := 1, reader := .window 0 }] }]), 1, 31, by decide +kernel⟩,
    ⟨(mk [fun m => { m with cis.pass := some 63 }]), 1, 31, by decide +kernel⟩⟩

/-- The premises of every clause of OperatingPointsAndTest can be met. -/
theorem witness_OperatingPointsAndTest :
    (∃ (s : State) (port : Port) (v : Word), s.accepts port R.CIS_CTL (v ||| 1) = true ∧ bitAt v.toNat 4 = false ∧ s.eng.cis.opReq = none ∧ s.eng.cis.opRun = none ∧
      s.eng.cis.opWait = false ∧ s.eng.cisState = 3 ∧ s.eng.flag R.CIS_STATUS_OP = bitAt v.toNat 1) ∧
    (∃ (s : State) (port : Port) (v : Word), s.accepts port R.CIS_CTL (v ||| 1) = true ∧ bitAt v.toNat 4 = false ∧ s.eng.cis.opReq = none ∧ s.eng.cis.opRun = none ∧
      s.eng.cis.opWait = false ∧ s.eng.cisState = 3 ∧ s.eng.flag R.CIS_STATUS_OP ≠ bitAt v.toNat 1 ∧ s.eng.armed = true ∧ s.eng.settled = false) ∧
    (∃ (s : State) (port : Port) (v : Word), s.accepts port R.CIS_CTL (v ||| 1) = true ∧ bitAt v.toNat 4 = false ∧ s.eng.cis.opReq = none ∧ s.eng.cis.opRun = none ∧
      s.eng.cis.opWait = false ∧ s.eng.cisState = 3 ∧ s.eng.flag R.CIS_STATUS_OP ≠ bitAt v.toNat 1 ∧ (s.eng.armed = false ∨ s.eng.settled = true) ∧ s.eng.cis.pass = none) ∧
    (∃ (s : State) (port : Port) (v : Word), s.accepts port R.CIS_CTL (v ||| 1) = true ∧ bitAt v.toNat 4 = false ∧ s.eng.cis.opReq = none ∧ s.eng.cisState ≠ 3) ∧
    (∃ (s : State) (port : Port) (v : Word) (p : Nat), s.accepts port R.CIS_CTL (v ||| 1) = true ∧ bitAt v.toNat 4 = false ∧ s.eng.cis.opReq = none ∧ s.eng.cis.opRun = none ∧
      s.eng.cis.opWait = false ∧ s.eng.cisState = 3 ∧ s.eng.flag R.CIS_STATUS_OP ≠ bitAt v.toNat 1 ∧ s.eng.armed = false ∧ s.eng.cis.pass = some p) ∧
    (∃ (s : State) (port : Port) (v : Word), s.accepts port R.CIS_CTL (v ||| 1) = true ∧ bitAt v.toNat 4 = false ∧ s.eng.cis.opReq.isSome = true) ∧
    (∃ (s : State) (op : Nat), s.eng.running = true ∧ s.eng.cis.opRun = some op ∧ op < 2 ∧ s.eng.cisState = 5 ∧ s.eng.queuesEmpty = true ∧
      s.eng.cis.pcs.all (fun x => x.flight.isEmpty) = true) ∧
    (∃ (s : State), s.eng.running = true ∧ (s.eng.cis.opRun = none ∨ s.eng.cisState ≠ 5 ∨ s.eng.queuesEmpty = false)) ∧
    (∃ (s : State) (port : Port) (v : Word), s.accepts port R.CIS_CTL (v ||| 0x10) = true ∧ s.eng.armed = false ∧ s.eng.flag (R.DISP_CTL_EN 0) = false ∧
      s.eng.flag (R.DISP_CTL_EN 1) = false ∧ (∀ d : Fin 4, s.eng.drainSt d ≠ 1) ∧ s.eng.flag R.CIS_CTL_REINIT = false) ∧
    (∃ (s : State) (port : Port) (v : Word), s.accepts port R.CIS_CTL (v ||| 0x10) = true ∧ bitAt v.toNat 0 = false ∧
      (s.eng.armed = true ∨ s.eng.flag (R.DISP_CTL_EN 0) = true ∨ s.eng.flag (R.DISP_CTL_EN 1) = true ∨ (∃ d : Fin 4, s.eng.drainSt d = 1))) ∧
    (∃ (s : State), s.eng.running = true ∧ s.eng.cisState = 0) ∧
    (∃ (s : State), s.eng.running = true ∧ s.eng.cisState = 1 ∧ s.eng.cis.full = true) ∧
    (∃ (s : State), s.eng.running = true ∧ ((s.eng.cis.full = true ∧ s.eng.cisState = 2) ∨ (s.eng.cis.full = false ∧ s.eng.cisState = 1)) ∧ s.eng.arming = none ∧
      s.eng.cis.opReq = none ∧ s.eng.cis.opRun = none) ∧
    (∃ (s : State) (op : Nat), s.eng.running = true ∧ s.eng.cis.full = false ∧ s.eng.cisState = 1 ∧ s.eng.arming = none ∧ s.eng.cis.opRun = some op ∧ op < 2) ∧
    (∃ (s : State) (phase : Fin 3), s.eng.running = true ∧ (3 ≤ s.eng.cisState ∨ (phase = 0 ∧ s.eng.cisState ≠ 0) ∨ (phase = 1 ∧
      (s.eng.cisState ≠ 1 ∨ s.eng.cis.full = false)) ∨ (phase = 2 ∧ (s.eng.cisState = 0 ∨ (s.eng.cis.full = true ∧ s.eng.cisState = 1))))) ∧
    (∃ (s : State) (port : Port) (v : Word), s.accepts port R.CBIST_CTL (v ||| 4) = true ∧ s.eng.fld R.CBIST_RATE_BURSTS ≠ 0 ∧ s.eng.cisState = 3 ∧
      s.eng.slotHoldsOnes = false) ∧
    (∃ (s : State) (port : Port) (v : Word), s.accepts port R.CBIST_CTL (v ||| 4) = true ∧
      (s.eng.fld R.CBIST_RATE_BURSTS = 0 ∨ s.eng.cisState ≠ 3 ∨ s.eng.slotHoldsOnes = true)) ∧
    (∃ (s : State) (k : Nat), s.eng.running = true ∧ s.eng.cisState = 3 ∧ s.eng.fld R.CBIST_RATE_BURSTS ≠ 0 ∧ s.eng.flag R.CBIST_CTL_GO = false ∧
      s.eng.flag R.CBIST_STATUS_BUSY = true ∧ k = (s.eng.reg64 R.CBIST_POS_LO).toNat / 256 ∧ s.eng.testSlot s.eng.allotted 4096 k = k ∧ k < s.eng.totalPacks ∧
      s.eng.flag R.CBIST_CTL_SCRUB_EN = true ∧ s.eng.flag R.CBIST_CTL_MARCH_EN = false ∧ s.eng.cis.element = 0) ∧
    (∃ (s : State) (k e : Nat), s.eng.running = true ∧ s.eng.cisState = 3 ∧ s.eng.fld R.CBIST_RATE_BURSTS ≠ 0 ∧ s.eng.flag R.CBIST_CTL_GO = false ∧
      s.eng.flag R.CBIST_STATUS_BUSY = true ∧ k = (s.eng.reg64 R.CBIST_POS_LO).toNat / 256 ∧ s.eng.testSlot s.eng.allotted 4096 k = k ∧ k < s.eng.totalPacks ∧
      s.eng.flag R.CBIST_CTL_MARCH_EN = true ∧ e = (if s.eng.cis.element = 0 then 1 else s.eng.cis.element) ∧ e ≤ 6 ∧
      (s.eng.cis.element ≠ 0 ∨ s.eng.flag R.CBIST_CTL_SCRUB_EN = false)) ∧
    (∃ (s : State), s.eng.running = true ∧ s.eng.flag R.CBIST_STATUS_BUSY = true ∧
      s.eng.totalPacks ≤ s.eng.testSlot s.eng.allotted 4096 ((s.eng.reg64 R.CBIST_POS_LO).toNat / 256)) ∧
    (∃ (s : State), s.eng.running = true ∧
      (s.eng.flag R.CBIST_STATUS_BUSY = false ∨ s.eng.testSlot s.eng.allotted 4096 ((s.eng.reg64 R.CBIST_POS_LO).toNat / 256) < s.eng.totalPacks)) :=
  ⟨⟨(mk [fun m => m.setFlag R.CIS_CTL_OPGO false, fun m => m.setFld R.CIS_STATUS_STATE 3]), .host, 0, by decide +kernel⟩,
    ⟨(mk [fun m => m.setFlag R.CIS_CTL_OPGO false, fun m => m.setFld R.CIS_STATUS_STATE 3, fun m => m.setFlag R.SYS_STATUS_ARMED true,
      fun m => m.setFlag R.SAFE_STATUS_SETTLED false]), .host, 2, by decide +kernel⟩,
    ⟨(mk [fun m => m.setFlag R.CIS_CTL_OPGO false, fun m => m.setFld R.CIS_STATUS_STATE 3, fun m => m.setFlag R.SYS_STATUS_ARMED false,
      fun m => { m with cis.pass := none }]), .host, 2, by decide +kernel⟩,
    ⟨(mk [fun m => m.setFld R.CIS_STATUS_STATE 1]), .host, 6, by decide +kernel⟩,
    ⟨(mk [fun m => { m with cis.pass := some 63 }]), .host, 2, 63, by decide +kernel⟩,
    ⟨(mk [fun m => { m with cis.opReq := some (1, false) }]), .host, 6, by decide +kernel⟩,
    ⟨(mk [fun m => { m with cis.opRun := some 1 }, fun m => m.setFld R.CIS_STATUS_STATE 5]), 1, by decide +kernel⟩,
    ⟨ready, by decide +kernel⟩,
    ⟨(mk [fun m => m.setFlag R.SYS_STATUS_ARMED false, fun m => m.setFlag (R.DISP_CTL_EN 0) false, fun m => m.setFlag (R.DISP_CTL_EN 1) false,
      fun m => m.setFlag R.CIS_CTL_REINIT false]), .host, 0, by decide +kernel⟩,
    ⟨(mk [fun m => m.setFlag R.SYS_STATUS_ARMED true]), .host, 0, by decide +kernel⟩,
    ⟨(mk [fun m => m.setFld R.CIS_STATUS_STATE 0]), by decide +kernel⟩,
    ⟨(mk [fun m => m.setFld R.CIS_STATUS_STATE 1, fun m => { m with cis.full := true }]), by decide +kernel⟩,
    ⟨(mk [fun m => m.setFld R.CIS_STATUS_STATE 2, fun m => { m with cis.full := true }]), by decide +kernel⟩,
    ⟨(mk [fun m => m.setFld R.CIS_STATUS_STATE 1, fun m => { m with cis.full := false, cis.opRun := some 1 }]), 1, by decide +kernel⟩,
    ⟨ready, 2, by decide +kernel⟩,
    ⟨(mk [fun m => m.setFld R.CBIST_RATE_BURSTS 1, fun m => m.setFld R.CIS_STATUS_STATE 3]), .host, 0, by decide +kernel⟩,
    ⟨(mk [fun m => m.setFld R.CIS_STATUS_STATE 4]), .host, 0, by decide +kernel⟩,
    ⟨(mk [fun m => ((m.setFld R.CBIST_RATE_BURSTS 1).setFlag R.CBIST_CTL_GO false).setFlag R.CBIST_STATUS_BUSY true, fun m => m.setReg64 R.CBIST_POS_LO 0x10000000,
      fun m => (m.setFlag R.CBIST_CTL_SCRUB_EN true).setFlag R.CBIST_CTL_MARCH_EN false]), 0x100000, by decide +kernel⟩,
    ⟨(mk [fun m => ((m.setFld R.CBIST_RATE_BURSTS 1).setFlag R.CBIST_CTL_GO false).setFlag R.CBIST_STATUS_BUSY true, fun m => m.setReg64 R.CBIST_POS_LO 0x10000000,
      fun m => (m.setFlag R.CBIST_CTL_SCRUB_EN false).setFlag R.CBIST_CTL_MARCH_EN true, fun m => { m with cis.element := 4 }]), 0x100000, 4, by decide +kernel⟩,
    ⟨(mk [fun m => { m with running := true }, fun m => m.setFlag R.CBIST_STATUS_BUSY true, fun m => m.setReg64 R.CBIST_POS_LO (BitVec.ofNat 64 (256 * m.totalPacks))]),
      by decide +kernel⟩,
    ⟨(mk [fun m => { m with running := true }, fun m => m.setFlag R.CBIST_STATUS_BUSY false]), by decide +kernel⟩⟩

/-- The premises of every clause of TankOwners can be met. -/
theorem witness_TankOwners :
    (∃ (s : State) (port : Port) (n : Fin 64) (v : Word), s.accepts port (R.TANK_OWN n) v = true ∧ bitAt (s.eng.reg (lockAddr 0xC0)).toNat 0 = false ∧
      s.eng.tank.handing.any (fun h => h.1 == n.val) = false ∧ s.eng.owner n = bitsOf v.toNat 0 3) ∧
    (∃ (s : State) (port : Port) (n : Fin 64) (v : Word), s.accepts port (R.TANK_OWN n) v = true ∧ bitAt (s.eng.reg (lockAddr 0xC0)).toNat 0 = false ∧
      s.eng.tank.handing.any (fun h => h.1 == n.val) = false ∧ s.eng.owner n ≠ bitsOf v.toNat 0 3 ∧ s.eng.handoverReason n (bitsOf v.toNat 0 3) = 0) ∧
    (∃ (s : State) (port : Port) (n : Fin 64) (v : Word) (r : Nat), s.accepts port (R.TANK_OWN n) v = true ∧ bitAt (s.eng.reg (lockAddr 0xC0)).toNat 0 = false ∧
      s.eng.tank.handing.any (fun h => h.1 == n.val) = false ∧ s.eng.owner n ≠ bitsOf v.toNat 0 3 ∧ s.eng.handoverReason n (bitsOf v.toNat 0 3) = r ∧ r ≠ 0) ∧
    (∃ (s : State) (port : Port) (n : Fin 64) (v : Word), s.accepts port (R.TANK_OWN n) v = true ∧ bitAt (s.eng.reg (lockAddr 0xC0)).toNat 0 = false ∧
      s.eng.tank.handing.any (fun h => h.1 == n.val) = true) ∧
    (∃ (s : State) (port : Port) (n : Fin 64) (v : Word), s.accepts port (R.TANK_OWN n) v = true ∧ bitAt (s.eng.reg (lockAddr 0xC0)).toNat 0 = true) ∧
    (∃ (s : State) (n : Fin 64) (o : Nat), s.eng.running = true ∧ s.eng.tank.handing.find? (fun h => h.1 == n.val) = some (n.val, o) ∧ o < 8 ∧
      (s.eng.underTest n && decide (n.val < 4)) = false ∧ s.eng.tank.queued.find? (fun q => q.1 == n.val) = none) ∧
    (∃ (s : State) (n : Fin 64) (o q : Nat), s.eng.running = true ∧ s.eng.tank.handing.find? (fun h => h.1 == n.val) = some (n.val, o) ∧ o < 8 ∧
      (s.eng.underTest n && decide (n.val < 4)) = false ∧ s.eng.tank.queued.find? (fun q => q.1 == n.val) = some (n.val, q)) ∧
    (∃ (s : State) (n : Fin 64), s.eng.running = true ∧ (s.eng.tank.handing.find? (fun h => h.1 == n.val) = none ∨ (s.eng.underTest n && decide (n.val < 4)) = true)) ∧
    (∃ (s : State) (off : BitVec 24) (len : Nat), s.eng.host.perst = false ∧ s.eng.reachable = true ∧ s.eng.mse 0 = true ∧ s.eng.d3hot 0 = false ∧ s.eng.host.hold = false ∧
      s.eng.dammed = false ∧ s.eng.lost = false ∧ off.toNat + len ≤ 0x1000000 ∧ s.eng.tankRefusal off.toNat len false = none ∧ s.eng.tank.errs = []) ∧
    (∃ (s : State) (off : BitVec 24) (len w : Nat), s.eng.host.perst = false ∧ s.eng.reachable = true ∧ s.eng.mse 0 = true ∧ s.eng.d3hot 0 = false ∧ s.eng.host.hold = false ∧
      s.eng.dammed = false ∧ s.eng.lost = false ∧ s.eng.tankRefusal off.toNat len false = none ∧ w = off.toNat / 8 ∧ 0 < len ∧ off.toNat % 8 + len ≤ 8 ∧
      s.eng.wordError w = .good) ∧
    (∃ (s : State) (off : BitVec 24) (l : List Byte), s.eng.host.perst = false ∧ s.eng.reachable = true ∧ s.eng.mse 0 = true ∧ s.eng.d3hot 0 = false ∧
      s.eng.host.hold = false ∧ s.eng.dammed = false ∧ s.eng.lost = false ∧ off.toNat + l.length ≤ 0x1000000 ∧ s.eng.tankRefusal off.toNat l.length true = none ∧
      s.eng.path.pipe = [] ∧ s.eng.flag R.TBIST_STATUS_BUSY = false ∧ s.eng.flag R.TBIST_REMAP_VALID = false ∧ s.eng.tank.errs = []) ∧
    (∃ (s : State) (off : BitVec 24) (l : List Byte) (sp : Nat), s.eng.host.perst = false ∧ s.eng.reachable = true ∧ s.eng.mse 0 = true ∧ s.eng.d3hot 0 = false ∧
      s.eng.host.hold = false ∧ s.eng.dammed = false ∧ s.eng.lost = false ∧ off.toNat + l.length ≤ 0x1000000 ∧ s.eng.tankRefusal off.toNat l.length true = none ∧
      s.eng.path.pipe = [] ∧ l.length = 8 ∧ off.toNat % 8 = 0 ∧ s.eng.mirrorOf (off.toNat / tankSize) = some sp ∧ sp ≠ off.toNat / tankSize) ∧
    (∃ (s : State) (off : BitVec 24) (l : List Byte) (met : Ecc) (w : Nat), s.eng.host.perst = false ∧ s.eng.reachable = true ∧ s.eng.mse 0 = true ∧ s.eng.d3hot 0 = false ∧
      s.eng.host.hold = false ∧ s.eng.dammed = false ∧ s.eng.lost = false ∧ off.toNat + l.length ≤ 0x1000000 ∧ s.eng.tankRefusal off.toNat l.length true = none ∧
      s.eng.path.pipe = [] ∧ w = off.toNat / 8 ∧ 0 < l.length ∧ l.length < 8 ∧ off.toNat % 8 + l.length ≤ 8 ∧ (s.eng.wordError w = .double ∨ met = .double)) ∧
    (∃ (s : State) (off : BitVec 24) (l : List Byte) (n : Fin 4), s.eng.host.perst = false ∧ s.eng.reachable = true ∧ s.eng.mse 0 = true ∧ s.eng.d3hot 0 = false ∧
      s.eng.host.hold = false ∧ s.eng.dammed = false ∧ s.eng.lost = false ∧ off.toNat + l.length ≤ 0x1000000 ∧ s.eng.tankRefusal off.toNat l.length true = none ∧
      s.eng.path.pipe = [] ∧ n.val = off.toNat / tankSize ∧ 0 < l.length ∧ off.toNat % 8 + l.length ≤ 8) ∧
    (∃ (s : State) (off : BitVec 24) (len n : Nat), s.eng.host.perst = false ∧ s.eng.reachable = true ∧ s.eng.mse 0 = true ∧ s.eng.d3hot 0 = false ∧ s.eng.host.hold = false ∧
      s.eng.dammed = false ∧ s.eng.lost = false ∧ off.toNat + len ≤ 0x1000000 ∧ s.eng.tankRefusal off.toNat len false = some n) ∧
    (∃ (s : State) (off : BitVec 24) (l : List (Option Byte)) (n : Nat), s.eng.host.perst = false ∧ s.eng.reachable = true ∧ s.eng.mse 0 = true ∧ s.eng.d3hot 0 = false ∧
      s.eng.host.hold = false ∧ s.eng.dammed = false ∧ s.eng.lost = false ∧ off.toNat + l.length ≤ 0x1000000 ∧ s.eng.tankRefusal off.toNat l.length true = some n) ∧
    (∃ (s : State) (off : BitVec 24) (len : Nat), s.eng.host.perst = false ∧ s.eng.reachable = true ∧ s.eng.mse 0 = true ∧ s.eng.d3hot 0 = false ∧ s.eng.host.hold = false ∧
      off.toNat + len ≤ 0x1000000 ∧ (s.eng.dammed = true ∨ s.eng.lost = true)) ∧
    (∃ (s : State) (off : BitVec 24) (len : Nat), s.eng.host.perst = false ∧ s.eng.reachable = true ∧ s.eng.mse 0 = true ∧ s.eng.d3hot 0 = false ∧ s.eng.host.hold = false ∧
      0x1000000 < off.toNat + len) :=
  ⟨⟨(mk [fun m => m.setFld (R.TANK_OWN_CUR (63 : Fin 64)) 3]), .host, 63, 3, by decide +kernel⟩,
    ⟨ready, .host, 63, 0, by decide +kernel⟩,
    ⟨ready, .host, 63, 6, 3, by decide +kernel⟩,
    ⟨(mk [fun m => { m with tank.handing := [(63, 5)] }, fun m => { m with tank.queued := [(63, 1), (62, 2)] }]), .host, 63, 2, by decide +kernel⟩,
    ⟨(mk [fun m => m.setReg (lockAddr 0xC0) 1]), .host, 63, 5, by decide +kernel⟩,
    ⟨(mk [fun m => { m with tank.handing := [(63, 5)] }, fun m => (m.setFld (R.TANK_OWN_CUR 63) 2).setFld R.TANK_RETSTAT_RET 255,
      fun m => (m.setFld R.CONF_TSET_BASE_A 53).setFlag R.CONF_STATUS_VER_A true]), 63, 5, by decide +kernel⟩,
    ⟨(mk [fun m => { m with tank.handing := [(63, 5)] }, fun m => { m with tank.queued := [(63, 6)] },
      fun m => (m.setFld (R.TANK_OWN_CUR 63) 2).setFld R.TANK_RETSTAT_RET 255, fun m => (m.setFld R.CONF_TSET_BASE_A 53).setFlag R.CONF_STATUS_VER_A true]), 63, 5, 6,
      by decide +kernel⟩,
    ⟨(mk []), 63, by decide +kernel⟩,
    ⟨(mk [fun m => { m with host.perst := false }, fun m => { m with host.hold := false }, fun m => m.setFlag R.DAM_STATUS_DAMMED false]), 0xFFFF00, 256, by decide +kernel⟩,
    ⟨(mk [fun m => { m with host.perst := false }, fun m => { m with host.hold := false }, fun m => m.setFlag R.DAM_STATUS_DAMMED false]), 0xFFFFFF, 1, 0x1FFFFF,
      by decide +kernel⟩,
    ⟨(mk [fun m => { m with host.perst := false }, fun m => { m with host.hold := false }, fun m => m.setFlag R.DAM_STATUS_DAMMED false,
      fun m => m.setFld (R.TANK_OWN_CUR 63) 1]), 0xFFFFF9, [1, 2, 3, 4, 5, 6, 7], by decide +kernel⟩,
    ⟨(mk [fun m => { m with host.perst := false }, fun m => { m with host.hold := false }, fun m => m.setFlag R.DAM_STATUS_DAMMED false,
      fun m => m.setFld (R.TANK_OWN_CUR 63) 1, fun m => m.setReg R.TBIST_REMAP (63 + 62 * 2 ^ 8 + 2 ^ 14)]), 0xFFFFF8, [1, 2, 3, 4, 5, 6, 7, 8], 62, by decide +kernel⟩,
    ⟨(mk [fun m => { m with host.perst := false }, fun m => { m with host.hold := false }, fun m => m.setFlag R.DAM_STATUS_DAMMED false,
      fun m => m.setFld (R.TANK_OWN_CUR 63) 1]), 0xFFFFF9, [1, 2, 3, 4, 5, 6, 7], .double, 0x1FFFFF, by decide +kernel⟩,
    ⟨(mk [fun m => { m with host.perst := false }, fun m => { m with host.hold := false }, fun m => m.setFlag R.DAM_STATUS_DAMMED false]), 0xFFFF8, [1, 2, 3, 4, 5, 6, 7, 8],
      3, by decide +kernel⟩,
    ⟨(mk [fun m => { m with host.perst := false }, fun m => { m with host.hold := false }, fun m => m.setFlag R.DAM_STATUS_DAMMED false,
      fun m => m.setFld (R.TANK_OWN_CUR 63) 6]), 0xFFFFFF, 1, 63, by decide +kernel⟩,
    ⟨(mk [fun m => { m with host.perst := false }, fun m => { m with host.hold := false }, fun m => m.setFlag R.DAM_STATUS_DAMMED false,
      fun m => m.setFld (R.TANK_OWN_CUR 63) 5]), 0xFFFFFF, [none], 63, by decide +kernel⟩,
    ⟨(mk [fun m => { m with host.perst := false }, fun m => { m with host.hold := false }, fun m => m.setFlag R.DAM_STATUS_DAMMED true]), 0xFFFFFF, 1, by decide +kernel⟩,
    ⟨(mk [fun m => { m with host.perst := false }, fun m => { m with host.hold := false }, fun m => m.setFlag R.DAM_STATUS_DAMMED false]), 0xFFFFFF, 2, by decide +kernel⟩⟩

/-- The premises of every clause of RetentionAndTankTest can be met. -/
theorem witness_RetentionAndTankTest :
    (∃ (s : State) (port : Port) (v : Word), s.accepts port R.TANK_RETREQ v = true) ∧
    (∃ (s : State) (g : Fin 8), s.eng.running = true ∧ bitAt (s.eng.fld R.TANK_RETREQ_REQ) g = true ∧ s.eng.retained g = false ∧ s.eng.mayRetain g = true ∧
      s.eng.tank.waking.any (fun w => w.1 == g.val) = false ∧
      s.eng.tank.woken.all (fun w => w.1 != g.val || decide (w.2 + 600 * max 1 (s.eng.fld R.TANK_RETIDLE_US) ≤ s.eng.cc)) = true) ∧
    (∃ (s : State) (g : Fin 8), s.eng.running = true ∧
      (bitAt (s.eng.fld R.TANK_RETREQ_REQ) g = false ∨ s.eng.retained g = true ∨ s.eng.mayRetain g = false ∨ s.eng.tank.waking.any (fun w => w.1 == g.val) = true ∨ (s.eng.tank.woken.find? (fun w => w.1 == g.val)).any (fun w => decide (s.eng.cc < w.2 + 600 * max 1 (s.eng.fld R.TANK_RETIDLE_US))) = true)) ∧
    (∃ (s : State) (port : Port) (v : Word) (tk sp : Nat), s.accepts port R.TBIST_CTL (v ||| 0x10000) = true ∧ tk = bitsOf v.toNat 0 6 ∧ sp = bitsOf v.toNat 8 6 ∧
      s.eng.flag R.TBIST_STATUS_BUSY = false ∧ s.eng.owner sp = 0 ∧ s.eng.retained (sp / 8) = false ∧ s.eng.flag R.TBIST_REMAP_VALID = false ∧ tk ≠ sp ∧ 4 ≤ sp ∧
      (4 ≤ tk ∨ s.eng.owner tk < 2) ∧ s.eng.retained (tk / 8) = false) ∧
    (∃ (s : State) (port : Port) (v : Word), s.accepts port R.TBIST_CTL (v ||| 0x10000) = true ∧ s.eng.flag R.TBIST_STATUS_BUSY = true) ∧
    (∃ (s : State) (port : Port) (v : Word) (tk sp r : Nat), s.accepts port R.TBIST_CTL (v ||| 0x10000) = true ∧ tk = bitsOf v.toNat 0 6 ∧ sp = bitsOf v.toNat 8 6 ∧
      s.eng.flag R.TBIST_STATUS_BUSY = false ∧ r ≠ 0 ∧
      r = (if s.eng.owner sp ≠ 0 ∨ s.eng.retained (sp / 8) = true ∨ s.eng.flag R.TBIST_REMAP_VALID = true then 2 else if tk = sp ∨ sp < 4 then 3 else if tk < 4 ∧
      2 ≤ s.eng.owner tk then 4 else if s.eng.retained (tk / 8) = true then 5 else 0)) ∧
    (∃ (s : State) (tk sp : Nat), s.MemOk ∧ s.eng.running = true ∧ s.eng.flag R.TBIST_STATUS_BUSY = true ∧ s.eng.fld R.TBIST_STATUS_PHASE = 1 ∧ tk = s.eng.tank.testTank ∧
      sp = s.eng.tank.testSpare ∧ tk ≠ sp ∧ sp < 64) ∧
    (∃ (s : State), s.eng.running = true ∧ s.eng.flag R.TBIST_STATUS_BUSY = true ∧ s.eng.fld R.TBIST_STATUS_PHASE = 2) ∧
    (∃ (s : State) (tk sp : Nat), s.eng.running = true ∧ s.eng.flag R.TBIST_STATUS_BUSY = true ∧ s.eng.fld R.TBIST_STATUS_PHASE = 2 ∧ tk = s.eng.tank.testTank ∧
      sp = s.eng.tank.testSpare ∧ tk < 64 ∧ sp < 64) ∧
    (∃ (s : State) (sp : Nat), s.eng.running = true ∧ s.eng.flag R.TBIST_STATUS_BUSY = true ∧ s.eng.fld R.TBIST_STATUS_PHASE = 3 ∧ sp = s.eng.tank.testSpare ∧ sp < 64) ∧
    (∃ (s : State), s.eng.running = true ∧ s.eng.flag R.TBIST_STATUS_BUSY = false) :=
  ⟨⟨ready, .host, 0, by decide +kernel⟩,
    ⟨(mk [fun m => { m with running := true }, fun m => m.setFld R.TANK_RETREQ_REQ 128, fun m => forEach 8 (fun j m => m.setFld (R.TANK_OWN_CUR (56 + j)) 0) m]), 7,
      by decide +kernel⟩,
    ⟨(mk [fun m => { m with running := true }]), 7, by decide +kernel⟩,
    ⟨(mk [fun m => m.setFlag R.TBIST_STATUS_BUSY false, fun m => m.setFld (R.TANK_OWN_CUR (4 : Nat)) 0, fun m => m.setFlag R.TBIST_REMAP_VALID false,
      fun m => m.setFld (R.TANK_OWN_CUR 4) 0]), .host, 0x043F, 63, 4, by decide +kernel⟩,
    ⟨(mk [fun m => m.setFlag R.TBIST_STATUS_BUSY true]), .host, 0, by decide +kernel⟩,
    ⟨ready, .host, 0x0303, 3, 3, 3, by decide +kernel⟩,
    ⟨(mk [fun m => (m.setFlag R.TBIST_STATUS_BUSY true).setFld R.TBIST_STATUS_PHASE 1, fun m => { m with tank.testTank := 63, tank.testSpare := 62 },
      fun m => m.setWordError (32768 * 63 + 5) .double]), 63, 62, ⟨⟨by decide +kernel, by decide +kernel⟩, by decide +kernel⟩⟩,
    ⟨(mk [fun m => { m with running := true }, fun m => m.setFlag R.TBIST_STATUS_BUSY true, fun m => m.setFld R.TBIST_STATUS_PHASE 2]), by decide +kernel⟩,
    ⟨(mk [fun m => (m.setFlag R.TBIST_STATUS_BUSY true).setFld R.TBIST_STATUS_PHASE 2, fun m => { m with tank.testTank := 63, tank.testSpare := 62 }]), 63, 62,
      by decide +kernel⟩,
    ⟨(mk [fun m => { m with running := true }, fun m => m.setFlag R.TBIST_STATUS_BUSY true, fun m => m.setFld R.TBIST_STATUS_PHASE 3]), 0, by decide +kernel⟩,
    ⟨(mk [fun m => { m with running := true }, fun m => m.setFlag R.TBIST_STATUS_BUSY false]), by decide +kernel⟩⟩

/-- The premises of every clause of HostAccess can be met. -/
theorem witness_HostAccess :
    (∃ (s : State), (s.eng.host.perst = true ∨ s.eng.mgt.powered = false)) ∧
    (∃ (s : State), s.eng.host.perst = false ∧ s.eng.mgt.powered = true ∧ s.eng.host.ready = false) ∧
    (∃ (s : State) (f : Fin 8) (dw : Fin 1024), s.eng.host.perst = false ∧ s.eng.mgt.powered = true ∧ s.eng.host.ready = true ∧ s.eng.presented f = true ∧
      s.eng.lostFn f = false ∧ dw.val ≠ 0xC4) ∧
    (∃ (s : State) (dw : Fin 1024) (w : Word), s.eng.host.perst = false ∧ s.eng.mgt.powered = true ∧ s.eng.host.ready = true ∧ (dw.val, w) ∈ [(0, 0x4896C4D1), (2,
      0x11800001), (6, 0xC), (13, 0x40), (45, 0xD0800), (46, 0xD0C00), (192, 0x0001000B), (193, 0x01410001)]) ∧
    (∃ (s : State) (dw : Fin 1024) (be : BitVec 4) (v : Word), s.eng.host.perst = false ∧ s.eng.mgt.powered = true ∧ s.eng.host.ready = true ∧ [0x04, 0x44, 0x104, 0x10C,
      0x110, 0x308, 0x310].contains (4 * dw.val) = false ∧ 4 * dw.val = 0x78 → bitAt (v.toNat &&& beMask be) 15 = false) ∧
    (∃ (s : State) (dw : Fin 1024) (be : BitVec 4) (v : Word), s.eng.host.perst = false ∧ s.eng.mgt.powered = true ∧ s.eng.host.ready = true ∧
      (4 * dw.val = 0x04 ∨ (4 * dw.val = 0x44 ∧ (v.toNat &&& beMask be &&& 3 = 0 ∨ v.toNat &&& beMask be &&& 3 = 3)))) ∧
    (∃ (s : State) (be : BitVec 4) (v : Word), s.eng.host.perst = false ∧ s.eng.mgt.powered = true ∧ s.eng.host.ready = true ∧
      (v.toNat &&& beMask be &&& 3 = 1 ∨ v.toNat &&& beMask be &&& 3 = 2)) ∧
    (∃ (s : State) (dw : Fin 1024), s.eng.host.perst = false ∧ s.eng.mgt.powered = true ∧ s.eng.host.ready = true ∧ (4 * dw.val = 0x104 ∨ 4 * dw.val = 0x110)) ∧
    (∃ (s : State) (f : Fin 8), s.eng.host.perst = false ∧ s.eng.mgt.powered = true ∧ s.eng.host.ready = true ∧ s.eng.presented f = true ∧ s.eng.lostFn f = true) ∧
    (∃ (s : State) (f : Fin 8), s.eng.host.perst = false ∧ s.eng.mgt.powered = true ∧ s.eng.host.ready = true ∧ s.eng.host.hold = false ∧ s.eng.presented f = false) ∧
    (∃ (s : State) (off : BitVec 20) (v : Word), s.eng.host.perst = false ∧ s.eng.reachable = true ∧ s.eng.mse 0 = true ∧ s.eng.d3hot 0 = false ∧ s.eng.host.hold = false ∧
      s.accepts .host off.toNat v = true) ∧
    (∃ (s : State), s.eng.host.perst = false ∧ s.eng.reachable = true ∧ s.eng.mse 0 = true ∧ s.eng.d3hot 0 = false ∧ s.eng.host.hold = false ∧ s.eng.badParity = []) ∧
    (∃ (s : State) (off : BitVec 20), s.eng.host.perst = false ∧ s.eng.reachable = true ∧ s.eng.mse 0 = true ∧ s.eng.d3hot 0 = false ∧ s.eng.host.hold = false ∧
      off.toNat % 4 = 0 ∧ decodeReg off.toNat = none ∧ isDirWord off.toNat = false) ∧
    (∃ (s : State), s.eng.host.perst = false ∧ s.eng.mgt.powered = true ∧ s.eng.mse 0 = false ∧ s.eng.host.hold = false) ∧
    (∃ (s : State), s.eng.host.perst = false ∧ s.eng.mgt.powered = true ∧ s.eng.mse 0 = true ∧ s.eng.d3hot 0 = true ∧ s.eng.host.hold = false) ∧
    (∃ (s : State) (off : BitVec 20) (w : Option (List (Option Byte) × Bool)), s.eng.host.perst = false ∧ s.eng.mgt.powered = true ∧ s.eng.mse 0 = true ∧
      s.eng.d3hot 0 = false ∧ s.eng.host.hold = true ∧ (w.isNone = true ∨ off.toNat ≠ R.HOST_CTL)) ∧
    (∃ (s : State), s.eng.host.perst = false ∧ s.eng.reachable = true ∧ s.eng.mse 0 = true ∧ s.eng.d3hot 0 = false ∧ s.eng.host.hold = false) ∧
    (∃ (s : State) (off : BitVec 20) (n : Nat) (full : Bool) (w : Option (List (Option Byte) × Bool)), s.eng.host.perst = false ∧ s.eng.reachable = true ∧
      s.eng.mse 0 = true ∧ s.eng.d3hot 0 = false ∧ s.eng.host.hold = false ∧ w.all (fun x => !x.2) = true ∧
      bar0Size off.toNat (w.elim n (fun x => x.1.length)) (w.elim full (fun x => x.1.all (·.isSome))) = false) ∧
    (∃ (s : State) (k : OtherReq), s.eng.host.perst = false ∧ s.eng.mgt.powered = true ∧ s.eng.host.hold = false ∧ k ≠ .vendor1) ∧
    (∃ (s : State), s.eng.host.perst = false ∧ s.eng.mgt.powered = true) ∧
    (∃ (s : State) (w : Option (List (Option Byte) × Bool)), s.eng.host.perst = false ∧ s.eng.reachable = true ∧ s.eng.mse 0 = true ∧ s.eng.d3hot 0 = false ∧
      s.eng.host.hold = false ∧ s.eng.winClosed = true ∧ w.all (fun x => !x.2) = true) ∧
    (∃ (s : State) (off : BitVec 32) (n word : Nat) (w : Option (List (Option Byte) × Bool)), s.eng.host.perst = false ∧ s.eng.reachable = true ∧ s.eng.mse 0 = true ∧
      s.eng.d3hot 0 = false ∧ s.eng.host.hold = false ∧ s.eng.winClosed = false ∧ w.all (fun x => !x.2) = true ∧ 0 < w.elim n (fun x => x.1.length) ∧
      s.eng.winCause off.toNat w.isSome ≠ 0 ∧ word = bitsOf off.toNat 28 4 + s.eng.winCause off.toNat w.isSome * 2 ^ 4 + w.isSome.toNat * 2 ^ 7 + bitsOf off.toNat 8 20 * 2 ^ 8) ∧
    (∃ (s : State) (off : BitVec 32) (n a : Nat), s.eng.host.perst = false ∧ s.eng.reachable = true ∧ s.eng.mse 0 = true ∧ s.eng.d3hot 0 = false ∧ s.eng.host.hold = false ∧
      s.eng.winClosed = false ∧ 0 < n ∧ s.eng.winRefusal off.toNat n false = none ∧ a = s.eng.winBase (bitsOf off.toNat 28 4) + off.toNat % 2 ^ 28 ∧ a % 256 + n ≤ 256 ∧
      s.issues (s.eng.pcOf a) = true ∧ (s.eng.pc (s.eng.pcOf a)).rq.length < 32) ∧
    (∃ (s : State) (off : BitVec 32) (a : Nat), s.eng.host.perst = false ∧ s.eng.reachable = true ∧ s.eng.mse 0 = true ∧ s.eng.d3hot 0 = false ∧ s.eng.host.hold = false ∧
      s.eng.winClosed = false ∧ s.eng.winCause off.toNat true = 0 ∧ a = s.eng.winBase (bitsOf off.toNat 28 4) + off.toNat % 2 ^ 28 ∧ s.issues (s.eng.pcOf a) = true ∧
      (s.eng.pc (s.eng.pcOf a)).wq.length < 64) ∧
    (∃ (s : State) (off : BitVec 32) (a : Nat), s.eng.host.perst = false ∧ s.eng.reachable = true ∧ s.eng.mse 0 = true ∧ s.eng.d3hot 0 = false ∧ s.eng.host.hold = false ∧
      s.eng.winClosed = false ∧ s.eng.winCause off.toNat true = 0 ∧ a = s.eng.winBase (bitsOf off.toNat 28 4) + off.toNat % 2 ^ 28 ∧ s.eng.pcSt (s.eng.pcOf a) = 3) ∧
    (∃ (s : State) (port : Port) (v : Word), s.accepts port R.WIN_COMMIT v = true) ∧
    (∃ (s : State) (port : Port) (v : Word), s.accepts port R.WIN_COMMIT v = true ∧ (∀ w : Fin 16, s.eng.flag (R.WIN_CFG_LOCK w) = false ∧
      s.eng.flag (R.WIN_SH_CFG_LOCK w) = false)) ∧
    (∃ (s : State), s.eng.host.perst = false ∧ s.eng.mgt.powered = true ∧ s.eng.host.ready = true ∧ s.eng.badParity = [] ∧ s.eng.mgt.resetting = false ∧
      (s.eng.cfg 0 0x30C).toNat = R.TB_LOADVAL_LO) ∧
    (∃ (s : State) (v : Word), s.eng.host.perst = false ∧ s.eng.host.ready = true ∧ s.accepts .host R.TB_LOADVAL_LO v = true ∧ (s.eng.cfg 0 0x30C).toNat = R.TB_LOADVAL_LO) ∧
    (∃ (s : State) (a : Nat), s.eng.host.perst = false ∧ s.eng.mgt.powered = true ∧ s.eng.host.ready = true ∧ s.eng.host.hold = false ∧ s.eng.mgt.resetting = false ∧
      s.eng.dammed = false ∧ s.eng.lost = false ∧ a = (s.eng.cfg 0 0x30C).toNat % 0x100000 ∧ a % 4 = 0 ∧ decodeReg a = none ∧ isDirWord a = false) :=
  ⟨⟨(mk [fun m => { m with host.perst := true }]), by decide +kernel⟩,
    ⟨(mk [fun m => { m with host.perst := false }, fun m => { m with mgt.powered := true }, fun m => { m with host.ready := false }]), by decide +kernel⟩,
    ⟨(mk [fun m => { m with host.perst := false }, fun m => { m with host.ready := true }]), 0, 1023, by decide +kernel⟩,
    ⟨(mk [fun m => { m with host.perst := false }, fun m => { m with host.ready := true }]), 193, 0x01410001, by decide +kernel⟩,
    ⟨(mk [fun m => { m with host.perst := false }, fun m => { m with mgt.powered := true }, fun m => { m with host.ready := true }]), 1023, 5, 5, by decide +kernel⟩,
    ⟨(mk [fun m => { m with host.perst := false }, fun m => { m with host.ready := true }]), 17, 0xF, 3, by decide +kernel⟩,
    ⟨(mk [fun m => { m with host.perst := false }, fun m => { m with host.ready := true }]), 0xF, 2, by decide +kernel⟩,
    ⟨(mk [fun m => { m with host.perst := false }, fun m => { m with host.ready := true }]), 0x44, by decide +kernel⟩,
    ⟨(mk [fun m => { m with host.perst := false }, fun m => { m with host.ready := true }, fun m => (m.setFld R.RING_STATUS_ROLE 1).setFlag R.RING_STATUS_FUNNEL true,
      fun m => m.setFld R.RING_MEMBERS_FUNNEL_MAP 128, fun m => m.orReg R.HOST_TRIB_LOST 128]), 7, by decide +kernel⟩,
    ⟨(mk [fun m => { m with host.perst := false }, fun m => { m with host.ready := true }, fun m => { m with host.hold := false }]), 7, by decide +kernel⟩,
    ⟨(mk [fun m => { m with host.perst := false }, fun m => { m with host.hold := false }, fun m => { m with host.l1 := false }]), 0, 0, by decide +kernel⟩,
    ⟨(mk [fun m => { m with host.perst := false }, fun m => { m with host.hold := false }, fun m => { m with badParity := [] }]), by decide +kernel⟩,
    ⟨(mk [fun m => { m with host.perst := false }, fun m => { m with host.hold := false }]), 0xFFFFC, by decide +kernel⟩,
    ⟨(mk [fun m => { m with host.perst := false }, fun m => { m with mgt.powered := true }, fun m => { m with host.hold := false }, fun m => m.setCfg 0 4 0]),
      by decide +kernel⟩,
    ⟨(mk [fun m => { m with host.perst := false }, fun m => { m with host.hold := false }, fun m => m.setCfg 0 0x44 3]), by decide +kernel⟩,
    ⟨(mk [fun m => { m with host.perst := false }, fun m => { m with mgt.powered := true }, fun m => { m with host.hold := true }]), 5, none, by decide +kernel⟩,
    ⟨(mk [fun m => { m with host.perst := false }, fun m => { m with host.hold := false }]), by decide +kernel⟩,
    ⟨(mk [fun m => { m with host.perst := false }, fun m => { m with host.hold := false }]), 0xFFFFF, 1, true, none, by decide +kernel⟩,
    ⟨(mk [fun m => { m with host.perst := false }, fun m => { m with host.hold := false }]), .vendor0, by decide +kernel⟩,
    ⟨(mk [fun m => { m with host.perst := false }, fun m => { m with host.hold := false }]), by decide +kernel⟩,
    ⟨(mk [fun m => { m with host.perst := false }, fun m => { m with host.hold := false }, fun m => m.setFlag R.DAM_STATUS_DAMMED true]), (some ([none], false)),
      by decide +kernel⟩,
    ⟨(mk [fun m => { m with host.perst := false }, fun m => { m with host.hold := false }]), 0xF0000100, 1, 287, none, by decide +kernel⟩,
    ⟨(mk [fun m => { m with host.perst := false }, fun m => { m with host.hold := false }, fun m => m.setFlag R.DAM_STATUS_DAMMED false, fun m => { m with cis.waitW := [] },
      fun m => { m with cis.waitR := [] }, fun m => m.setFlag (R.WIN_CFG_EN 15) true, fun m => m.setFlag (R.WIN_CFG_WRITE 15) true,
      fun m => m.setFld (R.WIN_SIZE_PAGES 15) 65536]), 0xFFFFFF00, 256, 0xFFFFF00, by decide +kernel⟩,
    ⟨(mk [fun m => { m with host.perst := false }, fun m => { m with host.hold := false }, fun m => m.setFlag R.DAM_STATUS_DAMMED false, fun m => { m with cis.waitW := [] },
      fun m => { m with cis.waitR := [] }, fun m => m.setFlag (R.WIN_CFG_EN 15) true, fun m => m.setFlag (R.WIN_CFG_WRITE 15) true,
      fun m => m.setFld (R.WIN_SIZE_PAGES 15) 65536]), 0xFFFFFFFF, 0xFFFFFFF, by decide +kernel⟩,
    ⟨(mk [fun m => { m with host.perst := false }, fun m => { m with host.hold := false }, fun m => m.setFlag R.DAM_STATUS_DAMMED false, fun m => { m with cis.waitW := [] },
      fun m => { m with cis.waitR := [] }, fun m => m.setFlag (R.WIN_CFG_EN 15) true, fun m => m.setFlag (R.WIN_CFG_WRITE 15) true,
      fun m => m.setFld (R.WIN_SIZE_PAGES 15) 65536, fun m => m.setFld (R.CISP_PC_STATE_STATE (m.pcOf 0xFFFFFFF / 32) (m.pcOf 0xFFFFFFF % 32)) 3]), 0xFFFFFFFF, 0xFFFFFFF,
      by decide +kernel⟩,
    ⟨ready, .host, 0, by decide +kernel⟩,
    ⟨ready, .host, 0, by decide +kernel⟩,
    ⟨(mk [fun m => { m with host.perst := false }, fun m => { m with mgt.powered := true }, fun m => { m with host.ready := true }, fun m => { m with badParity := [] },
      fun m => m.setCfg 0 0x30C (BitVec.ofNat 32 R.TB_LOADVAL_LO), fun m => { m with mgt.resetting := false }]), by decide +kernel⟩,
    ⟨(mk [fun m => { m with host.perst := false }, fun m => { m with host.ready := true }, fun m => m.setCfg 0 0x30C (BitVec.ofNat 32 R.TB_LOADVAL_LO)]), 0,
      by decide +kernel⟩,
    ⟨(mk [fun m => { m with host.perst := false }, fun m => { m with host.ready := true }, fun m => { m with host.hold := false },
      fun m => (m.setCfg 0 0x30C 0xFFFFC).setFlag R.DAM_STATUS_DAMMED false]), 0xFFFFC, by decide +kernel⟩⟩

/-- The premises of every clause of Drains can be met. -/
theorem witness_Drains :
    (∃ (s : State) (port : Port) (d : Fin 4) (v : Word), s.accepts port (R.DRAIN_TAIL d) v = true) ∧
    (∃ (s : State) (d : Fin 4) (room : Nat), s.eng.running = true ∧ s.eng.host.drains.length = 4 ∧ s.eng.drainSt d = 1 ∧ (s.eng.drain d).pausing = false ∧
      s.eng.drainsMay = true ∧ (s.eng.drain d).fetched = [] ∧ (s.eng.drain d).working = none ∧ s.eng.drainHead d ≠ s.eng.drainTail d ∧
      s.eng.flag (R.DRAIN_CTL_RING_LOC d) = false ∧
      room = min (min 8 (s.eng.ringLen d - s.eng.drainHead d)) ((s.eng.drainTail d + s.eng.ringLen d - s.eng.drainHead d) % s.eng.ringLen d)) ∧
    (∃ (s : State) (d : Fin 4), s.eng.running = true ∧ s.eng.host.drains.length = 4 ∧ s.eng.drainSt d = 1 ∧ (s.eng.drain d).pausing = false ∧ s.eng.drainsMay = true ∧
      (s.eng.drain d).fetched = [] ∧ (s.eng.drain d).working = none ∧ s.eng.drainHead d ≠ s.eng.drainTail d ∧ s.eng.flag (R.DRAIN_CTL_RING_LOC d) = false) ∧
    (∃ (s : State) (d : Fin 4) (a : Nat), s.eng.running = true ∧ s.eng.host.drains.length = 4 ∧ s.eng.drainSt d = 1 ∧ (s.eng.drain d).pausing = false ∧
      s.eng.drainsMay = true ∧ (s.eng.drain d).fetched = [] ∧ (s.eng.drain d).working = none ∧ s.eng.drainHead d ≠ s.eng.drainTail d ∧
      s.eng.flag (R.DRAIN_CTL_RING_LOC d) = true ∧ a = ((s.eng.reg64 (R.DRAIN_RING_BASE_LO d)).toNat % 2 ^ 24 / 32 * 32 + 32 * s.eng.drainHead d) % 2 ^ 24 ∧
      s.eng.owner (a / tankSize) ≠ 4) ∧
    (∃ (s : State) (d : Fin 4) (room a : Nat), s.eng.running = true ∧ s.eng.host.drains.length = 4 ∧ s.eng.drainSt d = 1 ∧ (s.eng.drain d).pausing = false ∧
      s.eng.drainsMay = true ∧ (s.eng.drain d).fetched = [] ∧ (s.eng.drain d).working = none ∧ s.eng.drainHead d ≠ s.eng.drainTail d ∧
      s.eng.flag (R.DRAIN_CTL_RING_LOC d) = true ∧
      room = min (min 8 (s.eng.ringLen d - s.eng.drainHead d)) ((s.eng.drainTail d + s.eng.ringLen d - s.eng.drainHead d) % s.eng.ringLen d) ∧
      a = ((s.eng.reg64 (R.DRAIN_RING_BASE_LO d)).toNat % 2 ^ 24 / 32 * 32 + 32 * s.eng.drainHead d) % 2 ^ 24 ∧ s.eng.owner (a / tankSize) = 4 ∧ s.eng.tank.errs = []) ∧
    (∃ (s : State) (d : Fin 4) (a : Nat), s.eng.running = true ∧ s.eng.host.drains.length = 4 ∧ s.eng.drainSt d = 1 ∧ (s.eng.drain d).pausing = false ∧
      s.eng.drainsMay = true ∧ (s.eng.drain d).fetched = [] ∧ (s.eng.drain d).working = none ∧ s.eng.drainHead d ≠ s.eng.drainTail d ∧
      s.eng.flag (R.DRAIN_CTL_RING_LOC d) = true ∧ a = ((s.eng.reg64 (R.DRAIN_RING_BASE_LO d)).toNat % 2 ^ 24 / 32 * 32 + 32 * s.eng.drainHead d) % 2 ^ 24 ∧
      s.eng.owner (a / tankSize) = 4) ∧
    (∃ (s : State) (d : Fin 4), (s.eng.drainSt d ≠ 1 ∨ (s.eng.drain d).pausing = true ∨ s.eng.drainsMay = false ∨ ((s.eng.drain d).fetched = [] ∧
      (s.eng.drain d).working = none ∧ s.eng.drainHead d = s.eng.drainTail d))) ∧
    (∃ (s : State) (d : Fin 4) (i err p q : Nat) (l : List Byte) (rest : List (Nat × Nat × List Byte)), s.eng.running = true ∧ s.eng.host.drains.length = 4 ∧
      s.eng.drainSt d = 1 ∧ (s.eng.drain d).pausing = false ∧ s.eng.drainsMay = true ∧ (s.eng.drain d).working = none ∧ (s.eng.drain d).fetched = (i, err, l) :: rest ∧
      err = 0 ∧ s.eng.descBad (descOf l) = false ∧ q = (if (s.eng.drain d).resumed then min (s.eng.drain d).offset (descOf l).len else 0) ∧ q < (descOf l).len ∧
      p = s.eng.pcOf ((descOf l).src + q) ∧ s.issues p = true ∧ (s.eng.pc p).rq.length < 32) ∧
    (∃ (s : State) (d : Fin 4) (i err status : Nat) (l : List Byte) (rest : List (Nat × Nat × List Byte)), s.eng.running = true ∧ s.eng.host.drains.length = 4 ∧
      s.eng.drainSt d = 1 ∧ (s.eng.drain d).pausing = false ∧ s.eng.drainsMay = true ∧ (s.eng.drain d).working = none ∧ (s.eng.drain d).fetched = (i, err, l) :: rest ∧
      s.eng.toFlume = false ∧ ((err = 3 ∨ err = 4) ∧ status = err ∨ err = 0 ∧ status = 1 ∧ s.eng.descBad (descOf l) = true)) ∧
    (∃ (s : State) (d : Fin 4),
      (s.eng.drainSt d ≠ 1 ∨ (s.eng.drain d).fetched = [] ∨ (s.eng.drain d).pausing = true ∨ (s.eng.drain d).working.isSome = true ∨ s.eng.drainsMay = false)) ∧
    (∃ (s : State) (d : Fin 4) (i : Nat) (l bytes : List Byte), s.eng.running = true ∧ s.eng.host.drains.length = 4 ∧ s.eng.drainSt d = 1 ∧ (s.eng.drain d).pausing = false ∧
      s.eng.drainsMay = true ∧ s.eng.toFlume = false ∧ (∀ k : Fin 4, k ≠ d → (s.eng.drain k).working = none) ∧ (s.eng.drain d).working = some (i, l) ∧
      (s.eng.drain d).offset = 0 ∧ (s.eng.drain d).got = [(0, bytes)] ∧ bytes.length = (descOf l).len ∧ bytes ≠ [] ∧ bytes.length ≤ s.eng.mps ∧
      (descOf l).dst % 4096 + bytes.length ≤ 4096) ∧
    (∃ (s : State) (d : Fin 4) (i : Nat) (l : List Byte), s.eng.running = true ∧ s.eng.host.drains.length = 4 ∧ s.eng.drainSt d = 1 ∧ (s.eng.drain d).pausing = false ∧
      s.eng.drainsMay = true ∧ s.eng.toFlume = false ∧ (s.eng.drain d).working = some (i, l) ∧ (descOf l).len ≤ (s.eng.drain d).offset ∧ (descOf l).release = false ∧
      (s.eng.drain d).bad = false ∧ (s.eng.drain d).finishing = false) ∧
    (∃ (s : State) (d : Fin 4) (i : Nat) (l : List Byte), s.eng.running = true ∧ s.eng.host.drains.length = 4 ∧ s.eng.drainSt d = 1 ∧ (s.eng.drain d).pausing = false ∧
      s.eng.drainsMay = true ∧ s.eng.toFlume = false ∧ (s.eng.drain d).working = some (i, l) ∧ (descOf l).len ≤ (s.eng.drain d).offset ∧ (descOf l).release = false ∧
      (s.eng.drain d).bad = true ∧ (s.eng.drain d).finishing = false) ∧
    (∃ (s : State) (d : Fin 4) (i g : Nat) (l : List Byte), s.eng.running = true ∧ s.eng.host.drains.length = 4 ∧ s.eng.drainSt d = 1 ∧ (s.eng.drain d).pausing = false ∧
      s.eng.drainsMay = true ∧ s.eng.toFlume = false ∧ (s.eng.drain d).working = some (i, l) ∧ (descOf l).len ≤ (s.eng.drain d).offset ∧ (descOf l).release = true ∧
      g = (descOf l).seg ∧ s.eng.fld (R.SEG_STATUS_LOCK g) = 1 ∧ s.eng.fld (R.SEG_STATUS_STATE g) = 3 ∧ (s.eng.drain d).bad = false ∧ (s.eng.drain d).finishing = false) ∧
    (∃ (s : State) (d : Fin 4) (i : Nat) (l : List Byte), s.eng.running = true ∧ s.eng.host.drains.length = 4 ∧ s.eng.drainSt d = 1 ∧ (s.eng.drain d).pausing = false ∧
      s.eng.drainsMay = true ∧ s.eng.toFlume = false ∧ (s.eng.drain d).working = some (i, l) ∧ (descOf l).len ≤ (s.eng.drain d).offset ∧ (descOf l).release = false ∧
      (s.eng.drain d).bad = false ∧ (s.eng.drain d).finishing = true ∧ (i + 1) % s.eng.ringLen d ≠ s.eng.drainTail d) ∧
    (∃ (s : State) (d : Fin 4) (bad : Bool),
      (s.eng.drainSt d ≠ 1 ∨ (s.eng.drain d).working = none ∨ (s.eng.drain d).working.any (fun w => decide ((s.eng.drain d).offset < (descOf w.2).len)) = true ∨ (s.eng.drain d).pausing = true ∨ s.eng.drainsMay = false ∨ (s.eng.drain d).bad ≠ bad)) ∧
    (∃ (s : State) (d : Fin 4) (issued : BitVec 32), (s.eng.drainSt d ≠ 1 ∨ (s.eng.drain d).pausing = false ∨ BitVec.ofNat 32 (s.eng.drainPoint d).2 ≠ issued)) ∧
    (∃ (s : State) (d : Fin 4) (i q : Nat), s.eng.mgt.powered = true ∧ s.eng.host.drains.length = 4 ∧ s.eng.drainSt d = 1 ∧ (s.eng.drain d).pausing = true ∧
      i = ((s.eng.drain d).working.elim (s.eng.drainHead d) (fun w => w.1)) ∧
      q = (if (s.eng.drain d).working.isSome || (s.eng.drain d).resumed then (s.eng.drain d).offset else 0)) ∧
    (∃ (s : State) (port : Port) (v : Word), s.accepts port R.DRAIN_RESUME v = true ∧ s.eng.host.drains.length = 4) :=
  ⟨⟨(mk [fun m => m.setFld (R.DRAIN_TAIL_INDEX (3 : Fin 4)) 1]), .host, 3, 0, by decide +kernel⟩,
    ⟨(mk [fun m => m.setDrainSt 3 1, fun m => m.setFld (R.DRAIN_TAIL_INDEX 3) 1]), 3, 1, by decide +kernel⟩,
    ⟨(mk [fun m => m.setDrainSt 3 1, fun m => m.setFld (R.DRAIN_TAIL_INDEX 3) 1]), 3, by decide +kernel⟩,
    ⟨(mk [fun m => m.setDrainSt 3 1, fun m => m.setFld (R.DRAIN_TAIL_INDEX 3) 1, fun m => m.setFlag (R.DRAIN_CTL_RING_LOC 3) true]), 3, 0, by decide +kernel⟩,
    ⟨(mk [fun m => m.setDrainSt 3 1, fun m => m.setFld (R.DRAIN_TAIL_INDEX 3) 1, fun m => m.setFlag (R.DRAIN_CTL_RING_LOC 3) true, fun m => m.setFld (R.TANK_OWN_CUR 0) 4]),
      3, 1, 0, by decide +kernel⟩,
    ⟨(mk [fun m => m.setDrainSt 3 1, fun m => m.setFld (R.DRAIN_TAIL_INDEX 3) 1, fun m => m.setFlag (R.DRAIN_CTL_RING_LOC 3) true, fun m => m.setFld (R.TANK_OWN_CUR 0) 4]),
      3, 0, by decide +kernel⟩,
    ⟨ready, 3, by decide +kernel⟩,
    ⟨(mk [fun m => m.setDrainSt 3 1,
      fun m => m.setDrain 3 { m.drain 3 with fetched := [(0, 0, (List.replicate 5 0 ++ [47, 8, 0] ++ [0, 1, 0, 0] ++ List.replicate 20 0 : List Byte))] },
      fun m => m.setPc 0 (m.pc 0)]), 3, 0, 0, (ready.eng.pcOf 0), 0, (List.replicate 5 0 ++ [47, 8, 0] ++ [0, 1, 0, 0] ++ List.replicate 20 0 : List Byte), [],
      by decide +kernel⟩,
    ⟨(mk [fun m => m.setDrainSt 3 1, fun m => m.setDrain 3 { m.drain 3 with fetched := [(5, 3, [])] }]), 3, 5, 3, 3, [], [], by decide +kernel⟩,
    ⟨ready, 3, by decide +kernel⟩,
    ⟨(mk [fun m => m.setDrainSt 3 1,
      fun m => m.setDrain 3 { m.drain 3 with working := some (0, (List.replicate 8 0 ++ [0, 1, 0, 0] ++ List.replicate 20 0 : List Byte)), got := [(0, List.replicate 256 7)] },
      fun m => m.setCfg 0 0x78 0x20]), 3, 0, (List.replicate 8 0 ++ [0, 1, 0, 0] ++ List.replicate 20 0 : List Byte), (List.replicate 256 7), by decide +kernel⟩,
    ⟨(mk [fun m => m.setDrainSt 3 1,
      fun m => m.setDrain 3 { m.drain 3 with working := some (0, (List.replicate 5 0 ++ [47, 0, 0] ++ [0, 1, 0, 0] ++ List.replicate 20 0 : List Byte)), offset := 256 }]), 3,
      0, (List.replicate 5 0 ++ [47, 0, 0] ++ [0, 1, 0, 0] ++ List.replicate 20 0 : List Byte), by decide +kernel⟩,
    ⟨(mk [fun m => m.setDrainSt 3 1,
      fun m => m.setDrain 3 { m.drain 3 with working := some (0, (List.replicate 5 0 ++ [47, 0, 0] ++ [0, 1, 0, 0] ++ List.replicate 20 0 : List Byte)), offset := 256, bad := true }]),
      3, 0, (List.replicate 5 0 ++ [47, 0, 0] ++ [0, 1, 0, 0] ++ List.replicate 20 0 : List Byte), by decide +kernel⟩,
    ⟨(mk [fun m => m.setDrainSt 3 1,
      fun m => m.setDrain 3 { m.drain 3 with working := some (0, (List.replicate 5 0 ++ [47, 2, 0] ++ [0, 1, 0, 0] ++ List.replicate 20 0 : List Byte)), offset := 256 },
      fun m => (m.setFld (R.SEG_STATUS_LOCK 47) 1).setFld (R.SEG_STATUS_STATE 47) 3]), 3, 0, 47, (List.replicate 5 0 ++ [47, 2, 0] ++ [0, 1, 0,
      0] ++ List.replicate 20 0 : List Byte), by decide +kernel⟩,
    ⟨(mk [fun m => m.setDrainSt 3 1,
      fun m => m.setDrain 3 { m.drain 3 with working := some (0, (List.replicate 5 0 ++ [47, 0, 0] ++ [0, 1, 0, 0] ++ List.replicate 20 0 : List Byte)), offset := 256, finishing := true }]),
      3, 0, (List.replicate 5 0 ++ [47, 0, 0] ++ [0, 1, 0, 0] ++ List.replicate 20 0 : List Byte), by decide +kernel⟩,
    ⟨ready, 3, true, by decide +kernel⟩,
    ⟨ready, 3, 0, by decide +kernel⟩,
    ⟨(mk [fun m => m.setDrainSt 3 1,
      fun m => m.setDrain 3 { m.drain 3 with pausing := true, working := some (9, (List.replicate 5 0 ++ [47, 0, 0] ++ [0, 1, 0, 0] ++ List.replicate 20 0 : List Byte)), offset := 128 }]),
      3, 9, 128, by decide +kernel⟩,
    ⟨ready, .host, 0, by decide +kernel⟩⟩

/-- The premises of every clause of HostLinkStates can be met. -/
theorem witness_HostLinkStates :
    (∃ (s : State), s.eng.host.perst = false ∧ s.eng.mgt.powered = true) ∧
    (∃ (s : State), (s.eng.host.perst = true ∨ s.eng.mgt.powered = false)) ∧
    (∃ (s : State), s.eng.mgt.powered = true ∧ s.eng.host.l0 = true ∧ s.eng.host.l1 = false ∧ bitAt (s.eng.cfg 0 0x80).toNat 1 = true ∧ (∀ d : Fin 4, s.eng.drainSt d ≠ 1) ∧
      s.eng.hostWaits = false ∧ s.eng.cis.reads = [] ∧ s.eng.host.busyAt + 600 * s.eng.fld R.HOST_PMCTL_L1IDLE ≤ s.eng.cc) ∧
    (∃ (s : State), (s.eng.host.l0 = false ∨ s.eng.host.l1 = true ∨ bitAt (s.eng.cfg 0 0x80).toNat 1 = false ∨ (∃ d : Fin 4,
      s.eng.drainSt d = 1) ∨ s.eng.hostWaits = true ∨ s.eng.cis.reads ≠ [] ∨ s.eng.cc < s.eng.host.busyAt + 600 * s.eng.fld R.HOST_PMCTL_L1IDLE)) ∧
    (∃ (s : State), s.eng.mgt.powered = true ∧ s.eng.host.l1 = true) ∧
    (∃ (s : State), s.eng.host.l1 = false) ∧
    (∃ (s : State), s.eng.mgt.powered = true ∧ s.eng.host.perst = false ∧ s.eng.host.ready = true ∧ s.eng.host.drains.length = 4) ∧
    (∃ (s : State), (s.eng.host.perst = true ∨ s.eng.host.ready = false)) ∧
    (∃ (s : State) (v : Word), s.eng.mgt.powered = true ∧ s.eng.host.perst = false ∧ s.eng.host.ready = true ∧ s.eng.host.drains.length = 4 ∧ bitAt v.toNat 2 = false) ∧
    (∃ (s : State), s.eng.mgt.powered = true ∧ s.eng.host.l0 = true ∧ s.eng.host.perst = false ∧ s.eng.host.hold = false ∧ s.eng.host.drains.length = 4) ∧
    (∃ (s : State), s.eng.mgt.powered = true ∧ s.eng.host.l0 = true ∧ s.eng.host.perst = false ∧ s.eng.host.hold = true) ∧
    (∃ (s : State), (s.eng.host.l0 = false ∨ s.eng.host.perst = true)) ∧
    (∃ (s : State), s.eng.mgt.powered = true ∧ s.eng.host.perst = false ∧ s.eng.host.hold = false ∧ s.eng.host.drains.length = 4) ∧
    (∃ (s : State), (s.eng.host.hold = true ∨ s.eng.host.perst = true)) ∧
    (∃ (s : State) (port : Port), s.accepts port R.HOST_CTL 1 = true ∧ s.eng.host.hold = true) ∧
    (∃ (s : State) (port : Port), s.accepts port R.HOST_CTL 1 = true ∧ s.eng.host.hold = false) ∧
    (∃ (s : State), s.eng.host.hold = false) ∧
    (∃ (s : State), s.eng.mgt.powered = true ∧ s.eng.host.hold = true) ∧
    (∃ (s : State) (set : Nat), s.eng.mgt.powered = true ∧ s.eng.host.funnelPend = true ∧ s.eng.host.ready = true ∧ s.eng.host.funnelSet = some set ∧ s.eng.role = 1 ∧
      s.eng.flag R.RING_CTL_FUNNEL = true) ∧
    (∃ (s : State), s.eng.mgt.powered = true ∧ s.eng.host.funnelPend = true ∧ s.eng.host.ready = true ∧ (s.eng.role ≠ 1 ∨ s.eng.flag R.RING_CTL_FUNNEL = false)) ∧
    (∃ (s : State), (s.eng.host.funnelPend = false ∨ s.eng.host.ready = false)) :=
  ⟨⟨(mk [fun m => { m with host.perst := false }, fun m => { m with mgt.powered := true }]), by decide +kernel⟩,
    ⟨(mk [fun m => { m with host.perst := true }]), by decide +kernel⟩,
    ⟨(mk [fun m => { m with mgt.powered := true }, fun m => { m with host.l0 := true }, fun m => { m with host.l1 := false }, fun m => { m with cis.reads := [] },
      fun m => { m with cc := 1000000 }, fun m => m.setCfg 0 0x80 2]), by decide +kernel⟩,
    ⟨ready, by decide +kernel⟩,
    ⟨(mk [fun m => { m with mgt.powered := true }, fun m => { m with host.l1 := true }]), by decide +kernel⟩,
    ⟨(mk [fun m => { m with host.l1 := false }]), by decide +kernel⟩,
    ⟨(mk [fun m => { m with mgt.powered := true }, fun m => { m with host.perst := false }, fun m => { m with host.ready := true }]), by decide +kernel⟩,
    ⟨(mk [fun m => { m with host.ready := false }]), by decide +kernel⟩,
    ⟨(mk [fun m => { m with mgt.powered := true }, fun m => { m with host.perst := false }, fun m => { m with host.ready := true }]), 0, by decide +kernel⟩,
    ⟨(mk [fun m => { m with mgt.powered := true }, fun m => { m with host.l0 := true }, fun m => { m with host.perst := false }, fun m => { m with host.hold := false }]),
      by decide +kernel⟩,
    ⟨(mk [fun m => { m with host.perst := false, host.ready := true, host.hold := true, host.l0 := true }]), by decide +kernel⟩,
    ⟨(mk [fun m => { m with host.l0 := false }]), by decide +kernel⟩,
    ⟨(mk [fun m => { m with mgt.powered := true }, fun m => { m with host.perst := false }, fun m => { m with host.hold := false }]), by decide +kernel⟩,
    ⟨(mk [fun m => { m with host.hold := true }]), by decide +kernel⟩,
    ⟨(mk [fun m => { m with host.hold := true }]), .host, by decide +kernel⟩,
    ⟨ready, .host, by decide +kernel⟩,
    ⟨ready, by decide +kernel⟩,
    ⟨(mk [fun m => { m with mgt.powered := true }, fun m => { m with host.hold := true }]), by decide +kernel⟩,
    ⟨(mk [fun m => { m with mgt.powered := true }, fun m => { m with host.funnelPend := true }, fun m => m.setFld R.RING_STATUS_ROLE 1,
      fun m => m.setFlag R.RING_CTL_FUNNEL true, fun m => { m with host.ready := true, host.funnelSet := some 129 }]), 129, by decide +kernel⟩,
    ⟨(mk [fun m => { m with mgt.powered := true }, fun m => { m with host.funnelPend := true }, fun m => { m with host.ready := true }]), by decide +kernel⟩,
    ⟨(mk [fun m => { m with host.funnelPend := false }]), by decide +kernel⟩⟩

/-- The premises of every clause of DisplayLinks can be met. -/
theorem witness_DisplayLinks :
    (∃ (s : State) (o : Fin 2) (port : Port) (v : Word), s.accepts port (R.DISP_LINKCFG o) (v ||| 0x100) = true ∧ s.eng.disp.length = 2) ∧
    (∃ (s : State) (o : Fin 2), s.eng.running = true ∧ s.eng.disp.length = 2 ∧ s.eng.flag (R.DISP_STATUS_HPD o) = true ∧ s.eng.flag (R.DISP_LINKCFG_AUTO o) = true ∧
      (s.eng.dsp o).training = false) ∧
    (∃ (s : State) (o : Fin 2), (s.eng.flag (R.DISP_STATUS_HPD o) = false ∨ s.eng.flag (R.DISP_LINKCFG_AUTO o) = false ∨ (s.eng.dsp o).training = true)) ∧
    (∃ (s : State) (o : Fin 2) (rate : Fin 4) (lanes : Fin 5), s.eng.running = true ∧ s.eng.disp.length = 2 ∧ (s.eng.dsp o).training = true ∧
      s.eng.mayReach o rate lanes = true) ∧
    (∃ (s : State) (o : Fin 2) (reached : Option (Fin 4 × Fin 5)), s.eng.running = true ∧ s.eng.disp.length = 2 ∧ (s.eng.dsp o).training = true ∧
      reached.any (fun x => s.eng.mayReach o x.1 x.2) = false) ∧
    (∃ (s : State) (o : Fin 2), (s.eng.dsp o).training = false) ∧
    (∃ (s : State) (o : Fin 2), s.eng.running = true ∧ s.eng.flag (R.DISP_STATUS_HPD o) = true) ∧
    (∃ (s : State) (o : Fin 2), s.eng.flag (R.DISP_STATUS_HPD o) = false) ∧
    (∃ (s : State) (o : Fin 2), s.eng.running = true ∧ s.eng.disp.length = 2 ∧ s.eng.flag (R.DISP_STATUS_HPD o) = false) ∧
    (∃ (s : State) (o : Fin 2), s.eng.flag (R.DISP_STATUS_HPD o) = true) ∧
    (∃ (s : State) (o : Fin 2), s.eng.running = true ∧ s.eng.flag (R.DISP_STATUS_HPD o) = true) ∧
    (∃ (s : State) (o : Fin 2) (port : Port) (v : Word), s.accepts port (R.DISP_AUXCTL o) (v ||| 0x10000) = true ∧ s.eng.disp.length = 2 ∧
      s.eng.flag (R.DISP_AUXSTAT_BUSY o) = false ∧ s.eng.flag (R.DISP_STATUS_HPD o) = true) ∧
    (∃ (s : State) (o : Fin 2) (port : Port) (v : Word), s.accepts port (R.DISP_AUXCTL o) (v ||| 0x10000) = true ∧ s.eng.disp.length = 2 ∧
      s.eng.flag (R.DISP_AUXSTAT_BUSY o) = false ∧ s.eng.flag (R.DISP_STATUS_HPD o) = false) ∧
    (∃ (s : State) (o : Fin 2) (port : Port) (v : Word), s.accepts port (R.DISP_AUXCTL o) (v ||| 0x10000) = true ∧ s.eng.flag (R.DISP_AUXSTAT_BUSY o) = true) ∧
    (∃ (s : State) (o : Fin 2) (reply : Fin 16) (t0 : Nat), s.eng.running = true ∧ s.eng.disp.length = 2 ∧ s.eng.flag (R.DISP_AUXSTAT_BUSY o) = true ∧
      (s.eng.dsp o).auxSince = some t0 ∧ (reply.val % 4 = 2 ∨ reply.val / 4 = 2) ∧ (s.eng.dsp o).auxTries < bitsOf (s.eng.dsp o).auxWord.toNat 20 4) ∧
    (∃ (s : State) (o : Fin 2) (reply : Fin 16) (t0 : Nat), s.eng.running = true ∧ s.eng.disp.length = 2 ∧ s.eng.flag (R.DISP_AUXSTAT_BUSY o) = true ∧
      (s.eng.dsp o).auxSince = some t0 ∧ (reply.val % 4 = 2 ∨ reply.val / 4 = 2) ∧ bitsOf (s.eng.dsp o).auxWord.toNat 20 4 ≤ (s.eng.dsp o).auxTries) ∧
    (∃ (s : State) (o : Fin 2) (data : List Byte) (t0 : Nat), s.eng.running = true ∧ s.eng.disp.length = 2 ∧ s.eng.flag (R.DISP_AUXSTAT_BUSY o) = true ∧
      (s.eng.dsp o).auxSince = some t0 ∧ bitAt (s.eng.dsp o).auxWord.toNat 0 = true ∧ data.length ≤ bitsOf (s.eng.dsp o).auxWord.toNat 8 4 + 1) ∧
    (∃ (s : State) (o : Fin 2) (t0 : Nat), s.eng.running = true ∧ s.eng.disp.length = 2 ∧ s.eng.flag (R.DISP_AUXSTAT_BUSY o) = true ∧ (s.eng.dsp o).auxSince = some t0 ∧
      bitAt (s.eng.dsp o).auxWord.toNat 0 = false) ∧
    (∃ (s : State) (o : Fin 2) (reply : Fin 16) (b : Byte) (t0 : Nat), s.eng.running = true ∧ s.eng.disp.length = 2 ∧ s.eng.flag (R.DISP_AUXSTAT_BUSY o) = true ∧
      (s.eng.dsp o).auxSince = some t0 ∧ (reply.val = 1 ∨ reply.val = 4) ∧ bitAt (s.eng.dsp o).auxWord.toNat 0 = false ∧ b.toNat < 17) ∧
    (∃ (s : State) (o : Fin 2), (s.eng.flag (R.DISP_AUXSTAT_BUSY o) = false ∨ (s.eng.dsp o).auxSince = none)) ∧
    (∃ (s : State) (o : Fin 2) (t0 : Nat), s.eng.running = true ∧ s.eng.disp.length = 2 ∧ (s.eng.dsp o).auxSince = some t0 ∧ t0 + 240000 ≤ s.eng.cc) ∧
    (∃ (s : State) (o : Fin 2), (s.eng.dsp o).auxSince.all (fun x => decide (s.eng.cc < x + 240000)) = true) :=
  ⟨⟨ready, 1, .host, 0, by decide +kernel⟩,
    ⟨(mk [fun m => { m with running := true }, fun m => m.setFlag (R.DISP_STATUS_HPD (1 : Fin 2)) true, fun m => m.setFlag (R.DISP_LINKCFG_AUTO (1 : Fin 2)) true,
      fun m => m.setDsp (1 : Fin 2) { m.dsp (1 : Fin 2) with training := false }]), 1, by decide +kernel⟩,
    ⟨ready, 1, by decide +kernel⟩,
    ⟨(mk [fun m => { m with running := true }, fun m => m.setDsp (1 : Fin 2) { m.dsp (1 : Fin 2) with training := true }]), 1, 3, 4, by decide +kernel⟩,
    ⟨(mk [fun m => { m with running := true }, fun m => m.setDsp (1 : Fin 2) { m.dsp (1 : Fin 2) with training := true }]), 1, (some (3, 3)), by decide +kernel⟩,
    ⟨ready, 1, by decide +kernel⟩,
    ⟨(mk [fun m => m.setFlag (R.DISP_STATUS_HPD 1) true]), 1, by decide +kernel⟩,
    ⟨(mk [fun m => m.setFlag (R.DISP_STATUS_HPD 1) false]), 1, by decide +kernel⟩,
    ⟨(mk [fun m => (m.setFlag (R.DISP_STATUS_HPD 1) false).setFlag (R.DISP_LINKCFG_AUTO 1) true]), 1, by decide +kernel⟩,
    ⟨(mk [fun m => m.setFlag (R.DISP_STATUS_HPD 1) true]), 1, by decide +kernel⟩,
    ⟨(mk [fun m => m.setFlag (R.DISP_STATUS_HPD 1) true]), 1, by decide +kernel⟩,
    ⟨(mk [fun m => (m.setFlag (R.DISP_STATUS_HPD 1) true).setFlag (R.DISP_AUXSTAT_BUSY 1) false]), 1, .host, 0xF00F0F, by decide +kernel⟩,
    ⟨(mk [fun m => (m.setFlag (R.DISP_STATUS_HPD 1) false).setFlag (R.DISP_AUXSTAT_BUSY 1) false]), 1, .host, 0, by decide +kernel⟩,
    ⟨(mk [fun m => m.setFlag (R.DISP_AUXSTAT_BUSY 1) true]), 1, .host, 0, by decide +kernel⟩,
    ⟨(mk [fun m => m.setFlag (R.DISP_AUXSTAT_BUSY 1) true, fun m => m.setDsp 1 { m.dsp 1 with auxSince := some 0, auxWord := 0x100000 }]), 1, 2, 0, by decide +kernel⟩,
    ⟨(mk [fun m => m.setFlag (R.DISP_AUXSTAT_BUSY 1) true, fun m => m.setDsp 1 { m.dsp 1 with auxSince := some 0, auxWord := 0x100000, auxTries := 1 }]), 1, 8, 0,
      by decide +kernel⟩,
    ⟨(mk [fun m => m.setFlag (R.DISP_AUXSTAT_BUSY 1) true, fun m => m.setDsp 1 { m.dsp 1 with auxSince := some 0, auxWord := 0xF01 }]), 1, [1, 2, 3, 4, 5], 0,
      by decide +kernel⟩,
    ⟨(mk [fun m => m.setFlag (R.DISP_AUXSTAT_BUSY 1) true, fun m => m.setDsp 1 { m.dsp 1 with auxSince := some 0, auxWord := 0xF00 }]), 1, 0, by decide +kernel⟩,
    ⟨(mk [fun m => m.setFlag (R.DISP_AUXSTAT_BUSY 1) true, fun m => m.setDsp 1 { m.dsp 1 with auxSince := some 0, auxWord := 0xF00 }]), 1, 1, 16, 0, by decide +kernel⟩,
    ⟨(mk [fun m => m.setFlag (R.DISP_AUXSTAT_BUSY 1) true]), 1, by decide +kernel⟩,
    ⟨(mk [fun m => m.setDsp 1 { m.dsp 1 with auxSince := some 0 }, fun m => { m with cc := 240000 }]), 1, 0, by decide +kernel⟩,
    ⟨ready, 1, by decide +kernel⟩⟩

/-- The premises of every clause of DisplayFrames can be met. -/
theorem witness_DisplayFrames :
    (∃ (s : State) (o : Fin 2) (port : Port) (v : Word), s.accepts port (R.DISP_CTL o) v = true ∧ s.eng.disp.length = 2 ∧ bitAt v.toNat 0 = true ∧
      (s.eng.dsp o).running = false ∧ (o.val = 0 ∨ bitAt v.toNat 1 = false) ∧ s.eng.timingRej o = 0 ∧ s.eng.frameRej o (timingOf (s.eng.shadowTiming o)) = false) ∧
    (∃ (s : State) (o : Fin 2) (port : Port) (v : Word), s.accepts port (R.DISP_CTL o) v = true ∧ s.eng.disp.length = 2 ∧ bitAt v.toNat 0 = true ∧
      (s.eng.dsp o).running = false ∧ (o.val = 0 ∨ bitAt v.toNat 1 = false) ∧ (s.eng.timingRej o ≠ 0 ∨ s.eng.frameRej o (timingOf (s.eng.shadowTiming o)) = true)) ∧
    (∃ (s : State) (o : Fin 2) (port : Port) (v : Word), s.accepts port (R.DISP_CTL o) v = true ∧ s.eng.disp.length = 2 ∧ bitAt v.toNat 0 = false) ∧
    (∃ (s : State) (port : Port) (v : Word), s.accepts port (R.DISP_CTL 1) v = true ∧ s.eng.disp.length = 2 ∧ bitAt v.toNat 0 = true ∧ bitAt v.toNat 1 = true ∧
      (s.eng.dsp 1).running = false) ∧
    (∃ (s : State) (o : Fin 2) (port : Port) (v : Word), s.accepts port (R.DISP_CTL o) v = true ∧ bitAt v.toNat 0 = true ∧ (s.eng.dsp o).running = true) ∧
    (∃ (s : State) (o : Fin 2) (port : Port), s.accepts port (0xE001C + 0x1000 * o) 1 = true ∧ (o.val = 0 ∨ (s.eng.dsp 1).cloning = false)) ∧
    (∃ (s : State) (o : Fin 2) (port : Port), s.accepts port (0xE001C + 0x1000 * o) 2 = true ∧ (o.val = 0 ∨ (s.eng.dsp 1).cloning = false)) ∧
    (∃ (s : State) (port : Port), s.accepts port 0xE101C 1 = true ∧ (s.eng.dsp 1).cloning = true) ∧
    (∃ (s : State) (port : Port), s.accepts port 0xE101C 2 = true ∧ (s.eng.dsp 1).cloning = true) ∧
    (∃ (s : State) (o : Fin 2), s.eng.disp.length = 2 ∧ s.eng.dispDue o 1 = true ∧ s.eng.rota.queue = [] ∧ (s.eng.dsp o).rotaFlip = none ∧
      (o.val = 1 ∨ s.eng.cis.opWait = false) ∧ s.eng.commitBit o 0 = true ∧ s.eng.commitBit o 1 = false ∧ s.eng.timingRej o = 0) ∧
    (∃ (s : State) (o : Fin 2), s.eng.disp.length = 2 ∧ s.eng.dispDue o 1 = true ∧ s.eng.rota.queue = [] ∧ (s.eng.dsp o).rotaFlip = none ∧
      (o.val = 1 ∨ s.eng.cis.opWait = false) ∧ s.eng.commitBit o 0 = true ∧ s.eng.commitBit o 1 = false ∧ s.eng.timingRej o ≠ 0) ∧
    (∃ (s : State) (o : Fin 2), s.eng.disp.length = 2 ∧ s.eng.dispDue o 1 = true ∧ s.eng.rota.queue = [] ∧ (s.eng.dsp o).rotaFlip = none ∧ (s.eng.dsp o).newTiming = none ∧
      (o.val = 1 ∨ s.eng.cis.opWait = false) ∧ s.eng.commitBit o 0 = false ∧ s.eng.commitBit o 1 = true ∧ s.eng.settled = false ∧ s.eng.frameRej o (s.eng.curTiming o) = false) ∧
    (∃ (s : State) (o : Fin 2), s.eng.disp.length = 2 ∧ s.eng.dispDue o 1 = true ∧ s.eng.rota.queue = [] ∧ (s.eng.dsp o).rotaFlip = none ∧ (s.eng.dsp o).newTiming = none ∧
      (o.val = 1 ∨ s.eng.cis.opWait = false) ∧ s.eng.commitBit o 0 = false ∧ s.eng.commitBit o 1 = true ∧ s.eng.settled = false ∧ s.eng.frameRej o (s.eng.curTiming o) = true) ∧
    (∃ (s : State) (o : Fin 2), s.eng.disp.length = 2 ∧ s.eng.dispDue o 1 = true ∧ s.eng.rota.queue = [] ∧ (s.eng.dsp o).rotaFlip = none ∧
      (o.val = 1 ∨ s.eng.cis.opWait = false) ∧ s.eng.commitBit o 0 = false ∧ s.eng.settled = true) ∧
    (∃ (s : State) (o : Fin 2) (tb : Tb), s.eng.disp.length = 2 ∧ s.eng.dispDue o 1 = true ∧ s.eng.rota.queue = [] ∧ (s.eng.dsp o).rotaFlip = some tb ∧
      tb ≤ s.eng.tbOfTick (s.eng.dispInstant o) ∧ (s.eng.dsp o).newTiming = none ∧ (o.val = 1 ∨ s.eng.cis.opWait = false) ∧ s.eng.commitBit o 0 = false ∧
      s.eng.settled = false ∧ s.eng.frameRej o (s.eng.curTiming o) = false) ∧
    (∃ (s : State) (o : Fin 2), s.eng.disp.length = 2 ∧ s.eng.dispDue o 1 = true ∧ s.eng.rota.queue = [] ∧ (s.eng.dsp o).rotaFlip = none ∧
      (o.val = 1 ∨ s.eng.cis.opWait = false) ∧ s.eng.commitBit o 0 = false ∧ s.eng.commitBit o 1 = false) ∧
    (∃ (k : Fin 256), 12 ≤ k.val) ∧
    (∃ (s : State) (op : Nat) (vb : Bool), s.eng.disp.length = 2 ∧ s.eng.dispDue 0 1 = true ∧ s.eng.rota.queue = [] ∧ (s.eng.dsp 0).rotaFlip = none ∧
      s.eng.commitBit 0 0 = false ∧ s.eng.commitBit 0 1 = false ∧ s.eng.cis.opReq = some (op, vb) ∧ s.eng.cis.opWait = true ∧ s.eng.cisServes = true) ∧
    (∃ (s : State) (o : Fin 2), s.eng.disp.length = 2 ∧ s.eng.dispDue o 2 = true ∧ s.eng.mayStretch o = true ∧ s.eng.fld (R.DISP_STATIC_FRAMES o) ≤ (s.eng.dsp o).still ∧
      (s.eng.dsp o).newTiming = none ∧ (s.eng.curTiming o).vt + (s.eng.dsp o).added < s.eng.fld (R.DISP_STATIC_VTMAX o) ∧ s.eng.rota.queue = [] ∧
      (s.eng.dsp o).rotaFlip = none ∧ s.eng.commitBit o 0 = false ∧ s.eng.commitBit o 1 = false) ∧
    (∃ (s : State) (o : Fin 2), s.eng.dispDue o 1 = false ∧ (s.eng.dispDue o 2 = false ∨ s.eng.mayStretch o = false)) ∧
    (∃ (s : State) (o : Fin 2), s.eng.disp.length = 2 ∧ (s.eng.dispDue o 0 = true ∨ s.eng.dispDue o 4 = true) ∧ (s.eng.dsp 1).cloning = false ∧
      (s.eng.dsp o).newTiming = none) ∧
    (∃ (s : State) (o : Fin 2) (w0 w1 w2 w3 w4 : Word), s.eng.disp.length = 2 ∧ (s.eng.dispDue o 0 = true ∨ s.eng.dispDue o 4 = true) ∧ (s.eng.dsp 1).cloning = false ∧
      (s.eng.dsp o).newTiming = some [w0, w1, w2, w3, w4]) ∧
    (∃ (s : State), s.eng.disp.length = 2 ∧ (s.eng.dispDue 0 0 = true ∨ s.eng.dispDue 0 4 = true) ∧ (s.eng.dsp 1).running = true ∧ (s.eng.dsp 1).cloning = true ∧
      (s.eng.dsp 0).newTiming = none) ∧
    (∃ (s : State) (o : Fin 2), s.eng.dispDue o 0 = false ∧ s.eng.dispDue o 4 = false) ∧
    (∃ (s : State) (o : Fin 2), s.eng.disp.length = 2 ∧ s.eng.dispDue o 2 = true ∧ s.eng.mayStretch o = false ∧ (s.eng.dsp 1).cloning = false) ∧
    (∃ (s : State) (o : Fin 2), s.eng.dispDue o 2 = false) ∧
    (∃ (s : State) (o : Fin 2), s.eng.disp.length = 2 ∧ s.eng.dispDue o 3 = true ∧ (s.eng.dsp 1).cloning = false ∧ (s.eng.dsp o).flipPending = true) ∧
    (∃ (s : State) (o : Fin 2), s.eng.disp.length = 2 ∧ s.eng.dispDue o 3 = true ∧ (s.eng.dsp o).flipPending = false) ∧
    (∃ (s : State) (o : Fin 2), s.eng.dispDue o 3 = false) ∧
    (∃ (s : State) (o : Fin 2) (a : Nat), s.eng.disp.length = 2 ∧ s.eng.running = true ∧ (s.eng.dsp o).running = true ∧ (s.eng.dsp o).cloning = false ∧
      (s.eng.dsp o).stage = 4 ∧ (s.eng.dsp o).bgNext = false ∧ s.eng.settled = false ∧ (s.eng.dsp o).fetched < s.eng.lineBlocks o * (s.eng.curTiming o).vact ∧
      (s.eng.dsp o).fill + (s.eng.dsp o).ahead + 256 ≤ 131072 ∧
      a = (s.eng.reg64 (R.DISP_CUR_FB_BASE_LO o)).toNat / 256 % 2 ^ 32 * 256 + 256 * s.eng.fld (R.DISP_CUR_FBCFG_STRIDE o) * ((s.eng.dsp o).fetched / s.eng.lineBlocks o) + 256 * ((s.eng.dsp o).fetched % s.eng.lineBlocks o) ∧
      s.issues (s.eng.pcOf a) = true ∧ (s.eng.pc (s.eng.pcOf a)).rq.length < 32) ∧
    (∃ (s : State) (o : Fin 2),
      ((s.eng.dsp o).running = false ∨ (s.eng.dsp o).cloning = true ∨ s.eng.settled = true ∨ s.eng.lineBlocks o * (s.eng.curTiming o).vact ≤ (s.eng.dsp o).fetched ∨ s.eng.cisServes = false)) ∧
    (∃ (s : State) (o : Fin 2), s.eng.disp.length = 2 ∧ s.eng.underrunDue o = true ∧ (s.eng.dsp 1).cloning = false) ∧
    (∃ (s : State) (o : Fin 2), s.eng.underrunDue o = false) :=
  ⟨⟨(mk [fun m => m.setDsp (1 : Fin 2) { m.dsp (1 : Fin 2) with running := false }, fun m => vt m (1 : Fin 2), fun m => vs m (1 : Fin 2),
      fun m => m.setReg (R.DISP_FBCFG (1 : Fin 2)) 0x00000100#32, fun m => m.setReg64 (R.DISP_FB_BASE_LO (1 : Fin 2)) 0, fun m => m.setFld R.CIS_DISP_BASE_PACKS 0,
      fun m => m.setFld R.CIS_DISP_SIZE_PACKS 64]), 1, .host, 1, by decide +kernel⟩,
    ⟨(mk [fun m => m.setDsp (1 : Fin 2) { m.dsp (1 : Fin 2) with running := false }]), 1, .host, 1, by decide +kernel⟩,
    ⟨ready, 1, .host, 0, by decide +kernel⟩,
    ⟨(mk [fun m => m.setDsp 1 { m.dsp 1 with running := false }]), .host, 3, by decide +kernel⟩,
    ⟨(mk [fun m => m.setDsp 1 { m.dsp 1 with running := true }]), 1, .host, 1, by decide +kernel⟩,
    ⟨ready, 1, .host, by decide +kernel⟩,
    ⟨ready, 1, .host, by decide +kernel⟩,
    ⟨(mk [fun m => m.setDsp 1 { m.dsp 1 with cloning := true }]), .host, by decide +kernel⟩,
    ⟨(mk [fun m => m.setDsp 1 { m.dsp 1 with cloning := true }]), .host, by decide +kernel⟩,
    ⟨(mk [fun m => m.setDsp (1 : Fin 2) { m.dsp (1 : Fin 2) with running := true, cloning := false, stage := 1 }, fun m => { m with rota.queue := [] },
      fun m => m.setDsp (1 : Fin 2) { m.dsp (1 : Fin 2) with rotaFlip := none }, fun m => m.orReg (dispPage (1 : Fin 2) * 0x1000 + 0x1C) 1, fun m => vt m (1 : Fin 2),
      fun m => vs m (1 : Fin 2), fun m => m.setReg (R.DISP_FBCFG (1 : Fin 2)) 0x00000100#32, fun m => m.setReg64 (R.DISP_FB_BASE_LO (1 : Fin 2)) 0,
      fun m => m.setFld R.CIS_DISP_BASE_PACKS 0, fun m => m.setFld R.CIS_DISP_SIZE_PACKS 64]), 1, by decide +kernel⟩,
    ⟨(mk [fun m => m.setDsp (1 : Fin 2) { m.dsp (1 : Fin 2) with running := true, cloning := false, stage := 1 }, fun m => { m with rota.queue := [] },
      fun m => m.setDsp (1 : Fin 2) { m.dsp (1 : Fin 2) with rotaFlip := none }, fun m => m.orReg (dispPage (1 : Fin 2) * 0x1000 + 0x1C) 1, fun m => vt m (1 : Fin 2),
      fun m => m.setReg (R.DISP_PIXDIV (1 : Fin 2)) 0]), 1, by decide +kernel⟩,
    ⟨(mk [fun m => m.setDsp (1 : Fin 2) { m.dsp (1 : Fin 2) with running := true, cloning := false, stage := 1 }, fun m => { m with rota.queue := [] },
      fun m => m.setDsp (1 : Fin 2) { m.dsp (1 : Fin 2) with rotaFlip := none }, fun m => m.setDsp (1 : Fin 2) { m.dsp (1 : Fin 2) with newTiming := none },
      fun m => m.orReg (dispPage (1 : Fin 2) * 0x1000 + 0x1C) 2, fun m => m.setFlag R.SAFE_STATUS_SETTLED false, fun m => vt m (1 : Fin 2), fun m => vs m (1 : Fin 2),
      fun m => m.setReg (R.DISP_FBCFG (1 : Fin 2)) 0x00000100#32, fun m => m.setReg64 (R.DISP_FB_BASE_LO (1 : Fin 2)) 0, fun m => m.setFld R.CIS_DISP_BASE_PACKS 0,
      fun m => m.setFld R.CIS_DISP_SIZE_PACKS 64]), 1, by decide +kernel⟩,
    ⟨(mk [fun m => m.setDsp (1 : Fin 2) { m.dsp (1 : Fin 2) with running := true, cloning := false, stage := 1 }, fun m => { m with rota.queue := [] },
      fun m => m.setDsp (1 : Fin 2) { m.dsp (1 : Fin 2) with rotaFlip := none }, fun m => m.setDsp (1 : Fin 2) { m.dsp (1 : Fin 2) with newTiming := none },
      fun m => m.orReg (dispPage (1 : Fin 2) * 0x1000 + 0x1C) 2, fun m => m.setFlag R.SAFE_STATUS_SETTLED false, fun m => vt m (1 : Fin 2), fun m => vs m (1 : Fin 2),
      fun m => m.setReg (R.DISP_FBCFG (1 : Fin 2)) 0x00000100#32, fun m => m.setReg64 (R.DISP_FB_BASE_LO (1 : Fin 2)) 0, fun m => m.setFld R.CIS_DISP_BASE_PACKS 0,
      fun m => m.setFld R.CIS_DISP_SIZE_PACKS 64, fun m => m.setFld R.CIS_DISP_SIZE_PACKS 63]), 1, by decide +kernel⟩,
    ⟨(mk [fun m => m.setDsp (1 : Fin 2) { m.dsp (1 : Fin 2) with running := true, cloning := false, stage := 1 }, fun m => { m with rota.queue := [] },
      fun m => m.setDsp (1 : Fin 2) { m.dsp (1 : Fin 2) with rotaFlip := none }, fun m => m.setFlag R.SAFE_STATUS_SETTLED true, fun m => vt m (1 : Fin 2)]), 1,
      by decide +kernel⟩,
    ⟨(mk [fun m => vt m 1, fun m => vs m 1, fun m => m.setReg (R.DISP_FBCFG 1) 0x00000100#32, fun m => m.setReg64 (R.DISP_FB_BASE_LO 1) 0,
      fun m => m.setFld R.CIS_DISP_BASE_PACKS 0, fun m => m.setFld R.CIS_DISP_SIZE_PACKS 64,
      fun m => m.setDsp 1 { m.dsp 1 with running := true, cloning := false, stage := 1, newTiming := none, rotaFlip := some 0 },
      fun m => m.setFlag R.SAFE_STATUS_SETTLED false]), 1, 0, by decide +kernel⟩,
    ⟨(mk [fun m => vt m 0, fun m => m.setDsp 0 { m.dsp 0 with running := true, cloning := false, stage := 1 },
      fun m => m.setDsp 1 { m.dsp 1 with running := true, cloning := true }, fun m => (m.setFld (R.DISP_STATUS_LINK 1) 2).setFld (R.DISP_STATUS_LINK 0) 2]), 0,
      by decide +kernel⟩,
    ⟨255, by decide +kernel⟩,
    ⟨(mk [fun m => vt m 0, fun m => m.setDsp 0 { m.dsp 0 with running := true, cloning := false, stage := 1 },
      fun m => { m with cis.opReq := some (1, true), cis.opWait := true }]), 1, true, by decide +kernel⟩,
    ⟨(mk [fun m => vt m 1, fun m => vs m 1, fun m => m.setReg (R.DISP_FBCFG 1) 0x00000100#32, fun m => m.setReg64 (R.DISP_FB_BASE_LO 1) 0,
      fun m => m.setFld R.CIS_DISP_BASE_PACKS 0, fun m => m.setFld R.CIS_DISP_SIZE_PACKS 64,
      fun m => m.setDsp 1 { m.dsp 1 with running := true, cloning := false, stage := 2, newTiming := none, still := 9 },
      fun m => ((m.setFld (R.DISP_STATIC_FRAMES 1) 2).setFld (R.DISP_STATIC_VTMAX 1) 100).setFlag (R.DISP_STATUS_ASYNC 1) true]), 1, by decide +kernel⟩,
    ⟨ready, 1, by decide +kernel⟩,
    ⟨(mk [fun m => m.setDsp (1 : Fin 2) { m.dsp (1 : Fin 2) with running := true, cloning := false, stage := 0 }, fun m => m.setDsp 1 { m.dsp 1 with cloning := false },
      fun m => m.setDsp (1 : Fin 2) { m.dsp (1 : Fin 2) with newTiming := none }]), 1, by decide +kernel⟩,
    ⟨(mk [fun m => m.setDsp (1 : Fin 2) { m.dsp (1 : Fin 2) with running := true, cloning := false, stage := 0 }, fun m => m.setDsp 1 { m.dsp 1 with cloning := false },
      fun m => m.setDsp (1 : Fin 2) { m.dsp (1 : Fin 2) with newTiming := some [(0x00100040#32 : Word), (0x00100010#32 : Word), (0x00010040#32 : Word), (0x00010001#32 : Word), (12#32 : Word)] }]),
      1, (0x00100040#32), (0x00100010#32), (0x00010040#32), (0x00010001#32), (12#32), by decide +kernel⟩,
    ⟨(mk [fun m => m.setDsp 0 { m.dsp 0 with running := true, cloning := false, stage := 0 }, fun m => m.setDsp 1 { m.dsp 1 with running := true },
      fun m => m.setDsp 1 { m.dsp 1 with cloning := true }, fun m => m.setDsp 1 { m.dsp 1 with running := true, cloning := true }]), by decide +kernel⟩,
    ⟨ready, 1, by decide +kernel⟩,
    ⟨(mk [fun m => m.setDsp (1 : Fin 2) { m.dsp (1 : Fin 2) with running := true, cloning := false, stage := 2 }, fun m => m.setDsp 1 { m.dsp 1 with cloning := false },
      fun m => vt m (1 : Fin 2)]), 1, by decide +kernel⟩,
    ⟨ready, 1, by decide +kernel⟩,
    ⟨(mk [fun m => m.setDsp (1 : Fin 2) { m.dsp (1 : Fin 2) with running := true, cloning := false, stage := 3 }, fun m => m.setDsp 1 { m.dsp 1 with cloning := false },
      fun m => m.setDsp (1 : Fin 2) { m.dsp (1 : Fin 2) with flipPending := true }, fun m => vt m (1 : Fin 2)]), 1, by decide +kernel⟩,
    ⟨(mk [fun m => m.setDsp (1 : Fin 2) { m.dsp (1 : Fin 2) with running := true, cloning := false, stage := 3 },
      fun m => m.setDsp (1 : Fin 2) { m.dsp (1 : Fin 2) with flipPending := false }, fun m => vt m (1 : Fin 2)]), 1, by decide +kernel⟩,
    ⟨ready, 1, by decide +kernel⟩,
    ⟨(mk [fun m => { m with running := true }, fun m => m.setDsp (1 : Fin 2) { m.dsp (1 : Fin 2) with running := true },
      fun m => m.setDsp (1 : Fin 2) { m.dsp (1 : Fin 2) with cloning := false }, fun m => m.setDsp (1 : Fin 2) { m.dsp (1 : Fin 2) with stage := 4 },
      fun m => m.setDsp (1 : Fin 2) { m.dsp (1 : Fin 2) with bgNext := false }, fun m => m.setFlag R.SAFE_STATUS_SETTLED false, fun m => { m with cis.waitW := [] },
      fun m => { m with cis.waitR := [] }]), 1, 0, by decide +kernel⟩,
    ⟨(mk [fun m => m.setDsp (1 : Fin 2) { m.dsp (1 : Fin 2) with running := false }]), 1, by decide +kernel⟩,
    ⟨(mk [fun m => m.setDsp 1 { m.dsp 1 with cloning := false }, fun m => vt m (1 : Fin 2),
      fun m => m.setDsp (1 : Fin 2) { m.dsp (1 : Fin 2) with running := true, stage := 1, bg := false, frameStart := m.nextTick }]), 1, by decide +kernel⟩,
    ⟨ready, 1, by decide +kernel⟩⟩

/-- The premises of every clause of Management can be met. -/
theorem witness_Management :
    (∃ (s : State), s.eng.mgt.powered = true ∧ s.eng.flag R.MGT_ADDR_SETTLED = true ∧ s.eng.mgtServes = true ∧ s.eng.badParity = []) ∧
    (∃ (s : State) (sent : List Byte), s.eng.mgt.powered = true ∧ s.eng.flag R.MGT_ADDR_SETTLED = true ∧ s.eng.mgtServes = true ∧ (sent.length ≠ 4 ∨ leNat sent % 4 ≠ 0)) ∧
    (∃ (s : State) (a : Word), s.eng.mgt.powered = true ∧ s.eng.flag R.MGT_ADDR_SETTLED = true ∧ s.eng.mgtServes = true ∧ a.toNat % 4 = 0 ∧ 0x100000 ≤ a.toNat) ∧
    (∃ (s : State), s.eng.mgt.powered = true ∧ s.eng.flag R.MGT_ADDR_SETTLED = true ∧ s.eng.mgtServes = false) ∧
    (∃ (s : State), s.eng.mgt.powered = true ∧ s.eng.flag R.MGT_ADDR_SETTLED = false) ∧
    (∃ (s : State) (v : Word), s.accepts .mgmt R.TB_LOADVAL_LO v = true ∧ s.eng.flag R.MGT_ADDR_SETTLED = true ∧ s.eng.mgtServes = true) ∧
    (∃ (s : State), s.eng.mgt.powered = true ∧ s.eng.flag R.MGT_ADDR_SETTLED = true) ∧
    (∃ (s : State) (sent : List Byte), s.eng.mgt.powered = true ∧ s.eng.flag R.MGT_ADDR_SETTLED = true ∧ s.eng.mgtServes = true ∧ sent.length ≠ 8) ∧
    (∃ (s : State) (a v : Word), s.eng.mgt.powered = true ∧ s.eng.flag R.MGT_ADDR_SETTLED = true ∧ s.eng.mgtServes = true ∧ a.toNat % 4 = 0 ∧ s.eng.dammed = true ∧
      damWrite .mgmt a.toNat v.toNat = false) ∧
    (∃ (s : State) (a : Nat) (ecc : Ecc), s.eng.mgt.powered = true ∧ s.eng.flag R.MGT_ADDR_SETTLED = true ∧ s.eng.mgtServes = true ∧ a < 0x1000000 ∧
      s.eng.mgtTankStatus a false false = 0 ∧ s.eng.wordError (a / 8) = .good ∧ ecc ≠ .double) ∧
    (∃ (s : State) (a : Nat), s.eng.mgt.powered = true ∧ s.eng.flag R.MGT_ADDR_SETTLED = true ∧ s.eng.mgtServes = true ∧ a < 0x1000000 ∧
      s.eng.mgtTankStatus a false false = 0) ∧
    (∃ (s : State) (a st : Nat), s.eng.mgt.powered = true ∧ s.eng.flag R.MGT_ADDR_SETTLED = true ∧ s.eng.mgtServes = true ∧ a < 2 ^ 32 ∧
      s.eng.mgtTankStatus a false false = st ∧ st ≠ 0) ∧
    (∃ (s : State) (a : Nat), s.eng.mgt.powered = true ∧ s.eng.flag R.MGT_ADDR_SETTLED = true ∧ s.eng.mgtServes = true ∧ a < 0x1000000 ∧
      s.eng.mgtTankStatus a false true = 0 ∧ s.eng.path.pipe = [] ∧ s.eng.wordError (a / 8) = .good ∧ s.eng.mirrorOf (a / tankSize) = none) ∧
    (∃ (s : State) (a st : Nat), s.eng.mgt.powered = true ∧ s.eng.flag R.MGT_ADDR_SETTLED = true ∧ s.eng.mgtServes = true ∧ a < 2 ^ 32 ∧
      s.eng.mgtTankStatus a false true = st ∧ st ≠ 0) ∧
    (∃ (s : State), s.eng.mgt.powered = true ∧ s.eng.flag R.MGT_ADDR_SETTLED = true) ∧
    (∃ (s : State), s.eng.mgt.powered = false) ∧
    (∃ (s : State) (port : Port), s.accepts port R.MGT_FUSECTL 0x5AFE0001 = true ∧ s.eng.mgt.prog = none ∧ s.eng.fuseReason = 0) ∧
    (∃ (s : State) (port : Port) (key : BitVec 16), s.accepts port R.MGT_FUSECTL (BitVec.ofNat 32 (1 + key.toNat * 2 ^ 16)) = true ∧ s.eng.mgt.prog = none ∧
      (s.eng.fuseReason ≠ 0 ∨ key ≠ 0x5AFE)) ∧
    (∃ (s : State) (port : Port) (key : BitVec 16), s.accepts port R.MGT_FUSECTL (BitVec.ofNat 32 (1 + key.toNat * 2 ^ 16)) = true ∧ s.eng.mgt.prog.isSome = true) ∧
    (∃ (s : State) (l : List Word) (r : Fin 4), s.eng.mgt.powered = true ∧ s.eng.mgt.prog = some l ∧ s.eng.mgt.rows.length = 4 ∧ s.eng.mgt.bad.length = 4 ∧ (∀ q : Fin 4,
      q < r → nth s.eng.mgt.rows q none ≠ none) ∧ nth s.eng.mgt.rows r none = none) ∧
    (∃ (s : State), s.eng.mgt.prog = none) ∧
    (∃ (s : State) (n : Fin 8) (v : BitVec 16), s.eng.mgt.powered = true ∧ s.eng.tripDue = false ∧ (n.val ≠ 5 ∨ 2 ≤ s.eng.stackCount) ∧ v.toInt < 16 * 125 ∧
      s.eng.mgt.crit.length = 8) ∧
    (∃ (s : State) (n : Fin 8) (v : BitVec 16), s.eng.mgt.powered = true ∧ n.val ≠ 4 ∧ n.val ≠ 5 ∧ s.eng.mgt.trip.length = 8 ∧ 1 ≤ nth s.eng.mgt.trip n 0 ∧
      16 * 125 ≤ v.toInt) ∧
    (∃ (s : State) (n : Fin 8), (s.eng.mgt.powered = false ∨ (n.val = 5 ∧ s.eng.stackCount < 2 ∧ s.eng.tripDue = false))) ∧
    (∃ (s : State), s.eng.mgt.powered = true ∧ s.eng.mgt.warnRun.length = 12 ∧ s.eng.mgt.outRun.length = 12) ∧
    (∃ (s : State), s.eng.mgt.powered = false) :=
  ⟨⟨(mk [fun m => m.setFlag R.MGT_ADDR_SETTLED true, fun m => { m with badParity := [] }]), by decide +kernel⟩,
    ⟨(mk [fun m => m.setFlag R.MGT_ADDR_SETTLED true]), [0, 0, 0], by decide +kernel⟩,
    ⟨(mk [fun m => m.setFlag R.MGT_ADDR_SETTLED true]), 0xFFFFFFFC, by decide +kernel⟩,
    ⟨(mk [fun m => m.setFlag R.MGT_ADDR_SETTLED true, fun m => m.setFlag R.SYS_STATUS_READY false]), by decide +kernel⟩,
    ⟨(mk [fun m => m.setFlag R.MGT_ADDR_SETTLED false]), by decide +kernel⟩,
    ⟨(mk [fun m => m.setFlag R.MGT_ADDR_SETTLED true]), 0, by decide +kernel⟩,
    ⟨(mk [fun m => m.setFlag R.MGT_ADDR_SETTLED true]), by decide +kernel⟩,
    ⟨(mk [fun m => m.setFlag R.MGT_ADDR_SETTLED true]), [0, 0, 0, 0, 0, 0, 0], by decide +kernel⟩,
    ⟨(mk [fun m => m.setFlag R.MGT_ADDR_SETTLED true, fun m => m.setFlag R.DAM_STATUS_DAMMED true]), 0, 0, by decide +kernel⟩,
    ⟨(mk [fun m => m.setFlag R.MGT_ADDR_SETTLED true, fun m => m.setFld (R.TANK_OWN_CUR 62) 1]), 0xFBFFFC, .single, by decide +kernel⟩,
    ⟨(mk [fun m => m.setFlag R.MGT_ADDR_SETTLED true, fun m => m.setFld (R.TANK_OWN_CUR 62) 1]), 0xFBFFFC, by decide +kernel⟩,
    ⟨(mk [fun m => m.setFlag R.MGT_ADDR_SETTLED true]), 0xFFFFFFFF, 6, by decide +kernel⟩,
    ⟨(mk [fun m => m.setFlag R.MGT_ADDR_SETTLED true, fun m => m.setFld (R.TANK_OWN_CUR 61) 1]), 0xF7FFFC, by decide +kernel⟩,
    ⟨(mk [fun m => m.setFlag R.MGT_ADDR_SETTLED true]), 0xFFFFFFFF, 6, by decide +kernel⟩,
    ⟨(mk [fun m => m.setFlag R.MGT_ADDR_SETTLED true, fun m => m.setFlag R.SYS_STATUS_READY false]), by decide +kernel⟩,
    ⟨(mk [fun m => { m with mgt.powered := false }]), by decide +kernel⟩,
    ⟨(mk [fun m => { m with mgt.prog := none }, fun m => m.setFld (R.THRM_SUPPLY_MV 0) 12000]), .mgmt, by decide +kernel⟩,
    ⟨(mk [fun m => { m with mgt.prog := none }]), .mgmt, 0, by decide +kernel⟩,
    ⟨(mk [fun m => { m with mgt.prog := some [] }]), .mgmt, 0x5AFE, by decide +kernel⟩,
    ⟨(mk [fun m => { m with mgt.prog := some (List.replicate 8 0 : List Word) }, fun m => { m with mgt.rows := [some [], some [], some [], none] }]), (List.replicate 8 0), 3,
      by decide +kernel⟩,
    ⟨(mk [fun m => { m with mgt.prog := none }]), by decide +kernel⟩,
    ⟨(mk []), 7, 0x7CF, by decide +kernel⟩,
    ⟨(mk [fun m => { m with mgt.trip := List.replicate 8 1 }]), 7, 2000, by decide +kernel⟩,
    ⟨(mk [fun m => { m with mgt.powered := false }]), 7, by decide +kernel⟩,
    ⟨(mk []), by decide +kernel⟩,
    ⟨(mk [fun m => { m with mgt.powered := false }]), by decide +kernel⟩⟩

end Sys2Proof.Tests
end

section
/-! SUPPORT. A register write that gets through (R4, R394, R402): what acceptance means, and what REGISTER_WRITE then does and answers. -/
namespace Sys2Proof.Machine

/-- What an accepted write has passed on its way to the register (R394 to R416). -/
theorem State.accepts_inv {s : State} {port : Port} {a : Nat} {v : Word} (hacc : s.accepts port a v = true) :
    s.eng.reachable = true ∧ s.eng.dammed = false ∧ (s.eng.lost && !alwaysOn a) = false ∧ a < 0x100000 ∧ a % 4 = 0 ∧ isDirWord a = false ∧ s.eng.absentCisp a = false ∧
      ∃ h, decodeReg a = some h ∧ classAllows (if h.off = 0x0C then 1 else h.blk.cls) port = true ∧ s.eng.frozenBy h a v.toNat = false := by
  unfold State.accepts at hacc
  cases hreg : decodeReg a with
  | none => simp [hreg] at hacc
  | some h =>
    simp only [hreg, Bool.and_eq_true, Bool.not_eq_true', decide_eq_true_eq, beq_iff_eq] at hacc
    obtain ⟨⟨⟨⟨⟨⟨⟨⟨hreach, hdam⟩, hclk⟩, hlt⟩, halign⟩, hdir⟩, hcisp⟩, -⟩, hcls, hfroz⟩ := hacc
    exact ⟨hreach, hdam, hclk, hlt, halign, hdir, hcisp, h, rfl, hcls, hfroz⟩

/-- Every port answers a write that ended without a bus error normally (R402). -/
theorem Engine.answerWrite_ok (m : Engine) (port : Port) (a : Nat) : m.answerWrite port a .ok = m.reply (okAnswer port) := by
  cases port <;> rfl

/-- A write that reaches its page and ends without a bus error leaves what the write made, with the port's normal answer. -/
theorem Chip.regWrite_of_ok {c d : Chip} {port : Port} {a : Nat} {v : Word} (hreach : c.eng.reachable = true) (hok : c.writeReg port 0 a v = (d, .ok)) :
    c.regWrite port a v = { d with eng := d.eng.reply (okAnswer port) } := by
  simp [Chip.regWrite, hreach, hok, Engine.answerWrite_ok]

/-- REGISTER_WRITE is the write of its register by its port. -/
theorem exec_registerWrite (port : Port) (addr v : Word) (s : State) :
    exec (.registerWrite port addr v) s = .next { s with chip := s.chip.regWrite port addr.toNat v } := rfl

/-- Settles O7: an accepted write passes every check of `writeReg`, so it is `writeAt` at the register decoded and ends without a bus error, which every port answers normally. -/
theorem acceptedWriteCompletes : Obligations.AcceptedWriteCompletes := by
  unfold Obligations.AcceptedWriteCompletes
  intro s port addr v hacc
  obtain ⟨hreach, hdam, hclk, hlt, halign, hdir, hcisp, h, hreg, hcls, hfroz⟩ := State.accepts_inv hacc
  have hok : s.chip.writeReg port 0 addr.toNat v = (s.chip.writeAt h addr.toNat v, .ok) :=
    s.chip.writeReg_ok port 0 addr.toNat v h hdam hclk hlt halign hdir hreg hcisp hcls hfroz
  exact ⟨h, hreg, by rw [exec_registerWrite, Chip.regWrite_of_ok hreach hok]⟩

end Sys2Proof.Machine
end

section
/-! SUPPORT. Registers outside a list, fields beside those set, and what a step keeps when it changes the engine alone. -/
namespace Sys2Proof.Machine

/-! The registers outside a list that holds every register an operation sets. -/

section Off
variable {l : List Nat} {a : Nat}

theorem Engine.reg_setReg_off (ha : a ∉ l) (m : Engine) {b : Nat} (v : Word) (hb : b ∈ l) : (m.setReg b v).reg a = m.reg a :=
  m.reg_setReg_ne v fun e => ha (e ▸ hb)

theorem Engine.reg_setFld_off (ha : a ∉ l) (m : Engine) {f : Field} (v : Nat) (hf : f.addr ∈ l) : (m.setFld f v).reg a = m.reg a :=
  m.reg_setReg_off ha _ hf

theorem Engine.reg_setFlag_off (ha : a ∉ l) (m : Engine) {f : Field} (b : Bool) (hf : f.addr ∈ l) : (m.setFlag f b).reg a = m.reg a :=
  m.reg_setReg_off ha _ hf

theorem Engine.reg_addSat_off (ha : a ∉ l) (m : Engine) {b : Nat} (n : Nat) (hb : b ∈ l) : (m.addSat b n).reg a = m.reg a :=
  m.reg_setReg_off ha _ hb

theorem Engine.reg_setReg64_off (ha : a ∉ l) (m : Engine) {b : Nat} (v : Tb) (hb : b ∈ l) (hb' : b + 4 ∈ l) : (m.setReg64 b v).reg a = m.reg a :=
  m.reg_setReg64_ne b v (fun e => ha (e ▸ hb)) (fun e => ha (e ▸ hb'))

theorem Engine.reg_status_off (ha : a ∉ l) (m : Engine) {b : PageBit} (hb : statusAddr b.page ∈ l) : (m.status b).reg a = m.reg a :=
  m.reg_status_ne b fun e => ha (e ▸ hb)

end Off

/-! Fields of other registers, and fields beside the one set. -/

theorem Engine.fld_setFlag_ne (m : Engine) {f g : Field} (b : Bool) (h : f.addr ≠ g.addr) : (m.setFlag g b).fld f = m.fld f := m.fld_setReg_ne _ h

theorem Engine.flag_setFld_ne (m : Engine) {f g : Field} (v : Nat) (h : f.addr ≠ g.addr) : (m.setFld g v).flag f = m.flag f := by
  unfold Engine.flag; rw [m.fld_setFld_ne v h]

theorem Engine.fld_setFlag_beside (m : Engine) (f g : Field) (b : Bool) (ha : g.addr = f.addr) (h : g.lo + g.width ≤ f.lo ∨ f.lo + f.width ≤ g.lo) :
    (m.setFlag f b).fld g = m.fld g := m.fld_setFld_beside f g _ ha h

theorem Engine.flag_setFld_beside (m : Engine) (f g : Field) (v : Nat) (ha : g.addr = f.addr) (h : g.lo + g.width ≤ f.lo ∨ f.lo + f.width ≤ g.lo) :
    (m.setFld f v).flag g = m.flag g := by
  unfold Engine.flag; rw [m.fld_setFld_beside f g v ha h]

theorem Engine.fld_addSat_ne (m : Engine) {f : Field} {a : Nat} (n : Nat) (h : f.addr ≠ a) : (m.addSat a n).fld f = m.fld f := m.fld_setReg_ne _ h

theorem Engine.flag_addSat_ne (m : Engine) {f : Field} {a : Nat} (n : Nat) (h : f.addr ≠ a) : (m.addSat a n).flag f = m.flag f := m.flag_setReg_ne f a _ h

theorem Engine.flag_status_ne (m : Engine) (b : PageBit) {f : Field} (h : f.addr ≠ statusAddr b.page) : (m.status b).flag f = m.flag f := by
  unfold Engine.flag; rw [m.fld_status_ne b h]

theorem Engine.fld_setReg64_ne (m : Engine) {f : Field} {a : Nat} (v : Tb) (h : f.addr ≠ a) (h' : f.addr ≠ a + 4) : (m.setReg64 a v).fld f = m.fld f := by
  unfold Engine.fld; rw [m.reg_setReg64_ne a v h h']

theorem Engine.flag_setReg64_ne (m : Engine) {f : Field} {a : Nat} (v : Tb) (h : f.addr ≠ a) (h' : f.addr ≠ a + 4) : (m.setReg64 a v).flag f = m.flag f := by
  unfold Engine.flag; rw [m.fld_setReg64_ne v h h']

/-- A PAGE_STATUS bit that was set reads 1. -/
theorem Engine.hasBit_status_same (m : Engine) (b : PageBit) (h : b.bit < 32) : (m.status b).hasBit b = true := by
  simp [Engine.hasBit, bitAt, m.testBit_status b h]

/-- Setting a PAGE_STATUS bit leaves the others as they are. -/
theorem Engine.hasBit_status (m : Engine) (b c : PageBit) (hb : b.bit < 32) : (m.status b).hasBit c = (decide (c = b) || m.hasBit c) := by
  by_cases hpage : c.page = b.page
  · have hdec : decide (c = b) = decide (c.bit = b.bit) := by
      obtain ⟨p, i⟩ := c
      obtain ⟨q, j⟩ := b
      obtain rfl : p = q := hpage
      simp
    unfold Engine.hasBit bitAt
    rw [hpage, m.testBit_status b hb, hdec]
  · have hne : c ≠ b := fun e => hpage (congrArg PageBit.page e)
    have haddr : statusAddr c.page ≠ statusAddr b.page := by unfold statusAddr; omega
    unfold Engine.hasBit
    rw [m.reg_status_ne b haddr]
    simp [hne]

theorem Engine.hasBit_setReg_ne (m : Engine) {b : PageBit} {a : Nat} (v : Word) (h : statusAddr b.page ≠ a) : (m.setReg a v).hasBit b = m.hasBit b := by
  unfold Engine.hasBit; rw [m.reg_setReg_ne v h]

/-! What is read from a register is as before where the register is. -/

theorem Engine.fld_of_reg {m m' : Engine} {f : Field} (h : m'.reg f.addr = m.reg f.addr) : m'.fld f = m.fld f := by unfold Engine.fld; rw [h]

theorem Engine.flag_of_reg {m m' : Engine} {f : Field} (h : m'.reg f.addr = m.reg f.addr) : m'.flag f = m.flag f := by unfold Engine.flag; rw [fld_of_reg h]

theorem Engine.hasBit_of_reg {m m' : Engine} {b : PageBit} (h : m'.reg (statusAddr b.page) = m.reg (statusAddr b.page)) : m'.hasBit b = m.hasBit b := by
  unfold Engine.hasBit; rw [h]

theorem Engine.reg64_of_reg {m m' : Engine} {a : Nat} (h : m'.reg a = m.reg a) (h' : m'.reg (a + 4) = m.reg (a + 4)) : m'.reg64 a = m.reg64 a := by
  unfold Engine.reg64; rw [h, h']

/-! A step that changes the engine alone. -/

@[simp] theorem State.eng_withEng (s : State) (m : Engine) : (s.withEng m).eng = m := rfl

/-- Such a step keeps the memories and the commands that wait. -/
theorem State.memKept_withEng (s : State) (m : Engine) : MemKept s (s.withEng m) := ⟨rfl, rfl, rfl⟩

/-- Such a step keeps all but a list of registers, where the engine's operation does. -/
theorem State.kept_withEng {s : State} {m : Engine} {l : List Nat} (hreg : ∀ a, a ∉ l → m.reg a = s.eng.reg a) (htb : m.tb = s.eng.tb) : Kept s (s.withEng m) l :=
  ⟨hreg, rfl, rfl, htb, rfl⟩

/-- A guarded command on the engine ends in a state of which P holds where its effect does. -/
theorem State.ends_clocked {s : State} (f : Engine → Engine) {P : State → Prop} (hrun : s.eng.running = true) (h : P (s.withEng (f s.eng))) : Ends (s.clocked f) P :=
  ⟨_, s.clocked_pos f hrun, h⟩

theorem State.ends_live {s : State} (f : Engine → Engine) {P : State → Prop} (hlive : s.eng.live = true) (h : P (s.withEng (f s.eng))) : Ends (s.live f) P :=
  ⟨_, s.live_pos f hlive, h⟩

theorem State.ends_powered {s : State} (f : Engine → Engine) {P : State → Prop} (hp : s.eng.mgt.powered = true) (h : P (s.withEng (f s.eng))) : Ends (s.powered f) P :=
  ⟨_, s.powered_pos f hp, h⟩

end Sys2Proof.Machine
end

section
/-! SUPPORT. The headrace's PLLs and its reference: what each operation leaves (R18, R19, R23). -/
namespace Sys2Proof.Machine

theorem Engine.switchover_eq {m : Engine} (hrun : m.running = true) (hred : m.flag R.CLK_STATUS_REDUNDANT = true) :
    m.switchover = (((((m.setFlag R.CLK_STATUS_ACTIVE (!m.flag R.CLK_STATUS_ACTIVE)).setFlag R.CLK_STATUS_REDUNDANT false).setFlag
      (if m.flag R.CLK_STATUS_ACTIVE then R.CLK_STATUS_LOCK_B else R.CLK_STATUS_LOCK_A) false).addSat R.CLK_SWITCHCNT 1).status R.E_CLK_SWITCH).logNow
        5 1 0x0101 (!m.flag R.CLK_STATUS_ACTIVE).toNat := by
  cases h : m.flag R.CLK_STATUS_ACTIVE <;> simp [Engine.switchover, hrun, hred, h]

theorem Engine.relock_eq {m : Engine} (hrun : m.running = true) (hred : m.flag R.CLK_STATUS_REDUNDANT = false) :
    m.relock true = (((m.setFlag R.CLK_STATUS_LOCK_A true).setFlag R.CLK_STATUS_LOCK_B true).setFlag R.CLK_STATUS_REDUNDANT true).status R.E_CLK_RELOCK := by
  simp [Engine.relock, hrun, hred]

/-- Settles O15: both operations are chains of updates of fields of CLK.STATUS beside each other, of one counter and of one PAGE_STATUS bit. -/
theorem switchOverAndRelock : Obligations.SwitchOverAndRelock := by
  unfold Obligations.SwitchOverAndRelock
  refine ⟨fun s hrun hred => State.ends_clocked Engine.switchover hrun ?_, fun s hrun hred => State.ends_clocked (·.relock true) hrun ?_, fun s => ?_⟩
  · rw [Engine.switchover_eq hrun hred]
    cases hact : s.eng.flag R.CLK_STATUS_ACTIVE
    all_goals
      refine ⟨?_, ?_, ?_, ?_, ?_, ?_, State.kept_withEng (fun a ha => ?_) (by simp)⟩
      · simp (disch := decide) [Engine.flag_status_ne, Engine.flag_addSat_ne, Engine.flag_setFlag_beside, Engine.flag_setFlag_same]
      · simp (disch := decide) [Engine.flag_status_ne, Engine.flag_addSat_ne, Engine.flag_setFlag_beside, Engine.flag_setFlag_same]
      · simp (disch := decide) [Engine.flag_status_ne, Engine.flag_addSat_ne, Engine.flag_setFlag_same]
      · simp (disch := decide) [Engine.reg_status_ne, Engine.reg_setFlag_ne, satAdd]
      · exact Engine.hasBit_status_same _ R.E_CLK_SWITCH (by decide)
      · simp [Engine.logNow, Engine.log, Engine.pclk, Engine.cycle]
      · simp (disch := decide) [Engine.reg_status_off ha, Engine.reg_addSat_off ha, Engine.reg_setFlag_off ha]
  · rw [Engine.relock_eq hrun hred]
    refine ⟨?_, ?_, ?_, Engine.hasBit_status_same _ R.E_CLK_RELOCK (by decide), State.kept_withEng (fun a ha => ?_) (by simp)⟩
    · simp (disch := decide) [Engine.flag_status_ne, Engine.flag_setFlag_same]
    · simp (disch := decide) [Engine.flag_status_ne, Engine.flag_setFlag_beside, Engine.flag_setFlag_same]
    · simp (disch := decide) [Engine.flag_status_ne, Engine.flag_setFlag_beside, Engine.flag_setFlag_same]
    · simp (disch := decide) [Engine.reg_status_off ha, Engine.reg_setFlag_off ha]
  · simp [exec, execPllRelockAttempt, Engine.relock, State.clocked, State.chipWhen]

end Sys2Proof.Machine
end

section
/-! SUPPORT. Commands that are writes of one register: what the write stores there, and the operation it brings about. -/
namespace Sys2Proof.Machine
open Sys2Proof

/-- A write that gets through and changes the engine alone ends with the port's normal answer. -/
theorem State.ends_write {s : State} {port : Port} {a : Nat} {v : Word} {h : RegHit} {m : Engine} {P : State → Prop} (hacc : s.accepts port a v = true)
    (hreg : decodeReg a = some h) (hat : s.chip.writeAt h a v = { s.chip with eng := m }) (hP : P (s.withEng (m.reply (okAnswer port)))) : Ends (s.write port a v) P := by
  obtain ⟨hreach, hdam, hclk, hlt, halign, hdir, hcisp, h', hreg', hcls, hfroz⟩ := State.accepts_inv hacc
  obtain rfl : h = h' := Option.some.inj (hreg.symm.trans hreg')
  have hok := s.chip.writeReg_ok port 0 a v h hdam hclk hlt halign hdir hreg hcisp hcls hfroz
  rw [hat] at hok
  exact ⟨_, congrArg Host.Outcome.next (congrArg (fun c => { s with chip := c }) (Chip.regWrite_of_ok hreach hok)), hP⟩

/-- The register's writable bits take the value, and its other bits stay. -/
theorem Engine.reg_storeFields_same (m : Engine) (h : RegHit) (key : Nat) (v : Word) :
    (m.storeFields h key v).reg key = (m.reg key &&& ~~~BitVec.ofNat 32 (h.row.rw ||| h.row.rwh)) ||| (v &&& BitVec.ofNat 32 (h.row.rw ||| h.row.rwh)) :=
  m.reg_setReg_same key _

theorem Engine.reg_storeFields_ne (m : Engine) (h : RegHit) {key a : Nat} (v : Word) (ha : a ≠ key) : (m.storeFields h key v).reg a = m.reg a :=
  m.reg_setReg_ne _ ha

/-- A register without writable bits is as before. -/
theorem Engine.reg_storeFields_of_no_rw (m : Engine) {h : RegHit} (key : Nat) (v : Word) (hrw : h.row.rw ||| h.row.rwh = 0) (a : Nat) : (m.storeFields h key v).reg a = m.reg a := by
  by_cases ha : a = key
  · subst ha
    rw [m.reg_storeFields_same, hrw, show BitVec.ofNat 32 0 = 0#32 from rfl, BitVec.and_zero, BitVec.or_zero, BitVec.not_zero, BitVec.and_allOnes]
  · exact m.reg_storeFields_ne h v ha

/-- A field of writable bits takes the value's bits. -/
theorem bitsOf_merge (old v mask : Word) (lo w : Nat) (hmask : ∀ i < w, mask.getLsbD (lo + i) = true) : bitsOf ((old &&& ~~~mask) ||| (v &&& mask)).toNat lo w = bitsOf v.toNat lo w := by
  apply Nat.eq_of_testBit_eq; intro i
  rw [testBit_bitsOf, testBit_bitsOf, BitVec.testBit_toNat, BitVec.testBit_toNat]
  by_cases hi : i < w
  · simp [hi, hmask i hi]
  · simp [hi]

/-! What REFSEL, SYS.CTL, TB.CTL and DAM.CTL decode to, and what a write of each does. -/

def refselHit : RegHit := ⟨.clkB, 0, 0x5, 0x40, { off := 0x40, rw := 0x13 }⟩
def sysCtlHit : RegHit := ⟨.sysB, 0, 0x4, 0x44, { off := 0x44, w1s := 0x7, wo := 0xFFFF0000 }⟩
def tbCtlHit : RegHit := ⟨.tbB, 0, 0x6, 0x40, { off := 0x40, w1s := 0x1 }⟩
def damCtlHit : RegHit := ⟨.damB, 0, 0xB, 0x40, { off := 0x40, reset := 0x4, rw := 0x1F04, w1s := 0x3 }⟩

theorem decodeReg_refsel : decodeReg R.CLK_REFSEL = some refselHit := by decide
theorem decodeReg_sysCtl : decodeReg R.SYS_CTL = some sysCtlHit := by decide
theorem decodeReg_tbCtl : decodeReg R.TB_CTL = some tbCtlHit := by decide
theorem decodeReg_damCtl : decodeReg R.DAM_CTL = some damCtlHit := by decide

theorem Chip.writeAt_refsel (c : Chip) (v : Sys2Proof.Word) :
    c.writeAt refselHit R.CLK_REFSEL v = { c with eng := (c.eng.storeFields refselHit R.CLK_REFSEL v).refselWritten (c.eng.fld R.CLK_REFSEL_SRC) } := rfl

theorem Chip.writeAt_sysCtl (c : Chip) (v : Sys2Proof.Word) :
    c.writeAt sysCtlHit R.SYS_CTL v = ({ c with eng := c.eng.storeFields sysCtlHit R.SYS_CTL v } : Chip).sysCtl v.toNat := rfl

theorem Chip.writeAt_tbCtl (c : Chip) {v : Sys2Proof.Word} (hv : bitAt v.toNat 0 = true) :
    c.writeAt tbCtlHit R.TB_CTL v = { c with eng := (c.eng.storeFields tbCtlHit R.TB_CTL v).tbLoadReq } := by
  have hheld : c.eng.isHeld R.TB_CTL = false := rfl
  simp [Chip.writeAt, hheld, tbCtlHit, Engine.keyOf, Chip.writeEffect, Engine.captureEffect, Chip.pageEffect, Chip.hostEffect, hv]

theorem Chip.writeAt_damCtl (c : Chip) (v : Sys2Proof.Word) :
    c.writeAt damCtlHit R.DAM_CTL v = ({ c with eng := c.eng.storeFields damCtlHit R.DAM_CTL v } : Chip).damCtl v.toNat := by
  have hheld : c.eng.isHeld R.DAM_CTL = false := rfl
  simp [Chip.writeAt, hheld, damCtlHit, Engine.keyOf, Chip.writeEffect, Engine.captureEffect, Chip.pageEffect, Chip.hostEffect]

end Sys2Proof.Machine
end

section
/-! SUPPORT. The reference and its slews (R23). -/
namespace Sys2Proof.Machine

section Off
variable {l : List Nat} {a : Nat}

/-- A slew sets fields of CLK.STATUS alone. -/
theorem Engine.reg_slewTo_off (ha : a ∉ l) (m : Engine) (src : Nat) (hl : R.CLK_STATUS ∈ l) : (m.slewTo src).reg a = m.reg a :=
  (Engine.reg_setFlag_off ha _ _ hl).trans (Engine.reg_setFld_off ha _ _ hl)

end Off

@[simp] theorem Engine.slewTo_tb (m : Engine) (src : Nat) : (m.slewTo src).tb = m.tb := rfl
@[simp] theorem Engine.slewTo_detected (m : Engine) (src : Nat) : (m.slewTo src).detected = m.detected := rfl
@[simp] theorem Engine.slewTo_cc (m : Engine) (src : Nat) : (m.slewTo src).cc = m.cc := rfl

/-- The source a slew moves to is the one in use. -/
theorem Engine.fld_slewTo_inuse (m : Engine) (src : Nat) : (m.slewTo src).fld R.CLK_STATUS_INUSE = src % 4 := by
  refine (Engine.fld_setFlag_beside (m.draw.2.setFld R.CLK_STATUS_INUSE src) R.CLK_STATUS_SLEWING R.CLK_STATUS_INUSE true rfl (by decide)).trans ?_
  exact Engine.fld_setFld_same _ _ _ (by decide)

theorem Engine.flag_slewTo_holdover (m : Engine) (src : Nat) : (m.slewTo src).flag R.CLK_STATUS_HOLDOVER = m.flag R.CLK_STATUS_HOLDOVER := by
  refine (Engine.flag_setFlag_beside (m.draw.2.setFld R.CLK_STATUS_INUSE src) R.CLK_STATUS_SLEWING R.CLK_STATUS_HOLDOVER true rfl (by decide)).trans ?_
  exact Engine.flag_setFld_beside m.draw.2 R.CLK_STATUS_INUSE R.CLK_STATUS_HOLDOVER src rfl (by decide)

theorem Engine.reg_refselWritten_off {l : List Nat} {a : Nat} (ha : a ∉ l) (m : Engine) (old : Nat) (hl : R.CLK_STATUS ∈ l) : (m.refselWritten old).reg a = m.reg a := by
  unfold Engine.refselWritten
  dsimp only
  split_ifs
  · rfl
  · rw [Engine.reg_slewTo_off ha _ _ hl, Engine.reg_setFlag_off ha _ _ hl]
  · rw [Engine.reg_setFld_off ha _ _ hl, Engine.reg_setFlag_off ha _ _ hl]

@[simp] theorem Engine.refselWritten_tb (m : Engine) (old : Nat) : (m.refselWritten old).tb = m.tb := by
  unfold Engine.refselWritten; dsimp only; split_ifs <;> simp

/-- Where the source changed, it is in use and a holdover is over, whether or not the clocks run. -/
theorem Engine.refselWritten_of_ne (m : Engine) {old : Nat} (h : m.fld R.CLK_REFSEL_SRC ≠ old) :
    (m.refselWritten old).flag R.CLK_STATUS_HOLDOVER = false ∧ (m.refselWritten old).fld R.CLK_STATUS_INUSE = m.fld R.CLK_REFSEL_SRC % 4 := by
  unfold Engine.refselWritten
  dsimp only
  rw [if_neg h]
  split
  · exact ⟨by rw [Engine.flag_slewTo_holdover, Engine.flag_setFlag_same _ _ _ (by decide) rfl], Engine.fld_slewTo_inuse _ _⟩
  · exact ⟨by rw [Engine.flag_setFld_beside _ R.CLK_STATUS_INUSE R.CLK_STATUS_HOLDOVER _ rfl (by decide), Engine.flag_setFlag_same _ _ _ (by decide) rfl], Engine.fld_setFld_same _ _ _ (by decide)⟩

theorem Engine.refLost_eq {m : Engine} (hrun : m.running = true) (hhold : m.flag R.CLK_STATUS_HOLDOVER = false) (h0 : m.fld R.CLK_REFSEL_SRC ≠ 0) (h3 : m.fld R.CLK_REFSEL_SRC ≠ 3) :
    m.refLost = ((((m.setFlag R.CLK_STATUS_HOLDOVER true).addSat R.CLK_HOLDCNT 1).status R.E_CLK_HOLDOVER).slewTo 0).logNow 5 1 0x0102 (m.fld R.CLK_REFSEL_SRC) := by
  have hsrc : (((m.setFlag R.CLK_STATUS_HOLDOVER true).addSat R.CLK_HOLDCNT 1).status R.E_CLK_HOLDOVER).fld R.CLK_REFSEL_SRC = m.fld R.CLK_REFSEL_SRC := by
    simp (disch := decide) [Engine.fld_status_ne, Engine.fld_addSat_ne, Engine.fld_setFlag_ne]
  simp [Engine.refLost, Engine.holdover, hrun, hhold, h0, h3, hsrc]

theorem Engine.refRevert_eq {m : Engine} (hrun : m.running = true) (hhold : m.flag R.CLK_STATUS_HOLDOVER = true) (hrev : m.flag R.CLK_REFCTL_REVERT = true)
    (h3 : m.fld R.CLK_REFSEL_SRC ≠ 3) : m.refRevert = ((m.setFlag R.CLK_STATUS_HOLDOVER false).slewTo (m.fld R.CLK_REFSEL_SRC)).status R.E_CLK_REVERT := by
  simp [Engine.refRevert, hrun, hhold, hrev, h3]

/-- REFSEL.SRC is two bits wide. -/
theorem Engine.fld_refsel_lt (m : Engine) : m.fld R.CLK_REFSEL_SRC < 4 := Nat.mod_lt _ (by decide)

/-- Settles O17: holdover, its end and a new source are each one slew, after CLK.STATUS.HOLDOVER was set or cleared. -/
theorem references : Obligations.References := by
  unfold Obligations.References
  refine ⟨fun s hrun hhold h0 h3 => State.ends_clocked Engine.refLost hrun ?_, fun s hrun hhold hrev h3 => State.ends_clocked Engine.refRevert hrun ?_, fun s port v hacc => ?_⟩
  · rw [Engine.refLost_eq hrun hhold h0 h3]
    refine ⟨?_, ?_, ?_, State.kept_withEng (fun a ha => ?_) (by simp)⟩
    · simp (disch := decide) [Engine.flag_slewTo_holdover, Engine.flag_status_ne, Engine.flag_addSat_ne, Engine.flag_setFlag_same]
    · simp [Engine.fld_slewTo_inuse]
    · simp [Engine.logNow, Engine.log, Engine.pclk, Engine.cycle]
    · simp (disch := decide) [Engine.reg_slewTo_off ha, Engine.reg_status_off ha, Engine.reg_addSat_off ha, Engine.reg_setFlag_off ha]
  · rw [Engine.refRevert_eq hrun hhold hrev h3]
    refine ⟨?_, ?_, State.kept_withEng (fun a ha => ?_) (by simp)⟩
    · simp (disch := decide) [Engine.flag_status_ne, Engine.flag_slewTo_holdover, Engine.flag_setFlag_same]
    · simp (disch := decide) [Engine.fld_status_ne, Engine.fld_slewTo_inuse, Nat.mod_eq_of_lt s.eng.fld_refsel_lt]
    · simp (disch := decide) [Engine.reg_status_off ha, Engine.reg_slewTo_off ha, Engine.reg_setFlag_off ha]
  · refine State.ends_write hacc decodeReg_refsel (Chip.writeAt_refsel _ v) ?_
    have hsrc : (s.eng.storeFields refselHit R.CLK_REFSEL v).fld R.CLK_REFSEL_SRC = bitsOf v.toNat 0 2 := by
      exact (congrArg (bitsOf ·.toNat 0 2) (s.eng.reg_storeFields_same refselHit R.CLK_REFSEL v)).trans (bitsOf_merge _ _ _ _ _ (by decide))
    refine ⟨?_, rfl, fun hne => ?_, State.kept_withEng (fun a ha => ?_) ?_⟩
    · exact (Engine.fld_of_reg (Engine.reg_refselWritten_off (l := [R.CLK_STATUS]) (by decide) _ _ (by decide))).trans hsrc
    · have hsrc4 : bitsOf v.toNat 0 2 % 4 = bitsOf v.toNat 0 2 := Nat.mod_mod _ _
      have hnew := Engine.refselWritten_of_ne _ (hsrc.trans_ne hne)
      rwa [hsrc, hsrc4] at hnew
    · refine (Engine.reg_refselWritten_off ha _ _ (by decide)).trans (Engine.reg_storeFields_ne _ _ _ ?_)
      rintro rfl; exact ha (by decide)
    · exact Engine.refselWritten_tb _ _

end Sys2Proof.Machine
end

section
/-! SUPPORT. The frame of an operation: time goes on as before, and only registers of some parts of the register map may change. -/
namespace Sys2Proof.Machine
open Sys2Proof

/-- The block on whose page an address lies (R397). -/
def blockAt (a : Nat) : Option Block := (pageOf (a / 0x1000)).map (·.1)

/-- Has the register at an address bits of type RW, which held writes may change (R82)? -/
def writable (a : Nat) : Bool := (decodeReg (a % 0x100000)).any (fun h => BitVec.ofNat 32 h.row.rw != 0)

/-- A part of the engine that an operation may change: a block's registers, every register with RW bits, every register from 0xB0000 on, every register and part; beside the registers, the cycles on
their way to the gate, the newest one that passed it, the rota's queue, what the links hold, the dam, the sample cycles armed. -/
inductive Part where
  | of (b : Block)
  | config
  | high
  | any
  | pipe
  | gated
  | queue
  | links
  | dam
  | span
  deriving DecidableEq

/-- Does a register belong to a part? -/
def Part.has : Part → Nat → Bool
  | .of b, a => blockAt a == some b
  | .config, a => writable a
  | .any, _ => true
  | .high, a => decide (0xB0000 ≤ a)
  | _, _ => false

/-- Does a register belong to one of several parts? -/
def inParts (l : List Part) (a : Nat) : Bool := l.any (·.has a)

/-- Do some parts allow what others do? -/
def partsIn (k l : List Part) : Bool := l.contains .any || k.all l.contains

@[simp] theorem inParts_any (a : Nat) : inParts [.any] a = true := by simp [inParts, Part.has]

@[simp] theorem partsIn_any (k : List Part) : partsIn k [.any] = true := by simp [partsIn]

/-- A register of a block listed. -/
theorem inParts_of_block {l : List Part} {a : Nat} {b : Block} (ha : blockAt a = some b) (hl : l.contains (.of b) = true) : inParts l a = true :=
  List.any_eq_true.2 ⟨.of b, List.contains_iff_mem.1 hl, by simp [Part.has, ha]⟩

/-! Where the registers of an intake, of its reach and of a segment descriptor lie. -/

theorem blockAt_intk {n a : Nat} (hn : n < 48) (hlo : 0x10000 + 0x1000 * n ≤ a) (hhi : a < 0x11000 + 0x1000 * n) : blockAt a = some .intkB := by
  have hpage : a / 0x1000 = 0x10 + n := by omega
  simp only [blockAt, pageOf, hpage]
  rw [if_neg (by omega), if_neg (by omega), if_pos (by omega)]
  rfl

theorem blockAt_ru {n a : Nat} (hn : n < 48) (hlo : 0x40000 + 0x2000 * n ≤ a) (hhi : a < 0x41000 + 0x2000 * n) : blockAt a = some .ruB := by
  have hpage : a / 0x1000 = 0x40 + 2 * n := by omega
  simp only [blockAt, pageOf, hpage]
  rw [if_neg (by omega), if_neg (by omega), if_neg (by omega), if_pos (by omega), if_pos (by omega)]
  rfl

theorem blockAt_seg {s a : Nat} (hs : s < 256) (hlo : segBase s ≤ a) (hhi : a < segBase s + 0x3C) : blockAt a = some .segB := by
  unfold segBase at hlo hhi
  obtain h | h | h | h : a / 0x1000 = 0xA9 ∨ a / 0x1000 = 0xAA ∨ a / 0x1000 = 0xAB ∨ a / 0x1000 = 0xAC := by omega
  all_goals simp only [blockAt, h]; rfl

theorem blockAt_segPage {s : Nat} (hs : s < 256) {a : Nat} (hlo : (0xA9 + s / 64) * 0x1000 ≤ a) (hhi : a < (0xAA + s / 64) * 0x1000) : blockAt a = some .segB := by
  obtain h | h | h | h : a / 0x1000 = 0xA9 ∨ a / 0x1000 = 0xAA ∨ a / 0x1000 = 0xAB ∨ a / 0x1000 = 0xAC := by omega
  all_goals simp only [blockAt, h]; rfl

theorem blockAt_weir {a : Nat} (hlo : 0xA4000 ≤ a) (hhi : a < 0xA5000) : blockAt a = some .weirB := by
  have h : a / 0x1000 = 0xA4 := by omega
  simp only [blockAt, h]; rfl

/-- A page of an intake, or of a reach, is one of 48. -/
theorem lt_of_pageOf_intk {p n : Nat} (h : pageOf p = some (.intkB, n)) : n < 48 := by
  unfold pageOf at h
  split_ifs at h
  · simp at h
  · split at h <;> simp at h
  · simp only [Option.some.injEq, Prod.mk.injEq, true_and] at h
    omega
  · simp at h
  · simp at h
  · split at h <;> simp at h

theorem lt_of_pageOf_ru {p n : Nat} (h : pageOf p = some (.ruB, n)) : n < 48 := by
  unfold pageOf at h
  split_ifs at h
  · simp at h
  · split at h <;> simp at h
  · simp at h
  · simp only [Option.some.injEq, Prod.mk.injEq, true_and] at h
    omega
  · simp at h
  · split at h <;> simp at h

/-- What no operation but a cycle and a command on time or clocks changes: time, a load of TB that waits, the clocks, the writes that wait for them. -/
def Engine.times (m : Engine) : Tb × Nat × Bool × Option Nat × Bool × Bool × Bool × List (Port × Nat × Nat × Word) :=
  (m.tb, m.cc, m.first, m.tbLoad, m.wrapDue, m.running, m.lost, m.mgt.stalled)

/-- Beside the registers, two engines are alike in a part. -/
def Part.Same (p : Part) (m m' : Engine) : Prop :=
  match p with
  | .pipe => m'.path.pipe = m.path.pipe
  | .gated => m'.store.gated = m.store.gated ∧ m'.store.gatedTb = m.store.gatedTb
  | .queue => m'.rota.queue = m.rota.queue
  | .links => m'.ring.fa = m.ring.fa ∧ m'.ring.fb = m.ring.fb
  | .dam => m'.dam = m.dam
  | .span => m'.armSpan = m.armSpan
  | _ => True

theorem Part.Same.refl (p : Part) (m : Engine) : p.Same m m := by
  cases p <;> simp [Part.Same]

theorem Part.Same.trans {p : Part} {m m' m'' : Engine} (h : p.Same m m') (h' : p.Same m' m'') : p.Same m m'' := by
  cases p <;> simp_all [Part.Same]

theorem Part.Same.symm {p : Part} {m m' : Engine} (h : p.Same m m') : p.Same m' m := by
  cases p <;> simp_all [Part.Same]

/-- An engine differs from another neither in its times, nor in a register or a part outside some parts. -/
structure Engine.Within (l : List Part) (m m' : Engine) : Prop where
  times : m'.times = m.times
  reg : ∀ a, inParts l a = false → m'.reg a = m.reg a
  same : ∀ p : Part, partsIn [p] l = false → p.Same m m'

namespace Engine.Within
variable {l k : List Part} {m m' m'' : Engine}

@[simp] theorem refl (l : List Part) (m : Engine) : Within l m m := ⟨rfl, fun _ _ => rfl, fun p _ => .refl p m⟩

theorem trans (h : Within l m m') (h' : Within l m' m'') : Within l m m'' :=
  ⟨h'.times.trans h.times, fun a ha => (h'.reg a ha).trans (h.reg a ha), fun p hp => (h.same p hp).trans (h'.same p hp)⟩

theorem symm (h : Within l m m') : Within l m' m := ⟨h.times.symm, fun a ha => (h.reg a ha).symm, fun p hp => (h.same p hp).symm⟩

/-- More parts allow more. -/
theorem mono (h : Within k m m') (hk : partsIn k l = true) : Within l m m' := by
  simp only [partsIn, Bool.or_eq_true, List.contains_iff_mem, List.all_eq_true] at hk
  refine ⟨h.times, fun a ha => h.reg a ?_, fun p hp => h.same p ?_⟩
  · simp only [inParts, List.any_eq_false] at ha ⊢
    rcases hk with hany | hk
    · exact absurd rfl (ha _ hany)
    · exact fun p hp => ha p (hk p hp)
  · simp only [partsIn, List.all_cons, List.all_nil, Bool.and_true, Bool.or_eq_false_iff, List.contains_eq_mem, decide_eq_false_iff_not] at hp ⊢
    obtain ⟨hno, hp⟩ := hp
    rcases hk with hany | hk
    · exact absurd hany hno
    · exact ⟨fun e => hno (hk _ e), fun e => hp (hk _ e)⟩

/-- An operation that stays within some of the parts may be taken off the end of a chain. -/
theorem step (h : Within k m' m'') (hk : partsIn k l = true) : Within l m m'' ↔ Within l m m' :=
  ⟨fun h' => h'.trans (h.mono hk).symm, fun h' => h'.trans (h.mono hk)⟩

theorem step_self (h : Within l m' m'') : Within l m m'' ↔ Within l m m' := ⟨fun h' => h'.trans h.symm, fun h' => h'.trans h⟩

/-- The updates that set registers alone. -/
theorem of_parts (htimes : m'.times = m.times) (hreg : ∀ a, inParts l a = false → m'.reg a = m.reg a) (hpath : m'.path = m.path) (hstore : m'.store = m.store)
    (hrota : m'.rota = m.rota) (hring : m'.ring = m.ring) (hdam : m'.dam = m.dam) (hspan : m'.armSpan = m.armSpan) : Within l m m' :=
  ⟨htimes, hreg, fun p _ => by cases p <;> simp [Part.Same, hpath, hstore, hrota, hring, hdam, hspan]⟩

theorem setReg (a : Nat) (v : Word) (ha : inParts l a = true) : Within l m (m.setReg a v) :=
  .of_parts rfl (fun _ hb => m.reg_setReg_ne v fun e => by simp [e ▸ hb] at ha) rfl rfl rfl rfl rfl rfl

end Engine.Within

/-! What is read through a frame. -/

section Read
variable {l : List Part} {m m' : Engine}

theorem Engine.Within.tb (h : Engine.Within l m m') : m'.tb = m.tb := congrArg (·.1) h.times

theorem Engine.Within.cc (h : Engine.Within l m m') : m'.cc = m.cc := congrArg (·.2.1) h.times

theorem Engine.Within.running (h : Engine.Within l m m') : m'.running = m.running := congrArg (·.2.2.2.2.2.1) h.times

theorem Engine.Within.lost (h : Engine.Within l m m') : m'.lost = m.lost := congrArg (·.2.2.2.2.2.2.1) h.times

theorem Engine.Within.stalled (h : Engine.Within l m m') : m'.mgt.stalled = m.mgt.stalled := congrArg (·.2.2.2.2.2.2.2) h.times

theorem Engine.Within.pipe (h : Engine.Within l m m') (hl : partsIn [.pipe] l = false) : m'.path.pipe = m.path.pipe := h.same .pipe hl

theorem Engine.Within.dam (h : Engine.Within l m m') (hl : partsIn [.dam] l = false) : m'.dam = m.dam := h.same .dam hl

theorem Engine.Within.queue (h : Engine.Within l m m') (hl : partsIn [.queue] l = false) : m'.rota.queue = m.rota.queue := h.same .queue hl

theorem Engine.Within.links (h : Engine.Within l m m') (hl : partsIn [.links] l = false) : m'.ring.fa = m.ring.fa ∧ m'.ring.fb = m.ring.fb := h.same .links hl

theorem Engine.Within.gated (h : Engine.Within l m m') (hl : partsIn [.gated] l = false) : m'.store.gated = m.store.gated ∧ m'.store.gatedTb = m.store.gatedTb := h.same .gated hl

theorem Engine.Within.span (h : Engine.Within l m m') (hl : partsIn [.span] l = false) : m'.armSpan = m.armSpan := h.same .span hl

theorem Engine.Within.fld (h : Engine.Within l m m') {f : Field} (hf : inParts l f.addr = false) : m'.fld f = m.fld f := Engine.fld_of_reg (h.reg _ hf)

theorem Engine.Within.flag (h : Engine.Within l m m') {f : Field} (hf : inParts l f.addr = false) : m'.flag f = m.flag f := Engine.flag_of_reg (h.reg _ hf)

theorem Engine.Within.hasBit (h : Engine.Within l m m') {b : PageBit} (hb : inParts l (statusAddr b.page) = false) : m'.hasBit b = m.hasBit b := Engine.hasBit_of_reg (h.reg _ hb)

theorem Engine.Within.reg64 (h : Engine.Within l m m') {a : Nat} (ha : inParts l a = false) (ha' : inParts l (a + 4) = false) : m'.reg64 a = m.reg64 a :=
  Engine.reg64_of_reg (h.reg _ ha) (h.reg _ ha')

end Read

/-! The named updates, as steps of a chain. -/

section Chain
variable {l : List Part} {m m' : Engine}

@[simp] theorem within_setReg {a : Nat} (v : Word) (ha : inParts l a = true) : Engine.Within l m (m'.setReg a v) ↔ Engine.Within l m m' :=
  (Engine.Within.setReg a v ha).step_self

@[simp] theorem within_setFld {f : Field} (v : Nat) (hf : inParts l f.addr = true) : Engine.Within l m (m'.setFld f v) ↔ Engine.Within l m m' := within_setReg _ hf

@[simp] theorem within_setFlag {f : Field} (b : Bool) (hf : inParts l f.addr = true) : Engine.Within l m (m'.setFlag f b) ↔ Engine.Within l m m' := within_setReg _ hf

@[simp] theorem within_addSat {a : Nat} (n : Nat) (ha : inParts l a = true) : Engine.Within l m (m'.addSat a n) ↔ Engine.Within l m m' := within_setReg _ ha

@[simp] theorem within_addWrap {a : Nat} (n : Nat) (ha : inParts l a = true) : Engine.Within l m (m'.addWrap a n) ↔ Engine.Within l m m' := within_setReg _ ha

@[simp] theorem within_orReg {a : Nat} (n : Nat) (ha : inParts l a = true) : Engine.Within l m (m'.orReg a n) ↔ Engine.Within l m m' := within_setReg _ ha

@[simp] theorem within_clearBits {a : Nat} (n : Nat) (ha : inParts l a = true) : Engine.Within l m (m'.clearBits a n) ↔ Engine.Within l m m' := within_setReg _ ha

@[simp] theorem within_setReg64 {a : Nat} (v : Tb) (ha : inParts l a = true) (ha' : inParts l (a + 4) = true) : Engine.Within l m (m'.setReg64 a v) ↔ Engine.Within l m m' :=
  (within_setReg _ ha').trans (within_setReg _ ha)

@[simp] theorem within_status {b : PageBit} (hb : inParts l (statusAddr b.page) = true) : Engine.Within l m (m'.status b) ↔ Engine.Within l m m' := by
  refine Engine.Within.step_self (.of_parts (by simp [Engine.times]) (fun a ha => ?_) (by simp) (by simp) (by simp) (by simp) (by simp) (by simp))
  exact m'.reg_status_ne b fun e => by simp [e ▸ ha] at hb

/-- An update of the fields that the frame does not speak of, or of others where the parts allow it. -/
theorem within_update (held : List (Nat × Word)) (badParity : List Nat) (intakes : List Intake) (tableSet : Bool) (tableChanges : List (Nat × Bool)) (path : Path)
    (gateOrders : List GateOrder) (causes : List Cause) (gate : GateState) (store : StoreState) (rota : RotaState) (tank : TankState)
    (slewEnd : Option Nat) (ring : RingState) (dam : DamState) (cis : CisState) (disp : List DispState) (host : HostState) (mgt : MgtState)
    (lostSince : Nat) (lostTb : Tb) (settledAt : Option Nat) (answer : Answer) (armSpan : Option (Nat × Option Nat)) (arming : Option ArmReq)
    (detected : List LogEntry) (raised : List Raised) (freeCtr : Nat)
    (hpipe : partsIn [.pipe] l = true ∨ path.pipe = m'.path.pipe) (hgated : partsIn [.gated] l = true ∨ store.gated = m'.store.gated ∧ store.gatedTb = m'.store.gatedTb)
    (hqueue : partsIn [.queue] l = true ∨ rota.queue = m'.rota.queue) (hlinks : partsIn [.links] l = true ∨ ring.fa = m'.ring.fa ∧ ring.fb = m'.ring.fb)
    (hdam : partsIn [.dam] l = true ∨ dam = m'.dam) (hspan : partsIn [.span] l = true ∨ armSpan = m'.armSpan) (hmgt : mgt.stalled = m'.mgt.stalled) :
    Engine.Within l m { m' with
      held := held, badParity := badParity, intakes := intakes, tableSet := tableSet, tableChanges := tableChanges, path := path, gateOrders := gateOrders,
      causes := causes, gate := gate, store := store, rota := rota, tank := tank, slewEnd := slewEnd, ring := ring, dam := dam, cis := cis, disp := disp,
      host := host, mgt := mgt, lostSince := lostSince, lostTb := lostTb, settledAt := settledAt, answer := answer, armSpan := armSpan, arming := arming,
      detected := detected, raised := raised, freeCtr := freeCtr } ↔ Engine.Within l m m' := by
  refine Engine.Within.step_self ⟨by simp [Engine.times, hmgt], fun _ _ => rfl, fun p hp => ?_⟩
  cases p with
  | pipe => exact hpipe.resolve_left (by simp [hp])
  | gated => exact hgated.resolve_left (by simp [hp])
  | queue => exact hqueue.resolve_left (by simp [hp])
  | links => exact hlinks.resolve_left (by simp [hp])
  | dam => exact hdam.resolve_left (by simp [hp])
  | span => exact hspan.resolve_left (by simp [hp])
  | of _ => trivial
  | config => trivial
  | any => trivial
  | high => trivial

@[simp] theorem within_setIntake (n : Nat) (i : Intake) : Engine.Within l m (m'.setIntake n i) ↔ Engine.Within l m m' :=
  Engine.Within.step_self (.of_parts rfl (fun _ _ => rfl) rfl rfl rfl rfl rfl rfl)
@[simp] theorem within_setGate (g : GateState) : Engine.Within l m (m'.setGate g) ↔ Engine.Within l m m' := Engine.Within.step_self (.of_parts rfl (fun _ _ => rfl) rfl rfl rfl rfl rfl rfl)
@[simp] theorem within_setCis (x : CisState) : Engine.Within l m (m'.setCis x) ↔ Engine.Within l m m' := Engine.Within.step_self (.of_parts rfl (fun _ _ => rfl) rfl rfl rfl rfl rfl rfl)
@[simp] theorem within_setHost (x : HostState) : Engine.Within l m (m'.setHost x) ↔ Engine.Within l m m' := Engine.Within.step_self (.of_parts rfl (fun _ _ => rfl) rfl rfl rfl rfl rfl rfl)
@[simp] theorem within_log (p c k d : Nat) (t : Tb) : Engine.Within l m (m'.log p c k d t) ↔ Engine.Within l m m' := Engine.Within.step_self (.of_parts rfl (fun _ _ => rfl) rfl rfl rfl rfl rfl rfl)
@[simp] theorem within_logNow (p c k d : Nat) : Engine.Within l m (m'.logNow p c k d) ↔ Engine.Within l m m' := within_log _ _ _ _ _
@[simp] theorem within_reply (a : Answer) : Engine.Within l m (m'.reply a) ↔ Engine.Within l m m' := Engine.Within.step_self (.of_parts rfl (fun _ _ => rfl) rfl rfl rfl rfl rfl rfl)
@[simp] theorem within_setStore (x : StoreState) (h : partsIn [.gated] l = true ∨ x.gated = m'.store.gated ∧ x.gatedTb = m'.store.gatedTb) :
    Engine.Within l m (m'.setStore x) ↔ Engine.Within l m m' :=
  within_update (m' := m') (store := x) (hpipe := .inr rfl) (hgated := h) (hqueue := .inr rfl) (hlinks := .inr ⟨rfl, rfl⟩) (hdam := .inr rfl) (hspan := .inr rfl) (hmgt := rfl) ..
@[simp] theorem within_setRota (x : RotaState) (h : partsIn [.queue] l = true ∨ x.queue = m'.rota.queue) : Engine.Within l m (m'.setRota x) ↔ Engine.Within l m m' :=
  within_update (m' := m') (rota := x) (hpipe := .inr rfl) (hgated := .inr ⟨rfl, rfl⟩) (hqueue := h) (hlinks := .inr ⟨rfl, rfl⟩) (hdam := .inr rfl) (hspan := .inr rfl) (hmgt := rfl) ..
@[simp] theorem within_setRing (x : RingState) (h : partsIn [.links] l = true ∨ x.fa = m'.ring.fa ∧ x.fb = m'.ring.fb) : Engine.Within l m (m'.setRing x) ↔ Engine.Within l m m' :=
  within_update (m' := m') (ring := x) (hpipe := .inr rfl) (hgated := .inr ⟨rfl, rfl⟩) (hqueue := .inr rfl) (hlinks := h) (hdam := .inr rfl) (hspan := .inr rfl) (hmgt := rfl) ..
@[simp] theorem within_setDam (x : DamState) (h : partsIn [.dam] l = true ∨ x = m'.dam) : Engine.Within l m (m'.setDam x) ↔ Engine.Within l m m' :=
  within_update (m' := m') (dam := x) (hpipe := .inr rfl) (hgated := .inr ⟨rfl, rfl⟩) (hqueue := .inr rfl) (hlinks := .inr ⟨rfl, rfl⟩) (hdam := h) (hspan := .inr rfl) (hmgt := rfl) ..

/-- Either branch. -/
@[simp] theorem within_ite {c : Prop} {_ : Decidable c} {x y : Engine} :
    Engine.Within l m (if c then x else y) ↔ (c → Engine.Within l m x) ∧ (¬c → Engine.Within l m y) := by
  split <;> simp [*]

/-- A loop each pass of which stays within the parts. -/
theorem within_forEach {k : Nat} {f : Nat → Engine → Engine} (h : ∀ n < k, ∀ x : Engine, Engine.Within l x (f n x)) : Engine.Within l m (forEach k f m) := by
  have hfold : ∀ (ns : List Nat) (x : Engine), (∀ n ∈ ns, n < k) → Engine.Within l x (ns.foldl (fun x n => f n x) x) := by
    intro ns
    induction ns with
    | nil => exact fun x _ => .refl l x
    | cons n ns ih => exact fun x hns => (h n (hns n (by simp)) x).trans (ih _ fun i hi => hns i (by simp [hi]))
  exact hfold _ m (by simp)

/-- Such a loop may be taken off the end of a chain. -/
theorem within_loop {k : Nat} {f : Nat → Engine → Engine} (h : ∀ n < k, ∀ x : Engine, Engine.Within l x (f n x)) : Engine.Within l m (forEach k f m') ↔ Engine.Within l m m' :=
  (within_forEach h).step_self

theorem within_foldl {α : Type} {f : Engine → α → Engine} (xs : List α) (h : ∀ (x : Engine) (a : α), a ∈ xs → Engine.Within l x (f x a)) : Engine.Within l m (xs.foldl f m) := by
  induction xs generalizing m with
  | nil => exact .refl l m
  | cons a xs ih => exact (h m a (by simp)).trans (ih fun x b hb => h x b (by simp [hb]))

theorem within_fold {α : Type} {f : Engine → α → Engine} (xs : List α) (h : ∀ (x : Engine) (a : α), a ∈ xs → Engine.Within l x (f x a)) :
    Engine.Within l m (xs.foldl f m') ↔ Engine.Within l m m' := (within_foldl xs h).step_self

end Chain

end Sys2Proof.Machine
end

section
/-! SUPPORT. The parts of the register file that configuration writes and arming requests may change (R82, R83, R455, R456). -/
namespace Sys2Proof.Machine
open Sys2Proof

variable {l : List Part} {m m' : Engine}

theorem within_edgeInv {n : Nat} (hn : n < 48) (h : partsIn [.of .ruB] l = true) : Engine.Within l m (m'.edgeInv n) ↔ Engine.Within l m m' := by
  have hstatus : inParts [.of .ruB] (R.RU_STATUS n) = true := inParts_of_block (blockAt_ru hn (by unfold R.RU_STATUS; omega) (by unfold R.RU_STATUS; omega)) rfl
  have hpage : inParts [.of .ruB] (statusAddr (R.E_RU_CFG n).page) = true :=
    inParts_of_block (blockAt_ru hn (by simp only [statusAddr, R.E_RU_CFG]; omega) (by simp only [statusAddr, R.E_RU_CFG]; omega)) rfl
  refine Engine.Within.step (k := [.of .ruB]) ?_ h
  unfold Engine.edgeInv
  dsimp only
  simp [within_setFlag (f := R.RU_STATUS_EDGE_INV n) _ hstatus, within_status hpage]

@[simp] theorem within_clearVer (s : Bool) (h : partsIn [.of .confB] l = true) : Engine.Within l m (m'.clearVer s) ↔ Engine.Within l m m' := by
  refine Engine.Within.step (k := [.of .confB]) ?_ h
  cases s <;> simp +decide [Engine.clearVer]

@[simp] theorem within_verify (s : Bool) (h : partsIn [.of .confB] l = true) : Engine.Within l m (m'.verify s) ↔ Engine.Within l m m' := by
  refine Engine.Within.step (k := [.of .confB]) ?_ h
  unfold Engine.verify
  split <;> simp +decide [↓within_update]

@[simp] theorem within_setcrcWritten (s : Bool) (h : partsIn [.of .confB] l = true) : Engine.Within l m (m'.setcrcWritten s) ↔ Engine.Within l m m' := by
  refine Engine.Within.step (k := [.of .confB]) ?_ h
  simp +decide [Engine.setcrcWritten]

@[simp] theorem within_tsetWritten (w : Word) (h : partsIn [.of .confB] l = true) : Engine.Within l m (m'.tsetWritten w) ↔ Engine.Within l m m' := by
  refine Engine.Within.step (k := [.of .confB]) ?_ h
  unfold Engine.tsetWritten
  simp +decide

@[simp] theorem within_gateForce (a b : Lines) : Engine.Within l m (m'.gateForce a b) ↔ Engine.Within l m m' := by simp [Engine.gateForce]

@[simp] theorem within_lineWritten (i : Nat) (b : Bool) : Engine.Within l m (m'.lineWritten i b) ↔ Engine.Within l m m' := by
  refine Engine.Within.step_self ?_
  simp [Engine.lineWritten]

/-! A held write (R82). It changes RW bits alone, so it leaves a register without them. -/

theorem mergeRw_of_not_writable {a : Nat} (h : writable a = false) (old v : Word) : mergeRw a old v = old := by
  unfold writable at h
  unfold mergeRw
  cases hdec : decodeReg (a % 0x100000) with
  | none => rfl
  | some hit =>
    have h0 : BitVec.ofNat 32 hit.row.rw = 0#32 := by simpa [hdec] using h
    simp only [h0]
    rw [BitVec.and_zero, BitVec.zero_or, BitVec.not_zero, BitVec.and_allOnes]

/-- The parts that a configuration write may change. -/
def configParts : List Part := [.config, .of .ruB, .of .confB]

/-- The write of a register's RW bits. -/
theorem within_mergeRw (a : Nat) (v : Word) (h : partsIn [.config] l = true) : Engine.Within l m (m'.setReg a (mergeRw a (m'.reg a) v)) ↔ Engine.Within l m m' := by
  refine Engine.Within.step (k := [.config]) (.of_parts rfl (fun b hb => ?_) rfl rfl rfl rfl rfl rfl) h
  by_cases hba : b = a
  · subst hba
    have hw : writable b = false := by simpa [inParts, Part.has] using hb
    rw [Engine.reg_setReg_same, mergeRw_of_not_writable hw]
  · exact Engine.reg_setReg_ne _ _ hba

theorem within_takeConfig (a : Nat) (v : Word) (h : partsIn configParts l = true) : Engine.Within l m (m'.takeConfig a v) ↔ Engine.Within l m m' := by
  refine Engine.Within.step (k := configParts) ?_ h
  unfold Engine.takeConfig
  dsimp only
  split
  · next n hpage =>
    have hn : n < 48 := lt_of_pageOf_ru hpage
    simp +decide only [within_ite, within_edgeInv hn, ↓within_update, within_mergeRw, Engine.Within.refl, implies_true, and_self, or_true]
  all_goals
    simp +decide only [within_ite, within_tsetWritten, within_setcrcWritten, within_lineWritten, ↓within_update, within_mergeRw, Engine.Within.refl, implies_true, and_self, or_true]

/-- The parts that held writes may change as they are applied, with the bits that show them pending. -/
def heldParts : List Part := [.config, .of .intkB, .of .ruB, .of .confB, .of .gateB, .of .weirB, .of .storeB]

theorem pendField_held {a : Nat} {f : Field} (h : pendField a = some f) : inParts heldParts f.addr = true := by
  unfold pendField at h
  split at h
  · next n hpage =>
    have hn : n < 48 := lt_of_pageOf_intk hpage
    obtain rfl := Option.some.inj h
    exact inParts_of_block (blockAt_intk hn (by simp only [R.INTK_STATUS_PEND, R.INTK_STATUS]; omega) (by simp only [R.INTK_STATUS_PEND, R.INTK_STATUS]; omega)) rfl
  · next n hpage =>
    have hn : n < 48 := lt_of_pageOf_ru hpage
    obtain rfl := Option.some.inj h
    exact inParts_of_block (blockAt_ru hn (by simp only [R.RU_STATUS_PEND, R.RU_STATUS]; omega) (by simp only [R.RU_STATUS_PEND, R.RU_STATUS]; omega)) rfl
  case h_8 => simp at h
  all_goals
    obtain rfl := Option.some.inj h
    decide

theorem within_applyHeld (h : partsIn heldParts l = true) : Engine.Within l m m'.applyHeld ↔ Engine.Within l m m' := by
  refine Engine.Within.step (k := heldParts) ?_ h
  unfold Engine.applyHeld
  dsimp only
  refine (show Engine.Within heldParts m' { m' with held := [] } by simp only [↓within_update, Engine.Within.refl, and_self, or_true]).trans (within_foldl _ fun x p _ => ?_)
  split
  · simp +decide [within_takeConfig]
  · next f hf => simp +decide [within_takeConfig, within_setFlag _ (pendField_held hf)]

theorem within_holdLate (a : Nat) (v : Word) (h : partsIn heldParts l = true) : Engine.Within l m (m'.holdLate a v) ↔ Engine.Within l m m' := by
  refine Engine.Within.step (k := heldParts) ?_ h
  unfold Engine.holdLate
  dsimp only
  split
  · simp +decide [↓within_update]
  · next f hf => simp +decide only [↓within_update, within_setFlag _ (pendField_held hf), Engine.Within.refl, and_self, or_true]

theorem within_takeBack (h : partsIn configParts l = true) : Engine.Within l m m'.takeBack ↔ Engine.Within l m m' := by
  refine Engine.Within.step (k := configParts) ?_ h
  unfold Engine.takeBack
  refine (show Engine.Within configParts m' { m' with store := { m'.store with ruWrites := [] } } by simp only [↓within_update, Engine.Within.refl, and_self, or_true]).trans (within_foldl _ fun x w _ => ?_)
  split
  · simp only [↓within_update, Engine.Within.refl, and_self, or_true]
  · simp +decide [within_takeConfig]

/-! Arming requests end (R455, R456). -/

@[simp] theorem within_armReport (r d s : Nat) (h : partsIn [.of .sysB] l = true) : Engine.Within l m (m'.armReport r d s) ↔ Engine.Within l m m' := by
  refine Engine.Within.step (k := [.of .sysB]) ?_ h
  unfold Engine.armReport
  simp +decide

/-- The parts that the end of a request may change. -/
def dropParts : List Part := .of .sysB :: .queue :: heldParts

@[simp] theorem within_armEnd (h : partsIn [.of .sysB, .queue] l = true) : Engine.Within l m m'.armEnd ↔ Engine.Within l m m' := by
  refine Engine.Within.step (k := [.of .sysB, .queue]) ?_ h
  unfold Engine.armEnd
  dsimp only
  split
  · simp +decide [↓within_update]
  · simp +decide only [↓within_update, within_setFlag, Engine.Within.refl, and_self, or_true, true_or]

theorem within_armDrop (h : partsIn dropParts l = true) : Engine.Within l m m'.armDrop ↔ Engine.Within l m m' := by
  refine Engine.Within.step (k := dropParts) ?_ h
  unfold Engine.armDrop
  simp +decide [within_applyHeld]

theorem within_armRefuse (r d : Nat) (h : partsIn dropParts l = true) : Engine.Within l m (m'.armRefuse r d) ↔ Engine.Within l m m' := by
  refine Engine.Within.step (k := dropParts) ?_ h
  unfold Engine.armRefuse
  simp +decide [within_armDrop]

end Sys2Proof.Machine
end

section
/-! SUPPORT. Arming requests: what each outcome leaves (R455, R456). -/
namespace Sys2Proof.Machine
open Sys2Proof

/-! The report of a request's outcome. -/

theorem Engine.reg_armReport_off {l : List Nat} {a : Nat} (ha : a ∉ l) (m : Engine) (r d src : Nat)
    (hl : ∀ b ∈ [R.SYS_ARM_LO, R.SYS_ARM_HI, statusAddr 4], b ∈ l) : (m.armReport r d src).reg a = m.reg a := by
  simp only [List.forall_mem_cons] at hl
  obtain ⟨hlo, hhi, hpage, -⟩ := hl
  unfold Engine.armReport
  dsimp only
  split
  all_goals
    simp only [Engine.reg_status_off (b := R.E_SYS_ARM_DONE) ha _ hpage, Engine.reg_status_off (b := R.E_SYS_ARM_REF) ha _ hpage, Engine.reg_setReg_off ha _ _ hhi, Engine.reg_setReg_off ha _ _ hlo]

/-- The report's registers, before the PAGE_STATUS bits. -/
theorem Engine.reg_armReport_ne (m : Engine) (r d src : Nat) {a : Nat} (ha : a ≠ statusAddr 4) :
    (m.armReport r d src).reg a = ((m.setReg R.SYS_ARM_LO (BitVec.ofNat 32 d)).setReg R.SYS_ARM_HI (BitVec.ofNat 32 (r + src * 2 ^ 8))).reg a := by
  unfold Engine.armReport
  dsimp only
  split
  · exact Engine.reg_status_ne _ R.E_SYS_ARM_DONE ha
  · exact (Engine.reg_status_ne _ R.E_SYS_ARM_REF ha).trans (Engine.reg_status_ne _ R.E_SYS_ARM_DONE ha)

theorem Engine.reg_armReport_lo (m : Engine) (r d src : Nat) : (m.armReport r d src).reg R.SYS_ARM_LO = BitVec.ofNat 32 d := by
  rw [Engine.reg_armReport_ne _ _ _ _ (by decide), Engine.reg_setReg_ne _ _ (by decide), Engine.reg_setReg_same]

theorem Engine.reg_armReport_hi (m : Engine) (r d src : Nat) : (m.armReport r d src).reg R.SYS_ARM_HI = BitVec.ofNat 32 (r + src * 2 ^ 8) := by
  rw [Engine.reg_armReport_ne _ _ _ _ (by decide), Engine.reg_setReg_same]

/-- The reason of the report. -/
theorem Engine.fld_armReport_reason (m : Engine) {r : Nat} (d src : Nat) (hr : r < 256) : (m.armReport r d src).fld R.SYS_ARM_HI_REASON = r := by
  refine (congrArg (bitsOf ·.toNat 0 8) (m.reg_armReport_hi r d src)).trans ?_
  simp only [BitVec.toNat_ofNat, bitsOf, Nat.shiftRight_zero]
  omega

/-- A request that ended shows done; a refused one also refused. -/
theorem Engine.hasBit_armReport (m : Engine) (r d src : Nat) :
    (m.armReport r d src).hasBit R.E_SYS_ARM_DONE = true ∧ (m.armReport r d src).hasBit R.E_SYS_ARM_REF = (decide (r ≠ 0) || m.hasBit R.E_SYS_ARM_REF) := by
  unfold Engine.armReport
  dsimp only
  split
  · next h => simp +decide [h, Engine.hasBit_status, Engine.hasBit_setReg_ne]
  · next h => simp +decide [h, Engine.hasBit_status]

@[simp] theorem Engine.armReport_arming (m : Engine) (r d src : Nat) : (m.armReport r d src).arming = m.arming := by
  unfold Engine.armReport; dsimp only; split <;> simp
@[simp] theorem Engine.armReport_rota (m : Engine) (r d src : Nat) : (m.armReport r d src).rota = m.rota := by
  unfold Engine.armReport; dsimp only; split <;> simp

/-! A write of SYS.CTL, which has no RW bits, changes the engine only through the request it makes. -/

/-- The engine that a write of SYS.CTL acts on: it reads as before. -/
def Engine.ctlWritten (m : Engine) (v : Word) : Engine := m.storeFields sysCtlHit R.SYS_CTL v

@[simp] theorem Engine.reg_ctlWritten (m : Engine) (v : Word) (a : Nat) : (m.ctlWritten v).reg a = m.reg a := m.reg_storeFields_of_no_rw R.SYS_CTL v (by decide) a
@[simp] theorem Engine.fld_ctlWritten (m : Engine) (v : Word) (f : Field) : (m.ctlWritten v).fld f = m.fld f := Engine.fld_of_reg (by simp)
@[simp] theorem Engine.flag_ctlWritten (m : Engine) (v : Word) (f : Field) : (m.ctlWritten v).flag f = m.flag f := Engine.flag_of_reg (by simp)
@[simp] theorem Engine.armed_ctlWritten (m : Engine) (v : Word) : (m.ctlWritten v).armed = m.armed := m.flag_ctlWritten v _
@[simp] theorem Engine.settled_ctlWritten (m : Engine) (v : Word) : (m.ctlWritten v).settled = m.settled := m.flag_ctlWritten v _
@[simp] theorem Engine.cisReady_ctlWritten (m : Engine) (v : Word) : (m.ctlWritten v).cisReady = m.cisReady := by simp [Engine.cisReady]
@[simp] theorem Engine.ctlWritten_arming (m : Engine) (v : Word) : (m.ctlWritten v).arming = m.arming := rfl
@[simp] theorem Engine.ctlWritten_held (m : Engine) (v : Word) : (m.ctlWritten v).held = m.held := rfl
@[simp] theorem Engine.ctlWritten_store (m : Engine) (v : Word) : (m.ctlWritten v).store = m.store := rfl
@[simp] theorem Engine.ctlWritten_tb (m : Engine) (v : Word) : (m.ctlWritten v).tb = m.tb := rfl
@[simp] theorem Engine.ctlWritten_cc (m : Engine) (v : Word) : (m.ctlWritten v).cc = m.cc := rfl
@[simp] theorem Engine.ctlWritten_armSpan (m : Engine) (v : Word) : (m.ctlWritten v).armSpan = m.armSpan := rfl

/-- An ARM order is an arming request of source 0. -/
theorem State.ends_arm {s : State} {port : Port} {P : State → Prop} (hacc : s.accepts port R.SYS_CTL 1 = true)
    (hP : P (s.withEng (((s.eng.ctlWritten 1).armRequest 0 none).reply (okAnswer port)))) : Ends (exec (.arm port) s) P :=
  State.ends_write hacc decodeReg_sysCtl (Chip.writeAt_sysCtl _ 1) hP

/-- A DISARM order cancels what runs and disarms. -/
theorem State.ends_disarm {s : State} {port : Port} {P : State → Prop} (hacc : s.accepts port R.SYS_CTL 2 = true)
    (hP : P (s.withEng ((s.eng.ctlWritten 2).disarm.reply (okAnswer port)))) : Ends (exec (.disarm port) s) P :=
  State.ends_write hacc decodeReg_sysCtl (Chip.writeAt_sysCtl _ 2) hP

end Sys2Proof.Machine
end

section
/-! SUPPORT. An arming request up to its checks, and checks that cannot go on (R83, R455). -/
namespace Sys2Proof.Machine
open Sys2Proof

/-- A request as SYS.CTL makes it: it takes the STREAM registers as they stand (R30). -/
def Engine.ctlRequest (m : Engine) : ArmReq := { src := 0, since := m.cc, stream := (List.range 48).map (fun n => m.heldReg (R.RU_STREAM n)) }

/-- The request starts: it is noted, and SYS.STATUS and SYS.CTL show it. -/
def Engine.asks (m : Engine) : Engine := { m with arming := some m.ctlRequest }.setFlag R.SYS_STATUS_ARMING true

/-- A request taken up to its checks: the reach configuration written in its cycle waits until it ends. -/
def Engine.armAsked (m : Engine) : Engine :=
  (m.cycleWrites.foldl (fun m w => m.holdLate w.addr w.new) m.takeBack.asks).setFlag R.SYS_CTL_ARM true

theorem Engine.armRequest_of_busy {m : Engine} (h : m.armed = true ∨ m.arming.isSome = true) : m.armRequest 0 none = m := by
  have hbusy : (m.armed || m.arming.isSome) = true := by simpa using h
  simp only [Engine.armRequest, hbusy, if_true]

theorem Engine.armRequest_of_settled {m : Engine} (harmed : m.armed = false) (hnone : m.arming = none) (hset : m.settled = true) :
    m.armRequest 0 none = m.armReport 14 (m.fld R.SAFE_STATUS_CAUSE) 0 := by
  simp only [Engine.armRequest, harmed, hnone, hset, Option.isSome_none, Bool.or_self, Bool.false_eq_true, if_false, if_true]

theorem Engine.armRequest_of_idle {m : Engine} (harmed : m.armed = false) (hnone : m.arming = none) (hset : m.settled = false) :
    m.armRequest 0 none = m.armAsked.armChecks := by
  simp only [Engine.armRequest, harmed, hnone, hset, Option.isSome_none, Bool.or_self, Bool.false_eq_true, if_false, if_true]
  rfl

/-- Checks wait for the cistern. -/
theorem Engine.armChecks_of_not_ready {m : Engine} (h : m.cisReady = false) : m.armChecks = m := by
  unfold Engine.armChecks
  split
  · rfl
  · rw [if_pos (by simp [h])]

/-- Checks that have passed are over. -/
theorem Engine.armChecks_of_passed {m : Engine} {r : ArmReq} (h : m.arming = some r) (hr : r.passed = true) : m.armChecks = m := by
  simp [Engine.armChecks, h, hr]

/-! With no reach configuration written in the cycle. -/

theorem Engine.armAsked_of_no_writes {m : Engine} (h : m.cycleWrites = []) :
    m.armAsked = (m.setStore { m.store with ruWrites := [] }).asks.setFlag R.SYS_CTL_ARM true := by
  simp only [Engine.armAsked, Engine.takeBack, h, List.reverse_nil, List.foldl_nil]
  rfl

/-! With some. -/

/-- Writes held with a request leave it as it is but for their list, which they join. -/
theorem Engine.arming_foldl_holdLate (ws : List RuWrite) {m : Engine} {r : ArmReq} (h : m.arming = some r) :
    (ws.foldl (fun m w => m.holdLate w.addr w.new) m).arming = some { r with late := r.late ++ ws.map (fun w => (w.addr, w.new)) } := by
  induction ws generalizing m r with
  | nil => simp [h]
  | cons w ws ih =>
    have hw : (m.holdLate w.addr w.new).arming = some { r with late := r.late ++ [(w.addr, w.new)] } := by
      unfold Engine.holdLate
      dsimp only
      split <;> simp [h]
    rw [List.foldl_cons, ih hw]
    simp

theorem Engine.arming_armAsked (m : Engine) :
    m.armAsked.arming = some { m.takeBack.ctlRequest with late := m.cycleWrites.map (fun w => (w.addr, w.new)) } := by
  have h : m.takeBack.asks.arming = some m.takeBack.ctlRequest := rfl
  simp only [Engine.armAsked, Engine.setFlag_arming, Engine.arming_foldl_holdLate _ h]
  rfl

theorem within_armAsked {l : List Part} {m m' : Engine} (h : partsIn (.of .sysB :: heldParts) l = true) : Engine.Within l m m'.armAsked ↔ Engine.Within l m m' := by
  refine Engine.Within.step (k := .of .sysB :: heldParts) ?_ h
  have hfold : Engine.Within heldParts m'.takeBack.asks (m'.cycleWrites.foldl (fun m w => m.holdLate w.addr w.new) m'.takeBack.asks) :=
    within_foldl _ fun x w _ => by simp +decide [within_holdLate]
  unfold Engine.armAsked
  rw [within_setFlag _ (by decide), hfold.step (by decide)]
  unfold Engine.asks
  simp +decide only [within_setFlag, ↓within_update, within_takeBack, Engine.Within.refl]

/-- The request shows in SYS.STATUS and SYS.CTL. -/
theorem Engine.flag_armAsked (m : Engine) : m.armAsked.flag R.SYS_STATUS_ARMING = true ∧ m.armAsked.flag R.SYS_CTL_ARM = true := by
  have hfold : Engine.Within heldParts m.takeBack.asks (m.cycleWrites.foldl (fun m w => m.holdLate w.addr w.new) m.takeBack.asks) :=
    within_foldl _ fun x w _ => by simp +decide [within_holdLate]
  refine ⟨?_, Engine.flag_setFlag_same _ _ _ (by decide) rfl⟩
  unfold Engine.armAsked
  rw [Engine.flag_setFlag_ne _ _ (by decide), hfold.flag (by decide)]
  exact Engine.flag_setFlag_same _ _ _ (by decide) rfl

end Sys2Proof.Machine
end

section
/-! SUPPORT. The end of an arming request, and disarming (R14, R83, R456). -/
namespace Sys2Proof.Machine
open Sys2Proof

/-- A request is over: the writes held with it join the held ones. -/
def Engine.requestOver (m : Engine) : Engine := { m with arming := none, held := m.allHeld }

@[simp] theorem Engine.reg_requestOver (m : Engine) (a : Nat) : m.requestOver.reg a = m.reg a := rfl
@[simp] theorem Engine.flag_requestOver (m : Engine) (f : Field) : m.requestOver.flag f = m.flag f := rfl

/-- What the end of a request leaves in the rota's queue. -/
def Engine.queueAfter (m : Engine) : RotaState :=
  match m.arming.bind (·.act) with
  | none => m.rota
  | some a => { m.rota with queue := m.rota.queue.erase a }

theorem Engine.armEnd_eq (m : Engine) : m.armEnd = ((m.requestOver.setFlag R.SYS_STATUS_ARMING false).setFlag R.SYS_CTL_ARM false).setRota m.queueAfter := by
  unfold Engine.armEnd Engine.queueAfter
  cases m.arming.bind (·.act) <;> rfl

@[simp] theorem Engine.armEnd_arming (m : Engine) : m.armEnd.arming = none := by rw [Engine.armEnd_eq]; rfl
@[simp] theorem Engine.armEnd_held (m : Engine) : m.armEnd.held = m.allHeld := by rw [Engine.armEnd_eq]; rfl
@[simp] theorem Engine.armEnd_rota (m : Engine) : m.armEnd.rota = m.queueAfter := by rw [Engine.armEnd_eq]; rfl
@[simp] theorem Engine.armEnd_store (m : Engine) : m.armEnd.store = m.store := by rw [Engine.armEnd_eq]; rfl

theorem Engine.reg_armEnd_off {l : List Nat} {a : Nat} (ha : a ∉ l) (m : Engine) (hl : ∀ b ∈ [R.SYS_STATUS, R.SYS_CTL], b ∈ l) : m.armEnd.reg a = m.reg a := by
  simp only [List.forall_mem_cons] at hl
  obtain ⟨hstatus, hctl, -⟩ := hl
  rw [Engine.armEnd_eq, Engine.reg_setRota, Engine.reg_setFlag_off ha _ _ hctl, Engine.reg_setFlag_off ha _ _ hstatus, Engine.reg_requestOver]

theorem Engine.flag_armEnd_arming (m : Engine) : m.armEnd.flag R.SYS_STATUS_ARMING = false := by
  rw [Engine.armEnd_eq, Engine.flag_setRota, Engine.flag_setFlag_ne _ _ (by decide), Engine.flag_setFlag_same _ _ _ (by decide) rfl]

@[simp] theorem Engine.armed_armEnd (m : Engine) : m.armEnd.armed = m.armed := by
  unfold Engine.armed
  rw [Engine.armEnd_eq, Engine.flag_setRota, Engine.flag_setFlag_ne _ _ (by decide), Engine.flag_setFlag_beside _ R.SYS_STATUS_ARMING R.SYS_STATUS_ARMED _ rfl (by decide), Engine.flag_requestOver]

/-! With no held write at hand, the end of a request applies none. -/

theorem Engine.applyHeld_of_empty {m : Engine} (h : m.held = []) : m.applyHeld = m := by
  have hm : { m with held := [] } = m := by rw [← h]
  simp [Engine.applyHeld, h, hm]

theorem Engine.armDrop_of_empty {m : Engine} (h : m.allHeld = []) : m.armDrop = m.armEnd := by
  have hend : m.armEnd.applyHeld = m.armEnd := Engine.applyHeld_of_empty (by simp [h])
  simp [Engine.armDrop, hend]

theorem Engine.allHeld_of_empty {m : Engine} {r : ArmReq} (hr : m.arming = some r) (hheld : m.held = []) (hlate : r.late = []) : m.allHeld = [] := by
  simp [Engine.allHeld, hr, hheld, hlate]

theorem Engine.armRefuse_of_empty {m : Engine} {r : ArmReq} (hr : m.arming = some r) (hheld : m.held = []) (hlate : r.late = []) (reason detail : Nat) :
    m.armRefuse reason detail = m.armEnd.armReport reason detail r.src := by
  simp [Engine.armRefuse, Engine.armDrop_of_empty (Engine.allHeld_of_empty hr hheld hlate), hr]

/-- A refused request leaves all but the registers that report it. -/
theorem Engine.reg_armRefuse_off {l : List Nat} {a : Nat} (ha : a ∉ l) {m : Engine} {r : ArmReq} (hr : m.arming = some r) (hheld : m.held = []) (hlate : r.late = [])
    (reason detail : Nat) (hl : ∀ b ∈ [R.SYS_STATUS, R.SYS_CTL, R.SYS_ARM_LO, R.SYS_ARM_HI, statusAddr 4], b ∈ l) : (m.armRefuse reason detail).reg a = m.reg a := by
  simp only [List.forall_mem_cons] at hl
  obtain ⟨hstatus, hctl, hlo, hhi, hpage, -⟩ := hl
  rw [Engine.armRefuse_of_empty hr hheld hlate, Engine.reg_armReport_off ha _ _ _ _ (by simp [hlo, hhi, hpage]), Engine.reg_armEnd_off ha _ (by simp [hstatus, hctl])]

theorem Engine.flag_armReport_ne (m : Engine) (r d src : Nat) {f : Field} (h : f.addr ∉ [R.SYS_ARM_LO, R.SYS_ARM_HI, statusAddr 4]) : (m.armReport r d src).flag f = m.flag f :=
  Engine.flag_of_reg (m.reg_armReport_off h r d src fun _ hb => hb)

/-- What a refusal shows: no request any more, nothing armed or disarmed, the reason and its detail. -/
theorem Engine.armRefuse_shows {m : Engine} {r : ArmReq} (hr : m.arming = some r) (hheld : m.held = []) (hlate : r.late = []) {reason : Nat} (detail : Nat)
    (h0 : reason ≠ 0) (hreason : reason < 256) :
    (m.armRefuse reason detail).armed = m.armed ∧ (m.armRefuse reason detail).arming = none ∧ (m.armRefuse reason detail).flag R.SYS_STATUS_ARMING = false ∧
      (m.armRefuse reason detail).fld R.SYS_ARM_HI_REASON = reason ∧ (m.armRefuse reason detail).reg R.SYS_ARM_LO = BitVec.ofNat 32 detail ∧
      (m.armRefuse reason detail).hasBit R.E_SYS_ARM_REF = true := by
  rw [Engine.armRefuse_of_empty hr hheld hlate]
  refine ⟨?_, by simp, ?_, Engine.fld_armReport_reason _ _ _ hreason, Engine.reg_armReport_lo _ _ _ _, ?_⟩
  · exact (Engine.flag_armReport_ne _ _ _ _ (by decide)).trans m.armed_armEnd
  · exact (Engine.flag_armReport_ne _ _ _ _ (by decide)).trans m.flag_armEnd_arming
  · simp [(Engine.hasBit_armReport _ _ _ _).2, h0]

end Sys2Proof.Machine
end

section
/-! SUPPORT. What arming does: the sluice, the thresholds and storage (R14, R42, R139, R141, R219, R225). -/
namespace Sys2Proof.Machine
open Sys2Proof

/-! Fields fit their widths. -/

theorem Engine.fld_lt (m : Engine) (f : Field) : m.fld f < 2 ^ f.width := Nat.mod_lt _ (Nat.two_pow_pos _)

theorem Engine.curSeg_lt (m : Engine) : m.curSeg < 256 := m.fld_lt R.STORE_STATUS_CURRENT

theorem Engine.trainFirst_lt (m : Engine) : m.trainFirst < 256 := by
  unfold Engine.trainFirst
  split
  · split
    · exact m.fld_lt _
    · exact m.fld_lt _
  · exact m.fld_lt _

/-! The registers of a segment descriptor. -/

section Seg
variable {l : List Part} {s a : Nat}

/-- A register of one of the 256 descriptors is a SEG register. -/
theorem inParts_seg (hs : s < 256) (hl : l.contains (.of .segB) = true) (k : Nat) (hk : k < 0x3C) : inParts l (segBase s + k) = true :=
  inParts_of_block (blockAt_seg hs (Nat.le_add_right _ _) (Nat.add_lt_add_left hk _)) hl

end Seg

/-- The parts that storage may change: the FIFO counts of the reaches, the weir, the store and the segments. -/
def storeParts : List Part := [.of .ruB, .of .weirB, .of .storeB, .of .segB]

variable {l : List Part} {m m' : Engine}

theorem within_markerPack (close : Nat) (h : partsIn [.of .storeB, .of .segB] l = true) : Engine.Within l m (m'.markerPack close) ↔ Engine.Within l m m' := by
  refine Engine.Within.step (k := [.of .storeB, .of .segB]) ?_ h
  have hseg : ∀ k, k < 0x3C → inParts [.of .storeB, .of .segB] (segBase m'.curSeg + k) = true := inParts_seg m'.curSeg_lt rfl
  have hpage : inParts [.of .storeB, .of .segB] (statusAddr (R.E_SEG_MKFULL m'.curSeg).page) = true := by
    have hs := m'.curSeg_lt
    exact inParts_of_block (blockAt_segPage hs (by simp only [statusAddr, R.E_SEG_MKFULL]; omega) (by simp only [statusAddr, R.E_SEG_MKFULL]; omega)) rfl
  unfold Engine.markerPack
  dsimp only
  split
  · simp
  split
  · simp +decide [within_status hpage, within_setFlag (f := R.SEG_STATUS_MKFULL m'.curSeg) _ (hseg 0x18 (by decide))]
  · simp [within_setFld (f := R.SEG_MARK_MKUSED m'.curSeg) _ (hseg 0xC (by decide))]

theorem within_mark (k : Marker) (h : partsIn [.of .storeB, .of .segB] l = true) : Engine.Within l m (m'.mark k) ↔ Engine.Within l m m' := by
  refine Engine.Within.step (k := [.of .storeB, .of .segB]) ?_ h
  unfold Engine.mark
  simp +decide [within_markerPack]

/-- A segment opens. -/
theorem within_openSegment {s : Nat} (hs : s < 256) (t : Tb) (h : partsIn [.of .storeB, .of .segB] l = true) : Engine.Within l m (m'.openSegment s t) ↔ Engine.Within l m m' := by
  refine Engine.Within.step (k := [.of .storeB, .of .segB]) ?_ h
  have hseg : ∀ k, k < 0x3C → inParts [.of .storeB, .of .segB] (segBase s + k) = true := inParts_seg hs rfl
  unfold Engine.openSegment
  dsimp only
  simp +decide [within_mark, within_setFlag (f := R.SEG_STATUS_OVERWROTE s) _ (hseg 0x18 (by decide)), within_setFld (f := R.SEG_MARK_MKUSED s) _ (hseg 0xC (by decide)),
    within_setReg (a := R.SEG_TRIGCNTS s) _ (hseg 0x38 (by decide)), within_setReg64 (a := R.SEG_CLOSE_TB_LO s) _ (hseg 0x30 (by decide)) (hseg 0x34 (by decide)),
    within_setReg64 (a := R.SEG_TRIG_TB_LO s) _ (hseg 0x28 (by decide)) (hseg 0x2C (by decide)), within_setReg64 (a := R.SEG_OPEN_TB_LO s) _ (hseg 0x20 (by decide)) (hseg 0x24 (by decide)),
    within_setFld (f := ⟨R.SEG_STATUS s, 0, 11⟩) _ (hseg 0x18 (by decide))]

theorem within_setSteps {n : Nat} (hn : n < 48) (k : Nat) (h : partsIn [.of .weirB] l = true) : Engine.Within l m (m'.setSteps n k) ↔ Engine.Within l m m' := by
  refine Engine.Within.step (k := [.of .weirB]) ?_ h
  have hsteps : inParts [.of .weirB] (R.WEIR_STEPS (n / 8)) = true := inParts_of_block (blockAt_weir (by unfold R.WEIR_STEPS; omega) (by unfold R.WEIR_STEPS; omega)) rfl
  have hmax : inParts [.of .weirB] (R.WEIR_STEPMAX (n / 8)) = true := inParts_of_block (blockAt_weir (by unfold R.WEIR_STEPMAX; omega) (by unfold R.WEIR_STEPMAX; omega)) rfl
  unfold Engine.setSteps
  dsimp only
  simp +decide [hsteps, hmax]

@[simp] theorem within_setSto (n : Nat) (x : StoreIntake) : Engine.Within l m (m'.setSto n x) ↔ Engine.Within l m m' := by simp [Engine.setSto]

theorem within_storeArm (t : Tb) (h : partsIn storeParts l = true) : Engine.Within l m (m'.storeArm t) ↔ Engine.Within l m m' := by
  refine Engine.Within.step (k := storeParts) ?_ h
  unfold Engine.storeArm
  dsimp only
  rw [within_setFlag _ (by decide), within_openSegment (Engine.trainFirst_lt _) _ (by decide), within_setStore _ (by simp)]
  exact within_forEach fun n hn x => by simp +decide [within_setSteps hn]

/-! Thresholds and the sluice. -/

theorem within_disturb {n : Nat} (hn : n < 48) (h : partsIn [.of .intkB] l = true) : Engine.Within l m (m'.disturb n) ↔ Engine.Within l m m' := by
  refine Engine.Within.step (k := [.of .intkB]) ?_ h
  have hreg : inParts [.of .intkB] (R.INTK_CALSTAT_DISTURBED n).addr = true :=
    inParts_of_block (blockAt_intk hn (by simp only [R.INTK_CALSTAT_DISTURBED, R.INTK_CALSTAT]; omega) (by simp only [R.INTK_CALSTAT_DISTURBED, R.INTK_CALSTAT]; omega)) rfl
  simp [Engine.disturb, hreg]

theorem within_showSet {n : Nat} (hn : n < 48) (last : Nat) (t : Tb) (h : partsIn [.of .intkB] l = true) : Engine.Within l m (m'.showSet n last t) ↔ Engine.Within l m m' := by
  refine Engine.Within.step (k := [.of .intkB]) ?_ h
  have hreg : ∀ k, k < 0x1000 → inParts [.of .intkB] (0x10000 + k + 0x1000 * n) = true := fun k hk => inParts_of_block (blockAt_intk hn (by omega) (by omega)) rfl
  have hset : inParts [.of .intkB] (R.INTK_STATUS_ACTIVE_SET n).addr = true := hreg 0x58 (by decide)
  have hlo : inParts [.of .intkB] (R.INTK_SWAP_TB_LO n) = true := hreg 0x78 (by decide)
  have hhi : inParts [.of .intkB] (R.INTK_SWAP_TB_LO n + 4) = true := by
    rw [show R.INTK_SWAP_TB_LO n + 4 = 0x10000 + 0x7C + 0x1000 * n by unfold R.INTK_SWAP_TB_LO; omega]
    exact hreg 0x7C (by decide)
  unfold Engine.showSet
  dsimp only
  split
  · simp
  · split <;> simp [hset, hlo, hhi]

theorem within_changeSet {n : Nat} (hn : n < 48) (off : Nat) (b w r : Bool) (h : partsIn [.of .intkB] l = true) : Engine.Within l m (m'.changeSet n off b w r) ↔ Engine.Within l m m' := by
  refine Engine.Within.step (k := [.of .intkB]) ?_ h
  simp +decide [Engine.changeSet, within_showSet hn]

@[simp] theorem within_changeTables (p : Nat) (b : Bool) (h : partsIn [.of .confB] l = true) : Engine.Within l m (m'.changeTables p b) ↔ Engine.Within l m m' := by
  refine Engine.Within.step (k := [.of .confB]) ?_ h
  unfold Engine.changeTables
  dsimp only
  simp +decide only [within_ite, within_status, within_setFlag, ↓within_update, Engine.Within.refl, implies_true, and_self, or_true]

@[simp] theorem within_setLevel (a b : Nat) (h : partsIn [.of .sluB] l = true) : Engine.Within l m (m'.setLevel a b) ↔ Engine.Within l m m' := by
  refine Engine.Within.step (k := [.of .sluB]) ?_ h
  simp +decide [Engine.setLevel]

@[simp] theorem within_flushLvx : Engine.Within l m m'.flushLvx ↔ Engine.Within l m m' := by
  refine Engine.Within.step_self ?_
  simp only [Engine.flushLvx, ↓within_update, Engine.Within.refl, and_self, or_true]

@[simp] theorem within_broadcast (c : Nat) (h : partsIn [.of .ruB] l = true) : Engine.Within l m (m'.broadcast c) ↔ Engine.Within l m m' := by
  refine Engine.Within.step (k := [.of .ruB]) ?_ h
  refine within_forEach fun n hn x => ?_
  have hctx : inParts [.of .ruB] (R.RU_CONTEXT_CTX n).addr = true :=
    inParts_of_block (blockAt_ru hn (by simp only [R.RU_CONTEXT_CTX, R.RU_CONTEXT]; omega) (by simp only [R.RU_CONTEXT_CTX, R.RU_CONTEXT]; omega)) rfl
  simp [hctx]

theorem within_sluiceArm (t : Memory) (p : Nat) (h : partsIn [.of .confB, .of .sluB, .of .ruB] l = true) : Engine.Within l m (m'.sluiceArm t p) ↔ Engine.Within l m m' := by
  refine Engine.Within.step (k := [.of .confB, .of .sluB, .of .ruB]) ?_ h
  unfold Engine.sluiceArm
  dsimp only
  simp +decide only [↓within_update, within_broadcast, within_flushLvx, within_setLevel, within_ite, within_setReg64, within_changeTables, Engine.Within.refl, implies_true, and_self, or_true]

end Sys2Proof.Machine
end

section
/-! SUPPORT. The state that arming leaves (R14, R139, R141, R455). -/
namespace Sys2Proof.Machine
open Sys2Proof

/-- What arming settles beside the registers and storage: the request, the span of sample cycles, the tables, the rota. -/
def Engine.orders (m : Engine) : Option ArmReq × Option (Nat × Option Nat) × Bool × List (Nat × Bool) × RotaState := (m.arming, m.armSpan, m.tableSet, m.tableChanges, m.rota)

section Orders
variable (m : Engine)

@[simp] theorem Engine.orders_ite {c : Prop} [Decidable c] (x y : Engine) : (if c then x else y).orders = if c then x.orders else y.orders := apply_ite _ _ _ _
@[simp] theorem Engine.orders_setReg (a : Nat) (v : Word) : (m.setReg a v).orders = m.orders := rfl
@[simp] theorem Engine.orders_setFld (f : Field) (v : Nat) : (m.setFld f v).orders = m.orders := rfl
@[simp] theorem Engine.orders_setFlag (f : Field) (b : Bool) : (m.setFlag f b).orders = m.orders := rfl
@[simp] theorem Engine.orders_setReg64 (a : Nat) (v : Tb) : (m.setReg64 a v).orders = m.orders := rfl
@[simp] theorem Engine.orders_addSat (a n : Nat) : (m.addSat a n).orders = m.orders := rfl
@[simp] theorem Engine.orders_addWrap (a n : Nat) : (m.addWrap a n).orders = m.orders := rfl
@[simp] theorem Engine.orders_status (b : PageBit) : (m.status b).orders = m.orders := by simp [Engine.orders]
@[simp] theorem Engine.orders_setStore (x : StoreState) : (m.setStore x).orders = m.orders := rfl
theorem Engine.orders_setPath (x : Path) : Engine.orders { m with path := x } = m.orders := rfl
@[simp] theorem Engine.orders_setSto (n : Nat) (x : StoreIntake) : (m.setSto n x).orders = m.orders := rfl
@[simp] theorem Engine.orders_setIntake (n : Nat) (x : Intake) : (m.setIntake n x).orders = m.orders := rfl
@[simp] theorem Engine.orders_flushLvx : m.flushLvx.orders = m.orders := rfl
@[simp] theorem Engine.orders_setLevel (a b : Nat) : (m.setLevel a b).orders = m.orders := rfl
@[simp] theorem Engine.orders_armReport (r d src : Nat) : (m.armReport r d src).orders = m.orders := by
  simp [Engine.armReport]

@[simp] theorem Engine.orders_markerPack (close : Nat) : (m.markerPack close).orders = m.orders := by
  simp [Engine.markerPack]

@[simp] theorem Engine.orders_mark (k : Marker) : (m.mark k).orders = m.orders := by
  simp [Engine.mark]

@[simp] theorem Engine.orders_openSegment (s : Nat) (t : Tb) : (m.openSegment s t).orders = m.orders := by
  simp [Engine.openSegment]

@[simp] theorem Engine.orders_setSteps (n k : Nat) : (m.setSteps n k).orders = m.orders := by
  simp [Engine.setSteps]

@[simp] theorem Engine.orders_storeArm (t : Tb) : (m.storeArm t).orders = m.orders := by
  unfold Engine.storeArm
  dsimp only
  rw [Engine.orders_setFlag, Engine.orders_openSegment, Engine.orders_setStore]
  exact forEach_keeps (keeps := fun x : Engine => x.orders = m.orders) 48 (fun x hx n => by split <;> simp [hx]) rfl

@[simp] theorem Engine.orders_disturb (n : Nat) : (m.disturb n).orders = m.orders := by
  simp [Engine.disturb]

@[simp] theorem Engine.orders_showSet (n last : Nat) (t : Tb) : (m.showSet n last t).orders = m.orders := by
  unfold Engine.showSet
  dsimp only
  split
  · rfl
  · split <;> simp

@[simp] theorem Engine.orders_changeSet (n off : Nat) (b w r : Bool) : (m.changeSet n off b w r).orders = m.orders := by simp [Engine.changeSet]

@[simp] theorem Engine.orders_broadcast (c : Nat) : (m.broadcast c).orders = m.orders :=
  forEach_keeps (keeps := fun x : Engine => x.orders = m.orders) 48 (fun x hx n => by simp [hx]) rfl

end Orders

/-! Arming as a chain: the registers of SYS first, then the sluice, the thresholds, storage. -/

/-- A capture's span opens with the coming cycle. -/
def Engine.spanOpened (m : Engine) (p : Nat) : Engine := { m with armSpan := some (p, none) }

@[simp] theorem Engine.reg_spanOpened (m : Engine) (p a : Nat) : (m.spanOpened p).reg a = m.reg a := rfl
@[simp] theorem Engine.flag_spanOpened (m : Engine) (p : Nat) (f : Field) : (m.spanOpened p).flag f = m.flag f := rfl
@[simp] theorem within_spanOpened {l : List Part} {m m' : Engine} (p : Nat) (h : partsIn [.span] l = true) : Engine.Within l m (m'.spanOpened p) ↔ Engine.Within l m m' := by
  simp only [Engine.spanOpened, ↓within_update, h, and_self, or_true, true_or]

/-- SYS shows the engine armed, the first sample cycle and one arming more. -/
def Engine.armShown (m : Engine) : Engine :=
  (((m.armEnd.spanOpened (m.cc + 1)).setFlag R.SYS_STATUS_ARMED true).setReg64 R.SYS_ARM_TB_LO (tbOfCycle m.nextCycle)).addWrap R.SYS_ARMCNT 1

/-- What arming settles before the sluice takes its level, with its report. -/
def Engine.armBegun (m : Engine) (src : Nat) : Engine := m.armShown.armReport 0 0 src

/-- Every intake's set for the first sample cycle is the one THRSEL selects (R42). -/
def Engine.setsSelected (m : Engine) : Engine := forEach 48 (fun n m => (m.disturb n).changeSet n 0 (m.flag (R.INTK_THRSEL_SET n)) false false) m

theorem Engine.armEffect_eq (m : Engine) (t : Memory) (src : Nat) :
    m.armEffect t src = ((m.armBegun src).sluiceArm t (m.cc + 1)).setsSelected.storeArm (tbOfCycle m.nextCycle) := rfl

theorem within_armBegun (m : Engine) (src : Nat) : Engine.Within [.of .sysB, .queue, .span] m (m.armBegun src) := by
  simp +decide [Engine.armBegun, Engine.armShown]

theorem within_setsSelected (m : Engine) : Engine.Within [.of .intkB] m m.setsSelected :=
  within_forEach fun n hn x => by simp +decide [within_changeSet hn, within_disturb hn]

theorem Engine.orders_setsSelected (m : Engine) : m.setsSelected.orders = m.orders :=
  forEach_keeps (keeps := fun x : Engine => x.orders = m.orders) 48 (fun x hx n => by simp [hx]) rfl

/-! What SYS shows. -/

/-- The report leaves SYS.STATUS, the first sample cycle and the count. -/
theorem Engine.reg_armBegun (m : Engine) (src : Nat) {a : Nat} (ha : a ∉ [R.SYS_ARM_LO, R.SYS_ARM_HI, statusAddr 4]) : (m.armBegun src).reg a = m.armShown.reg a :=
  Engine.reg_armReport_off ha _ _ _ _ fun _ h => h

theorem Engine.armShown_flags (m : Engine) : m.armShown.armed = true ∧ m.armShown.flag R.SYS_STATUS_ARMING = false := by
  unfold Engine.armed Engine.armShown
  constructor
  · rw [Engine.flag_of_reg (Engine.reg_addWrap_ne _ _ _ (by decide)), Engine.flag_setReg64_ne _ _ (by decide) (by decide), Engine.flag_setFlag_same _ _ _ (by decide) rfl]
  · rw [Engine.flag_of_reg (Engine.reg_addWrap_ne _ _ _ (by decide)), Engine.flag_setReg64_ne _ _ (by decide) (by decide),
      Engine.flag_setFlag_beside _ R.SYS_STATUS_ARMED R.SYS_STATUS_ARMING _ rfl (by decide), Engine.flag_spanOpened, Engine.flag_armEnd_arming]

theorem Engine.armShown_counts (m : Engine) : m.armShown.reg64 R.SYS_ARM_TB_LO = tbOfCycle m.nextCycle ∧ m.armShown.reg R.SYS_ARMCNT = m.reg R.SYS_ARMCNT + 1 := by
  unfold Engine.armShown
  constructor
  · rw [Engine.reg64_of_reg (Engine.reg_addWrap_ne _ _ _ (by decide)) (Engine.reg_addWrap_ne _ _ _ (by decide)), Engine.reg64_setReg64_same]
  · have hcnt : R.SYS_ARMCNT ∉ [R.SYS_STATUS, R.SYS_CTL] := by decide
    rw [Engine.reg_addWrap_same, Engine.reg_setReg64_ne _ _ _ (by decide) (by decide), Engine.reg_setFlag_ne _ _ _ (by decide), Engine.reg_spanOpened,
      Engine.reg_armEnd_off hcnt _ fun _ h => h, BitVec.ofNat_add, BitVec.ofNat_toNat, BitVec.setWidth_eq]
    rfl

theorem Engine.hasBit_armShown (m : Engine) : m.armShown.hasBit R.E_SYS_ARM_REF = m.hasBit R.E_SYS_ARM_REF := by
  have hpage : statusAddr 4 ∉ [R.SYS_STATUS, R.SYS_CTL] := by decide
  refine Engine.hasBit_of_reg ?_
  unfold Engine.armShown
  rw [Engine.reg_addWrap_ne _ _ _ (by decide), Engine.reg_setReg64_ne _ _ _ (by decide) (by decide), Engine.reg_setFlag_ne _ _ _ (by decide), Engine.reg_spanOpened]
  exact Engine.reg_armEnd_off hpage _ fun _ h => h

theorem Engine.orders_armBegun (m : Engine) (src : Nat) : (m.armBegun src).orders = (none, some (m.cc + 1, none), m.tableSet, m.tableChanges, m.queueAfter) := by
  simp [Engine.armBegun, Engine.armShown, Engine.armEnd_eq]
  rfl

/-! What the sluice shows. -/

theorem Engine.reg64_setReg64_ne (m : Engine) (a b : Nat) (v : Tb) (h : a ≠ b) (h' : a ≠ b + 4) (h'' : a + 4 ≠ b) : (m.setReg64 b v).reg64 a = m.reg64 a :=
  Engine.reg64_of_reg (m.reg_setReg64_ne b v h h') (m.reg_setReg64_ne b v h'' (by omega))

/-- The counters as arming starts them (R139). -/
def Engine.countersStart (m : Engine) : Engine := if m.flag R.SLU_START_CTRCLR then (m.setReg64 R.SLU_CTRA_LO 0).setReg64 R.SLU_CTRB_LO 0 else m

@[simp] theorem Engine.orders_countersStart (m : Engine) : m.countersStart.orders = m.orders := by simp [Engine.countersStart]

/-- The level that arming starts in (R139). -/
def Engine.startLevel (m : Engine) : Nat := if m.flag R.SLU_START_KEEP then m.fld R.SLU_STATUS_LEVEL else m.fld R.SLU_START_LEVEL

/-- The sluice of an engine that arms, before the context of its level goes to the reaches. -/
def Engine.sluiceStart (m : Engine) (p : Nat) : Engine :=
  let m' := m.changeTables p (m.flag R.CONF_SETSEL_SET)
  m'.countersStart.setLevel m'.startLevel 0

theorem Engine.within_sluiceStart (m : Engine) (t : Memory) (p : Nat) : Engine.Within [.of .ruB] (m.sluiceStart p) (m.sluiceArm t p) := by
  unfold Engine.sluiceArm
  dsimp only
  simp +decide only [↓within_update, within_broadcast, within_flushLvx]
  exact .refl _ _

/-- The level, the dwell and the counters that arming starts with (R139). -/
theorem Engine.sluiceArm_shows (m : Engine) (t : Memory) (p : Nat) :
    (m.sluiceArm t p).fld R.SLU_STATUS_LEVEL = m.startLevel ∧ (m.sluiceArm t p).reg64 R.SLU_DWELLNOW_LO = 0 ∧
      (m.flag R.SLU_START_CTRCLR = true → (m.sluiceArm t p).reg64 R.SLU_CTRA_LO = 0 ∧ (m.sluiceArm t p).reg64 R.SLU_CTRB_LO = 0) := by
  have hw := m.within_sluiceStart t p
  have htables : Engine.Within [.of .confB] m (m.changeTables p (m.flag R.CONF_SETSEL_SET)) := (within_changeTables _ _ (by decide)).2 (.refl _ _)
  have hlevel : (m.changeTables p (m.flag R.CONF_SETSEL_SET)).startLevel = m.startLevel := by
    simp +decide only [Engine.startLevel, htables.flag (f := R.SLU_START_KEEP), htables.fld (f := R.SLU_STATUS_LEVEL), htables.fld (f := R.SLU_START_LEVEL)]
  have hlt : m.startLevel < 2 ^ R.SLU_STATUS_LEVEL.width := by
    unfold Engine.startLevel
    split
    · exact m.fld_lt R.SLU_STATUS_LEVEL
    · exact m.fld_lt R.SLU_START_LEVEL
  refine ⟨?_, ?_, fun hclr => ?_⟩
  · rw [hw.fld (by decide)]
    unfold Engine.sluiceStart Engine.setLevel
    rw [Engine.fld_setReg64_ne _ _ (by decide) (by decide), Engine.fld_setFld_same _ _ _ (by decide), hlevel, Nat.mod_eq_of_lt hlt]
  · rw [hw.reg64 (by decide) (by decide)]
    exact Engine.reg64_setReg64_same _ _ _
  · have hclr' : (m.changeTables p (m.flag R.CONF_SETSEL_SET)).flag R.SLU_START_CTRCLR = true := by rw [htables.flag (by decide), hclr]
    rw [hw.reg64 (by decide) (by decide), hw.reg64 (by decide) (by decide)]
    unfold Engine.sluiceStart Engine.setLevel Engine.countersStart
    simp +decide [hclr', Engine.reg64_setReg64_ne, Engine.setFld, Engine.reg64_setReg_ne]

/-- Beside what it tells the tables, the start of the sluice orders nothing. -/
theorem Engine.orders_sluiceArm (m : Engine) (t : Memory) (p : Nat) :
    (m.sluiceArm t p).orders = (m.arming, m.armSpan, m.tableSet, m.tableChanges.filter (fun c => decide (c.1 < p)) ++ [(p, m.flag R.CONF_SETSEL_SET)], m.rota) := by
  have htables : (m.changeTables p (m.flag R.CONF_SETSEL_SET)).orders =
      (m.arming, m.armSpan, m.tableSet, m.tableChanges.filter (fun c => decide (c.1 < p)) ++ [(p, m.flag R.CONF_SETSEL_SET)], m.rota) := by
    unfold Engine.changeTables
    dsimp only
    split
    · rfl
    · rw [Engine.orders_status]
      rfl
  rw [← htables, ← Engine.orders_countersStart (m.changeTables p _)]
  unfold Engine.sluiceArm Engine.countersStart
  dsimp only
  rw [Engine.orders_setPath, Engine.orders_broadcast, Engine.orders_flushLvx, Engine.orders_setLevel]

/-- The last change up to a cycle tells the set in force at it (R141). -/
theorem Engine.setAt_of_last {m : Engine} {l : List (Nat × Bool)} {p : Nat} {b : Bool} (h : m.tableChanges = l ++ [(p, b)]) : m.setAt p = b := by
  simp [Engine.setAt, h]

end Sys2Proof.Machine
end

section
/-! SUPPORT. The state that arming leaves, as a whole (R14, R139, R141, R455), and disarming (R14, R456). -/
namespace Sys2Proof.Machine
open Sys2Proof

/-! Storage starts. -/

/-- A segment that opens stores. -/
theorem Engine.active_openSegment (m : Engine) (s : Nat) (t : Tb) : (m.openSegment s t).store.active = true := by
  have hmark : ∀ (x : Engine) (k : Marker), x.store.active = true → (x.mark k).store.active = true := by
    intro x k hx
    unfold Engine.mark Engine.markerPack
    dsimp only
    split_ifs <;> simp [hx]
  unfold Engine.openSegment
  dsimp only
  split
  · refine hmark _ _ ?_
    rw [Engine.setFlag_store, Engine.status_store]
    rfl
  · rw [Engine.status_store]
    rfl

theorem Engine.storeArm_shows (m : Engine) (t : Tb) : (m.storeArm t).store.active = true ∧ (m.storeArm t).flag R.STORE_STATUS_STORING = true := by
  unfold Engine.storeArm
  dsimp only
  exact ⟨Engine.active_openSegment _ _ _, Engine.flag_setFlag_same _ _ _ (by decide) rfl⟩

/-! Arming as a whole. -/

/-- What the start of the sluice, the thresholds and storage leave of the registers. -/
theorem Engine.within_armEffect (m : Engine) (t : Memory) (src : Nat) :
    Engine.Within ([.of .confB, .of .sluB, .of .intkB] ++ storeParts) (m.armBegun src) (m.armEffect t src) ∧
      Engine.Within (.of .intkB :: storeParts) ((m.armBegun src).sluiceArm t (m.cc + 1)) (m.armEffect t src) := by
  have hset := within_setsSelected ((m.armBegun src).sluiceArm t (m.cc + 1))
  rw [Engine.armEffect_eq, within_storeArm _ (by decide), within_storeArm _ (by decide), hset.step (by decide), hset.step (by decide), within_sluiceArm _ _ (by decide)]
  exact ⟨.refl _ _, .refl _ _⟩

/-- What arming leaves of its orders: no request, a span that opens with the coming cycle, the set that SETSEL selects. -/
theorem Engine.orders_armEffect (m : Engine) (t : Memory) (src : Nat) :
    (m.armEffect t src).orders = (none, some (m.cc + 1, none), m.tableSet, m.tableChanges.filter (fun c => decide (c.1 < m.cc + 1)) ++ [(m.cc + 1, m.flag R.CONF_SETSEL_SET)], m.queueAfter) := by
  have horders := m.orders_armBegun src
  have hset : (m.armBegun src).flag R.CONF_SETSEL_SET = m.flag R.CONF_SETSEL_SET := (within_armBegun m src).flag (by decide)
  simp only [Engine.orders, Prod.mk.injEq] at horders
  obtain ⟨harming, hspan, htable, hchanges, hrota⟩ := horders
  rw [Engine.armEffect_eq, Engine.orders_storeArm, Engine.orders_setsSelected, Engine.orders_sluiceArm, harming, hspan, htable, hchanges, hrota, hset]

theorem Engine.setAt_armEffect (m : Engine) (t : Memory) (src : Nat) : (m.armEffect t src).setAt (m.cc + 1) = m.flag R.CONF_SETSEL_SET :=
  Engine.setAt_of_last (congrArg (fun o => o.2.2.2.1) (m.orders_armEffect t src))

/-- What SYS reports of arming. -/
theorem Engine.armEffect_sys (m : Engine) (t : Memory) (src : Nat) :
    (m.armEffect t src).armed = true ∧ (m.armEffect t src).flag R.SYS_STATUS_ARMING = false ∧ (m.armEffect t src).reg64 R.SYS_ARM_TB_LO = tbOfCycle m.nextCycle ∧
      (m.armEffect t src).reg R.SYS_ARMCNT = m.reg R.SYS_ARMCNT + 1 ∧ (m.armEffect t src).fld R.SYS_ARM_HI_REASON = 0 ∧
      (m.armEffect t src).hasBit R.E_SYS_ARM_DONE = true ∧ (m.armEffect t src).hasBit R.E_SYS_ARM_REF = m.hasBit R.E_SYS_ARM_REF := by
  obtain ⟨hw, -⟩ := m.within_armEffect t src
  obtain ⟨harmed, harming⟩ := m.armShown_flags
  obtain ⟨htb, hcnt⟩ := m.armShown_counts
  obtain ⟨hdone, href⟩ := m.armShown.hasBit_armReport 0 0 src
  have hreg : ∀ a, a ∉ [R.SYS_ARM_LO, R.SYS_ARM_HI, statusAddr 4] → (m.armBegun src).reg a = m.armShown.reg a := fun a ha => m.reg_armBegun src ha
  refine ⟨?_, ?_, ?_, ?_, ?_, ?_, ?_⟩
  · exact (hw.flag (f := R.SYS_STATUS_ARMED) (by decide)).trans ((Engine.flag_of_reg (hreg _ (by decide))).trans harmed)
  · exact (hw.flag (by decide)).trans ((Engine.flag_of_reg (hreg _ (by decide))).trans harming)
  · exact (hw.reg64 (by decide) (by decide)).trans ((Engine.reg64_of_reg (hreg _ (by decide)) (hreg _ (by decide))).trans htb)
  · exact (hw.reg _ (by decide)).trans ((hreg _ (by decide)).trans hcnt)
  · exact (hw.fld (by decide)).trans (m.armShown.fld_armReport_reason 0 src (by decide))
  · exact (hw.hasBit (by decide)).trans hdone
  · exact (hw.hasBit (by decide)).trans ((href.trans (by simp)).trans m.hasBit_armShown)

/-- What the sluice shows of arming. -/
theorem Engine.armEffect_sluice (m : Engine) (t : Memory) (src : Nat) :
    (m.armEffect t src).fld R.SLU_STATUS_LEVEL = m.startLevel ∧ (m.armEffect t src).reg64 R.SLU_DWELLNOW_LO = 0 ∧
      (m.flag R.SLU_START_CTRCLR = true → (m.armEffect t src).reg64 R.SLU_CTRA_LO = 0 ∧ (m.armEffect t src).reg64 R.SLU_CTRB_LO = 0) := by
  obtain ⟨-, hw⟩ := m.within_armEffect t src
  obtain ⟨hlevel, hdwell, hctr⟩ := (m.armBegun src).sluiceArm_shows t (m.cc + 1)
  have hbegun := within_armBegun m src
  have hstart : (m.armBegun src).startLevel = m.startLevel := by
    simp +decide only [Engine.startLevel, hbegun.flag (f := R.SLU_START_KEEP), hbegun.fld (f := R.SLU_STATUS_LEVEL), hbegun.fld (f := R.SLU_START_LEVEL)]
  refine ⟨(hw.fld (by decide)).trans (hlevel.trans hstart), (hw.reg64 (by decide) (by decide)).trans hdwell, fun hclr => ?_⟩
  obtain ⟨ha, hb⟩ := hctr ((hbegun.flag (by decide)).trans hclr)
  exact ⟨(hw.reg64 (by decide) (by decide)).trans ha, (hw.reg64 (by decide) (by decide)).trans hb⟩

theorem Engine.armEffect_stores (m : Engine) (t : Memory) (src : Nat) : (m.armEffect t src).store.active = true ∧ (m.armEffect t src).flag R.STORE_STATUS_STORING = true := by
  rw [Engine.armEffect_eq]
  exact Engine.storeArm_shows _ _

theorem Engine.tb_armEffect (m : Engine) (t : Memory) (src : Nat) : (m.armEffect t src).tb = m.tb :=
  (m.within_armEffect t src).1.tb.trans (within_armBegun m src).tb

end Sys2Proof.Machine
end

section
/-! SUPPORT. What the checks of an arming request read (R455), and disarming (R14, R456). -/
namespace Sys2Proof.Machine
open Sys2Proof

/-- One engine reads as another to the checks: they read no register of SYS but IDENT. -/
structure Engine.PlanAs (m m' : Engine) : Prop where
  ident : m'.reg R.SYS_IDENT = m.reg R.SYS_IDENT
  reg : ∀ a, 0x10000 ≤ a → m'.reg a = m.reg a
  lastSeg : m'.store.lastSeg = m.store.lastSeg
  intakes : m'.intakes = m.intakes

namespace Engine.PlanAs
variable {m m' : Engine} (h : Engine.PlanAs m m')
include h

theorem fld {f : Field} (hf : 0x10000 ≤ f.addr) : m'.fld f = m.fld f := Engine.fld_of_reg (h.reg _ hf)

theorem flag {f : Field} (hf : 0x10000 ≤ f.addr) : m'.flag f = m.flag f := Engine.flag_of_reg (h.reg _ hf)

/-! The registers of a reach and of a segment descriptor. -/

theorem fld_ru {f : Field} {n : Nat} (hf : f.addr = R.RU_STREAM n) : m'.fld f = m.fld f := h.fld (by rw [hf]; unfold R.RU_STREAM; omega)

theorem fld_seg {f : Field} {s k : Nat} (hf : f.addr = segBase s + k) : m'.fld f = m.fld f := h.fld (by rw [hf]; unfold segBase; omega)

theorem flag_seg {f : Field} {s k : Nat} (hf : f.addr = segBase s + k) : m'.flag f = m.flag f := by unfold Engine.flag; rw [h.fld_seg hf]

/-! The budget. -/

theorem regime (n : Nat) : m'.regime n = m.regime n := h.fld_ru rfl

theorem stored : m'.stored = m.stored := funext fun n => by unfold Engine.stored; rw [h.regime]

theorem cost : m'.cost = m.cost := funext fun n => by
  unfold Engine.cost
  rw [h.regime, h.fld_ru (f := R.RU_STREAM_RESERVE n) rfl, h.fld_ru (f := R.RU_STREAM_RATE n) rfl]

theorem budgetLimit : m'.budgetLimit = m.budgetLimit := by unfold Engine.budgetLimit; rw [h.ident]

theorem budgetCheck : m'.budgetCheck = m.budgetCheck := by
  have hrate : ∀ n, m'.fld (R.RU_STREAM_RATE n) = m.fld (R.RU_STREAM_RATE n) := fun n => h.fld_ru rfl
  unfold Engine.budgetCheck
  simp only [h.regime, h.stored, h.cost, h.budgetLimit, hrate]

/-! The plan. -/

theorem next (s : Nat) : m'.fld (R.SEG_CFG_NEXT s) = m.fld (R.SEG_CFG_NEXT s) := h.fld_seg (s := s) rfl

theorem linked (s : Nat) : m'.flag (R.SEG_CFG_LINK_EN s) = m.flag (R.SEG_CFG_LINK_EN s) := h.flag_seg (s := s) rfl

theorem trainFirst : m'.trainFirst = m.trainFirst := by
  unfold Engine.trainFirst
  simp +decide only [h.lastSeg, h.linked, h.next, h.flag (f := R.STORE_TRAIN_CONT), h.fld (f := R.STORE_TRAIN_FIRST)]

theorem trainFrom (k : Nat) (seen : List Nat) (s : Nat) : m'.trainFrom k seen s = m.trainFrom k seen s := by
  induction k generalizing seen s with
  | zero => rfl
  | succ k ih => simp only [Engine.trainFrom, h.linked, h.next, ih]

theorem segSpan : m'.segSpan = m.segSpan := funext fun s => by
  unfold Engine.segSpan
  rw [h.fld_seg (f := R.SEG_BASE_PACKS s) (s := s) rfl, h.fld_seg (f := R.SEG_SIZE_PACKS s) (s := s) rfl]

theorem totalPacks : m'.totalPacks = m.totalPacks := by unfold Engine.totalPacks; rw [h.ident]

theorem dispRegion : m'.dispRegion = m.dispRegion := by
  unfold Engine.dispRegion
  rw [h.totalPacks, h.fld (f := R.CIS_DISP_BASE_PACKS) (by decide), h.fld (f := R.CIS_DISP_SIZE_PACKS) (by decide)]

theorem weight (s n : Nat) : m'.weight s n = m.weight s n := by
  have hprof : m'.fld (R.SEG_CFG_PROFILE s) = m.fld (R.SEG_CFG_PROFILE s) := h.fld_seg (s := s) rfl
  have heven : ∀ q, m'.fld (R.STORE_PROF_W_W_EVEN q (n / 2)) = m.fld (R.STORE_PROF_W_W_EVEN q (n / 2)) := fun q => h.fld (by simp only [R.STORE_PROF_W_W_EVEN, R.STORE_PROF_W]; omega)
  have hodd : ∀ q, m'.fld (R.STORE_PROF_W_W_ODD q (n / 2)) = m.fld (R.STORE_PROF_W_W_ODD q (n / 2)) := fun q => h.fld (by simp only [R.STORE_PROF_W_W_ODD, R.STORE_PROF_W]; omega)
  unfold Engine.weight
  simp only [hprof, heven, hodd, h.cost, h.fld (f := R.STORE_PROFCTL_AUTO) (by decide)]

theorem weightSum (s : Nat) : m'.weightSum s = m.weightSum s := by
  unfold Engine.weightSum
  simp only [h.stored, h.weight]

theorem allotments (s : Nat) : m'.allotments s = m.allotments s := by
  have hmark : m'.fld (R.SEG_MARK_MKPACKS s) = m.fld (R.SEG_MARK_MKPACKS s) := h.fld_seg (s := s) rfl
  have hsize : m'.fld (R.SEG_SIZE_PACKS s) = m.fld (R.SEG_SIZE_PACKS s) := h.fld_seg (s := s) rfl
  have hbase : m'.fld (R.SEG_BASE_PACKS s) = m.fld (R.SEG_BASE_PACKS s) := h.fld_seg (s := s) rfl
  unfold Engine.allotments
  simp only [h.stored, h.weight, h.weightSum, hmark, hsize, hbase]

theorem planSegment (train : List Nat) : m'.planSegment train = m.planSegment train := funext fun s => by
  have hmark : m'.fld (R.SEG_MARK_MKPACKS s) = m.fld (R.SEG_MARK_MKPACKS s) := h.fld_seg (s := s) rfl
  have hsize : m'.fld (R.SEG_SIZE_PACKS s) = m.fld (R.SEG_SIZE_PACKS s) := h.fld_seg (s := s) rfl
  have hmode : m'.flag (R.SEG_CFG_WINMODE s) = m.flag (R.SEG_CFG_WINMODE s) := h.flag_seg (s := s) rfl
  have hpre : m'.reg (R.SEG_PRE s) = m.reg (R.SEG_PRE s) := h.reg _ (by unfold R.SEG_PRE segBase; omega)
  have hpost : m'.reg (R.SEG_POST s) = m.reg (R.SEG_POST s) := h.reg _ (by unfold R.SEG_POST segBase; omega)
  unfold Engine.planSegment
  simp only [h.stored, h.regime, h.weight, h.weightSum, h.allotments, h.segSpan, h.totalPacks, h.dispRegion, hmark, hsize, hmode, hpre, hpost]

theorem enterable (closing : Option Nat) (s : Nat) : m'.enterable closing s = m.enterable closing s := by
  have hlock : m'.fld (R.SEG_STATUS_LOCK s) = m.fld (R.SEG_STATUS_LOCK s) := h.fld_seg (s := s) rfl
  have hstate : m'.fld (R.SEG_STATUS_STATE s) = m.fld (R.SEG_STATUS_STATE s) := h.fld_seg (s := s) rfl
  have hwrap : m'.flag (R.SEG_CFG_WRAPPOL s) = m.flag (R.SEG_CFG_WRAPPOL s) := h.flag_seg (s := s) rfl
  unfold Engine.enterable Engine.segState
  simp only [hlock, hstate, hwrap]

theorem planCheck : m'.planCheck = m.planCheck := by
  unfold Engine.planCheck
  simp only [h.trainFirst, h.trainFrom, h.planSegment, h.enterable]

/-! The cistern, the intakes and the tables. -/

theorem cisReady : m'.cisReady = m.cisReady := by unfold Engine.cisReady; rw [h.fld (by decide)]

theorem calInternal : m'.calInternal = m.calInternal := funext fun n => by
  unfold Engine.calInternal Engine.intake
  rw [h.intakes, h.flag (by simp only [R.INTK_CALSTAT_BUSY, R.INTK_CALSTAT]; omega)]

theorem selected : m'.flag R.CONF_SETSEL_SET = m.flag R.CONF_SETSEL_SET := h.flag (by decide)

theorem setBaseTank (b : Bool) : m'.setBaseTank b = m.setBaseTank b := by
  unfold Engine.setBaseTank
  rw [h.fld (f := R.CONF_TSET_BASE_A) (by decide), h.fld (f := R.CONF_TSET_BASE_B) (by decide)]

theorem tablePlaceBad : m'.tablePlaceBad = m.tablePlaceBad := by
  unfold Engine.tablePlaceBad
  rw [h.fld (f := R.CONF_TSET_BASE_A) (by decide), h.fld (f := R.CONF_TSET_BASE_B) (by decide), h.fld (f := R.CONF_TSET_LIVE) (by decide)]

theorem tableOwnerBad : m'.tableOwnerBad = m.tableOwnerBad := by
  have hown : ∀ k, m'.tankReadable k = m.tankReadable k := fun k => by
    unfold Engine.tankReadable
    rw [h.fld (by simp only [R.TANK_OWN_CUR, R.TANK_OWN]; omega)]
  unfold Engine.tableOwnerBad
  simp only [h.selected, h.setBaseTank, h.fld (f := R.CONF_TSET_LIVE) (by decide), hown]

theorem verified (b : Bool) : m'.verified b = m.verified b := by
  unfold Engine.verified
  exact h.flag (by cases b <;> decide)

end Engine.PlanAs

end Sys2Proof.Machine
end

section
/-! SUPPORT. Checks that pass at once, the instant of arming, and O27 (R14, R83, R455, R456). -/
namespace Sys2Proof.Machine
open Sys2Proof

/-! Checks that pass. -/

/-- An engine whose registers of SYS alone differ reads the same to the checks. -/
theorem Engine.PlanAs.of_reg {m m' : Engine} (hreg : ∀ a, a ∉ [R.SYS_CTL, R.SYS_STATUS, R.SYS_BUDGET_LO, R.SYS_BUDGET_HI] → m'.reg a = m.reg a) (hseg : m'.store.lastSeg = m.store.lastSeg)
    (hintakes : m'.intakes = m.intakes) : Engine.PlanAs m m' := by
  refine ⟨hreg _ (by decide), fun a ha => hreg a ?_, hseg, hintakes⟩
  simp only [R.SYS_CTL, R.SYS_STATUS, R.SYS_BUDGET_LO, R.SYS_BUDGET_HI, List.mem_cons, List.not_mem_nil, or_false, not_or]
  omega

/-- The STREAM registers as they stand change nothing. -/
theorem Engine.planAs_withStream {m : Engine} {l : List Word} (hl : ∀ n < 48, nth l n 0 = m.reg (R.RU_STREAM n)) : Engine.PlanAs m (m.withStream l) := by
  have hregs : ∀ (ns : List Nat) (x : Engine), (∀ n ∈ ns, n < 48) → (∀ a, x.reg a = m.reg a) →
      ∀ a, (ns.foldl (fun x n => x.setReg (R.RU_STREAM n) (nth l n 0)) x).reg a = m.reg a := by
    intro ns
    induction ns with
    | nil => exact fun x _ hx => hx
    | cons n ns ih =>
      refine fun x hns hx => ih _ (fun i hi => hns i (by simp [hi])) fun a => ?_
      by_cases ha : a = R.RU_STREAM n
      · rw [ha, Engine.reg_setReg_same, hl n (hns n (by simp))]
      · rw [Engine.reg_setReg_ne _ _ ha, hx]
  have hrest : (m.withStream l).store = m.store ∧ (m.withStream l).intakes = m.intakes :=
    forEach_keeps (keeps := fun x : Engine => x.store = m.store ∧ x.intakes = m.intakes) 48 (fun x hx n => hx) ⟨rfl, rfl⟩
  exact .of_reg (fun a _ => hregs _ m (by simp) (fun _ => rfl) a) (by rw [hrest.1]) hrest.2

/-- What the checks of a request ask for where they pass at once (R455). -/
structure Engine.Passes (m : Engine) (total : Nat) : Prop where
  ready : m.cisReady = true
  idle : m.store.active = false
  calibrated : (List.range 48).find? m.calInternal = none
  placed : m.tablePlaceBad = false
  owned : m.tableOwnerBad = none
  verified : m.verified (m.flag R.CONF_SETSEL_SET) = true
  budget : m.budgetCheck = (none, some total)
  plan : m.planCheck = none

theorem Engine.Passes.of_planAs {m m' : Engine} {total : Nat} (hp : m.Passes total) (h : Engine.PlanAs m m') (hstore : m'.store.active = m.store.active) : m'.Passes total := by
  obtain ⟨hready, hidle, hcal, hplace, hown, hver, hbudget, hplan⟩ := hp
  exact ⟨h.cisReady.trans hready, hstore.trans hidle, by rw [h.calInternal, hcal], h.tablePlaceBad.trans hplace, h.tableOwnerBad.trans hown,
    by rw [h.selected, h.verified, hver], h.budgetCheck.trans hbudget, h.planCheck.trans hplan⟩

/-- The budget shown (R456). -/
def Engine.budgetShown (m : Engine) (total : Nat) : Engine := (m.setReg R.SYS_BUDGET_LO (BitVec.ofNat 32 total)).setFld R.SYS_BUDGET_HI_LIMIT m.budgetLimit

theorem Engine.reg_budgetShown_off {l : List Nat} {a : Nat} (ha : a ∉ l) (m : Engine) (total : Nat) (hl : ∀ b ∈ [R.SYS_BUDGET_LO, R.SYS_BUDGET_HI], b ∈ l) : (m.budgetShown total).reg a = m.reg a := by
  simp only [List.forall_mem_cons] at hl
  obtain ⟨hlo, hhi, -⟩ := hl
  exact (Engine.reg_setFld_off ha _ _ hhi).trans (Engine.reg_setReg_off ha _ _ hlo)

theorem Engine.planAs_budgetShown (m : Engine) (total : Nat) : m.PlanAs (m.budgetShown total) :=
  .of_reg (fun _ ha => m.reg_budgetShown_off ha total (by decide)) rfl rfl

theorem Engine.armChecks_of_passes {m : Engine} {r : ArmReq} {total : Nat} (hr : m.arming = some r) (hpassed : r.passed = false) (hact : r.act = none)
    (hstream : ∀ n < 48, nth r.stream n 0 = m.reg (R.RU_STREAM n)) (hp : m.Passes total) :
    m.armChecks = { m.budgetShown total with arming := some { r with passed := true } } := by
  obtain ⟨hready, hidle, hcal, hplace, hown, hver, hbudget, hplan⟩ := hp
  have h := Engine.planAs_withStream hstream
  have hshown := m.planAs_budgetShown total
  have h' : (m.budgetShown total).PlanAs ((m.budgetShown total).withStream r.stream) :=
    Engine.planAs_withStream fun n hn => (hstream n hn).trans (hshown.reg _ (by unfold R.RU_STREAM; omega)).symm
  have hplan' : ((m.budgetShown total).withStream r.stream).planCheck = none := by rw [h'.planCheck, hshown.planCheck, hplan]
  unfold Engine.budgetShown at hplan'
  unfold Engine.armChecks
  simp only [hr, hpassed, hready, hidle, hcal, hplace, hown, hver, h.budgetCheck, hbudget, hplan', Bool.not_true, Bool.or_self, Bool.false_eq_true, if_false, Bool.false_and]
  simp only [Engine.armPass, hact]
  rfl

/-! A request taken with no write of its cycle. -/

theorem Engine.reg_armAsked_off {l : List Nat} {a : Nat} (ha : a ∉ l) {m : Engine} (h : m.cycleWrites = []) (hl : ∀ b ∈ [R.SYS_CTL, R.SYS_STATUS], b ∈ l) : m.armAsked.reg a = m.reg a := by
  simp only [List.forall_mem_cons] at hl
  obtain ⟨hctl, hstatus, -⟩ := hl
  rw [Engine.armAsked_of_no_writes h, Engine.reg_setFlag_off ha _ _ hctl, Engine.asks, Engine.reg_setFlag_off ha _ _ hstatus]
  rfl

theorem Engine.armed_armAsked (m : Engine) : m.armAsked.armed = m.armed := by
  have hfold : Engine.Within heldParts m.takeBack.asks (m.cycleWrites.foldl (fun m w => m.holdLate w.addr w.new) m.takeBack.asks) :=
    within_foldl _ fun x w _ => by simp +decide [within_holdLate]
  have hback : Engine.Within configParts m m.takeBack := (within_takeBack (by decide)).2 (.refl _ _)
  unfold Engine.armed Engine.armAsked
  rw [Engine.flag_setFlag_ne _ _ (by decide), hfold.flag (by decide)]
  exact (Engine.flag_setFlag_beside _ R.SYS_STATUS_ARMING R.SYS_STATUS_ARMED _ rfl (by decide)).trans (hback.flag (f := R.SYS_STATUS_ARMED) (by decide))

theorem Engine.planAs_armAsked {m : Engine} (h : m.cycleWrites = []) : m.PlanAs m.armAsked :=
  .of_reg (fun _ ha => Engine.reg_armAsked_off ha h (by decide)) (by rw [Engine.armAsked_of_no_writes h]; rfl) (by rw [Engine.armAsked_of_no_writes h]; rfl)

/-- With nothing held a request takes the STREAM registers as they read (R30). -/
theorem Engine.nth_stream_ctlRequest {m : Engine} (hnone : m.arming = none) (hheld : m.held = []) {n : Nat} (hn : n < 48) : nth m.ctlRequest.stream n 0 = m.reg (R.RU_STREAM n) := by
  have hreg : m.heldReg (R.RU_STREAM n) = m.reg (R.RU_STREAM n) := by
    unfold Engine.heldReg Engine.allHeld
    simp [hnone, hheld]
  rw [← hreg]
  simp [Engine.ctlRequest, nth, hn]

/-! The instant of arming. -/

theorem Engine.armingTakesEffect_of_passed {m : Engine} {r : ArmReq} (t : Memory) (hr : m.arming = some r) (hpassed : r.passed = true) (hact : r.act = none) :
    m.armingTakesEffect t = m.armNow t 0 := by
  unfold Engine.armingTakesEffect
  simp [Engine.armChecks_of_passed hr hpassed, hr, hpassed, hact]

/-! Disarming. -/

theorem Engine.disarmNow_of_armed {m : Engine} (h : m.armed = true) :
    m.disarmNow = ({ m with armSpan := m.armSpan.map (fun (p : Nat × Option Nat) => (p.1, some (m.cc + 1))) }.setFlag R.SYS_STATUS_ARMED false).status R.E_SYS_DISARMED := by
  simp [Engine.disarmNow, h]

theorem Engine.disarmNow_of_not_armed {m : Engine} (h : m.armed = false) : m.disarmNow = m := by simp [Engine.disarmNow, h]

theorem Engine.disarm_of_not_asked {m : Engine} (h : m.arming = none) : m.disarm = m.disarmNow := by simp [Engine.disarm, Engine.armCancel, h]

theorem Engine.disarm_of_asked {m : Engine} {r : ArmReq} (h : m.arming = some r) : m.disarm = (m.armRefuse 15 0).disarmNow := by simp [Engine.disarm, Engine.armCancel, h]

end Sys2Proof.Machine
end

section
/-! O27. -/
namespace Sys2Proof.Machine
open Sys2Proof

@[simp] theorem Engine.hasBit_reply (m : Engine) (x : Answer) (b : PageBit) : (m.reply x).hasBit b = m.hasBit b := rfl
@[simp] theorem Engine.armed_reply (m : Engine) (x : Answer) : (m.reply x).armed = m.armed := rfl
@[simp] theorem Engine.allHeld_reply (m : Engine) (x : Answer) : (m.reply x).allHeld = m.allHeld := rfl

/-- A write of SYS.CTL leaves what the checks read, and the writes of its cycle. -/
theorem Engine.planAs_ctlWritten (m : Engine) (v : Word) : m.PlanAs (m.ctlWritten v) := .of_reg (fun a _ => m.reg_ctlWritten v a) rfl rfl

theorem Engine.heldReg_ctlWritten (m : Engine) (v : Word) (a : Nat) : (m.ctlWritten v).heldReg a = m.heldReg a := by
  unfold Engine.heldReg
  rw [Engine.reg_ctlWritten]
  rfl

/-- A request through SYS.CTL with no reach configuration written in its cycle. -/
theorem Engine.arming_armAsked_of_no_writes {m : Engine} (h : m.cycleWrites = []) : m.armAsked.arming = some m.ctlRequest := by
  rw [Engine.armAsked_of_no_writes h]
  rfl

theorem Engine.ctlRequest_ctlWritten (m : Engine) (v : Word) : (m.ctlWritten v).ctlRequest = m.ctlRequest := by
  simp only [Engine.ctlRequest, Engine.heldReg_ctlWritten, Engine.ctlWritten_cc]

theorem Engine.cisReady_armAsked (m : Engine) : m.armAsked.cisReady = m.cisReady := by
  have h : Engine.Within (.of .sysB :: heldParts) m m.armAsked := (within_armAsked (by decide)).2 (.refl _ _)
  unfold Engine.cisReady
  rw [h.fld (by decide)]

/-- The checks find a request's engine as they found the one that the request came to. -/
theorem Engine.Passes.armAsked {m : Engine} {total : Nat} (hp : m.Passes total) (h : m.cycleWrites = []) : m.armAsked.Passes total :=
  hp.of_planAs (Engine.planAs_armAsked h) (by rw [Engine.armAsked_of_no_writes h]; rfl)

theorem Engine.Passes.ctlWritten {m : Engine} {total : Nat} (hp : m.Passes total) (v : Word) : (m.ctlWritten v).Passes total :=
  hp.of_planAs (m.planAs_ctlWritten v) rfl

/-- A request waits for the cistern (R83). -/
theorem Engine.armRequest_of_not_ready {m : Engine} (harmed : m.armed = false) (hnone : m.arming = none) (hset : m.settled = false) (hready : m.cisReady = false) :
    m.armRequest 0 none = m.armAsked := by
  rw [Engine.armRequest_of_idle harmed hnone hset, Engine.armChecks_of_not_ready (m.cisReady_armAsked.trans hready)]

/-- A request whose checks pass at once. -/
theorem Engine.armRequest_of_passes {m : Engine} {total : Nat} (harmed : m.armed = false) (hnone : m.arming = none) (hset : m.settled = false) (hheld : m.held = [])
    (hwrites : m.cycleWrites = []) (hp : m.Passes total) :
    m.armRequest 0 none = { m.armAsked.budgetShown total with arming := some { m.ctlRequest with passed := true } } := by
  have hstream : ∀ n < 48, nth m.ctlRequest.stream n 0 = m.armAsked.reg (R.RU_STREAM n) := fun n hn => by
    rw [Engine.nth_stream_ctlRequest hnone hheld hn, (Engine.planAs_armAsked hwrites).reg _ (by unfold R.RU_STREAM; omega)]
  rw [Engine.armRequest_of_idle harmed hnone hset, Engine.armChecks_of_passes (Engine.arming_armAsked_of_no_writes hwrites) rfl rfl hstream (hp.armAsked hwrites)]

theorem Engine.armed_disarmNow (m : Engine) : m.disarmNow.armed = false := by
  cases h : m.armed
  · rw [Engine.disarmNow_of_not_armed h, h]
  · rw [Engine.disarmNow_of_armed h]
    exact (Engine.flag_status_ne _ R.E_SYS_DISARMED (by decide)).trans (Engine.flag_setFlag_same _ _ _ (by decide) rfl)

theorem Engine.reg_disarmNow_off {l : List Nat} {a : Nat} (ha : a ∉ l) (m : Engine) (hl : ∀ b ∈ [R.SYS_STATUS, statusAddr 4], b ∈ l) : m.disarmNow.reg a = m.reg a := by
  simp only [List.forall_mem_cons] at hl
  obtain ⟨hstatus, hpage, -⟩ := hl
  cases h : m.armed
  · rw [Engine.disarmNow_of_not_armed h]
  · rw [Engine.disarmNow_of_armed h, Engine.reg_status_off (b := R.E_SYS_DISARMED) ha _ hpage, Engine.reg_setFlag_off ha _ _ hstatus]
    rfl

/-- Settles O27: each clause is one outcome of a request, of the instant of arming or of a DISARM. -/
theorem arming : Obligations.Arming := by
  unfold Obligations.Arming
  refine ⟨fun s port hacc harmed hnone hset => State.ends_arm hacc ?settled, fun s port hacc harmed hnone hset hready hwrites => State.ends_arm hacc ?waits,
    fun s port hacc harmed hnone hset hready => State.ends_arm hacc ?waitsHeld,
    fun s port total hacc harmed hnone hset hready hwrites hheld hidle hcal hplace hown hver hbudget hplan => State.ends_arm hacc ?passes,
    fun s port hacc hbusy => State.ends_arm hacc ?busy, fun s r hlive hr hpassed hact hown => State.ends_live (·.armingTakesEffect s.chip.tanks) hlive ?takesEffect,
    fun s r k hlive hr hpassed hact hown hheld hlate => State.ends_live (·.armingTakesEffect s.chip.tanks) hlive ?tableLost, fun s port hacc harmed hnone => State.ends_disarm hacc ?disarm,
    fun s port r hacc harmed hr hact hheld hlate => State.ends_disarm hacc ?cancel⟩
  case settled =>
    rw [Engine.armRequest_of_settled (by simpa using harmed) (by simpa using hnone) (by simpa using hset)]
    refine ⟨?_, ?_, Engine.fld_armReport_reason _ _ _ (by decide), ?_, ?_, rfl, State.kept_withEng (fun a ha => ?_) ?_⟩
    · exact (Engine.flag_armReport_ne _ _ _ _ (by decide)).trans ((Engine.armed_ctlWritten _ _).trans harmed)
    · simpa using hnone
    · simp [(Engine.hasBit_armReport _ _ _ _).2]
    · simpa using Engine.reg_armReport_lo (s.eng.ctlWritten 1) 14 _ 0
    · exact (Engine.reg_armReport_off ha _ _ _ _ (by decide)).trans (Engine.reg_ctlWritten _ _ _)
    · exact ((within_armReport _ _ _ (l := [.any]) (by decide)).2 (.refl _ (s.eng.ctlWritten 1))).tb
  case waits =>
    have hw : (s.eng.ctlWritten 1).cycleWrites = [] := hwrites
    rw [Engine.armRequest_of_not_ready (by simpa using harmed) (by simpa using hnone) (by simpa using hset) (by simpa using hready)]
    have hflags := (s.eng.ctlWritten 1).flag_armAsked
    refine ⟨?_, ?_, hflags.1, rfl, State.kept_withEng (fun a ha => ?_) ?_⟩
    · exact (Engine.armed_armAsked _).trans ((Engine.armed_ctlWritten _ _).trans harmed)
    · exact (Engine.arming_armAsked_of_no_writes hw).trans (congrArg some (s.eng.ctlRequest_ctlWritten 1))
    · exact (Engine.reg_armAsked_off ha hw (by decide)).trans (Engine.reg_ctlWritten _ _ _)
    · exact ((within_armAsked (l := [.any]) (by decide)).2 (.refl _ (s.eng.ctlWritten 1))).tb
  case waitsHeld =>
    rw [Engine.armRequest_of_not_ready (by simpa using harmed) (by simpa using hnone) (by simpa using hset) (by simpa using hready)]
    obtain ⟨harming, hctl⟩ := (s.eng.ctlWritten 1).flag_armAsked
    refine ⟨?_, ?_, harming, hctl, fun w hw => ?_, rfl, ?_, State.memKept_withEng _ _⟩
    · exact (Engine.armed_armAsked _).trans ((Engine.armed_ctlWritten _ _).trans harmed)
    · simp [Engine.arming_armAsked, Engine.ctlRequest]
    · refine List.mem_append_right _ ?_
      simp only [State.eng_withEng, Engine.reply_arming, Engine.arming_armAsked, Option.map_some, Option.getD_some]
      exact List.mem_map_of_mem hw
    · exact ((within_armAsked (l := [.any]) (by decide)).2 (.refl _ (s.eng.ctlWritten 1))).tb
  case passes =>
    have hw : (s.eng.ctlWritten 1).cycleWrites = [] := hwrites
    have hp : s.eng.Passes total := ⟨hready, hidle, hcal, hplace, hown, hver, hbudget, hplan⟩
    rw [Engine.armRequest_of_passes (by simpa using harmed) (by simpa using hnone) (by simpa using hset) (by simpa using hheld) hw (hp.ctlWritten 1)]
    have hlimit : (s.eng.ctlWritten 1).armAsked.budgetLimit = s.eng.budgetLimit := (Engine.planAs_armAsked hw).budgetLimit.trans (s.eng.planAs_ctlWritten 1).budgetLimit
    have hoff : ∀ a, a ∉ [R.SYS_BUDGET_LO, R.SYS_BUDGET_HI] → ((s.eng.ctlWritten 1).armAsked.budgetShown total).reg a = (s.eng.ctlWritten 1).armAsked.reg a :=
      fun a ha => Engine.reg_budgetShown_off ha _ total (by simp)
    refine ⟨?_, rfl, ?_, ?_, ?_, rfl, State.kept_withEng (fun a ha => ?_) ?_⟩
    · exact (Engine.flag_of_reg (f := R.SYS_STATUS_ARMED) (hoff _ (by decide))).trans ((Engine.armed_armAsked _).trans ((Engine.armed_ctlWritten _ _).trans harmed))
    · exact (Engine.flag_of_reg (f := R.SYS_STATUS_ARMING) (hoff _ (by decide))).trans (Engine.flag_armAsked _).1
    · exact (Engine.reg_setFld_ne _ _ _ (by decide)).trans (Engine.reg_setReg_same _ _ _)
    · exact (Engine.fld_setFld_same _ _ _ (by decide)).trans (by rw [hlimit])
    · simp only [List.mem_cons, List.not_mem_nil, or_false, not_or] at ha
      obtain ⟨hctl, hstatus, hlo, hhi⟩ := ha
      exact (hoff a (by simp [hlo, hhi])).trans ((Engine.reg_armAsked_off (l := [R.SYS_CTL, R.SYS_STATUS]) (by simp [hctl, hstatus]) hw (by simp)).trans (s.eng.reg_ctlWritten 1 a))
    · exact ((within_armAsked (l := [.any]) (by decide)).2 (.refl _ (s.eng.ctlWritten 1))).tb
  case busy =>
    rw [Engine.armRequest_of_busy (by simpa using hbusy)]
    exact ⟨rfl, s.eng.armed_ctlWritten 1, rfl, State.kept_withEng (fun a _ => s.eng.reg_ctlWritten 1 a) rfl⟩
  case takesEffect =>
    have heffect : s.eng.armingTakesEffect s.chip.tanks = s.eng.armEffect s.chip.tanks 0 := by
      rw [Engine.armingTakesEffect_of_passed _ hr hpassed hact, Engine.armNow, hown]
    have horders := s.eng.orders_armEffect s.chip.tanks 0
    obtain ⟨harmed, harming, htb, hcnt, hreason, hdone, href⟩ := s.eng.armEffect_sys s.chip.tanks 0
    obtain ⟨hlevel, hdwell, hctr⟩ := s.eng.armEffect_sluice s.chip.tanks 0
    obtain ⟨hactive, hstoring⟩ := s.eng.armEffect_stores s.chip.tanks 0
    rw [heffect]
    exact ⟨harmed, congrArg (·.1) horders, harming, htb, hcnt, hreason, hdone, href, s.eng.setAt_armEffect s.chip.tanks 0, hlevel, hdwell, hctr, hactive, hstoring,
      congrArg (·.2.1) horders, s.eng.tb_armEffect s.chip.tanks 0, State.memKept_withEng _ _⟩
  case tableLost =>
    have hrefused : s.eng.armingTakesEffect s.chip.tanks = s.eng.armRefuse 2 k := by
      rw [Engine.armingTakesEffect_of_passed _ hr hpassed hact, Engine.armNow, hown]
    obtain ⟨harmed, harming, hstatus, hreason, hdetail, href⟩ := Engine.armRefuse_shows hr hheld hlate (reason := 2) k (by decide) (by decide)
    rw [hrefused]
    exact ⟨harmed, harming, hstatus, hreason, hdetail, href, State.kept_withEng (fun a ha => Engine.reg_armRefuse_off ha hr hheld hlate 2 k (by simp))
      ((within_armRefuse _ _ (l := [.any]) (by decide)).2 (.refl _ s.eng)).tb⟩
  case disarm =>
    rw [Engine.disarm_of_not_asked (by simpa using hnone)]
    refine ⟨Engine.armed_disarmNow _, ?_, ?_, rfl, State.kept_withEng (fun a ha => ?_) ?_⟩
    · rw [Engine.disarmNow_of_armed (by simpa using harmed)]
      exact Engine.hasBit_status_same _ R.E_SYS_DISARMED (by decide)
    · rw [Engine.disarmNow_of_armed (by simpa using harmed)]
      simp
    · exact (Engine.reg_disarmNow_off ha _ (by simp)).trans (Engine.reg_ctlWritten _ _ _)
    · rw [Engine.disarmNow_of_armed (by simpa using harmed)]
      simp
  case cancel =>
    obtain ⟨harmed', harming, hstatus, hreason, -, href⟩ := Engine.armRefuse_shows (m := s.eng.ctlWritten 2) hr hheld hlate (reason := 15) 0 (by decide) (by decide)
    rw [Engine.disarm_of_asked (m := s.eng.ctlWritten 2) (r := r) hr, Engine.disarmNow_of_not_armed (harmed'.trans ((Engine.armed_ctlWritten _ _).trans harmed))]
    refine ⟨harmed'.trans ((Engine.armed_ctlWritten _ _).trans harmed), harming, hstatus, hreason, href, rfl, State.kept_withEng (fun a ha => ?_) ?_⟩
    · exact (Engine.reg_armRefuse_off ha (m := s.eng.ctlWritten 2) hr hheld hlate 15 0 (by simp)).trans (Engine.reg_ctlWritten _ _ _)
    · exact ((within_armRefuse _ _ (l := [.any]) (by decide)).2 (.refl _ (s.eng.ctlWritten 2))).tb

end Sys2Proof.Machine
end

section
/-! O30: the rota's actions (R184). -/
namespace Sys2Proof.Machine
open Sys2Proof

/-! What the request's source shows, and the queue that its end leaves. -/

theorem Engine.fld_armReport_src (m : Engine) {r src : Nat} (d : Nat) (hr : r < 256) (hsrc : src < 2) : (m.armReport r d src).fld R.SYS_ARM_HI_SRC = src := by
  refine (congrArg (bitsOf ·.toNat 8 1) (m.reg_armReport_hi r d src)).trans ?_
  simp only [BitVec.toNat_ofNat, bitsOf, Nat.shiftRight_eq_div_pow]
  omega

theorem Engine.fld_armEffect_src (m : Engine) (t : Memory) {src : Nat} (hsrc : src < 2) : (m.armEffect t src).fld R.SYS_ARM_HI_SRC = src :=
  ((m.within_armEffect t src).1.fld (by decide)).trans (m.armShown.fld_armReport_src 0 (by decide) hsrc)

/-- The end of an ARM action's request takes it from the queue. -/
theorem Engine.queueAfter_of_act {m : Engine} {r : ArmReq} {a : RotaAct} (hr : m.arming = some r) (hact : r.act = some a) : m.queueAfter.queue = m.rota.queue.erase a := by
  simp [Engine.queueAfter, hr, hact]

theorem Engine.rotaArm_of_due {m : Engine} {r : ArmReq} {a : RotaAct} (t : Memory) (hr : m.arming = some r) (hpassed : r.passed = true) (hact : r.act = some a)
    (hload : m.tbLoad = none) (hdue : dueAfter a.eff ≤ m.nextCycle) : m.rotaArm t = m.armNow t 1 := by
  simp [Engine.rotaArm, Engine.armingTakesEffect, Engine.armChecks_of_passed hr hpassed, hr, hpassed, hact, hload, hdue]

/-! An action leaves the queue: no register changes, nor anything else but the queue. -/

@[simp] theorem Engine.reg_takeAct (m : Engine) (a : RotaAct) (k : Nat) : (m.takeAct a).reg k = m.reg k := rfl
@[simp] theorem Engine.flag_takeAct (m : Engine) (a : RotaAct) (f : Field) : (m.takeAct a).flag f = m.flag f := rfl
@[simp] theorem Engine.armed_takeAct (m : Engine) (a : RotaAct) : (m.takeAct a).armed = m.armed := rfl
@[simp] theorem Engine.takeAct_queue (m : Engine) (a : RotaAct) : (m.takeAct a).rota.queue = m.rota.queue.erase a := rfl

theorem Engine.queue_disarmNow (m : Engine) : m.disarmNow.rota.queue = m.rota.queue := by
  cases h : m.armed
  · rw [Engine.disarmNow_of_not_armed h]
  · simp [Engine.disarmNow_of_armed h]

/-! What goes out on the links changes the ring alone. -/

theorem Engine.setLink_eq (m : Engine) (s : Side) (l : LinkState) : ∃ x, m.setLink s l = m.setRing x := by
  cases s <;> exact ⟨_, rfl⟩

theorem Engine.sendEv_eq (m : Engine) (s : Side) (r : EvRec) : ∃ x, m.sendEv s r = m.setRing x := by
  unfold Engine.sendEv
  dsimp only
  split
  · exact ⟨m.ring, rfl⟩
  · split <;> exact Engine.setLink_eq _ _ _

theorem Engine.sendEv_both_eq (m : Engine) (r : EvRec) : ∃ x, (m.sendEv .fa r).sendEv .fb r = m.setRing x := by
  obtain ⟨x, hx⟩ := m.sendEv_eq .fa r
  obtain ⟨y, hy⟩ := (m.setRing x).sendEv_eq .fb r
  exact ⟨y, by rw [hx, hy]; rfl⟩

theorem Engine.originate_eq (m : Engine) (n bits tick : Nat) (alone : Bool) : ∃ x, m.originate n bits tick alone = (m.ownRecord n bits tick alone).setRing x :=
  Engine.sendEv_both_eq _ _

/-- A module's own record stands in X with its bits, at the cycle that its lag gives. -/
theorem Engine.ownRecord_mem (m : Engine) (n bits tick : Nat) (alone : Bool) :
    ∃ f ∈ (m.ownRecord n bits tick alone).path.fluX, f.phys = n + (if m.flag R.RING_STATUS_MODE then 104 else 8) ∧ f.pos = m.pos ∧ f.bits ||| bits = f.bits := by
  unfold Engine.ownRecord
  dsimp only
  generalize n + (if m.flag R.RING_STATUS_MODE then 104 else 8) = p
  split
  · next hany =>
    obtain ⟨f, hf, hsame⟩ := List.any_eq_true.1 hany
    refine ⟨_, List.mem_map_of_mem hf, ?_⟩
    rw [if_pos hsame]
    simp only [Bool.and_eq_true, beq_iff_eq] at hsame
    exact ⟨hsame.1, hsame.2, by rw [Nat.or_assoc, Nat.or_self]⟩
  · exact ⟨_, List.mem_append_right _ (List.mem_singleton.2 rfl), rfl, rfl, Nat.or_self _⟩

theorem Engine.ownRecord_rest (m : Engine) (n bits tick : Nat) (alone : Bool) : ∃ p, m.ownRecord n bits tick alone = { m with path := p } := by
  unfold Engine.ownRecord
  dsimp only
  generalize n + (if m.flag R.RING_STATUS_MODE then 104 else 8) = p
  split <;> exact ⟨_, rfl⟩

/-! Outputs that clone, and dams under way. -/

/-- No output but DO1 clones another. -/
theorem Engine.notCloning {m : Engine} {o : Fin 2} (h : o = 1 → (m.dsp 1).cloning = false) : (o.val == 1 && (m.dsp 1).cloning) = false := by
  obtain rfl | ho := eq_or_ne o 1
  · rw [h rfl, Bool.and_false]
  · have hval : o.val ≠ 1 := fun e => ho (Fin.ext e)
    simp [hval]

theorem Engine.damCause_of_idle {m : Engine} (hidle : m.damUnderWay = false) (hrun : m.running = true) (code : Nat) (t : Tb) :
    m.damCause code t = m.setDam { m.dam with driveAt := some (driveInstant t, code) } := by
  simp [Engine.damCause, hidle, hrun]

theorem Engine.damCause_of_busy {m : Engine} (hbusy : m.damUnderWay = true) (code : Nat) (t : Tb) : m.damCause code t = m := by
  simp [Engine.damCause, hbusy]

/-- Settles O30: each action acts once it has left its queue. -/
theorem rotaActions : Obligations.RotaActions := by
  unfold Obligations.RotaActions
  refine ⟨fun s r a hlive hr hpassed hact hload hdue hown => State.ends_live (·.rotaArm s.chip.tanks) hlive ?arm,
    fun s r a k hlive hr hpassed hact hload hdue hown hheld hlate => State.ends_live (·.rotaArm s.chip.tanks) hlive ?armRefused,
    fun s hlive hnone => ?armIdle, fun s a hlive ha => State.ends_live (·.rotaDisarm) hlive ?disarm, fun s a hlive ha => State.ends_live (·.rotaSegmentNext) hlive ?segmentNext,
    fun s o a hlive ha hlen hrun hflip hclone => State.ends_live (·.rotaDispFlip o.val) hlive ?flipWaits, fun s o a hlive ha hrun hclone => State.ends_live (·.rotaDispFlip o.val) hlive ?flipDropped,
    fun s a hlive ha hclone => State.ends_live (·.rotaDispFlip 1) hlive ?flipCloned, fun s a hlive ha => State.ends_live (·.rotaBcast) hlive ?bcast,
    fun s a hlive ha hidle => State.ends_live (·.rotaDam) hlive ?dam, fun s a hlive ha hbusy => State.ends_live (·.rotaDam) hlive ?damBusy⟩
  case arm =>
    have heffect : s.eng.rotaArm s.chip.tanks = s.eng.armEffect s.chip.tanks 1 := by
      rw [Engine.rotaArm_of_due _ hr hpassed hact hload hdue, Engine.armNow, hown]
    have horders := s.eng.orders_armEffect s.chip.tanks 1
    obtain ⟨harmed, -, htb, hcnt, hreason, -, -⟩ := s.eng.armEffect_sys s.chip.tanks 1
    rw [heffect]
    exact ⟨harmed, congrArg (·.1) horders, (congrArg (·.2.2.2.2.queue) horders).trans (Engine.queueAfter_of_act hr hact), hreason, s.eng.fld_armEffect_src _ (by decide), hcnt,
      congrArg (·.2.1) horders, (s.eng.armEffect_stores s.chip.tanks 1).1, htb, s.eng.tb_armEffect s.chip.tanks 1, State.memKept_withEng _ _⟩
  case armRefused =>
    have hrefused : s.eng.rotaArm s.chip.tanks = s.eng.armRefuse 2 k := by
      rw [Engine.rotaArm_of_due _ hr hpassed hact hload hdue, Engine.armNow, hown]
    obtain ⟨harmed, harming, -, hreason, hdetail, -⟩ := Engine.armRefuse_shows hr hheld hlate (reason := 2) k (by decide) (by decide)
    have hqueue : (s.eng.armRefuse 2 k).rota.queue = s.eng.rota.queue.erase a := by
      rw [Engine.armRefuse_of_empty hr hheld hlate, Engine.armReport_rota, Engine.armEnd_rota, Engine.queueAfter_of_act hr hact]
    rw [hrefused]
    exact ⟨harmed, harming, hqueue, hreason, hdetail, State.kept_withEng (fun a ha => Engine.reg_armRefuse_off ha hr hheld hlate 2 k (by simp))
      ((within_armRefuse _ _ (l := [.any]) (by decide)).2 (.refl _ s.eng)).tb⟩
  case armIdle =>
    have hsame : s.eng.rotaArm s.chip.tanks = s.eng := by simp [Engine.rotaArm, hnone]
    have hout : exec .rotaArm s = .next (s.withEng (s.eng.rotaArm s.chip.tanks)) := s.live_pos (·.rotaArm s.chip.tanks) hlive
    rw [hout, hsame]
    rfl
  case disarm =>
    have hdisarm : s.eng.rotaDisarm = (s.eng.takeAct a).disarmNow := by simp only [Engine.rotaDisarm, ha]
    rw [hdisarm]
    refine ⟨Engine.queue_disarmNow _, Engine.armed_disarmNow _, fun harmed => ?_, fun harmed => ?_, ?_⟩
    · rw [Engine.disarmNow_of_armed (by simpa using harmed)]
      exact ⟨Engine.hasBit_status_same _ R.E_SYS_DISARMED (by decide), by simp; rfl⟩
    · rw [Engine.disarmNow_of_not_armed (by simpa using harmed)]
      rfl
    · cases harmed : s.eng.armed
      · rw [Engine.disarmNow_of_not_armed (by simpa using harmed)]
        exact State.kept_withEng (fun _ _ => rfl) rfl
      · refine State.kept_withEng (fun b hb => Engine.reg_disarmNow_off hb _ (by simp)) ?_
        rw [Engine.disarmNow_of_armed (by simpa using harmed)]
        simp
        rfl
  case segmentNext =>
    have hnext : s.eng.rotaSegmentNext = (s.eng.takeAct a).setStore { s.eng.store with segNext := s.eng.store.segNext ++ (if s.eng.armed then [s.eng.cc + 1] else []) } := by
      cases harmed : s.eng.armed
      · simp only [Engine.rotaSegmentNext, ha, Engine.armed_takeAct, harmed, Bool.false_eq_true, if_false, List.append_nil]
        rfl
      · simp only [Engine.rotaSegmentNext, ha, Engine.armed_takeAct, harmed, if_true]
        rfl
    rw [hnext]
    exact ⟨rfl, rfl, State.kept_withEng (fun _ _ => rfl) rfl⟩
  case flipWaits =>
    have hwaits : s.eng.rotaDispFlip o.val = s.eng.setDsp o.val { s.eng.dsp o.val with rotaFlip := some a.eff } := by
      simp only [Engine.rotaDispFlip, ha, hrun, hflip, Engine.notCloning hclone, Bool.false_eq_true, if_false, if_true]
    rw [hwaits]
    refine ⟨rfl, ?_, State.kept_withEng (fun _ _ => rfl) rfl⟩
    simp [Engine.setDsp, Engine.dsp, nth, hlen]
  case flipDropped =>
    have htaken : s.eng.rotaDispFlip o.val = s.eng.takeAct a := by
      simp only [Engine.rotaDispFlip, ha, hrun, Engine.notCloning hclone, Bool.false_eq_true, if_false]
    rw [htaken]
    exact ⟨rfl, rfl, State.kept_withEng (fun _ _ => rfl) rfl⟩
  case flipCloned =>
    have hrejected : s.eng.rotaDispFlip 1 = (s.eng.takeAct a).commitRej 1 4 := by simp [Engine.rotaDispFlip, ha, hclone]
    rw [hrejected]
    unfold Engine.commitRej
    refine ⟨by simp, ?_, Engine.hasBit_status_same _ (R.E_DISP_COMMIT_REJ 1) (by decide), State.kept_withEng (fun b hb => ?_) (by simp; rfl)⟩
    · exact (Engine.fld_status_ne _ (R.E_DISP_COMMIT_REJ 1) (by decide)).trans (Engine.fld_setFld_same _ _ _ (by decide))
    · exact (Engine.reg_status_off (b := R.E_DISP_COMMIT_REJ 1) hb _ (by decide)).trans (Engine.reg_setFld_off hb _ _ (by decide))
  case bcast =>
    obtain ⟨x, hx⟩ := (s.eng.takeAct a).originate_eq (s.eng.cc + 1 - 24 - s.eng.lag) (bitsOf a.arg 0 4) (a.eff.toNat % 16) true
    obtain ⟨p, hp⟩ := (s.eng.takeAct a).ownRecord_rest (s.eng.cc + 1 - 24 - s.eng.lag) (bitsOf a.arg 0 4) (a.eff.toNat % 16) true
    have hmem := (s.eng.takeAct a).ownRecord_mem (s.eng.cc + 1 - 24 - s.eng.lag) (bitsOf a.arg 0 4) (a.eff.toNat % 16) true
    have hrecord : s.eng.rotaBcast = ((s.eng.takeAct a).ownRecord (s.eng.cc + 1 - 24 - s.eng.lag) (bitsOf a.arg 0 4) (a.eff.toNat % 16) true).setRing x := by
      simp only [Engine.rotaBcast, ha]
      exact hx
    rw [hrecord]
    refine ⟨?_, hmem, ?_⟩
    · rw [hp]; rfl
    · rw [hp]; exact State.kept_withEng (fun _ _ => rfl) rfl
  case dam =>
    have hrun : s.eng.running = true := by
      simp only [Engine.live, Bool.and_eq_true] at hlive
      exact hlive.1
    have hdriven : s.eng.rotaDam = (s.eng.takeAct a).setDam { s.eng.dam with driveAt := some (driveInstant a.eff, 4) } := by
      simp only [Engine.rotaDam, ha]
      exact Engine.damCause_of_idle (m := s.eng.takeAct a) hidle hrun 4 a.eff
    rw [hdriven]
    exact ⟨rfl, rfl, State.kept_withEng (fun _ _ => rfl) rfl⟩
  case damBusy =>
    have hkept : s.eng.rotaDam = s.eng.takeAct a := by
      simp only [Engine.rotaDam, ha]
      exact Engine.damCause_of_busy (m := s.eng.takeAct a) hbusy 4 a.eff
    rw [hkept]
    exact ⟨rfl, rfl, State.kept_withEng (fun _ _ => rfl) rfl⟩

end Sys2Proof.Machine
end

section
/-! SUPPORT. The parts that storage may change: packs, markers, segments (R200 to R224). -/
namespace Sys2Proof.Machine
open Sys2Proof

/-! Where the registers lie. -/

/-- A register of a reach's page is an RU register. -/
theorem inParts_ru {l : List Part} {n : Nat} (hn : n < 48) (hl : l.contains (.of .ruB) = true) (k : Nat) (hk : k < 0x1000) : inParts l (0x40000 + k + 0x2000 * n) = true :=
  inParts_of_block (blockAt_ru hn (by omega) (by omega)) hl

variable {l : List Part} {m m' : Engine}

@[simp] theorem within_showFifo {n : Nat} (hn : n < 48) (h : partsIn [.of .ruB] l = true) : Engine.Within l m (m'.showFifo n) ↔ Engine.Within l m m' := by
  refine Engine.Within.step (k := [.of .ruB]) ?_ h
  have hru : ∀ k, k < 0x1000 → inParts [.of .ruB] (0x40000 + k + 0x2000 * n) = true := inParts_ru hn rfl
  unfold Engine.showFifo
  dsimp only
  simp [within_setFld (f := R.RU_STATUS_FIFO n) _ (hru 0x50 (by decide)), within_setFlag (f := R.RU_STATUS_PACK_OPEN n) _ (hru 0x50 (by decide)),
    within_setFld (f := R.RU_FIFO_PEAK_PEAK n) _ (hru 0x54 (by decide))]

@[simp] theorem within_gapEnd (n : Nat) (h : partsIn [.of .weirB, .of .storeB, .of .segB] l = true) : Engine.Within l m (m'.gapEnd n) ↔ Engine.Within l m m' := by
  refine Engine.Within.step (k := [.of .weirB, .of .storeB, .of .segB]) ?_ h
  unfold Engine.gapEnd
  dsimp only
  split
  · simp +decide [within_mark]
  · simp

theorem within_packClose {n : Nat} (hn : n < 48) (close : Nat) (h : partsIn storeParts l = true) : Engine.Within l m (m'.packClose n close) ↔ Engine.Within l m m' := by
  refine Engine.Within.step (k := storeParts) ?_ h
  have hru : ∀ k, k < 0x1000 → inParts storeParts (0x40000 + k + 0x2000 * n) = true := inParts_ru hn rfl
  have hcnt : inParts storeParts (R.WEIR_GAPCNT n) = true := inParts_of_block (blockAt_weir (by unfold R.WEIR_GAPCNT; omega) (by unfold R.WEIR_GAPCNT; omega)) rfl
  have hhi : inParts storeParts (R.RU_PACKS_LO n + 4) = true := by
    rw [show R.RU_PACKS_LO n + 4 = 0x40000 + 0x64 + 0x2000 * n by unfold R.RU_PACKS_LO; omega]
    exact hru 0x64 (by decide)
  unfold Engine.packClose
  dsimp only
  split
  · simp
  split
  · simp +decide [within_showFifo hn, hcnt]
  · simp +decide [within_showFifo hn, within_setReg64 (a := R.RU_PACKS_LO n) _ (hru 0x60 (by decide)) hhi]

theorem within_packFull {n : Nat} (hn : n < 48) (h : partsIn storeParts l = true) : Engine.Within l m (m'.packFull n) ↔ Engine.Within l m m' := by
  refine Engine.Within.step (k := storeParts) ?_ h
  unfold Engine.packFull
  split
  · simp
  · simp +decide [within_packClose hn]

theorem within_packFlush {n : Nat} (hn : n < 48) (h : partsIn storeParts l = true) : Engine.Within l m (m'.packFlush n) ↔ Engine.Within l m m' := by
  refine Engine.Within.step (k := storeParts) ?_ h
  unfold Engine.packFlush
  dsimp only
  split
  · simp
  · simp +decide [within_packClose hn]

theorem within_markIntake (type n : Nat) (t : Tb) (exact : Bool) (data : Nat) (h : partsIn [.of .storeB, .of .segB] l = true) :
    Engine.Within l m (m'.markIntake type n t exact data) ↔ Engine.Within l m m' := within_mark _ h

theorem within_postShort (n reason : Nat) (h : partsIn [.of .storeB, .of .segB] l = true) : Engine.Within l m (m'.postShort n reason) ↔ Engine.Within l m m' := by
  refine Engine.Within.step (k := [.of .storeB, .of .segB]) ?_ h
  have hseg : inParts [.of .storeB, .of .segB] (segBase m'.curSeg + 0x18) = true := inParts_seg m'.curSeg_lt rfl _ (by decide)
  unfold Engine.postShort
  dsimp only
  simp +decide [within_markIntake, within_setFlag (f := R.SEG_STATUS_POST_SHORT m'.curSeg) _ hseg]

theorem within_postFull (n : Nat) (h : partsIn [.of .storeB, .of .segB] l = true) : Engine.Within l m (m'.postFull n) ↔ Engine.Within l m m' := by
  refine Engine.Within.step (k := [.of .storeB, .of .segB]) ?_ h
  unfold Engine.postFull
  simp +decide [within_postShort]

theorem within_gapFinish (h : partsIn [.of .storeB, .of .segB] l = true) : Engine.Within l m m'.gapFinish ↔ Engine.Within l m m' := by
  refine Engine.Within.step (k := [.of .storeB, .of .segB]) ?_ h
  unfold Engine.gapFinish
  dsimp only
  split
  · simp
  · simp +decide [within_mark]

theorem within_gapAtClose (n : Nat) (t : Tb) (h : partsIn [.of .weirB, .of .storeB, .of .segB] l = true) : Engine.Within l m (m'.gapAtClose n t) ↔ Engine.Within l m m' := by
  refine Engine.Within.step (k := [.of .weirB, .of .storeB, .of .segB]) ?_ h
  unfold Engine.gapAtClose
  dsimp only
  simp +decide

/-- A segment closes. -/
theorem within_closeSegment (close : Nat) (t : Tb) (reason : Nat) (cause : Option Nat) (settled : Bool) (h : partsIn storeParts l = true) :
    Engine.Within l m (m'.closeSegment close t reason cause settled) ↔ Engine.Within l m m' := by
  refine Engine.Within.step (k := storeParts) ?_ h
  have hseg : ∀ k, k < 0x3C → inParts storeParts (segBase m'.curSeg + k) = true := inParts_seg m'.curSeg_lt rfl
  unfold Engine.closeSegment
  dsimp only
  split
  · simp
  · rw [within_status (by decide), within_setFld _ (by decide), within_ite, within_setFlag (f := R.SEG_STATUS_SETTLED m'.curSeg) _ (hseg 0x18 (by decide)),
      within_setReg64 (a := R.SEG_CLOSE_TB_LO m'.curSeg) _ (hseg 0x30 (by decide)) (hseg 0x34 (by decide)), within_setFld (f := R.SEG_STATUS_STATE m'.curSeg) _ (hseg 0x18 (by decide)),
      within_markerPack _ (by decide)]
    refine (fun hX => ⟨fun _ => hX, fun _ => hX⟩) ?_
    cases cause with
    | none =>
      dsimp only
      rw [within_loop fun n _ x => by simp +decide [within_postShort], within_loop fun n _ x => by simp +decide [within_gapAtClose], within_gapFinish (by decide),
        within_loop fun n hn x => by simp +decide [within_postFull, within_packClose hn]]
      exact .refl _ _
    | some c =>
      dsimp only
      rw [within_mark _ (by decide), within_loop fun n _ x => by simp +decide [within_postShort], within_loop fun n _ x => by simp +decide [within_gapAtClose], within_gapFinish (by decide),
        within_loop fun n hn x => by simp +decide [within_postFull, within_packClose hn]]
      exact .refl _ _

/-! Boundaries, and the ends of gaps and of capture. -/

/-- The segment that follows is one of 256. -/
theorem Engine.passLocked_lt (m : Engine) (closing k : Nat) (seen : List Nat) (s : Nat) {x : Nat} (h : (m.passLocked closing k seen s).1.1 = some x) : x < 2 ^ 8 := by
  induction k generalizing seen s with
  | zero => simp [Engine.passLocked] at h
  | succ k ih =>
    simp only [Engine.passLocked] at h
    split_ifs at h
    · exact Option.some.inj h ▸ m.fld_lt (R.SEG_CFG_NEXT s)
    · exact ih _ _ h

theorem Engine.advance_lt (m : Engine) (s : Nat) {x : Nat} (h : (m.advance s).1.1 = some x) : x < 2 ^ 8 := by
  simp only [Engine.advance] at h
  split_ifs at h
  · exact Option.some.inj h ▸ m.fld_lt (R.SEG_CFG_NEXT s)
  · exact m.passLocked_lt _ _ _ _ h

theorem within_boundaryNow (h : partsIn storeParts l = true) : Engine.Within l m m'.boundaryNow ↔ Engine.Within l m m' := by
  refine Engine.Within.step (k := storeParts) ?_ h
  unfold Engine.boundaryNow
  dsimp only
  split
  · simp
  split
  · simp
  split
  · next s hs =>
    simp +decide [within_openSegment (Engine.advance_lt _ _ hs), within_closeSegment]
  · simp +decide [within_closeSegment]

theorem within_rearmGapEnd (h : partsIn [.of .storeB, .of .segB] l = true) : Engine.Within l m m'.rearmGapEnd ↔ Engine.Within l m m' := by
  refine Engine.Within.step (k := [.of .storeB, .of .segB]) ?_ h
  unfold Engine.rearmGapEnd
  split
  · simp
  · simp +decide [within_gapFinish]

theorem within_markerFlush (h : partsIn [.of .storeB, .of .segB] l = true) : Engine.Within l m m'.markerFlush ↔ Engine.Within l m m' := by
  refine Engine.Within.step (k := [.of .storeB, .of .segB]) ?_ h
  simp +decide [Engine.markerFlush, within_markerPack]

theorem within_gateDue (h : partsIn storeParts l = true) : Engine.Within l m m'.gateDue ↔ Engine.Within l m m' := by
  refine Engine.Within.step (k := storeParts) ?_ h
  have hloop : ∀ x : Engine, Engine.Within storeParts x (forEach 48 (fun n m => ((m.packFlush n).postFull n).gapEnd n) x) := fun x =>
    within_forEach fun n hn x => by simp +decide [within_postFull, within_packFlush hn]
  have hgap : Engine.Within storeParts m' (if m'.boundaryNow.segOpen then m'.boundaryNow.rearmGapEnd else m'.boundaryNow) := by
    simp +decide [within_rearmGapEnd, within_boundaryNow]
  unfold Engine.gateDue
  dsimp only
  rw [within_ite, within_markerFlush (by decide), (hloop _).step_self]
  exact ⟨fun _ => hgap, fun _ => hgap⟩

/-- The parts that the end of capture may change: storage, and what held writes reach. -/
def endParts : List Part := storeParts ++ heldParts

theorem within_endCapture (close : Nat) (t : Tb) (cause : Option Nat) (settled : Bool) (h : partsIn endParts l = true) :
    Engine.Within l m (m'.endCapture close t cause settled) ↔ Engine.Within l m m' := by
  refine Engine.Within.step (k := endParts) ?_ h
  unfold Engine.endCapture
  dsimp only
  simp +decide [within_applyHeld, within_closeSegment, within_boundaryNow]

end Sys2Proof.Machine
end

section
/-! SUPPORT. One sample cycle at the store gate (R12, R14, R151, R214, R216). -/
namespace Sys2Proof.Machine
open Sys2Proof

variable {l : List Part} {m m' : Engine}

theorem within_putItem {n : Nat} (hn : n < 48) (type rate : Nat) (t : Tb) (slots : List Nat) (swap skip : Bool) (phys : Nat) (h : partsIn storeParts l = true) :
    Engine.Within l m (m'.putItem n type rate t slots swap skip phys) ↔ Engine.Within l m m' := by
  refine Engine.Within.step (k := storeParts) ?_ h
  have hopen : inParts storeParts (R.RU_STATUS_PACK_OPEN n).addr = true := inParts_ru hn rfl 0x50 (by decide)
  unfold Engine.putItem
  dsimp only
  split
  · simp
  · simp +decide [within_packFull hn, within_setFlag (f := R.RU_STATUS_PACK_OPEN n) _ hopen]

theorem within_putChange {n : Nat} (hn : n < 48) (rate : Nat) (t : Tb) (view : Lines) (phys : Nat) (h : partsIn storeParts l = true) :
    Engine.Within l m (m'.putChange n rate t view phys) ↔ Engine.Within l m m' := by
  refine Engine.Within.step (k := storeParts) ?_ h
  unfold Engine.putChange
  dsimp only
  rw [within_setSto]
  split
  · simp +decide [within_putItem hn]
  · simp +decide [within_putItem hn, within_packClose hn]

theorem within_transitionTick {n : Nat} (hn : n < 48) (phys : Nat) (t : Tb) (f : FTick) (h : partsIn storeParts l = true) :
    Engine.Within l m (m'.transitionTick n phys t f) ↔ Engine.Within l m m' := by
  refine Engine.Within.step (k := storeParts) ?_ h
  unfold Engine.transitionTick
  dsimp only
  split
  · simp
  split
  · simp +decide [within_putChange hn]
  split
  · simp +decide [within_putChange hn]
  · split
    · simp +decide [within_putChange hn]
    · simp

theorem within_gateTickOf {n : Nat} (hn : n < 48) (k phys : Nat) (t0 : Tb) (js : List Judged) (h : partsIn storeParts l = true) :
    Engine.Within l m (m'.gateTickOf n k phys t0 js) ↔ Engine.Within l m m' := by
  refine Engine.Within.step (k := storeParts) ?_ h
  unfold Engine.gateTickOf
  dsimp only
  split
  · simp +decide [within_putItem hn]
  · simp +decide [within_putItem hn]
  · simp +decide [within_putItem hn]
  · split
    · simp
    · simp +decide [within_putItem hn]
  · simp +decide [within_transitionTick hn]
  · simp

theorem within_storeEnables (en : Lines) (h : partsIn storeParts l = true) : Engine.Within l m (m'.storeEnables en) ↔ Engine.Within l m m' := by
  refine Engine.Within.step (k := storeParts) ?_ h
  exact within_forEach fun n hn x => by simp +decide [within_packClose hn]

theorem within_addSat16 {f : Field} (hf : inParts l f.addr = true) : Engine.Within l m (m'.addSat16 f) ↔ Engine.Within l m m' := within_setFld _ hf

theorem within_triggerAt (t : Tb) (exact : Bool) (data : Nat) (h : partsIn storeParts l = true) : Engine.Within l m (m'.triggerAt t exact data) ↔ Engine.Within l m m' := by
  refine Engine.Within.step (k := storeParts) ?_ h
  have hseg : ∀ k, k < 0x3C → inParts storeParts (segBase m'.curSeg + k) = true := inParts_seg m'.curSeg_lt rfl
  have hshort : inParts storeParts (R.SEG_STATUS_PRE_SHORT m'.curSeg).addr = true := hseg 0x18 (by decide)
  unfold Engine.triggerAt
  dsimp only
  split
  · simp +decide [within_addSat16 (f := R.SEG_TRIGCNTS_MISSED m'.curSeg) (hseg 0x38 (by decide))]
  split
  · rw [within_addSat16 (f := R.SEG_TRIGCNTS_UNHONOURED m'.curSeg) (hseg 0x38 (by decide))]
    exact .refl _ _
  · rw [within_ite, within_fold _ fun x n _ => by simp, within_fold _ fun x n _ => by simp +decide [within_markIntake, within_setFlag (f := R.SEG_STATUS_PRE_SHORT m'.curSeg) _ hshort],
      within_fold _ fun x n _ => by simp +decide [within_markIntake], within_mark _ (by decide), within_status (by decide),
      within_setReg64 (a := R.SEG_TRIG_TB_LO m'.curSeg) _ (hseg 0x28 (by decide)) (hseg 0x2C (by decide)), within_setFld (f := R.SEG_STATUS_STATE m'.curSeg) _ (hseg 0x18 (by decide))]
    exact ⟨fun _ => .refl _ _, fun _ => .refl _ _⟩

@[simp] theorem within_ticksComplete (done : Bool) : Engine.Within l m (m'.ticksComplete done) ↔ Engine.Within l m m' := by
  refine Engine.Within.step_self ?_
  simp [Engine.ticksComplete]

@[simp] theorem within_askBoundary (phys : Nat) (t0 : Tb) (segact next post : Bool) : Engine.Within l m (m'.askBoundary phys t0 segact next post) ↔ Engine.Within l m m' := by
  refine Engine.Within.step_self ?_
  simp [Engine.askBoundary]

/-- The samples of one sample cycle go to storage. -/
theorem within_storeCycle (e : PipeEntry) (h : partsIn storeParts l = true) : Engine.Within l m (m'.storeCycle e) ↔ Engine.Within l m m' := by
  refine Engine.Within.step (k := storeParts) ?_ h
  have hrun : ∀ (js : List (List Judged)) (lo hi : Nat) (x : Engine), Engine.Within storeParts x (forEach 48 (fun n m =>
      if m.stored n then (List.range 16).foldl (fun m k => if lo ≤ k ∧ k < hi then m.gateTickOf n k e.phys e.tb (nth js n []) else m) m else m) x) := fun js lo hi x =>
    within_forEach fun n hn x => by
      rw [within_ite, within_fold _ fun x k _ => by simp +decide [within_gateTickOf hn]]
      exact ⟨fun _ => .refl _ _, fun _ => .refl _ _⟩
  unfold Engine.storeCycle
  dsimp only
  rw [within_askBoundary, within_ticksComplete]
  split
  · rw [(hrun _ _ _ _).step_self, within_storeEnables _ (by decide)]
    exact .refl _ _
  · rw [(hrun _ _ _ _).step_self, within_triggerAt _ _ _ (by decide), (hrun _ _ _ _).step_self, within_storeEnables _ (by decide)]
    exact .refl _ _

/-- A snapshot is taken (R151). -/
theorem within_snapTake (h : partsIn [.of .confB] l = true) : Engine.Within l m m'.snapTake ↔ Engine.Within l m m' := by
  refine Engine.Within.step (k := [.of .confB]) ?_ h
  have hconf : ∀ a, 0xA0000 ≤ a → a < 0xA1000 → inParts [.of .confB] a = true := fun a hlo hhi => by
    have hpage : a / 0x1000 = 0xA0 := by omega
    exact inParts_of_block (b := .confB) (by simp only [blockAt, hpage]; rfl) rfl
  unfold Engine.snapTake
  dsimp only
  split
  · simp
  split
  · simp
  · rw [within_status (by decide), within_setFlag _ (by decide), within_setFlag _ (by decide), within_setReg _ (by decide), within_setReg _ (by decide), within_setReg _ (by decide),
      within_loop fun k hk x => (within_setReg _ (hconf _ (by unfold R.CONF_SNAPC2; omega) (by unfold R.CONF_SNAPC2; omega))).2 (.refl _ _),
      within_loop fun k hk x => (within_setReg _ (hconf _ (by unfold R.CONF_SNAPC1; omega) (by unfold R.CONF_SNAPC1; omega))).2 (.refl _ _),
      within_loop fun k hk x => (within_setReg _ (hconf _ (by unfold R.CONF_SNAPRC; omega) (by unfold R.CONF_SNAPRC; omega))).2 (.refl _ _)]
    exact .refl _ _

/-! The gate itself. -/

/-- What the sample cycle at the gate brings about: it is stored, or ends the capture, or passes. -/
def Engine.gateTakes (m : Engine) (e : PipeEntry) : Engine :=
  if m.armedAt e.phys then (if e.dec.isSome then m.storeCycle e else m)
  else if m.pastEnd e.phys then m.endCapture 1 e.tb none false else m

/-- A sample cycle that has not come to the gate waits. -/
theorem Engine.storeGate_of_waits {m : Engine} {e : PipeEntry} {rest : List PipeEntry} (hpipe : m.path.pipe = e :: rest) (h : e.stepped = false ∨ m.cc < e.phys + 32 + m.lag) :
    m.storeGate = m := by
  have hwaits : (!e.stepped) = true ∨ m.cc < e.phys + 32 + m.lag := by simpa using h
  simp only [Engine.storeGate, hpipe, if_pos hwaits]

/-- The engine in which a sample cycle comes to the gate: a snapshot and all that is due first is done. -/
def Engine.gateReached (m : Engine) (e : PipeEntry) : Engine := m.snapTake.gateDue.setStore { m.snapTake.gateDue.store with gated := e.phys, gatedTb := e.tb }

/-- The sample cycle is gone. -/
def Engine.gatePassed (m : Engine) (e : PipeEntry) (rest : List PipeEntry) : Engine :=
  let m := { m with path := { m.path with pipe := rest } }
  m.setStore { m.store with segNext := m.store.segNext.filter (fun p => decide (e.phys + 1 < p)) }

@[simp] theorem Engine.gatePassed_pipe (m : Engine) (e : PipeEntry) (rest : List PipeEntry) : (m.gatePassed e rest).path.pipe = rest := rfl
@[simp] theorem Engine.gatePassed_gated (m : Engine) (e : PipeEntry) (rest : List PipeEntry) : (m.gatePassed e rest).store.gated = m.store.gated := rfl
@[simp] theorem Engine.gatePassed_gatedTb (m : Engine) (e : PipeEntry) (rest : List PipeEntry) : (m.gatePassed e rest).store.gatedTb = m.store.gatedTb := rfl
@[simp] theorem Engine.gatePassed_active (m : Engine) (e : PipeEntry) (rest : List PipeEntry) : (m.gatePassed e rest).store.active = m.store.active := rfl
@[simp] theorem Engine.gatePassed_tb (m : Engine) (e : PipeEntry) (rest : List PipeEntry) : (m.gatePassed e rest).tb = m.tb := rfl

theorem Engine.storeGate_of_due {m : Engine} {e : PipeEntry} {rest : List PipeEntry} (hpipe : m.path.pipe = e :: rest) (hstepped : e.stepped = true)
    (hdue : e.phys + 32 + m.lag ≤ m.cc) : m.storeGate = ((m.gateReached e).gateTakes e).gatePassed e rest := by
  have hgo : ¬((!e.stepped) = true ∨ m.cc < e.phys + 32 + m.lag) := by simp [hstepped, Nat.not_lt.2 hdue]
  unfold Engine.storeGate
  simp only [hpipe, if_neg hgo]
  unfold Engine.gatePassed Engine.gateTakes Engine.gateReached
  generalize m.snapTake.gateDue = x
  rfl

theorem within_gateReached (e : PipeEntry) : Engine.Within (.gated :: .of .confB :: storeParts) m (m.gateReached e) := by
  unfold Engine.gateReached
  rw [within_setStore _ (.inl (by decide)), within_gateDue (by decide), within_snapTake (by decide)]
  exact .refl _ _

theorem within_gateTakes (e : PipeEntry) : Engine.Within endParts m (m.gateTakes e) := by
  have hcycle : Engine.Within endParts m (m.storeCycle e) := (within_storeCycle e (by decide)).2 (.refl _ _)
  have hend : Engine.Within endParts m (m.endCapture 1 e.tb none false) := (within_endCapture _ _ _ _ (by decide)).2 (.refl _ _)
  unfold Engine.gateTakes
  simp only [within_ite, hcycle, hend, Engine.Within.refl, implies_true, and_self]

theorem Engine.tb_gateReached (m : Engine) (e : PipeEntry) : (m.gateReached e).tb = m.tb := (within_gateReached e).tb

/-- The gate has the sample cycle in its sights as it had before. -/
theorem Engine.armedAt_gateReached (m : Engine) (e : PipeEntry) (p : Nat) : (m.gateReached e).armedAt p = m.armedAt p := by
  unfold Engine.armedAt
  rw [(within_gateReached e).span (by decide)]

theorem Engine.pastEnd_gateReached (m : Engine) (e : PipeEntry) (p : Nat) : (m.gateReached e).pastEnd p = m.pastEnd p := by
  unfold Engine.pastEnd
  rw [(within_gateReached e).span (by decide)]

/-! Held writes leave storage as it is. -/

theorem Engine.ite_store {c : Prop} [Decidable c] (x y : Engine) : (if c then x else y).store = if c then x.store else y.store := apply_ite _ _ _ _

@[simp] theorem Engine.edgeInv_store (m : Engine) (n : Nat) : (m.edgeInv n).store = m.store := by simp [Engine.edgeInv, Engine.ite_store]
@[simp] theorem Engine.clearVer_store (m : Engine) (b : Bool) : (m.clearVer b).store = m.store := by simp [Engine.clearVer]
@[simp] theorem Engine.verify_store (m : Engine) (b : Bool) : (m.verify b).store = m.store := by
  unfold Engine.verify
  split <;> simp [Engine.ite_store]
@[simp] theorem Engine.tsetWritten_store (m : Engine) (w : Word) : (m.tsetWritten w).store = m.store := by simp [Engine.tsetWritten, Engine.ite_store]
@[simp] theorem Engine.lineWritten_store (m : Engine) (i : Nat) (b : Bool) : (m.lineWritten i b).store = m.store := by simp [Engine.lineWritten, Engine.gateForce, Engine.ite_store]

@[simp] theorem Engine.takeConfig_store (m : Engine) (a : Nat) (v : Word) : (m.takeConfig a v).store = m.store := by
  unfold Engine.takeConfig Engine.setcrcWritten
  dsimp only
  split <;> simp [Engine.ite_store]

@[simp] theorem Engine.applyHeld_store (m : Engine) : m.applyHeld.store = m.store := by
  unfold Engine.applyHeld
  refine List.foldlRecOn (motive := fun x : Engine => x.store = m.store) _ _ rfl fun x hx p _ => ?_
  dsimp only
  split <;> simp [hx]

/-- After the end of a capture nothing is stored. -/
theorem Engine.active_endCapture (m : Engine) (close : Nat) (t : Tb) (cause : Option Nat) (settled : Bool) : (m.endCapture close t cause settled).store.active = false := by
  unfold Engine.endCapture
  dsimp only
  split
  · next h => simpa using h
  · simp

/-! A trigger: what it leaves of the segment's state and of its TB, which the markers that follow do not touch. -/

/-- The segment at hand, its state and the TB of its trigger. -/
def Engine.triggered (m : Engine) (s : Nat) : Nat × Nat × Tb := (m.curSeg, m.fld (R.SEG_STATUS_STATE s), m.reg64 (R.SEG_TRIG_TB_LO s))

section Triggered
variable (m : Engine) (s : Nat)

theorem Engine.triggered_of_regs {m m' : Engine} {s : Nat} (hcur : m'.fld R.STORE_STATUS_CURRENT = m.fld R.STORE_STATUS_CURRENT) (hstate : m'.fld (R.SEG_STATUS_STATE s) = m.fld (R.SEG_STATUS_STATE s))
    (hlo : m'.reg (R.SEG_TRIG_TB_LO s) = m.reg (R.SEG_TRIG_TB_LO s)) (hhi : m'.reg (R.SEG_TRIG_TB_LO s + 4) = m.reg (R.SEG_TRIG_TB_LO s + 4)) : m'.triggered s = m.triggered s := by
  unfold Engine.triggered Engine.curSeg
  rw [hcur, hstate, Engine.reg64_of_reg hlo hhi]

/-- The registers of a descriptor that hold its state and the TB of its trigger, and the store's STATUS. -/
def triggerRegs (s : Nat) : List Nat := [R.STORE_STATUS, R.SEG_STATUS s, R.SEG_TRIG_TB_LO s, R.SEG_TRIG_TB_LO s + 4]

theorem Engine.triggered_setReg (v : Word) {a : Nat} (ha : a ∉ triggerRegs s) : (m.setReg a v).triggered s = m.triggered s := by
  simp only [triggerRegs, List.mem_cons, List.not_mem_nil, or_false, not_or] at ha
  obtain ⟨hstatus, hseg, hlo, hhi⟩ := ha
  exact Engine.triggered_of_regs (m.fld_setReg_ne v (Ne.symm hstatus)) (m.fld_setReg_ne v (Ne.symm hseg)) (m.reg_setReg_ne v (Ne.symm hlo)) (m.reg_setReg_ne v (Ne.symm hhi))

@[simp] theorem Engine.triggered_setStore (x : StoreState) : (m.setStore x).triggered s = m.triggered s := rfl
@[simp] theorem Engine.triggered_setSto (n : Nat) (x : StoreIntake) : (m.setSto n x).triggered s = m.triggered s := rfl

theorem Engine.triggered_ite {c : Prop} [Decidable c] (x y : Engine) : (if c then x else y).triggered s = if c then x.triggered s else y.triggered s := apply_ite (fun z : Engine => z.triggered s) _ _ _

theorem Engine.triggered_status {b : PageBit} (h : statusAddr b.page ∉ triggerRegs s) : (m.status b).triggered s = m.triggered s := by
  simp only [triggerRegs, List.mem_cons, List.not_mem_nil, or_false, not_or] at h
  obtain ⟨hstatus, hseg, hlo, hhi⟩ := h
  exact Engine.triggered_of_regs (m.fld_status_ne b (Ne.symm hstatus)) (m.fld_status_ne b (Ne.symm hseg)) (m.reg_status_ne b (Ne.symm hlo)) (m.reg_status_ne b (Ne.symm hhi))

/-- A flag of the descriptor's STATUS beside its state. -/
theorem Engine.triggered_setFlag {f : Field} (b : Bool) (ha : f.addr = R.SEG_STATUS s) (hlo : 3 ≤ f.lo) : (m.setFlag f b).triggered s = m.triggered s := by
  refine Engine.triggered_of_regs (m.fld_setFlag_ne b ?_) (m.fld_setFlag_beside f (R.SEG_STATUS_STATE s) b ha.symm (.inl hlo)) (m.reg_setFlag_ne _ b ?_) (m.reg_setFlag_ne _ b ?_)
  all_goals
    rw [ha]
    simp only [R.STORE_STATUS_CURRENT, R.STORE_STATUS, R.SEG_STATUS, R.SEG_TRIG_TB_LO, segBase]
    omega

/-- The store's other registers and a descriptor's MARK hold neither. -/
theorem not_mem_triggerRegs {s a : Nat} (h : a = statusAddr 0xA8 ∨ a = statusAddr (0xA9 + s / 64) ∨ a = R.STORE_MKDROP ∨ a = R.SEG_MARK s) : a ∉ triggerRegs s := by
  simp only [statusAddr, triggerRegs, R.STORE_MKDROP, R.SEG_MARK, R.STORE_STATUS, R.SEG_STATUS, R.SEG_TRIG_TB_LO, segBase, List.mem_cons, List.not_mem_nil, or_false, not_or] at h ⊢
  omega

variable {m s}

theorem Engine.triggered_markerPack (close : Nat) (hs : m.curSeg = s) : (m.markerPack close).triggered s = m.triggered s := by
  subst hs
  unfold Engine.markerPack
  dsimp only
  split
  · rfl
  split
  · rw [Engine.triggered_status _ _ (b := R.E_STORE_MKDROP) (not_mem_triggerRegs (.inl rfl)), Engine.triggered_status _ _ (b := R.E_SEG_MKFULL m.curSeg) (not_mem_triggerRegs (.inr (.inl rfl))),
      Engine.triggered_setFlag _ _ _ rfl (show 3 ≤ 7 by decide), Engine.triggered_setStore]
  · exact (Engine.triggered_setReg _ _ _ (not_mem_triggerRegs (.inr (.inr (.inr rfl))))).trans (Engine.triggered_setStore _ _ _)

theorem Engine.triggered_mark (k : Marker) (hs : m.curSeg = s) : (m.mark k).triggered s = m.triggered s := by
  have hdrop : ∀ x : Engine, (x.status R.E_STORE_MKDROP).triggered s = x.triggered s := fun x => Engine.triggered_status _ _ (b := R.E_STORE_MKDROP) (not_mem_triggerRegs (.inl rfl))
  unfold Engine.mark
  dsimp only
  split
  · exact hdrop m
  split
  · rw [hdrop]
    exact Engine.triggered_setReg _ _ _ (not_mem_triggerRegs (.inr (.inr (.inl rfl))))
  · have hpack : ∀ x : StoreState, ((m.setStore x).markerPack 0).triggered s = m.triggered s := fun x => Engine.triggered_markerPack (m := m.setStore x) 0 hs
    rw [Engine.triggered_ite, hpack, Engine.triggered_setStore, ite_self]

theorem Engine.triggered_markIntake (type n : Nat) (t : Tb) (exact : Bool) (data : Nat) (hs : m.curSeg = s) : (m.markIntake type n t exact data).triggered s = m.triggered s :=
  Engine.triggered_mark _ hs

/-- Passes over the intakes that leave what the trigger set. -/
theorem Engine.triggered_foldl {f : Engine → Nat → Engine} (h : ∀ (x : Engine) (n : Nat), x.curSeg = s → (f x n).triggered s = x.triggered s) (ns : List Nat) (hs : m.curSeg = s) :
    (ns.foldl f m).triggered s = m.triggered s := by
  induction ns generalizing m with
  | nil => rfl
  | cons n ns ih =>
    have hn := h m n hs
    exact (ih ((congrArg (·.1) hn).trans hs)).trans hn

/-- A trigger's mark in the segment at hand. -/
def Engine.triggerSet (m : Engine) (t : Tb) : Engine := ((m.setFld (R.SEG_STATUS_STATE m.curSeg) 2).setReg64 (R.SEG_TRIG_TB_LO m.curSeg) t).status R.E_STORE_TRIG

theorem Engine.triggered_triggerSet (m : Engine) (t : Tb) : (m.triggerSet t).triggered m.curSeg = (m.curSeg, 2, t) := by
  unfold Engine.triggerSet
  rw [Engine.triggered_status _ _ (b := R.E_STORE_TRIG) (not_mem_triggerRegs (.inl rfl))]
  unfold Engine.triggered Engine.curSeg
  rw [Engine.reg64_setReg64_same, Engine.fld_setReg64_ne, Engine.fld_setReg64_ne, Engine.fld_setFld_same _ _ _ (show 0 + 3 ≤ 32 by decide), Engine.fld_setFld_ne]
  · rfl
  all_goals
    simp only [R.STORE_STATUS_CURRENT, R.STORE_STATUS, R.SEG_STATUS_STATE, R.SEG_STATUS, R.SEG_TRIG_TB_LO, segBase]
    omega

/-- A trigger's marker in the stream of a STATE intake (R214). -/
def Engine.markEdge (t : Tb) (exact : Bool) (data : Nat) (m : Engine) (n : Nat) : Engine := if m.regime n = 4 then m.markIntake 1 n t exact data else m

/-- An intake whose pre side is short at a trigger is marked (R216). -/
def Engine.markShort (s : Nat) (t : Tb) (m : Engine) (n : Nat) : Engine :=
  if m.preHeld n t then m else ((m.markIntake 7 n t false (m.preDepth n t)).setFlag (R.SEG_STATUS_PRE_SHORT s) true).status R.E_STORE_PRE_SHORT

/-- An intake that stores nothing after the trigger is complete (R217). -/
def Engine.completes (m : Engine) (n : Nat) : Engine := m.setSto n { m.sto n with complete := true }

theorem Engine.triggered_markEdge {t : Tb} {exact : Bool} {data : Nat} (x : Engine) (n : Nat) (hs : x.curSeg = s) : (x.markEdge t exact data n).triggered s = x.triggered s := by
  unfold Engine.markEdge
  rw [Engine.triggered_ite, Engine.triggered_markIntake _ _ _ _ _ hs, ite_self]

theorem Engine.triggered_markShort {t : Tb} (x : Engine) (n : Nat) (hs : x.curSeg = s) : (x.markShort s t n).triggered s = x.triggered s := by
  unfold Engine.markShort
  rw [Engine.triggered_ite, Engine.triggered_status _ _ (b := R.E_STORE_PRE_SHORT) (not_mem_triggerRegs (.inl rfl)), Engine.triggered_setFlag _ _ _ rfl (show 3 ≤ 3 by decide),
    Engine.triggered_markIntake _ _ _ _ _ hs, ite_self]

/-- The markers of an honoured trigger. -/
def Engine.triggerMarks (m : Engine) (ns : List Nat) (s : Nat) (t : Tb) (exact : Bool) (data : Nat) : Engine :=
  ns.foldl (Engine.markShort s t) (ns.foldl (Engine.markEdge t exact data) (m.mark { type := 1, intake := 0xFF, tb := t, exact := exact, data := data }))

theorem Engine.triggered_triggerMarks (ns : List Nat) (t : Tb) (exact : Bool) (data : Nat) (hs : m.curSeg = s) : (m.triggerMarks ns s t exact data).triggered s = m.triggered s := by
  have hmark := Engine.triggered_mark { type := 1, intake := 0xFF, tb := t, exact := exact, data := data } hs
  have hedges := (Engine.triggered_foldl (Engine.triggered_markEdge (t := t) (exact := exact) (data := data)) ns ((congrArg (·.1) hmark).trans hs)).trans hmark
  exact (Engine.triggered_foldl (Engine.triggered_markShort (t := t)) ns ((congrArg (·.1) hedges).trans hs)).trans hedges

/-- A trigger that is honoured makes the segment TRIGGERED and records its TB (R214). -/
theorem Engine.triggered_triggerAt {t : Tb} {exact : Bool} {data : Nat} (hopen : m.segOpen = true) (hgap : m.store.gapUntil = none) (hstate : m.fld (R.SEG_STATUS_STATE m.curSeg) = 1)
    (hpre : (m.flag (R.SEG_CFG_PREPOL m.curSeg) && !((List.range 48).filter m.stored).all (fun n => m.preFull n t)) = false) :
    (m.triggerAt t exact data).triggered m.curSeg = (m.curSeg, 2, t) := by
  have hset := m.triggered_triggerSet t
  have hmarks := (Engine.triggered_triggerMarks ((List.range 48).filter m.stored) t exact data (congrArg (·.1) hset)).trans hset
  have hdone := (Engine.triggered_foldl (f := Engine.completes) (fun _ _ _ => rfl) ((List.range 48).filter m.stored) (congrArg (·.1) hmarks)).trans hmarks
  unfold Engine.triggerAt
  simp only [hopen, hgap, hstate, hpre, Option.isSome_none, Bool.and_false, Bool.false_eq_true, if_false, Bool.not_true, bne_self_eq_false, Bool.or_self]
  rw [Engine.triggered_ite]
  exact (congrArg₂ (ite _) hdone hmarks).trans (ite_self _)

end Triggered

/-- Settles O33: what waits at the gate, what passes it, and a trigger that is honoured. -/
theorem storeGate : Obligations.StoreGate := by
  unfold Obligations.StoreGate
  refine ⟨fun s e rest hlive hpipe hstepped hdue => State.ends_live Engine.storeGate hlive ?_, fun s e rest hlive hpipe hwaits => ?_, fun m t exact data hopen hgap hstate hpre => ?_⟩
  · have htakes := within_gateTakes (m := s.eng.gateReached e) e
    obtain ⟨hgated, hgatedTb⟩ := htakes.gated (by decide)
    rw [Engine.storeGate_of_due hpipe hstepped hdue]
    simp only [State.eng_withEng, Engine.gatePassed_pipe, Engine.gatePassed_gated, Engine.gatePassed_gatedTb, Engine.gatePassed_active, Engine.gatePassed_tb, hgated, hgatedTb,
      htakes.tb, Engine.tb_gateReached]
    refine ⟨trivial, rfl, rfl, fun hunarmed hend => ?_, trivial, State.memKept_withEng _ _⟩
    have hends : (s.eng.gateReached e).gateTakes e = (s.eng.gateReached e).endCapture 1 e.tb none false := by
      simp only [Engine.gateTakes, Engine.armedAt_gateReached, Engine.pastEnd_gateReached, hunarmed, hend, Bool.false_eq_true, if_false, if_true]
    rw [hends]
    exact Engine.active_endCapture _ _ _ _ _
  · have hout : exec .storeGate s = .next (s.withEng s.eng.storeGate) := s.live_pos Engine.storeGate hlive
    rw [hout, Engine.storeGate_of_waits hpipe hwaits]
    rfl
  · have htriggered := Engine.triggered_triggerAt (exact := exact) (data := data) hopen hgap hstate hpre
    exact ⟨congrArg (·.2.1) htriggered, congrArg (·.2.2) htriggered⟩

end Sys2Proof.Machine
end

section
/-! SUPPORT. The intakes' streams: what closes a pack and steps a weir (R80, R225, R226, R229). -/
namespace Sys2Proof.Machine
open Sys2Proof

/-! The pages of storage. -/

/-- The blocks of storage lie on its pages. -/
theorem pageOf_storage {p n : Nat} {b : Block} (h : pageOf p = some (b, n)) (hb : b ∈ [Block.ruB, .weirB, .storeB, .segB]) : p ∈ storePages := by
  have hru : ∀ k < 48, 0x40 + 2 * k ∈ storePages := by decide
  simp only [List.mem_cons, List.not_mem_nil, or_false] at hb
  unfold pageOf at h
  split_ifs at h with _ _ _ _ heven
  · rcases hb with rfl | rfl | rfl | rfl <;> simp at h
  · rcases hb with rfl | rfl | rfl | rfl <;> split at h <;> simp at h
  · rcases hb with rfl | rfl | rfl | rfl <;> simp at h
  · have hp : 0x40 + 2 * ((p - 0x40) / 2) = p := by omega
    exact hp ▸ hru ((p - 0x40) / 2) (by omega)
  · rcases hb with rfl | rfl | rfl | rfl <;> simp at h
  · rcases hb with rfl | rfl | rfl | rfl <;> split at h <;> simp at h <;> decide

/-- A register beside storage's pages is in none of storage's parts. -/
theorem not_inParts_storeParts {a : Nat} (h : onPages storePages a = false) : inParts storeParts a = false := by
  have hpages : a / 0x1000 ∉ storePages := by simpa [onPages] using h
  have hblock : ∀ b ∈ [Block.ruB, .weirB, .storeB, .segB], blockAt a ≠ some b := by
    intro b hb e
    refine hpages ?_
    obtain ⟨⟨c, n⟩, hpage, rfl⟩ := Option.map_eq_some_iff.1 e
    exact pageOf_storage hpage hb
  simp only [List.mem_cons, List.not_mem_nil, or_false, forall_eq_or_imp, forall_eq] at hblock
  obtain ⟨hru, hweir, hstore, hseg⟩ := hblock
  simp [inParts, storeParts, Part.has, hru, hweir, hstore, hseg]

variable {m : Engine}

/-! What the intakes hold. -/

theorem Engine.sto_setSto {n : Nat} (hn : n < m.store.intakes.length) (x : StoreIntake) : (m.setSto n x).sto n = x := by
  simp [Engine.setSto, Engine.sto, nth, hn]

@[simp] theorem Engine.intakes_setSto (n : Nat) (x : StoreIntake) : (m.setSto n x).store.intakes = m.store.intakes.set n x := rfl

theorem Engine.sto_of_intakes {m m' : Engine} (h : m'.store.intakes = m.store.intakes) (n : Nat) : m'.sto n = m.sto n := by
  unfold Engine.sto
  rw [h]

@[simp] theorem Engine.sto_status (b : PageBit) (n : Nat) : (m.status b).sto n = m.sto n := Engine.sto_of_intakes (by rw [Engine.status_store]) n
@[simp] theorem Engine.sto_addSat (a k n : Nat) : (m.addSat a k).sto n = m.sto n := rfl

@[simp] theorem Engine.intakes_markerPack (close : Nat) : (m.markerPack close).store.intakes = m.store.intakes := by
  unfold Engine.markerPack
  dsimp only
  split
  · rfl
  split
  · simp
  · rfl

@[simp] theorem Engine.intakes_mark (k : Marker) : (m.mark k).store.intakes = m.store.intakes := by
  unfold Engine.mark
  dsimp only
  split
  · simp
  split
  · simp
  · simp [Engine.ite_store, apply_ite StoreState.intakes]

@[simp] theorem Engine.intakes_markIntake (type n : Nat) (t : Tb) (exact : Bool) (data : Nat) : (m.markIntake type n t exact data).store.intakes = m.store.intakes := m.intakes_mark _

theorem Engine.store_setReg64 (m : Engine) (a : Nat) (v : Tb) : (m.setReg64 a v).store = m.store := rfl

@[simp] theorem Engine.showFifo_store (n : Nat) : (m.showFifo n).store = m.store := by
  unfold Engine.showFifo
  dsimp only
  split <;> rfl

@[simp] theorem Engine.setSteps_store (n k : Nat) : (m.setSteps n k).store = m.store := by
  unfold Engine.setSteps
  dsimp only
  split <;> rfl

@[simp] theorem Engine.sto_showFifo (i n : Nat) : (m.showFifo i).sto n = m.sto n := Engine.sto_of_intakes (by rw [Engine.showFifo_store]) n

@[simp] theorem Engine.markerPack_detected (close : Nat) : (m.markerPack close).detected = m.detected := by
  unfold Engine.markerPack
  dsimp only
  split
  · rfl
  split <;> simp

@[simp] theorem Engine.mark_detected (k : Marker) : (m.mark k).detected = m.detected := by
  unfold Engine.mark
  dsimp only
  split
  · simp
  split
  · simp
  · simp [apply_ite Engine.detected]

/-- A lost span that has not ended stays. -/
theorem Engine.gapEnd_of_none {n : Nat} (h : (m.sto n).lost = none) : m.gapEnd n = m := by
  simp [Engine.gapEnd, h]

theorem Engine.gapEnd_of_ended {n k seq : Nat} {t0 t1 : Tb} (hlost : (m.sto n).lost = some (t0, k)) (hend : (m.sto n).lostEnd = some (t1, seq)) :
    m.gapEnd n = (((m.setSto n { m.sto n with lost := none, lostEnd := none }).mark { type := 3, intake := n, tb := t0, seq := seq % 2 ^ 32, data := t1.toNat }).status R.E_WEIR_GAP).logNow
      0xA4 2 0x0202 (min k 0xFFFFFFFF) := by
  simp only [Engine.gapEnd, hlost, hend]

theorem Engine.length_gapEnd (n : Nat) : (m.gapEnd n).store.intakes.length = m.store.intakes.length := by
  unfold Engine.gapEnd
  dsimp only
  split <;> simp

/-- A pack that closes is open no more, whether it goes into the FIFO or is discarded. -/
theorem Engine.pack_packClose {n : Nat} (close : Nat) (hn : n < m.store.intakes.length) :
    ((m.packClose n close).sto n).pack = none ∧ (m.packClose n close).store.intakes.length = m.store.intakes.length := by
  have hset : ∀ {x x' : Engine} {y : StoreIntake}, x'.store = (x.setSto n y).store → x.store.intakes.length = m.store.intakes.length → y.pack = none →
      (x'.sto n).pack = none ∧ x'.store.intakes.length = m.store.intakes.length := by
    intro x x' y hx' hx hy
    rw [Engine.sto_of_intakes (congrArg StoreState.intakes hx'), Engine.sto_setSto (hx ▸ hn), hx']
    exact ⟨hy, by simp [hx]⟩
  unfold Engine.packClose
  dsimp only
  split
  · next h => exact ⟨h, rfl⟩
  split
  · refine hset ((Engine.showFifo_store _).trans (Engine.addSat_store _ _ _)) ?_ rfl
    split
    · exact Engine.length_gapEnd n
    · rfl
  · exact hset ((Engine.showFifo_store _).trans (Engine.store_setReg64 _ _ _)) rfl rfl

/-! Steps of the weir. -/

/-- The register and bits of an intake's steps. -/
def stepsField (n : Nat) : Field := ⟨R.WEIR_STEPS (n / 8), 4 * (n % 8), 4⟩

theorem Engine.weirSteps_eq_fld (n : Nat) : m.weirSteps n = m.fld (stepsField n) := rfl

theorem Engine.weirSteps_of_reg {m m' : Engine} {n : Nat} (h : m'.reg (R.WEIR_STEPS (n / 8)) = m.reg (R.WEIR_STEPS (n / 8))) : m'.weirSteps n = m.weirSteps n := by
  unfold Engine.weirSteps
  rw [h]

theorem Engine.weirSteps_setSteps {n k : Nat} (hk : k < 16) : (m.setSteps n k).weirSteps n = k := by
  have hmax : (stepsField n).addr ≠ R.WEIR_STEPMAX (n / 8) := by simp only [stepsField, R.WEIR_STEPS, R.WEIR_STEPMAX]; omega
  have hstatus : (stepsField n).addr ≠ R.WEIR_STATUS := by simp only [stepsField, R.WEIR_STEPS, R.WEIR_STATUS]; omega
  have hsame : (m.setFld (stepsField n) k).fld (stepsField n) = k := by
    rw [Engine.fld_setFld_same _ _ _ (by simp only [stepsField]; omega)]
    exact Nat.mod_eq_of_lt hk
  rw [Engine.weirSteps_eq_fld]
  unfold Engine.setSteps
  dsimp only
  rw [Engine.fld_setFld_ne _ _ hstatus]
  split
  · exact (Engine.fld_setFld_ne _ _ hmax).trans hsame
  · exact hsame

/-! A step-down count is no register that packs, markers or steps change. -/

section Downcnt
variable {n i : Nat} (hi : i < 48)
include hi

theorem blockAt_downcnt : blockAt (R.WEIR_DOWNCNT i) = some .weirB := blockAt_weir (by unfold R.WEIR_DOWNCNT; omega) (by unfold R.WEIR_DOWNCNT; omega)

theorem Engine.downcnt_mark (k : Marker) : (m.mark k).reg (R.WEIR_DOWNCNT i) = m.reg (R.WEIR_DOWNCNT i) :=
  ((within_mark k (l := [.of .storeB, .of .segB]) (by decide)).2 (.refl _ m)).reg _ (by simp [inParts, Part.has, blockAt_downcnt hi])

theorem Engine.downcnt_showFifo (hn : n < 48) : (m.showFifo n).reg (R.WEIR_DOWNCNT i) = m.reg (R.WEIR_DOWNCNT i) :=
  ((within_showFifo hn (l := [.of .ruB]) (by decide)).2 (.refl _ m)).reg _ (by simp [inParts, Part.has, blockAt_downcnt hi])

theorem Engine.downcnt_gapEnd : (m.gapEnd n).reg (R.WEIR_DOWNCNT i) = m.reg (R.WEIR_DOWNCNT i) := by
  have hpage : R.WEIR_DOWNCNT i ≠ statusAddr R.E_WEIR_GAP.page := by simp only [R.WEIR_DOWNCNT, statusAddr, R.E_WEIR_GAP]; omega
  unfold Engine.gapEnd
  dsimp only
  split
  · exact (Engine.reg_status_ne _ _ hpage).trans (Engine.downcnt_mark hi _)
  · rfl

theorem Engine.downcnt_packClose (hn : n < 48) (close : Nat) : (m.packClose n close).reg (R.WEIR_DOWNCNT i) = m.reg (R.WEIR_DOWNCNT i) := by
  unfold Engine.packClose
  dsimp only
  split
  · rfl
  split
  · rw [Engine.downcnt_showFifo hi hn, Engine.reg_addSat_ne _ _ _ (by simp only [R.WEIR_DOWNCNT, R.WEIR_GAPCNT]; omega)]
    split
    · exact Engine.downcnt_gapEnd hi
    · rfl
  · rw [Engine.downcnt_showFifo hi hn, Engine.reg_setReg64_ne _ _ _ (by simp only [R.WEIR_DOWNCNT, R.RU_PACKS_LO]; omega) (by simp only [R.WEIR_DOWNCNT, R.RU_PACKS_LO]; omega)]
    rfl

theorem Engine.downcnt_setSteps (hn : n < 48) (k : Nat) : (m.setSteps n k).reg (R.WEIR_DOWNCNT i) = m.reg (R.WEIR_DOWNCNT i) := by
  have hsteps : R.WEIR_DOWNCNT i ≠ R.WEIR_STEPS (n / 8) := by simp only [R.WEIR_DOWNCNT, R.WEIR_STEPS]; omega
  have hmax : R.WEIR_DOWNCNT i ≠ R.WEIR_STEPMAX (n / 8) := by simp only [R.WEIR_DOWNCNT, R.WEIR_STEPMAX]; omega
  have hstatus : R.WEIR_DOWNCNT i ≠ R.WEIR_STATUS := by simp only [R.WEIR_DOWNCNT, R.WEIR_STATUS]; omega
  unfold Engine.setSteps
  dsimp only
  rw [Engine.reg_setFld_ne _ R.WEIR_STATUS_STEPPED _ hstatus]
  split
  · exact (Engine.reg_setFld_ne _ _ _ hmax).trans (Engine.reg_setFld_ne _ _ _ hsteps)
  · exact Engine.reg_setFld_ne _ _ _ hsteps

end Downcnt

/-! A step as a chain. -/

/-- The open pack closes for a step. -/
def Engine.stepCloses (m : Engine) (n : Nat) : Engine := if m.segOpen then m.packClose n 3 else m

/-- The intake's stream starts afresh at its new step. -/
def Engine.stepTaken (m : Engine) (n k : Nat) : Engine :=
  let m := (m.stepCloses n).setSteps n k
  m.setSto n { m.sto n with lowCount := 0, initial := true, edges := 0, granule := none }

/-- The rate and the steps that a step's marker shows (R226). -/
def Engine.stepMark (m : Engine) (n k : Nat) (up : Bool) : Nat := (if m.regime n = 5 then k else m.fld (R.RU_STREAM_RATE n) + k) % 32 + k * 2 ^ 5 + up.toNat * 2 ^ 9

theorem Engine.weirStep_eq (m : Engine) (n k : Nat) (up : Bool) : m.weirStep n k up =
    if (m.stepTaken n k).segOpen then (m.stepTaken n k).markIntake 2 n (m.stepTaken n k).nextGateTb false ((m.stepTaken n k).stepMark n k up) else m.stepTaken n k := rfl

theorem Engine.pack_stepCloses {n : Nat} (hlen : n < m.store.intakes.length) :
    ((m.stepCloses n).sto n).pack.isSome = (!m.segOpen && (m.sto n).pack.isSome) ∧ (m.stepCloses n).store.intakes.length = m.store.intakes.length := by
  unfold Engine.stepCloses
  cases hopen : m.segOpen
  · exact ⟨rfl, rfl⟩
  · obtain ⟨hpack, hlength⟩ := Engine.pack_packClose 3 hlen
    exact ⟨by simp [hpack], hlength⟩

theorem Engine.stepTaken_shows {n k : Nat} (hn : n < 48) (hlen : n < m.store.intakes.length) (hk : k < 16) :
    (m.stepTaken n k).weirSteps n = k ∧ ((m.stepTaken n k).sto n).pack.isSome = (!m.segOpen && (m.sto n).pack.isSome) ∧ ((m.stepTaken n k).sto n).lowCount = 0 ∧
      (m.stepTaken n k).store.intakes.length = m.store.intakes.length ∧ (m.stepTaken n k).reg (R.WEIR_DOWNCNT n) = m.reg (R.WEIR_DOWNCNT n) := by
  obtain ⟨hpack, hlength⟩ := Engine.pack_stepCloses hlen
  have hsto : (m.stepTaken n k).sto n = { (m.stepCloses n).sto n with lowCount := 0, initial := true, edges := 0, granule := none } := by
    unfold Engine.stepTaken
    dsimp only
    rw [Engine.sto_setSto (by rw [Engine.setSteps_store, hlength]; exact hlen), Engine.sto_of_intakes (m := m.stepCloses n) (by rw [Engine.setSteps_store])]
  refine ⟨Engine.weirSteps_setSteps hk, by rw [hsto]; exact hpack, by rw [hsto], ?_, ?_⟩
  · unfold Engine.stepTaken
    dsimp only
    rw [Engine.intakes_setSto, List.length_set, Engine.setSteps_store, hlength]
  · refine (Engine.downcnt_setSteps (m := m.stepCloses n) hn hn k).trans ?_
    unfold Engine.stepCloses
    split
    · exact Engine.downcnt_packClose hn hn 3
    · rfl

/-- What a step of the weir leaves (R225, R226). -/
theorem Engine.weirStep_shows {n k : Nat} (hn : n < 48) (hlen : n < m.store.intakes.length) (hk : k < 16) (up : Bool) :
    (m.weirStep n k up).weirSteps n = k ∧ ((m.weirStep n k up).sto n).pack.isSome = (!m.segOpen && (m.sto n).pack.isSome) ∧ ((m.weirStep n k up).sto n).lowCount = 0 ∧
      (m.weirStep n k up).store.intakes.length = m.store.intakes.length ∧ (m.weirStep n k up).reg (R.WEIR_DOWNCNT n) = m.reg (R.WEIR_DOWNCNT n) := by
  obtain ⟨hsteps, hpack, hlow, hlength, hcnt⟩ := Engine.stepTaken_shows hn hlen hk
  have hmark : ∀ (t : Tb) (d : Nat), Engine.Within [.of .storeB, .of .segB] (m.stepTaken n k) ((m.stepTaken n k).markIntake 2 n t false d) := fun t d =>
    (within_markIntake _ _ _ _ _ (by decide)).2 (.refl _ _)
  have hblock : blockAt (R.WEIR_STEPS (n / 8)) = some .weirB := blockAt_weir (by unfold R.WEIR_STEPS; omega) (by unfold R.WEIR_STEPS; omega)
  have hsto : ∀ (t : Tb) (d : Nat), ((m.stepTaken n k).markIntake 2 n t false d).sto n = (m.stepTaken n k).sto n := fun t d => Engine.sto_of_intakes (by simp) n
  rw [m.weirStep_eq n k up]
  split
  · rw [hsto]
    exact ⟨(Engine.weirSteps_of_reg ((hmark _ _).reg _ (by simp [inParts, Part.has, hblock]))).trans hsteps, hpack, hlow, by simpa using hlength, (Engine.downcnt_mark hn _).trans hcnt⟩
  · exact ⟨hsteps, hpack, hlow, hlength, hcnt⟩

theorem within_weirStep {l : List Part} {m m' : Engine} {n : Nat} (hn : n < 48) (k : Nat) (up : Bool) (h : partsIn storeParts l = true) :
    Engine.Within l m (m'.weirStep n k up) ↔ Engine.Within l m m' := by
  refine Engine.Within.step (k := storeParts) ?_ h
  unfold Engine.weirStep
  simp +decide [within_markIntake, within_setSteps hn, within_packClose hn]

end Sys2Proof.Machine
end

section
/-! O35: packs on their way to the cistern (R29, R80, R229, R282, R290, R292). -/
namespace Sys2Proof.Machine
open Sys2Proof

variable {m : Engine}

/-! The weir's steps. -/

/-- A step down with its count (R226). -/
def Engine.stepsDown (m : Engine) (n : Nat) : Engine :=
  let m := m.weirStep n (m.weirSteps n + 1) false
  ((m.setSto n { m.sto n with lastDown := some m.cc }).addSat (R.WEIR_DOWNCNT n) 1).status R.E_WEIR_STEP

/-- What a step down shows. -/
theorem Engine.stepsDown_shows {n : Nat} (hn : n < 48) (hlen : n < m.store.intakes.length) (hsteps : m.weirSteps n < 8) :
    (m.stepsDown n).weirSteps n = m.weirSteps n + 1 ∧ (m.stepsDown n).reg (R.WEIR_DOWNCNT n) = satAdd (m.reg (R.WEIR_DOWNCNT n)) 1 ∧
      ((m.stepsDown n).sto n).lastDown = some m.cc ∧ ((m.stepsDown n).sto n).pack.isSome = (!m.segOpen && (m.sto n).pack.isSome) ∧ (m.stepsDown n).hasBit R.E_WEIR_STEP = true := by
  obtain ⟨hsteps', hpack, -, hlength, hcnt⟩ := Engine.weirStep_shows hn hlen (show m.weirSteps n + 1 < 16 by omega) false
  have hcc : (m.weirStep n (m.weirSteps n + 1) false).cc = m.cc := ((within_weirStep hn _ _ (l := storeParts) (by decide)).2 (.refl _ m)).cc
  have hsto : (m.stepsDown n).sto n = { (m.weirStep n (m.weirSteps n + 1) false).sto n with lastDown := some m.cc } := by
    unfold Engine.stepsDown
    dsimp only
    rw [Engine.sto_status, Engine.sto_addSat, Engine.sto_setSto (hlength ▸ hlen), hcc]
  refine ⟨?_, ?_, by rw [hsto], by rw [hsto]; exact hpack, Engine.hasBit_status_same _ R.E_WEIR_STEP (by decide)⟩
  · refine (Engine.weirSteps_of_reg ?_).trans hsteps'
    unfold Engine.stepsDown
    dsimp only
    rw [Engine.reg_status_ne, Engine.reg_addSat_ne, Engine.setSto, Engine.reg_setStore]
    all_goals
      simp only [R.WEIR_STEPS, R.WEIR_DOWNCNT, statusAddr, R.E_WEIR_STEP]
      omega
  · unfold Engine.stepsDown
    dsimp only
    rw [Engine.reg_status_ne, Engine.reg_addSat_same, Engine.setSto, Engine.reg_setStore, hcnt]
    · rfl
    simp only [R.WEIR_DOWNCNT, statusAddr, R.E_WEIR_STEP]
    omega

theorem within_stepsDown {l : List Part} {m m' : Engine} {n : Nat} (hn : n < 48) (h : partsIn storeParts l = true) : Engine.Within l m (m'.stepsDown n) ↔ Engine.Within l m m' := by
  refine Engine.Within.step (k := storeParts) ?_ h
  have hcnt : inParts storeParts (R.WEIR_DOWNCNT n) = true := inParts_of_block (blockAt_downcnt hn) rfl
  unfold Engine.stepsDown
  dsimp only
  rw [within_status (by decide), within_addSat _ hcnt, within_setSto, within_weirStep hn _ _ (by decide)]
  exact .refl _ _

theorem Engine.weirDown_eq {n : Nat} (harmed : m.flag R.SYS_STATUS_ARMED = true) (hon : m.weirOn n = true) (hfill : 96 < (m.sto n).fifo.length) (hsteps : m.weirSteps n < 8)
    (hspaced : (m.sto n).lastDown.all (fun c => decide (c + 64 ≤ m.cc)) = true) :
    m.weirDown n = if m.weirSteps n + 1 = 8 then (m.stepsDown n).status R.E_WEIR_FLOOR else m.stepsDown n := by
  unfold Engine.weirDown
  cases hlast : (m.sto n).lastDown with
  | none =>
    simp only [harmed, hon, hfill, hsteps, hlast, decide_true, Bool.and_self, if_true]
    rfl
  | some c =>
    rw [hlast, Option.all_some] at hspaced
    simp only [harmed, hon, hfill, hsteps, hlast, hspaced, decide_true, Bool.and_self, if_true]
    rfl

/-- A step down: one step more, counted; the floor shows once all eight are taken. -/
theorem Engine.weirDown_shows {n : Nat} (hn : n < 48) (hlen : n < m.store.intakes.length) (harmed : m.flag R.SYS_STATUS_ARMED = true) (hon : m.weirOn n = true)
    (hfill : 96 < (m.sto n).fifo.length) (hsteps : m.weirSteps n < 8) (hspaced : (m.sto n).lastDown.all (fun c => decide (c + 64 ≤ m.cc)) = true) :
    (m.weirDown n).weirSteps n = m.weirSteps n + 1 ∧ (m.weirDown n).reg (R.WEIR_DOWNCNT n) = satAdd (m.reg (R.WEIR_DOWNCNT n)) 1 ∧ (m.weirDown n).sto n = (m.stepsDown n).sto n ∧
      (m.weirSteps n = 7 → (m.weirDown n).hasBit R.E_WEIR_FLOOR = true) ∧ (m.weirDown n).hasBit R.E_WEIR_STEP = true := by
  obtain ⟨hsteps', hcnt, -, -, hbit⟩ := Engine.stepsDown_shows hn hlen hsteps
  rw [Engine.weirDown_eq harmed hon hfill hsteps hspaced]
  split
  · refine ⟨(Engine.weirSteps_of_reg (Engine.reg_status_ne _ R.E_WEIR_FLOOR ?_)).trans hsteps', (Engine.reg_status_ne _ R.E_WEIR_FLOOR ?_).trans hcnt, Engine.sto_status _ _,
      fun _ => Engine.hasBit_status_same _ R.E_WEIR_FLOOR (by decide), ?_⟩
    · simp only [R.WEIR_STEPS, statusAddr, R.E_WEIR_FLOOR]
      omega
    · simp only [R.WEIR_DOWNCNT, statusAddr, R.E_WEIR_FLOOR]
      omega
    · rw [Engine.hasBit_status _ R.E_WEIR_FLOOR _ (by decide), hbit, Bool.or_true]
  · next hnot => exact ⟨hsteps', hcnt, rfl, fun h => absurd (by rw [h]) hnot, hbit⟩

theorem Engine.weirDown_of_no_room {n : Nat} (h : (m.sto n).fifo.length ≤ 96 ∨ 8 ≤ m.weirSteps n) : m.weirDown n = m := by
  unfold Engine.weirDown
  refine if_neg fun hall => ?_
  simp only [Bool.and_eq_true, decide_eq_true_eq] at hall
  obtain ⟨⟨⟨-, hfill⟩, hsteps⟩, -⟩ := hall
  omega

theorem Engine.weirUp_eq {n : Nat} (harmed : m.flag R.SYS_STATUS_ARMED = true) (hon : m.weirOn n = true) (hsteps : 0 < m.weirSteps n) (hhold : m.weirHold ≤ (m.sto n).lowCount) :
    m.weirUp n = m.weirStep n (m.weirSteps n - 1) true := by
  have hne : (m.weirSteps n != 0) = true := by simpa using Nat.pos_iff_ne_zero.1 hsteps
  simp [Engine.weirUp, harmed, hon, hne, hhold]

/-! The pack at the head of a FIFO. -/

theorem Engine.payPack_intakes {n : Nat} {paid : StoreState} (h : m.payPack n = some paid) : paid.intakes = m.store.intakes := by
  unfold Engine.payPack at h
  dsimp only at h
  split_ifs at h
  all_goals exact Option.some.inj h ▸ rfl

/-- A pack leaves its FIFO. -/
def Engine.packLeaves (m : Engine) (n : Nat) (paid : StoreState) : Engine :=
  let m := m.setStore paid
  (m.setSto n { m.sto n with fifo := (m.sto n).fifo.drop 1 }).showFifo n

theorem Engine.packToCistern_eq {n : Nat} {k : Pack} {rest : List Pack} {paid : StoreState} (hn : n ≠ 48) (hfifo : (m.sto n).fifo = k :: rest) (hpaid : m.payPack n = some paid)
    (htaken : m.packTaken k = true) :
    m.packToCistern n = if m.pcSt (m.pcOf (256 * k.slot)) == 3 then (m.packLeaves n paid).packLost n k
      else (m.packLeaves n paid).setPc (m.pcOf (256 * k.slot))
        { m.pc (m.pcOf (256 * k.slot)) with wq := (m.pc (m.pcOf (256 * k.slot))).wq ++ [{ addr := 256 * k.slot, bytes := k.bytes, src := n, since := (m.packLeaves n paid).cc }] } := by
  unfold Engine.packToCistern
  simp only [hn, if_false, hfifo, List.head?_cons, hpaid, htaken, Bool.not_true, Bool.false_eq_true]
  rfl

@[simp] theorem Engine.packLeaves_cc (m : Engine) (n : Nat) (paid : StoreState) : (m.packLeaves n paid).cc = m.cc := by
  unfold Engine.packLeaves Engine.showFifo
  dsimp only
  split <;> rfl

theorem Engine.packLeaves_store (m : Engine) (n : Nat) (paid : StoreState) :
    (m.packLeaves n paid).store = { paid with intakes := paid.intakes.set n { nth paid.intakes n {} with fifo := (nth paid.intakes n {}).fifo.drop 1 } } := by
  unfold Engine.packLeaves
  rw [Engine.showFifo_store]
  rfl

theorem Engine.sto_packLeaves {n : Nat} {paid : StoreState} (hlen : n < m.store.intakes.length) (hpaid : m.payPack n = some paid) :
    (m.packLeaves n paid).sto n = { m.sto n with fifo := (m.sto n).fifo.drop 1 } := by
  unfold Engine.sto
  rw [Engine.packLeaves_store, Engine.payPack_intakes hpaid]
  simp [nth, hlen]

theorem Engine.reg_showFifo_off {l : List Nat} {a : Nat} (ha : a ∉ l) (m : Engine) (n : Nat) (hl : ∀ b ∈ [R.RU_STATUS n, R.RU_FIFO_PEAK n], b ∈ l) : (m.showFifo n).reg a = m.reg a := by
  simp only [List.forall_mem_cons] at hl
  obtain ⟨hstatus, hpeak, -⟩ := hl
  unfold Engine.showFifo
  dsimp only
  split
  · rw [Engine.reg_setFld_off ha _ _ hpeak, Engine.reg_setFlag_off ha _ _ hstatus, Engine.reg_setFld_off ha _ _ hstatus]
  · rw [Engine.reg_setFlag_off ha _ _ hstatus, Engine.reg_setFld_off ha _ _ hstatus]

theorem Engine.reg_packLeaves_off {l : List Nat} {a : Nat} (ha : a ∉ l) (m : Engine) (n : Nat) (paid : StoreState) (hl : ∀ b ∈ [R.RU_STATUS n, R.RU_FIFO_PEAK n], b ∈ l) :
    (m.packLeaves n paid).reg a = m.reg a := Engine.reg_showFifo_off ha _ n hl

/-! Packs that are discarded or lost. -/

/-- A full pack that finds its FIFO full is discarded and counted (R229). -/
theorem Engine.packDiscard_eq {n : Nat} {p : OpenPack} (hfull : 128 ≤ (m.sto n).fifo.length) (hpack : (m.sto n).pack = some p) (hcap : packCapacity p.type ≤ p.items.length)
    (hlost : (m.sto n).lost = none) (hend : (m.sto n).lostEnd = none) :
    m.packDiscard n = ((m.setSto n { m.sto n with pack := none, lost := some (p.tb, 1) }).addSat (R.WEIR_GAPCNT n) 1).showFifo n := by
  unfold Engine.packDiscard Engine.packFull Engine.packClose
  simp only [if_pos hfull, hpack, if_pos hcap, hlost, hend, Option.isSome_none, Bool.false_eq_true, if_false]

theorem Engine.sto_packDiscard {n : Nat} {p : OpenPack} (hlen : n < m.store.intakes.length) (hfull : 128 ≤ (m.sto n).fifo.length) (hpack : (m.sto n).pack = some p)
    (hcap : packCapacity p.type ≤ p.items.length) (hlost : (m.sto n).lost = none) (hend : (m.sto n).lostEnd = none) :
    (m.packDiscard n).sto n = { m.sto n with pack := none, lost := some (p.tb, 1) } := by
  rw [Engine.packDiscard_eq hfull hpack hcap hlost hend, Engine.sto_showFifo, Engine.sto_addSat, Engine.sto_setSto hlen]

theorem gapcnt_not_ru {n : Nat} (hn : n < 48) : R.WEIR_GAPCNT n ∉ [R.RU_STATUS n, R.RU_FIFO_PEAK n] := by
  simp only [R.WEIR_GAPCNT, R.RU_STATUS, R.RU_FIFO_PEAK, List.mem_cons, List.not_mem_nil, or_false, not_or]
  omega

/-- A lost span that has ended is marked and logged (R229). -/
theorem Engine.gapEnd_shows {n k seq : Nat} {t0 t1 : Tb} (hlen : n < m.store.intakes.length) (hlost : (m.sto n).lost = some (t0, k)) (hend : (m.sto n).lostEnd = some (t1, seq)) :
    ((m.gapEnd n).sto n).lost = none ∧ ((m.gapEnd n).sto n).lostEnd = none ∧ (m.gapEnd n).hasBit R.E_WEIR_GAP = true ∧
      (m.gapEnd n).detected = m.nowDetected 0xA4 2 0x0202 (min k 0xFFFFFFFF) := by
  have hmark : ∀ k : Marker, (((m.setSto n { m.sto n with lost := none, lostEnd := none }).mark k).status R.E_WEIR_GAP).sto n = { m.sto n with lost := none, lostEnd := none } := by
    intro k
    rw [Engine.sto_status, Engine.sto_of_intakes (Engine.intakes_mark k), Engine.sto_setSto hlen]
  have htimes : ∀ k : Marker, Engine.Within [.any] m (((m.setSto n { m.sto n with lost := none, lostEnd := none }).mark k).status R.E_WEIR_GAP) := by
    intro k
    rw [within_status (by decide), within_mark _ (by decide), within_setSto]
    exact .refl _ _
  rw [Engine.gapEnd_of_ended hlost hend]
  refine ⟨congrArg (·.lost) (hmark _), congrArg (·.lostEnd) (hmark _), Engine.hasBit_status_same _ R.E_WEIR_GAP (by decide), ?_⟩
  unfold Engine.logNow Engine.log Engine.nowDetected Engine.pclk Engine.cycle
  rw [(htimes _).tb, (htimes _).cc]
  simp [Engine.setSto]

/-- A pack bound for an offline pseudo-channel is lost as one discarded (R292). -/
theorem Engine.packLost_eq {n : Nat} (hn : n < 48) (k : Pack) (hlost : (m.sto n).lost = none) :
    m.packLost n k = (m.setSto n { m.sto n with lost := some (packTb k.bytes, 1) }).addSat (R.WEIR_GAPCNT n) 1 := by
  unfold Engine.packLost
  simp only [if_neg (Nat.not_le.2 hn), Engine.gapEnd_of_none hlost, ite_self, hlost]

/-- The marker writer's pack enters its queue. -/
theorem Engine.packToCistern_marker {k : Pack} {j : Nat} {rest : List (Pack × Nat)} (hmark : m.store.markPacks = (k, j) :: rest) (htaken : m.packTaken k = true)
    (hst : m.pcSt (m.pcOf (256 * k.slot)) = 1) :
    m.packToCistern 48 = (m.setStore { m.store with markPacks := rest }).setPc (m.pcOf (256 * k.slot))
      { m.pc (m.pcOf (256 * k.slot)) with wq := (m.pc (m.pcOf (256 * k.slot))).wq ++ [{ addr := 256 * k.slot, bytes := k.bytes, src := 48, since := m.cc }] } := by
  have honline : (m.pcSt (m.pcOf (256 * k.slot)) == 3) = false := by rw [hst]; decide
  unfold Engine.packToCistern
  simp only [if_true, hmark, List.head?_cons, Option.map_some, htaken, Bool.not_true, Bool.false_eq_true, if_false, honline]
  rw [Engine.setStore_store, hmark]
  rfl

theorem Engine.packTaken_of_training {k : Pack} (h : m.pcSt (m.pcOf (256 * k.slot)) = 2) : m.packTaken k = false := by
  simp [Engine.packTaken, h]

/-- Without budget, or while its pseudo-channel trains, a pack stays. -/
theorem Engine.packToCistern_of_none {n : Nat} {k : Pack} {rest : List Pack} (hn : n ≠ 48) (hfifo : (m.sto n).fifo = k :: rest)
    (hno : m.payPack n = none ∨ m.pcSt (m.pcOf (256 * k.slot)) = 2) : m.packToCistern n = m := by
  unfold Engine.packToCistern
  simp only [hn, if_false, hfifo, List.head?_cons]
  rcases hno with hpay | htrain
  · rw [hpay]
  · cases hpay : m.payPack n with
    | none => rfl
    | some paid => exact if_pos (by rw [Engine.packTaken_of_training htrain, Bool.not_false])

/-- A pack bound for an offline pseudo-channel leaves its FIFO and is lost. -/
theorem Engine.packToCistern_offline {n : Nat} {k : Pack} {rest : List Pack} {paid : StoreState} (hn : n < 48) (hlen : n < m.store.intakes.length) (hfifo : (m.sto n).fifo = k :: rest)
    (hpaid : m.payPack n = some paid) (hserves : m.cisServes = true) (hst : m.pcSt (m.pcOf (256 * k.slot)) = 3) (hlost : (m.sto n).lost = none) :
    m.packToCistern n = ((m.packLeaves n paid).setSto n { (m.packLeaves n paid).sto n with lost := some (packTb k.bytes, 1) }).addSat (R.WEIR_GAPCNT n) 1 := by
  have htaken : m.packTaken k = true := by simp [Engine.packTaken, hserves, hst]
  rw [Engine.packToCistern_eq (by omega) hfifo hpaid htaken, hst, if_pos (by decide), Engine.packLost_eq hn]
  rw [Engine.sto_packLeaves hlen hpaid]
  exact hlost

@[simp] theorem Engine.packLeaves_cis (m : Engine) (n : Nat) (paid : StoreState) : (m.packLeaves n paid).cis = m.cis := by
  unfold Engine.packLeaves Engine.showFifo
  dsimp only
  split <;> rfl

@[simp] theorem Engine.packLeaves_tb (m : Engine) (n : Nat) (paid : StoreState) : (m.packLeaves n paid).tb = m.tb := by
  unfold Engine.packLeaves Engine.showFifo
  dsimp only
  split <;> rfl

/-! A write that completes. -/

theorem Chip.writeComplete_of_done {c : Chip} {p : Nat} {w : CisWrite} {rest : List CisWrite} (hflight : (c.eng.pc p).flight = w :: rest) (hrung : (c.eng.pc p).rung = 0)
    (hdone : w.last + 16 ≤ (c.eng.pc p).count) : c.writeComplete p = { c with eng := c.eng.setPc p { c.eng.pc p with flight := rest }, cistern := w.store c.cistern } := by
  simp [Chip.writeComplete, hflight, hrung, hdone]

theorem Chip.writeComplete_of_early {c : Chip} {p : Nat} {w : CisWrite} {rest : List CisWrite} (hflight : (c.eng.pc p).flight = w :: rest) (hearly : (c.eng.pc p).count < w.last + 16) :
    c.writeComplete p = c := by
  simp [Chip.writeComplete, hflight, Nat.not_le.2 hearly]

theorem Engine.pc_setPc {p : Nat} (hp : p < m.cis.pcs.length) (x : PcState) : (m.setPc p x).pc p = x := by
  simp [Engine.setPc, Engine.pc, nth, hp]

/-- Settles O35: each clause is one outcome of a step of the weir, of a pack at its FIFO, or of a write in its queue. -/
theorem weirAndPacks : Obligations.WeirAndPacks := by
  unfold Obligations.WeirAndPacks
  refine ⟨fun s n hlive hlen harmed hon hfill hsteps hspaced => State.ends_live (·.weirDown n) hlive ?down, fun s n hlive hno => ?stays,
    fun s n hlive hlen harmed hon hsteps hhold => State.ends_live (·.weirUp n) hlive ?up,
    fun s n p hlive hlen hfull hpack hcap hlost hend => State.ends_live (·.packDiscard n) hlive ?discard,
    fun s n t0 t1 k seq hlive hlen hlost hend => State.ends_live (·.gapEnd n) hlive ?gap,
    fun s src k rest p paid hlive hlen hfifo hp hpc hpaid htaken hst => State.ends_live (·.packToCistern src) hlive ?leaves,
    fun s src k rest hlive hfifo hno => ?unpaid,
    fun s src k rest paid hlive hlen hfifo hpaid hserves hst hlost => State.ends_live (·.packToCistern src) hlive ?offline,
    fun s k j rest p hlive hmark hp hpc htaken hst => State.ends_live (·.packToCistern 48) hlive ?marker,
    fun s pc w rest hrun hpc hflight hrung hdone => ?written, fun s pc w rest hflight hcount => ?early⟩
  case down =>
    obtain ⟨-, -, hlast, hpack, -⟩ := Engine.stepsDown_shows n.isLt hlen hsteps
    have hw : Engine.Within storeParts s.eng (s.eng.weirDown n) := by
      rw [Engine.weirDown_eq harmed hon hfill hsteps hspaced]
      simp +decide [within_stepsDown n.isLt]
    obtain ⟨hone, hdown, hsto, hfloor, hstep⟩ := Engine.weirDown_shows n.isLt hlen harmed hon hfill hsteps hspaced
    refine ⟨hone, hdown, ?_, ?_, hfloor, hstep, fun a ha => hw.reg a (not_inParts_storeParts (by simpa using ha)), hw.tb, State.memKept_withEng _ _⟩
    · exact (congrArg StoreIntake.lastDown hsto).trans hlast
    · exact (congrArg (·.pack.isSome) hsto).trans hpack
  case stays =>
    have hout : exec (.weirStepDown n) s = .next (s.withEng (s.eng.weirDown n)) := s.live_pos (·.weirDown n) hlive
    rw [hout, Engine.weirDown_of_no_room hno]
    rfl
  case up =>
    have hlt : s.eng.weirSteps n < 2 ^ 4 := s.eng.fld_lt (stepsField n)
    obtain ⟨hsteps', hpack, hlow, -, hcnt⟩ := Engine.weirStep_shows n.isLt hlen (show s.eng.weirSteps n - 1 < 16 by omega) true
    have hw : Engine.Within storeParts s.eng (s.eng.weirStep n (s.eng.weirSteps n - 1) true) := (within_weirStep n.isLt _ _ (by decide)).2 (.refl _ _)
    rw [Engine.weirUp_eq harmed hon hsteps hhold]
    exact ⟨hsteps', hlow, hcnt, hpack, fun a ha => hw.reg a (not_inParts_storeParts (by simpa using ha)), hw.tb, State.memKept_withEng _ _⟩
  case discard =>
    have hsto := Engine.sto_packDiscard hlen hfull hpack hcap hlost hend
    have heq := Engine.packDiscard_eq hfull hpack hcap hlost hend
    refine ⟨congrArg (·.pack) hsto, congrArg (·.lost) hsto, congrArg (·.fifo) hsto, congrArg (·.seq) hsto, ?_, State.kept_withEng (fun a ha => ?_) ?_⟩
    · exact (congrArg (fun x : Engine => x.reg (R.WEIR_GAPCNT n)) heq).trans ((Engine.reg_showFifo_off (l := [R.RU_STATUS n, R.RU_FIFO_PEAK n]) (gapcnt_not_ru n.isLt) _ n (by simp)).trans (Engine.reg_addSat_same _ _ _))
    · exact (congrArg (fun x : Engine => x.reg a) heq).trans ((Engine.reg_showFifo_off ha _ n (by simp)).trans (Engine.reg_addSat_off ha _ 1 (by simp)))
    · exact (congrArg (·.tb) heq).trans ((within_showFifo n.isLt (l := [.any]) (by decide)).2 (.refl _ _)).tb
  case gap =>
    have hw : Engine.Within storeParts s.eng (s.eng.gapEnd n) := (within_gapEnd _ (by decide)).2 (.refl _ _)
    obtain ⟨hlost', hend', hbit, hlog⟩ := Engine.gapEnd_shows hlen hlost hend
    exact ⟨hlost', hend', hbit, hlog, fun a ha => hw.reg a (not_inParts_storeParts (by simpa using ha)), hw.tb, State.memKept_withEng _ _⟩
  case leaves =>
    subst hp
    have hsrc : src.val ≠ 48 := by omega
    have heq : s.eng.packToCistern src = (s.eng.packLeaves src paid).setPc (s.eng.pcOf (256 * k.slot))
        { s.eng.pc (s.eng.pcOf (256 * k.slot)) with wq := (s.eng.pc (s.eng.pcOf (256 * k.slot))).wq ++ [{ addr := 256 * k.slot, bytes := k.bytes, src := src, since := s.eng.cc }] } := by
      rw [Engine.packToCistern_eq hsrc hfifo hpaid htaken, hst, if_neg (by decide), Engine.packLeaves_cc]
    have hstore := s.eng.packLeaves_store src paid
    rw [heq]
    refine ⟨?_, (congrArg StoreState.credits hstore :), (congrArg StoreState.spare hstore :), (congrArg StoreState.served hstore :), ?_, State.kept_withEng (fun a ha => ?_) ?_⟩
    · exact (congrArg (·.fifo) (Engine.sto_packLeaves hlen hpaid)).trans (by rw [hfifo])
    · exact congrArg PcState.wq (Engine.pc_setPc (m := s.eng.packLeaves src paid) (by rw [Engine.packLeaves_cis]; exact hpc) _)
    · exact Engine.reg_packLeaves_off ha _ src paid (by simp)
    · exact Engine.packLeaves_tb _ _ _
  case unpaid =>
    have hout : exec (.packToCistern (src.castLE (by decide))) s = .next (s.withEng (s.eng.packToCistern src)) := s.live_pos (·.packToCistern src) hlive
    rw [hout, Engine.packToCistern_of_none (by omega) hfifo hno]
    rfl
  case offline =>
    have hsto := Engine.sto_packLeaves hlen hpaid
    have hlen' : src.val < (s.eng.packLeaves src paid).store.intakes.length := by
      rw [Engine.packLeaves_store, List.length_set, Engine.payPack_intakes hpaid]
      exact hlen
    have hset := Engine.sto_setSto hlen' { (s.eng.packLeaves src paid).sto src with lost := some (packTb k.bytes, 1) }
    rw [Engine.packToCistern_offline src.isLt hlen hfifo hpaid hserves hst hlost]
    refine ⟨(congrArg (·.fifo) hset).trans ((congrArg (·.fifo) hsto).trans (by rw [hfifo]; rfl)), congrArg (·.lost) hset, ?_, State.kept_withEng (fun a ha => ?_) ?_⟩
    · exact (Engine.reg_addSat_same _ _ _).trans (congrArg (satAdd · 1) (Engine.reg_packLeaves_off (l := [R.RU_STATUS src, R.RU_FIFO_PEAK src]) (gapcnt_not_ru src.isLt) _ src paid (by simp)))
    · exact (Engine.reg_addSat_off ha _ 1 (by simp)).trans (Engine.reg_packLeaves_off ha _ src paid (by simp))
    · exact Engine.packLeaves_tb _ _ _
  case marker =>
    subst hp
    rw [Engine.packToCistern_marker hmark htaken hst]
    exact ⟨rfl, congrArg PcState.wq (Engine.pc_setPc (m := s.eng.setStore _) hpc _), State.kept_withEng (fun _ _ => rfl) rfl⟩
  case written =>
    refine ⟨_, s.chipWhen_pos (ok := fun m => m.running) (·.writeComplete pc) hrun, ?_⟩
    dsimp only
    rw [Chip.writeComplete_of_done hflight hrung hdone]
    refine ⟨congrArg (·.flight) (Engine.pc_setPc hpc _), fun i => readByte_writeBytes_inside _ _ _ _ i.isLt, fun a ha => ?_, fun _ _ => rfl, rfl, rfl, rfl⟩
    exact readByte_writeBytes_outside _ _ _ _ (by simpa using ha)
  case early =>
    cases hrun : s.eng.running with
    | false => exact s.chipWhen_neg (ok := fun m => m.running) (·.writeComplete pc) hrun
    | true =>
      refine (s.chipWhen_pos (ok := fun m => m.running) (·.writeComplete pc) hrun).trans ?_
      rw [Chip.writeComplete_of_early hflight hcount]

end Sys2Proof.Machine
end

section
/-! SUPPORT. The return of the clocks: what the path, the controller and the ring go on with (R20, R271, R439). -/
namespace Sys2Proof.Machine
open Sys2Proof

/-! Where the registers of the controller and of its pseudo-channels lie. -/

theorem blockAt_cis {a : Nat} (hlo : 0xB0000 ≤ a) (hhi : a < 0xB1000) : blockAt a = some .cisB := by
  have hpage : a / 0x1000 = 0xB0 := by omega
  simp only [blockAt, hpage]
  rfl

theorem blockAt_cisp {a : Nat} (hlo : 0xB1000 ≤ a) (hhi : a < 0xB3000) : blockAt a = some .cispB := by
  obtain h | h : a / 0x1000 = 0xB1 ∨ a / 0x1000 = 0xB2 := by omega
  all_goals simp only [blockAt, h]; rfl

variable {l : List Part} {m m' : Engine}

theorem within_armCancel (h : partsIn dropParts l = true) : Engine.Within l m m'.armCancel ↔ Engine.Within l m m' := by
  refine Engine.Within.step (k := dropParts) ?_ h
  simp +decide [Engine.armCancel, within_armRefuse]

/-! Flits go out. -/

@[simp] theorem within_setLink (s : Side) (x : LinkState) (h : partsIn [.links] l = true) : Engine.Within l m (m'.setLink s x) ↔ Engine.Within l m m' := by
  cases s <;> simp [Engine.setLink, h]

@[simp] theorem within_send (s : Side) (dst : Nat) (b : FlitBody) (h : partsIn [.links] l = true) : Engine.Within l m (m'.send s dst b) ↔ Engine.Within l m m' := by
  refine Engine.Within.step (k := [.links]) ?_ h
  simp +decide [Engine.send]

@[simp] theorem within_sendBoth (b : FlitBody) (h : partsIn [.links] l = true) : Engine.Within l m (m'.sendBoth b) ↔ Engine.Within l m m' := by
  refine Engine.Within.step (k := [.links]) ?_ h
  simp +decide [Engine.sendBoth]

@[simp] theorem within_sendLinkState (s : Side) (h : partsIn [.links, .of .ringB] l = true) : Engine.Within l m (m'.sendLinkState s) ↔ Engine.Within l m m' := by
  refine Engine.Within.step (k := [.links, .of .ringB]) ?_ h
  simp +decide [Engine.sendLinkState]

@[simp] theorem within_armedReport (h : partsIn [.links, .of .ringB] l = true) : Engine.Within l m m'.armedReport ↔ Engine.Within l m m' := by
  refine Engine.Within.step (k := [.links, .of .ringB]) ?_ h
  simp +decide [Engine.armedReport]

/-! Lines and outputs. -/

@[simp] theorem within_gateRelease : Engine.Within l m m'.gateRelease ↔ Engine.Within l m m' := by
  refine Engine.Within.step_self ?_
  simp [Engine.gateRelease]

@[simp] theorem within_setDsp (o : Nat) (d : DispState) : Engine.Within l m (m'.setDsp o d) ↔ Engine.Within l m m' := by
  refine Engine.Within.step_self ?_
  simp only [Engine.setDsp, ↓within_update, Engine.Within.refl, and_self, or_true]

@[simp] theorem within_dispRestart (o : Nat) : Engine.Within l m (m'.dispRestart o) ↔ Engine.Within l m m' := within_setDsp _ _

/-! The controller trains again. -/

theorem within_setPcSt {p : Nat} (hp : p < 64) (v : Nat) (h : partsIn [.of .cispB] l = true) : Engine.Within l m (m'.setPcSt p v) ↔ Engine.Within l m m' := by
  refine Engine.Within.step (k := [.of .cispB]) ?_ h
  have hreg : inParts [.of .cispB] (R.CISP_PC_STATE_STATE (p / 32) (p % 32)).addr = true :=
    inParts_of_block (blockAt_cisp (by simp only [R.CISP_PC_STATE_STATE, R.CISP_PC_STATE]; omega) (by simp only [R.CISP_PC_STATE_STATE, R.CISP_PC_STATE]; omega)) rfl
  simp [Engine.setPcSt, hreg]

theorem within_fittedPcs (v : Nat) (h : partsIn [.of .cispB] l = true) : Engine.Within l m (m'.fittedPcs v) ↔ Engine.Within l m m' := by
  refine Engine.Within.step (k := [.of .cispB]) ?_ h
  exact within_forEach fun p hp x => by simp +decide [within_setPcSt hp]

/-- The controller's stacks show whether they are there. -/
def Engine.stacksShown (m : Engine) : Engine := forEach 2 (fun x m => m.setFlag (R.CISP_STACKSTAT_PRESENT x) (decide (x < m.stackCount))) m

theorem within_stacksShown (h : partsIn [.of .cispB] l = true) : Engine.Within l m m'.stacksShown ↔ Engine.Within l m m' := by
  refine Engine.Within.step (k := [.of .cispB]) ?_ h
  refine within_forEach fun i hi x => ?_
  have hreg : inParts [.of .cispB] (R.CISP_STACKSTAT_PRESENT i).addr = true :=
    inParts_of_block (blockAt_cisp (by simp only [R.CISP_STACKSTAT_PRESENT, R.CISP_STACKSTAT]; omega) (by simp only [R.CISP_STACKSTAT_PRESENT, R.CISP_STACKSTAT]; omega)) rfl
  simp [hreg]

/-- The timing registers read the stack's timing (R283). -/
def Engine.timingShown (m : Engine) : Engine :=
  forEach 6 (fun k m => (m.setReg (R.CIS_TIM0 k) (BitVec.ofNat 32 (Config.stackTiming k))).setReg (R.CIS_TIM1 k) (BitVec.ofNat 32 (Config.stackTiming (6 + k)))) m

theorem within_timingShown (h : partsIn [.of .cisB] l = true) : Engine.Within l m m'.timingShown ↔ Engine.Within l m m' := by
  refine Engine.Within.step (k := [.of .cisB]) ?_ h
  refine within_forEach fun k hk x => ?_
  have h0 : inParts [.of .cisB] (R.CIS_TIM0 k) = true := inParts_of_block (blockAt_cis (by unfold R.CIS_TIM0; omega) (by unfold R.CIS_TIM0; omega)) rfl
  have h1 : inParts [.of .cisB] (R.CIS_TIM1 k) = true := inParts_of_block (blockAt_cis (by unfold R.CIS_TIM1; omega) (by unfold R.CIS_TIM1; omega)) rfl
  simp [h0, h1]

theorem Engine.cisState_timingShown (m : Engine) : m.timingShown.cisState = m.cisState := by
  refine forEach_keeps (keeps := fun x : Engine => x.cisState = m.cisState) 6 (fun x hx k => ?_) rfl
  rw [← hx]
  unfold Engine.cisState
  rw [Engine.fld_setReg_ne, Engine.fld_setReg_ne]
  all_goals
    simp only [R.CIS_STATUS_STATE, R.CIS_STATUS, R.CIS_TIM0, R.CIS_TIM1]
    omega

theorem Engine.trainStart_eq (m : Engine) : m.trainStart = (m.setFld R.CIS_STATUS_STATE 1).timingShown.stacksShown.fittedPcs 2 := rfl

theorem within_trainStart (h : partsIn [.of .cisB, .of .cispB] l = true) : Engine.Within l m m'.trainStart ↔ Engine.Within l m m' := by
  refine Engine.Within.step (k := [.of .cisB, .of .cispB]) ?_ h
  rw [Engine.trainStart_eq, within_fittedPcs _ (by decide), within_stacksShown (by decide), within_timingShown (by decide), within_setFld _ (by decide)]
  exact .refl _ _

theorem Engine.cisState_setFld (m : Engine) : (m.setFld R.CIS_STATUS_STATE 1).cisState = 1 := Engine.fld_setFld_same _ _ _ (by decide)

/-- Training shows (R283). -/
theorem Engine.cisState_trainStart (m : Engine) : m.trainStart.cisState = 1 := by
  have hw : Engine.Within [.of .cispB] ((m.setFld R.CIS_STATUS_STATE 1).timingShown) m.trainStart := by
    rw [Engine.trainStart_eq, within_fittedPcs _ (by decide), within_stacksShown (by decide)]
    exact .refl _ _
  exact (hw.fld (f := R.CIS_STATUS_STATE) (by decide)).trans ((Engine.cisState_timingShown _).trans m.cisState_setFld)

theorem within_cisExit (h : partsIn [.of .cisB, .of .cispB] l = true) : Engine.Within l m m'.cisExit ↔ Engine.Within l m m' := by
  refine Engine.Within.step (k := [.of .cisB, .of .cispB]) ?_ h
  simp +decide [Engine.cisExit, within_trainStart]

/-- Out of self-refresh the controller trains (R293). -/
theorem Engine.cisState_cisExit {m : Engine} (h : m.cisState = 4) : m.cisExit.cisState = 1 := by
  unfold Engine.cisExit
  rw [if_neg (not_not.2 h)]
  split
  · exact m.cisState_trainStart
  · exact m.cisState_setFld

/-! The release of a dam as a chain (R439). -/

/-- The ring hears of the release (R271). -/
def Engine.releaseTold (m : Engine) : Engine := if m.role = 0 then m else m.sendBoth (.release m.pos 0)

/-- The dam is over, and time is that of the reference cycles gone by. -/
def Engine.damOver (m : Engine) (elapsed : Nat) : Engine :=
  let d := m.dam
  let m := m.setDam { d with driveAt := none, driving := false, highs := 0, td := none, stopped := false }
  (((m.setFlag R.DAM_STATUS_DAMMED false).setFlag R.DAM_STATUS_REARMED false).setFlag R.DAM_STATUS_PINLOW d.extLow).tbReturns elapsed

/-- The capture that the dam cut short ends with its markers. -/
def Engine.damCloses (m : Engine) (d : DamState) (last first : Tb) : Engine :=
  let disc : Marker := { type := 5, intake := 0xFF, tb := first, data := (m.reg64 R.TB_DAM_TB_LO).toNat }
  if d.inSegment then (m.mark disc).endCapture 7 last none true
  else
    let m := if d.inClosed then (m.mark disc).markerPack 7 else m
    m.endCapture 7 last none false

/-- The engine is left disarmed. -/
def Engine.damDisarms (m : Engine) : Engine :=
  if !m.armed then m else (((m.setFlag R.SYS_STATUS_ARMED false).setFlag R.SLU_STATUS_STEPPING false).status R.E_SYS_DISARMED).armedReport

/-- Lines and outputs go on. -/
def Engine.linesGoOn (m : Engine) : Engine :=
  let m := if m.settled then m.setGate { m.gate with damHold := false } else m.gateRelease
  forEach 2 (fun o m => if (m.dsp o).running && !(m.dsp o).cloning then m.dispRestart o else m) m

theorem Engine.damRelease_of_not_dammed {m : Engine} (h : m.dammed = false) (elapsed : Nat) : m.damRelease elapsed = m := by simp [Engine.damRelease, h]

/-- The path as it is once time goes on. -/
def Engine.damResumes (m : Engine) (elapsed : Nat) : Engine := (m.releaseTold.damOver elapsed).dropPipe

theorem Engine.damRelease_eq {m : Engine} (h : m.dammed = true) (elapsed : Nat) : m.damRelease elapsed =
    ((((((m.damResumes elapsed).cisExit.damCloses m.releaseTold.dam m.nextGateTb (tbOfCycle (m.damResumes elapsed).nextCycle)).armCancel).damDisarms).linesGoOn).log 0xB 0 0x0402 (elapsed % 2 ^ 32)
      (tbOfCycle (m.damResumes elapsed).nextCycle)).status R.E_DAM_RELEASED := by
  unfold Engine.damRelease
  rw [h]
  rfl

/-! What each part of the release may change. -/

theorem within_releaseTold (h : partsIn [.links] l = true) : Engine.Within l m m'.releaseTold ↔ Engine.Within l m m' := by
  refine Engine.Within.step (k := [.links]) ?_ h
  simp +decide [Engine.releaseTold]

theorem within_damCloses (d : DamState) (last first : Tb) (h : partsIn endParts l = true) : Engine.Within l m (m'.damCloses d last first) ↔ Engine.Within l m m' := by
  refine Engine.Within.step (k := endParts) ?_ h
  unfold Engine.damCloses
  dsimp only
  split
  · rw [within_endCapture _ _ _ _ (by decide), within_mark _ (by decide)]
    exact .refl _ _
  · rw [within_endCapture _ _ _ _ (by decide), within_ite, within_markerPack _ (by decide), within_mark _ (by decide)]
    exact ⟨fun _ => .refl _ _, fun _ => .refl _ _⟩

/-- The parts that disarming may change, with what it tells the ring. -/
def disarmParts : List Part := [.of .sysB, .of .sluB, .links, .of .ringB]

theorem within_damDisarms (h : partsIn disarmParts l = true) : Engine.Within l m m'.damDisarms ↔ Engine.Within l m m' := by
  refine Engine.Within.step (k := disarmParts) ?_ h
  simp +decide [Engine.damDisarms]

theorem within_linesGoOn : Engine.Within l m m'.linesGoOn ↔ Engine.Within l m m' := by
  refine Engine.Within.step_self ?_
  unfold Engine.linesGoOn
  dsimp only
  rw [within_loop fun o _ x => by simp]
  simp

theorem Engine.armed_damDisarms (m : Engine) : m.damDisarms.armed = false := by
  unfold Engine.damDisarms
  cases h : m.armed
  · exact h
  · have hw : Engine.Within [.links, .of .ringB] _ _ := (within_armedReport (m' := ((m.setFlag R.SYS_STATUS_ARMED false).setFlag R.SLU_STATUS_STEPPING false).status R.E_SYS_DISARMED) (by decide)).2 (.refl _ _)
    refine (hw.flag (f := R.SYS_STATUS_ARMED) (by decide)).trans ?_
    rw [Engine.flag_status_ne _ R.E_SYS_DISARMED (by decide), Engine.flag_setFlag_ne _ _ (by decide), Engine.flag_setFlag_same _ _ _ (by decide) rfl]

/-! Time goes on after a stop of the clocks (R20). -/

section Returns
variable (m : Engine) (elapsed : Nat)

theorem Engine.reg_tbReturns_off {a : Nat} (ha : a ∉ [R.TB_DAM_ELAPSED_LO, R.TB_DAM_ELAPSED_LO + 4, R.TB_STATUS, statusAddr 6]) : (m.tbReturns elapsed).reg a = m.reg a := by
  unfold Engine.tbReturns
  dsimp only
  rw [Engine.reg_status_off (b := R.E_TB_DAM_RECOVERED) ha _ (by decide), Engine.reg_setFlag_off ha _ _ (by decide), Engine.reg_setReg64_off ha _ _ (by decide) (by decide)]
  rfl

theorem Engine.elapsed_tbReturns : (m.tbReturns elapsed).reg64 R.TB_DAM_ELAPSED_LO = BitVec.ofNat 64 elapsed := by
  unfold Engine.tbReturns
  dsimp only
  rw [Engine.reg64_of_reg (Engine.reg_status_ne _ R.E_TB_DAM_RECOVERED (by decide)) (Engine.reg_status_ne _ R.E_TB_DAM_RECOVERED (by decide)),
    Engine.reg64_of_reg (Engine.reg_setFlag_ne _ _ _ (by decide)) (Engine.reg_setFlag_ne _ _ _ (by decide)), Engine.reg64_setReg64_same]

theorem Engine.damrec_tbReturns : (m.tbReturns elapsed).flag R.TB_STATUS_DAMREC = true := by
  unfold Engine.tbReturns
  dsimp only
  rw [Engine.flag_status_ne _ R.E_TB_DAM_RECOVERED (by decide), Engine.flag_setFlag_same _ _ _ (by decide) rfl]

@[simp] theorem Engine.tbReturns_running : (m.tbReturns elapsed).running = true := Engine.status_running _ R.E_TB_DAM_RECOVERED
@[simp] theorem Engine.tbReturns_tb : (m.tbReturns elapsed).tb = m.reg64 R.TB_DAM_TB_LO + 96 * BitVec.ofNat 64 elapsed := Engine.status_tb _ R.E_TB_DAM_RECOVERED
@[simp] theorem Engine.tbReturns_dam : (m.tbReturns elapsed).dam = m.dam := Engine.status_dam _ R.E_TB_DAM_RECOVERED
@[simp] theorem Engine.tbReturns_ring : (m.tbReturns elapsed).ring = m.ring := Engine.status_ring _ R.E_TB_DAM_RECOVERED
@[simp] theorem Engine.tbReturns_lost : (m.tbReturns elapsed).lost = m.lost := Engine.status_lost _ R.E_TB_DAM_RECOVERED

end Returns

/-! Time and the dam's state once time goes on. -/

/-- The flags of DAM.STATUS that a release clears or sets. -/
theorem Engine.reg_damOver_off (m : Engine) (elapsed : Nat) {a : Nat} (ha : a ∉ [R.DAM_STATUS, R.TB_DAM_ELAPSED_LO, R.TB_DAM_ELAPSED_LO + 4, R.TB_STATUS, statusAddr 6]) :
    (m.damOver elapsed).reg a = m.reg a := by
  have ha' : a ∉ [R.TB_DAM_ELAPSED_LO, R.TB_DAM_ELAPSED_LO + 4, R.TB_STATUS, statusAddr 6] := fun h => ha (List.mem_cons_of_mem _ h)
  unfold Engine.damOver
  dsimp only
  rw [Engine.reg_tbReturns_off _ _ ha', Engine.reg_setFlag_off ha _ _ (by decide), Engine.reg_setFlag_off ha _ _ (by decide), Engine.reg_setFlag_off ha _ _ (by decide)]
  rfl

theorem Engine.damOver_shows (m : Engine) (elapsed : Nat) :
    (m.damOver elapsed).tb = m.reg64 R.TB_DAM_TB_LO + 96 * BitVec.ofNat 64 elapsed ∧ (m.damOver elapsed).dammed = false ∧ (m.damOver elapsed).flag R.DAM_STATUS_REARMED = false ∧
      (m.damOver elapsed).dam = { m.dam with driveAt := none, driving := false, highs := 0, td := none, stopped := false } := by
  unfold Engine.damOver Engine.dammed
  dsimp only
  refine ⟨?_, ?_, ?_, by simp⟩
  · rw [Engine.tbReturns_tb, Engine.reg64_of_reg (m := m)]
    all_goals
      rw [Engine.reg_setFlag_ne _ _ _ (by decide), Engine.reg_setFlag_ne _ _ _ (by decide), Engine.reg_setFlag_ne _ _ _ (by decide)]
      rfl
  · rw [Engine.flag_of_reg (Engine.reg_tbReturns_off _ _ (by decide)), Engine.flag_setFlag_beside _ R.DAM_STATUS_PINLOW R.DAM_STATUS_DAMMED _ rfl (by decide),
      Engine.flag_setFlag_beside _ R.DAM_STATUS_REARMED R.DAM_STATUS_DAMMED _ rfl (by decide), Engine.flag_setFlag_same _ _ _ (by decide) rfl]
  · rw [Engine.flag_of_reg (Engine.reg_tbReturns_off _ _ (by decide)), Engine.flag_setFlag_beside _ R.DAM_STATUS_PINLOW R.DAM_STATUS_REARMED _ rfl (by decide),
      Engine.flag_setFlag_same _ _ _ (by decide) rfl]

/-- The path is empty: what was on its way is dropped (R439). -/
theorem Engine.pipe_dropPipe (m : Engine) : m.dropPipe.path.pipe = [] := rfl

/-- What dropping the path leaves of the registers, and of the rest beside the path, the capture's span and the intakes. -/
theorem Engine.reg_dropPipe {m : Engine} {a : Nat} (ha : a ≠ R.SLU_STATUS) : m.dropPipe.reg a = m.reg a := Engine.reg_setFlag_ne m R.SLU_STATUS_STEPPING false ha

theorem Engine.damResumes_shows (m : Engine) (elapsed : Nat) :
    (m.damResumes elapsed).running = true ∧ (m.damResumes elapsed).tb = m.reg64 R.TB_DAM_TB_LO + 96 * BitVec.ofNat 64 elapsed ∧
      (m.damResumes elapsed).reg64 R.TB_DAM_ELAPSED_LO = BitVec.ofNat 64 elapsed ∧ (m.damResumes elapsed).dammed = false ∧ (m.damResumes elapsed).flag R.DAM_STATUS_REARMED = false ∧
      (m.damResumes elapsed).path.pipe = [] ∧ (m.damResumes elapsed).cisState = m.cisState := by
  have htold : Engine.Within [.links] m m.releaseTold := (within_releaseTold (by decide)).2 (.refl _ _)
  obtain ⟨htb, hdammed, hrearmed, -⟩ := m.releaseTold.damOver_shows elapsed
  refine ⟨?_, ?_, ?_, ?_, ?_, Engine.pipe_dropPipe _, ?_⟩
  · exact Engine.tbReturns_running _ _
  · exact htb.trans (by rw [htold.reg64 (by decide) (by decide)])
  · exact (Engine.reg64_of_reg (Engine.reg_dropPipe (by decide)) (Engine.reg_dropPipe (by decide))).trans (Engine.elapsed_tbReturns _ _)
  · exact (Engine.flag_of_reg (f := R.DAM_STATUS_DAMMED) (Engine.reg_dropPipe (by decide))).trans hdammed
  · exact (Engine.flag_of_reg (Engine.reg_dropPipe (by decide))).trans hrearmed
  · exact (Engine.fld_of_reg (f := R.CIS_STATUS_STATE) ((Engine.reg_dropPipe (by decide)).trans (Engine.reg_damOver_off _ _ (by decide)))).trans (htold.fld (by decide))

theorem Engine.dam_damResumes (m : Engine) (elapsed : Nat) :
    (m.damResumes elapsed).dam = { m.dam with driveAt := none, driving := false, highs := 0, td := none, stopped := false } := by
  have htold : Engine.Within [.links] m m.releaseTold := (within_releaseTold (by decide)).2 (.refl _ _)
  exact (m.releaseTold.damOver_shows elapsed).2.2.2.trans (by rw [htold.dam (by decide)])

/-! The whole release. -/

/-- The parts that the rest of a release may change, before its own PAGE_STATUS bit. -/
def releaseParts : List Part := [.of .cisB, .of .cispB] ++ endParts ++ dropParts ++ disarmParts

/-- A release up to its PAGE_STATUS bit. -/
def Engine.damReleased (m : Engine) (elapsed : Nat) : Engine :=
  (((((m.damResumes elapsed).cisExit.damCloses m.releaseTold.dam m.nextGateTb (tbOfCycle (m.damResumes elapsed).nextCycle)).armCancel).damDisarms).linesGoOn).log 0xB 0 0x0402 (elapsed % 2 ^ 32)
    (tbOfCycle (m.damResumes elapsed).nextCycle)

theorem Engine.within_damReleased (m : Engine) (elapsed : Nat) : Engine.Within releaseParts (m.damResumes elapsed) (m.damReleased elapsed) := by
  unfold Engine.damReleased
  rw [within_log, within_linesGoOn, within_damDisarms (by decide), within_armCancel (by decide), within_damCloses _ _ _ (by decide), within_cisExit (by decide)]
  exact .refl _ _

theorem Engine.armed_damReleased (m : Engine) (elapsed : Nat) : (m.damReleased elapsed).armed = false := by
  have hw : Engine.Within [] ((((m.damResumes elapsed).cisExit.damCloses m.releaseTold.dam m.nextGateTb (tbOfCycle (m.damResumes elapsed).nextCycle)).armCancel).damDisarms) (m.damReleased elapsed) := by
    unfold Engine.damReleased
    rw [within_log, within_linesGoOn]
    exact .refl _ _
  exact (hw.flag (f := R.SYS_STATUS_ARMED) (by decide)).trans (Engine.armed_damDisarms _)

theorem Engine.cisState_damReleased {m : Engine} (h : m.cisState = 4) (elapsed : Nat) : (m.damReleased elapsed).cisState = 1 := by
  have hw : Engine.Within (endParts ++ dropParts ++ disarmParts) (m.damResumes elapsed).cisExit (m.damReleased elapsed) := by
    unfold Engine.damReleased
    rw [within_log, within_linesGoOn, within_damDisarms (by decide), within_armCancel (by decide), within_damCloses _ _ _ (by decide)]
    exact .refl _ _
  obtain ⟨-, -, -, -, -, -, hstate⟩ := m.damResumes_shows elapsed
  exact (hw.fld (f := R.CIS_STATUS_STATE) (by decide)).trans (Engine.cisState_cisExit (hstate.trans h))

end Sys2Proof.Machine
end

section
/-! O44: the release of a dam, the pin, the image and its scan (R432, R436, R437, R439). -/
namespace Sys2Proof.Machine
open Sys2Proof

variable {m : Engine}

/-! What is to go out on a link stays there. -/

theorem Engine.link_setLink (m : Engine) (s x : Side) (y : LinkState) : (m.setLink s y).link x = if x = s then y else m.link x := by
  cases s <;> cases x <;> rfl

theorem Engine.Within.link {l : List Part} {m m' : Engine} (h : Engine.Within l m m') (hl : partsIn [.links] l = false) (x : Side) : m'.link x = m.link x := by
  obtain ⟨hfa, hfb⟩ := h.links hl
  cases x with
  | fa => exact hfa
  | fb => exact hfb

theorem Engine.Within.mem_tx {l : List Part} {m m' : Engine} (h : Engine.Within l m m') (hl : partsIn [.links] l = false) {f : Flit} {x : Side} (hf : f ∈ (m.link x).tx) : f ∈ (m'.link x).tx :=
  h.link hl x ▸ hf

theorem Engine.mem_tx_send {f : Flit} {x : Side} (h : f ∈ (m.link x).tx) (s : Side) (dst : Nat) (b : FlitBody) : f ∈ ((m.send s dst b).link x).tx := by
  unfold Engine.send
  dsimp only
  split
  · rw [Engine.link_setLink]
    split
    · next hx => exact List.mem_append_left _ (hx ▸ h)
    · exact h
  · exact h

/-- A flit sent on a link that is up goes out on it. -/
theorem Engine.mem_tx_send_self {s : Side} (hup : m.sideUp s = true) (dst : Nat) (b : FlitBody) : (⟨m.pos, dst, b⟩ : Flit) ∈ ((m.send s dst b).link s).tx := by
  unfold Engine.send
  rw [if_pos hup, Engine.link_setLink, if_pos rfl]
  exact List.mem_append_right _ (List.mem_singleton.2 rfl)

theorem Engine.mem_tx_sendBoth {f : Flit} {x : Side} (h : f ∈ (m.link x).tx) (b : FlitBody) : f ∈ ((m.sendBoth b).link x).tx := Engine.mem_tx_send (Engine.mem_tx_send h _ _ _) _ _ _

theorem Engine.mem_tx_sendBoth_self {x : Side} (hup : m.sideUp x = true) (b : FlitBody) : (⟨m.pos, 0, b⟩ : Flit) ∈ ((m.sendBoth b).link x).tx := by
  have hw : Engine.Within [.links] m (m.send .fa 0 b) := (within_send _ _ _ (by decide)).2 (.refl _ _)
  cases x with
  | fa => exact Engine.mem_tx_send (Engine.mem_tx_send_self hup 0 b) _ _ _
  | fb =>
    have hup' : (m.send .fa 0 b).sideUp .fb = true := by
      unfold Engine.sideUp Engine.linkUp
      rw [hw.fld (by decide)]
      exact hup
    have hpos : (m.send .fa 0 b).pos = m.pos := hw.fld (by decide)
    exact hpos ▸ Engine.mem_tx_send_self hup' 0 b

theorem Engine.mem_tx_sendLinkState {f : Flit} {x : Side} (h : f ∈ (m.link x).tx) (s : Side) : f ∈ ((m.sendLinkState s).link x).tx := by
  unfold Engine.sendLinkState
  dsimp only
  split
  · exact h
  · have hset : Engine.Within [.of .ringB] m (m.setFld R.RING_MEMBERS_ARMED
        (if m.flag R.SYS_STATUS_ARMED then m.fld R.RING_MEMBERS_ARMED ||| 2 ^ m.pos else m.fld R.RING_MEMBERS_ARMED &&& (255 - 2 ^ m.pos))) :=
      (within_setFld _ (by decide)).2 (.refl _ _)
    exact Engine.mem_tx_sendBoth (hset.mem_tx (by decide) h) _

theorem Engine.mem_tx_armedReport {f : Flit} {x : Side} (h : f ∈ (m.link x).tx) : f ∈ (m.armedReport.link x).tx := by
  unfold Engine.armedReport
  dsimp only
  split
  · exact h
  · have hseen : Engine.Within [] m (m.setRing { m.ring with armedSeen := m.flag R.SYS_STATUS_ARMED }) := by
      simp
    exact Engine.mem_tx_sendLinkState (Engine.mem_tx_sendLinkState (hseen.mem_tx (by decide) h) _) _

theorem Engine.mem_tx_damDisarms {f : Flit} {x : Side} (h : f ∈ (m.link x).tx) : f ∈ (m.damDisarms.link x).tx := by
  unfold Engine.damDisarms
  split
  · exact h
  · have hoff : Engine.Within [.of .sysB, .of .sluB] m (((m.setFlag R.SYS_STATUS_ARMED false).setFlag R.SLU_STATUS_STEPPING false).status R.E_SYS_DISARMED) := by
      rw [within_status (by decide), within_setFlag _ (by decide), within_setFlag _ (by decide)]
      exact .refl _ _
    exact Engine.mem_tx_armedReport (hoff.mem_tx (by decide) h)

theorem Engine.link_damResumes (m : Engine) (elapsed : Nat) (x : Side) : (m.damResumes elapsed).link x = m.releaseTold.link x := by
  have hring : (m.damResumes elapsed).ring = m.releaseTold.ring := by
    unfold Engine.damResumes Engine.damOver
    exact Engine.tbReturns_ring _ _
  unfold Engine.link
  rw [hring]

/-- The release goes out on each link that is up (R271). -/
theorem Engine.mem_tx_damReleased {x : Side} (hrole : m.role ≠ 0) (hup : m.sideUp x = true) (elapsed : Nat) : (⟨m.pos, 0, .release m.pos 0⟩ : Flit) ∈ ((m.damReleased elapsed).link x).tx := by
  have htold : (⟨m.pos, 0, .release m.pos 0⟩ : Flit) ∈ (m.releaseTold.link x).tx := by
    unfold Engine.releaseTold
    rw [if_neg hrole]
    exact Engine.mem_tx_sendBoth_self hup _
  have hcap : Engine.Within ([.of .cisB, .of .cispB] ++ endParts ++ dropParts) (m.damResumes elapsed)
      ((m.damResumes elapsed).cisExit.damCloses m.releaseTold.dam m.nextGateTb (tbOfCycle (m.damResumes elapsed).nextCycle)).armCancel := by
    rw [within_armCancel (by decide), within_damCloses _ _ _ (by decide), within_cisExit (by decide)]
    exact .refl _ _
  have hend : Engine.Within [] ((m.damResumes elapsed).cisExit.damCloses m.releaseTold.dam m.nextGateTb (tbOfCycle (m.damResumes elapsed).nextCycle)).armCancel.damDisarms (m.damReleased elapsed) := by
    unfold Engine.damReleased
    rw [within_log, within_linesGoOn]
    exact .refl _ _
  rw [← m.link_damResumes elapsed] at htold
  exact hend.mem_tx (by decide) (Engine.mem_tx_damDisarms (hcap.mem_tx (by decide) htold))

/-! What a release shows. -/

/-- A release of a dammed module ends the dam: time and clocks, the capture, the pin, the controller and the ring. -/
structure Engine.Released (m m' : Engine) (elapsed : Nat) : Prop where
  dammed : m'.dammed = false
  running : m'.running = true
  tb : m'.tb = m.reg64 R.TB_DAM_TB_LO + 96 * BitVec.ofNat 64 elapsed
  elapsed : m'.reg64 R.TB_DAM_ELAPSED_LO = BitVec.ofNat 64 elapsed
  shown : m'.hasBit R.E_DAM_RELEASED = true
  armed : m'.armed = false
  dam : m'.dam = { m.dam with driveAt := none, driving := false, highs := 0, td := none, stopped := false }
  rearmed : m'.flag R.DAM_STATUS_REARMED = false
  pipe : m'.path.pipe = []
  cis : m.cisState = 4 → m'.cisState = 1
  told : ∀ x, m.role ≠ 0 → m.sideUp x = true → (⟨m.pos, 0, .release m.pos 0⟩ : Flit) ∈ (m'.link x).tx

theorem Engine.released_damRelease (h : m.dammed = true) (elapsed : Nat) : Engine.Released m (m.damRelease elapsed) elapsed := by
  have heq : m.damRelease elapsed = (m.damReleased elapsed).status R.E_DAM_RELEASED := Engine.damRelease_eq h elapsed
  have hrest := m.within_damReleased elapsed
  obtain ⟨hrun, htb, helapsed, hdammed, hrearmed, hpipe, -⟩ := m.damResumes_shows elapsed
  rw [heq]
  exact {
    dammed := (Engine.flag_status_ne _ R.E_DAM_RELEASED (by decide)).trans ((hrest.flag (f := R.DAM_STATUS_DAMMED) (by decide)).trans hdammed)
    running := (Engine.status_running _ R.E_DAM_RELEASED).trans (hrest.running.trans hrun)
    tb := (Engine.status_tb _ R.E_DAM_RELEASED).trans (hrest.tb.trans htb)
    elapsed := (Engine.reg64_of_reg (Engine.reg_status_ne _ R.E_DAM_RELEASED (by decide)) (Engine.reg_status_ne _ R.E_DAM_RELEASED (by decide))).trans
      ((hrest.reg64 (by decide) (by decide)).trans helapsed)
    shown := Engine.hasBit_status_same _ R.E_DAM_RELEASED (by decide)
    armed := (Engine.flag_status_ne _ R.E_DAM_RELEASED (f := R.SYS_STATUS_ARMED) (by decide)).trans (m.armed_damReleased elapsed)
    dam := (Engine.status_dam _ R.E_DAM_RELEASED).trans ((hrest.dam (by decide)).trans (m.dam_damResumes elapsed))
    rearmed := (Engine.flag_status_ne _ R.E_DAM_RELEASED (by decide)).trans ((hrest.flag (by decide)).trans hrearmed)
    pipe := (congrArg Path.pipe (Engine.status_path _ R.E_DAM_RELEASED)).trans ((hrest.pipe (by decide)).trans hpipe)
    cis := fun hcis => (Engine.fld_status_ne _ R.E_DAM_RELEASED (f := R.CIS_STATUS_STATE) (by decide)).trans (Engine.cisState_damReleased hcis elapsed)
    told := fun x hrole hup => by
      have hring : Engine.link ((m.damReleased elapsed).status R.E_DAM_RELEASED) x = (m.damReleased elapsed).link x := by
        unfold Engine.link
        rw [Engine.status_ring]
      exact hring ▸ Engine.mem_tx_damReleased hrole hup elapsed }

end Sys2Proof.Machine
end

section
/-! O44: the commands that end a dam, and those that read its image. -/
namespace Sys2Proof.Machine
open Sys2Proof

/-- A command whose chip differs in the engine alone. -/
theorem State.ends_put {s : State} {c : Chip} {m : Engine} {P : State → Prop} (hc : c = { s.chip with eng := m }) (hP : P (s.withEng m)) : Ends (s.put c) P := ⟨_, rfl, hc ▸ hP⟩

/-! Reads through the buses. -/

theorem Engine.answerRead_ok (m : Engine) (port : Port) (a : Nat) (w : Word) : m.answerRead port a .ok w = m.reply (okRead port w) := by
  cases port <;> rfl

/-- A read that gets through and changes the engine alone ends with the port's answer. -/
theorem State.ends_read {s : State} {port : Port} {a : Nat} {w : Word} {m : Engine} {P : State → Prop} (hreach : s.eng.reachable = true)
    (hread : s.chip.readReg port a = ({ s.chip with eng := m }, .ok, w)) (hP : P (s.withEng (m.reply (okRead port w)))) : Ends (s.read port a) P := by
  refine State.ends_put ?_ hP
  have hreach' : s.chip.eng.reachable = true := hreach
  unfold Chip.regRead
  rw [if_pos hreach', hread]
  exact congrArg (fun m => ({ s.chip with eng := m } : Chip)) (m.answerRead_ok port a w)

theorem decodeReg_imgData : (decodeReg R.DAM_IMG_DATA).isSome = true := by decide

/-- IMG_DATA reads the image, where its parity is whole. -/
theorem Chip.readReg_imgData {c : Chip} (hpar : c.eng.badParity = []) (port : Port) : c.readReg port R.DAM_IMG_DATA = (c.imgData.1, .ok, c.imgData.2) := by
  obtain ⟨h, hdec⟩ := Option.isSome_iff_exists.1 decodeReg_imgData
  have halign : ¬(0x100000 ≤ R.DAM_IMG_DATA ∨ R.DAM_IMG_DATA % 4 ≠ 0) := by decide
  have hdir : isDirWord R.DAM_IMG_DATA = false := by decide
  have hcisp : c.eng.absentCisp R.DAM_IMG_DATA = false := by
    have hpage : (R.DAM_IMG_DATA / 0x1000 == 0xB2) = false := by decide
    unfold Engine.absentCisp
    rw [hpage, Bool.false_and]
  unfold Chip.readReg
  dsimp only
  rw [if_neg halign, hdir, hcisp, hdec]
  simp [hpar]

/-- The engine after a read of the image: IMG_ADDR is one word on (R436). -/
def Engine.imgNext (m : Engine) : Engine := m.setReg R.DAM_IMG_ADDR (m.reg R.DAM_IMG_ADDR + 4)

theorem imgAddr_next (w : Word) : BitVec.ofNat 32 (w.toNat + 4) = w + 4 := by
  rw [BitVec.ofNat_add, BitVec.ofNat_toNat, BitVec.setWidth_eq]
  rfl

theorem Chip.imgData_some {c : Chip} {w : Word} (hdam : c.eng.dammed = true) (hw : c.imageWord ((c.eng.reg R.DAM_IMG_ADDR).toNat / 4 * 4) = some w) :
    c.imgData = ({ c with eng := c.eng.imgNext }, w) := by
  unfold Chip.imgData Engine.imgNext
  simp only [hdam, hw, imgAddr_next, if_true]

theorem Chip.imgData_none {c : Chip} (h : c.eng.dammed = false ∨ c.imageWord ((c.eng.reg R.DAM_IMG_ADDR).toNat / 4 * 4) = none) :
    c.imgData = ({ c with eng := c.eng.imgNext.status R.E_DAM_IMG_ERR }, 0) := by
  have hnone : (if c.eng.dammed then c.imageWord ((c.eng.reg R.DAM_IMG_ADDR).toNat / 4 * 4) else none) = none := by
    obtain hdam | hw := h
    · rw [hdam]
      rfl
    · rw [hw, ite_self]
  unfold Chip.imgData Engine.imgNext
  simp only [hnone, imgAddr_next]

/-! The scan of the TAP (R437). -/

theorem Chip.damScan_keep {c : Chip} {dr : BitVec 34} (hp : c.eng.mgt.powered = true) (hdr : dr.getLsbD 32 = false) : c.damScan dr = { c with eng := c.eng.reply (.scan c.eng.dam.scan) } := by
  have hp' : (c.eng.reply (.scan c.eng.dam.scan)).mgt.powered = true := hp
  simp only [Chip.damScan, hp', hdr, Bool.not_true, Bool.not_false, Bool.false_eq_true, if_false, if_true]

theorem Chip.damScan_some {c : Chip} {dr : BitVec 34} {w : Word} (hp : c.eng.mgt.powered = true) (hdr : dr.getLsbD 32 = true) (hdam : c.eng.dammed = true)
    (hw : c.imageWord (dr.toNat % 2 ^ 32 / 4 * 4) = some w) :
    c.damScan dr = { c with eng := (c.eng.reply (.scan c.eng.dam.scan)).setDam { c.eng.dam with scan := BitVec.ofNat 34 (w.toNat + 2 ^ 32) } } := by
  have hp' : (c.eng.reply (.scan c.eng.dam.scan)).mgt.powered = true := hp
  have hdam' : (c.eng.reply (.scan c.eng.dam.scan)).dammed = true := hdam
  simp only [Chip.damScan, hp', hdr, hdam', hw, Bool.not_true, Bool.false_eq_true, if_false, if_true]
  rfl

theorem Chip.damScan_none {c : Chip} {dr : BitVec 34} (hp : c.eng.mgt.powered = true) (hdr : dr.getLsbD 32 = true)
    (h : c.eng.dammed = false ∨ c.imageWord (dr.toNat % 2 ^ 32 / 4 * 4) = none) :
    c.damScan dr = { c with eng := (c.eng.reply (.scan c.eng.dam.scan)).setDam { c.eng.dam with scan := BitVec.ofNat 34 (2 ^ 32 + 2 ^ 33) } } := by
  have hp' : (c.eng.reply (.scan c.eng.dam.scan)).mgt.powered = true := hp
  have hnone : (if (c.eng.reply (.scan c.eng.dam.scan)).dammed then c.imageWord (dr.toNat % 2 ^ 32 / 4 * 4) else none) = none := by
    obtain hdam | hw := h
    · exact if_neg (ne_true_of_eq_false hdam)
    · rw [hw, ite_self]
  simp only [Chip.damScan, hp', hdr, hnone, Bool.not_true, Bool.false_eq_true, if_false]
  rfl

/-- What the scan leaves of the registers and of time. -/
theorem State.kept_scanned (s : State) (w : Answer) (x : DamState) : Kept s (s.withEng ((s.eng.reply w).setDam x)) [] := State.kept_withEng (fun _ _ => rfl) rfl

/-! A write of DAM.CTL that releases nothing, and the pin's rearm. -/

theorem Chip.damCtl_of_idle {c : Chip} {v : Nat} (hdam : c.eng.dammed = false) (hv : bitAt v 0 = false) : c.damCtl v = c := by
  simp [Chip.damCtl, hdam, hv]

/-- The pin rearmed: no one holds it low (R432). -/
theorem Engine.damRearm_eq {m : Engine} (hdrive : m.dam.driving = false) (hdam : m.dammed = false) :
    m.damRearm = ((m.setDam { m.dam with extLow := false, highs := 2 }).setFlag R.DAM_STATUS_PINLOW false).setFlag R.DAM_STATUS_REARMED true := by
  simp [Engine.damRearm, hdrive, hdam]

theorem Engine.damRearm_of_held {m : Engine} (h : m.dam.driving = true ∨ m.dammed = true) : m.damRearm = m := by
  simp [Engine.damRearm, h]

theorem Engine.damPin_false {m : Engine} (hdrive : m.dam.driving = false) (hlow : m.dam.extLow = false) : m.damPin = false := by
  unfold Engine.damPin Engine.damDrive
  rw [hdrive, hlow]
  cases m.damPullUp <;> rfl

/-- Settles O44: a release is one chain of operations (`Engine.Released`), whatever command brings it about; the image and its scan read the state alone. -/
theorem damEnds : Obligations.DamEnds := by
  unfold Obligations.DamEnds
  refine ⟨fun s port elapsed hreach hdam hport => ?release, fun s port elapsed hacc hbit => ?idle, fun s elapsed hp hdam => ?tap, fun s elapsed hp hdam => ?tapIdle, fun s hdrive hdam => ?rearm,
    fun s h => ?held, fun s port w hreach hpar hdam hw => ?image, fun s port hreach hpar h => ?noImage, fun s dr hp hdr => ?scanKeep, fun s dr w hp hdr hdam hw => ?scan,
    fun s dr hp hdr h => ?noScan⟩
  case release =>
    have hrel := Engine.released_damRelease hdam elapsed
    have hgo : (s.chip.eng.reachable && s.chip.eng.dammed && (port == .host || port == .mgmt)) = true := by
      have hreach' : s.chip.eng.reachable = true := hreach
      have hdam' : s.chip.eng.dammed = true := hdam
      obtain rfl | rfl := hport <;> simp [hreach', hdam']
    have hexec : exec (.damRelease port elapsed) s = .next (s.withEng ((s.eng.damRelease elapsed).reply (okAnswer port))) := by
      refine (if_pos hgo).trans ?_
      rw [Engine.answerWrite_ok]
      rfl
    exact ⟨_, hexec, hrel.dammed, hrel.running, hrel.tb, hrel.elapsed, hrel.shown, hrel.armed, congrArg DamState.td hrel.dam, congrArg DamState.stopped hrel.dam,
      congrArg DamState.driving hrel.dam, hrel.rearmed, hrel.pipe, hrel.cis, hrel.told, rfl, s.memKept_withEng _⟩
  case idle =>
    obtain ⟨-, hdam, -⟩ := State.accepts_inv hacc
    have hwait : ¬(s.chip.eng.reachable && s.chip.eng.dammed && (port == .host || port == .mgmt)) = true := by
      have hdam' : s.chip.eng.dammed = false := hdam
      simp [hdam']
    have hexec : exec (.damRelease port elapsed) s = s.write port R.DAM_CTL (s.eng.reg R.DAM_CTL ||| 2) := if_neg hwait
    have hbit' : bitAt (s.eng.reg R.DAM_CTL ||| 2).toNat 0 = false := by
      rw [bitAt, BitVec.toNat_or, Nat.testBit_or, ← bitAt, hbit]
      rfl
    have hdam' : (s.eng.storeFields damCtlHit R.DAM_CTL (s.eng.reg R.DAM_CTL ||| 2)).dammed = false :=
      (Engine.flag_of_reg (f := R.DAM_STATUS_DAMMED) (Engine.reg_storeFields_ne _ _ _ (by decide))).trans hdam
    rw [hexec]
    refine State.ends_write hacc decodeReg_damCtl ((Chip.writeAt_damCtl _ _).trans (Chip.damCtl_of_idle hdam' hbit')) ⟨rfl, rfl, State.kept_withEng (fun a ha => ?_) rfl⟩
    exact Engine.reg_storeFields_ne _ _ _ fun e => ha (List.mem_singleton.2 e)
  case tap =>
    have hrel := Engine.released_damRelease hdam elapsed
    exact State.ends_powered (·.damRelease elapsed) hp
      ⟨hrel.dammed, hrel.running, hrel.tb, hrel.armed, hrel.shown, congrArg DamState.td hrel.dam, s.memKept_withEng _⟩
  case tapIdle =>
    refine (s.powered_pos (·.damRelease elapsed) hp).trans ?_
    rw [Engine.damRelease_of_not_dammed hdam]
  case rearm =>
    refine ⟨s.withEng s.eng.damRearm, rfl, ?_⟩
    rw [Engine.damRearm_eq hdrive hdam]
    refine ⟨rfl, Engine.damPin_false hdrive rfl, Engine.flag_setFlag_same _ _ _ (by decide) rfl, ?_, State.kept_withEng (fun a ha => ?_) rfl⟩
    · rw [State.eng_withEng, Engine.flag_setFlag_beside _ R.DAM_STATUS_REARMED R.DAM_STATUS_PINLOW _ rfl (by decide), Engine.flag_setFlag_same _ _ _ (by decide) rfl]
    · exact (Engine.reg_setFlag_off ha _ _ (by decide)).trans (Engine.reg_setFlag_off ha _ _ (by decide))
  case held => exact congrArg (fun m => Host.Outcome.next (s.withEng m)) (Engine.damRearm_of_held h)
  case image =>
    refine State.ends_read (m := s.eng.imgNext) (w := w) hreach ?_ ⟨rfl, Engine.reg_setReg_same _ _ _, State.kept_withEng (l := [R.DAM_IMG_ADDR]) (fun a ha => ?_) rfl⟩
    · rw [Chip.readReg_imgData (c := s.chip) hpar port, Chip.imgData_some (c := s.chip) hdam hw]
    · exact Engine.reg_setReg_off ha _ _ (by decide)
  case noImage =>
    refine State.ends_read (m := s.eng.imgNext.status R.E_DAM_IMG_ERR) (w := 0) hreach ?_
      ⟨rfl, ?_, ?_, State.kept_withEng (l := [R.DAM_IMG_ADDR, statusAddr 0xB]) (fun a ha => ?_) ?_⟩
    · rw [Chip.readReg_imgData (c := s.chip) hpar port, Chip.imgData_none (c := s.chip) h]
    · exact (Engine.reg_status_ne _ R.E_DAM_IMG_ERR (by decide)).trans (Engine.reg_setReg_same _ _ _)
    · exact Engine.hasBit_status_same _ R.E_DAM_IMG_ERR (by decide)
    · exact (Engine.reg_status_off ha _ (b := R.E_DAM_IMG_ERR) (by decide)).trans (Engine.reg_setReg_off ha _ _ (by decide))
    · exact Engine.status_tb _ R.E_DAM_IMG_ERR
  case scanKeep =>
    exact State.ends_put (Chip.damScan_keep hp hdr) ⟨rfl, rfl, State.kept_withEng (fun _ _ => rfl) rfl⟩
  case scan =>
    exact State.ends_put (Chip.damScan_some hp hdr hdam hw) ⟨rfl, rfl, s.kept_scanned _ _⟩
  case noScan =>
    exact State.ends_put (Chip.damScan_none hp hdr h) ⟨rfl, rfl, s.kept_scanned _ _⟩

end Sys2Proof.Machine
end

section
/-! SUPPORT. The loss of the headrace (R19). -/
namespace Sys2Proof.Machine
open Sys2Proof

/-- The clocks stop. -/
def Engine.clocksGone (m : Engine) : Engine := { m with running := false, lost := true }

@[simp] theorem Engine.reg_clocksGone (m : Engine) (a : Nat) : m.clocksGone.reg a = m.reg a := rfl

/-- The loss of the headrace up to the settle: the clocks stop, TB is recorded, both PLLs read unlocked, no gate action stays queued, and the cause is noted. -/
def Engine.clocksStop (m : Engine) : Engine :=
  let m := (((m.clocksGone.setReg64 R.TB_DAM_TB_LO m.tb).setFlag R.CLK_STATUS_LOCK_A false).setFlag R.CLK_STATUS_LOCK_B false).gateCancel
  m.setFld R.SAFE_CAUSES_CAUSE (m.fld R.SAFE_CAUSES_CAUSE ||| 2 ^ 8)

/-- The settle that a loss of the headrace makes of an engine that is not settled. -/
def Engine.settleLost (m : Engine) : Engine :=
  if m.settled then m else ((m.setFld R.SAFE_STATUS_CAUSE 9).addSat R.SAFE_SETTLECNT 1).setReg64 R.SAFE_SETTLE_TB_LO m.firstNotStored

/-- Without a standby the loss stops the clocks and settles. -/
theorem Engine.headraceLost_eq {m : Engine} (hrun : m.running = true) (hred : m.flag R.CLK_STATUS_REDUNDANT = false) :
    m.headraceLost = (m.clocksStop.settleLost.setFlag R.SAFE_STATUS_SETTLED true).status R.E_SAFE_SETTLED := by
  rw [Engine.headraceLost, if_neg (by simp [hrun, hred])]; rfl

@[simp] theorem Engine.clocksStop_running (m : Engine) : m.clocksStop.running = false := rfl
@[simp] theorem Engine.clocksStop_lost (m : Engine) : m.clocksStop.lost = true := rfl
@[simp] theorem Engine.clocksStop_tb (m : Engine) : m.clocksStop.tb = m.tb := rfl
@[simp] theorem Engine.clocksStop_gateOrders (m : Engine) : m.clocksStop.gateOrders = [] := rfl
@[simp] theorem Engine.clocksStop_pulses (m : Engine) : m.clocksStop.gate.pulses = [] := rfl
@[simp] theorem Engine.clocksStop_firstNotStored (m : Engine) : m.clocksStop.firstNotStored = m.firstNotStored := rfl

@[simp] theorem Engine.reg_gateCancel (m : Engine) (a : Nat) : m.gateCancel.reg a = m.reg a := rfl
@[simp] theorem Engine.fld_gateCancel (m : Engine) (f : Field) : m.gateCancel.fld f = m.fld f := rfl
@[simp] theorem Engine.flag_gateCancel (m : Engine) (f : Field) : m.gateCancel.flag f = m.flag f := rfl

theorem Engine.reg_clocksStop_off {l : List Nat} {a : Nat} (ha : a ∉ l) (m : Engine)
    (hl : ∀ b ∈ [R.TB_DAM_TB_LO, R.TB_DAM_TB_LO + 4, R.CLK_STATUS, R.SAFE_CAUSES], b ∈ l) : m.clocksStop.reg a = m.reg a := by
  simp only [List.forall_mem_cons] at hl
  obtain ⟨hlo, hhi, hclk, hcauses, -⟩ := hl
  unfold Engine.clocksStop
  dsimp only
  rw [Engine.reg_setFld_off ha _ _ hcauses, reg_gateCancel, Engine.reg_setFlag_off ha _ _ hclk, Engine.reg_setFlag_off ha _ _ hclk, Engine.reg_setReg64_off ha _ _ hlo hhi, reg_clocksGone]

/-- TB is recorded. -/
theorem Engine.reg64_clocksStop (m : Engine) : m.clocksStop.reg64 R.TB_DAM_TB_LO = m.tb := by
  refine (Engine.reg64_of_reg ?_ ?_).trans (Engine.reg64_setReg64_same m.clocksGone R.TB_DAM_TB_LO m.tb)
  all_goals
    unfold Engine.clocksStop
    dsimp only
    rw [Engine.reg_setFld_ne _ _ _ (by decide), reg_gateCancel, Engine.reg_setFlag_ne _ _ _ (by decide), Engine.reg_setFlag_ne _ _ _ (by decide)]

/-- Neither PLL reads locked. -/
theorem Engine.flag_clocksStop_locks (m : Engine) : m.clocksStop.flag R.CLK_STATUS_LOCK_A = false ∧ m.clocksStop.flag R.CLK_STATUS_LOCK_B = false := by
  unfold Engine.clocksStop
  dsimp only
  rw [Engine.flag_setFld_ne _ _ (by decide), Engine.flag_setFld_ne _ _ (by decide), flag_gateCancel, flag_gateCancel]
  rw [Engine.flag_setFlag_beside _ R.CLK_STATUS_LOCK_B R.CLK_STATUS_LOCK_A _ rfl (by decide)]
  exact ⟨Engine.flag_setFlag_same _ _ _ (by decide) rfl, Engine.flag_setFlag_same _ _ _ (by decide) rfl⟩

/-- The cause is noted. -/
theorem Engine.bitAt_clocksStop_cause (m : Engine) : bitAt (m.clocksStop.fld R.SAFE_CAUSES_CAUSE) 8 = true := by
  unfold Engine.clocksStop bitAt
  dsimp only
  rw [Engine.fld_setFld_same _ _ _ (by decide), Nat.testBit_mod_two_pow, Nat.testBit_or, Nat.testBit_two_pow_self, Bool.or_true]
  rfl

@[simp] theorem Engine.settled_clocksStop (m : Engine) : m.clocksStop.settled = m.settled :=
  Engine.flag_of_reg (m.reg_clocksStop_off (l := [R.TB_DAM_TB_LO, R.TB_DAM_TB_LO + 4, R.CLK_STATUS, R.SAFE_CAUSES]) (by decide) fun _ h => h)

/-- The settle sets SAFE registers alone, and no other part of the engine. -/
theorem Engine.reg_settleLost_off {l : List Nat} {a : Nat} (ha : a ∉ l) (m : Engine)
    (hl : ∀ b ∈ [R.SAFE_STATUS, R.SAFE_SETTLECNT, R.SAFE_SETTLE_TB_LO, R.SAFE_SETTLE_TB_LO + 4], b ∈ l) : m.settleLost.reg a = m.reg a := by
  simp only [List.forall_mem_cons] at hl
  obtain ⟨hstatus, hcnt, hlo, hhi, -⟩ := hl
  unfold Engine.settleLost
  split
  · rfl
  · rw [Engine.reg_setReg64_off ha _ _ hlo hhi, Engine.reg_addSat_off ha _ _ hcnt, Engine.reg_setFld_off ha _ _ hstatus]

theorem Engine.settleLost_fields (m : Engine) : ∃ regs, m.settleLost = { m with regs := regs } := by
  unfold Engine.settleLost
  split <;> exact ⟨_, rfl⟩

theorem Engine.settleLost_of_not_settled {m : Engine} (h : m.settled = false) :
    m.settleLost.fld R.SAFE_STATUS_CAUSE = 9 ∧ m.settleLost.reg64 R.SAFE_SETTLE_TB_LO = m.firstNotStored ∧ m.settleLost.reg R.SAFE_SETTLECNT = satAdd (m.reg R.SAFE_SETTLECNT) 1 := by
  rw [Engine.settleLost, if_neg (by simp [h])]
  refine ⟨?_, Engine.reg64_setReg64_same _ _ _, ?_⟩
  · rw [Engine.fld_setReg64_ne _ _ (by decide) (by decide), Engine.fld_addSat_ne _ _ (by decide), Engine.fld_setFld_same _ _ _ (by decide)]
    rfl
  · rw [Engine.reg_setReg64_ne _ _ _ (by decide) (by decide), Engine.reg_addSat_same, Engine.reg_setFld_ne _ _ _ (by decide)]
    rfl

/-- What the settle adds leaves what the loss left in the fields and registers it does not set. -/
theorem Engine.reg_headraceLost_off {l : List Nat} {a : Nat} (ha : a ∉ l) {m : Engine} (hrun : m.running = true) (hred : m.flag R.CLK_STATUS_REDUNDANT = false)
    (hl : ∀ b ∈ [R.SAFE_STATUS, R.SAFE_SETTLECNT, R.SAFE_SETTLE_TB_LO, R.SAFE_SETTLE_TB_LO + 4, statusAddr 7], b ∈ l) : m.headraceLost.reg a = m.clocksStop.reg a := by
  simp only [List.forall_mem_cons] at hl
  obtain ⟨hstatus, hcnt, hlo, hhi, hpage, -⟩ := hl
  rw [Engine.headraceLost_eq hrun hred, Engine.reg_status_off (b := R.E_SAFE_SETTLED) ha _ hpage, Engine.reg_setFlag_off ha _ _ hstatus, Engine.reg_settleLost_off ha]
  simp [hstatus, hcnt, hlo, hhi]

/-- What the loss shows at once (R19). -/
theorem Engine.headraceLost_shows {m : Engine} (hrun : m.running = true) (hred : m.flag R.CLK_STATUS_REDUNDANT = false) :
    m.headraceLost.running = false ∧ m.headraceLost.lost = true ∧ m.headraceLost.gateOrders = [] ∧ m.headraceLost.gate.pulses = [] ∧ m.headraceLost.tb = m.tb ∧
      m.headraceLost.settled = true := by
  obtain ⟨regs, hregs⟩ := m.clocksStop.settleLost_fields
  have hshown : (m.clocksStop.settleLost.setFlag R.SAFE_STATUS_SETTLED true).settled = true := Engine.flag_setFlag_same _ R.SAFE_STATUS_SETTLED true (by decide) rfl
  rw [Engine.headraceLost_eq hrun hred]
  refine ⟨?_, ?_, ?_, ?_, ?_, (Engine.flag_status_ne _ R.E_SAFE_SETTLED (f := R.SAFE_STATUS_SETTLED) (by decide)).trans hshown⟩
  all_goals simp [hregs]

/-- The registers that the settle of a loss sets. -/
def settleRegs : List Nat := [R.SAFE_STATUS, R.SAFE_SETTLECNT, R.SAFE_SETTLE_TB_LO, R.SAFE_SETTLE_TB_LO + 4, statusAddr 7]

theorem Engine.reg_headraceLost_beside {m : Engine} (hrun : m.running = true) (hred : m.flag R.CLK_STATUS_REDUNDANT = false) {a : Nat} (ha : a ∉ settleRegs) :
    m.headraceLost.reg a = m.clocksStop.reg a := Engine.reg_headraceLost_off ha hrun hred fun _ h => h

/-- A loss from an unsettled engine settles it with cause 9. -/
theorem Engine.headraceLost_settles {m : Engine} (hrun : m.running = true) (hred : m.flag R.CLK_STATUS_REDUNDANT = false) (hset : m.settled = false) :
    m.headraceLost.fld R.SAFE_STATUS_CAUSE = 9 ∧ m.headraceLost.reg64 R.SAFE_SETTLE_TB_LO = m.firstNotStored ∧ m.headraceLost.reg R.SAFE_SETTLECNT = satAdd (m.reg R.SAFE_SETTLECNT) 1 := by
  obtain ⟨hcause, htb, hcnt⟩ := Engine.settleLost_of_not_settled (m.settled_clocksStop.trans hset)
  have hoff : ∀ a, a ∉ [R.SAFE_STATUS, statusAddr 7] → m.headraceLost.reg a = m.clocksStop.settleLost.reg a := fun a ha => by
    rw [Engine.headraceLost_eq hrun hred, Engine.reg_status_off (b := R.E_SAFE_SETTLED) ha _ (by decide), Engine.reg_setFlag_off ha _ _ (by decide)]
  refine ⟨?_, ?_, ?_⟩
  · rw [Engine.headraceLost_eq hrun hred, Engine.fld_status_ne _ R.E_SAFE_SETTLED (by decide), Engine.fld_setFlag_beside _ R.SAFE_STATUS_SETTLED R.SAFE_STATUS_CAUSE _ rfl (by decide), hcause]
  · rw [Engine.reg64_of_reg (hoff _ (by decide)) (hoff _ (by decide)), htb, Engine.clocksStop_firstNotStored]
  · rw [hoff _ (by decide), hcnt, m.reg_clocksStop_off (l := [R.TB_DAM_TB_LO, R.TB_DAM_TB_LO + 4, R.CLK_STATUS, R.SAFE_CAUSES]) (by decide) fun _ h => h]

end Sys2Proof.Machine
end

section
/-! SUPPORT. The headrace is back: what the engine is left as (R20). -/
namespace Sys2Proof.Machine
open Sys2Proof

variable {l : List Part} {m m' : Engine}

/-! The settle and the storage. -/

/-- The parts that the disarming of a settle may change. -/
def settleParts : List Part := dropParts ++ [.span, .links, .of .ringB]

/-- A request to arm is refused with reason 14. -/
def Engine.requestRefused (m : Engine) : Engine := if m.arming.isSome then m.armRefuse 14 (m.fld R.SAFE_STATUS_CAUSE) else m

/-- The span of armed sample cycles ends. -/
def Engine.spanEnds (m : Engine) (first : Nat) : Engine :=
  { m with armSpan := m.armSpan.map (fun (s : Nat × Option Nat) => (s.1, some (match s.2 with | some e => min e first | none => first))) }

/-- The engine is disarmed where it was armed. -/
def Engine.disarmed (m : Engine) : Engine := if !m.armed then m else ((m.setFlag R.SYS_STATUS_ARMED false).status R.E_SYS_DISARMED).armedReport

/-- The first sample cycle that a settle does not store. -/
def Engine.firstUnstored (m : Engine) : Nat := match m.path.pipe with | [] => m.cc + 1 | e :: _ => e.phys

theorem Engine.settleDisarm_eq (m : Engine) : m.settleDisarm = (m.requestRefused.spanEnds m.firstUnstored).disarmed := rfl

theorem within_disarmed (h : partsIn [.of .sysB, .links, .of .ringB] l = true) : Engine.Within l m m'.disarmed ↔ Engine.Within l m m' := by
  refine Engine.Within.step (k := [.of .sysB, .links, .of .ringB]) ?_ h
  simp +decide [Engine.disarmed]

theorem within_spanEnds (first : Nat) (h : partsIn [.span] l = true) : Engine.Within l m (m'.spanEnds first) ↔ Engine.Within l m m' := by
  refine Engine.Within.step (k := [.span]) ?_ h
  unfold Engine.spanEnds
  simp +decide only [↓within_update, Engine.Within.refl, and_self, or_true, true_or]

theorem within_requestRefused (h : partsIn dropParts l = true) : Engine.Within l m m'.requestRefused ↔ Engine.Within l m m' := by
  refine Engine.Within.step (k := dropParts) ?_ h
  simp +decide [Engine.requestRefused, within_armRefuse]

theorem within_settleDisarm (h : partsIn settleParts l = true) : Engine.Within l m m'.settleDisarm ↔ Engine.Within l m m' := by
  refine Engine.Within.step (k := settleParts) ?_ h
  rw [Engine.settleDisarm_eq, within_disarmed (by decide), within_spanEnds _ (by decide), within_requestRefused (by decide)]
  exact .refl _ _

/-- A settle leaves the engine disarmed (R31). -/
theorem Engine.armed_disarmed (m : Engine) : m.disarmed.armed = false := by
  unfold Engine.disarmed
  cases h : m.armed
  · exact h
  · have hw : Engine.Within [.links, .of .ringB] _ _ := (within_armedReport (m' := (m.setFlag R.SYS_STATUS_ARMED false).status R.E_SYS_DISARMED) (by decide)).2 (.refl _ _)
    exact (hw.flag (f := R.SYS_STATUS_ARMED) (by decide)).trans ((Engine.flag_status_ne _ R.E_SYS_DISARMED (by decide)).trans (Engine.flag_setFlag_same _ _ _ (by decide) rfl))

/-! The storage. -/

/-- Every segment descriptor's state is 0. -/
def Engine.segmentsEmpty (m : Engine) : Engine := forEach 256 (fun s m => m.setFld (R.SEG_STATUS_STATE s) 0) m

theorem within_segmentsEmpty (h : partsIn [.of .segB] l = true) : Engine.Within l m m'.segmentsEmpty ↔ Engine.Within l m m' := by
  refine Engine.Within.step (k := [.of .segB]) ?_ h
  exact within_forEach fun g hg x => (within_setFld _ (inParts_seg hg rfl 0x18 (by decide))).2 (.refl _ _)

/-- A loop over the segments leaves each of those it has passed EMPTY. -/
theorem Engine.segState_emptied (n : Nat) (m : Engine) {g : Nat} (hg : g < n) : (forEach n (fun s m => m.setFld (R.SEG_STATUS_STATE s) 0) m).fld (R.SEG_STATUS_STATE g) = 0 := by
  induction n with
  | zero => exact absurd hg (Nat.not_lt_zero g)
  | succ n ih =>
    rw [show forEach (n + 1) (fun s m => Engine.setFld m (R.SEG_STATUS_STATE s) 0) m = (forEach n (fun s m => Engine.setFld m (R.SEG_STATUS_STATE s) 0) m).setFld (R.SEG_STATUS_STATE n) 0 by
      simp [forEach, List.range_succ]]
    by_cases haddr : R.SEG_STATUS g = R.SEG_STATUS n
    · rw [show R.SEG_STATUS_STATE g = R.SEG_STATUS_STATE n by rw [R.SEG_STATUS_STATE, haddr]; rfl, Engine.fld_setFld_same _ _ _ (show 0 + 3 ≤ 32 by decide)]
      rfl
    · have hne : g ≠ n := fun e => haddr (e ▸ rfl)
      rw [Engine.fld_setFld_ne _ _ haddr]
      exact ih (by omega)

/-- The store is left without an open segment, packs and markers. -/
def Engine.storeEmptied (m : Engine) : Engine :=
  m.setStore { m.store with
    intakes := m.store.intakes.map (fun x => { x with fifo := [], pack := none, lost := none, lostEnd := none }), marks := [], markPacks := [],
    active := false, lastSeg := if m.store.active then some m.curSeg else m.store.lastSeg, gapUntil := none, segNext := [], boundary := none }

/-- Its status reads idle. -/
def Engine.storeIdle (m : Engine) : Engine :=
  let m := forEach 48 (fun n m => m.showFifo n) m
  (((m.setFlag R.STORE_STATUS_STORING false).setFlag R.STORE_STATUS_STOPPED false).setFld R.STORE_STATUS_STOPCAUSE 0).setFlag R.STORE_STATUS_GAP false

theorem Engine.storageGone_eq (m : Engine) : m.storageGone = m.storeEmptied.storeIdle.segmentsEmpty.applyHeld := rfl

theorem within_storeEmptied : Engine.Within l m m'.storeEmptied ↔ Engine.Within l m m' := by
  refine Engine.Within.step_self ?_
  simp [Engine.storeEmptied]

theorem within_storeIdle (h : partsIn storeParts l = true) : Engine.Within l m m'.storeIdle ↔ Engine.Within l m m' := by
  refine Engine.Within.step (k := storeParts) ?_ h
  unfold Engine.storeIdle
  dsimp only
  rw [within_setFlag _ (by decide), within_setFld _ (by decide), within_setFlag _ (by decide), within_setFlag _ (by decide), within_loop fun n hn x => by simp +decide [within_showFifo hn]]
  exact .refl _ _

theorem within_storageGone (h : partsIn endParts l = true) : Engine.Within l m m'.storageGone ↔ Engine.Within l m m' := by
  refine Engine.Within.step (k := endParts) ?_ h
  rw [Engine.storageGone_eq, within_applyHeld (by decide), within_segmentsEmpty (by decide), within_storeIdle (by decide), within_storeEmptied]
  exact .refl _ _

/-- A descriptor's status is no register that a write waits for. -/
theorem segStatus_notHeld {g : Nat} (hg : g < 256) : inParts heldParts (R.SEG_STATUS_STATE g).addr = false := by
  have hpages : ∀ q < 4, ∀ r < 64, inParts heldParts (0xA9000 + 0x1000 * q + 0x40 + 0x3C * r + 0x18) = false := by decide
  exact hpages (g / 64) (by omega) (g % 64) (by omega)

/-- Every segment is EMPTY (R20). -/
theorem Engine.segState_storageGone (m : Engine) {g : Nat} (hg : g < 256) : m.storageGone.fld (R.SEG_STATUS_STATE g) = 0 := by
  have hw : Engine.Within heldParts m.storeEmptied.storeIdle.segmentsEmpty m.storageGone := by
    rw [Engine.storageGone_eq, within_applyHeld (by decide)]
    exact .refl _ _
  exact (hw.fld (segStatus_notHeld hg)).trans (Engine.segState_emptied 256 _ hg)

@[simp] theorem within_recordCause (c : Cause) (tb : Tb) (h : partsIn [.of .safeB] l = true) : Engine.Within l m (m'.recordCause c tb) ↔ Engine.Within l m m' := by
  refine Engine.Within.step (k := [.of .safeB]) ?_ h
  simp +decide [Engine.recordCause]

/-! The rota halts. -/

theorem within_stopRepeater {r : Nat} (hr : r < 8) (h : partsIn [.of .rotaB] l = true) : Engine.Within l m (m'.stopRepeater r) ↔ Engine.Within l m m' := by
  refine Engine.Within.step (k := [.of .rotaB]) ?_ h
  have hrem : ∀ i < 8, inParts [.of .rotaB] (R.ROTA_REP_REMAIN (i - 1)) = true := by decide
  unfold Engine.stopRepeater
  dsimp only
  rw [within_setReg _ (hrem r hr), within_clearBits _ (by decide), within_setRota]
  · exact .refl _ _
  · exact .inr rfl

/-- The parts that a halt of the rota may change. -/
def haltParts : List Part := .of .rotaB :: dropParts

/-- The rota's queue is empty, and no flip of an output waits for it. -/
def Engine.queueGone (m : Engine) : Engine := { m.setRota { m.rota with queue := [] } with disp := m.disp.map (fun (d : DispState) => { d with rotaFlip := none }) }

/-- A request to arm that the rota made is dropped with it. -/
def Engine.rotaArmDrop (m : Engine) : Engine := if (m.arming.bind (·.act)).isSome then m.armDrop else m

/-- The queue's actions are discarded, and the repeaters stop (R185). -/
def Engine.rotaHalted (m : Engine) (q : List RotaAct) : Engine :=
  let m := q.foldl (fun m a => ((m.addSat R.ROTA_DISCARDCNT 1).status R.E_ROTA_DISCARD).log 0xA2 2 0x0213 (a.word + a.target * 2 ^ 16) a.tb) m
  let m := forEach 7 (fun i m => m.stopRepeater (i + 1)) m
  (m.setFlag R.ROTA_STATUS_HALTED true).status R.E_ROTA_HALT

theorem Engine.rotaHalt_eq (m : Engine) : m.rotaHalt = m.queueGone.rotaArmDrop.rotaHalted m.rota.queue := rfl

theorem within_queueGone (h : partsIn [.queue] l = true) : Engine.Within l m m'.queueGone ↔ Engine.Within l m m' := by
  refine Engine.Within.step (k := [.queue]) ?_ h
  unfold Engine.queueGone
  simp +decide [↓within_update]

theorem within_rotaArmDrop (h : partsIn dropParts l = true) : Engine.Within l m m'.rotaArmDrop ↔ Engine.Within l m m' := by
  refine Engine.Within.step (k := dropParts) ?_ h
  simp +decide [Engine.rotaArmDrop, within_armDrop]

theorem within_rotaHalted (q : List RotaAct) (h : partsIn [.of .rotaB] l = true) : Engine.Within l m (m'.rotaHalted q) ↔ Engine.Within l m m' := by
  refine Engine.Within.step (k := [.of .rotaB]) ?_ h
  unfold Engine.rotaHalted
  dsimp only
  rw [within_status (by decide), within_setFlag _ (by decide), within_loop fun i hi x => by simp +decide [within_stopRepeater (Nat.succ_lt_succ hi)], within_fold _ fun x a _ => by simp +decide]
  exact .refl _ _

theorem within_rotaHalt (h : partsIn haltParts l = true) : Engine.Within l m m'.rotaHalt ↔ Engine.Within l m m' := by
  refine Engine.Within.step (k := haltParts) ?_ h
  rw [Engine.rotaHalt_eq, within_rotaHalted _ (by decide), within_rotaArmDrop (by decide), within_queueGone (by decide)]
  exact .refl _ _

/-- A request that is dropped leaves ARMED as it is. -/
theorem Engine.armed_armDrop (m : Engine) : m.armDrop.armed = m.armed := by
  unfold Engine.armDrop
  dsimp only
  split
  · exact m.armed_armEnd
  · have hw : Engine.Within heldParts m.armEnd m.armEnd.applyHeld := (within_applyHeld (by decide)).2 (.refl _ _)
    exact (hw.flag (f := R.SYS_STATUS_ARMED) (by decide)).trans m.armed_armEnd

theorem Engine.armed_rotaHalt (m : Engine) : m.rotaHalt.armed = m.armed := by
  have hgone : Engine.Within [.queue] m m.queueGone := (within_queueGone (by decide)).2 (.refl _ _)
  have hhalt : Engine.Within [.of .rotaB] m.queueGone.rotaArmDrop m.rotaHalt := by
    rw [Engine.rotaHalt_eq, within_rotaHalted _ (by decide)]
    exact .refl _ _
  have hdrop : m.queueGone.rotaArmDrop.armed = m.queueGone.armed := by
    unfold Engine.rotaArmDrop
    split
    · exact Engine.armed_armDrop _
    · rfl
  exact (hhalt.flag (f := R.SYS_STATUS_ARMED) (by decide)).trans (hdrop.trans (hgone.flag (by decide)))

theorem Engine.armed_settleDisarm (m : Engine) : m.settleDisarm.armed = false := Engine.armed_disarmed _

/-! The controller starts anew (R20). -/

@[simp] theorem within_opDrop (h : partsIn [.of .cisB] l = true) : Engine.Within l m m'.opDrop ↔ Engine.Within l m m' := by
  refine Engine.Within.step (k := [.of .cisB]) ?_ h
  simp +decide [Engine.opDrop]

@[simp] theorem within_passEnd (h : partsIn [.of .cisB] l = true) : Engine.Within l m m'.passEnd ↔ Engine.Within l m m' := by
  refine Engine.Within.step (k := [.of .cisB]) ?_ h
  simp +decide [Engine.passEnd]

@[simp] theorem within_passDrop (h : partsIn [.of .cisB] l = true) : Engine.Within l m m'.passDrop ↔ Engine.Within l m m' := by
  refine Engine.Within.step (k := [.of .cisB]) ?_ h
  simp +decide [Engine.passDrop]

@[simp] theorem within_showOffline (h : partsIn [.of .cisB] l = true) : Engine.Within l m m'.showOffline ↔ Engine.Within l m m' := by
  refine Engine.Within.step (k := [.of .cisB]) ?_ h
  unfold Engine.showOffline
  dsimp only
  rw [within_setFld _ (by decide), within_setReg _ (by decide), within_setReg _ (by decide)]
  exact .refl _ _

/-! Sequenced traffic goes out. -/

@[simp] theorem within_setPeer (q : Nat) (p : Peer) : Engine.Within l m (m'.setPeer q p) ↔ Engine.Within l m m' := by
  refine Engine.Within.step_self ?_
  simp [Engine.setPeer]

@[simp] theorem within_route (dst : Nat) : Engine.Within l m (m'.route dst).2 ↔ Engine.Within l m m' := by
  refine Engine.Within.step_self ?_
  unfold Engine.route
  dsimp only
  split
  · exact .refl _ _
  · exact .refl _ _
  · exact .refl _ _
  · split_ifs <;> simp

@[simp] theorem within_runSide (dst : Nat) (p : Peer) (b : FlitBody) : Engine.Within l m (m'.runSide dst p b).2 ↔ Engine.Within l m m' := by
  refine Engine.Within.step_self ?_
  unfold Engine.runSide
  split
  · split_ifs <;> simp
  · simp

@[simp] theorem within_pump (dst k : Nat) (h : partsIn [.links] l = true) : Engine.Within l m (m'.pump dst k) ↔ Engine.Within l m m' := by
  induction k generalizing m' with
  | zero => exact .rfl
  | succ k ih =>
    unfold Engine.pump
    dsimp only
    split
    · exact .rfl
    · split_ifs
      · exact .rfl
      · rw [ih, within_send _ _ _ h]
        simp

@[simp] theorem within_sendSeq (dst : Nat) (b : FlitBody) (h : partsIn [.links] l = true) : Engine.Within l m (m'.sendSeq dst b).1 ↔ Engine.Within l m m' := by
  simp [Engine.sendSeq, h]

@[simp] theorem within_funnelReply (dst tag status : Nat) (bytes : List Byte) (h : partsIn [.links] l = true) :
    Engine.Within l m (m'.funnelReply dst tag status bytes) ↔ Engine.Within l m m' := by
  unfold Engine.funnelReply
  dsimp only
  rw [within_fold _ fun x k _ => by simp [h], within_sendSeq _ _ h]

end Sys2Proof.Machine
end

section
/-! O16: the headrace is lost, and comes back (R19, R20). -/
namespace Sys2Proof.Machine
open Sys2Proof

variable {l : List Part} {m m' : Engine}

/-! The controller is in INIT. -/

/-- Every pseudo-channel is in INIT, none revives. -/
def Engine.pcsInit (m : Engine) : Engine :=
  forEach 64 (fun p m => (m.setFld (R.CISP_PC_STATE_STATE (p / 32) (p % 32)) 0).setFlag (R.CISP_PC_STATE_REVIVING (p / 32) (p % 32)) false) m

/-- No operation, no pass, no read and no write is under way. -/
def Engine.cisIdle (m : Engine) : Engine := m.setCis { m.cis with full := true, pcs := List.replicate 64 {}, waitW := [], waitR := [], reads := [] }

/-- The reads that waited are answered without data. -/
def Engine.readsDropped (m : Engine) (reads : List WinRead) : Engine :=
  reads.foldl (fun m r => match r.reply with | some (dst, t) => m.funnelReply dst t 2 [] | none => { m with answer := .completerAbort }) m

theorem Engine.cisInit_eq (m : Engine) :
    m.cisInit = ((((m.opDrop).passDrop.setFld R.CIS_STATUS_STATE 0).setFld R.CIS_STATUS_OP 0).pcsInit.cisIdle.showOffline).readsDropped m.cis.reads := rfl

theorem within_pcsInit (h : partsIn [.of .cispB] l = true) : Engine.Within l m m'.pcsInit ↔ Engine.Within l m m' := by
  refine Engine.Within.step (k := [.of .cispB]) ?_ h
  refine within_forEach fun p hp x => ?_
  have hreg : inParts [.of .cispB] (R.CISP_PC_STATE (p / 32) (p % 32)) = true :=
    inParts_of_block (blockAt_cisp (by simp only [R.CISP_PC_STATE]; omega) (by simp only [R.CISP_PC_STATE]; omega)) rfl
  rw [within_setFlag _ hreg, within_setFld _ hreg]
  exact .refl _ _

theorem within_readsDropped (reads : List WinRead) (h : partsIn [.links] l = true) : Engine.Within l m (m'.readsDropped reads) ↔ Engine.Within l m m' := by
  refine within_fold _ fun x r _ => ?_
  split
  · exact (within_funnelReply _ _ _ _ h).2 (.refl _ _)
  · exact (within_reply _).2 (.refl _ _)

theorem within_cisInit (h : partsIn [.of .cisB, .of .cispB, .links] l = true) : Engine.Within l m m'.cisInit ↔ Engine.Within l m m' := by
  refine Engine.Within.step (k := [.of .cisB, .of .cispB, .links]) ?_ h
  rw [Engine.cisInit_eq, within_readsDropped _ (by decide), within_showOffline (by decide), Engine.cisIdle, within_setCis, within_pcsInit (by decide), within_setFld _ (by decide),
    within_setFld _ (by decide), within_passDrop (by decide), within_opDrop (by decide)]
  exact .refl _ _

/-- The controller shows INIT. -/
theorem Engine.cisState_cisInit (m : Engine) : m.cisInit.cisState = 0 := by
  have hset : ∀ x : Engine, ((x.setFld R.CIS_STATUS_STATE 0).setFld R.CIS_STATUS_OP 0).cisState = 0 := fun x =>
    (Engine.fld_setFld_beside _ R.CIS_STATUS_OP R.CIS_STATUS_STATE _ rfl (by decide)).trans (Engine.fld_setFld_same _ _ _ (by decide))
  have hpcs : ∀ x : Engine, Engine.Within [.of .cispB] x x.pcsInit.cisIdle := fun x => by
    rw [Engine.cisIdle, within_setCis, within_pcsInit (by decide)]
    exact .refl _ _
  have hoff : ∀ x : Engine, x.showOffline.cisState = x.cisState := fun x =>
    (Engine.fld_setFld_beside _ R.CIS_STATUS_OFFCOUNT R.CIS_STATUS_STATE _ rfl (by decide)).trans
      ((Engine.fld_setReg_ne _ _ (by decide)).trans (Engine.fld_setReg_ne _ _ (by decide)))
  have hreads : ∀ x : Engine, Engine.Within [.links] x (x.readsDropped m.cis.reads) := fun x => (within_readsDropped _ (by decide)).2 (.refl _ _)
  rw [Engine.cisInit_eq]
  exact ((hreads _).fld (f := R.CIS_STATUS_STATE) (by decide)).trans ((hoff _).trans (((hpcs _).fld (by decide)).trans (hset _)))

/-! The drains, the ring and the outputs. -/

@[simp] theorem within_setDrain (d : Nat) (x : DrainState) : Engine.Within l m (m'.setDrain d x) ↔ Engine.Within l m m' := by
  refine Engine.Within.step_self ?_
  unfold Engine.setDrain
  simp only [↓within_update, Engine.Within.refl, and_self, or_true]

theorem within_setDrainSt {d : Nat} (hd : d < 4) (v : Nat) (h : partsIn [.of .drainB] l = true) : Engine.Within l m (m'.setDrainSt d v) ↔ Engine.Within l m m' := by
  refine Engine.Within.step (k := [.of .drainB]) ?_ h
  have hreg : ∀ d < 4, inParts [.of .drainB] (R.DRAIN_DSTAT_STATE d).addr = true := by decide
  simp [Engine.setDrainSt, hreg d hd]

theorem within_setResume {d : Nat} (hd : d < 4) (i off : Nat) (h : partsIn [.of .drainB] l = true) : Engine.Within l m (m'.setResume d i off) ↔ Engine.Within l m m' := by
  refine Engine.Within.step (k := [.of .drainB]) ?_ h
  have hregs : ∀ d < 4, inParts [.of .drainB] (R.DRAIN_RESUME_IDX d) = true ∧ inParts [.of .drainB] (R.DRAIN_RESUME_OFF d) = true ∧
      inParts [.of .drainB] (R.DRAIN_DSTAT_RESUME_VALID d).addr = true := by decide
  obtain ⟨hidx, hoff, hvalid⟩ := hregs d hd
  simp [Engine.setResume, hidx, hoff, hvalid]

theorem within_drainPaused {d : Nat} (hd : d < 4) (i off : Nat) (h : partsIn [.of .drainB] l = true) : Engine.Within l m (m'.drainPaused d i off) ↔ Engine.Within l m m' := by
  refine Engine.Within.step (k := [.of .drainB]) ?_ h
  unfold Engine.drainPaused
  dsimp only
  rw [within_status (by decide), within_setDrainSt hd _ (by decide), within_setDrain, within_setResume hd _ _ (by decide)]
  exact .refl _ _

theorem within_drainPause {d : Nat} (hd : d < 4) (h : partsIn [.of .drainB] l = true) : Engine.Within l m (m'.drainPause d) ↔ Engine.Within l m m' := by
  unfold Engine.drainPause
  split
  · exact .rfl
  · exact within_drainPaused hd _ _ h

theorem within_drainsPause (h : partsIn [.of .drainB] l = true) : Engine.Within l m m'.drainsPause ↔ Engine.Within l m m' :=
  within_loop fun _ hd _ => (within_drainPause hd h).2 (.refl _ _)

theorem within_drainsStop : Engine.Within l m m'.drainsStop ↔ Engine.Within l m m' := by
  refine within_loop fun _ _ x => ?_
  simp

theorem within_sendSettle (code : Nat) (t : Tb) (h : partsIn [.links] l = true) : Engine.Within l m (m'.sendSettle code t) ↔ Engine.Within l m m' := by
  refine Engine.Within.step (k := [.links]) ?_ h
  simp +decide [Engine.sendSettle]

/-! The return as a chain (R20). -/

/-- The flag that says a PLL is locked. -/
def lockFlag (b : Bool) : Field := if b then R.CLK_STATUS_LOCK_B else R.CLK_STATUS_LOCK_A

/-- The headrace is no longer lost. -/
def Engine.headraceThere (m : Engine) : Engine := { m with lost := false }

/-- The PLL that relocked is the active one. -/
def Engine.pllBack (m : Engine) (b : Bool) : Engine := (m.headraceThere.setFlag R.CLK_STATUS_ACTIVE b).setFlag (lockFlag b) true

/-- The PLL that relocked is the active one, and time goes on. -/
def Engine.clocksBack (m : Engine) (b : Bool) (elapsed : Nat) : Engine := (m.pllBack b).tbReturns elapsed

theorem lockFlag_addr (b : Bool) : (lockFlag b).addr = R.CLK_STATUS := by cases b <;> rfl

theorem Engine.reg_pllBack_ne (m : Engine) (b : Bool) {a : Nat} (ha : a ≠ R.CLK_STATUS) : (m.pllBack b).reg a = m.reg a :=
  (Engine.reg_setFlag_ne _ (lockFlag b) _ (lockFlag_addr b ▸ ha)).trans (Engine.reg_setFlag_ne m.headraceThere R.CLK_STATUS_ACTIVE _ ha)

theorem Engine.flag_pllBack (m : Engine) (b : Bool) : (m.pllBack b).flag R.CLK_STATUS_ACTIVE = b ∧ (m.pllBack b).flag (lockFlag b) = true := by
  have hactive : (m.headraceThere.setFlag R.CLK_STATUS_ACTIVE b).flag R.CLK_STATUS_ACTIVE = b := Engine.flag_setFlag_same _ _ _ (by decide) rfl
  cases b
  · exact ⟨(Engine.flag_setFlag_beside _ R.CLK_STATUS_LOCK_A R.CLK_STATUS_ACTIVE _ rfl (by decide)).trans hactive, Engine.flag_setFlag_same _ R.CLK_STATUS_LOCK_A _ (by decide) rfl⟩
  · exact ⟨(Engine.flag_setFlag_beside _ R.CLK_STATUS_LOCK_B R.CLK_STATUS_ACTIVE _ rfl (by decide)).trans hactive, Engine.flag_setFlag_same _ R.CLK_STATUS_LOCK_B _ (by decide) rfl⟩

/-- The causes of the settle are logged with its first cycle. -/
def Engine.causesLogged (m : Engine) (first : Tb) : Engine :=
  { (m.recordCause ⟨9, 0, 5⟩ first).causes.foldl (fun m c => m.recordCause c first) (m.recordCause ⟨9, 0, 5⟩ first) with causes := [] }

/-- The ring hears of the settle, the drains pause and the outputs start anew. -/
def Engine.settleTold (m : Engine) : Engine :=
  let m := (m.sendSettle 9 (m.reg64 R.SAFE_SETTLE_TB_LO)).drainsStop
  forEach 2 (fun o m => if (m.dsp o).running && !(m.dsp o).cloning then m.dispRestart o else m) m

/-- The engine that the return of the headrace leaves. -/
def Engine.headraceBack (m : Engine) (b : Bool) (elapsed : Nat) : Engine :=
  let m := (m.clocksBack b elapsed).dropPipe.settleDisarm.storageGone
  (m.causesLogged (tbOfCycle m.nextCycle)).rotaHalt.settleTold.cisInit.drainsPause

theorem Chip.headraceResume_eq {c : Chip} (h : c.eng.lost = true) (b : Bool) (elapsed : Nat) : c.headraceResume b elapsed = { c with eng := c.eng.headraceBack b elapsed } := by
  refine (if_neg ?_).trans rfl
  simp [h]

theorem Chip.headraceResume_of_not_lost {c : Chip} (h : c.eng.lost = false) (b : Bool) (elapsed : Nat) : c.headraceResume b elapsed = c := by
  refine if_pos ?_
  simp [h]

theorem within_causesLogged (first : Tb) (h : partsIn [.of .safeB] l = true) : Engine.Within l m (m'.causesLogged first) ↔ Engine.Within l m m' := by
  refine Engine.Within.step (k := [.of .safeB]) ?_ h
  unfold Engine.causesLogged
  simp only [↓within_update, and_self, or_true]
  rw [within_fold _ fun x c _ => by simp +decide, within_recordCause _ _ (by decide)]
  exact .refl _ _

theorem within_settleTold (h : partsIn [.links] l = true) : Engine.Within l m m'.settleTold ↔ Engine.Within l m m' := by
  refine Engine.Within.step (k := [.links]) ?_ h
  unfold Engine.settleTold
  dsimp only
  rw [within_loop fun o _ x => by simp, within_drainsStop, within_sendSettle _ _ (by decide)]
  exact .refl _ _

/-! What the return shows. -/

/-- The clocks are back: which PLL is the active one, and time (R20). -/
theorem Engine.clocksBack_shows (m : Engine) (b : Bool) (elapsed : Nat) :
    (m.clocksBack b elapsed).running = true ∧ (m.clocksBack b elapsed).lost = false ∧ (m.clocksBack b elapsed).flag R.CLK_STATUS_ACTIVE = b ∧
      (m.clocksBack b elapsed).flag (lockFlag b) = true ∧ (m.clocksBack b elapsed).tb = m.reg64 R.TB_DAM_TB_LO + 96 * BitVec.ofNat 64 elapsed ∧
      (m.clocksBack b elapsed).reg64 R.TB_DAM_ELAPSED_LO = BitVec.ofNat 64 elapsed ∧ (m.clocksBack b elapsed).flag R.TB_STATUS_DAMREC = true := by
  have hclk : R.CLK_STATUS ∉ [R.TB_DAM_ELAPSED_LO, R.TB_DAM_ELAPSED_LO + 4, R.TB_STATUS, statusAddr 6] := by decide
  obtain ⟨hactive, hlock⟩ := m.flag_pllBack b
  refine ⟨Engine.tbReturns_running _ _, Engine.tbReturns_lost _ _, ?_, ?_, ?_, Engine.elapsed_tbReturns _ _, Engine.damrec_tbReturns _ _⟩
  · exact (Engine.flag_of_reg (f := R.CLK_STATUS_ACTIVE) (Engine.reg_tbReturns_off _ _ hclk)).trans hactive
  · exact (Engine.flag_of_reg (f := lockFlag b) (Engine.reg_tbReturns_off _ _ (lockFlag_addr b ▸ hclk))).trans hlock
  · refine (Engine.tbReturns_tb _ _).trans ?_
    rw [Engine.reg64_of_reg (Engine.reg_pllBack_ne m b (by decide)) (Engine.reg_pllBack_ne m b (by decide))]

/-- The parts that change once the path is empty. -/
def backParts : List Part := settleParts ++ endParts ++ [.of .safeB] ++ haltParts ++ [.links, .of .cisB, .of .cispB, .of .drainB]

/-- The parts that change after the engine is settled, the rota's aside. -/
def quietParts : List Part := [.links, .of .cisB, .of .cispB, .of .drainB]

section Back
variable (m : Engine) (b : Bool) (elapsed : Nat)

theorem Engine.within_headraceBack : Engine.Within backParts (m.clocksBack b elapsed).dropPipe (m.headraceBack b elapsed) := by
  unfold Engine.headraceBack
  dsimp only
  rw [within_drainsPause (by decide), within_cisInit (by decide), within_settleTold (by decide), within_rotaHalt (by decide), within_causesLogged _ (by decide),
    within_storageGone (by decide), within_settleDisarm (by decide)]
  exact .refl _ _

theorem Engine.armed_headraceBack : (m.headraceBack b elapsed).armed = false := by
  unfold Engine.headraceBack
  dsimp only
  have hquiet : ∀ x : Engine, Engine.Within quietParts x x.settleTold.cisInit.drainsPause := fun x => by
    rw [within_drainsPause (by decide), within_cisInit (by decide), within_settleTold (by decide)]
    exact .refl _ _
  have hstore : ∀ x : Engine, ∀ first, Engine.Within (.of .safeB :: endParts) x (x.storageGone.causesLogged first) := fun x first => by
    rw [within_causesLogged _ (by decide), within_storageGone (by decide)]
    exact .refl _ _
  exact ((hquiet _).flag (f := R.SYS_STATUS_ARMED) (by decide)).trans ((Engine.armed_rotaHalt _).trans (((hstore _ _).flag (f := R.SYS_STATUS_ARMED) (by decide)).trans (Engine.armed_settleDisarm _)))

/-- A descriptor's status is no register of what follows the settle. -/
theorem segStatus_quiet {g : Nat} (hg : g < 256) : inParts ([.of .safeB] ++ haltParts ++ quietParts) (R.SEG_STATUS_STATE g).addr = false := by
  have hpages : ∀ q < 4, ∀ r < 64, inParts ([.of .safeB] ++ haltParts ++ quietParts) (0xA9000 + 0x1000 * q + 0x40 + 0x3C * r + 0x18) = false := by decide
  exact hpages (g / 64) (by omega) (g % 64) (by omega)

theorem Engine.segState_headraceBack {g : Nat} (hg : g < 256) : (m.headraceBack b elapsed).fld (R.SEG_STATUS_STATE g) = 0 := by
  unfold Engine.headraceBack
  dsimp only
  have hrest : ∀ x : Engine, ∀ first, Engine.Within ([.of .safeB] ++ haltParts ++ quietParts) x (x.causesLogged first).rotaHalt.settleTold.cisInit.drainsPause := fun x first => by
    rw [within_drainsPause (by decide), within_cisInit (by decide), within_settleTold (by decide), within_rotaHalt (by decide), within_causesLogged _ (by decide)]
    exact .refl _ _
  exact ((hrest _ _).fld (segStatus_quiet hg)).trans (Engine.segState_storageGone _ hg)

theorem Engine.cisState_headraceBack : (m.headraceBack b elapsed).cisState = 0 := by
  unfold Engine.headraceBack
  dsimp only
  have hpause : ∀ x : Engine, Engine.Within [.of .drainB] x x.drainsPause := fun x => (within_drainsPause (by decide)).2 (.refl _ _)
  exact ((hpause _).fld (f := R.CIS_STATUS_STATE) (by decide)).trans (Engine.cisState_cisInit _)

theorem Engine.headraceBack_shows :
    (m.headraceBack b elapsed).running = true ∧ (m.headraceBack b elapsed).lost = false ∧ (m.headraceBack b elapsed).flag R.CLK_STATUS_ACTIVE = b ∧
      (m.headraceBack b elapsed).flag (lockFlag b) = true ∧
      (m.headraceBack b elapsed).tb = m.reg64 R.TB_DAM_TB_LO + 96 * BitVec.ofNat 64 elapsed ∧ (m.headraceBack b elapsed).reg64 R.TB_DAM_ELAPSED_LO = BitVec.ofNat 64 elapsed ∧
      (m.headraceBack b elapsed).flag R.TB_STATUS_DAMREC = true ∧ (m.headraceBack b elapsed).path.pipe = [] := by
  obtain ⟨hrun, hlost, hactive, hlock, htb, helapsed, hrec⟩ := m.clocksBack_shows b elapsed
  have hw := m.within_headraceBack b elapsed
  have hdrop : ∀ a, a ≠ R.SLU_STATUS → inParts backParts a = false → (m.headraceBack b elapsed).reg a = (m.clocksBack b elapsed).reg a := fun a ha hb =>
    (hw.reg a hb).trans (Engine.reg_dropPipe ha)
  refine ⟨hw.running.trans hrun, hw.lost.trans hlost, ?_, ?_, hw.tb.trans htb, ?_, ?_, (hw.pipe (by decide)).trans (Engine.pipe_dropPipe _)⟩
  · exact (Engine.flag_of_reg (f := R.CLK_STATUS_ACTIVE) (hdrop _ (by decide) (by decide))).trans hactive
  · exact (Engine.flag_of_reg (hdrop _ (lockFlag_addr b ▸ by decide) (lockFlag_addr b ▸ by decide))).trans hlock
  · exact (Engine.reg64_of_reg (hdrop _ (by decide) (by decide)) (hdrop _ (by decide) (by decide))).trans helapsed
  · exact (Engine.flag_of_reg (f := R.TB_STATUS_DAMREC) (hdrop _ (by decide) (by decide))).trans hrec

theorem Engine.stalled_headraceBack : (m.headraceBack b elapsed).mgt.stalled = m.mgt.stalled := by
  have hdrop : (m.clocksBack b elapsed).dropPipe.mgt = m.mgt := Engine.status_mgt _ R.E_TB_DAM_RECOVERED
  exact (m.within_headraceBack b elapsed).stalled.trans (congrArg MgtState.stalled hdrop)

end Back

/-- The engine that the return of the headrace leaves, once no write waits for the clocks. -/
def Engine.unstalled (m : Engine) : Engine := m.setMgt { m.mgt with stalled := [] }

/-- With no command that waits for the clocks, nothing is left to do once they run. -/
theorem Chip.unstall_of_none {c : Chip} (hlost : c.eng.lost = false) (hnone : c.eng.mgt.stalled = []) : c.unstall = { c with eng := c.eng.unstalled } := by
  unfold Chip.unstall
  rw [hlost, hnone]
  rfl

/-- Settles O16: the loss is a chain of operations on registers beside each other; the return is one on parts beside each other. -/
theorem headraceLossAndReturn : Obligations.HeadraceLossAndReturn := by
  unfold Obligations.HeadraceLossAndReturn
  refine ⟨fun s hrun hred => ?lossCase, fun s b elapsed hlost hstall => ?backCase, fun s b elapsed hlost => ?noneCase⟩
  case lossCase =>
    obtain ⟨hstop, hlost, horders, hpulses, htb, hsettled⟩ := Engine.headraceLost_shows hrun hred
    have hoff : ∀ a, a ∉ settleRegs → s.eng.headraceLost.reg a = s.eng.clocksStop.reg a := fun a ha => Engine.reg_headraceLost_beside hrun hred ha
    obtain ⟨hlockA, hlockB⟩ := s.eng.flag_clocksStop_locks
    refine State.ends_clocked Engine.headraceLost hrun ⟨hstop, hlost, ?_, hsettled, ?_, horders, hpulses, ?_, ?_, Engine.headraceLost_settles hrun hred, State.kept_withEng (fun a ha => ?_) htb⟩
    · exact (Engine.reg64_of_reg (hoff _ (by decide)) (hoff _ (by decide))).trans s.eng.reg64_clocksStop
    · exact (congrArg (bitAt · 8) (Engine.fld_of_reg (f := R.SAFE_CAUSES_CAUSE) (hoff _ (by decide)))).trans s.eng.bitAt_clocksStop_cause
    · exact (Engine.flag_of_reg (f := R.CLK_STATUS_LOCK_A) (hoff _ (by decide))).trans hlockA
    · exact (Engine.flag_of_reg (f := R.CLK_STATUS_LOCK_B) (hoff _ (by decide))).trans hlockB
    · exact (Engine.reg_headraceLost_off ha hrun hred (by decide)).trans (Engine.reg_clocksStop_off ha _ (by decide))
  case backCase =>
    obtain ⟨hrun, hback, hactive, hlock, htb, helapsed, hrec, hpipe⟩ := s.eng.headraceBack_shows b elapsed
    have hnone : (s.eng.headraceBack b elapsed).mgt.stalled = [] := (s.eng.stalled_headraceBack b elapsed).trans hstall
    have hchip : (s.chip.headraceResume b elapsed).unstall = { s.chip with eng := (s.eng.headraceBack b elapsed).unstalled } := by
      have hres : s.chip.headraceResume b elapsed = { s.chip with eng := s.eng.headraceBack b elapsed } := Chip.headraceResume_eq (c := s.chip) hlost b elapsed
      rw [hres]
      generalize s.eng.headraceBack b elapsed = back at *
      exact Chip.unstall_of_none hback hnone
    have harmed := s.eng.armed_headraceBack b elapsed
    have hseg : ∀ g : Fin 256, (s.eng.headraceBack b elapsed).fld (R.SEG_STATUS_STATE g) = 0 := fun g => s.eng.segState_headraceBack b elapsed g.isLt
    have hcis := s.eng.cisState_headraceBack b elapsed
    rw [exec, execHeadraceResume, hchip]
    generalize s.eng.headraceBack b elapsed = back at *
    exact ⟨_, rfl, hrun, hback, hactive, hlock, htb, helapsed, hrec, harmed, hpipe, hseg, hcis, rfl, rfl⟩
  case noneCase =>
    exact congrArg (fun c => s.put c.unstall) (Chip.headraceResume_of_not_lost hlost b elapsed)

end Sys2Proof.Machine
end

section
/-! SUPPORT. What a sample cycle does before its tick leaves time as it is: the intakes, the path and the tables. -/
namespace Sys2Proof.Machine
open Sys2Proof

variable {l : List Part} {m m' : Engine}

@[simp] theorem within_draw : Engine.Within l m m'.draw.2 ↔ Engine.Within l m m' := by
  refine Engine.Within.step_self ?_
  unfold Engine.draw
  simp [↓within_update]

/-! The intakes. -/

@[simp] theorem within_windowEnd : Engine.Within l m m'.windowEnd ↔ Engine.Within l m m' := by
  refine Engine.Within.step_self ?_
  simp [Engine.windowEnd, ↓within_update]

@[simp] theorem within_setTimed (n g : Nat) (x : TimedGauge) : Engine.Within l m (m'.setTimed n g x) ↔ Engine.Within l m m' := by
  refine Engine.Within.step_self ?_
  simp [Engine.setTimed]

@[simp] theorem steady_xLimit (n line : Nat) : Engine.Within [.any] m (m'.xLimit n line) ↔ Engine.Within [.any] m m' := by
  refine Engine.Within.step_self ?_
  unfold Engine.xLimit
  dsimp only
  split
  · exact .refl _ _
  · simp only [within_log, within_ite, within_status, within_orReg, within_setIntake, inParts_any, implies_true, and_self, Engine.Within.refl]

theorem steady_threshSwap {n : Nat} (hn : n < 48) (off : Nat) (b : Bool) : Engine.Within [.any] m (m'.threshSwap n off b) ↔ Engine.Within [.any] m m' := by
  refine Engine.Within.step_self ?_
  unfold Engine.threshSwap
  dsimp only
  split <;> simp [within_changeSet hn, within_disturb hn]

@[simp] theorem steady_calDone (n : Nat) : Engine.Within [.any] m (m'.calDone n) ↔ Engine.Within [.any] m m' := by
  refine Engine.Within.step_self ?_
  simp [Engine.calDone]

@[simp] theorem steady_calTimeout (n : Nat) : Engine.Within [.any] m (m'.calTimeout n) ↔ Engine.Within [.any] m m' := by
  refine Engine.Within.step_self ?_
  simp [Engine.calTimeout]

@[simp] theorem steady_eyeDone (n : Nat) : Engine.Within [.any] m (m'.eyeDone n) ↔ Engine.Within [.any] m m' := by
  refine Engine.Within.step_self ?_
  simp [Engine.eyeDone]

@[simp] theorem steady_eyeTimeout (n : Nat) : Engine.Within [.any] m (m'.eyeTimeout n) ↔ Engine.Within [.any] m m' := by
  refine Engine.Within.step_self ?_
  simp [Engine.eyeTimeout]

/-! The gauges. -/

/-- The registers of an intake's gauges. -/
theorem blockAt_rug {n a : Nat} (hn : n < 48) (hlo : 0x41000 + 0x2000 * n ≤ a) (hhi : a < 0x42000 + 0x2000 * n) : blockAt a = some .rugB := by
  have hpage : a / 0x1000 = 0x41 + 2 * n := by omega
  have h4 : ¬(0x41 + 2 * n < 4) := by omega
  have h10 : ¬(0x41 + 2 * n < 0x10) := by omega
  have h40 : ¬(0x41 + 2 * n < 0x40) := by omega
  have hA0 : 0x41 + 2 * n < 0xA0 := by omega
  have hodd : ¬((0x41 + 2 * n) % 2 = 0) := by omega
  simp only [blockAt, pageOf, hpage, if_neg h4, if_neg h10, if_neg h40, if_pos hA0, if_neg hodd]
  rfl

section Gauges
variable {n g : Nat} (hn : n < 48) (hg : g < 4)
include hn

/-- A register on the page of an intake's gauges. -/
theorem inParts_rug {a : Nat} (hlo : 0x41000 + 0x2000 * n ≤ a) (hhi : a < 0x42000 + 0x2000 * n) (hl : l.contains (.of .rugB) = true) : inParts l a = true :=
  inParts_of_block (blockAt_rug hn hlo hhi) hl

include hg

theorem within_countGauge (h : partsIn [.of .rugB] l = true) : Engine.Within l m (m'.countGauge n g) ↔ Engine.Within l m m' := by
  refine Engine.Within.step (k := [.of .rugB]) ?_ h
  have hlo : inParts [.of .rugB] (R.RUG_CNT_LO n g) = true := inParts_rug hn (by simp only [R.RUG_CNT_LO]; omega) (by simp only [R.RUG_CNT_LO]; omega) rfl
  have hhi : inParts [.of .rugB] (R.RUG_CNT_LO n g + 4) = true := inParts_rug hn (by simp only [R.RUG_CNT_LO]; omega) (by simp only [R.RUG_CNT_LO]; omega) rfl
  have hst : inParts [.of .rugB] (R.RUG_STATUS n) = true := inParts_rug hn (by simp only [R.RUG_STATUS]; omega) (by simp only [R.RUG_STATUS]; omega) rfl
  have hpage : inParts [.of .rugB] (statusAddr (R.E_RUG_SAT n).page) = true :=
    inParts_rug hn (by simp only [statusAddr, R.E_RUG_SAT]; omega) (by simp only [statusAddr, R.E_RUG_SAT]; omega) rfl
  simp [Engine.countGauge, hlo, hhi, hst, hpage]

theorem within_decisionHit (p : Nat) (t : Tb) (h : partsIn [.of .rugB] l = true) : Engine.Within l m (m'.decisionHit n g p t) ↔ Engine.Within l m m' := by
  refine Engine.Within.step (k := [.of .rugB]) ?_ h
  have hlo : inParts [.of .rugB] (R.RUG_HIT_TB_LO n g) = true := inParts_rug hn (by simp only [R.RUG_HIT_TB_LO]; omega) (by simp only [R.RUG_HIT_TB_LO]; omega) rfl
  have hhi : inParts [.of .rugB] (R.RUG_HIT_TB_LO n g + 4) = true := inParts_rug hn (by simp only [R.RUG_HIT_TB_LO]; omega) (by simp only [R.RUG_HIT_TB_LO]; omega) rfl
  simp +decide [Engine.decisionHit, within_countGauge hn hg, hlo, hhi]

theorem within_longHit (h : partsIn [.of .rugB] l = true) : Engine.Within l m (m'.longHit n g) ↔ Engine.Within l m m' := by
  refine Engine.Within.step (k := [.of .rugB]) ?_ h
  unfold Engine.longHit
  dsimp only
  split
  · exact .refl _ _
  · rw [within_decisionHit hn hg _ _ (by decide), within_setTimed]
    exact .refl _ _

theorem within_expiry (h : partsIn [.of .rugB] l = true) : Engine.Within l m (m'.expiry n g) ↔ Engine.Within l m m' := by
  refine Engine.Within.step (k := [.of .rugB]) ?_ h
  unfold Engine.expiry
  dsimp only
  split
  · exact .refl _ _
  · rw [within_decisionHit hn hg _ _ (by decide), within_setTimed]
    exact .refl _ _

theorem within_settleDue (h : partsIn [.of .rugB] l = true) : Engine.Within l m (m'.settleDue n g) ↔ Engine.Within l m m' := by
  refine Engine.Within.step (k := [.of .rugB]) ?_ h
  unfold Engine.settleDue
  dsimp only
  rw [within_fold _ fun x _ _ => (within_expiry hn hg (by decide)).2 (.refl _ _), within_fold _ fun x _ _ => (within_longHit hn hg (by decide)).2 (.refl _ _)]
  exact .refl _ _

end Gauges

/-! The settle's causes and the interrupts. -/

@[simp] theorem within_cause (code data page : Nat) : Engine.Within l m (m'.cause code data page) ↔ Engine.Within l m m' := by
  refine Engine.Within.step_self ?_
  simp [Engine.cause, ↓within_update]

theorem steady_irq (t : Tb) (data : Nat) : Engine.Within [.any] m (m'.irq t data) ↔ Engine.Within [.any] m m' := by
  refine Engine.Within.step_self ?_
  simp only [Engine.irq, within_ite, within_update, within_status, within_addSat, partsIn_any, inParts_any, true_or, implies_true, and_self, Engine.Within.refl]

@[simp] theorem steady_irqPass : Engine.Within [.any] m m'.irqPass ↔ Engine.Within [.any] m m' := by
  refine Engine.Within.step_self ?_
  unfold Engine.irqPass
  split <;> simp [↓within_update]

@[simp] theorem steady_dueCause : Engine.Within [.any] m m'.dueCause ↔ Engine.Within [.any] m m' := by
  refine Engine.Within.step_self ?_
  simp [Engine.dueCause, within_fold, ↓within_update]

/-! The path. -/

@[simp] theorem steady_idleStep (t : Memory) (e : PipeEntry) : Engine.Within [.any] m (m'.idleStep t e) ↔ Engine.Within [.any] m m' := by
  refine Engine.Within.step_self ?_
  unfold Engine.idleStep
  dsimp only
  split <;> simp [↓within_update]

@[simp] theorem steady_markStepped (p : Nat) : Engine.Within [.any] m (m'.markStepped p) ↔ Engine.Within [.any] m m' := by
  refine Engine.Within.step_self ?_
  simp [Engine.markStepped, ↓within_update]

@[simp] theorem steady_formed (p : Nat) (c : ConfOut) : Engine.Within [.any] m (m'.formed p c) ↔ Engine.Within [.any] m m' := by
  refine Engine.Within.step_self ?_
  simp [Engine.formed, ↓within_update]

@[simp] theorem steady_tableSwap (p : Nat) (s : Bool) (arg : Nat) : Engine.Within [.any] m (m'.tableSwap p s arg) ↔ Engine.Within [.any] m m' := by
  refine Engine.Within.step_self ?_
  simp [Engine.tableSwap, ↓within_update]

@[simp] theorem steady_sluiceJump (p arg : Nat) : Engine.Within [.any] m (m'.sluiceJump p arg) ↔ Engine.Within [.any] m m' := by
  refine Engine.Within.step_self ?_
  simp [Engine.sluiceJump, ↓within_update]

@[simp] theorem steady_rotaEvent (p bit op : Nat) : Engine.Within [.any] m (m'.rotaEvent p bit op) ↔ Engine.Within [.any] m m' := by
  refine Engine.Within.step_self ?_
  simp [Engine.rotaEvent, ↓within_update]

/-- A fold that carries a result beside the engine, each pass of which stays within the parts. -/
theorem within_pairFold {α β : Type} {f : Engine × β → α → Engine × β} (xs : List α) (h : ∀ s a, a ∈ xs → Engine.Within l s.1 (f s a).1) (s : Engine × β) :
    Engine.Within l s.1 (xs.foldl f s).1 := by
  induction xs generalizing s with
  | nil => exact .refl _ _
  | cons a xs ih => exact (h s a (by simp)).trans (ih (fun s b hb => h s b (by simp [hb])) _)

/-! Words of the tanks. -/

@[simp] theorem steady_tankEcc (ecc : Ecc) (tank word : Nat) : Engine.Within [.any] m (m'.tankEcc ecc tank word) ↔ Engine.Within [.any] m m' := by
  refine Engine.Within.step_self ?_
  unfold Engine.tankEcc
  cases ecc <;> simp

@[simp] theorem within_setWordError (w : Nat) (e : Ecc) : Engine.Within l m (m'.setWordError w e) ↔ Engine.Within l m m' := by
  refine Engine.Within.step_self ?_
  simp [Engine.setWordError, ↓within_update]

@[simp] theorem steady_wordRead (w : Nat) (met : Ecc) : Engine.Within [.any] m (m'.wordRead w met).1 ↔ Engine.Within [.any] m m' := by
  refine Engine.Within.step_self ?_
  simp [Engine.wordRead]

@[simp] theorem steady_wordsRead (ws : List Nat) : Engine.Within [.any] m (m'.wordsRead ws).1 ↔ Engine.Within [.any] m m' := by
  refine Engine.Within.step_self ?_
  unfold Engine.wordsRead
  split
  · exact .refl _ _
  · refine within_pairFold ws (fun s w _ => ?_) (m', false)
    exact (steady_wordRead w .good).2 (.refl _ _)

@[simp] theorem steady_wake (g : Nat) : Engine.Within [.any] m (m'.wake g) ↔ Engine.Within [.any] m m' := by
  refine Engine.Within.step_self ?_
  simp only [Engine.wake, Engine.draw, within_ite, within_update, within_setFld, partsIn_any, inParts_any, true_or, implies_true, and_self, Engine.Within.refl]

@[simp] theorem steady_wakesDone : Engine.Within [.any] m m'.wakesDone ↔ Engine.Within [.any] m m' := by
  refine Engine.Within.step_self ?_
  simp [Engine.wakesDone, within_fold, ↓within_update]

@[simp] theorem steady_touchGroup (g : Nat) : Engine.Within [.any] m (m'.touchGroup g) ↔ Engine.Within [.any] m m' := by
  refine Engine.Within.step_self ?_
  simp [Engine.touchGroup, ↓within_update]

@[simp] theorem steady_entryMeets (w : Nat) (ecc : Ecc) : Engine.Within [.any] m (m'.entryMeets w ecc) ↔ Engine.Within [.any] m m' := by
  refine Engine.Within.step_self ?_
  unfold Engine.entryMeets
  split <;> simp

@[simp] theorem steady_tablesRead (s acts : Bool) (ws : List Nat) : Engine.Within [.any] m (m'.tablesRead s acts ws) ↔ Engine.Within [.any] m m' := by
  refine Engine.Within.step_self ?_
  unfold Engine.tablesRead
  dsimp only
  split <;> simp

end Sys2Proof.Machine
end

section
/-! SUPPORT. What a sample cycle does before its tick leaves time as it is: the steps, the store gate, and arming. -/
namespace Sys2Proof.Machine
open Sys2Proof

variable {l : List Part} {m m' : Engine}

theorem steady_sluiceStep (t : Memory) (e : PipeEntry) : Engine.Within [.any] m (m.sluiceStep t e).m := by
  unfold Engine.sluiceStep
  extract_lets s sChanged c l ent src trig gateact flu seg pairOf
  split
  split
  extract_lets m1 m2 m3
  have hlimits : Engine.Within [.any] m m2 := by
    simp only [m2, m1, within_ite, within_status, inParts_any, implies_true, and_self, Engine.Within.refl]
  clear_value m2 m1
  split
  extract_lets tbp m4 m5 m6 m7 m8 m9 trigd j nxt changed a b m10 m11 dwell m12 at_ old cmpv x flushed m13 reads dec q
  have htrig : Engine.Within [.any] m2 m6 := by
    simp only [m6, m5, m4, m3, within_ite, within_status, within_update, within_setReg, within_setReg64, within_addSat, inParts_any, partsIn_any, true_or, implies_true, and_self, Engine.Within.refl]
  clear_value m6 m5 m4 m3
  have hseen : Engine.Within [.any] m6 m9 := by
    simp only [m9, m8, m7, within_ite, within_orReg, steady_irq, inParts_any, implies_true, and_self, Engine.Within.refl]
  clear_value m9 m8 m7
  have hlevel : Engine.Within [.any] m9 m13 := by
    simp only [m13, m12, m11, m10, within_ite, within_status, within_setReg64, within_setLevel, within_broadcast, inParts_any, partsIn_any, implies_true, and_self, Engine.Within.refl]
  clear_value q reads flushed x cmpv old at_ dwell m13 m12 m11 m10
  refine (hlimits.trans (htrig.trans (hseen.trans hlevel))).trans ?_
  simp only [within_update, partsIn_any, true_or, and_self, Engine.Within.refl]

/-! The steps and the store gate. -/

@[simp] theorem steady_storeGate : Engine.Within [.any] m m'.storeGate ↔ Engine.Within [.any] m m' := by
  refine Engine.Within.step_self ?_
  unfold Engine.storeGate
  split
  · exact .refl _ _
  · simp only [within_ite, within_setStore, within_update, within_snapTake, within_gateDue, within_storeCycle, within_endCapture, partsIn_any, true_or, implies_true, and_self, Engine.Within.refl]

theorem steady_weirDown {n : Nat} (hn : n < 48) : Engine.Within [.any] m (m'.weirDown n) ↔ Engine.Within [.any] m m' := by
  refine Engine.Within.step_self ?_
  simp [Engine.weirDown, within_weirStep hn]

theorem steady_weirUp {n : Nat} (hn : n < 48) : Engine.Within [.any] m (m'.weirUp n) ↔ Engine.Within [.any] m m' := by
  refine Engine.Within.step_self ?_
  simp [Engine.weirUp, within_weirStep hn]

@[simp] theorem steady_ownRecord (n bits tick : Nat) (alone : Bool) : Engine.Within [.any] m (m'.ownRecord n bits tick alone) ↔ Engine.Within [.any] m m' := by
  refine Engine.Within.step_self ?_
  simp [Engine.ownRecord, ↓within_update]

@[simp] theorem steady_sendEv (s : Side) (r : EvRec) : Engine.Within [.any] m (m'.sendEv s r) ↔ Engine.Within [.any] m m' := by
  refine Engine.Within.step_self ?_
  simp [Engine.sendEv]

@[simp] theorem steady_originate (n bits tick : Nat) (alone : Bool) : Engine.Within [.any] m (m'.originate n bits tick alone) ↔ Engine.Within [.any] m m' := by
  refine Engine.Within.step_self ?_
  simp [Engine.originate]

@[simp] theorem within_damCause (code : Nat) (t : Tb) (h : partsIn [.dam] l = true) : Engine.Within l m (m'.damCause code t) ↔ Engine.Within l m m' := by
  refine Engine.Within.step (k := [.dam]) ?_ h
  simp +decide [Engine.damCause]

@[simp] theorem steady_stepOnce (t : Memory) (ecc : Ecc) : Engine.Within [.any] m (m'.stepOnce t ecc) ↔ Engine.Within [.any] m m' := by
  refine Engine.Within.step_self ?_
  unfold Engine.stepOnce
  split
  · exact .refl _ _
  · have hstep : ∀ (x y : Engine) (e : PipeEntry), Engine.Within [.any] x (y.sluiceStep t e).m ↔ Engine.Within [.any] x y := fun x y e => Engine.Within.step_self (steady_sluiceStep t e)
    simp only [within_ite, within_damCause, steady_originate, steady_markStepped, steady_tablesRead, hstep, steady_entryMeets, steady_idleStep, within_setFlag, steady_formed, inParts_any, partsIn_any, implies_true, and_self, Engine.Within.refl]

@[simp] theorem steady_pipeCatch (t : Memory) (k : Nat) : Engine.Within [.any] m (Engine.pipeCatch t k m') ↔ Engine.Within [.any] m m' := by
  induction k generalizing m' with
  | zero => exact .rfl
  | succ k ih =>
    simp only [Engine.pipeCatch]
    split
    · simp
    · simp [ih]

@[simp] theorem steady_pipeNow (t : Memory) : Engine.Within [.any] m (m'.pipeNow t) ↔ Engine.Within [.any] m m' := steady_pipeCatch _ _

/-! Settling. -/

@[simp] theorem steady_gateCancel : Engine.Within [.any] m m'.gateCancel ↔ Engine.Within [.any] m m' := by
  refine Engine.Within.step_self ?_
  simp [Engine.gateCancel, ↓within_update]

@[simp] theorem steady_dispSettle : Engine.Within [.any] m m'.dispSettle ↔ Engine.Within [.any] m m' := by
  refine Engine.Within.step_self ?_
  simp [Engine.dispSettle, within_loop]

@[simp] theorem steady_drainsSettle : Engine.Within [.any] m m'.drainsSettle ↔ Engine.Within [.any] m m' := by
  refine Engine.Within.step_self ?_
  unfold Engine.drainsSettle
  refine within_forEach fun d hd x => ?_
  simp [within_drainPaused hd]

@[simp] theorem steady_enterSettled (t : Memory) : Engine.Within [.any] m (m'.enterSettled t) ↔ Engine.Within [.any] m m' := by
  refine Engine.Within.step_self ?_
  simp only [Engine.enterSettled, steady_drainsSettle, steady_dispSettle, within_sendSettle, steady_gateCancel, within_update, within_endCapture, within_settleDisarm, within_status, within_addSat,
    within_setReg64, within_setFld, within_setFlag, steady_pipeNow, inParts_any, partsIn_any, true_or, and_self, Engine.Within.refl]

@[simp] theorem steady_settle (t : Memory) : Engine.Within [.any] m (m'.settle t) ↔ Engine.Within [.any] m m' := by
  refine Engine.Within.step_self ?_
  unfold Engine.settle
  dsimp only
  have hfold : ∀ (x y : Engine) (cs : List Cause) (tb : Engine → Tb), Engine.Within [.any] x (cs.foldl (fun m c => m.recordCause c (tb m)) y) ↔ Engine.Within [.any] x y := fun x y cs tb =>
    within_fold cs fun z c _ => (within_recordCause c _ (by simp)).2 (.refl _ _)
  split_ifs
  · exact .refl _ _
  · exact within_foldl _ fun x c _ => (within_setFld _ (by simp)).2 (.refl _ _)
  · simp only [within_update, hfold (tb := fun m => tbOfCycle m.cycle), partsIn_any, true_or, and_self, Engine.Within.refl]
  · simp only [within_update, hfold (tb := fun m => tbOfCycle m.cycle), steady_enterSettled, partsIn_any, true_or, and_self, Engine.Within.refl]

/-! Arming. -/

@[simp] theorem steady_rotaLate (a : RotaAct) (t : Tb) : Engine.Within [.any] m (m'.rotaLate a t) ↔ Engine.Within [.any] m m' := by
  refine Engine.Within.step_self ?_
  simp [Engine.rotaLate]

@[simp] theorem steady_rotaSkip (a : RotaAct) : Engine.Within [.any] m (m'.rotaSkip a) ↔ Engine.Within [.any] m m' := by
  refine Engine.Within.step_self ?_
  simp [Engine.rotaSkip]

@[simp] theorem steady_armPass (r : ArmReq) : Engine.Within [.any] m (m'.armPass r) ↔ Engine.Within [.any] m m' := by
  refine Engine.Within.step_self ?_
  unfold Engine.armPass
  split <;> simp only [within_ite, within_update, within_armReport, within_armDrop, steady_rotaSkip, steady_rotaLate, partsIn_any, true_or, implies_true, and_self, Engine.Within.refl]

/-- The budget shown is that of the last check. -/
theorem steady_budgetShown (total : Option Nat) :
    Engine.Within [.any] m (match total with | none => m | some t => (m.setReg R.SYS_BUDGET_LO (BitVec.ofNat 32 t)).setFld R.SYS_BUDGET_HI_LIMIT m.budgetLimit) := by
  split <;> simp

@[simp] theorem steady_armChecks : Engine.Within [.any] m m'.armChecks ↔ Engine.Within [.any] m m' := by
  refine Engine.Within.step_self ?_
  have hrefuse : ∀ x y : Engine, ∀ a b : Nat, Engine.Within [.any] x (y.armRefuse a b) ↔ Engine.Within [.any] x y := fun _ _ _ _ => within_armRefuse _ _ (by simp)
  unfold Engine.armChecks
  split
  · exact .refl _ _
  · next r _ =>
    split
    · exact .refl _ _
    split
    · exact (hrefuse _ _ _ _).2 (.refl _ _)
    split
    · exact (hrefuse _ _ _ _).2 (.refl _ _)
    split
    · exact (hrefuse _ _ _ _).2 (.refl _ _)
    dsimp only
    split
    · simp only [within_update, within_verify, partsIn_any, true_or, and_self, Engine.Within.refl]
    split
    · exact .refl _ _
    split
    · exact (hrefuse _ _ _ _).2 (.refl _ _)
    split
    · exact (hrefuse _ _ _ _).2 (steady_budgetShown _)
    split
    · exact (hrefuse _ _ _ _).2 (steady_budgetShown _)
    · exact (steady_armPass _).2 (steady_budgetShown _)

@[simp] theorem steady_armRequest (src : Nat) (act : Option RotaAct) : Engine.Within [.any] m (m'.armRequest src act) ↔ Engine.Within [.any] m m' := by
  refine Engine.Within.step_self ?_
  have hlate : ∀ (x y : Engine) (ws : List RuWrite), Engine.Within [.any] x (ws.foldl (fun m w => m.holdLate w.addr w.new) y) ↔ Engine.Within [.any] x y := fun x y ws =>
    within_fold ws fun z w _ => (within_holdLate _ _ (by simp)).2 (.refl _ _)
  unfold Engine.armRequest
  cases act with
  | none => simp only [within_ite, within_armReport, steady_armChecks, within_setFlag, hlate, within_update, within_takeBack, inParts_any, partsIn_any, true_or, implies_true, and_self, Engine.Within.refl]
  | some a => simp only [within_ite, within_armReport, steady_armChecks, within_setFlag, hlate, within_update, within_takeBack, inParts_any, partsIn_any, true_or, implies_true, and_self, Engine.Within.refl]

@[simp] theorem steady_armEffect (t : Memory) (src : Nat) : Engine.Within [.any] m (m'.armEffect t src) ↔ Engine.Within [.any] m m' := by
  refine Engine.Within.step_self ?_
  rw [Engine.armEffect_eq, within_storeArm _ (by simp)]
  have hsets := (within_setsSelected ((m'.armBegun src).sluiceArm t (m'.cc + 1))).mono (partsIn_any _)
  have hslu : Engine.Within [.any] (m'.armBegun src) ((m'.armBegun src).sluiceArm t (m'.cc + 1)) := (within_sluiceArm _ _ (by simp)).2 (.refl _ _)
  exact ((within_armBegun m' src).mono (partsIn_any _)).trans (hslu.trans hsets)

@[simp] theorem steady_armNow (t : Memory) (src : Nat) : Engine.Within [.any] m (m'.armNow t src) ↔ Engine.Within [.any] m m' := by
  refine Engine.Within.step_self ?_
  unfold Engine.armNow
  split <;> simp [within_armRefuse]

@[simp] theorem steady_armingTakesEffect (t : Memory) : Engine.Within [.any] m (m'.armingTakesEffect t) ↔ Engine.Within [.any] m m' := by
  refine Engine.Within.step_self ?_
  unfold Engine.armingTakesEffect
  dsimp only
  split
  · simp
  · split
    · simp
    · split <;> simp

@[simp] theorem steady_disarmNow : Engine.Within [.any] m m'.disarmNow ↔ Engine.Within [.any] m m' := by
  refine Engine.Within.step_self ?_
  simp only [Engine.disarmNow, within_ite, within_status, within_setFlag, within_update, inParts_any, partsIn_any, true_or, implies_true, and_self, Engine.Within.refl]

end Sys2Proof.Machine
end

section
/-! SUPPORT. What a sample cycle does before its tick leaves time as it is: the rota, the ring's mode, the outputs, the log and the drains. -/
namespace Sys2Proof.Machine
open Sys2Proof

variable {l : List Part} {m m' : Engine}

/-! The rota. -/

@[simp] theorem steady_takeAct (a : RotaAct) : Engine.Within [.any] m (m'.takeAct a) ↔ Engine.Within [.any] m m' := by
  refine Engine.Within.step_self ?_
  simp [Engine.takeAct]

@[simp] theorem steady_place (a : RotaAct) : Engine.Within [.any] m (m'.place a) ↔ Engine.Within [.any] m m' := by
  refine Engine.Within.step_self ?_
  simp [Engine.place]

@[simp] theorem steady_placeOrSkip (a : RotaAct) : Engine.Within [.any] m (m'.placeOrSkip a) ↔ Engine.Within [.any] m m' := by
  refine Engine.Within.step_self ?_
  simp [Engine.placeOrSkip]

@[simp] theorem steady_loadRepeater (r : Nat) (a : RotaAct) : Engine.Within [.any] m (m'.loadRepeater r a) ↔ Engine.Within [.any] m m' := by
  refine Engine.Within.step_self ?_
  simp [Engine.loadRepeater]

theorem steady_repeaterCopy {r : Nat} (hr : r < 8) : Engine.Within [.any] m (m'.repeaterCopy r) ↔ Engine.Within [.any] m m' := by
  refine Engine.Within.step_self ?_
  unfold Engine.repeaterCopy
  split
  · exact .refl _ _
  · simp [within_stopRepeater hr]

@[simp] theorem steady_advanceHead : Engine.Within [.any] m m'.advanceHead ↔ Engine.Within [.any] m m' := by
  refine Engine.Within.step_self ?_
  simp only [Engine.advanceHead, within_ite, within_status, within_setRota, within_setFld, inParts_any, partsIn_any, true_or, implies_true, and_self, Engine.Within.refl]

@[simp] theorem steady_rotaBad (a : RotaAct) : Engine.Within [.any] m (m'.rotaBad a) ↔ Engine.Within [.any] m m' := by
  refine Engine.Within.step_self ?_
  simp [Engine.rotaBad]

/-- An entry of the ring, read whole, is dropped, or it is placed. -/
def Engine.rotaEntryActs (m : Engine) (a : RotaAct) : Engine :=
  if a.bad then m.rotaBad a
  else if m.outOfOrder a then
    (((m.addSat R.ROTA_ORDERCNT 1).status R.E_ROTA_ORDER).log 0xA2 2 0x0212 (a.word + a.target * 2 ^ 16) a.tb).advanceHead
  else if a.code = 0 then (m.setRota { m.rota with refTb := some a.tb }).advanceHead
  else
    let m := (m.setRota { m.rota with refTb := some a.tb }).advanceHead
    let m := m.placeOrSkip a
    let r := bitsOf a.word 12 3
    if r = 0 then m else m.loadRepeater r a

theorem steady_rotaEntryActs (a : RotaAct) : Engine.Within [.any] m (m'.rotaEntryActs a) ↔ Engine.Within [.any] m m' := by
  refine Engine.Within.step_self ?_
  simp [Engine.rotaEntryActs]

@[simp] theorem steady_rotaRead (t : Memory) (ecc : Ecc) : Engine.Within [.any] m (m'.rotaRead t ecc) ↔ Engine.Within [.any] m m' := by
  refine Engine.Within.step_self ?_
  unfold Engine.rotaRead
  extract_lets head w before
  split
  · exact .refl _ _
  split
  next x m1 e hword =>
  split
  next x m2 bad hwords =>
  have hm1 : Engine.Within [.any] m' m1 := by
    have h := (steady_wordRead (m' := m') w ecc).2 (.refl _ _)
    rwa [hword] at h
  have hm2 : Engine.Within [.any] m' m2 := by
    have h := (steady_wordsRead (m' := m1.touchGroup 0) [w + 1]).2 ((steady_touchGroup 0).2 hm1)
    rwa [hwords] at h
  split
  · exact (steady_rotaBad _).2 (within_draw.2 hm2)
  extract_lets a
  split
  · exact .refl _ _
  · exact (steady_rotaEntryActs a).2 hm2

theorem steady_rotaThreshSwap {n : Nat} (hn : n < 48) : Engine.Within [.any] m (m'.rotaThreshSwap n) ↔ Engine.Within [.any] m m' := by
  refine Engine.Within.step_self ?_
  unfold Engine.rotaThreshSwap
  split <;> simp [steady_threshSwap hn]

@[simp] theorem steady_rotaTableSwap : Engine.Within [.any] m m'.rotaTableSwap ↔ Engine.Within [.any] m m' := by
  refine Engine.Within.step_self ?_
  unfold Engine.rotaTableSwap
  split <;> simp

@[simp] theorem steady_rotaSluiceJump : Engine.Within [.any] m m'.rotaSluiceJump ↔ Engine.Within [.any] m m' := by
  refine Engine.Within.step_self ?_
  unfold Engine.rotaSluiceJump
  split <;> simp

@[simp] theorem steady_rotaEventAct : Engine.Within [.any] m m'.rotaEventAct ↔ Engine.Within [.any] m m' := by
  refine Engine.Within.step_self ?_
  unfold Engine.rotaEventAct
  split <;> simp

@[simp] theorem steady_rotaDisarm : Engine.Within [.any] m m'.rotaDisarm ↔ Engine.Within [.any] m m' := by
  refine Engine.Within.step_self ?_
  unfold Engine.rotaDisarm
  split <;> simp

@[simp] theorem steady_rotaSegmentNext : Engine.Within [.any] m m'.rotaSegmentNext ↔ Engine.Within [.any] m m' := by
  refine Engine.Within.step_self ?_
  unfold Engine.rotaSegmentNext
  split
  · exact .refl _ _
  · simp only [within_ite, within_setStore, steady_takeAct, partsIn_any, true_or, implies_true, and_self, Engine.Within.refl]

@[simp] theorem steady_rotaArm (t : Memory) : Engine.Within [.any] m (m'.rotaArm t) ↔ Engine.Within [.any] m m' := by
  refine Engine.Within.step_self ?_
  simp [Engine.rotaArm]

@[simp] theorem steady_rotaBcast : Engine.Within [.any] m m'.rotaBcast ↔ Engine.Within [.any] m m' := by
  refine Engine.Within.step_self ?_
  unfold Engine.rotaBcast
  split <;> simp

@[simp] theorem steady_rotaDam : Engine.Within [.any] m m'.rotaDam ↔ Engine.Within [.any] m m' := by
  refine Engine.Within.step_self ?_
  unfold Engine.rotaDam
  split <;> simp

@[simp] theorem steady_rotaWork (t : Memory) : Engine.Within [.any] m (m'.rotaWork t) ↔ Engine.Within [.any] m m' := by
  refine Engine.Within.step_self ?_
  have hcopies : ∀ x y : Engine, Engine.Within [.any] x (forEach 7 (fun i m => m.repeaterCopy (i + 1)) y) ↔ Engine.Within [.any] x y := fun x y =>
    within_loop fun i hi z => (steady_repeaterCopy (Nat.succ_lt_succ hi)).2 (.refl _ _)
  have hswaps : ∀ x y : Engine, Engine.Within [.any] x (y.eachIntake (fun n m => forEach 4 (fun _ m => m.rotaThreshSwap n) m)) ↔ Engine.Within [.any] x y := fun x y =>
    within_loop fun n hn z => within_forEach fun _ _ w => (steady_rotaThreshSwap hn).2 (.refl _ _)
  unfold Engine.rotaWork
  simp [within_loop, hcopies, hswaps]

/-! What is owed of the cycle before. -/

@[simp] theorem steady_cwrEnd (result : Nat) : Engine.Within [.any] m (m'.cwrEnd result) ↔ Engine.Within [.any] m m' := by
  refine Engine.Within.step_self ?_
  simp [Engine.cwrEnd]

@[simp] theorem steady_cwrTimeout : Engine.Within [.any] m m'.cwrTimeout ↔ Engine.Within [.any] m m' := by
  refine Engine.Within.step_self ?_
  unfold Engine.cwrTimeout
  split <;> simp

@[simp] theorem steady_slewCheck : Engine.Within [.any] m m'.slewCheck ↔ Engine.Within [.any] m m' := by
  refine Engine.Within.step_self ?_
  unfold Engine.slewCheck
  split
  · exact .refl _ _
  · simp only [within_ite, within_update, within_setFlag, inParts_any, partsIn_any, true_or, implies_true, and_self, Engine.Within.refl]

/-- What an intake owes of the cycle before. -/
def Engine.intakeOwed (m : Engine) (n : Nat) : Engine :=
  let m := forEach 4 (fun g m => m.settleDue n g) m
  let m := (m.intake n).xOver.foldl (fun (m : Engine) p => m.xLimit n p.1) m
  let m := (((m.calDone n).calTimeout n).eyeDone n).eyeTimeout n
  (m.weirDown n).weirUp n

theorem steady_intakeOwed {n : Nat} (hn : n < 48) : Engine.Within [.any] m (m'.intakeOwed n) ↔ Engine.Within [.any] m m' := by
  have hdue : ∀ x y : Engine, Engine.Within [.any] x (forEach 4 (fun g m => m.settleDue n g) y) ↔ Engine.Within [.any] x y := fun x y =>
    within_loop fun g hg z => (within_settleDue hn hg (by simp)).2 (.refl _ _)
  simp [Engine.intakeOwed, steady_weirUp hn, steady_weirDown hn, within_fold, hdue]

@[simp] theorem steady_owed (t : Memory) : Engine.Within [.any] m (m'.owed t) ↔ Engine.Within [.any] m m' := by
  have heach : ∀ x y : Engine, Engine.Within [.any] x (y.eachIntake (fun n m => m.intakeOwed n)) ↔ Engine.Within [.any] x y := fun x y =>
    within_loop fun n hn z => (steady_intakeOwed hn).2 (.refl _ _)
  have howed : m'.owed t = ((((m'.pipeNow t).eachIntake (fun n m => m.intakeOwed n)).cwrTimeout.slewCheck).dueCause).settle t := rfl
  rw [howed, steady_settle, steady_dueCause, steady_slewCheck, steady_cwrTimeout, heach, steady_pipeNow]

/-! The ring. -/

@[simp] theorem steady_linkSlots : Engine.Within [.any] m m'.linkSlots ↔ Engine.Within [.any] m m' := by
  refine Engine.Within.step_self ?_
  simp [Engine.linkSlots]

@[simp] theorem steady_modeNow (mode : Bool) : Engine.Within [.any] m (m'.modeNow mode) ↔ Engine.Within [.any] m m' := by
  refine Engine.Within.step_self ?_
  simp only [Engine.modeNow, within_ite, within_update, within_setRing, within_status, within_setFlag, inParts_any, partsIn_any, true_or, implies_true, and_self, Engine.Within.refl]

@[simp] theorem steady_modeChange : Engine.Within [.any] m m'.modeChange ↔ Engine.Within [.any] m m' := by
  refine Engine.Within.step_self ?_
  unfold Engine.modeChange
  split <;> simp

end Sys2Proof.Machine
end

section
/-! SUPPORT. What a sample cycle does before its tick leaves time as it is: the outputs, the log and the whole of it. -/
namespace Sys2Proof.Machine
open Sys2Proof

variable {l : List Part} {m m' : Engine} {c : Chip}

/-! The log's staging. -/

@[simp] theorem steady_stage (e : LogEntry) : Engine.Within [.any] m (c.stage e).eng ↔ Engine.Within [.any] m c.eng := by
  refine Engine.Within.step_self ?_
  simp [Chip.stage]

@[simp] theorem steady_logDrop (e : LogEntry) : Engine.Within [.any] m (m'.logDrop e) ↔ Engine.Within [.any] m m' := by
  refine Engine.Within.step_self ?_
  simp only [Engine.logDrop, within_status, within_addSat, within_update, inParts_any, partsIn_any, true_or, and_self, Engine.Within.refl]

@[simp] theorem steady_logLost : Engine.Within [.any] m c.logLost.eng ↔ Engine.Within [.any] m c.eng := by
  refine Engine.Within.step_self ?_
  unfold Chip.logLost
  dsimp only
  split
  · exact .refl _ _
  · simp only [steady_stage, within_update, partsIn_any, true_or, and_self, Engine.Within.refl]

@[simp] theorem steady_logEntry : Engine.Within [.any] m c.logEntry.eng ↔ Engine.Within [.any] m c.eng := by
  refine Engine.Within.step_self ?_
  unfold Chip.logEntry
  split
  · exact .refl _ _
  · dsimp only
    split
    · simp only [steady_logDrop, steady_logLost, within_update, partsIn_any, true_or, and_self, Engine.Within.refl]
    · simp only [steady_stage, steady_logLost, within_update, partsIn_any, true_or, and_self, Engine.Within.refl]

@[simp] theorem steady_pageEvent (page : Nat) : Engine.Within [.any] m (m'.pageEvent page) ↔ Engine.Within [.any] m m' := by
  refine Engine.Within.step_self ?_
  unfold Engine.pageEvent
  split <;> simp [↓within_update]

/-- A fold over chips each pass of which stays within the parts. -/
theorem within_chipFold {α : Type} {f : Chip → α → Chip} (xs : List α) (h : ∀ (x : Chip) (a : α), Engine.Within l x.eng (f x a).eng) (c : Chip) :
    Engine.Within l c.eng (xs.foldl f c).eng := by
  induction xs generalizing c with
  | nil => exact .refl _ _
  | cons a xs ih => exact (h c a).trans (ih _)

@[simp] theorem steady_logFlush (pclk : Nat) : Engine.Within [.any] m (c.logFlush pclk).eng ↔ Engine.Within [.any] m c.eng := by
  refine Engine.Within.step_self ?_
  unfold Chip.logFlush
  dsimp only
  have hpages : Engine.Within [.any] c.eng (c.logLost.eng.raised.foldl (fun m r => if r.pclk < pclk then m.pageEvent r.page else m) c.logLost.eng) := by
    rw [within_fold _ fun x r _ => by simp, steady_logLost]
    exact .refl _ _
  generalize c.logLost.eng.raised.foldl (fun m r => if r.pclk < pclk then m.pageEvent r.page else m) c.logLost.eng = m1 at *
  refine hpages.trans (within_chipFold (c := { c.logLost with eng := m1 }) _ fun x e => ?_)
  split <;> simp

/-! The outputs. -/

@[simp] theorem steady_setCur (o : Nat) (ws : List Word) : Engine.Within [.any] m (m'.setCur o ws) ↔ Engine.Within [.any] m m' := by
  refine Engine.Within.step_self ?_
  simp [Engine.setCur]

@[simp] theorem steady_linkFits (o : Nat) : Engine.Within [.any] m (m'.linkFits o) ↔ Engine.Within [.any] m m' := by
  refine Engine.Within.step_self ?_
  simp [Engine.linkFits]

@[simp] theorem within_sendMsa (o : Nat) : Engine.Within l m (m'.sendMsa o) ↔ Engine.Within l m m' := by
  refine Engine.Within.step_self ?_
  simp [Engine.sendMsa]

@[simp] theorem steady_commitRej (o why : Nat) : Engine.Within [.any] m (m'.commitRej o why) ↔ Engine.Within [.any] m m' := by
  refine Engine.Within.step_self ?_
  simp [Engine.commitRej]

@[simp] theorem steady_takeFrame (o : Nat) : Engine.Within [.any] m (m'.takeFrame o) ↔ Engine.Within [.any] m m' := by
  refine Engine.Within.step_self ?_
  simp [Engine.takeFrame]

@[simp] theorem steady_clearCommit (o b : Nat) : Engine.Within [.any] m (m'.clearCommit o b) ↔ Engine.Within [.any] m m' := by
  refine Engine.Within.step_self ?_
  simp [Engine.clearCommit]

@[simp] theorem within_ignoreEn (o : Nat) : Engine.Within l m (m'.ignoreEn o) ↔ Engine.Within l m m' := by
  refine Engine.Within.step_self ?_
  simp only [Engine.ignoreEn, within_ite, within_setDsp, Engine.Within.refl, implies_true, and_self]

/-- An operation on an output, and on the one that clones it. -/
theorem within_both {f : Nat → Engine → Engine} (o : Nat) (hf : ∀ q x, Engine.Within l x (f q x)) : Engine.Within l m (m'.both o f) ↔ Engine.Within l m m' := by
  refine Engine.Within.step_self ?_
  unfold Engine.both
  dsimp only
  split
  · exact (hf o m').trans (hf 1 _)
  · exact hf o m'

@[simp] theorem steady_latch (o : Nat) (t : Tb) : Engine.Within [.any] m (m'.latch o t) ↔ Engine.Within [.any] m m' := by
  refine Engine.Within.step_self ?_
  unfold Engine.latch
  extract_lets why m1 d1 m2 acts byRota d timing bad m3 m4 d4
  have htiming : Engine.Within [.any] m' m2 := by
    simp only [m2, m1, within_ite, within_status, within_setDsp, steady_commitRej, steady_clearCommit, inParts_any, implies_true, and_self, Engine.Within.refl]
  have hflip : Engine.Within [.any] m2 m4 := by
    simp only [m4, m3, within_setDsp, steady_clearCommit]
    exact within_foldl _ fun x a _ => (steady_takeAct a).2 (.refl _ _)
  clear_value m4 m2
  refine htiming.trans ?_
  split
  · exact .refl _ _
  · split
    · exact (steady_commitRej o 3).2 hflip
    · exact (within_setDsp _ _).2 ((steady_takeFrame o).2 hflip)

@[simp] theorem within_opStart (t : Nat) (h : partsIn [.of .cisB] l = true) : Engine.Within l m (m'.opStart t) ↔ Engine.Within l m m' := by
  refine Engine.Within.step (k := [.of .cisB]) ?_ h
  simp +decide [Engine.opStart]

@[simp] theorem steady_latchPoint (o : Nat) : Engine.Within [.any] m (c.latchPoint o).eng ↔ Engine.Within [.any] m c.eng := by
  refine Engine.Within.step_self ?_
  have hmsa : ∀ x y : Engine, Engine.Within [.any] x (y.both o (fun q m => m.sendMsa q)) ↔ Engine.Within [.any] x y := fun x y => within_both o fun q z => (within_sendMsa q).2 (.refl _ _)
  unfold Chip.latchPoint
  dsimp only
  split
  · split
    · split <;> simp [hmsa]
    · simp [hmsa]
  · split <;> simp

@[simp] theorem steady_vsync (o : Nat) : Engine.Within [.any] m (m'.vsync o) ↔ Engine.Within [.any] m m' := by
  refine Engine.Within.step_self ?_
  unfold Engine.vsync
  dsimp only
  split
  · exact .refl _ _
  · rw [within_both o fun q x => by simp only [within_status, within_setReg64, within_update, inParts_any, partsIn_any, true_or, and_self, Engine.Within.refl]]
    simp only [within_ite, within_setFlag, within_setDsp, inParts_any, implies_true, and_self, Engine.Within.refl]

@[simp] theorem steady_fetchStart (o : Nat) : Engine.Within [.any] m (m'.fetchStart o) ↔ Engine.Within [.any] m m' := by
  refine Engine.Within.step_self ?_
  unfold Engine.fetchStart
  split
  · exact .refl _ _
  · dsimp only
    have hflip : ∀ (x y : Engine) (tb : Tb) (n : Word),
        Engine.Within [.any] x (y.both o (fun q m => ((m.setReg64 (R.DISP_FLIP_TB_LO q) tb).setReg (R.DISP_FLIP_FRAME q) n).status (R.E_DISP_FLIP q))) ↔ Engine.Within [.any] x y := fun x y tb n =>
      within_both o fun q z => by simp
    simp only [within_setDsp, within_ite, hflip, implies_true, and_self, Engine.Within.refl]

@[simp] theorem steady_frameStart (o : Nat) : Engine.Within [.any] m (m'.frameStart o) ↔ Engine.Within [.any] m m' := by
  refine Engine.Within.step_self ?_
  unfold Engine.frameStart
  split
  · exact .refl _ _
  · extract_lets d i m1 back m2
    have hset : Engine.Within [.any] m' m1 := by
      simp only [m1]
      split <;> simp
    clear_value m1
    rw [within_both o fun q x => by simp, within_setDsp]
    exact hset

@[simp] theorem steady_rotaDispFlip (o : Nat) : Engine.Within [.any] m (m'.rotaDispFlip o) ↔ Engine.Within [.any] m m' := by
  refine Engine.Within.step_self ?_
  unfold Engine.rotaDispFlip
  split
  · exact .refl _ _
  · split
    · simp
    · split
      · split <;> simp
      · simp

@[simp] theorem steady_underrun (o : Nat) : Engine.Within [.any] m (m'.underrun o) ↔ Engine.Within [.any] m m' := by
  refine Engine.Within.step_self ?_
  unfold Engine.underrun
  split
  · exact .refl _ _
  · dsimp only
    rw [within_both o fun q x => by simp, within_setDsp]
    exact .refl _ _

/-- A loop over chips each pass of which stays within the parts. -/
theorem within_chipLoop {f : Nat → Chip → Chip} (k : Nat) (h : ∀ i x, Engine.Within l x.eng (f i x).eng) (c : Chip) : Engine.Within l c.eng (forEach k f c).eng :=
  within_chipFold (List.range k) (fun x i => h i x) c

@[simp] theorem steady_dispInstants : Engine.Within [.any] m c.dispInstants.eng ↔ Engine.Within [.any] m c.eng := by
  refine Engine.Within.step_self ?_
  refine within_chipLoop 2 (fun o x => ?_) c
  simp

@[simp] theorem steady_auxTimeout (o : Nat) : Engine.Within [.any] m (m'.auxTimeout o) ↔ Engine.Within [.any] m m' := by
  refine Engine.Within.step_self ?_
  unfold Engine.auxTimeout Engine.auxEnd
  split <;> simp

end Sys2Proof.Machine
end

section
/-! SUPPORT. The part of a sample cycle before its tick, and the tick (R8, R172). -/
namespace Sys2Proof.Machine
open Sys2Proof

variable {l : List Part} {m m' : Engine} {c : Chip}

/-! Before the tick. -/

/-- Time, and a load of it that waits. -/
def Engine.clock (m : Engine) : Tb × Nat × Bool × Option Nat := (m.tb, m.cc, m.first, m.tbLoad)

theorem Engine.Within.clock (h : Engine.Within l m m') : m'.clock = m.clock := congrArg (fun t => (t.1, t.2.1, t.2.2.1, t.2.2.2.1)) h.times

theorem Engine.clock_tbWrap (m : Engine) : m.tbWrap.clock = m.clock := by
  unfold Engine.tbWrap
  split
  · have hw : Engine.Within [.any] ({ m with wrapDue := false }) (Engine.status { m with wrapDue := false } R.E_TB_TB_WRAP) := (within_status (by simp)).2 (.refl _ _)
    exact hw.clock
  · rfl

/-- The boundary of the dam's instant. -/
def Engine.damBoundary (m : Engine) (t : Memory) : Engine :=
  let m := m.pipeNow t
  if m.store.active then m.boundaryNow else m

/-- The capture that the dam's instant cuts short: its packs close. -/
def Engine.damCuts (m : Engine) (t : Memory) : Engine :=
  if (m.damBoundary t).segOpen then forEach 48 (fun n m => m.packClose n 7) (m.damBoundary t) else m.damBoundary t

/-- The stop shows; the rota halts. -/
def Engine.damHalts (m : Engine) (open_ closed : Bool) : Engine := ((m.setDam { m.dam with stopped := true, inSegment := open_, inClosed := closed }).rotaHalt).gateCancel

/-- Lines hold where they are to, the drains pause. -/
def Engine.damHolds (m : Engine) : Engine := (if m.flag R.SAFE_CTL_DAM_SAFE then m.setGate { m.gate with damHold := true } else m).drainsStop.drainsPause

theorem Chip.damStop_eq (c : Chip) : c.damStop = if !c.eng.damStopDue then c else
    { c with eng := ((c.eng.damCuts c.tanks).damHalts (c.eng.damBoundary c.tanks).segOpen ((c.eng.damBoundary c.tanks).settledAt == some (c.eng.damBoundary c.tanks).cc)).damHolds } := rfl

theorem steady_damCuts (t : Memory) : Engine.Within [.any] m (m'.damCuts t) ↔ Engine.Within [.any] m m' := by
  refine Engine.Within.step_self ?_
  have hbound : Engine.Within [.any] m' (m'.damBoundary t) := by
    simp only [Engine.damBoundary, within_ite, within_boundaryNow, steady_pipeNow, partsIn_any, implies_true, and_self, Engine.Within.refl]
  unfold Engine.damCuts
  split
  · exact hbound.trans (within_forEach fun n hn x => (within_packClose hn 7 (by simp)).2 (.refl _ _))
  · exact hbound

theorem steady_damHalts (a b : Bool) : Engine.Within [.any] m (m'.damHalts a b) ↔ Engine.Within [.any] m m' := by
  refine Engine.Within.step_self ?_
  simp only [Engine.damHalts, steady_gateCancel, within_rotaHalt, within_setDam, partsIn_any, true_or, Engine.Within.refl]

theorem steady_damHolds : Engine.Within [.any] m m'.damHolds ↔ Engine.Within [.any] m m' := by
  refine Engine.Within.step_self ?_
  simp only [Engine.damHolds, within_drainsPause, within_drainsStop, within_ite, within_setGate, partsIn_any, implies_true, and_self, Engine.Within.refl]

@[simp] theorem steady_damStop : Engine.Within [.any] m c.damStop.eng ↔ Engine.Within [.any] m c.eng := by
  refine Engine.Within.step_self ?_
  rw [Chip.damStop_eq]
  split
  · exact .refl _ _
  · rw [steady_damHolds, steady_damHalts, steady_damCuts]
    exact .refl _ _

/-- The end of what comes before the tick: the outputs' timeouts, the drains and the log. -/
theorem steady_flushed (c : Chip) : Engine.Within [.any] c.eng (({ c with eng := forEach 2 (fun o m => m.auxTimeout o) c.eng.drainsPause.wakesDone } : Chip).logFlush (c.eng.cc / 2)).eng := by
  rw [steady_logFlush, within_loop fun o _ x => by simp, steady_wakesDone, within_drainsPause (by simp)]
  exact .refl _ _

/-- What comes before the tick leaves time as it is. -/
theorem Chip.clock_catchUp (c : Chip) : c.catchUp.eng.clock = c.eng.clock := by
  unfold Chip.catchUp
  extract_lets m1 m2 m3 m4 c1
  have hwork : Engine.Within [.any] c.eng m1.modeChange := by simp [m1]
  clear_value m1
  have hwrap : m1.modeChange.tbWrap.clock = c.eng.clock := (Engine.clock_tbWrap _).trans hwork.clock
  have hwords : Engine.Within [.any] m1.modeChange.tbWrap m4 := by
    simp only [m4, m3, m2, within_ite, within_armedReport, within_windowEnd, steady_irqPass, partsIn_any, implies_true, and_self, Engine.Within.refl]
  clear_value m4 m3 m2
  have hinstants : Engine.Within [.any] m4 c1.eng := by
    rw [steady_damStop, steady_dispInstants]
    exact .refl _ _
  clear_value c1
  exact (steady_flushed c1).clock.trans (hinstants.clock.trans (hwords.clock.trans hwrap))

/-! The gates. -/

@[simp] theorem within_gateLevels (u : Tb) (x : Lines) : Engine.Within l m (m'.gateLevels u x) ↔ Engine.Within l m m' := by
  refine Engine.Within.step_self ?_
  simp [Engine.gateLevels]

@[simp] theorem within_gateCommand (u : Tb) (i op width : Nat) : Engine.Within l m (m'.gateCommand u i op width) ↔ Engine.Within l m m' := by
  refine Engine.Within.step_self ?_
  unfold Engine.gateCommand
  split
  · exact .refl _ _
  · dsimp only
    split <;> simp

@[simp] theorem within_gatePulseEnds (u : Tb) : Engine.Within l m (m'.gatePulseEnds u) ↔ Engine.Within l m m' := by
  refine Engine.Within.step_self ?_
  simp [Engine.gatePulseEnds]

@[simp] theorem within_gateSluice (u : Tb) : Engine.Within l m (m'.gateSluice u) ↔ Engine.Within l m m' := by
  refine Engine.Within.step_self ?_
  unfold Engine.gateSluice
  dsimp only
  rw [within_fold _ fun x o _ => ?_]
  · simp only [within_update, or_true, and_self, Engine.Within.refl]
  · split
    · exact .refl _ _
    · rw [within_loop fun i _ y => by simp, within_setGate]
      exact .refl _ _

theorem steady_gateRotaAct (a : RotaAct) : Engine.Within [.any] m (m'.gateRotaAct a) ↔ Engine.Within [.any] m m' := by
  refine Engine.Within.step_self ?_
  simp only [Engine.gateRotaAct, within_ite, within_status, within_addSat, within_gateCommand, within_setGate, inParts_any, implies_true, and_self, Engine.Within.refl]

theorem steady_gateRotaHead : Engine.Within [.any] m m'.gateRotaHead ↔ Engine.Within [.any] m m' := by
  refine Engine.Within.step_self ?_
  unfold Engine.gateRotaHead
  split
  · exact .refl _ _
  · simp only [steady_gateRotaAct, within_update, partsIn_any, true_or, and_self, Engine.Within.refl]

theorem steady_gateTick (u : Tb) : Engine.Within [.any] m (m'.gateTick u) ↔ Engine.Within [.any] m m' := by
  refine Engine.Within.step_self ?_
  unfold Engine.gateTick
  dsimp only
  rw [within_fold _ fun x a _ => steady_gateRotaHead.2 (.refl _ _), within_gateSluice, within_gatePulseEnds]
  exact .refl _ _

theorem steady_gateRun (u : Option Tb) (k : Nat) (m : Engine) : Engine.Within [.any] m (Engine.gateRun u k m) := by
  induction k generalizing m with
  | zero => exact .refl _ _
  | succ k ih =>
    unfold Engine.gateRun
    split
    · exact .refl _ _
    · next v _ =>
      rw [within_ite]
      exact ⟨fun _ => ((steady_gateTick v).2 (.refl _ _)).trans (ih _), fun _ => .refl _ _⟩

theorem steady_gateApply : Engine.Within [.any] m m'.gateApply ↔ Engine.Within [.any] m m' := Engine.Within.step_self (steady_gateRun _ _ _)

/-- With nothing in the rota's queues, a tick of the gates changes the gates alone. -/
theorem within_gateTick (u : Tb) (h : m.rota.queue = []) : Engine.Within [] m (m.gateTick u) := by
  have hsluice : Engine.Within [] m ((m.gatePulseEnds u).gateSluice u) := by
    rw [within_gateSluice, within_gatePulseEnds]
    exact .refl _ _
  have hqueue : ((m.gatePulseEnds u).gateSluice u).gateQueue = [] := by
    unfold Engine.gateQueue
    rw [hsluice.queue (by decide), h]
    rfl
  unfold Engine.gateTick
  dsimp only
  rw [hqueue]
  exact hsluice

theorem within_gateRun (u : Option Tb) (k : Nat) (h : m.rota.queue = []) : Engine.Within [] m (Engine.gateRun u k m) := by
  induction k generalizing m with
  | zero => exact .refl _ _
  | succ k ih =>
    unfold Engine.gateRun
    split
    · exact .refl _ _
    · next v _ =>
      have htick := within_gateTick v h
      rw [within_ite]
      exact ⟨fun _ => htick.trans (ih ((htick.queue (by decide)).trans h)), fun _ => .refl _ _⟩

theorem within_gateApply (h : m.rota.queue = []) : Engine.Within [] m m.gateApply := within_gateRun _ _ h

/-! The tick. -/

theorem Engine.tbLoadEffect_of_no_load (h : m.tbLoad = none) : m.tbLoadEffect = m := by
  unfold Engine.tbLoadEffect
  rw [h]

/-- The clock of a tick, from the engine that its gates leave. -/
theorem Engine.tick_shows (m : Engine) : m.tick.cc = m.tbLoadEffect.gateApply.cc + 1 ∧
    m.tick.tb = (if m.tbLoadEffect.gateApply.first && !m.tbLoad.isSome then 0 else m.tbLoadEffect.gateApply.tb + 16) ∧ m.tick.tbLoad = m.tbLoadEffect.gateApply.tbLoad ∧
      m.tick.wrapDue = (m.tbLoadEffect.gateApply.wrapDue || (!m.tbLoadEffect.gateApply.first && !m.tbLoad.isSome && decide (m.tick.tb < m.tbLoadEffect.gateApply.tb))) :=
  ⟨rfl, rfl, rfl, rfl⟩

/-- Without a load of TB, a tick after the first moves TB by 16. -/
theorem Engine.tick_of_no_load (hfirst : m.first = false) (hload : m.tbLoad = none) :
    m.tick.tb = m.tb + 16 ∧ m.tick.cc = m.cc + 1 ∧ (m.tb + 16 = 0 → m.tick.wrapDue = true) := by
  have hgates : m.tbLoadEffect.gateApply.clock = m.clock := by
    rw [Engine.tbLoadEffect_of_no_load hload]
    exact (steady_gateApply.2 (.refl _ _)).clock
  simp only [Engine.clock, Prod.mk.injEq] at hgates
  obtain ⟨htb, hcc, hfst, -⟩ := hgates
  obtain ⟨hcc', htb', -, hwrap⟩ := m.tick_shows
  rw [hfst, hfirst, Bool.false_and, if_neg Bool.false_ne_true, htb] at htb'
  refine ⟨htb', hcc'.trans (by rw [hcc]), fun h0 => ?_⟩
  have hlt : m.tick.tb < m.tb := by
    rw [htb', h0]
    bv_omega
  rw [hwrap, hfst, hfirst, hload, htb, decide_eq_true hlt]
  simp

/-! A load of TB. -/

theorem Engine.queue_armDrop (h : m.rota.queue = []) : m.armDrop.rota.queue = [] := by
  have hend : m.armEnd.rota.queue = [] := by
    rw [Engine.armEnd_rota]
    unfold Engine.queueAfter
    split
    · exact h
    · simp [h]
  unfold Engine.armDrop
  dsimp only
  split
  · exact hend
  · have hheld : Engine.Within heldParts m.armEnd m.armEnd.applyHeld := (within_applyHeld (by decide)).2 (.refl _ _)
    exact (hheld.queue (by decide)).trans hend

/-- A halt leaves the rota's queues empty, and shows (R185). -/
theorem Engine.rotaHalt_shows (m : Engine) : m.rotaHalt.rota.queue = [] ∧ m.rotaHalt.flag R.ROTA_STATUS_HALTED = true := by
  have hdrop : m.queueGone.rotaArmDrop.rota.queue = [] := by
    unfold Engine.rotaArmDrop
    split
    · exact Engine.queue_armDrop rfl
    · rfl
  have hw : Engine.Within [.of .rotaB] m.queueGone.rotaArmDrop m.rotaHalt := by
    rw [Engine.rotaHalt_eq, within_rotaHalted _ (by decide)]
    exact .refl _ _
  refine ⟨(hw.queue (by decide)).trans hdrop, ?_⟩
  rw [Engine.rotaHalt_eq]
  exact (Engine.flag_status_ne _ R.E_ROTA_HALT (by decide)).trans (Engine.flag_setFlag_same _ _ _ (by decide) rfl)

/-- The engine with a load of TB taken. -/
def Engine.loadTaken (m : Engine) : Engine := { m with tbLoad := none }

/-- TB as the load puts it, one cycle before the loaded one. -/
def Engine.tbPut (m : Engine) (k : Nat) : Engine := { m.setRota { m.rota with refTb := none } with tb := tbOfCycle k - 16 }

theorem Engine.tbLoadEffect_eq {k : Nat} (h : m.tbLoad = some k) : m.tbLoadEffect =
    (((((m.loadTaken.shiftGates (tbOfCycle k - tbOfCycle (m.cycle + 1))).rotaHalt).tbPut k).setFlag R.TB_CTL_LOAD false).setFlag R.TB_STATUS_DAMREC false).status R.E_TB_LOADED := by
  unfold Engine.tbLoadEffect
  rw [h]
  rfl

/-- A load of TB halts the rota and puts TB one cycle before the loaded one (R172, R185). -/
theorem Engine.tbLoadEffect_of_load {k : Nat} (h : m.tbLoad = some k) :
    m.tbLoadEffect.tb = tbOfCycle k - 16 ∧ m.tbLoadEffect.cc = m.cc ∧ m.tbLoadEffect.tbLoad = none ∧ m.tbLoadEffect.flag R.ROTA_STATUS_HALTED = true ∧ m.tbLoadEffect.rota.queue = [] ∧
      m.tbLoadEffect.hasBit R.E_TB_LOADED = true := by
  have hhalt : Engine.Within [.any] m.loadTaken (m.loadTaken.shiftGates (tbOfCycle k - tbOfCycle (m.cycle + 1))).rotaHalt := by
    rw [within_rotaHalt (by simp)]
    unfold Engine.shiftGates
    simp only [within_update, partsIn_any, true_or, and_self, Engine.Within.refl]
  obtain ⟨hqueue, hflag⟩ := (m.loadTaken.shiftGates (tbOfCycle k - tbOfCycle (m.cycle + 1))).rotaHalt_shows
  have hclock := hhalt.clock
  rw [Engine.tbLoadEffect_eq h]
  generalize (m.loadTaken.shiftGates (tbOfCycle k - tbOfCycle (m.cycle + 1))).rotaHalt = halted at *
  simp only [Engine.clock, Prod.mk.injEq] at hclock
  obtain ⟨-, hcc, -, hload⟩ := hclock
  refine ⟨?_, ?_, ?_, ?_, ?_, Engine.hasBit_status_same _ R.E_TB_LOADED (by decide)⟩
  · exact Engine.status_tb _ R.E_TB_LOADED
  · exact (Engine.status_cc _ R.E_TB_LOADED).trans hcc
  · exact (Engine.status_tbLoad _ R.E_TB_LOADED).trans hload
  · rw [Engine.flag_status_ne _ R.E_TB_LOADED (by decide), Engine.flag_setFlag_ne _ _ (by decide), Engine.flag_setFlag_ne _ _ (by decide)]
    exact hflag
  · exact (congrArg RotaState.queue (Engine.status_rota _ R.E_TB_LOADED)).trans hqueue

/-- With a load of TB pending, a tick takes TB to the loaded cycle. -/
theorem Engine.tick_of_load {k : Nat} (h : m.tbLoad = some k) :
    m.tick.tb = tbOfCycle k ∧ m.tick.cc = m.cc + 1 ∧ m.tick.tbLoad = none ∧ m.tick.flag R.ROTA_STATUS_HALTED = true ∧ m.tick.rota.queue = [] ∧ m.tick.hasBit R.E_TB_LOADED = true := by
  obtain ⟨htb, hcc, hload, hflag, hqueue, hbit⟩ := Engine.tbLoadEffect_of_load h
  have hgates := within_gateApply hqueue
  have hclock := hgates.clock
  simp only [Engine.clock, Prod.mk.injEq] at hclock
  obtain ⟨htb', hcc', -, hload'⟩ := hclock
  obtain ⟨hcc1, htb1, hload1, -⟩ := m.tick_shows
  refine ⟨?_, ?_, hload1.trans (hload'.trans hload), ?_, ?_, ?_⟩
  · rw [htb1, h, Option.isSome_some, Bool.not_true, Bool.and_false, if_neg Bool.false_ne_true, htb', htb]
    exact BitVec.sub_add_cancel _ _
  · rw [hcc1, hcc', hcc]
  · exact (hgates.flag (f := R.ROTA_STATUS_HALTED) (by decide)).trans hflag
  · exact (hgates.queue (by decide)).trans hqueue
  · exact (hgates.hasBit (b := R.E_TB_LOADED) (by decide)).trans hbit

end Sys2Proof.Machine
end

section
/-! SUPPORT. The part of a sample cycle after its tick: which registers its units may change. -/
namespace Sys2Proof.Machine
open Sys2Proof

variable {l : List Part} {m m' : Engine} {c : Chip}

/-! The intakes. -/

section Intake
variable {n : Nat} (hn : n < 48)
include hn

theorem inParts_intk (hl : l.contains (.of .intkB) = true) (k : Nat) (hk : k < 0x1000) : inParts l (0x10000 + k + 0x1000 * n) = true :=
  inParts_of_block (blockAt_intk hn (by omega) (by omega)) hl

theorem inParts_intkPage (hl : l.contains (.of .intkB) = true) : inParts l (statusAddr (0x10 + n)) = true :=
  inParts_of_block (blockAt_intk hn (by unfold statusAddr; omega) (by unfold statusAddr; omega)) hl

/-- The registers of one of an intake's lines. -/
theorem inParts_intkLine {a i : Nat} (hi : i < 48) (hl : l.contains (.of .intkB) = true) (hlo : 0x10100 + 0x1000 * n + 0x10 * i ≤ a) (hhi : a < 0x10110 + 0x1000 * n + 0x10 * i) :
    inParts l a = true := inParts_of_block (blockAt_intk hn (by omega) (by omega)) hl

omit hn in
@[simp] theorem within_overLimit (line : Nat) (t : Tb) : Engine.Within l m (m'.overLimit n line t) ↔ Engine.Within l m m' := by
  refine Engine.Within.step_self ?_
  simp [Engine.overLimit]

theorem within_countX {line : Nat} (hline : line < 48) (k : Nat) (h : partsIn [.of .intkB] l = true) : Engine.Within l m (m'.countX n line k) ↔ Engine.Within l m m' := by
  refine Engine.Within.step (k := [.of .intkB]) ?_ h
  have hcount : inParts [.of .intkB] (R.INTK_XCOUNT n line) = true := inParts_intkLine hn hline rfl (by unfold R.INTK_XCOUNT; omega) (by unfold R.INTK_XCOUNT; omega)
  have hseen : inParts [.of .intkB] (if line < 32 then R.INTK_XSEEN0 n else R.INTK_XSEEN1 n) = true := by
    split
    · exact inParts_intk hn rfl 0x60 (by decide)
    · exact inParts_intk hn rfl 0x64 (by decide)
  have hpage : inParts [.of .intkB] (statusAddr (R.E_INTK_XSEEN n).page) = true := inParts_intkPage hn rfl
  unfold Engine.countX
  dsimp only
  rw [within_overLimit, within_setIntake, within_ite, within_status hpage, within_orReg _ hseen, within_addSat _ hcount]
  exact ⟨fun _ => .refl _ _, fun _ => .refl _ _⟩

/-- The X states of a tick are counted. -/
def Engine.linesCounted (m : Engine) (n k : Nat) (x : Lines) : Engine := if x = 0 then m else forEach 48 (fun line m => if lineBit x line then m.countX n line k else m) m

theorem within_linesCounted (k : Nat) (x : Lines) (h : partsIn [.of .intkB] l = true) : Engine.Within l m (m'.linesCounted n k x) ↔ Engine.Within l m m' := by
  refine Engine.Within.step (k := [.of .intkB]) ?_ h
  unfold Engine.linesCounted
  split
  · exact .refl _ _
  · refine within_forEach fun line hline y => ?_
    rw [within_ite, within_countX hn hline _ (by decide)]
    exact ⟨fun _ => .refl _ _, fun _ => .refl _ _⟩

theorem within_intakeCycle (pins : Pins) (h : partsIn [.of .intkB] l = true) : Engine.Within l m (m'.intakeCycle n pins) ↔ Engine.Within l m m' := by
  refine Engine.Within.step (k := [.of .intkB]) ?_ h
  have hst : inParts [.of .intkB] (R.INTK_STATUS n) = true := inParts_intk hn rfl 0x58 (by decide)
  unfold Engine.intakeCycle
  extract_lets i m1 quar m2
  have hshown : Engine.Within [.of .intkB] m' m2 := by
    simp only [m2, m1]
    rw [within_showSet hn _ _ (by decide), within_setIntake]
    exact .refl _ _
  clear_value m2
  split
  next w dacs _ =>
  extract_lets m3 i3 last rise i4 i5 m4 m5 m6 m7
  have hcounted : Engine.Within [.of .intkB] m2 m3 := within_foldl _ fun x k _ => (within_linesCounted hn k _ (by decide)).2 (.refl _ _)
  clear_value i5 i4 rise last i3 m3
  refine (hshown.trans hcounted).trans ?_
  simp only [m7, m6, m5, m4]
  rw [within_setFlag _ hst, within_setFlag _ hst, within_setFlag _ hst, within_setFlag _ hst, within_setIntake]
  exact .refl _ _

theorem within_calCount (r : Nat) (h : partsIn [.of .intkB] l = true) : Engine.Within l m (m'.calCount n r) ↔ Engine.Within l m m' := by
  refine Engine.Within.step (k := [.of .intkB]) ?_ h
  have hdone : inParts [.of .intkB] (R.INTK_CALSTAT_DONE n).addr = true := inParts_intk hn rfl 0x74 (by decide)
  have hsum : ∀ x < 50, inParts [.of .intkB] (if x < 48 then R.INTK_CALSUM n x else if x = 48 then R.INTK_CK0SUM n else R.INTK_CK1SUM n) = true := by
    intro x _
    split
    · next hx => exact inParts_intkLine hn hx rfl (by unfold R.INTK_CALSUM; omega) (by unfold R.INTK_CALSUM; omega)
    · split
      · exact inParts_intk hn rfl 0x80 (by decide)
      · exact inParts_intk hn rfl 0x84 (by decide)
  have hmiss : ∀ x < 50, inParts [.of .intkB] (if x < 48 then R.INTK_CALMISS_MISS n x else if x = 48 then R.INTK_CKMISS_CK0_MISS n else R.INTK_CKMISS_CK1_MISS n).addr = true := by
    intro x _
    split
    · next hx => exact inParts_intkLine hn hx rfl (by simp only [R.INTK_CALMISS_MISS, R.INTK_CALMISS]; omega) (by simp only [R.INTK_CALMISS_MISS, R.INTK_CALMISS]; omega)
    · split
      · exact inParts_intk hn rfl 0x88 (by decide)
      · exact inParts_intk hn rfl 0x88 (by decide)
  unfold Engine.calCount
  dsimp only
  rw [within_setFld _ hdone]
  refine within_forEach fun x hx y => ?_
  split
  · exact .refl _ _
  · split
    · exact (within_setReg _ (hsum x hx)).2 (.refl _ _)
    · exact (within_setFld _ (hmiss x hx)).2 (.refl _ _)

theorem within_calCycle (judgedCc : Nat) (h : partsIn [.of .intkB] l = true) : Engine.Within l m (m'.calCycle n judgedCc) ↔ Engine.Within l m m' := by
  refine Engine.Within.step (k := [.of .intkB]) ?_ h
  unfold Engine.calCycle
  split
  · exact .refl _ _
  · dsimp only
    rw [within_fold _ fun x r _ => ?_, within_setIntake]
    · exact .refl _ _
    · rw [within_ite, within_calCount hn _ (by decide)]
      exact ⟨fun _ => .refl _ _, fun _ => .refl _ _⟩

/-! The reach regimes. -/

theorem inParts_ruPage (hl : l.contains (.of .ruB) = true) : inParts l (statusAddr (0x40 + 2 * n)) = true :=
  inParts_of_block (blockAt_ru hn (by unfold statusAddr; omega) (by unfold statusAddr; omega)) hl

theorem within_eyeEdge (k : Nat) (js : List Judged) (h : partsIn [.of .ruB] l = true) : Engine.Within l m (m'.eyeEdge n k js) ↔ Engine.Within l m m' := by
  refine Engine.Within.step (k := [.of .ruB]) ?_ h
  have hdone : inParts [.of .ruB] (R.RU_EYESTAT_DONE n).addr = true := inParts_ru hn rfl 0x6C (by decide)
  have hcnt : ∀ o < 64, inParts [.of .ruB] (R.RU_EYECNT n o) = true := fun o ho =>
    inParts_of_block (blockAt_ru hn (by unfold R.RU_EYECNT; omega) (by unfold R.RU_EYECNT; omega)) rfl
  unfold Engine.eyeEdge
  dsimp only
  rw [within_setIntake, within_setFld _ hdone]
  refine within_forEach fun o ho x => ?_
  rw [within_ite, within_addWrap _ (hcnt o ho)]
  exact ⟨fun _ => .refl _ _, fun _ => .refl _ _⟩

theorem within_reachCycle (p : Nat) (h : partsIn [.of .ruB] l = true) : Engine.Within l m (m'.reachCycle n p) ↔ Engine.Within l m m' := by
  refine Engine.Within.step (k := [.of .ruB]) ?_ h
  have hskip : inParts [.of .ruB] (R.RU_CKSKIP n) = true := inParts_ru hn rfl 0x58 (by decide)
  have hpage : inParts [.of .ruB] (statusAddr (R.E_RU_CKSKIP n).page) = true := inParts_ruPage hn rfl
  unfold Engine.reachCycle
  extract_lets ds fs raw edge qual step
  clear_value step
  split
  next i j skips _ =>
  extract_lets js m1 m2
  have hskipped : Engine.Within [.of .ruB] m' m2 := by
    simp only [m2, m1]
    rw [within_ite, within_status hpage, within_addSat _ hskip, within_setIntake]
    exact ⟨fun _ => .refl _ _, fun _ => .refl _ _⟩
  clear_value m2 m1
  refine hskipped.trans (within_foldl _ fun x e _ => ?_)
  rw [within_ite, within_eyeEdge hn _ _ (by decide)]
  exact ⟨fun _ => .refl _ _, fun _ => .refl _ _⟩

end Intake

/-! All intakes. -/

/-- The parts that intakes and reaches may change. -/
def frontParts : List Part := [.of .intkB, .of .ruB]

theorem within_frontCycle (pins : Pins) (h : partsIn frontParts l = true) : Engine.Within l m (m'.frontCycle pins) ↔ Engine.Within l m m' := by
  refine Engine.Within.step (k := frontParts) ?_ h
  unfold Engine.frontCycle Engine.eachIntake
  dsimp only
  have hin : Engine.Within frontParts m' (forEach 48 (fun n m => m.intakeCycle n pins) m') := within_forEach fun n hn x => (within_intakeCycle hn pins (by decide)).2 (.refl _ _)
  split
  · exact hin
  · refine hin.trans (within_forEach fun n hn x => ?_)
    rw [within_calCycle hn _ (by decide), within_reachCycle hn _ (by decide)]
    exact .refl _ _

end Sys2Proof.Machine
end

section
/-! SUPPORT. The part of a sample cycle after its tick: gauges, gates, the store's budget, the drains and the dam's pin. -/
namespace Sys2Proof.Machine
open Sys2Proof

variable {l : List Part} {m m' : Engine} {c : Chip}

/-! The gauges. -/

section Gauges
variable {n g : Nat} (hn : n < 48) (hg : g < 4)
include hn

theorem inParts_rugPage (hl : l.contains (.of .rugB) = true) : inParts l (statusAddr (0x41 + 2 * n)) = true :=
  inParts_rug hn (by unfold statusAddr; omega) (by unfold statusAddr; omega) hl

theorem inParts_rugAt (hl : l.contains (.of .rugB) = true) (k : Nat) (hk : k < 0x1000) : inParts l (0x41000 + k + 0x2000 * n) = true :=
  inParts_rug hn (by omega) (by omega) hl

include hg

/-- The shortest and the longest measure are kept. -/
theorem within_measured (len : Option Nat) (h : partsIn [.of .rugB] l = true) :
    Engine.Within l m (match len with
      | none => m'
      | some w =>
        let x := min w 0xFFFFFFFF
        let m := m'.setReg (R.RUG_LAST n g) (BitVec.ofNat 32 x)
        let m := if x < (m.reg (R.RUG_MINV n g)).toNat then m.setReg (R.RUG_MINV n g) (BitVec.ofNat 32 x) else m
        if (m.reg (R.RUG_MAXV n g)).toNat < x then m.setReg (R.RUG_MAXV n g) (BitVec.ofNat 32 x) else m) ↔ Engine.Within l m m' := by
  refine Engine.Within.step (k := [.of .rugB]) ?_ h
  have hlast : inParts [.of .rugB] (R.RUG_LAST n g) = true := inParts_rug hn (by unfold R.RUG_LAST; omega) (by unfold R.RUG_LAST; omega) rfl
  have hmin : inParts [.of .rugB] (R.RUG_MINV n g) = true := inParts_rug hn (by unfold R.RUG_MINV; omega) (by unfold R.RUG_MINV; omega) rfl
  have hmax : inParts [.of .rugB] (R.RUG_MAXV n g) = true := inParts_rug hn (by unfold R.RUG_MAXV; omega) (by unfold R.RUG_MAXV; omega) rfl
  cases len with
  | none => exact .refl _ _
  | some w =>
    have hfirst : Engine.Within [.of .rugB] m' (m'.setReg (R.RUG_LAST n g) (BitVec.ofNat 32 (min w 0xFFFFFFFF))) := (within_setReg _ hlast).2 (.refl _ _)
    dsimp only
    generalize m'.setReg (R.RUG_LAST n g) (BitVec.ofNat 32 (min w 0xFFFFFFFF)) = m1 at *
    refine hfirst.trans ?_
    have hsecond : Engine.Within [.of .rugB] m1 (if min w 0xFFFFFFFF < (m1.reg (R.RUG_MINV n g)).toNat then m1.setReg (R.RUG_MINV n g) (BitVec.ofNat 32 (min w 0xFFFFFFFF)) else m1) := by
      simp [hmin]
    refine hsecond.trans ?_
    generalize (if min w 0xFFFFFFFF < (m1.reg (R.RUG_MINV n g)).toNat then m1.setReg (R.RUG_MINV n g) (BitVec.ofNat 32 (min w 0xFFFFFFFF)) else m1) = m2
    split
    · exact (within_setReg _ hmax).2 (.refl _ _)
    · exact .refl _ _

theorem within_completed (p : Nat) (len : Option Nat) (h : partsIn [.of .rugB] l = true) : Engine.Within l m (m'.completed n g p len) ↔ Engine.Within l m m' := by
  refine Engine.Within.step (k := [.of .rugB]) ?_ h
  unfold Engine.completed
  extract_lets m1
  have hm1 : Engine.Within [.of .rugB] m' m1 := (within_measured hn hg len (by decide)).2 (.refl _ _)
  clear_value m1
  split
  · exact (within_countGauge hn hg (by decide)).2 hm1
  · exact hm1

theorem within_timedTick (b p : Nat) (t : Tb) (x : LineView) (flagged : Bool) (h : partsIn [.of .rugB] l = true) : Engine.Within l m (m'.timedTick n b g p t x flagged).1 ↔ Engine.Within l m m' := by
  refine Engine.Within.step (k := [.of .rugB]) ?_ h
  unfold Engine.timedTick
  extract_lets c o m1 due y timed m2 m3 m4
  have hdue : Engine.Within [.of .rugB] m' m2 := by
    simp +decide only [m2, m1, within_setTimed, within_ite, within_settleDue hn hg, implies_true, and_self, Engine.Within.refl]
  clear_value m2 m1
  refine hdue.trans ?_
  have hhit : Engine.Within [.of .rugB] m2 m3 := by
    simp only [m3]
    split
    · exact (within_decisionHit hn hg _ _ (by decide)).2 (.refl _ _)
    · exact .refl _ _
  clear_value m3
  refine hhit.trans ?_
  simp only [m4]
  split
  · exact (within_completed hn hg _ _ (by decide)).2 (.refl _ _)
  · exact .refl _ _

omit hg in
theorem within_gaugeCycle (p lag : Nat) (t0 : Tb) (h : partsIn [.of .rugB] l = true) : Engine.Within l m (m'.gaugeCycle n p lag t0).1 ↔ Engine.Within l m m' := by
  refine Engine.Within.step (k := [.of .rugB]) ?_ h
  have hst : inParts [.of .rugB] (R.RUG_STATUS n) = true := inParts_rugAt hn rfl 0x44 (by decide)
  have hsaw : inParts [.of .rugB] (R.RUG_HITSEEN n) = true := inParts_rugAt hn rfl 0x48 (by decide)
  have hcfg : inParts [.of .rugB] (statusAddr (R.E_RUG_CFG n).page) = true := inParts_rugPage hn rfl
  have hhit : inParts [.of .rugB] (statusAddr (R.E_RUG_HIT n).page) = true := inParts_rugPage hn rfl
  unfold Engine.gaugeCycle
  extract_lets set b js j mcs m1 inv invBits m2 m3 ckSel step
  have hset : Engine.Within [.of .rugB] m' m3 := by
    have hcut : Engine.Within [.of .rugB] m' m1 := by
      refine within_forEach fun g _ x => ?_
      dsimp only
      rw [within_ite, within_setTimed]
      exact ⟨fun _ => .refl _ _, fun _ => .refl _ _⟩
    have hinv : Engine.Within [.of .rugB] m1 m2 := by
      simp only [m2]
      split
      · exact (within_status hcfg).2 (.refl _ _)
      · exact .refl _ _
    refine (hcut.trans hinv).trans ?_
    rw [within_setFlag _ hst, within_setFld _ hst]
    exact .refl _ _
  have hstep : ∀ s k, Engine.Within [.of .rugB] s.1 (step s k).1 := by
    rintro ⟨x, hits⟩ k
    simp only [step]
    rw [within_setIntake]
    refine within_pairFold (List.range 4) (fun a g hg => ?_) (x, ([] : List Bool))
    exact (within_timedTick hn (List.mem_range.1 hg) _ _ _ _ _ (by decide)).2 (.refl _ _)
  clear_value step m3
  have hfold := within_pairFold (List.range 16) (fun s k _ => hstep s k) (m3, [])
  split
  next m4 hits hres =>
  rw [hres] at hfold
  extract_lets first bits seen m5 meas lev m6 mask pos
  have hseen : Engine.Within [.of .rugB] m4 m5 := by
    simp only [m5]
    split
    · exact (within_status hhit).2 ((within_orReg _ hsaw).2 (.refl _ _))
    · exact .refl _ _
  clear_value lev meas m5
  refine ((hset.trans hfold).trans hseen).trans ?_
  simp only [m6]
  rw [within_setFld _ hst, within_setFld _ hst]
  exact .refl _ _

end Gauges

theorem within_gaugeStage (h : partsIn [.of .rugB, .pipe] l = true) : Engine.Within l m m'.gaugeStage ↔ Engine.Within l m m' := by
  refine Engine.Within.step (k := [.of .rugB, .pipe]) ?_ h
  unfold Engine.gaugeStage
  extract_lets lag p t0
  split
  · exact .refl _ _
  · have hfold := within_pairFold (l := [.of .rugB, .pipe]) (List.range 48) (f := fun (a : Engine × List GaugeOut) n => ((a.1.gaugeCycle n p lag t0).1, a.2 ++ [(a.1.gaugeCycle n p lag t0).2]))
      (fun a n hn => (within_gaugeCycle (List.mem_range.1 hn) _ _ _ (by decide)).2 (.refl _ _)) (m', [])
    split
    next m1 outs hres =>
    have hm1 : Engine.Within [.of .rugB, .pipe] m' (m1, outs).1 := by
      rw [← hres]
      exact hfold
    simp +decide only [within_update, true_or, or_true, and_self]
    exact hm1

theorem within_pipeStage (h : partsIn [.pipe] l = true) : Engine.Within l m m'.pipeStage ↔ Engine.Within l m m' := by
  refine Engine.Within.step (k := [.pipe]) ?_ h
  unfold Engine.pipeStage
  simp +decide only [within_update, true_or, or_true, and_self, Engine.Within.refl]

/-! Gates, weirs, the store's budget, the drains and the host's link. -/

@[simp] theorem within_gateCycle (pins : Pins) (p : Nat) : Engine.Within l m (m'.gateCycle pins p) ↔ Engine.Within l m m' := by
  refine Engine.Within.step_self ?_
  unfold Engine.gateCycle
  split
  next k m1 hdraw =>
  have hm1 : Engine.Within l m' m1 := by
    have h := within_draw.2 (Engine.Within.refl l m')
    rwa [hdraw] at h
  extract_lets sample gate1 m2 ahead lines at_ ticks outs gate2 m3
  have hm2 : Engine.Within l m1 m2 := (within_setGate _).2 (.refl _ _)
  clear_value outs ticks m2
  refine (hm1.trans hm2).trans ?_
  split
  · exact .refl _ _
  · have hm3 : Engine.Within l m2 m3 := (within_setGate _).2 (.refl _ _)
    exact (within_update (m' := m3) (hpipe := .inr (by rfl)) (hgated := .inr ⟨by rfl, by rfl⟩) (hqueue := .inr (by rfl)) (hlinks := .inr ⟨by rfl, by rfl⟩) (hdam := .inr (by rfl))
      (hspan := .inr (by rfl)) (hmgt := by rfl) ..).2 hm3

@[simp] theorem within_weirTimers : Engine.Within l m m'.weirTimers ↔ Engine.Within l m m' := by
  refine Engine.Within.step_self ?_
  exact within_forEach fun n _ x => by simp

@[simp] theorem within_budgetCycle : Engine.Within l m m'.budgetCycle ↔ Engine.Within l m m' := by
  refine Engine.Within.step_self ?_
  simp [Engine.budgetCycle]

@[simp] theorem within_sendRun (drain addr k : Nat) (bytes : List Byte) (h : partsIn [.links] l = true) : Engine.Within l m (m'.sendRun drain addr k bytes) ↔ Engine.Within l m m' := by
  induction k generalizing m' addr bytes with
  | zero => exact .rfl
  | succ k ih =>
    unfold Engine.sendRun
    split
    · exact .rfl
    · dsimp only
      rw [ih, within_fold _ fun x i _ => by simp [h], within_sendSeq _ _ h]

@[simp] theorem within_hostWrite (drain addr : Nat) (bytes : List Byte) (o : HostOut) (h : partsIn [.links] l = true) :
    Engine.Within l m (m'.hostWrite drain addr bytes o) ↔ Engine.Within l m m' := by
  unfold Engine.hostWrite
  split
  · exact within_sendRun _ _ _ _ h
  · simp

/-- The parts that the drains may change. -/
def drainParts : List Part := [.links, .of .drainB]

theorem within_drainWrite {d : Nat} (hd : d < 4) (dst : Nat) (bytes : List Byte) (h : partsIn drainParts l = true) : Engine.Within l m (m'.drainWrite d dst bytes) ↔ Engine.Within l m m' := by
  refine Engine.Within.step (k := drainParts) ?_ h
  have hregs : ∀ d < 4, inParts drainParts (R.DRAIN_BYTES_LO d) = true ∧ inParts drainParts (R.DRAIN_BYTES_LO d + 4) = true := by decide
  obtain ⟨hlo, hhi⟩ := hregs d hd
  unfold Engine.drainWrite
  dsimp only
  rw [within_setReg64 _ hlo hhi, within_hostWrite _ _ _ _ (by decide), within_setDrain]
  exact .refl _ _

theorem within_drainsIssue (k : Nat) (h : partsIn drainParts l = true) : Engine.Within l m (Engine.drainsIssue k m') ↔ Engine.Within l m m' := by
  induction k generalizing m' with
  | zero => exact .rfl
  | succ k ih =>
    unfold Engine.drainsIssue
    split
    · exact .rfl
    · next d dst bytes hsome =>
      have hd : d < 4 := by
        obtain ⟨d', hmem, hfound⟩ := List.exists_of_findSome?_eq_some hsome
        obtain ⟨w, -, hw⟩ := Option.map_eq_some_iff.1 hfound
        obtain ⟨i, -, hi⟩ := List.mem_map.1 hmem
        have hd' : d' = d := congrArg Prod.fst hw
        rw [← hd', ← hi]
        exact Nat.mod_lt _ (by decide)
      rw [ih, within_drainWrite hd _ _ h, within_setHost]

theorem within_drainsGo (h : partsIn drainParts l = true) : Engine.Within l m m'.drainsGo ↔ Engine.Within l m m' := within_drainsIssue _ h

@[simp] theorem within_linkCycle : Engine.Within l m m'.linkCycle ↔ Engine.Within l m m' := by
  refine Engine.Within.step_self ?_
  unfold Engine.linkCycle
  simp

/-! The dam's pin. -/

/-- The parts that the dam's pin may change. -/
def pinParts : List Part := [.dam, .links, .of .damB]

theorem within_damBegin (t : Tb) (h : partsIn pinParts l = true) : Engine.Within l m (m'.damBegin t) ↔ Engine.Within l m m' := by
  refine Engine.Within.step (k := pinParts) ?_ h
  unfold Engine.damBegin
  extract_lets own code dam1 m1 m2 m3
  have hshown : Engine.Within pinParts m' m3 := by
    simp only [m3, m2, m1]
    rw [within_log, within_status (by decide), within_addSat _ (by decide), within_setReg _ (by decide), within_setReg64 _ (by decide) (by decide), within_setDam _ (.inl (by decide))]
    exact .refl _ _
  clear_value m3
  refine hshown.trans ?_
  rw [within_ite, within_sendBoth _ (by decide)]
  exact ⟨fun _ => .refl _ _, fun _ => .refl _ _⟩

theorem within_damPinCycle (t : Tb) (h : partsIn pinParts l = true) : Engine.Within l m (m'.damPinCycle t) ↔ Engine.Within l m m' := by
  refine Engine.Within.step (k := pinParts) ?_ h
  unfold Engine.damPinCycle
  extract_lets dam0 m1 low m2 highs dam2 m3 m4 heeded
  have hdriven : Engine.Within pinParts m' m1 := by
    simp only [m1]
    split
    · split
      · exact (within_setDam _ (.inl (by decide))).2 (.refl _ _)
      · exact .refl _ _
    · exact .refl _ _
  have hseen : Engine.Within pinParts m1 m4 := by
    simp only [m4, m3, m2]
    rw [within_ite, within_setFlag _ (by decide), within_setDam _ (.inl (by decide)), within_setFlag _ (by decide)]
    exact ⟨fun _ => .refl _ _, fun _ => .refl _ _⟩
  clear_value heeded m4
  split
  · exact hdriven
  · refine (hdriven.trans hseen).trans ?_
    rw [within_ite, within_damBegin _ (by decide)]
    exact ⟨fun _ => .refl _ _, fun _ => .refl _ _⟩

/-! The whole of it. -/

/-- The parts that the units may change once a cycle has ticked. -/
def unitParts : List Part := pinParts ++ drainParts ++ frontParts ++ [.of .rugB, .pipe]

theorem Chip.eng_testYield (c : Chip) : Engine.Within [] c.eng c.testYield.eng := by
  unfold Chip.testYield
  dsimp only
  split
  · exact .refl _ _
  · exact (within_setCis _).2 (.refl _ _)

theorem within_unitsCycle (c : Chip) (pins : Pins) : Engine.Within unitParts c.eng (c.unitsCycle pins).eng := by
  have hyield : Engine.Within unitParts c.eng c.testYield.eng := c.eng_testYield.mono (by decide)
  refine hyield.trans ?_
  unfold Chip.unitsCycle
  dsimp only
  rw [within_pipeStage (by decide), within_gaugeStage (by decide), within_gateCycle, within_frontCycle _ (by decide), within_linkCycle, within_drainsGo (by decide), within_budgetCycle,
    within_weirTimers, within_damPinCycle _ (by decide)]
  exact .refl _ _

end Sys2Proof.Machine
end

section
/-! SUPPORT. A cycle of a module that stops: the dam's gate (R270). -/
namespace Sys2Proof.Machine
open Sys2Proof

variable {l : List Part} {m m' : Engine} {c : Chip}

/-! What the controller holds is finished: pseudo-channels' registers lie from 0xB1000 on, whatever their number. -/

/-- The parts that finishing the controller's queues may change. -/
def finishParts : List Part := [.high, .links]

theorem inParts_high {a : Nat} (ha : 0xB0000 ≤ a) (hl : l.contains .high = true) : inParts l a = true :=
  List.any_eq_true.2 ⟨.high, List.contains_iff_mem.1 hl, by simp [Part.has, ha]⟩

theorem within_cisEcc (ecc : Ecc) (a : Nat) (h : partsIn finishParts l = true) : Engine.Within l m (m'.cisEcc ecc a) ↔ Engine.Within l m m' := by
  refine Engine.Within.step (k := finishParts) ?_ h
  have hce : inParts finishParts (R.CISP_PC_CE (m'.pcOf a / 32) (m'.pcOf a % 32)) = true := inParts_high (by unfold R.CISP_PC_CE; omega) rfl
  have hue : inParts finishParts (R.CISP_PC_UE (m'.pcOf a / 32) (m'.pcOf a % 32)) = true := inParts_high (by unfold R.CISP_PC_UE; omega) rfl
  unfold Engine.cisEcc
  cases ecc with
  | good => exact .refl _ _
  | single => simp +decide [hce]
  | double => simp +decide [hue]

theorem within_drawEcc (a : Nat) (h : partsIn finishParts l = true) : Engine.Within l m (m'.drawEcc a).2 ↔ Engine.Within l m m' := by
  refine Engine.Within.step (k := finishParts) ?_ h
  unfold Engine.drawEcc
  exact (within_cisEcc _ _ (by decide)).2 (within_draw.2 (.refl _ _))

@[simp] theorem within_fetchArrives (o : Nat) (bad : Bool) : Engine.Within l m (m'.fetchArrives o bad) ↔ Engine.Within l m m' := by
  refine Engine.Within.step_self ?_
  unfold Engine.fetchArrives
  simp only [within_update, or_true, and_self, Engine.Within.refl]

@[simp] theorem within_drainGets (d tag a : Nat) (bytes : List Byte) (bad : List Nat) : Engine.Within l m (m'.drainGets d tag a bytes bad) ↔ Engine.Within l m m' := by
  refine Engine.Within.step_self ?_
  unfold Engine.drainGets
  dsimp only
  split
  · exact .refl _ _
  · rw [within_ite, within_setDrain]
    exact ⟨fun _ => .refl _ _, fun _ => .refl _ _⟩

theorem within_readDone (mem : Memory) (r : CisRead) (h : partsIn [.links] l = true) : Engine.Within l m (m'.readDone mem r) ↔ Engine.Within l m m' := by
  refine Engine.Within.step (k := [.links]) ?_ h
  unfold Engine.readDone
  extract_lets bytes
  split
  · simp
  · simp
  · extract_lets rs m1 host
    split
    · exact .refl _ _
    · split
      · simp
      · have hm1 : Engine.Within [.links] m' m1 := (within_setCis _).2 (.refl _ _)
        split
        · exact (within_funnelReply _ _ _ _ (by decide)).2 hm1
        · split
          · exact hm1
          · simp +decide only [within_update, or_true, and_self]
            exact hm1

theorem within_finishRead (mem : Memory) (r : CisRead) (h : partsIn finishParts l = true) : Engine.Within l m (m'.finishRead mem r) ↔ Engine.Within l m m' := by
  refine Engine.Within.step (k := finishParts) ?_ h
  unfold Engine.finishRead
  refine (within_readDone _ _ (by decide)).2 (within_pairFold _ (fun s k _ => ?_) (m', r.bad))
  exact (within_drawEcc _ (by decide)).2 (.refl _ _)

theorem within_finishWrite (w : CisWrite) : Engine.Within finishParts c.eng (c.finishWrite w).eng := by
  unfold Chip.finishWrite
  refine within_pairFold _ (fun s k _ => ?_) (c.eng, w)
  dsimp only
  split
  · have hdraw := (within_drawEcc (m' := s.1) (CisWrite.next { w with sent := k, rmw := decide (k < w.sent) || (w.rmw && k == w.sent) }) (by decide)).2 (Engine.Within.refl finishParts s.1)
    split
    · exact within_draw.2 hdraw
    · exact hdraw
  · exact .refl _ _

theorem within_finishQueues (c : Chip) : Engine.Within finishParts c.eng c.finishQueues.eng := by
  unfold Chip.finishQueues
  refine within_chipLoop 64 (fun p x => ?_) c
  extract_lets pc ws src m1 mem
  generalize List.partition _ _ = part
  obtain ⟨begun, rs⟩ := part
  dsimp only
  split
  · exact .refl _ _
  have hbegun : Engine.Within finishParts x.eng (begun.foldl (fun m r => m.finishRead mem r) m1) := by
    rw [within_fold _ fun y r _ => (within_finishRead _ _ (by decide)).2 (.refl _ _)]
    exact (within_setCis _).2 (.refl _ _)
  refine (within_fold _ fun y r _ => (within_finishRead _ _ (by decide)).2 (.refl _ _)).2 ?_
  exact hbegun.trans (within_chipFold ws (fun y w => within_finishWrite w) { x with eng := begun.foldl (fun m r => m.finishRead mem r) m1, cistern := mem })

/-! The gate closes. -/

theorem within_cisSelfRefresh (h : partsIn [.of .cisB] l = true) : Engine.Within l m m'.cisSelfRefresh ↔ Engine.Within l m m' := by
  refine Engine.Within.step (k := [.of .cisB]) ?_ h
  simp +decide [Engine.cisSelfRefresh, Engine.closeRows]

theorem Engine.Within.wrapDue (h : Engine.Within l m m') : m'.wrapDue = m.wrapDue := congrArg (·.2.2.2.2.1) h.times

/-- What a loaded cycle shows: the rota halted and empty, the load done. -/
def Engine.haltShown (m : Engine) : Bool × List RotaAct × Bool := (m.flag R.ROTA_STATUS_HALTED, m.rota.queue, m.hasBit R.E_TB_LOADED)

theorem Engine.Within.haltShown (h : Engine.Within l m m') (hrota : inParts l R.ROTA_STATUS = false) (htb : inParts l (statusAddr 6) = false) (hqueue : partsIn [.queue] l = false) :
    m'.haltShown = m.haltShown := by
  unfold Engine.haltShown
  rw [h.flag (f := R.ROTA_STATUS_HALTED) hrota, h.queue hqueue, h.hasBit (b := R.E_TB_LOADED) htb]

/-- Two engines have the same time and show a loaded cycle alike. -/
def Engine.SameShown (m m' : Engine) : Prop := m'.clock = m.clock ∧ m'.wrapDue = m.wrapDue ∧ m'.haltShown = m.haltShown

theorem Engine.Within.sameShown (h : Engine.Within l m m') (hrota : inParts l R.ROTA_STATUS = false) (htb : inParts l (statusAddr 6) = false) (hqueue : partsIn [.queue] l = false) :
    Engine.SameShown m m' := ⟨h.clock, h.wrapDue, h.haltShown hrota htb hqueue⟩

/-- The module is dammed: its clocks stop, TB is recorded. -/
def Engine.gateCloses (m : Engine) : Engine :=
  ((({ m with running := false }.setReg64 R.TB_DAM_TB_LO m.tb).setFlag R.DAM_STATUS_DAMMED true).setFlag R.DAM_STATUS_STOPPING false)

theorem Engine.gateCloses_shows (m : Engine) : Engine.SameShown m m.gateCloses := by
  have hreg : ∀ a, a ∉ [R.TB_DAM_TB_LO, R.TB_DAM_TB_LO + 4, R.DAM_STATUS] → m.gateCloses.reg a = m.reg a := fun a ha => by
    unfold Engine.gateCloses
    rw [Engine.reg_setFlag_off ha _ _ (by decide), Engine.reg_setFlag_off ha _ _ (by decide), Engine.reg_setReg64_off ha _ _ (by decide) (by decide)]
    rfl
  refine ⟨rfl, rfl, ?_⟩
  unfold Engine.haltShown
  rw [Engine.flag_of_reg (f := R.ROTA_STATUS_HALTED) (hreg _ (by decide)), Engine.hasBit_of_reg (b := R.E_TB_LOADED) (hreg _ (by decide))]
  rfl

theorem Chip.damGate_shows (c : Chip) : Engine.SameShown c.eng c.damGate.eng := by
  unfold Chip.damGate
  split
  · exact ⟨rfl, rfl, rfl⟩
  · have hw : Engine.Within (finishParts ++ [.of .cisB]) c.eng c.finishQueues.eng.cisSelfRefresh :=
      (within_cisSelfRefresh (by decide)).2 ((within_finishQueues c).mono (by decide))
    obtain ⟨hclock, hwrap, hshown⟩ := c.finishQueues.eng.cisSelfRefresh.gateCloses_shows
    exact ⟨hclock.trans hw.clock, hwrap.trans hw.wrapDue, hshown.trans (hw.haltShown (by decide) (by decide) (by decide))⟩

end Sys2Proof.Machine
end

section
/-! SUPPORT. A sample cycle, whatever the module does in it, is one tick of the time base (R8, R172, R270); loads and the wrap (R171). -/
namespace Sys2Proof.Machine
open Sys2Proof

variable {m m' : Engine} {c : Chip}

/-! One tick, and nothing else that touches time. -/

/-- Of time and of what a loaded cycle shows, `m'` has what one tick makes of an engine whose time is that of `m`. -/
def Engine.Ticked (m m' : Engine) : Prop :=
  ∃ n : Engine, n.clock = m.clock ∧ Engine.SameShown n.tick m'

theorem Chip.stoppedCycle_ticked (c : Chip) : Engine.Ticked c.eng c.stoppedCycle.eng := by
  have hbefore : Engine.Within [.any] c.eng (c.logFlush (c.eng.cc / 2)).dispInstants.eng := by
    rw [steady_dispInstants, steady_logFlush]
    exact .refl _ _
  refine ⟨(c.logFlush (c.eng.cc / 2)).dispInstants.eng, hbefore.clock, ?_⟩
  unfold Chip.stoppedCycle
  dsimp only
  split
  · exact Chip.damGate_shows _
  · exact ⟨rfl, rfl, rfl⟩

theorem Chip.sampleCycle_ticked {pins : Pins} (hrun : c.eng.running = true) (hdam : c.eng.dammed = false) : Engine.Ticked c.eng (c.sampleCycle pins).eng := by
  unfold Chip.sampleCycle
  simp only [hrun, hdam, Bool.false_and, Bool.not_true, Bool.or_self, Bool.false_eq_true, if_false]
  split
  · obtain ⟨n, hn, hshows⟩ := Chip.stoppedCycle_ticked { c with eng := c.eng.linkSlots }
    exact ⟨n, hn.trans (steady_linkSlots.2 (.refl _ _)).clock, hshows⟩
  · split
    · obtain ⟨n, hn, hshows⟩ := c.catchUp.stoppedCycle_ticked
      exact ⟨n, hn.trans c.clock_catchUp, hshows⟩
    · exact ⟨c.catchUp.eng, c.clock_catchUp, (within_unitsCycle { c.catchUp with eng := c.catchUp.eng.tick } pins).sameShown (by decide) (by decide) (by decide)⟩

theorem Engine.Ticked.no_load (h : Engine.Ticked m m') (hfirst : m.first = false) (hload : m.tbLoad = none) :
    m'.tb = m.tb + 16 ∧ m'.cc = m.cc + 1 ∧ (m.tb + 16 = 0 → m'.wrapDue = true) := by
  obtain ⟨n, hn, hclock, hwrap, -⟩ := h
  simp only [Engine.clock, Prod.mk.injEq] at hn hclock
  obtain ⟨htb, hcc, hf, hl⟩ := hn
  obtain ⟨htick, hcount, hdue⟩ := Engine.tick_of_no_load (hf.trans hfirst) (hl.trans hload)
  refine ⟨hclock.1.trans (htick.trans (by rw [htb])), hclock.2.1.trans (hcount.trans (by rw [hcc])), fun h0 => ?_⟩
  exact hwrap.trans (hdue (htb ▸ h0))

theorem Engine.Ticked.load {k : Nat} (h : Engine.Ticked m m') (hload : m.tbLoad = some k) :
    m'.tb = tbOfCycle k ∧ m'.cc = m.cc + 1 ∧ m'.tbLoad = none ∧ m'.flag R.ROTA_STATUS_HALTED = true ∧ m'.rota.queue = [] ∧ m'.hasBit R.E_TB_LOADED = true := by
  obtain ⟨n, hn, hclock, -, hshown⟩ := h
  simp only [Engine.clock, Engine.haltShown, Prod.mk.injEq] at hn hclock hshown
  obtain ⟨-, hcc, -, hl⟩ := hn
  obtain ⟨htick, hcount, hdone, hhalt, hqueue, hloaded⟩ := Engine.tick_of_load (hl.trans hload)
  obtain ⟨htb', hcc', -, hload'⟩ := hclock
  obtain ⟨hhalt', hqueue', hloaded'⟩ := hshown
  exact ⟨htb'.trans htick, hcc'.trans (hcount.trans (by rw [hcc])), hload'.trans hdone, hhalt'.trans hhalt, hqueue'.trans hqueue, hloaded'.trans hloaded⟩

/-! Cycles that move no time. -/

theorem Chip.sampleCycle_dammed (pins : Pins) (hdam : c.eng.dammed = true) (hpow : c.eng.mgt.powered = true) (hlost : c.eng.lost = false) :
    c.sampleCycle pins = { c with eng := c.eng.linkSlots } := by
  simp [Chip.sampleCycle, hdam, hpow, hlost]

theorem Chip.sampleCycle_stopped (pins : Pins) (hdam : c.eng.dammed = false) (hrun : c.eng.running = false) : c.sampleCycle pins = c := by
  simp [Chip.sampleCycle, hdam, hrun]

/-! A request to load TB, and the wrap. -/

/-- The write of TB.CTL.LOAD, before the request is looked at. -/
def Engine.loadAsked (m : Engine) : Engine := m.storeFields tbCtlHit R.TB_CTL 1

@[simp] theorem Engine.reg_loadAsked (m : Engine) (a : Nat) : m.loadAsked.reg a = m.reg a := m.reg_storeFields_of_no_rw _ _ (by decide) a

@[simp] theorem Engine.flag_loadAsked (m : Engine) (f : Field) : m.loadAsked.flag f = m.flag f := Engine.flag_of_reg (m.reg_loadAsked _)

@[simp] theorem Engine.armed_loadAsked (m : Engine) : m.loadAsked.armed = m.armed := m.flag_loadAsked _

@[simp] theorem Engine.reg64_loadAsked (m : Engine) (a : Nat) : m.loadAsked.reg64 a = m.reg64 a := Engine.reg64_of_reg (m.reg_loadAsked _) (m.reg_loadAsked _)

theorem Engine.tb_tbLoadReq (m : Engine) : m.tbLoadReq.tb = m.tb := by
  unfold Engine.tbLoadReq
  split <;> rfl

theorem Engine.tbLoadReq_accepted (harmed : m.armed = false) (htrib : m.flag R.TB_STATUS_TRIB = false) (hload : m.tbLoad = none) :
    m.tbLoadReq.tbLoad = some (cycleOf (m.reg64 R.TB_LOADVAL_LO)) ∧ m.tbLoadReq.flag R.TB_CTL_LOAD = true ∧ m.tbLoadReq.flag R.TB_STATUS_REFUSED = false ∧
      ∀ a, a ∉ [R.TB_CTL, R.TB_STATUS] → m.tbLoadReq.reg a = m.reg a := by
  have heq : m.tbLoadReq = ({ m with tbLoad := some (cycleOf (m.reg64 R.TB_LOADVAL_LO)) }.setFlag R.TB_CTL_LOAD true).setFlag R.TB_STATUS_REFUSED false := by
    simp [Engine.tbLoadReq, harmed, htrib, hload]
  rw [heq]
  refine ⟨rfl, ?_, Engine.flag_setFlag_same _ _ _ (by decide) rfl, fun a ha => ?_⟩
  · rw [Engine.flag_setFlag_ne _ _ (by decide), Engine.flag_setFlag_same _ _ _ (by decide) rfl]
  · exact (Engine.reg_setFlag_off ha _ _ (by decide)).trans (Engine.reg_setFlag_off ha _ _ (by decide))

theorem Engine.tbLoadReq_refused (h : m.armed = true ∨ m.flag R.TB_STATUS_TRIB = true ∨ m.tbLoad.isSome = true) :
    m.tbLoadReq.tbLoad = m.tbLoad ∧ m.tbLoadReq.flag R.TB_STATUS_REFUSED = true ∧ ∀ a, a ∉ [R.TB_CTL, R.TB_STATUS] → m.tbLoadReq.reg a = m.reg a := by
  unfold Engine.tbLoadReq
  rw [if_pos (by simpa [or_assoc] using h)]
  exact ⟨rfl, Engine.flag_setFlag_same _ _ _ (by decide) rfl, fun a ha => (Engine.reg_setFlag_off ha _ _ (by decide)).trans (Engine.reg_setFlag_off ha _ _ (by decide))⟩

theorem Engine.tbWrap_of_due (h : m.wrapDue = true) : m.tbWrap = ({ m with wrapDue := false }).status R.E_TB_TB_WRAP := by simp [Engine.tbWrap, h]

/-- Settles O28: a sample cycle is one tick among operations that leave time alone; a request to load is a write of TB.CTL. -/
theorem timebase : Obligations.Timebase := by
  unfold Obligations.Timebase
  refine ⟨fun s pins hrun hdam hfirst hload => ?_, fun s pins k hrun hdam hload => ?_, fun s pins hdam hpow hlost => ?_, fun s pins hdam hrun => ?_,
    fun s port hacc harmed htrib hload => ?_, fun s port hacc hbusy => ?_, fun s hrun hdue => State.ends_clocked Engine.tbWrap hrun ?_⟩
  · obtain ⟨htb, hcc, hwrap⟩ := (Chip.sampleCycle_ticked (c := s.chip) (pins := pins) hrun hdam).no_load hfirst hload
    exact ⟨_, rfl, htb, hcc, hwrap, rfl⟩
  · obtain ⟨htb, hcc, hdone, hhalt, hqueue, hloaded⟩ := (Chip.sampleCycle_ticked (c := s.chip) (pins := pins) hrun hdam).load hload
    exact ⟨_, rfl, htb, hcc, hdone, hhalt, hqueue, hloaded, rfl⟩
  · exact congrArg (fun c => Host.Outcome.next { s with chip := c }) (Chip.sampleCycle_dammed (c := s.chip) pins hdam hpow hlost)
  · exact congrArg (fun c => Host.Outcome.next { s with chip := c }) (Chip.sampleCycle_stopped (c := s.chip) pins hdam hrun)
  · refine State.ends_write hacc decodeReg_tbCtl (Chip.writeAt_tbCtl _ rfl) ?_
    obtain ⟨htaken, hset, hnotRefused, hreg⟩ := Engine.tbLoadReq_accepted (s.eng.armed_loadAsked.trans harmed) ((s.eng.flag_loadAsked _).trans htrib) hload
    exact ⟨htaken.trans (by rw [Engine.reg64_loadAsked]), hset, hnotRefused, rfl, State.kept_withEng (fun a ha => (hreg a ha).trans (s.eng.reg_loadAsked a)) (Engine.tb_tbLoadReq _)⟩
  · refine State.ends_write hacc decodeReg_tbCtl (Chip.writeAt_tbCtl _ rfl) ?_
    obtain ⟨hkept, hrefused, hreg⟩ := Engine.tbLoadReq_refused (m := s.eng.loadAsked) (by rwa [Engine.armed_loadAsked, Engine.flag_loadAsked])
    exact ⟨hkept, hrefused, rfl, State.kept_withEng (fun a ha => (hreg a ha).trans (s.eng.reg_loadAsked a)) (Engine.tb_tbLoadReq _)⟩
  · rw [Engine.tbWrap_of_due hdue]
    exact ⟨by simp, Engine.hasBit_status_same _ R.E_TB_TB_WRAP (by decide), State.kept_withEng (fun a ha => Engine.reg_status_off ha _ (by decide)) (by simp)⟩

end Sys2Proof.Machine
end

section
/-! SUPPORT. Writes of an intake's held configuration, and the calibration measurement (R53 to R55): what each operation sets and what it leaves. -/
namespace Sys2Proof.Machine
open Sys2Proof

variable {m : Engine} {n a : Nat}

/-! An intake's page, and its registers whose writes are held while the engine is armed. -/

theorem pageOf_intk (hn : n < 48) : pageOf (0x10 + n) = some (.intkB, n) := by
  unfold pageOf
  rw [if_neg (by omega), if_neg (by omega), if_pos (by omega), Nat.add_sub_cancel_left]

/-- A configuration register of an intake that takes its value brings nothing else about. -/
theorem Engine.takeConfig_intk (m : Engine) (v : Word) (hpage : pageOf (a / 0x1000) = some (.intkB, n)) :
    m.takeConfig a v = { m.setReg a (mergeRw a (m.reg a) v) with badParity := m.badParity.filter (fun k => k != a) } := by
  simp [Engine.takeConfig, hpage]

/-- A write of a held register of an intake, while the engine is disarmed and nothing is stored, takes the register's writable bits at once (R82). -/
theorem Chip.writeAt_intkConfig {c : Chip} {h : RegHit} (v : Word) (hpage : pageOf (a / 0x1000) = some (.intkB, n)) (hheld : c.eng.isHeld a = true)
    (harmed : c.eng.armed = false) (hactive : c.eng.store.active = false) :
    c.writeAt h a v = { c with eng := { c.eng.setReg a (mergeRw a (c.eng.reg a) v) with badParity := c.eng.badParity.filter (fun k => k != a) } } := by
  have hru : ruHeld a = false := by simp [ruHeld, hpage]
  simp [Chip.writeAt, hheld, hru, harmed, hactive, Engine.noteWrite, Engine.takeConfig_intk _ _ hpage]

theorem State.ends_intkConfig {s : State} {port : Port} {v : Word} (hpage : pageOf (a / 0x1000) = some (.intkB, n)) (hheld : s.eng.isHeld a = true)
    (harmed : s.eng.armed = false) (hactive : s.eng.store.active = false) (hacc : s.accepts port a v = true) :
    Ends (s.write port a v) (fun t => t.eng.reg a = mergeRw a (s.eng.reg a) v ∧ t.eng.answer = okAnswer port ∧ Kept s t [a]) := by
  obtain ⟨-, -, -, -, -, -, -, h, hreg, -, -⟩ := State.accepts_inv hacc
  refine State.ends_write hacc hreg (Chip.writeAt_intkConfig v hpage hheld harmed hactive) ⟨?_, rfl, State.kept_withEng (fun b hb => ?_) rfl⟩
  · exact s.eng.reg_setReg_same a _
  · exact Engine.reg_setReg_off hb s.eng _ (List.mem_singleton.2 rfl)

/-- The register that a TRIM_WRITE names (R53). -/
def trimAddr (n : Fin 48) : TrimReg → Nat
  | .ctl => R.INTK_CTL n
  | .lcfg line => R.INTK_LCFG n line
  | .cktrim => R.INTK_CKTRIM n

theorem trimAddr_page (n : Fin 48) (which : TrimReg) : pageOf (trimAddr n which / 0x1000) = some (.intkB, n.val) := by
  rw [← pageOf_intk n.isLt]
  congr 1
  cases which <;> simp only [trimAddr, R.INTK_CTL, R.INTK_LCFG, R.INTK_CKTRIM] <;> omega

theorem Engine.isHeld_trim (m : Engine) (n : Fin 48) (which : TrimReg) : m.isHeld (trimAddr n which) = true := by
  simp only [Engine.isHeld, trimAddr_page]
  cases which with
  | ctl => simp [trimAddr]
  | cktrim => simp [trimAddr]
  | lcfg line =>
    have hlo : 0x100 ≤ R.INTK_LCFG n line % 0x1000 := by simp only [R.INTK_LCFG]; omega
    have hhi : R.INTK_LCFG n line % 0x1000 < 0x400 := by simp only [R.INTK_LCFG]; omega
    have halign : R.INTK_LCFG n line % 16 = 0 := by simp only [R.INTK_LCFG]; omega
    simp [trimAddr, offIn, hlo, hhi, halign]

theorem exec_trimWrite (port : Port) (n : Fin 48) (which : TrimReg) (v : Word) (s : State) : exec (.trimWrite port n which v) s = s.write port (trimAddr n which) v := by
  cases which <;> rfl

/-! A write of CAL with GO (R54). -/

/-- What CAL of an intake decodes to. -/
def calHit (n : Nat) : RegHit := ⟨.intkB, n, 0x10 + n, 0x70, { off := 0x70, rw := 0xFFFF00FF, w1s := 0x100 }⟩

theorem decodeReg_cal (hn : n < 48) : decodeReg (R.INTK_CAL n) = some (calHit n) := by
  have halign : R.INTK_CAL n % 4 = 0 := by unfold R.INTK_CAL; omega
  have hpage : R.INTK_CAL n / 0x1000 = 0x10 + n := by unfold R.INTK_CAL; omega
  have hoff : R.INTK_CAL n % 0x1000 = 0x70 := by unfold R.INTK_CAL; omega
  have hrow : findRow .intkB 0x70 = some (calHit n).row := rfl
  simp [decodeReg, halign, hpage, hoff, pageOf_intk hn, hrow, calHit]

/-- CAL is written while the engine is armed, too. -/
theorem Engine.isHeld_cal (m : Engine) (hn : n < 48) : m.isHeld (R.INTK_CAL n) = false := by
  have hpage : R.INTK_CAL n / 0x1000 = 0x10 + n := by unfold R.INTK_CAL; omega
  have hoff : R.INTK_CAL n % 0x1000 = 0x70 := by unfold R.INTK_CAL; omega
  have hctl : R.INTK_CAL n ≠ R.INTK_CTL n := by unfold R.INTK_CAL R.INTK_CTL; omega
  have hcktrim : R.INTK_CAL n ≠ R.INTK_CKTRIM n := by unfold R.INTK_CAL R.INTK_CKTRIM; omega
  simp [Engine.isHeld, hpage, pageOf_intk hn, offIn, hoff, hctl, hcktrim]

/-- The write of CAL, before the request is looked at. -/
def Engine.calAsked (m : Engine) (n : Nat) (v : Word) : Engine := m.storeFields (calHit n) (R.INTK_CAL n) (v ||| 0x100)

theorem Chip.writeAt_cal (c : Chip) (hn : n < 48) (v : Word) :
    c.writeAt (calHit n) (R.INTK_CAL n) (v ||| 0x100) = { c with eng := (c.eng.calAsked n v).calGo n (c.eng.calAsked n v).armed } := by
  have hgo : bitAt (v ||| 0x100).toNat 8 = true := by
    rw [bitAt, BitVec.toNat_or, Nat.testBit_or, show (0x100 : Word).toNat.testBit 8 = true by decide, Bool.or_true]
  have hthrsel : R.INTK_CAL n ≠ R.INTK_THRSEL n := by unfold R.INTK_CAL R.INTK_THRSEL; omega
  have hthrA : R.INTK_CAL n ≠ R.INTK_THR_A n := by unfold R.INTK_CAL R.INTK_THR_A; omega
  have hthrB : R.INTK_CAL n ≠ R.INTK_THR_B n := by unfold R.INTK_CAL R.INTK_THR_B; omega
  have hckthr : R.INTK_CAL n ≠ R.INTK_CKTHR n := by unfold R.INTK_CAL R.INTK_CKTHR; omega
  have hxctl : R.INTK_CAL n ≠ R.INTK_XCTL n := by unfold R.INTK_CAL R.INTK_XCTL; omega
  simp only [Chip.writeAt, c.eng.isHeld_cal hn, Engine.keyOf, calHit, Chip.writeEffect, Engine.captureEffect, Chip.pageEffect, Chip.hostEffect, hgo, hthrsel, hthrA, hthrB, hckthr, hxctl,
    Engine.calAsked, Bool.false_and, Bool.false_eq_true, if_false, Nat.reduceLT, and_self, if_true]

theorem Engine.reg_calAsked_ne (m : Engine) (v : Word) (ha : a ≠ R.INTK_CAL n) : (m.calAsked n v).reg a = m.reg a := m.reg_storeFields_ne _ _ ha

theorem Engine.armed_calAsked (m : Engine) (n : Nat) (v : Word) : (m.calAsked n v).armed = m.armed :=
  Engine.flag_of_reg (f := R.SYS_STATUS_ARMED) (m.reg_calAsked_ne v (by simp only [R.SYS_STATUS_ARMED, R.SYS_STATUS, R.INTK_CAL]; omega))

theorem Engine.intakes_calAsked (m : Engine) (n : Nat) (v : Word) : (m.calAsked n v).intakes = m.intakes := rfl

theorem Engine.tb_calAsked (m : Engine) (n : Nat) (v : Word) : (m.calAsked n v).tb = m.tb := rfl

/-- CAL_GO of an intake: CAL takes the setting written, and the request is looked at. What is known of the engine after it decides how the command ends. -/
theorem State.ends_calGo {s : State} {port : Port} {n : Fin 48} {v : Word} {Q : Engine → Prop} {P : State → Prop} (hacc : s.accepts port (R.INTK_CAL n) (v ||| 0x100) = true)
    (hgo : Q ((s.eng.calAsked n v).calGo n s.eng.armed)) (hP : ∀ x, Q x → P (s.withEng (x.reply (okAnswer port)))) : Ends (exec (.calGo port n v) s) P := by
  have hat := s.chip.writeAt_cal n.isLt v
  rw [Engine.armed_calAsked] at hat
  exact State.ends_write hacc (decodeReg_cal n.isLt) hat (hP _ hgo)

/-- A field beside bits that are set keeps its value. -/
theorem bitsOf_or_beside (v w : Word) (lo width : Nat) (hw : ∀ i < width, w.getLsbD (lo + i) = false) : bitsOf (v ||| w).toNat lo width = bitsOf v.toNat lo width := by
  apply Nat.eq_of_testBit_eq; intro i
  rw [testBit_bitsOf, testBit_bitsOf, BitVec.testBit_toNat, BitVec.testBit_toNat]
  by_cases hi : i < width
  · simp [hi, hw i hi]
  · simp [hi]

/-- A field of CAL's writable bits reads as written. -/
theorem Engine.fld_calAsked (m : Engine) (v : Word) {f : Field} (haddr : f.addr = R.INTK_CAL n)
    (hrw : ∀ i < f.width, (0xFFFF00FF#32).getLsbD (f.lo + i) = true) (hgo : ∀ i < f.width, (0x100#32).getLsbD (f.lo + i) = false) :
    (m.calAsked n v).fld f = bitsOf v.toNat f.lo f.width := by
  unfold Engine.fld Engine.calAsked
  have hmask : BitVec.ofNat 32 ((calHit n).row.rw ||| (calHit n).row.rwh) = 0xFFFF00FF#32 := by simp only [calHit]; decide
  rw [haddr, m.reg_storeFields_same, hmask]
  exact (bitsOf_merge _ _ _ _ _ hrw).trans (bitsOf_or_beside v 0x100 _ _ hgo)

theorem Engine.fld_calAsked_mode (m : Engine) (n : Nat) (v : Word) : (m.calAsked n v).fld (R.INTK_CAL_MODE n) = bitsOf v.toNat 0 2 :=
  m.fld_calAsked v rfl (by simp only [R.INTK_CAL_MODE]; decide) (by simp only [R.INTK_CAL_MODE]; decide)

theorem Engine.fld_calAsked_refline (m : Engine) (n : Nat) (v : Word) : (m.calAsked n v).fld (R.INTK_CAL_REFLINE n) = bitsOf v.toNat 2 6 :=
  m.fld_calAsked v rfl (by simp only [R.INTK_CAL_REFLINE]; decide) (by simp only [R.INTK_CAL_REFLINE]; decide)

theorem Engine.fld_calAsked_count (m : Engine) (n : Nat) (v : Word) : (m.calAsked n v).fld (R.INTK_CAL_COUNT n) = bitsOf v.toNat 16 16 :=
  m.fld_calAsked v rfl (by simp only [R.INTK_CAL_COUNT]; decide) (by simp only [R.INTK_CAL_COUNT]; decide)

theorem cal_ne_calstat : R.INTK_CAL n ≠ R.INTK_CALSTAT n := by unfold R.INTK_CAL R.INTK_CALSTAT; omega

theorem Engine.flag_calAsked_busy (m : Engine) (n : Nat) (v : Word) : (m.calAsked n v).flag (R.INTK_CALSTAT_BUSY n) = m.flag (R.INTK_CALSTAT_BUSY n) :=
  Engine.flag_of_reg (m.reg_calAsked_ne v cal_ne_calstat.symm)

/-! A measurement that is refused. -/

/-- The refusal: GO reads as BUSY does, and REFUSED is set. -/
def Engine.calRefused (m : Engine) (n : Nat) : Engine := (m.setFlag (R.INTK_CAL_GO n) (m.flag (R.INTK_CALSTAT_BUSY n))).setFlag (R.INTK_CALSTAT_REFUSED n) true

theorem Engine.calGo_refused {armed : Bool}
    (h : m.fld (R.INTK_CAL_MODE n) = 0 ∨ m.fld (R.INTK_CAL_MODE n) = 3 ∨ 49 < m.fld (R.INTK_CAL_REFLINE n) ∨ m.fld (R.INTK_CAL_COUNT n) = 0 ∨ m.fld (R.INTK_CAL_MODE n) = 1 ∧ armed = true) :
    m.calGo n armed = m.calRefused n := by
  unfold Engine.calGo
  refine if_pos ?_
  simp only [Bool.or_eq_true, Bool.and_eq_true, beq_iff_eq, decide_eq_true_eq]
  tauto

theorem Engine.flag_calRefused (m : Engine) (n : Nat) :
    (m.calRefused n).flag (R.INTK_CALSTAT_REFUSED n) = true ∧ (m.calRefused n).flag (R.INTK_CALSTAT_BUSY n) = m.flag (R.INTK_CALSTAT_BUSY n) ∧
      (m.calRefused n).flag (R.INTK_CAL_GO n) = m.flag (R.INTK_CALSTAT_BUSY n) := by
  refine ⟨Engine.flag_setFlag_same _ _ _ (show 17 < 32 by decide) rfl, ?_, ?_⟩
  · exact (Engine.flag_setFlag_beside _ (R.INTK_CALSTAT_REFUSED n) (R.INTK_CALSTAT_BUSY n) _ rfl (.inl (Nat.le_refl 17))).trans (Engine.flag_setFlag_ne _ _ cal_ne_calstat.symm)
  · exact (Engine.flag_setFlag_ne _ _ cal_ne_calstat).trans (Engine.flag_setFlag_same _ _ _ (show 8 < 32 by decide) rfl)

theorem Engine.reg_calRefused_ne (m : Engine) (hcal : a ≠ R.INTK_CAL n) (hstat : a ≠ R.INTK_CALSTAT n) : (m.calRefused n).reg a = m.reg a :=
  (Engine.reg_setFlag_ne _ (R.INTK_CALSTAT_REFUSED n) _ hstat).trans (m.reg_setFlag_ne (R.INTK_CAL_GO n) _ hcal)

theorem Engine.tb_calRefused (m : Engine) (n : Nat) : (m.calRefused n).tb = m.tb := rfl

/-- `x` is what a GO that is refused leaves of `m`. -/
structure Engine.AfterCalRefusal (m x : Engine) (n : Nat) : Prop where
  refused : x.flag (R.INTK_CALSTAT_REFUSED n) = true
  busy : x.flag (R.INTK_CALSTAT_BUSY n) = m.flag (R.INTK_CALSTAT_BUSY n)
  go : x.flag (R.INTK_CAL_GO n) = m.flag (R.INTK_CALSTAT_BUSY n)
  off : ∀ a, a ∉ [R.INTK_CAL n, R.INTK_CALSTAT n] → x.reg a = m.reg a
  tb : x.tb = m.tb

/-- A GO is refused without a mode, with an input that is none, with no edges to count, or for an INTERNAL measurement of an armed engine (R54, R55). -/
theorem Engine.calGo_refuses {v : Word} {armed : Bool}
    (h : bitsOf v.toNat 0 2 = 0 ∨ bitsOf v.toNat 0 2 = 3 ∨ 49 < bitsOf v.toNat 2 6 ∨ bitsOf v.toNat 16 16 = 0 ∨ bitsOf v.toNat 0 2 = 1 ∧ armed = true) :
    m.AfterCalRefusal ((m.calAsked n v).calGo n armed) n := by
  rw [← m.fld_calAsked_mode n v, ← m.fld_calAsked_refline n v, ← m.fld_calAsked_count n v] at h
  rw [Engine.calGo_refused h]
  obtain ⟨hrefused, hbusy, hgo⟩ := (m.calAsked n v).flag_calRefused n
  rw [Engine.flag_calAsked_busy] at hbusy hgo
  refine ⟨hrefused, hbusy, hgo, fun a ha => ?_, by rw [Engine.tb_calRefused, Engine.tb_calAsked]⟩
  obtain ⟨hcal, hstat⟩ : a ≠ R.INTK_CAL n ∧ a ≠ R.INTK_CALSTAT n := by simpa using ha
  rw [Engine.reg_calRefused_ne _ hcal hstat, Engine.reg_calAsked_ne _ _ hcal]

/-! A measurement that starts. -/

/-- The results of the first k lines are cleared. Irreducible, so that no proof runs through the lines one by one. -/
@[irreducible] def Engine.linesCleared (m : Engine) (n k : Nat) : Engine := forEach k (fun x m => (m.setReg (R.INTK_CALSUM n x) 0).setReg (R.INTK_CALMISS n x) 0) m

theorem Engine.linesCleared_succ (m : Engine) (n k : Nat) : m.linesCleared n (k + 1) = ((m.linesCleared n k).setReg (R.INTK_CALSUM n k) 0).setReg (R.INTK_CALMISS n k) 0 := by
  simp [Engine.linesCleared, forEach, List.range_succ]

theorem Engine.reg_linesCleared_ne (m : Engine) {k : Nat} (ha : ∀ x < k, a ≠ R.INTK_CALSUM n x ∧ a ≠ R.INTK_CALMISS n x) : (m.linesCleared n k).reg a = m.reg a := by
  induction k with
  | zero => simp [Engine.linesCleared, forEach]
  | succ k ih =>
    obtain ⟨hsum, hmiss⟩ := ha k (Nat.lt_succ_self k)
    rw [Engine.linesCleared_succ, Engine.reg_setReg_ne _ _ hmiss, Engine.reg_setReg_ne _ _ hsum, ih fun x hx => ha x (Nat.lt_succ_of_lt hx)]

theorem Engine.reg_linesCleared (m : Engine) {k x : Nat} (hx : x < k) :
    (m.linesCleared n k).reg (R.INTK_CALSUM n x) = 0 ∧ (m.linesCleared n k).reg (R.INTK_CALMISS n x) = 0 := by
  induction k with
  | zero => exact absurd hx (Nat.not_lt_zero x)
  | succ k ih =>
    have hsumMiss : R.INTK_CALSUM n x ≠ R.INTK_CALMISS n k := by unfold R.INTK_CALSUM R.INTK_CALMISS; omega
    have hmissSum : R.INTK_CALMISS n x ≠ R.INTK_CALSUM n k := by unfold R.INTK_CALSUM R.INTK_CALMISS; omega
    rw [Engine.linesCleared_succ, Engine.reg_setReg_ne _ _ hsumMiss]
    obtain rfl | hlt : x = k ∨ x < k := by omega
    · exact ⟨Engine.reg_setReg_same _ _ _, Engine.reg_setReg_same _ _ _⟩
    · obtain ⟨hsum, hmiss⟩ := ih hlt
      have hsumNe : R.INTK_CALSUM n x ≠ R.INTK_CALSUM n k := by unfold R.INTK_CALSUM; omega
      have hmissNe : R.INTK_CALMISS n x ≠ R.INTK_CALMISS n k := by unfold R.INTK_CALMISS; omega
      rw [Engine.reg_setReg_ne _ _ hsumNe, Engine.reg_setReg_ne _ _ hmissNe, Engine.reg_setReg_ne _ _ hmissSum]
      exact ⟨hsum, hmiss⟩

/-- Every result of the intake's last measurement is cleared. -/
def Engine.resultsCleared (m : Engine) (n : Nat) : Engine := (((m.linesCleared n 48).setReg (R.INTK_CK0SUM n) 0).setReg (R.INTK_CK1SUM n) 0).setReg (R.INTK_CKMISS n) 0

/-- The results cleared and the status that of a measurement under way. -/
def Engine.calRuns (m : Engine) (n : Nat) : Engine := (((m.resultsCleared n).setReg (R.INTK_CALSTAT n) 0).setFlag (R.INTK_CALSTAT_BUSY n) true).setFlag (R.INTK_CAL_GO n) true

/-- An intake's inner state at the start of a measurement: the settings of mode and reference are those that were asked for, the phase is that of free value k. -/
def Engine.calSet (m : Engine) (n mode ref k : Nat) : Intake :=
  { m.intake n with
    calRefs := [], calLast := m.cc + 1, calPhase := Config.calPhase k, calMode := mode, calRef := ref, calCount := m.fld (R.INTK_CAL_COUNT n) }

theorem Engine.calSet_setting (m : Engine) (n mode ref k : Nat) :
    (m.calSet n mode ref k).calMode = mode ∧ (m.calSet n mode ref k).calRef = ref ∧ (m.calSet n mode ref k).calCount = m.fld (R.INTK_CAL_COUNT n) := ⟨rfl, rfl, rfl⟩

/-- The measurement under way, with a free value drawn for its phase. -/
def Engine.calStarted (m : Engine) (n : Nat) : Engine :=
  (m.calRuns n).draw.2.setIntake n ((m.calRuns n).draw.2.calSet n (m.fld (R.INTK_CAL_MODE n)) (m.fld (R.INTK_CAL_REFLINE n)) (m.calRuns n).draw.1)

theorem Engine.calGo_started {armed : Bool} (hmode : m.fld (R.INTK_CAL_MODE n) = 1 ∧ armed = false ∨ m.fld (R.INTK_CAL_MODE n) = 2)
    (href : m.fld (R.INTK_CAL_REFLINE n) < 48) (hcount : m.fld (R.INTK_CAL_COUNT n) ≠ 0) : m.calGo n armed = m.calStarted n := by
  unfold Engine.calGo
  dsimp only
  rw [if_neg]
  · unfold Engine.calStarted Engine.calRuns Engine.resultsCleared Engine.linesCleared
    rfl
  · simp only [Bool.or_eq_true, Bool.and_eq_true, beq_iff_eq, decide_eq_true_eq]
    obtain ⟨hmode, rfl⟩ | hmode := hmode
    · simp only [Bool.false_eq_true, and_false, false_or]
      omega
    · omega

/-! What the start sets: registers. -/

@[simp] theorem Engine.reg_draw (m : Engine) (a : Nat) : m.draw.2.reg a = m.reg a := rfl
@[simp] theorem Engine.fld_draw (m : Engine) (f : Field) : m.draw.2.fld f = m.fld f := rfl
@[simp] theorem Engine.tb_draw (m : Engine) : m.draw.2.tb = m.tb := rfl
@[simp] theorem Engine.intakes_draw (m : Engine) : m.draw.2.intakes = m.intakes := rfl

theorem Engine.reg_calStarted (m : Engine) (n a : Nat) : (m.calStarted n).reg a = (m.calRuns n).reg a := by
  unfold Engine.calStarted
  rw [Engine.reg_setIntake, Engine.reg_draw]

theorem Engine.reg_calRuns_ne (m : Engine) (hcal : a ≠ R.INTK_CAL n) (hstat : a ≠ R.INTK_CALSTAT n) : (m.calRuns n).reg a = (m.resultsCleared n).reg a := by
  unfold Engine.calRuns
  rw [Engine.reg_setFlag_ne _ (R.INTK_CAL_GO n) _ hcal, Engine.reg_setFlag_ne _ (R.INTK_CALSTAT_BUSY n) _ hstat, Engine.reg_setReg_ne _ _ hstat]

/-- The clock inputs' results lie below the lines' registers. -/
theorem Engine.reg_resultsCleared_lines (m : Engine) (ha : a < R.INTK_CK0SUM n ∨ R.INTK_LCFG n 0 ≤ a) : (m.resultsCleared n).reg a = (m.linesCleared n 48).reg a := by
  unfold R.INTK_CK0SUM R.INTK_LCFG at ha
  have hck0 : a ≠ R.INTK_CK0SUM n := by unfold R.INTK_CK0SUM; omega
  have hck1 : a ≠ R.INTK_CK1SUM n := by unfold R.INTK_CK1SUM; omega
  have hmiss : a ≠ R.INTK_CKMISS n := by unfold R.INTK_CKMISS; omega
  unfold Engine.resultsCleared
  rw [Engine.reg_setReg_ne _ _ hmiss, Engine.reg_setReg_ne _ _ hck1, Engine.reg_setReg_ne _ _ hck0]

/-- The results lie between the inputs' sums and the end of the lines' registers. -/
theorem Engine.reg_resultsCleared_outside (m : Engine) (ha : a < R.INTK_CK0SUM n ∨ R.INTK_LCFG n 48 ≤ a) : (m.resultsCleared n).reg a = m.reg a := by
  unfold R.INTK_CK0SUM R.INTK_LCFG at ha
  rw [m.reg_resultsCleared_lines (by unfold R.INTK_CK0SUM R.INTK_LCFG; omega)]
  exact m.reg_linesCleared_ne fun x hx => by unfold R.INTK_CALSUM R.INTK_CALMISS; omega

theorem Engine.reg_resultsCleared_line (m : Engine) (n : Nat) {x : Nat} (hx : x < 48) :
    (m.resultsCleared n).reg (R.INTK_CALSUM n x) = 0 ∧ (m.resultsCleared n).reg (R.INTK_CALMISS n x) = 0 := by
  rw [m.reg_resultsCleared_lines (.inr (by unfold R.INTK_CALSUM R.INTK_LCFG; omega)), m.reg_resultsCleared_lines (.inr (by unfold R.INTK_CALMISS R.INTK_LCFG; omega))]
  exact m.reg_linesCleared hx

theorem Engine.reg_resultsCleared_ck (m : Engine) (n : Nat) :
    (m.resultsCleared n).reg (R.INTK_CK0SUM n) = 0 ∧ (m.resultsCleared n).reg (R.INTK_CK1SUM n) = 0 ∧ (m.resultsCleared n).reg (R.INTK_CKMISS n) = 0 := by
  have hck01 : R.INTK_CK0SUM n ≠ R.INTK_CK1SUM n := by unfold R.INTK_CK0SUM R.INTK_CK1SUM; omega
  have hck0Miss : R.INTK_CK0SUM n ≠ R.INTK_CKMISS n := by unfold R.INTK_CK0SUM R.INTK_CKMISS; omega
  have hck1Miss : R.INTK_CK1SUM n ≠ R.INTK_CKMISS n := by unfold R.INTK_CK1SUM R.INTK_CKMISS; omega
  simp [Engine.resultsCleared, Engine.reg_setReg_ne, hck01, hck0Miss, hck1Miss]

/-- Every result reads 0 once the measurement has started (R54). -/
theorem Engine.results_calStarted (m : Engine) (n : Nat) :
    (∀ x : Fin 48, (m.calStarted n).reg (R.INTK_CALSUM n x) = 0 ∧ (m.calStarted n).reg (R.INTK_CALMISS n x) = 0) ∧ (m.calStarted n).reg (R.INTK_CK0SUM n) = 0 ∧
      (m.calStarted n).reg (R.INTK_CK1SUM n) = 0 ∧ (m.calStarted n).reg (R.INTK_CKMISS n) = 0 := by
  have hkept : ∀ b, R.INTK_CK0SUM n ≤ b → (m.calStarted n).reg b = (m.resultsCleared n).reg b := fun b hb =>
    (m.reg_calStarted n b).trans <| m.reg_calRuns_ne (by unfold R.INTK_CK0SUM at hb; unfold R.INTK_CAL; omega) (by unfold R.INTK_CK0SUM at hb; unfold R.INTK_CALSTAT; omega)
  obtain ⟨hck0, hck1, hmiss⟩ := m.reg_resultsCleared_ck n
  refine ⟨fun x => ?_, (hkept _ (Nat.le_refl _)).trans hck0, (hkept _ ?_).trans hck1, (hkept _ ?_).trans hmiss⟩
  · rw [hkept _ (by unfold R.INTK_CALSUM R.INTK_CK0SUM; omega), hkept _ (by unfold R.INTK_CALMISS R.INTK_CK0SUM; omega)]
    exact m.reg_resultsCleared_line n x.isLt
  · unfold R.INTK_CK0SUM R.INTK_CK1SUM; omega
  · unfold R.INTK_CK0SUM R.INTK_CKMISS; omega

/-- A start changes registers of the intake's page alone. -/
theorem Engine.reg_calStarted_page (m : Engine) (ha : a / 0x1000 ≠ 0x10 + n) : (m.calStarted n).reg a = m.reg a := by
  have hcal : a ≠ R.INTK_CAL n := by unfold R.INTK_CAL; omega
  have hstat : a ≠ R.INTK_CALSTAT n := by unfold R.INTK_CALSTAT; omega
  rw [Engine.reg_calStarted, Engine.reg_calRuns_ne m hcal hstat]
  exact m.reg_resultsCleared_outside (by unfold R.INTK_CK0SUM R.INTK_LCFG; omega)

/-- CALSTAT after the start: a measurement under way, without an edge counted and not refused (R54). -/
theorem Engine.calstat_calStarted (m : Engine) (n : Nat) :
    (m.calStarted n).flag (R.INTK_CALSTAT_BUSY n) = true ∧ (m.calStarted n).flag (R.INTK_CALSTAT_REFUSED n) = false ∧ (m.calStarted n).fld (R.INTK_CALSTAT_DONE n) = 0 := by
  have hbusy : (m.calStarted n).reg (R.INTK_CALSTAT n) = (((m.resultsCleared n).setReg (R.INTK_CALSTAT n) 0).setFlag (R.INTK_CALSTAT_BUSY n) true).reg (R.INTK_CALSTAT n) :=
    (m.reg_calStarted n _).trans (Engine.reg_setFlag_ne _ (R.INTK_CAL_GO n) _ cal_ne_calstat.symm)
  refine ⟨(Engine.flag_of_reg hbusy).trans (Engine.flag_setFlag_same _ _ _ (show 16 < 32 by decide) rfl), (Engine.flag_of_reg hbusy).trans ?_,
    (Engine.fld_of_reg hbusy).trans ?_⟩
  · rw [Engine.flag_setFlag_beside _ (R.INTK_CALSTAT_BUSY n) (R.INTK_CALSTAT_REFUSED n) _ rfl (.inr (Nat.le_refl 17))]
    simp [Engine.flag, Engine.fld, R.INTK_CALSTAT_REFUSED, bitsOf]
  · rw [Engine.fld_setFlag_beside _ (R.INTK_CALSTAT_BUSY n) (R.INTK_CALSTAT_DONE n) _ rfl (.inl (Nat.le_refl 16))]
    simp [Engine.fld, R.INTK_CALSTAT_DONE, bitsOf]

/-- CAL after the start: GO reads 1, and COUNT is as written. -/
theorem Engine.cal_calRuns (m : Engine) (n : Nat) : (m.calRuns n).flag (R.INTK_CAL_GO n) = true ∧ (m.calRuns n).fld (R.INTK_CAL_COUNT n) = m.fld (R.INTK_CAL_COUNT n) := by
  refine ⟨Engine.flag_setFlag_same _ _ _ (show 8 < 32 by decide) rfl, ?_⟩
  have hbefore : (((m.resultsCleared n).setReg (R.INTK_CALSTAT n) 0).setFlag (R.INTK_CALSTAT_BUSY n) true).reg (R.INTK_CAL n) = m.reg (R.INTK_CAL n) := by
    rw [Engine.reg_setFlag_ne _ (R.INTK_CALSTAT_BUSY n) _ cal_ne_calstat, Engine.reg_setReg_ne _ _ cal_ne_calstat]
    exact m.reg_resultsCleared_outside (.inl (by unfold R.INTK_CAL R.INTK_CK0SUM; omega))
  exact (Engine.fld_setFlag_beside _ (R.INTK_CAL_GO n) (R.INTK_CAL_COUNT n) _ rfl (.inr (show 9 ≤ 16 by decide))).trans (Engine.fld_of_reg hbefore)

theorem Engine.go_calStarted (m : Engine) (n : Nat) : (m.calStarted n).flag (R.INTK_CAL_GO n) = true :=
  (Engine.flag_of_reg (m.reg_calStarted n _)).trans (m.cal_calRuns n).1

/-! What the start sets: the intake's inner state, and nothing else. -/

theorem Engine.linesCleared_keeps (m : Engine) (n k : Nat) : (m.linesCleared n k).tb = m.tb ∧ (m.linesCleared n k).intakes = m.intakes := by
  unfold Engine.linesCleared
  refine forEach_keeps (keeps := fun x : Engine => x.tb = m.tb ∧ x.intakes = m.intakes) k ?_ ⟨rfl, rfl⟩
  exact fun x hx j => hx

theorem Engine.tb_calStarted (m : Engine) (n : Nat) : (m.calStarted n).tb = m.tb := by
  unfold Engine.calStarted Engine.calRuns Engine.resultsCleared
  rw [Engine.setIntake_tb, Engine.tb_draw, Engine.setFlag_tb, Engine.setFlag_tb, Engine.setReg_tb, Engine.setReg_tb, Engine.setReg_tb, Engine.setReg_tb]
  exact (m.linesCleared_keeps n 48).1

theorem Engine.intakes_calRuns (m : Engine) (n : Nat) : (m.calRuns n).intakes = m.intakes := by
  unfold Engine.calRuns Engine.resultsCleared
  rw [Engine.setFlag_intakes, Engine.setFlag_intakes, Engine.setReg_intakes, Engine.setReg_intakes, Engine.setReg_intakes, Engine.setReg_intakes]
  exact (m.linesCleared_keeps n 48).2

theorem Engine.intake_setIntake (m : Engine) (i : Intake) (hn : n < m.intakes.length) : (m.setIntake n i).intake n = i := by
  simp [Engine.setIntake, Engine.intake, nth, hn]

theorem Engine.intake_calStarted (m : Engine) (hn : n < m.intakes.length) :
    ((m.calStarted n).intake n).calMode = m.fld (R.INTK_CAL_MODE n) ∧ ((m.calStarted n).intake n).calRef = m.fld (R.INTK_CAL_REFLINE n) ∧
      ((m.calStarted n).intake n).calCount = m.fld (R.INTK_CAL_COUNT n) := by
  have hlen : n < (m.calRuns n).draw.2.intakes.length := by rwa [Engine.intakes_draw, Engine.intakes_calRuns]
  unfold Engine.calStarted
  rw [Engine.intake_setIntake _ _ hlen]
  obtain ⟨hmode, href, hcount⟩ := (m.calRuns n).draw.2.calSet_setting n (m.fld (R.INTK_CAL_MODE n)) (m.fld (R.INTK_CAL_REFLINE n)) (m.calRuns n).draw.1
  rw [Engine.fld_draw, (m.cal_calRuns n).2] at hcount
  exact ⟨hmode, href, hcount⟩

/-- `x` is what a GO that starts a measurement with the setting `v` leaves of `m`. -/
structure Engine.AfterCalStart (m x : Engine) (n : Nat) (v : Word) : Prop where
  busy : x.flag (R.INTK_CALSTAT_BUSY n) = true
  notRefused : x.flag (R.INTK_CALSTAT_REFUSED n) = false
  done : x.fld (R.INTK_CALSTAT_DONE n) = 0
  mode : (x.intake n).calMode = bitsOf v.toNat 0 2
  ref : (x.intake n).calRef = bitsOf v.toNat 2 6
  count : (x.intake n).calCount = bitsOf v.toNat 16 16
  go : x.flag (R.INTK_CAL_GO n) = true
  lines : ∀ i : Fin 48, x.reg (R.INTK_CALSUM n i) = 0 ∧ x.reg (R.INTK_CALMISS n i) = 0
  ck0 : x.reg (R.INTK_CK0SUM n) = 0
  ck1 : x.reg (R.INTK_CK1SUM n) = 0
  ckmiss : x.reg (R.INTK_CKMISS n) = 0
  off : ∀ a, a / 0x1000 ≠ 0x10 + n → x.reg a = m.reg a
  tb : x.tb = m.tb

/-- A GO with a legal setting starts the measurement (R54, R55). -/
theorem Engine.calGo_starts {v : Word} {armed : Bool} (hmode : bitsOf v.toNat 0 2 = 1 ∧ armed = false ∨ bitsOf v.toNat 0 2 = 2)
    (href : bitsOf v.toNat 2 6 < 48) (hcount : bitsOf v.toNat 16 16 ≠ 0) (hlen : n < m.intakes.length) : m.AfterCalStart ((m.calAsked n v).calGo n armed) n v := by
  rw [← m.fld_calAsked_mode n v] at hmode
  rw [← m.fld_calAsked_refline n v] at href
  rw [← m.fld_calAsked_count n v] at hcount
  rw [Engine.calGo_started hmode href hcount]
  obtain ⟨hbusy, hrefused, hdone⟩ := (m.calAsked n v).calstat_calStarted n
  obtain ⟨hcalMode, hcalRef, hcalCount⟩ := (m.calAsked n v).intake_calStarted (n := n) (by rwa [Engine.intakes_calAsked])
  obtain ⟨hlines, hck0, hck1, hckmiss⟩ := (m.calAsked n v).results_calStarted n
  rw [Engine.fld_calAsked_mode] at hcalMode
  rw [Engine.fld_calAsked_refline] at hcalRef
  rw [Engine.fld_calAsked_count] at hcalCount
  refine ⟨hbusy, hrefused, hdone, hcalMode, hcalRef, hcalCount, (m.calAsked n v).go_calStarted n, hlines, hck0, hck1, hckmiss, fun a ha => ?_,
    by rw [Engine.tb_calStarted, Engine.tb_calAsked]⟩
  rw [Engine.reg_calStarted_page _ ha, Engine.reg_calAsked_ne _ _ (by unfold R.INTK_CAL; omega)]

/-! A measurement that ends. -/

/-- BUSY and GO clear. -/
def Engine.calStopped (m : Engine) (n : Nat) : Engine := (m.setFlag (R.INTK_CALSTAT_BUSY n) false).setFlag (R.INTK_CAL_GO n) false

theorem Engine.flag_calStopped (m : Engine) (n : Nat) : (m.calStopped n).flag (R.INTK_CALSTAT_BUSY n) = false ∧ (m.calStopped n).flag (R.INTK_CAL_GO n) = false := by
  refine ⟨?_, Engine.flag_setFlag_same _ _ _ (show 8 < 32 by decide) rfl⟩
  exact (Engine.flag_setFlag_ne _ _ cal_ne_calstat.symm).trans (Engine.flag_setFlag_same _ _ _ (show 16 < 32 by decide) rfl)

theorem Engine.reg_calStopped_off {l : List Nat} (ha : a ∉ l) (hstat : R.INTK_CALSTAT n ∈ l) (hcal : R.INTK_CAL n ∈ l) : (m.calStopped n).reg a = m.reg a :=
  (Engine.reg_setFlag_off ha _ (f := R.INTK_CAL_GO n) _ hcal).trans (Engine.reg_setFlag_off ha _ (f := R.INTK_CALSTAT_BUSY n) _ hstat)

/-- Its end is reported on the intake's page, whose head holds no register of the measurement. -/
theorem Engine.flag_calReported (m : Engine) {f : Field} (hf : f.addr = R.INTK_CAL n ∨ f.addr = R.INTK_CALSTAT n) : (m.status (R.E_INTK_CAL_DONE n)).flag f = m.flag f := by
  refine m.flag_status_ne _ ?_
  obtain h | h := hf
  all_goals
    rw [h]
    simp only [R.INTK_CAL, R.INTK_CALSTAT, statusAddr, R.E_INTK_CAL_DONE]
    omega

theorem Engine.calDone_due (hbusy : m.flag (R.INTK_CALSTAT_BUSY n) = true) (hdone : (m.intake n).calCount ≤ m.fld (R.INTK_CALSTAT_DONE n)) :
    m.calDone n = (m.calStopped n).status (R.E_INTK_CAL_DONE n) := by
  simp [Engine.calDone, Engine.calStopped, hbusy, hdone]

theorem Engine.calTimeout_due (hbusy : m.flag (R.INTK_CALSTAT_BUSY n) = true) (hlast : (m.intake n).calLast + 2 ^ 20 + 7 ≤ m.cc) :
    m.calTimeout n = ((m.calStopped n).setFlag (R.INTK_CALSTAT_TIMEOUT n) true).status (R.E_INTK_CAL_DONE n) := by
  unfold Engine.calTimeout
  rw [hbusy, decide_eq_true hlast]
  rfl

/-- Settles O19: a trim is a held register's write, GO is a write of CAL that is refused or starts the measurement, and either end of one clears BUSY and GO. -/
theorem trimsAndCalibration : Obligations.TrimsAndCalibration := by
  unfold Obligations.TrimsAndCalibration
  refine ⟨fun s port n which v harmed hactive hacc => ?_, fun s port n v hacc harmed hmode href hcount hlen => ?_, fun s port n v hacc hrefuse => ?_,
    fun s n hlive hbusy hdone => State.ends_live (·.calDone n) hlive ?_, fun s n hlive hbusy hlast => State.ends_live (·.calTimeout n) hlive ?_⟩
  · rw [exec_trimWrite]
    have hends := State.ends_intkConfig (port := port) (v := v) (trimAddr_page n which) (s.eng.isHeld_trim n which) harmed hactive
    cases which
    all_goals exact hends hacc
  · refine State.ends_calGo (Q := (s.eng.AfterCalStart · n v)) hacc (Engine.calGo_starts (hmode.imp_left (⟨·, harmed⟩)) href hcount hlen) fun x hx => ?_
    refine ⟨hx.busy, hx.notRefused, hx.done, hx.mode, hx.ref, hx.count, hx.go, hx.lines, hx.ck0, hx.ck1, hx.ckmiss, rfl, fun a ha => hx.off a ?_, hx.tb, State.memKept_withEng _ _⟩
    simpa [onPages] using ha
  · exact State.ends_calGo (Q := (s.eng.AfterCalRefusal · n)) hacc (Engine.calGo_refuses hrefuse) fun x hx => ⟨hx.refused, hx.busy, hx.go, rfl, State.kept_withEng hx.off hx.tb⟩
  · rw [Engine.calDone_due hbusy hdone]
    obtain ⟨hbusy', hgo'⟩ := s.eng.flag_calStopped n
    refine ⟨(Engine.flag_calReported _ (.inr rfl)).trans hbusy', (Engine.flag_calReported _ (.inl rfl)).trans hgo',
      Engine.hasBit_status_same _ (R.E_INTK_CAL_DONE n) (show 2 < 32 by decide), State.kept_withEng (fun a ha => ?_) (by simp [Engine.calStopped])⟩
    exact (Engine.reg_status_off ha _ (by simp [R.E_INTK_CAL_DONE])).trans (Engine.reg_calStopped_off ha (by simp) (by simp))
  · rw [Engine.calTimeout_due hbusy hlast]
    obtain ⟨hbusy', hgo'⟩ := s.eng.flag_calStopped n
    refine ⟨(Engine.flag_calReported _ (.inr rfl)).trans ?_, (Engine.flag_calReported _ (.inl rfl)).trans ?_, (Engine.flag_calReported _ (.inr rfl)).trans ?_,
      Engine.hasBit_status_same _ (R.E_INTK_CAL_DONE n) (show 2 < 32 by decide), State.kept_withEng (fun a ha => ?_) (by simp [Engine.calStopped])⟩
    · exact (Engine.flag_setFlag_beside _ (R.INTK_CALSTAT_TIMEOUT n) (R.INTK_CALSTAT_BUSY n) _ rfl (.inl (show 17 ≤ 19 by decide))).trans hbusy'
    · exact (Engine.flag_setFlag_ne _ _ cal_ne_calstat).trans hgo'
    · exact Engine.flag_setFlag_same _ _ _ (show 19 < 32 by decide) rfl
    · exact (Engine.reg_status_off ha _ (by simp [R.E_INTK_CAL_DONE])).trans
        ((Engine.reg_setFlag_off ha _ _ (by simp [R.INTK_CALSTAT_TIMEOUT])).trans (Engine.reg_calStopped_off ha (by simp) (by simp)))

end Sys2Proof.Machine
end

section
/-! SUPPORT. Held registers (R82): where they lie, and what a write does that waits for the next disarm or for an arming request of its cycle. -/
namespace Sys2Proof.Machine
open Sys2Proof

variable {m : Engine} {a : Nat}

/-! Where held registers and their PEND bits lie. -/

theorem lt_of_pageOf {p : Nat} {b : Block × Nat} (h : pageOf p = some b) : p < 0x100 := by
  by_contra hp
  unfold pageOf at h
  rw [if_neg (by omega), if_neg (by omega), if_neg (by omega), if_neg (by omega)] at h
  split at h <;> simp_all

/-- What the address of a register says of it. -/
theorem decodeReg_inv {h : RegHit} (hdec : decodeReg a = some h) : a % 4 = 0 ∧ pageOf (a / 0x1000) = some (h.blk, h.inst) ∧ h.off = a % 0x1000 := by
  unfold decodeReg at hdec
  split at hdec
  · simp at hdec
  next halign =>
  split at hdec
  · simp at hdec
  next b i hpage =>
  dsimp only at hdec
  generalize hrow : (if a % 0x1000 < 0x40 then headRow b (a % 0x1000) else findRow b (a % 0x1000)) = row at hdec
  cases row with
  | none => simp at hdec
  | some r =>
    obtain rfl := Option.some.inj hdec
    exact ⟨not_not.1 halign, hpage, rfl⟩

theorem offIn_iff {lo hi : Nat} : offIn a lo hi = true ↔ lo ≤ a % 0x1000 ∧ a % 0x1000 < hi := by simp [offIn]

/-- A held register lies beyond the head of a page that is none of the directory's. -/
theorem Engine.isHeld_place (h : m.isHeld a = true) : 4 ≤ a / 0x1000 ∧ 0x40 ≤ a % 0x1000 := by
  unfold Engine.isHeld at h
  refine ⟨?_, ?_⟩
  · by_contra hdir
    simp [show pageOf (a / 0x1000) = some (.dirB, a / 0x1000) by unfold pageOf; rw [if_pos (by omega)]] at h
  · cases hset : m.setAt m.cc
    all_goals
      split at h
      all_goals
        simp [hset, offIn_iff, R.INTK_CTL, R.INTK_CKTRIM, R.RU_STREAM, R.RU_STATECFG, R.RU_CKDELAY, R.CONF_TSET, R.STORE_TRAIN, R.STORE_PROFCTL, R.CIS_DISP_BASE, R.CIS_DISP_SIZE] at h
      all_goals omega

/-- No held register holds a PEND bit itself. -/
theorem Engine.isHeld_ne_pend {f : Field} (h : m.isHeld a = true) (hf : pendField a = some f) : f.addr ≠ a := by
  intro haddr
  unfold Engine.isHeld at h
  unfold pendField at hf
  split at hf
  case h_7 hpage =>
    obtain rfl := Option.some.inj hf
    have hstore : (pageOf (a / 0x1000)).map (·.1) = some .storeB := haddr ▸ rfl
    simp [hpage] at hstore
  case h_8 => simp at hf
  all_goals
    next hpage =>
    rw [hpage] at h
    obtain rfl := Option.some.inj hf
    subst haddr
    cases hset : m.setAt m.cc
    all_goals
      simp [hset, offIn_iff, R.INTK_STATUS_PEND, R.INTK_STATUS, R.INTK_CTL, R.INTK_CKTRIM, R.RU_STATUS_PEND, R.RU_STATUS, R.RU_STREAM, R.RU_STATECFG, R.RU_CKDELAY, R.CONF_STATUS_PEND,
        R.CONF_STATUS, R.CONF_TSET, R.GATE_STATUS_PEND, R.GATE_STATUS, R.WEIR_STATUS_PEND, R.WEIR_STATUS, R.STORE_STATUS_PEND, R.STORE_STATUS, R.STORE_TRAIN, R.STORE_PROFCTL] at h
    all_goals omega

theorem Engine.asking_of_none (h : m.arming = none) : m.asking = false := by simp [Engine.asking, h]

/-! The PEND bit, and the writes that wait. -/

@[simp] theorem Engine.noteWrite_regs (m : Engine) (a : Nat) (v : Word) (b : Bool) : (m.noteWrite a v b).regs = m.regs := by unfold Engine.noteWrite; split <;> rfl
@[simp] theorem Engine.noteWrite_held (m : Engine) (a : Nat) (v : Word) (b : Bool) : (m.noteWrite a v b).held = m.held := by unfold Engine.noteWrite; split <;> rfl
@[simp] theorem Engine.noteWrite_arming (m : Engine) (a : Nat) (v : Word) (b : Bool) : (m.noteWrite a v b).arming = m.arming := by unfold Engine.noteWrite; split <;> rfl
@[simp] theorem Engine.noteWrite_tb (m : Engine) (a : Nat) (v : Word) (b : Bool) : (m.noteWrite a v b).tb = m.tb := by unfold Engine.noteWrite; split <;> rfl
@[simp] theorem Engine.reg_noteWrite (m : Engine) (a : Nat) (v : Word) (b : Bool) (r : Nat) : (m.noteWrite a v b).reg r = m.reg r := by unfold Engine.reg; rw [Engine.noteWrite_regs]

/-- The registers that hold the PEND bit of a held register. -/
def pendRegs (a : Nat) : List Nat := ((pendField a).map (·.addr)).toList

/-- The PEND bit of a held register, where its page has one, is set. -/
def Engine.pend (m : Engine) (a : Nat) : Engine := match pendField a with | none => m | some f => m.setFlag f true

@[simp] theorem Engine.pend_held (m : Engine) (a : Nat) : (m.pend a).held = m.held := by unfold Engine.pend; split <;> rfl
@[simp] theorem Engine.pend_arming (m : Engine) (a : Nat) : (m.pend a).arming = m.arming := by unfold Engine.pend; split <;> rfl
@[simp] theorem Engine.pend_tb (m : Engine) (a : Nat) : (m.pend a).tb = m.tb := by unfold Engine.pend; split <;> rfl

theorem Engine.reg_pend_off {r : Nat} (hr : r ∉ pendRegs a) (m : Engine) : (m.pend a).reg r = m.reg r := by
  unfold Engine.pend
  cases hf : pendField a with
  | none => rfl
  | some f => exact Engine.reg_setFlag_off hr _ true (by simp [pendRegs, hf])

/-- Every PEND bit is one bit of its register. -/
theorem pendField_one_bit {f : Field} (hf : pendField a = some f) : f.lo < 32 ∧ f.width = 1 := by
  unfold pendField at hf
  split at hf
  case h_8 => simp at hf
  all_goals
    obtain rfl := Option.some.inj hf
    exact ⟨Nat.le_of_ble_eq_true rfl, rfl⟩

theorem Engine.flag_pend (m : Engine) (a : Nat) : (pendField a).all (fun f => (m.pend a).flag f) = true := by
  unfold Engine.pend
  cases hf : pendField a with
  | none => rfl
  | some f =>
    obtain ⟨hlo, hwidth⟩ := pendField_one_bit hf
    exact m.flag_setFlag_same f true hlo hwidth

/-- A held register is none that holds a PEND bit. -/
theorem Engine.isHeld_not_mem_pendRegs (h : m.isHeld a = true) : a ∉ pendRegs a := by
  intro hmem
  obtain ⟨f, hf, haddr⟩ := Option.map_eq_some_iff.1 (Option.mem_toList.1 hmem)
  exact Engine.isHeld_ne_pend h hf haddr

/-- A write that waits for the next disarm, with the note that arming requests of its cycle take. -/
def Engine.writeWaits (m : Engine) (a : Nat) (v : Word) : Engine := (m.noteWrite a v true).hold a v

theorem Engine.writeWaits_eq (m : Engine) (a : Nat) (v : Word) :
    m.writeWaits a v = ({ m.noteWrite a v true with held := (m.noteWrite a v true).held ++ [(a, v)] } : Engine).pend a := rfl

theorem Engine.writeWaits_held (m : Engine) (a : Nat) (v : Word) : (m.writeWaits a v).held = m.held ++ [(a, v)] := by simp [Engine.writeWaits_eq]
theorem Engine.writeWaits_arming (m : Engine) (a : Nat) (v : Word) : (m.writeWaits a v).arming = m.arming := by simp [Engine.writeWaits_eq]
theorem Engine.writeWaits_tb (m : Engine) (a : Nat) (v : Word) : (m.writeWaits a v).tb = m.tb := by simp [Engine.writeWaits_eq]

theorem Engine.reg_writeWaits_off {r : Nat} (hr : r ∉ pendRegs a) (m : Engine) (v : Word) : (m.writeWaits a v).reg r = m.reg r := by
  rw [Engine.writeWaits_eq, Engine.reg_pend_off hr]
  exact m.reg_noteWrite a v true r

theorem Engine.flag_writeWaits (m : Engine) (a : Nat) (v : Word) : (pendField a).all (fun f => (m.writeWaits a v).flag f) = true := Engine.flag_pend _ a

theorem Engine.reg_holdLate_off {r : Nat} (hr : r ∉ pendRegs a) (m : Engine) (v : Word) : (m.holdLate a v).reg r = m.reg r :=
  Engine.reg_pend_off hr { m with arming := m.arming.map (fun r => { r with late := r.late ++ [(a, v)] }) }

/-- With no arming request at hand a read returns the last write held for the register (R82). -/
theorem Engine.heldReg_of_last {l : List (Nat × Word)} {v : Word} (hnone : m.arming = none) (hheld : m.held = l ++ [(a, v)]) : m.heldReg a = mergeRw a (m.reg a) v := by
  simp [Engine.heldReg, Engine.allHeld, hnone, hheld]

/-! A write of a held register. -/

/-- While the engine is armed, the write waits behind the earlier ones. -/
theorem Chip.writeAt_waits {c : Chip} (h : RegHit) (v : Word) (hheld : c.eng.isHeld a = true) (harmed : c.eng.armed = true) (hnone : c.eng.arming = none) :
    c.writeAt h a v = { c with eng := c.eng.writeWaits a v } := by
  simp [Engine.writeWaits, Chip.writeAt, hheld, harmed, Engine.asking_of_none hnone]

/-- With an arming request of the cycle at hand, a write of a reach's configuration waits for its outcome, armed or not (R83). -/
theorem Chip.writeAt_asking {c : Chip} (h : RegHit) (v : Word) (hheld : c.eng.isHeld a = true) (hask : c.eng.asking = true) (hru : ruHeld a = true) :
    c.writeAt h a v = { c with eng := c.eng.holdLate a v } := by
  simp [Chip.writeAt, hheld, hask, hru]

/-- What the port of such a write passes on its way (R394 to R416). -/
theorem Chip.writeReg_held {c : Chip} {h : RegHit} {port : Port} {v : Word} (hheld : c.eng.isHeld a = true) (hdam : c.eng.dammed = false) (hlost : c.eng.lost = false)
    (hcisp : c.eng.absentCisp a = false) (hdec : decodeReg a = some h) (hcls : classAllows h.blk.cls port = true) (hfroz : c.eng.frozenBy h a v.toNat = false) :
    c.writeReg port 0 a v = (c.writeAt h a v, .ok) := by
  obtain ⟨halign, hpage, hoff⟩ := decodeReg_inv hdec
  obtain ⟨hdir, hhead⟩ := Engine.isHeld_place hheld
  have hlt := lt_of_pageOf hpage
  refine c.writeReg_ok port 0 a v h hdam (by simp [hlost]) (by omega) halign ?_ hdec hcisp ?_ hfroz
  · have hbeyond : ¬ a < 0x4000 := by omega
    simp [isDirWord, hbeyond]
  · rwa [if_neg (by omega)]

/-- Settles O10: the write passes its port's checks and joins the queue, whose last entry for the register a read returns. -/
theorem heldWritesWait : Obligations.HeldWritesWait := by
  unfold Obligations.HeldWritesWait
  intro s port addr v hheld harmed hnone hreach hdam hlost hcisp _ haccess
  cases hdec : decodeReg addr.toNat with
  | none => simp [hdec] at haccess
  | some h =>
    simp only [hdec, Bool.and_eq_true, Bool.not_eq_true'] at haccess
    obtain ⟨hcls, hfroz⟩ := haccess
    have hok := Chip.writeReg_held hheld hdam hlost hcisp hdec hcls hfroz
    rw [Chip.writeAt_waits h v hheld harmed hnone] at hok
    rw [exec_registerWrite, Chip.regWrite_of_ok hreach hok]
    have hlast : (s.eng.writeWaits addr.toNat v).heldReg addr.toNat = mergeRw addr.toNat (s.eng.reg addr.toNat) v := by
      rw [Engine.heldReg_of_last (by rw [Engine.writeWaits_arming, hnone]) (s.eng.writeWaits_held addr.toNat v), Engine.reg_writeWaits_off (Engine.isHeld_not_mem_pendRegs hheld)]
    exact ⟨_, rfl, State.kept_withEng (fun r hr => Engine.reg_writeWaits_off hr s.eng v) (s.eng.writeWaits_tb _ v), s.eng.writeWaits_held _ v, hlast, s.eng.flag_writeWaits _ v, rfl⟩

end Sys2Proof.Machine
end

section
/-! O20: writes of a reach's configuration in the cycle of an arming request (R83). -/
namespace Sys2Proof.Machine
open Sys2Proof

/-- What two statements say of the outcome of one command holds of one state. -/
theorem Ends.and {o : Out} {P Q : State → Prop} (hP : Ends o P) (hQ : Ends o Q) : ∃ t, P t ∧ Q t := by
  obtain ⟨t, ht, hPt⟩ := hP
  obtain ⟨u, hu, hQu⟩ := hQ
  obtain rfl : t = u := by simpa [ht] using hu
  exact ⟨t, hPt, hQu⟩

/-- A reach's configuration register written in the cycle of an arming request keeps its value, while the request is looked at. -/
theorem State.ends_ruConfig_asking {s : State} {port : Port} {a : Nat} {v : Word} (hheld : s.eng.isHeld a = true) (hru : ruHeld a = true) (hask : s.eng.asking = true)
    (hacc : s.accepts port a v = true) : Ends (s.write port a v) (fun t => t.eng.reg a = s.eng.reg a) := by
  obtain ⟨-, -, -, -, -, -, -, h, hdec, -, -⟩ := State.accepts_inv hacc
  exact State.ends_write hacc hdec (Chip.writeAt_asking h v hheld hask hru) (Engine.reg_holdLate_off (Engine.isHeld_not_mem_pendRegs hheld) _ v)

/-- A module right after power-on reset whose management port has written SYS.CTL.ARM: the request waits for the cistern (R302). -/
def armRequested : State := State.reset.withEng ((State.reset.eng.armRequest 0 none).reply (okAnswer .mgmt))

theorem exec_armRequested : exec (.registerWrite .mgmt (BitVec.ofNat 32 R.SYS_CTL) 1) State.reset = .next armRequested := by rfl

/-- Refutes O20: right after power-on reset the management port asks for arming (SYS.CTL.ARM); STREAM of reach 0 written in the same cycle, while the engine is disarmed, is held
with the request (R83) and reads 0 still, not the 1 written. -/
theorem not_reachWrites : ¬ Obligations.ReachWrites := by
  unfold Obligations.ReachWrites
  rintro ⟨hconfig, -⟩
  have hacc : armRequested.accepts .mgmt (R.RU_STREAM 0) 1 = true := by decide +kernel
  have htaken := hconfig armRequested .mgmt 0 .stream 1 (by decide +kernel) (by decide +kernel) hacc
  have hstays := State.ends_ruConfig_asking (s := armRequested) (port := .mgmt) (a := R.RU_STREAM 0) (v := 1) (by decide +kernel) (by decide +kernel) (by decide +kernel) hacc
  obtain ⟨t, ⟨hone, -, -⟩, hzero⟩ := Ends.and htaken hstays
  exact absurd (hzero.symm.trans hone) (by decide +kernel)

end Sys2Proof.Machine
end

section
/-! SUPPORT. The eye scan (R73, R74): what its start, its refusal and its ends set, and what they leave. -/
namespace Sys2Proof.Machine
open Sys2Proof

variable {m : Engine} {n a : Nat}

/-! A write of EYECTL with GO. -/

theorem pageOf_ru (hn : n < 48) : pageOf (0x40 + 2 * n) = some (.ruB, n) := by
  unfold pageOf
  rw [if_neg (by omega), if_neg (by omega), if_neg (by omega), if_pos (by omega), if_pos (by omega), show (0x40 + 2 * n - 0x40) / 2 = n by omega]

/-- What EYECTL of a reach decodes to. -/
def eyectlHit (n : Nat) : RegHit := ⟨.ruB, n, 0x40 + 2 * n, 0x68, { off := 0x68, rw := 0xFFFF033F, w1s := 0x1000 }⟩

theorem eyectl_page : R.RU_EYECTL n / 0x1000 = 0x40 + 2 * n := by unfold R.RU_EYECTL; omega

theorem eyectl_off : R.RU_EYECTL n % 0x1000 = 0x68 := by unfold R.RU_EYECTL; omega

theorem decodeReg_eyectl (hn : n < 48) : decodeReg (R.RU_EYECTL n) = some (eyectlHit n) := by
  have halign : R.RU_EYECTL n % 4 = 0 := by unfold R.RU_EYECTL; omega
  have hrow : findRow .ruB 0x68 = some (eyectlHit n).row := rfl
  simp [decodeReg, halign, eyectl_page, eyectl_off, pageOf_ru hn, hrow, eyectlHit]

/-- EYECTL is written while the engine is armed, too. -/
theorem Engine.isHeld_eyectl (m : Engine) (hn : n < 48) : m.isHeld (R.RU_EYECTL n) = false := by
  have hstream : R.RU_EYECTL n ≠ R.RU_STREAM n := by unfold R.RU_EYECTL R.RU_STREAM; omega
  have hstatecfg : R.RU_EYECTL n ≠ R.RU_STATECFG n := by unfold R.RU_EYECTL R.RU_STATECFG; omega
  have hckdelay : R.RU_EYECTL n ≠ R.RU_CKDELAY n := by unfold R.RU_EYECTL R.RU_CKDELAY; omega
  simp [Engine.isHeld, eyectl_page, pageOf_ru hn, offIn, eyectl_off, hstream, hstatecfg, hckdelay]

/-- The write of EYECTL, before the request is looked at. -/
def Engine.eyeAsked (m : Engine) (n : Nat) (v : Word) : Engine := m.storeFields (eyectlHit n) (R.RU_EYECTL n) (v ||| 0x1000)

theorem Chip.writeAt_eyectl (c : Chip) (hn : n < 48) (v : Word) : c.writeAt (eyectlHit n) (R.RU_EYECTL n) (v ||| 0x1000) = { c with eng := (c.eng.eyeAsked n v).eyeGo n } := by
  have hgo : bitAt (v ||| 0x1000).toNat 12 = true := by
    rw [bitAt, BitVec.toNat_or, Nat.testBit_or, show (0x1000 : Word).toNat.testBit 12 = true by decide, Bool.or_true]
  simp only [Chip.writeAt, c.eng.isHeld_eyectl hn, Engine.keyOf, eyectlHit, Chip.writeEffect, Engine.captureEffect, Chip.pageEffect, Chip.hostEffect, hgo, Engine.eyeAsked,
    Bool.false_and, Bool.false_eq_true, if_false, Nat.reduceLT, and_self, if_true]

theorem Engine.reg_eyeAsked_ne (m : Engine) (v : Word) (ha : a ≠ R.RU_EYECTL n) : (m.eyeAsked n v).reg a = m.reg a := m.reg_storeFields_ne _ _ ha

theorem Engine.tb_eyeAsked (m : Engine) (n : Nat) (v : Word) : (m.eyeAsked n v).tb = m.tb := rfl

/-- EYE_GO: EYECTL takes the setting written, and the request is looked at. What is known of the engine after it decides how the command ends. -/
theorem State.ends_eyeGo {s : State} {port : Port} {n : Fin 48} {v : Word} {Q : Engine → Prop} {P : State → Prop} (hacc : s.accepts port (R.RU_EYECTL n) (v ||| 0x1000) = true)
    (hgo : Q ((s.eng.eyeAsked n v).eyeGo n)) (hP : ∀ x, Q x → P (s.withEng (x.reply (okAnswer port)))) : Ends (exec (.eyeGo port n v) s) P :=
  State.ends_write hacc (decodeReg_eyectl n.isLt) (s.chip.writeAt_eyectl n.isLt v) (hP _ hgo)

/-- A field of EYECTL's writable bits reads as written. -/
theorem Engine.fld_eyeAsked (m : Engine) (v : Word) {f : Field} (haddr : f.addr = R.RU_EYECTL n)
    (hrw : ∀ i < f.width, (0xFFFF033F#32).getLsbD (f.lo + i) = true) (hgo : ∀ i < f.width, (0x1000#32).getLsbD (f.lo + i) = false) :
    (m.eyeAsked n v).fld f = bitsOf v.toNat f.lo f.width := by
  unfold Engine.fld Engine.eyeAsked
  have hmask : BitVec.ofNat 32 ((eyectlHit n).row.rw ||| (eyectlHit n).row.rwh) = 0xFFFF033F#32 := by simp only [eyectlHit]; decide
  rw [haddr, m.reg_storeFields_same, hmask]
  exact (bitsOf_merge _ _ _ _ _ hrw).trans (bitsOf_or_beside v 0x1000 _ _ hgo)

theorem Engine.fld_eyeAsked_line (m : Engine) (n : Nat) (v : Word) : (m.eyeAsked n v).fld (R.RU_EYECTL_LINE n) = bitsOf v.toNat 0 6 :=
  m.fld_eyeAsked v rfl (by simp only [R.RU_EYECTL_LINE]; decide) (by simp only [R.RU_EYECTL_LINE]; decide)

theorem Engine.fld_eyeAsked_mode (m : Engine) (n : Nat) (v : Word) : (m.eyeAsked n v).fld (R.RU_EYECTL_MODE n) = bitsOf v.toNat 8 2 :=
  m.fld_eyeAsked v rfl (by simp only [R.RU_EYECTL_MODE]; decide) (by simp only [R.RU_EYECTL_MODE]; decide)

theorem Engine.fld_eyeAsked_count (m : Engine) (n : Nat) (v : Word) : (m.eyeAsked n v).fld (R.RU_EYECTL_COUNT n) = bitsOf v.toNat 16 16 :=
  m.fld_eyeAsked v rfl (by simp only [R.RU_EYECTL_COUNT]; decide) (by simp only [R.RU_EYECTL_COUNT]; decide)

/-- The clock edge of the scan is the one that was configured. -/
theorem Engine.fld_eyeAsked_edge (m : Engine) (n : Nat) (v : Word) : (m.eyeAsked n v).fld (R.RU_STATECFG_EDGE n) = m.fld (R.RU_STATECFG_EDGE n) :=
  Engine.fld_of_reg (m.reg_eyeAsked_ne v (by simp only [R.RU_STATECFG_EDGE, R.RU_STATECFG, R.RU_EYECTL]; omega))

theorem Engine.reg_eyeAsked_ctl (m : Engine) (hn : n < 48) (v : Word) : (m.eyeAsked n v).reg (R.INTK_CTL n) = m.reg (R.INTK_CTL n) :=
  m.reg_eyeAsked_ne v (by unfold R.INTK_CTL R.RU_EYECTL; omega)

theorem eyectl_ne_eyestat : R.RU_EYECTL n ≠ R.RU_EYESTAT n := by unfold R.RU_EYECTL R.RU_EYESTAT; omega

/-! A scan that is refused. -/

/-- EDGE codes 6 and 7 name no clock input (R69). -/
theorem edgeSel_isNone_iff {e : Nat} : (edgeSel e).isNone = true ↔ 6 ≤ e := by
  unfold edgeSel
  split
  case h_7 => grind
  all_goals simp

/-- The refusal: GO reads as BUSY does, and REFUSED is set. -/
def Engine.eyeRefused (m : Engine) (n : Nat) : Engine := (m.setFlag (R.RU_EYECTL_GO n) (m.flag (R.RU_EYESTAT_BUSY n))).setFlag (R.RU_EYESTAT_REFUSED n) true

theorem Engine.eyeGo_refused (h : 47 < m.fld (R.RU_EYECTL_LINE n) ∨ 2 ≤ m.fld (R.RU_EYECTL_MODE n) ∨ m.fld (R.RU_EYECTL_COUNT n) = 0 ∨ 6 ≤ m.fld (R.RU_STATECFG_EDGE n)) :
    m.eyeGo n = m.eyeRefused n := by
  unfold Engine.eyeGo
  refine if_pos ?_
  rw [← edgeSel_isNone_iff] at h
  simp only [Bool.or_eq_true, beq_iff_eq, decide_eq_true_eq, Option.isNone_map]
  tauto

theorem Engine.eyestat_eyeRefused (m : Engine) (n : Nat) :
    (m.eyeRefused n).flag (R.RU_EYESTAT_REFUSED n) = true ∧ (m.eyeRefused n).flag (R.RU_EYESTAT_BUSY n) = m.flag (R.RU_EYESTAT_BUSY n) := by
  refine ⟨Engine.flag_setFlag_same _ _ _ (show 17 < 32 by decide) rfl, ?_⟩
  exact (Engine.flag_setFlag_beside _ (R.RU_EYESTAT_REFUSED n) (R.RU_EYESTAT_BUSY n) _ rfl (.inl (Nat.le_refl 17))).trans (Engine.flag_setFlag_ne _ _ eyectl_ne_eyestat.symm)

theorem Engine.go_eyeRefused (m : Engine) (n : Nat) : (m.eyeRefused n).flag (R.RU_EYECTL_GO n) = m.flag (R.RU_EYESTAT_BUSY n) :=
  (Engine.flag_setFlag_ne _ _ eyectl_ne_eyestat).trans (Engine.flag_setFlag_same _ _ _ (show 12 < 32 by decide) rfl)

theorem Engine.reg_eyeRefused_ne (m : Engine) (hctl : a ≠ R.RU_EYECTL n) (hstat : a ≠ R.RU_EYESTAT n) : (m.eyeRefused n).reg a = m.reg a :=
  (Engine.reg_setFlag_ne _ (R.RU_EYESTAT_REFUSED n) _ hstat).trans (m.reg_setFlag_ne (R.RU_EYECTL_GO n) _ hctl)

theorem Engine.tb_eyeRefused (m : Engine) (n : Nat) : (m.eyeRefused n).tb = m.tb := rfl

/-- `x` is what a GO that is refused leaves of `m`. -/
structure Engine.AfterEyeRefusal (m x : Engine) (n : Nat) : Prop where
  refused : x.flag (R.RU_EYESTAT_REFUSED n) = true
  busy : x.flag (R.RU_EYESTAT_BUSY n) = m.flag (R.RU_EYESTAT_BUSY n)
  go : x.flag (R.RU_EYECTL_GO n) = m.flag (R.RU_EYESTAT_BUSY n)
  off : ∀ a, a ∉ [R.RU_EYECTL n, R.RU_EYESTAT n] → x.reg a = m.reg a
  tb : x.tb = m.tb

/-- A GO is refused with a line or a mode that is none, with no edges to count, or without a clock edge (R74). -/
theorem Engine.eyeGo_refuses {v : Word} (h : 47 < bitsOf v.toNat 0 6 ∨ 2 ≤ bitsOf v.toNat 8 2 ∨ bitsOf v.toNat 16 16 = 0 ∨ 6 ≤ m.fld (R.RU_STATECFG_EDGE n)) :
    m.AfterEyeRefusal ((m.eyeAsked n v).eyeGo n) n := by
  rw [← m.fld_eyeAsked_line n v, ← m.fld_eyeAsked_mode n v, ← m.fld_eyeAsked_count n v, ← m.fld_eyeAsked_edge n v] at h
  rw [Engine.eyeGo_refused h]
  have hasked : (m.eyeAsked n v).flag (R.RU_EYESTAT_BUSY n) = m.flag (R.RU_EYESTAT_BUSY n) := Engine.flag_of_reg (m.reg_eyeAsked_ne v eyectl_ne_eyestat.symm)
  obtain ⟨hrefused, hbusy⟩ := (m.eyeAsked n v).eyestat_eyeRefused n
  refine ⟨hrefused, hbusy.trans hasked, ((m.eyeAsked n v).go_eyeRefused n).trans hasked, fun a ha => ?_, by rw [Engine.tb_eyeRefused, Engine.tb_eyeAsked]⟩
  obtain ⟨hctl, hstat⟩ : a ≠ R.RU_EYECTL n ∧ a ≠ R.RU_EYESTAT n := by simpa using ha
  rw [Engine.reg_eyeRefused_ne _ hctl hstat, Engine.reg_eyeAsked_ne _ _ hctl]

/-! A scan that starts. -/

/-- The counts of the first k offsets are cleared. Irreducible, so that no proof runs through the offsets one by one. -/
@[irreducible] def Engine.countsCleared (m : Engine) (n k : Nat) : Engine := forEach k (fun o m => m.setReg (R.RU_EYECNT n o) 0) m

theorem Engine.countsCleared_succ (m : Engine) (n k : Nat) : m.countsCleared n (k + 1) = (m.countsCleared n k).setReg (R.RU_EYECNT n k) 0 := by
  simp [Engine.countsCleared, forEach, List.range_succ]

theorem Engine.reg_countsCleared_ne (m : Engine) {k : Nat} (ha : ∀ o < k, a ≠ R.RU_EYECNT n o) : (m.countsCleared n k).reg a = m.reg a := by
  induction k with
  | zero => simp [Engine.countsCleared, forEach]
  | succ k ih => rw [Engine.countsCleared_succ, Engine.reg_setReg_ne _ _ (ha k (Nat.lt_succ_self k)), ih fun o ho => ha o (Nat.lt_succ_of_lt ho)]

theorem Engine.reg_countsCleared (m : Engine) {k o : Nat} (ho : o < k) : (m.countsCleared n k).reg (R.RU_EYECNT n o) = 0 := by
  induction k with
  | zero => exact absurd ho (Nat.not_lt_zero o)
  | succ k ih =>
    rw [Engine.countsCleared_succ, Engine.reg_setReg]
    split
    · rfl
    · next hne => exact ih (lt_of_le_of_ne (Nat.lt_succ_iff.1 ho) fun e => hne (e ▸ rfl))

theorem Engine.tb_countsCleared (m : Engine) (n k : Nat) : (m.countsCleared n k).tb = m.tb := by
  unfold Engine.countsCleared
  refine forEach_keeps (keeps := fun x : Engine => x.tb = m.tb) k ?_ rfl
  exact fun x hx o => hx

/-- The counts cleared, and EYESTAT that of a scan under way. -/
def Engine.eyeRuns (m : Engine) (n : Nat) : Engine := ((m.countsCleared n 64).setReg (R.RU_EYESTAT n) 0).setFlag (R.RU_EYESTAT_BUSY n) true

/-- The scan under way, which waits for edges from this cycle on. -/
def Engine.eyeStarted (m : Engine) (n : Nat) : Engine :=
  ((m.eyeRuns n).setFlag (R.RU_EYECTL_GO n) true).setIntake n { (m.eyeRuns n).intake n with eyeLast := (m.eyeRuns n).cc }

/-- With a legal line, mode and count, EDGE at a clock input and both inputs running, a GO is not refused. -/
theorem Engine.eyeGo_started (hline : m.fld (R.RU_EYECTL_LINE n) < 48) (hmode : m.fld (R.RU_EYECTL_MODE n) < 2) (hcount : m.fld (R.RU_EYECTL_COUNT n) ≠ 0)
    (hedge : m.fld (R.RU_STATECFG_EDGE n) < 6) (hck0 : m.fld (R.INTK_CTL_CK0_MODE n) = 1 ∨ m.fld (R.INTK_CTL_CK0_MODE n) = 2)
    (hck1 : m.fld (R.INTK_CTL_CK1_MODE n) = 1 ∨ m.fld (R.INTK_CTL_CK1_MODE n) = 2) : m.eyeGo n = m.eyeStarted n := by
  have hsel : (edgeSel (m.fld (R.RU_STATECFG_EDGE n))).isNone = false := by
    rw [← Bool.not_eq_true, edgeSel_isNone_iff]
    omega
  unfold Engine.eyeGo
  dsimp only
  rw [if_neg]
  · unfold Engine.eyeStarted Engine.eyeRuns Engine.countsCleared
    rfl
  · simp only [Bool.or_eq_true, beq_iff_eq, decide_eq_true_eq, Option.isNone_map, hsel, Bool.false_eq_true, or_false]
    split <;> omega

theorem Engine.reg_eyeStarted (m : Engine) (n a : Nat) : (m.eyeStarted n).reg a = ((m.eyeRuns n).setFlag (R.RU_EYECTL_GO n) true).reg a := by
  unfold Engine.eyeStarted
  rw [Engine.reg_setIntake]

theorem Engine.reg_eyeRuns_ne (m : Engine) (hstat : a ≠ R.RU_EYESTAT n) : (m.eyeRuns n).reg a = (m.countsCleared n 64).reg a := by
  unfold Engine.eyeRuns
  rw [Engine.reg_setFlag_ne _ (R.RU_EYESTAT_BUSY n) _ hstat, Engine.reg_setReg_ne _ _ hstat]

theorem Engine.reg_eyeStarted_ne (m : Engine) (hctl : a ≠ R.RU_EYECTL n) (hstat : a ≠ R.RU_EYESTAT n) : (m.eyeStarted n).reg a = (m.countsCleared n 64).reg a := by
  rw [Engine.reg_eyeStarted, Engine.reg_setFlag_ne _ (R.RU_EYECTL_GO n) _ hctl, m.reg_eyeRuns_ne hstat]

theorem Engine.counts_eyeStarted (m : Engine) (n : Nat) (o : Fin 64) : (m.eyeStarted n).reg (R.RU_EYECNT n o) = 0 := by
  rw [m.reg_eyeStarted_ne (by unfold R.RU_EYECNT R.RU_EYECTL; omega) (by unfold R.RU_EYECNT R.RU_EYESTAT; omega)]
  exact m.reg_countsCleared o.isLt

/-- A start changes registers of the reach's page alone. -/
theorem Engine.reg_eyeStarted_page (m : Engine) (ha : a / 0x1000 ≠ 0x40 + 2 * n) : (m.eyeStarted n).reg a = m.reg a := by
  rw [m.reg_eyeStarted_ne (by unfold R.RU_EYECTL; omega) (by unfold R.RU_EYESTAT; omega)]
  exact m.reg_countsCleared_ne fun o ho => by unfold R.RU_EYECNT; omega

/-- EYESTAT after the start: a scan under way, without an edge counted and not refused (R73). -/
theorem Engine.eyestat_eyeStarted (m : Engine) (n : Nat) :
    (m.eyeStarted n).flag (R.RU_EYESTAT_BUSY n) = true ∧ (m.eyeStarted n).flag (R.RU_EYESTAT_REFUSED n) = false ∧ (m.eyeStarted n).fld (R.RU_EYESTAT_DONE n) = 0 := by
  have hstat : (m.eyeStarted n).reg (R.RU_EYESTAT n) = (m.eyeRuns n).reg (R.RU_EYESTAT n) :=
    (m.reg_eyeStarted n _).trans (Engine.reg_setFlag_ne _ (R.RU_EYECTL_GO n) _ eyectl_ne_eyestat.symm)
  refine ⟨(Engine.flag_of_reg hstat).trans (Engine.flag_setFlag_same _ _ _ (show 16 < 32 by decide) rfl), (Engine.flag_of_reg hstat).trans ?_, (Engine.fld_of_reg hstat).trans ?_⟩
  · unfold Engine.eyeRuns
    rw [Engine.flag_setFlag_beside _ (R.RU_EYESTAT_BUSY n) (R.RU_EYESTAT_REFUSED n) _ rfl (.inr (Nat.le_refl 17))]
    simp [Engine.flag, Engine.fld, R.RU_EYESTAT_REFUSED, bitsOf]
  · unfold Engine.eyeRuns
    rw [Engine.fld_setFlag_beside _ (R.RU_EYESTAT_BUSY n) (R.RU_EYESTAT_DONE n) _ rfl (.inl (Nat.le_refl 16))]
    simp [Engine.fld, R.RU_EYESTAT_DONE, bitsOf]

theorem Engine.go_eyeStarted (m : Engine) (n : Nat) : (m.eyeStarted n).flag (R.RU_EYECTL_GO n) = true :=
  (Engine.flag_of_reg (m.reg_eyeStarted n _)).trans (Engine.flag_setFlag_same _ _ _ (show 12 < 32 by decide) rfl)

/-- The setting stays as written. -/
theorem Engine.fld_eyeStarted_eyectl (m : Engine) {f : Field} (haddr : f.addr = R.RU_EYECTL n) (hbeside : f.lo + f.width ≤ 12 ∨ 13 ≤ f.lo) : (m.eyeStarted n).fld f = m.fld f := by
  have hbefore : (m.eyeRuns n).reg f.addr = m.reg f.addr := by
    rw [haddr, m.reg_eyeRuns_ne eyectl_ne_eyestat]
    exact m.reg_countsCleared_ne fun o _ => by unfold R.RU_EYECTL R.RU_EYECNT; omega
  calc (m.eyeStarted n).fld f = ((m.eyeRuns n).setFlag (R.RU_EYECTL_GO n) true).fld f := Engine.fld_of_reg (m.reg_eyeStarted n _)
    _ = (m.eyeRuns n).fld f := Engine.fld_setFlag_beside _ (R.RU_EYECTL_GO n) f _ haddr hbeside
    _ = m.fld f := Engine.fld_of_reg hbefore

theorem Engine.tb_eyeStarted (m : Engine) (n : Nat) : (m.eyeStarted n).tb = m.tb := by
  unfold Engine.eyeStarted Engine.eyeRuns
  rw [Engine.setIntake_tb, Engine.setFlag_tb, Engine.setFlag_tb, Engine.setReg_tb, Engine.tb_countsCleared]

/-- `x` is what a GO that starts a scan with the setting `v` leaves of `m`. -/
structure Engine.AfterEyeStart (m x : Engine) (n : Nat) (v : Word) : Prop where
  busy : x.flag (R.RU_EYESTAT_BUSY n) = true
  go : x.flag (R.RU_EYECTL_GO n) = true
  notRefused : x.flag (R.RU_EYESTAT_REFUSED n) = false
  done : x.fld (R.RU_EYESTAT_DONE n) = 0
  line : x.fld (R.RU_EYECTL_LINE n) = bitsOf v.toNat 0 6
  mode : x.fld (R.RU_EYECTL_MODE n) = bitsOf v.toNat 8 2
  count : x.fld (R.RU_EYECTL_COUNT n) = bitsOf v.toNat 16 16
  counts : ∀ o : Fin 64, x.reg (R.RU_EYECNT n o) = 0
  off : ∀ a, a / 0x1000 ≠ 0x40 + 2 * n → x.reg a = m.reg a
  tb : x.tb = m.tb

/-- A GO with a legal setting starts the scan (R73, R74). -/
theorem Engine.eyeGo_starts {v : Word} (hn : n < 48) (hline : bitsOf v.toNat 0 6 < 48) (hmode : bitsOf v.toNat 8 2 < 2) (hcount : bitsOf v.toNat 16 16 ≠ 0)
    (hedge : m.fld (R.RU_STATECFG_EDGE n) < 6) (hck0 : m.fld (R.INTK_CTL_CK0_MODE n) = 1 ∨ m.fld (R.INTK_CTL_CK0_MODE n) = 2)
    (hck1 : m.fld (R.INTK_CTL_CK1_MODE n) = 1 ∨ m.fld (R.INTK_CTL_CK1_MODE n) = 2) : m.AfterEyeStart ((m.eyeAsked n v).eyeGo n) n v := by
  have hctl := m.reg_eyeAsked_ctl hn v
  have hstart : (m.eyeAsked n v).eyeGo n = (m.eyeAsked n v).eyeStarted n := by
    refine Engine.eyeGo_started ?_ ?_ ?_ ?_ ?_ ?_
    · rwa [Engine.fld_eyeAsked_line]
    · rwa [Engine.fld_eyeAsked_mode]
    · rwa [Engine.fld_eyeAsked_count]
    · rwa [Engine.fld_eyeAsked_edge]
    · rwa [Engine.fld_of_reg (f := R.INTK_CTL_CK0_MODE n) hctl]
    · rwa [Engine.fld_of_reg (f := R.INTK_CTL_CK1_MODE n) hctl]
  rw [hstart]
  obtain ⟨hbusy, hrefused, hdone⟩ := (m.eyeAsked n v).eyestat_eyeStarted n
  refine ⟨hbusy, Engine.go_eyeStarted _ n, hrefused, hdone, ?_, ?_, ?_, Engine.counts_eyeStarted _ n, fun a ha => ?_, by rw [Engine.tb_eyeStarted, Engine.tb_eyeAsked]⟩
  · exact (Engine.fld_eyeStarted_eyectl _ (f := R.RU_EYECTL_LINE n) rfl (.inl (show 6 ≤ 12 by decide))).trans (m.fld_eyeAsked_line n v)
  · exact (Engine.fld_eyeStarted_eyectl _ (f := R.RU_EYECTL_MODE n) rfl (.inl (show 10 ≤ 12 by decide))).trans (m.fld_eyeAsked_mode n v)
  · exact (Engine.fld_eyeStarted_eyectl _ (f := R.RU_EYECTL_COUNT n) rfl (.inr (show 13 ≤ 16 by decide))).trans (m.fld_eyeAsked_count n v)
  · rw [Engine.reg_eyeStarted_page _ ha, Engine.reg_eyeAsked_ne _ _ (by unfold R.RU_EYECTL; omega)]

/-! A scan that ends. -/

/-- BUSY and GO clear. -/
def Engine.eyeStopped (m : Engine) (n : Nat) : Engine := (m.setFlag (R.RU_EYESTAT_BUSY n) false).setFlag (R.RU_EYECTL_GO n) false

theorem Engine.flag_eyeStopped (m : Engine) (n : Nat) : (m.eyeStopped n).flag (R.RU_EYESTAT_BUSY n) = false ∧ (m.eyeStopped n).flag (R.RU_EYECTL_GO n) = false := by
  refine ⟨?_, Engine.flag_setFlag_same _ _ _ (show 12 < 32 by decide) rfl⟩
  exact (Engine.flag_setFlag_ne _ _ eyectl_ne_eyestat.symm).trans (Engine.flag_setFlag_same _ _ _ (show 16 < 32 by decide) rfl)

theorem Engine.reg_eyeStopped_off {l : List Nat} (ha : a ∉ l) (hstat : R.RU_EYESTAT n ∈ l) (hctl : R.RU_EYECTL n ∈ l) : (m.eyeStopped n).reg a = m.reg a :=
  (Engine.reg_setFlag_off ha _ (f := R.RU_EYECTL_GO n) _ hctl).trans (Engine.reg_setFlag_off ha _ (f := R.RU_EYESTAT_BUSY n) _ hstat)

/-- The scan's end is reported on the reach's page, whose head holds no register of the scan. -/
theorem Engine.flag_eyeReported (m : Engine) {f : Field} (hf : f.addr = R.RU_EYECTL n ∨ f.addr = R.RU_EYESTAT n) : (m.status (R.E_RU_EYE_DONE n)).flag f = m.flag f := by
  refine m.flag_status_ne _ ?_
  obtain h | h := hf
  all_goals
    rw [h]
    simp only [R.RU_EYECTL, R.RU_EYESTAT, statusAddr, R.E_RU_EYE_DONE]
    omega

theorem Engine.eyeDone_due (hbusy : m.flag (R.RU_EYESTAT_BUSY n) = true) (hdone : m.fld (R.RU_EYECTL_COUNT n) ≤ m.fld (R.RU_EYESTAT_DONE n)) :
    m.eyeDone n = (m.eyeStopped n).status (R.E_RU_EYE_DONE n) := by
  simp [Engine.eyeDone, Engine.eyeStopped, hbusy, hdone]

theorem Engine.eyeTimeout_due (hbusy : m.flag (R.RU_EYESTAT_BUSY n) = true) (hlast : (m.intake n).eyeLast + 2 ^ 20 ≤ m.cc) :
    m.eyeTimeout n = ((m.eyeStopped n).setFlag (R.RU_EYESTAT_TIMEOUT n) true).status (R.E_RU_EYE_DONE n) := by
  unfold Engine.eyeTimeout
  rw [hbusy, decide_eq_true hlast]
  rfl

/-- Settles O21: a GO is a write of EYECTL that is refused or starts the scan, and either end of one clears BUSY and GO. -/
theorem eyeScan : Obligations.EyeScan := by
  unfold Obligations.EyeScan
  refine ⟨fun s port n v hacc hline hmode hcount hedge hck0 hck1 => ?starts, fun s port n v hacc hrefuse => ?refused, fun s n hlive hbusy hdone => State.ends_live (·.eyeDone n) hlive ?done,
    fun s n hlive hbusy hlast => State.ends_live (·.eyeTimeout n) hlive ?timeout⟩
  case starts =>
    refine State.ends_eyeGo (Q := (s.eng.AfterEyeStart · n v)) hacc (Engine.eyeGo_starts n.isLt hline hmode hcount hedge hck0 hck1) fun x hx => ?_
    refine ⟨hx.busy, hx.go, hx.notRefused, hx.done, hx.line, hx.mode, hx.count, hx.counts, rfl, fun a ha => hx.off a ?_, hx.tb, State.memKept_withEng _ _⟩
    simpa [onPages] using ha
  case refused =>
    exact State.ends_eyeGo (Q := (s.eng.AfterEyeRefusal · n)) hacc (Engine.eyeGo_refuses hrefuse) fun x hx => ⟨hx.refused, hx.busy, hx.go, rfl, State.kept_withEng hx.off hx.tb⟩
  case done =>
    rw [Engine.eyeDone_due hbusy hdone]
    obtain ⟨hbusy', hgo'⟩ := s.eng.flag_eyeStopped n
    refine ⟨(Engine.flag_eyeReported _ (.inr rfl)).trans hbusy', (Engine.flag_eyeReported _ (.inl rfl)).trans hgo',
      Engine.hasBit_status_same _ (R.E_RU_EYE_DONE n) (show 1 < 32 by decide), State.kept_withEng (fun a ha => ?_) (by simp [Engine.eyeStopped])⟩
    exact (Engine.reg_status_off ha _ (by simp [R.E_RU_EYE_DONE])).trans (Engine.reg_eyeStopped_off ha (by simp) (by simp))
  case timeout =>
    rw [Engine.eyeTimeout_due hbusy hlast]
    obtain ⟨hbusy', hgo'⟩ := s.eng.flag_eyeStopped n
    refine ⟨(Engine.flag_eyeReported _ (.inr rfl)).trans ?_, (Engine.flag_eyeReported _ (.inl rfl)).trans ?_, (Engine.flag_eyeReported _ (.inr rfl)).trans ?_,
      Engine.hasBit_status_same _ (R.E_RU_EYE_DONE n) (show 1 < 32 by decide), State.kept_withEng (fun a ha => ?_) (by simp [Engine.eyeStopped])⟩
    · exact (Engine.flag_setFlag_beside _ (R.RU_EYESTAT_TIMEOUT n) (R.RU_EYESTAT_BUSY n) _ rfl (.inl (show 17 ≤ 18 by decide))).trans hbusy'
    · exact (Engine.flag_setFlag_ne _ _ eyectl_ne_eyestat).trans hgo'
    · exact Engine.flag_setFlag_same _ _ _ (show 18 < 32 by decide) rfl
    · exact (Engine.reg_status_off ha _ (by simp [R.E_RU_EYE_DONE])).trans
        ((Engine.reg_setFlag_off ha _ _ (by simp [R.RU_EYESTAT_TIMEOUT])).trans (Engine.reg_eyeStopped_off ha (by simp) (by simp)))

end Sys2Proof.Machine
end

section
/-! O22: packs close, and enter the stream FIFO or are discarded (R78, R79, R229). -/
namespace Sys2Proof.Machine
open Sys2Proof

variable {m : Engine} {n close : Nat} {p : OpenPack}

theorem Engine.packFull_due (hpack : (m.sto n).pack = some p) (hcap : packCapacity p.type ≤ p.items.length) : m.packFull n = m.packClose n 0 := by
  simp [Engine.packFull, hpack, hcap]

theorem Engine.packFlush_due (hpack : (m.sto n).pack = some p) (hexp : m.fld (R.RU_FLUSH_EXP n) ≠ 0)
    (hold : p.since + 2 ^ (max 10 (m.fld (R.RU_FLUSH_EXP n))) ≤ m.store.gated + 1) : m.packFlush n = m.packClose n 6 := by
  simp only [Engine.packFlush, hpack]
  exact if_pos ⟨hexp, hold⟩

/-- A pack that closes at a FIFO with room enters it under its sequence number. -/
theorem Engine.packClose_of_room (close : Nat) (hpack : (m.sto n).pack = some p) (hroom : (m.sto n).fifo.length < 128) :
    ∃ x : StoreIntake, m.packClose n close = ((m.setSto n x).setReg64 (R.RU_PACKS_LO n) (m.reg64 (R.RU_PACKS_LO n) + 1)).showFifo n ∧
      x.pack = none ∧ x.seq = (m.sto n).seq + 1 ∧ x.fifo = (m.sto n).fifo ++ [⟨m.packSlot n (m.sto n).seq, p.image n close m.segGen⟩] := by
  unfold Engine.packClose
  simp only [hpack, if_neg (Nat.not_le.2 hroom)]
  exact ⟨_, rfl, rfl, rfl, rfl⟩

/-- A full pack that finds its FIFO full is discarded, and joins the lost span (R229). -/
theorem Engine.packDiscard_of_full (hfull : 128 ≤ (m.sto n).fifo.length) (hpack : (m.sto n).pack = some p) (hcap : packCapacity p.type ≤ p.items.length)
    (hend : (m.sto n).lostEnd = none) :
    ∃ span, m.packDiscard n = ((m.setSto n { m.sto n with pack := none, lost := some span }).addSat (R.WEIR_GAPCNT n) 1).showFifo n := by
  unfold Engine.packDiscard
  rw [if_pos hfull, Engine.packFull_due hpack hcap]
  unfold Engine.packClose
  simp only [hpack, if_pos hfull, hend, Option.isSome_none, Bool.false_eq_true, if_false]
  exact ⟨_, rfl⟩

theorem Engine.sto_setReg64 (m : Engine) (a : Nat) (v : Tb) (n : Nat) : (m.setReg64 a v).sto n = m.sto n := Engine.sto_of_intakes (by rw [Engine.store_setReg64]) n

/-- The count of packs lies beside what shows the FIFO. -/
theorem packs_not_shown : R.RU_PACKS_LO n ∉ [R.RU_STATUS n, R.RU_FIFO_PEAK n] ∧ R.RU_PACKS_LO n + 4 ∉ [R.RU_STATUS n, R.RU_FIFO_PEAK n] := by
  simp only [R.RU_PACKS_LO, R.RU_STATUS, R.RU_FIFO_PEAK, List.mem_cons, List.not_mem_nil, or_false]
  omega

/-- Settles O22: each clause is one outcome of a pack that closes: the code it closes with, its place in the FIFO, or its loss. -/
theorem packsClose : Obligations.PacksClose := by
  unfold Obligations.PacksClose
  refine ⟨fun s n p hlive hpack hcap => ?full, fun s n p hlive hpack hexp hold => ?flush,
    fun s n p hlive hfull hpack hcap hlen hend => State.ends_live (·.packDiscard n) hlive ?discard, fun m n close p hpack hroom hlen => ?stored⟩
  case full =>
    have hout : exec (.packFull n) s = .next (s.withEng (s.eng.packFull n)) := s.live_pos (·.packFull n) hlive
    rw [hout, Engine.packFull_due hpack hcap]
    rfl
  case flush =>
    have hout : exec (.packFlush n) s = .next (s.withEng (s.eng.packFlush n)) := s.live_pos (·.packFlush n) hlive
    rw [hout, Engine.packFlush_due hpack hexp hold]
    rfl
  case discard =>
    obtain ⟨span, heq⟩ := Engine.packDiscard_of_full hfull hpack hcap hend
    have hsto : (s.eng.packDiscard n).sto n = { s.eng.sto n with pack := none, lost := some span } := by
      rw [heq, Engine.sto_showFifo, Engine.sto_addSat, Engine.sto_setSto hlen]
    refine ⟨congrArg (·.pack) hsto, congrArg (·.fifo) hsto, congrArg (·.lost.isSome) hsto, ?_, State.kept_withEng (fun a ha => ?_) ?_⟩
    · rw [State.eng_withEng, heq, Engine.reg_showFifo_off (l := [R.RU_STATUS n, R.RU_FIFO_PEAK n]) (gapcnt_not_ru n.isLt) _ n (by simp), Engine.reg_addSat_same]
      rfl
    · rw [heq, Engine.reg_showFifo_off ha _ n (by simp), Engine.reg_addSat_off ha _ 1 (by simp)]
      rfl
    · rw [heq]
      exact ((within_showFifo n.isLt (l := [.any]) (by decide)).2 (.refl _ _)).tb
  case stored =>
    obtain ⟨x, heq, hnone, hseq, hfifo⟩ := Engine.packClose_of_room close hpack hroom
    obtain ⟨hlo, hhi⟩ := packs_not_shown (n := n)
    have hsto : (m.packClose n close).sto n = x := by
      rw [heq, Engine.sto_showFifo, Engine.sto_setReg64, Engine.sto_setSto hlen]
    rw [hsto]
    refine ⟨hnone, hseq, hfifo, ?_⟩
    rw [heq, Engine.reg64_of_reg (Engine.reg_showFifo_off hlo _ n (by simp)) (Engine.reg_showFifo_off hhi _ n (by simp)), Engine.reg64_setReg64_same]

end Sys2Proof.Machine
end

section
/-! SUPPORT. Commands that write a register of the CONF or of the SLU page: what is stored, and what the write brings about (R123, R133, R141, R144, R151). -/
namespace Sys2Proof.Machine
open Sys2Proof

variable {a : Nat} {h : RegHit}

/-- A register of the SLU page is written while the engine is armed, too. -/
theorem Engine.isHeld_slu (m : Engine) (hdec : decodeReg a = some h) (hblk : h.blk = .sluB) : m.isHeld a = false := by
  obtain ⟨-, hpage, -⟩ := decodeReg_inv hdec
  simp [Engine.isHeld, hpage, hblk]

/-- A write of a register of the SLU page brings nothing else about. -/
theorem Chip.writeAt_slu (c : Chip) (v : Word) (hdec : decodeReg a = some h) (hblk : h.blk = .sluB) (hoff : 0x40 ≤ h.off) (hbank : h.row.banked = false) :
    c.writeAt h a v = { c with eng := c.eng.storeFields h a v } := by
  simp [Chip.writeAt, c.eng.isHeld_slu hdec hblk, Engine.keyOf, hbank, Chip.writeEffect, Nat.not_lt.2 hoff, Engine.captureEffect, Chip.pageEffect, Chip.hostEffect, hblk]

/-- A write of a register of the CONF page that is not held brings about what the page's own effect says. -/
theorem Chip.writeAt_conf (c : Chip) (v : Word) (hheld : c.eng.isHeld a = false) (hblk : h.blk = .confB) (hoff : 0x40 ≤ h.off) (hbank : h.row.banked = false) :
    c.writeAt h a v = { c with eng := (c.eng.storeFields h a v).captureEffect c.eng h a a v.toNat } := by
  simp [Chip.writeAt, hheld, Engine.keyOf, hbank, Chip.writeEffect, Nat.not_lt.2 hoff, Chip.pageEffect, Chip.hostEffect, hblk]

/-- A write of a register of the SLU page, from its port to its answer. -/
theorem State.ends_sluWrite {s : State} {port : Port} {v : Word} {P : State → Prop} (hacc : s.accepts port a v = true) (hdec : decodeReg a = some h) (hblk : h.blk = .sluB)
    (hoff : 0x40 ≤ h.off) (hbank : h.row.banked = false) (hP : P (s.withEng ((s.eng.storeFields h a v).reply (okAnswer port)))) : Ends (s.write port a v) P :=
  State.ends_write hacc hdec (s.chip.writeAt_slu v hdec hblk hoff hbank) hP

/-- A stored write changes its own register alone. -/
theorem State.kept_storeFields (s : State) (h : RegHit) (a : Nat) (v : Word) (x : Answer) : Kept s (s.withEng ((s.eng.storeFields h a v).reply x)) [a] :=
  State.kept_withEng (fun _ hb => s.eng.reg_storeFields_ne h v fun e => hb (e ▸ List.mem_singleton.2 rfl)) rfl

/-! The level counters (R133). -/

/-- What the words of level counters A and B decode to: every bit of the low word may be written, and the high word's COUNT. -/
def ctrLoHit (b : Bool) : RegHit := ⟨.sluB, 0, 0xA1, if b then 0x58 else 0x50, { off := if b then 0x58 else 0x50, rwh := 0xFFFFFFFF, low := true }⟩
def ctrHiHit (b : Bool) : RegHit := ⟨.sluB, 0, 0xA1, if b then 0x5C else 0x54, { off := if b then 0x5C else 0x54, rwh := 0xFFFF, high := true }⟩

theorem decodeReg_ctrLo (b : Bool) : decodeReg (if b then R.SLU_CTRB_LO else R.SLU_CTRA_LO) = some (ctrLoHit b) := by cases b <;> decide
theorem decodeReg_ctrHi (b : Bool) : decodeReg (if b then R.SLU_CTRB_HI else R.SLU_CTRA_HI) = some (ctrHiHit b) := by cases b <;> decide

/-- A register that was written, with both copies good again (R409). -/
def Engine.written (m : Engine) (a : Nat) (v : Word) : Engine := { m.setReg a v with badParity := m.badParity.filter (fun k => k != a) }

theorem Engine.reg_written_same (m : Engine) (a : Nat) (v : Word) : (m.written a v).reg a = v := m.reg_setReg_same a v
theorem Engine.reg_written_ne (m : Engine) {b : Nat} (v : Word) (hb : b ≠ a) : (m.written a v).reg b = m.reg b := m.reg_setReg_ne v hb

/-- Where every bit may be written, the register takes the value. -/
theorem Engine.storeFields_all (m : Engine) (key : Nat) (v : Word) (hrw : h.row.rw ||| h.row.rwh = 0xFFFFFFFF) : m.storeFields h key v = m.written key v := by
  have hmerge : (m.reg key &&& ~~~BitVec.ofNat 32 (h.row.rw ||| h.row.rwh)) ||| (v &&& BitVec.ofNat 32 (h.row.rw ||| h.row.rwh)) = v := by
    rw [hrw, show BitVec.ofNat 32 0xFFFFFFFF = BitVec.allOnes 32 from rfl, BitVec.and_allOnes, BitVec.not_allOnes, BitVec.and_zero, BitVec.zero_or]
  unfold Engine.storeFields Engine.written
  dsimp only
  rw [hmerge]
  rfl

/-- A field whose bits may all be written takes the value's bits. -/
theorem Engine.fld_storeFields (m : Engine) (v : Word) (f : Field) (hrw : ∀ i < f.width, (BitVec.ofNat 32 (h.row.rw ||| h.row.rwh)).getLsbD (f.lo + i) = true) :
    (m.storeFields h f.addr v).fld f = bitsOf v.toNat f.lo f.width := by
  unfold Engine.fld
  rw [m.reg_storeFields_same]
  exact bitsOf_merge _ _ _ _ _ hrw

/-- COUNT of a counter's high word takes the value's low half. -/
theorem Engine.fld_ctrHi (m : Engine) (b : Bool) (v : Word) :
    (m.storeFields (ctrHiHit b) (if b then R.SLU_CTRB_HI else R.SLU_CTRA_HI) v).fld (if b then R.SLU_CTRB_HI_COUNT else R.SLU_CTRA_HI_COUNT) = v.toNat % 2 ^ 16 := by
  cases b
  · exact m.fld_storeFields (h := ctrHiHit false) v R.SLU_CTRA_HI_COUNT (by decide)
  · exact m.fld_storeFields (h := ctrHiHit true) v R.SLU_CTRB_HI_COUNT (by decide)

/-! Snapshots (R151). -/

/-- What SNAPCTL decodes to: MODE may be written, GO asks for a snapshot. -/
def snapctlHit : RegHit := ⟨.confB, 0, 0xA0, 0x50, { off := 0x50, rw := 0x2, w1s := 0x1 }⟩

theorem decodeReg_snapctl : decodeReg R.CONF_SNAPCTL = some snapctlHit := by decide

theorem Engine.isHeld_snapctl (m : Engine) : m.isHeld R.CONF_SNAPCTL = false := by
  cases hset : m.setAt m.cc <;> simp +decide [Engine.isHeld, hset]

/-- A write of SNAPCTL with GO asks for a snapshot once MODE is stored. -/
theorem Chip.writeAt_snapctl (c : Chip) {v : Word} (hgo : bitAt v.toNat 0 = true) :
    c.writeAt snapctlHit R.CONF_SNAPCTL v = { c with eng := (c.eng.storeFields snapctlHit R.CONF_SNAPCTL v).snapGo } := by
  rw [c.writeAt_conf v c.eng.isHeld_snapctl rfl (by decide) rfl]
  simp +decide [Engine.captureEffect, snapctlHit, hgo]

/-- The write of SNAPCTL, before the request is looked at. -/
def Engine.snapAsked (m : Engine) (v : Word) : Engine := m.storeFields snapctlHit R.CONF_SNAPCTL v

theorem Engine.flag_snapAsked_mode (m : Engine) (v : Word) : (m.snapAsked v).flag R.CONF_SNAPCTL_MODE = (bitsOf v.toNat 1 1 == 1) := by
  unfold Engine.flag Engine.snapAsked
  rw [show R.CONF_SNAPCTL = R.CONF_SNAPCTL_MODE.addr from rfl, m.fld_storeFields v R.CONF_SNAPCTL_MODE (by decide)]
  rfl

theorem Engine.reg_snapAsked_ne (m : Engine) (v : Word) (ha : a ≠ R.CONF_SNAPCTL) : (m.snapAsked v).reg a = m.reg a := m.reg_storeFields_ne _ _ ha

theorem Engine.lag_of_reg {m m' : Engine} (hreg : m'.reg R.RING_STATUS = m.reg R.RING_STATUS) : m'.lag = m.lag := by
  unfold Engine.lag; rw [Engine.flag_of_reg (f := R.RING_STATUS_MODE) hreg]

theorem Engine.lag_snapAsked (m : Engine) (v : Word) : (m.snapAsked v).lag = m.lag := Engine.lag_of_reg (m.reg_snapAsked_ne v (by decide))


/-- Marks of an earlier snapshot are gone. -/
def Engine.snapCleared (m : Engine) : Engine := (m.setFlag R.CONF_SNAPCTL_DONE false).setFlag R.CONF_SNAPCTL_LATE false

theorem Engine.flag_snapCleared_mode (m : Engine) : m.snapCleared.flag R.CONF_SNAPCTL_MODE = m.flag R.CONF_SNAPCTL_MODE := by
  simp (disch := decide) [Engine.snapCleared, Engine.flag_setFlag_beside]

theorem Engine.flag_snapCleared_done (m : Engine) : m.snapCleared.flag R.CONF_SNAPCTL_DONE = false := by
  simp (disch := decide) [Engine.snapCleared, Engine.flag_setFlag_beside, Engine.flag_setFlag_same]

theorem Engine.flag_snapCleared_late (m : Engine) : m.snapCleared.flag R.CONF_SNAPCTL_LATE = false := by
  simp (disch := decide) [Engine.snapCleared, Engine.flag_setFlag_same]

theorem Engine.reg_snapCleared_off {l : List Nat} (ha : a ∉ l) (m : Engine) (hl : R.CONF_SNAPCTL ∈ l) : m.snapCleared.reg a = m.reg a :=
  (Engine.reg_setFlag_off ha _ _ hl).trans (Engine.reg_setFlag_off ha _ _ hl)

/-- A snapshot is under way (R151): what it waits for stands in the path. -/
def Engine.snapAwaits (m : Engine) (phys : Option Nat) (target : Nat) : Engine :=
  { m.snapCleared.setFlag R.CONF_SNAPCTL_GO true with path := { m.path with snapPhys := phys, snapTarget := target } }

/-- The cycle that a snapshot by name asks for, and the newest one that has passed C1 (R151). -/
def Engine.snapNamed (m : Engine) : Nat := cycleOf (m.reg64 R.CONF_SNAP_TB_LO)
def Engine.snapPassed (m : Engine) : Nat := cycleOf (nth m.path.tbHist (14 + m.lag) (tbOfCycle (m.cycle - (14 + m.lag))))

theorem Engine.snapGo_first {m : Engine} (hmode : m.flag R.CONF_SNAPCTL_MODE = false) : m.snapGo = m.snapAwaits (some (m.cc - (14 + m.lag))) m.path.snapTarget := by
  have hcleared := m.flag_snapCleared_mode.trans hmode
  unfold Engine.snapCleared at hcleared
  simp [Engine.snapGo, hcleared, Engine.snapAwaits, Engine.snapCleared]

theorem Engine.snapGo_named {m : Engine} (hmode : m.flag R.CONF_SNAPCTL_MODE = true) (hearly : m.snapPassed ≤ m.snapNamed) : m.snapGo = m.snapAwaits none m.snapNamed := by
  have hcleared := m.flag_snapCleared_mode.trans hmode
  unfold Engine.snapCleared at hcleared
  have hnot : ¬ m.snapNamed < m.snapPassed := Nat.not_lt.2 hearly
  unfold Engine.snapNamed Engine.snapPassed Engine.cycle at hnot
  simp [Engine.snapGo, hcleared, Engine.snapAwaits, Engine.snapCleared, Engine.snapNamed, Engine.cycle, hnot]

theorem Engine.snapGo_late {m : Engine} (hmode : m.flag R.CONF_SNAPCTL_MODE = true) (hlate : m.snapNamed < m.snapPassed) :
    m.snapGo = ((m.snapCleared.setFlag R.CONF_SNAPCTL_GO false).setFlag R.CONF_SNAPCTL_LATE true).status R.E_CONF_SNAP_DONE := by
  have hcleared := m.flag_snapCleared_mode.trans hmode
  unfold Engine.snapCleared at hcleared
  unfold Engine.snapNamed Engine.snapPassed Engine.cycle at hlate
  simp [Engine.snapGo, hcleared, Engine.snapCleared, Engine.cycle, hlate]

/-- What SNAPCTL shows of a snapshot under way. -/
theorem Engine.snapAwaits_shows (m : Engine) (phys : Option Nat) (target : Nat) :
    (m.snapAwaits phys target).flag R.CONF_SNAPCTL_GO = true ∧ (m.snapAwaits phys target).flag R.CONF_SNAPCTL_DONE = false ∧ (m.snapAwaits phys target).flag R.CONF_SNAPCTL_LATE = false := by
  refine ⟨Engine.flag_setFlag_same m.snapCleared _ _ (by decide) rfl, ?_, ?_⟩
  · exact (Engine.flag_setFlag_beside m.snapCleared R.CONF_SNAPCTL_GO R.CONF_SNAPCTL_DONE true rfl (by decide)).trans m.flag_snapCleared_done
  · exact (Engine.flag_setFlag_beside m.snapCleared R.CONF_SNAPCTL_GO R.CONF_SNAPCTL_LATE true rfl (by decide)).trans m.flag_snapCleared_late

theorem Engine.reg_snapAwaits_off {l : List Nat} (ha : a ∉ l) (m : Engine) (phys : Option Nat) (target : Nat) (hl : R.CONF_SNAPCTL ∈ l) : (m.snapAwaits phys target).reg a = m.reg a :=
  (Engine.reg_setFlag_off ha m.snapCleared true hl).trans (m.reg_snapCleared_off ha hl)

/-- The write of SNAPCTL keeps what the request is judged by. -/
theorem Engine.snapPassed_snapAsked (m : Engine) (v : Word) : (m.snapAsked v).snapPassed = m.snapPassed := by
  unfold Engine.snapPassed; rw [m.lag_snapAsked]; rfl

theorem Engine.snapNamed_snapAsked (m : Engine) (v : Word) : (m.snapAsked v).snapNamed = m.snapNamed := by
  unfold Engine.snapNamed; rw [Engine.reg64_of_reg (m.reg_snapAsked_ne v (by decide)) (m.reg_snapAsked_ne v (by decide))]

/-- SNAPSHOT_GO: what is known of the engine after the request decides how the command ends. -/
theorem State.ends_snapGo {s : State} {port : Port} {named : Bool} {P : State → Prop} (hacc : s.accepts port R.CONF_SNAPCTL (if named then 3 else 1) = true)
    (hP : P (s.withEng ((s.eng.snapAsked (if named then 3 else 1)).snapGo.reply (okAnswer port)))) : Ends (exec (.snapshotGo port named) s) P :=
  State.ends_write hacc decodeReg_snapctl (s.chip.writeAt_snapctl (by cases named <;> decide)) hP

/-- A list of values in consecutive registers, as a loop writes them. -/
theorem Engine.reg_forEach_setReg_off {l : List Nat} (ha : a ∉ l) (k : Nat) (addr : Nat → Nat) (val : Nat → Word) (m : Engine) (hl : ∀ i < k, addr i ∈ l) :
    (forEach k (fun i (m : Engine) => m.setReg (addr i) (val i)) m).reg a = m.reg a := by
  refine List.foldlRecOn (motive := fun x : Engine => x.reg a = m.reg a) _ _ rfl fun x hx i hi => ?_
  exact (Engine.reg_setReg_off ha x _ (hl i (List.mem_range.1 hi))).trans hx

theorem Engine.reg_forEach_setReg (k : Nat) (addr : Nat → Nat) (val : Nat → Word) (m : Engine) (hinj : ∀ i j, addr i = addr j → i = j) {i : Nat} (hi : i < k) :
    (forEach k (fun i (m : Engine) => m.setReg (addr i) (val i)) m).reg (addr i) = val i := by
  induction k with
  | zero => exact absurd hi (Nat.not_lt_zero i)
  | succ k ih =>
    have hlast : forEach (k + 1) (fun i (m : Engine) => m.setReg (addr i) (val i)) m = (forEach k (fun i (m : Engine) => m.setReg (addr i) (val i)) m).setReg (addr k) (val k) := by
      simp [forEach, List.range_succ]
    rw [hlast]
    rcases Nat.lt_succ_iff_lt_or_eq.1 hi with hlt | rfl
    · rw [Engine.reg_setReg_ne _ _ (fun e => Nat.ne_of_lt hlt (hinj _ _ e)), ih hlt]
    · exact Engine.reg_setReg_same _ _ _

end Sys2Proof.Machine
end

section
/-! SUPPORT. A snapshot is taken (R151): its values in the registers that show them. -/
namespace Sys2Proof.Machine
open Sys2Proof

variable {a : Nat}

/-- The reach codes of a snapshot, eight in a register, and the outputs of the first two stages, four in a register. -/
def Engine.snapCodes (m : Engine) (codes : List Nat) : Engine :=
  forEach 6 (fun k m => m.setReg (R.CONF_SNAPRC k) (BitVec.ofNat 32 ((List.range 8).foldl (fun a j => a + nth codes (8 * k + j) 0 * 16 ^ j) 0))) m
def Engine.snapStage1 (m : Engine) (c : ConfOut) : Engine := forEach 3 (fun k m => m.setReg (R.CONF_SNAPC1 k) (packBytes c.c1 (4 * k))) m
def Engine.snapStage2 (m : Engine) (c : ConfOut) : Engine := forEach 2 (fun k m => m.setReg (R.CONF_SNAPC2 k) (packBytes c.c2 (4 * k))) m

/-- The outputs of the later stages, X and its position. -/
def Engine.snapLast (m : Engine) (c : ConfOut) : Engine :=
  ((m.setReg R.CONF_SNAPC3 (packBytes c.c3 0)).setReg R.CONF_SNAPC45 (packBytes [c.c4a, c.c4b, c.x, c.e] 0)).setReg R.CONF_SNAPPOS (BitVec.ofNat 32 (c.xTick + 16 * c.xValid.toNat))

/-- Every value of a snapshot. -/
def Engine.snapValues (m : Engine) (codes : List Nat) (c : ConfOut) : Engine := (((m.snapCodes codes).snapStage1 c).snapStage2 c).snapLast c

/-- GO falls and DONE rises. -/
def Engine.snapDone (m : Engine) : Engine := ((m.setFlag R.CONF_SNAPCTL_GO false).setFlag R.CONF_SNAPCTL_DONE true).status R.E_CONF_SNAP_DONE

theorem Engine.snapTake_of_match {m : Engine} {e : PipeEntry} (hgo : m.flag R.CONF_SNAPCTL_GO = true) (hfind : m.path.pipe.find? m.path.snapMatch = some e) :
    m.snapTake = (m.snapValues (e.codes.getD []) (e.conf.getD {})).snapDone := by
  simp only [Engine.snapTake, hgo, hfind]
  rfl

theorem Engine.snapDone_shows (m : Engine) :
    m.snapDone.flag R.CONF_SNAPCTL_GO = false ∧ m.snapDone.flag R.CONF_SNAPCTL_DONE = true ∧ m.snapDone.hasBit R.E_CONF_SNAP_DONE = true := by
  unfold Engine.snapDone
  refine ⟨?_, ?_, Engine.hasBit_status_same _ R.E_CONF_SNAP_DONE (by decide)⟩
  · simp (disch := decide) [Engine.flag_status_ne, Engine.flag_setFlag_beside, Engine.flag_setFlag_same]
  · simp (disch := decide) [Engine.flag_status_ne, Engine.flag_setFlag_same]

theorem Engine.reg_snapDone_off {l : List Nat} (ha : a ∉ l) (m : Engine) (hl : ∀ b ∈ [R.CONF_SNAPCTL, statusAddr 0xA0], b ∈ l) : m.snapDone.reg a = m.reg a := by
  have hctl := hl R.CONF_SNAPCTL (by simp)
  unfold Engine.snapDone
  rw [Engine.reg_status_off ha _ (hl _ (by decide)), Engine.reg_setFlag_off ha _ _ hctl, Engine.reg_setFlag_off ha _ _ hctl]

theorem Engine.reg_snapCodes_off {l : List Nat} (ha : a ∉ l) (m : Engine) (codes : List Nat) (hl : ∀ k < 6, R.CONF_SNAPRC k ∈ l) : (m.snapCodes codes).reg a = m.reg a :=
  Engine.reg_forEach_setReg_off ha 6 _ _ m hl

theorem Engine.reg_snapStage1_off {l : List Nat} (ha : a ∉ l) (m : Engine) (c : ConfOut) (hl : ∀ k < 3, R.CONF_SNAPC1 k ∈ l) : (m.snapStage1 c).reg a = m.reg a :=
  Engine.reg_forEach_setReg_off ha 3 _ _ m hl

theorem Engine.reg_snapStage2_off {l : List Nat} (ha : a ∉ l) (m : Engine) (c : ConfOut) (hl : ∀ k < 2, R.CONF_SNAPC2 k ∈ l) : (m.snapStage2 c).reg a = m.reg a :=
  Engine.reg_forEach_setReg_off ha 2 _ _ m hl

theorem Engine.reg_snapLast_off {l : List Nat} (ha : a ∉ l) (m : Engine) (c : ConfOut) (hl : ∀ b ∈ [R.CONF_SNAPC3, R.CONF_SNAPC45, R.CONF_SNAPPOS], b ∈ l) :
    (m.snapLast c).reg a = m.reg a := by
  unfold Engine.snapLast
  rw [Engine.reg_setReg_off ha _ _ (hl _ (by simp)), Engine.reg_setReg_off ha _ _ (hl _ (by simp)), Engine.reg_setReg_off ha _ _ (hl _ (by simp))]

/-- The registers that show a snapshot, beside SNAPCTL. -/
def snapRegs : List Nat :=
  [R.CONF_SNAPC3, R.CONF_SNAPC45, R.CONF_SNAPPOS] ++ (List.range 6).map R.CONF_SNAPRC ++ (List.range 3).map R.CONF_SNAPC1 ++ (List.range 2).map R.CONF_SNAPC2

theorem snapRc_mem : ∀ k < 6, R.CONF_SNAPRC k ∈ snapRegs := by decide
theorem snapC1_mem : ∀ k < 3, R.CONF_SNAPC1 k ∈ snapRegs := by decide
theorem snapC2_mem : ∀ k < 2, R.CONF_SNAPC2 k ∈ snapRegs := by decide
theorem snapLast_mem : ∀ b ∈ [R.CONF_SNAPC3, R.CONF_SNAPC45, R.CONF_SNAPPOS], b ∈ snapRegs := by decide

theorem Engine.reg_snapValues_off {l : List Nat} (ha : a ∉ l) (m : Engine) (codes : List Nat) (c : ConfOut) (hl : ∀ b ∈ snapRegs, b ∈ l) : (m.snapValues codes c).reg a = m.reg a := by
  unfold Engine.snapValues
  rw [Engine.reg_snapLast_off ha _ c fun b hb => hl b (snapLast_mem b hb), Engine.reg_snapStage2_off ha _ c fun k hk => hl _ (snapC2_mem k hk),
    Engine.reg_snapStage1_off ha _ c fun k hk => hl _ (snapC1_mem k hk), Engine.reg_snapCodes_off ha _ codes fun k hk => hl _ (snapRc_mem k hk)]

theorem Engine.reg_snapValues_c1 (m : Engine) (codes : List Nat) (c : ConfOut) {k : Nat} (hk : k < 3) : (m.snapValues codes c).reg (R.CONF_SNAPC1 k) = packBytes c.c1 (4 * k) := by
  have hlast : ∀ k < 3, R.CONF_SNAPC1 k ∉ [R.CONF_SNAPC3, R.CONF_SNAPC45, R.CONF_SNAPPOS] := by decide
  have hc2 : ∀ k < 3, R.CONF_SNAPC1 k ∉ (List.range 2).map R.CONF_SNAPC2 := by decide
  unfold Engine.snapValues
  rw [Engine.reg_snapLast_off (hlast k hk) _ c (by decide), Engine.reg_snapStage2_off (hc2 k hk) _ c (by decide)]
  exact Engine.reg_forEach_setReg 3 R.CONF_SNAPC1 _ _ (fun i j h => by unfold R.CONF_SNAPC1 at h; omega) hk

theorem Engine.reg_snapValues_c2 (m : Engine) (codes : List Nat) (c : ConfOut) {k : Nat} (hk : k < 2) : (m.snapValues codes c).reg (R.CONF_SNAPC2 k) = packBytes c.c2 (4 * k) := by
  have hlast : ∀ k < 2, R.CONF_SNAPC2 k ∉ [R.CONF_SNAPC3, R.CONF_SNAPC45, R.CONF_SNAPPOS] := by decide
  unfold Engine.snapValues
  rw [Engine.reg_snapLast_off (hlast k hk) _ c (by decide)]
  exact Engine.reg_forEach_setReg 2 R.CONF_SNAPC2 _ _ (fun i j h => by unfold R.CONF_SNAPC2 at h; omega) hk

/-- The outputs of the later stages, X and its position, in their registers. -/
theorem Engine.snapValues_last (m : Engine) (codes : List Nat) (c : ConfOut) :
    (m.snapValues codes c).reg R.CONF_SNAPC3 = packBytes c.c3 0 ∧ (m.snapValues codes c).reg R.CONF_SNAPPOS = BitVec.ofNat 32 (c.xTick + 16 * c.xValid.toNat) ∧
      (m.snapValues codes c).reg R.CONF_SNAPC45 = packBytes [c.c4a, c.c4b, c.x, c.e] 0 := by
  unfold Engine.snapValues Engine.snapLast
  refine ⟨?_, ?_, ?_⟩ <;> simp (disch := decide) [Engine.reg_setReg_ne]

end Sys2Proof.Machine
end

section
/-! O25: level counters, IRQ entries, jumps, rota events and snapshots (R123, R133, R137, R143, R151). -/
namespace Sys2Proof.Machine
open Sys2Proof

/-- The oldest IRQ entry passes into the log from the cycle after its step on, where none has passed in the PCLK cycle (R137). -/
theorem Engine.irqPass_of_due {m : Engine} {since d : Nat} {u : Tb} {l : List (Nat × Tb × Nat)} (hqueue : m.path.irqQueue = (since, u, d) :: l) (hat : m.path.irqAt ≠ some m.pclk)
    (hsince : since ≤ m.cc) : m.irqPass = ({ m with path := { m.path with irqQueue := l, irqAt := some m.pclk } } : Engine).log 0xA1 0 0x0002 d u := by
  simp [Engine.irqPass, hqueue, hat, Nat.not_lt.2 hsince]

theorem Engine.irqPass_of_none {m : Engine} (h : m.path.irqAt = some m.pclk ∨ m.path.irqQueue = []) : m.irqPass = m := by
  unfold Engine.irqPass
  split
  · rfl
  · next hqueue =>
    have hat : m.path.irqAt = some m.pclk := h.resolve_right (by simp [hqueue])
    simp [hat]

/-- A command whose effect leaves the engine as it is changes nothing. -/
theorem State.live_same {s : State} {f : Engine → Engine} (hlive : s.eng.live = true) (hsame : f s.eng = s.eng) : s.live f = .next s := by
  rw [s.live_pos f hlive, hsame]

/-- Settles O25: a counter's write is a stored write, a jump and an event leave the rota's queue for the path's, and a snapshot is asked for, late or taken. -/
theorem sluiceInputsAndSnapshots : Obligations.SluiceInputsAndSnapshots := by
  unfold Obligations.SluiceInputsAndSnapshots
  refine ⟨fun s port b v hacc => ?low, fun s port b v hacc => ?high, fun s since u d l hlive hqueue hat hsince => State.ends_live Engine.irqPass hlive ?irq,
    fun s hlive hnone => State.live_same hlive (Engine.irqPass_of_none hnone), fun s a hlive ha => State.ends_live Engine.rotaSluiceJump hlive ?jump,
    fun s a hlive ha => State.ends_live Engine.rotaEventAct hlive ?event, fun s port hacc => State.ends_snapGo (named := false) hacc ?first,
    fun s port hacc hearly => State.ends_snapGo (named := true) hacc ?named, fun s port hacc hlate => State.ends_snapGo (named := true) hacc ?late,
    fun s e hlive hgo hfind => State.ends_live Engine.snapTake hlive ?taken⟩
  case low =>
    refine State.ends_sluWrite hacc (decodeReg_ctrLo b) rfl (by cases b <;> decide) rfl ⟨?_, rfl, s.kept_storeFields _ _ _ _⟩
    rw [s.eng.storeFields_all _ v (Nat.zero_or _)]
    exact s.eng.reg_written_same _ v
  case high =>
    exact State.ends_sluWrite hacc (decodeReg_ctrHi b) rfl (by cases b <;> decide) rfl ⟨s.eng.fld_ctrHi b v, rfl, s.kept_storeFields _ _ _ _⟩
  case irq =>
    rw [Engine.irqPass_of_due hqueue hat hsince]
    exact ⟨rfl, rfl, State.kept_withEng (fun _ _ => rfl) rfl⟩
  case jump =>
    have hjump : s.eng.rotaSluiceJump = (s.eng.takeAct a).sluiceJump (s.eng.cc + 1) a.arg := by simp only [Engine.rotaSluiceJump, ha]
    rw [hjump]
    exact ⟨rfl, rfl, State.kept_withEng (fun _ _ => rfl) rfl⟩
  case event =>
    have hevent : s.eng.rotaEventAct = (s.eng.takeAct a).rotaEvent (s.eng.cc + 1) a.target (bitsOf a.arg 0 2) := by simp only [Engine.rotaEventAct, ha]
    rw [hevent]
    by_cases hop : bitsOf a.arg 0 2 = 3
    · simp only [Engine.rotaEvent, hop, if_true, List.append_nil]
      exact ⟨rfl, rfl, State.kept_withEng (fun _ _ => rfl) rfl⟩
    · simp only [Engine.rotaEvent, hop, if_false]
      exact ⟨rfl, rfl, State.kept_withEng (fun _ _ => rfl) rfl⟩
  case first =>
    have hmode : (s.eng.snapAsked 1).flag R.CONF_SNAPCTL_MODE = false := (s.eng.flag_snapAsked_mode 1).trans (by decide)
    have hphys : (s.eng.snapAsked 1).cc - (14 + (s.eng.snapAsked 1).lag) = s.eng.cc - (14 + s.eng.lag) := by rw [s.eng.lag_snapAsked]; rfl
    obtain ⟨hgo, hdone, hlate⟩ := (s.eng.snapAsked 1).snapAwaits_shows (some (s.eng.cc - (14 + s.eng.lag))) s.eng.path.snapTarget
    simp only [Bool.false_eq_true, if_false, Engine.snapGo_first hmode, hphys]
    refine ⟨hgo, hdone, hlate, rfl, rfl, State.kept_withEng (fun b hb => ?_) rfl⟩
    rw [Engine.reg_reply, Engine.reg_snapAwaits_off hb _ _ _ (by simp), s.eng.reg_snapAsked_ne 1 (by simpa using hb)]
  case named =>
    have hmode : (s.eng.snapAsked 3).flag R.CONF_SNAPCTL_MODE = true := (s.eng.flag_snapAsked_mode 3).trans (by decide)
    have hnamed : (s.eng.snapAsked 3).snapPassed ≤ (s.eng.snapAsked 3).snapNamed := by rwa [s.eng.snapPassed_snapAsked, s.eng.snapNamed_snapAsked]
    obtain ⟨hgo, hdone, hlate⟩ := (s.eng.snapAsked 3).snapAwaits_shows none (s.eng.snapAsked 3).snapNamed
    simp only [if_true, Engine.snapGo_named hmode hnamed]
    refine ⟨hgo, hdone, hlate, rfl, s.eng.snapNamed_snapAsked 3, rfl, State.kept_withEng (fun b hb => ?_) rfl⟩
    rw [Engine.reg_reply, Engine.reg_snapAwaits_off hb _ _ _ (by simp), s.eng.reg_snapAsked_ne 3 (by simpa using hb)]
  case late =>
    have hmode : (s.eng.snapAsked 3).flag R.CONF_SNAPCTL_MODE = true := (s.eng.flag_snapAsked_mode 3).trans (by decide)
    have hpassed : (s.eng.snapAsked 3).snapNamed < (s.eng.snapAsked 3).snapPassed := by rwa [s.eng.snapPassed_snapAsked, s.eng.snapNamed_snapAsked]
    simp only [if_true, Engine.snapGo_late hmode hpassed]
    refine ⟨?_, ?_, Engine.hasBit_status_same _ R.E_CONF_SNAP_DONE (by decide), rfl, State.kept_withEng (fun b hb => ?_) ?_⟩
    · simp (disch := decide) [Engine.flag_status_ne, Engine.flag_setFlag_beside, Engine.flag_setFlag_same]
    · simp (disch := decide) [Engine.flag_status_ne, Engine.flag_setFlag_same]
    · have hctl : R.CONF_SNAPCTL ∈ [R.CONF_SNAPCTL, statusAddr 0xA0] := by simp
      rw [Engine.reg_reply, Engine.reg_status_off hb _ (by decide), Engine.reg_setFlag_off hb _ _ hctl, Engine.reg_setFlag_off hb _ _ hctl, Engine.reg_snapCleared_off hb _ hctl]
      exact s.eng.reg_snapAsked_ne 3 fun e => hb (e ▸ hctl)
    · simp
      rfl
  case taken =>
    rw [Engine.snapTake_of_match hgo hfind]
    obtain ⟨hfell, hdone, hbit⟩ := (s.eng.snapValues (e.codes.getD []) (e.conf.getD {})).snapDone_shows
    obtain ⟨hc3, hpos, hc45⟩ := s.eng.snapValues_last (e.codes.getD []) (e.conf.getD {})
    have hshown : ∀ b ∈ snapRegs, b ∉ [R.CONF_SNAPCTL, statusAddr 0xA0] := by decide
    have hkeeps : ∀ b ∈ snapRegs, (s.eng.snapValues (e.codes.getD []) (e.conf.getD {})).snapDone.reg b = (s.eng.snapValues (e.codes.getD []) (e.conf.getD {})).reg b :=
      fun b hb => Engine.reg_snapDone_off (hshown b hb) _ (by simp)
    refine ⟨hfell, hdone, hbit, fun k => ?_, fun k => ?_, ?_, ?_, ?_, State.kept_withEng (fun b hb => ?_) ?_⟩
    · exact (hkeeps _ (snapC1_mem k k.isLt)).trans (s.eng.reg_snapValues_c1 _ _ k.isLt)
    · exact (hkeeps _ (snapC2_mem k k.isLt)).trans (s.eng.reg_snapValues_c2 _ _ k.isLt)
    · exact (hkeeps _ (by decide)).trans hc3
    · exact (hkeeps _ (by decide)).trans hpos
    · exact (hkeeps _ (by decide)).trans hc45
    · rw [Engine.reg_snapDone_off hb _ (by simp), Engine.reg_snapValues_off hb _ _ _ (by decide)]
    · rw [← Engine.snapTake_of_match hgo hfind]
      exact ((within_snapTake (l := [.any]) (by decide)).2 (.refl _ s.eng)).tb

end Sys2Proof.Machine
end

section
/-! SUPPORT. Words of the tanks are read (R322): what a read leaves of the engine, and which registers it changes. -/
namespace Sys2Proof.Machine
open Sys2Proof

variable {m m' m'' : Engine}

/-- What reads of tank words leave beside the registers: events, log entries and the words' own marks may have changed, nothing else. -/
def Engine.WordsMet (m m' : Engine) : Prop := ∃ rs ra d k, m' = { m with regs := rs, raised := ra, detected := d, tank := k }

theorem Engine.WordsMet.refl (m : Engine) : m.WordsMet m := ⟨m.regs, m.raised, m.detected, m.tank, rfl⟩

theorem Engine.WordsMet.trans (h : m.WordsMet m') (h' : m'.WordsMet m'') : m.WordsMet m'' := by
  obtain ⟨rs, ra, d, k, rfl⟩ := h
  obtain ⟨rs', ra', d', k', rfl⟩ := h'
  exact ⟨rs', ra', d', k', rfl⟩

theorem Engine.WordsMet.setReg (h : m.WordsMet m') (a : Nat) (v : Word) : m.WordsMet (m'.setReg a v) := by
  obtain ⟨rs, ra, d, k, rfl⟩ := h
  exact ⟨_, ra, d, k, rfl⟩

theorem Engine.WordsMet.status (h : m.WordsMet m') (b : PageBit) : m.WordsMet (m'.status b) := by
  obtain ⟨rs', ra', hstatus⟩ := m'.status_fields b
  obtain ⟨rs, ra, d, k, rfl⟩ := h
  exact ⟨rs', ra', d, k, hstatus⟩

theorem Engine.WordsMet.logNow (h : m.WordsMet m') (page cls code data : Nat) : m.WordsMet (m'.logNow page cls code data) := by
  obtain ⟨rs, ra, d, k, rfl⟩ := h
  exact ⟨rs, ra, _, k, rfl⟩

theorem Engine.WordsMet.setWordError (h : m.WordsMet m') (w : Nat) (e : Ecc) : m.WordsMet (m'.setWordError w e) := by
  obtain ⟨rs, ra, d, k, rfl⟩ := h
  exact ⟨rs, ra, d, _, rfl⟩

theorem Engine.wordsMet_tankEcc (m : Engine) (ecc : Ecc) (tank word : Nat) : m.WordsMet (m.tankEcc ecc tank word) := by
  cases ecc with
  | good => exact .refl m
  | single => exact ((Engine.WordsMet.refl m).setReg _ _).status _
  | double => exact ((((Engine.WordsMet.refl m).setReg _ _).setReg _ _).status _).logNow _ _ _ _

/-- What a read of a word finds: the worse of the error that stands there and the one it meets (R322). -/
def Engine.wordFound (m : Engine) (w : Nat) (met : Ecc) : Ecc :=
  match m.wordError w, met with
  | .double, _ | _, .double => Ecc.double
  | .single, _ | _, .single => Ecc.single
  | _, _ => Ecc.good

theorem Engine.wordsMet_wordRead (m : Engine) (w : Nat) (met : Ecc) : m.WordsMet (m.wordRead w met).1 := by
  have hecc := m.wordsMet_tankEcc (m.wordFound w met) (w / 32768) (w % 32768)
  change m.WordsMet (if m.wordFound w met = .single then _ else if m.wordFound w met = .double then _ else _)
  split_ifs
  · exact hecc.setWordError _ _
  · exact hecc.setWordError _ _
  · exact hecc

/-- Words read one after the other as a fold, whether or not an error stands anywhere. -/
theorem Engine.wordsMet_wordsRead (m : Engine) (ws : List Nat) : m.WordsMet (m.wordsRead ws).1 := by
  unfold Engine.wordsRead
  split
  · exact .refl m
  · exact List.foldlRecOn (motive := fun x : Engine × Bool => m.WordsMet x.1) _ _ (.refl m) fun x hx w _ => hx.trans (x.1.wordsMet_wordRead w .good)

theorem Engine.wordsMet_setPass (m : Engine) (t : Memory) (s : Bool) : m.WordsMet (m.setPass t s).1 := m.wordsMet_wordsRead _

/-! What is read of an engine whose words were read. -/

theorem Engine.WordsMet.path (h : m.WordsMet m') : m'.path = m.path := by obtain ⟨rs, ra, d, k, rfl⟩ := h; rfl
theorem Engine.WordsMet.causes (h : m.WordsMet m') : m'.causes = m.causes := by obtain ⟨rs, ra, d, k, rfl⟩ := h; rfl
theorem Engine.WordsMet.gateOrders (h : m.WordsMet m') : m'.gateOrders = m.gateOrders := by obtain ⟨rs, ra, d, k, rfl⟩ := h; rfl
theorem Engine.WordsMet.tb (h : m.WordsMet m') : m'.tb = m.tb := by obtain ⟨rs, ra, d, k, rfl⟩ := h; rfl

/-! Which registers reads of tank words change. -/

section Off
variable {l : List Nat} {a : Nat}

theorem tankCe_mem {n : Nat} (hn : n < 64) : R.TANK_CE n ∈ tankEccRegs := by
  simp only [tankEccRegs, List.mem_append, List.mem_map, List.mem_range]
  exact .inl (.inl ⟨n, hn, rfl⟩)

theorem tankUe_mem {n : Nat} (hn : n < 64) : R.TANK_UE n ∈ tankEccRegs := by
  simp only [tankEccRegs, List.mem_append, List.mem_map, List.mem_range]
  exact .inl (.inr ⟨n, hn, rfl⟩)

theorem tankLast_mem : R.TANK_LASTUE ∈ tankEccRegs ∧ statusAddr 0xC0 ∈ tankEccRegs := by simp [tankEccRegs]

theorem Engine.reg_tankEcc_off (ha : a ∉ l) (hl : ∀ b ∈ tankEccRegs, b ∈ l) (m : Engine) (ecc : Ecc) {tank : Nat} (htank : tank < 64) (word : Nat) :
    (m.tankEcc ecc tank word).reg a = m.reg a := by
  have hstatus := hl _ tankLast_mem.2
  cases ecc with
  | good => rfl
  | single => exact (Engine.reg_status_off (b := R.E_TANK_CE) ha _ hstatus).trans (Engine.reg_addSat_off ha _ _ (hl _ (tankCe_mem htank)))
  | double =>
    exact (Engine.reg_status_off (b := R.E_TANK_UE) ha _ hstatus).trans
      ((Engine.reg_setReg_off ha _ _ (hl _ tankLast_mem.1)).trans (Engine.reg_addSat_off ha _ _ (hl _ (tankUe_mem htank))))

theorem Engine.reg_wordRead (m : Engine) (w : Nat) (met : Ecc) (a : Nat) :
    (m.wordRead w met).1.reg a = (m.tankEcc (m.wordFound w met) (w / 32768) (w % 32768)).reg a := by
  change (if m.wordFound w met = .single then _ else if m.wordFound w met = .double then _ else _ : Engine).reg a = _
  split_ifs <;> rfl

theorem Engine.reg_wordsRead_off (ha : a ∉ l) (hl : ∀ b ∈ tankEccRegs, b ∈ l) (m : Engine) {ws : List Nat} (hws : ∀ w ∈ ws, w / 32768 < 64) : (m.wordsRead ws).1.reg a = m.reg a := by
  unfold Engine.wordsRead
  split
  · rfl
  · refine List.foldlRecOn (motive := fun x : Engine × Bool => x.1.reg a = m.reg a) _ _ rfl fun x hx w hw => ?_
    exact ((x.1.reg_wordRead w .good a).trans (Engine.reg_tankEcc_off ha hl _ _ (hws w hw) _)).trans hx

/-- A tank that the tables can read is one of the 64 (R119). -/
theorem Engine.tankReadable_lt {m : Engine} {k : Nat} (h : m.tankReadable k = true) : k < 64 := by
  simp only [Engine.tankReadable, Bool.and_eq_true, decide_eq_true_eq] at h
  exact h.1

theorem Engine.reg_setPass_off (ha : a ∉ l) (hl : ∀ b ∈ tankEccRegs, b ∈ l) (m : Engine) (t : Memory) (s : Bool) : (m.setPass t s).1.reg a = m.reg a := by
  refine Engine.reg_wordsRead_off ha hl m fun w hw => ?_
  simp only [List.mem_filter, Bool.and_eq_true] at hw
  exact Engine.tankReadable_lt hw.2.1

end Off

/-- They lie on the tanks' page, so every register below it stays as it is. -/
theorem tankEccRegs_ge {b : Nat} (hb : b ∈ tankEccRegs) : 0xC0000 ≤ b := by
  simp only [tankEccRegs, List.mem_append, List.mem_map, List.mem_cons, List.not_mem_nil, or_false] at hb
  obtain (⟨n, -, rfl⟩ | ⟨n, -, rfl⟩) | rfl | rfl := hb
  · unfold R.TANK_CE; omega
  · unfold R.TANK_UE; omega
  · decide
  · decide

theorem Engine.reg_setPass_below (m : Engine) (t : Memory) (s : Bool) {a : Nat} (ha : a < 0xC0000) : (m.setPass t s).1.reg a = m.reg a :=
  Engine.reg_setPass_off (l := tankEccRegs) (fun hmem => Nat.not_le.2 ha (tankEccRegs_ge hmem)) (fun _ h => h) m t s

/-- Without standing errors a pass names the first tank that does not match its CRC register (R144). -/
theorem Engine.setPass_of_no_errors {m : Engine} (herrs : m.tank.errs = []) (t : Memory) (s : Bool) : (m.setPass t s).2 = m.badTableTank t s := by
  have hnone : (List.range 11).find? (fun k => m.tankReadable (m.setBaseTank s + k) &&
      m.tank.errs.any (fun x => (decide (x.1 / 32768 = m.setBaseTank s + k) && (decide (k < 10) || decide (x.1 % 32768 < 0x828))) && x.2 == .double)) = none := by
    simp [herrs]
  unfold Engine.setPass
  dsimp only
  rw [hnone]
  cases m.badTableTank t s <;> rfl

end Sys2Proof.Machine
end

section
/-! SUPPORT. The set in force and its changes (R141, R142). -/
namespace Sys2Proof.Machine
open Sys2Proof

variable {a : Nat} {m : Engine}

/-- A change for a later cycle does not tell the set in force (R141). -/
theorem Engine.setAt_of_later {l : List (Nat × Bool)} {p q : Nat} {b x : Bool} (h : m.tableChanges = l ++ [(p, b)] ++ [(q, x)]) (hq : p < q) : m.setAt p = b := by
  simp [Engine.setAt, h, Nat.not_le.2 hq]

@[simp] theorem Engine.changeTables_tableChanges (m : Engine) (p : Nat) (s : Bool) :
    (m.changeTables p s).tableChanges = m.tableChanges.filter (fun c => decide (c.1 < p)) ++ [(p, s)] := by
  unfold Engine.changeTables; dsimp only; split <;> simp

@[simp] theorem Engine.changeTables_path (m : Engine) (p : Nat) (s : Bool) : (m.changeTables p s).path = m.path := by
  unfold Engine.changeTables; dsimp only; split <;> simp

@[simp] theorem Engine.changeTables_rota (m : Engine) (p : Nat) (s : Bool) : (m.changeTables p s).rota = m.rota := by
  unfold Engine.changeTables; dsimp only; split <;> simp

@[simp] theorem Engine.changeTables_tb (m : Engine) (p : Nat) (s : Bool) : (m.changeTables p s).tb = m.tb := by
  unfold Engine.changeTables; dsimp only; split <;> simp

/-- CONF.STATUS shows the set. -/
theorem Engine.flag_changeTables_inforce (m : Engine) (p : Nat) (s : Bool) : (m.changeTables p s).flag R.CONF_STATUS_INFORCE = s := by
  unfold Engine.changeTables
  dsimp only
  split
  · exact Engine.flag_setFlag_same _ R.CONF_STATUS_INFORCE s (by decide) rfl
  · rw [Engine.flag_status_ne _ _ (by decide)]
    exact Engine.flag_setFlag_same _ R.CONF_STATUS_INFORCE s (by decide) rfl

theorem Engine.reg_changeTables_off {l : List Nat} (ha : a ∉ l) (m : Engine) (p : Nat) (s : Bool) (hl : ∀ b ∈ [R.CONF_STATUS, statusAddr 0xA0], b ∈ l) :
    (m.changeTables p s).reg a = m.reg a := by
  unfold Engine.changeTables
  dsimp only
  split
  · exact Engine.reg_setFlag_off ha _ s (hl _ (by decide))
  · rw [Engine.reg_status_off ha _ (hl _ (by decide))]
    exact Engine.reg_setFlag_off ha _ s (hl _ (by decide))

/-! A swap by the rota. -/

/-- Does a SETSEL write of the same cycle follow a swap one cycle later (R141)? -/
def Engine.selFollows (m : Engine) (p : Nat) : Bool := m.path.selAt == some p && !m.armedAt p

/-- The sets for the sample cycles from p on, as a swap leaves them. -/
def Engine.tablesSwapped (m : Engine) (p : Nat) (s : Bool) : Engine :=
  if m.selFollows p then (m.changeTables p s).changeTables (p + 1) ((m.changeTables p s).flag R.CONF_SETSEL_SET) else m.changeTables p s

/-- The path, as a swap leaves it: the jump that it asks for joins the others. -/
def Engine.pathSwapped (m : Engine) (p arg : Nat) : Path :=
  { m.path with swapAt := some p, selAt := if m.selFollows p then some (p + 1) else m.path.selAt
                jumps := m.path.jumps ++ (if bitAt arg 31 then [⟨p, bitsOf arg 16 10, false, false⟩] else []) }

@[simp] theorem Engine.tablesSwapped_path (m : Engine) (p : Nat) (s : Bool) : (m.tablesSwapped p s).path = m.path := by
  unfold Engine.tablesSwapped; split <;> simp

theorem Engine.tableSwap_taken {p : Nat} {s : Bool} (arg : Nat) (h : (m.armedAt p && !m.verified s) = false) :
    m.tableSwap p s arg = { m.tablesSwapped p s with path := m.pathSwapped p arg } := by
  unfold Engine.tableSwap
  rw [h]
  cases hsel : m.path.selAt == some p && !m.armedAt p <;> cases hjump : bitAt arg 31 <;>
    simp [Engine.tablesSwapped, Engine.pathSwapped, Engine.selFollows, hsel, hjump]

theorem Engine.setAt_tablesSwapped (m : Engine) (p : Nat) (s : Bool) : (m.tablesSwapped p s).setAt p = s := by
  unfold Engine.tablesSwapped
  split
  · refine Engine.setAt_of_later (q := p + 1) (x := (m.changeTables p s).flag R.CONF_SETSEL_SET) (l := (m.tableChanges.filter (fun c => decide (c.1 < p))).filter (fun c => decide (c.1 < p + 1))) ?_ (Nat.lt_succ_self p)
    simp only [Engine.changeTables_tableChanges, List.filter_append]
    simp
  · exact Engine.setAt_of_last (m.changeTables_tableChanges p s)

theorem Engine.flag_tablesSwapped_inforce (m : Engine) (p : Nat) (s : Bool) :
    (m.tablesSwapped p s).flag R.CONF_STATUS_INFORCE = if m.path.selAt = some p ∧ m.armedAt p = false then m.flag R.CONF_SETSEL_SET else s := by
  have hset : (m.changeTables p s).flag R.CONF_SETSEL_SET = m.flag R.CONF_SETSEL_SET :=
    Engine.flag_of_reg (Engine.reg_changeTables_off (l := [R.CONF_STATUS, statusAddr 0xA0]) (by decide) m p s (by simp))
  have hiff : m.selFollows p = true ↔ m.path.selAt = some p ∧ m.armedAt p = false := by simp [Engine.selFollows]
  unfold Engine.tablesSwapped
  simp only [hiff, hset]
  split <;> exact Engine.flag_changeTables_inforce _ _ _

theorem Engine.reg_tablesSwapped_off {l : List Nat} (ha : a ∉ l) (m : Engine) (p : Nat) (s : Bool) (hl : ∀ b ∈ [R.CONF_STATUS, statusAddr 0xA0], b ∈ l) :
    (m.tablesSwapped p s).reg a = m.reg a := by
  unfold Engine.tablesSwapped
  split
  · rw [Engine.reg_changeTables_off ha _ _ _ hl, Engine.reg_changeTables_off ha _ _ _ hl]
  · exact Engine.reg_changeTables_off ha _ _ _ hl

@[simp] theorem Engine.tablesSwapped_rota (m : Engine) (p : Nat) (s : Bool) : (m.tablesSwapped p s).rota = m.rota := by
  unfold Engine.tablesSwapped; split <;> simp

@[simp] theorem Engine.tablesSwapped_tb (m : Engine) (p : Nat) (s : Bool) : (m.tablesSwapped p s).tb = m.tb := by
  unfold Engine.tablesSwapped; split <;> simp

/-- The first sample cycle that a swap to an unverified set bars (R142). -/
def Engine.barredFrom (m : Engine) (p : Nat) : Nat := match m.path.stepBar with | none => p | some b => min b p

theorem Engine.tableSwap_barred {p : Nat} {s : Bool} (arg : Nat) (h : (m.armedAt p && !m.verified s) = true) :
    m.tableSwap p s arg =
      { m with path := { m.path with stepBar := some (m.barredFrom p), dueCauses := m.path.dueCauses ++ [(p + 31 + m.lag, 3, m.fld R.CONF_STATUS_FAILTANK + 16 * s.toNat)] } } := by
  unfold Engine.tableSwap
  rw [h]
  rfl

theorem Engine.barredFrom_le (m : Engine) (p : Nat) : m.barredFrom p ≤ p := by
  unfold Engine.barredFrom
  split
  · exact Nat.le_refl p
  · exact Nat.min_le_right _ _

/-- No step is taken from the first barred sample cycle on. -/
theorem Engine.stepsFor_of_barred {p b : Nat} (hbar : m.path.stepBar = some b) (hb : b ≤ p) : m.stepsFor p = false := by
  simp [Engine.stepsFor, hbar, hb]

end Sys2Proof.Machine
end

section
/-! SUPPORT. VER, FAIL and the verification of a set (R144, R145): what each operation shows. -/
namespace Sys2Proof.Machine
open Sys2Proof

variable {a : Nat} {m : Engine}

/-! VER. -/

theorem Engine.verified_clearVer_same (m : Engine) (s : Bool) : (m.clearVer s).verified s = false := by
  cases s
  · exact Engine.flag_setFlag_same m R.CONF_STATUS_VER_A false (by decide) rfl
  · exact Engine.flag_setFlag_same m R.CONF_STATUS_VER_B false (by decide) rfl

theorem Engine.verified_clearVer_other (m : Engine) {s r : Bool} (h : r ≠ s) : (m.clearVer s).verified r = m.verified r := by
  obtain rfl : r = !s := by cases s <;> cases r <;> simp_all
  cases s
  · exact Engine.flag_setFlag_beside m R.CONF_STATUS_VER_A R.CONF_STATUS_VER_B false rfl (by decide)
  · exact Engine.flag_setFlag_beside m R.CONF_STATUS_VER_B R.CONF_STATUS_VER_A false rfl (by decide)

theorem Engine.reg_clearVer_off {l : List Nat} (ha : a ∉ l) (m : Engine) (s : Bool) (hl : R.CONF_STATUS ∈ l) : (m.clearVer s).reg a = m.reg a :=
  Engine.reg_setFlag_off ha m false (by cases s <;> exact hl)

theorem Engine.verified_of_reg {m m' : Engine} (hreg : m'.reg R.CONF_STATUS = m.reg R.CONF_STATUS) (s : Bool) : m'.verified s = m.verified s :=
  Engine.flag_of_reg (by cases s <;> exact hreg)

theorem Engine.setBaseTank_of_reg {m m' : Engine} (hreg : m'.reg R.CONF_TSET = m.reg R.CONF_TSET) (s : Bool) : m'.setBaseTank s = m.setBaseTank s := by
  cases s
  · exact Engine.fld_of_reg (f := R.CONF_TSET_BASE_A) hreg
  · exact Engine.fld_of_reg (f := R.CONF_TSET_BASE_B) hreg

/-! TSET takes a value (R144). -/

/-- Where the word holds a set's base. -/
def baseLo (s : Bool) : Nat := if s then 8 else 0

/-- A set whose base is another than before loses its VER bit. -/
def Engine.baseTold (m : Engine) (old : Word) (s : Bool) : Engine := if m.setBaseTank s = bitsOf old.toNat (baseLo s) 6 then m else m.clearVer s

theorem Engine.tsetWritten_eq (m : Engine) (old : Word) : m.tsetWritten old = (m.baseTold old false).baseTold old true := rfl

theorem Engine.reg_baseTold_off {l : List Nat} (ha : a ∉ l) (m : Engine) (old : Word) (s : Bool) (hl : R.CONF_STATUS ∈ l) : (m.baseTold old s).reg a = m.reg a := by
  unfold Engine.baseTold
  split
  · rfl
  · exact m.reg_clearVer_off ha s hl

theorem Engine.verified_baseTold_same (m : Engine) (old : Word) (s : Bool) : (m.baseTold old s).verified s = (m.verified s && m.setBaseTank s == bitsOf old.toNat (baseLo s) 6) := by
  unfold Engine.baseTold
  split
  · next heq => simp [heq]
  · next hne => simp [hne, m.verified_clearVer_same s]

theorem Engine.verified_baseTold_other (m : Engine) (old : Word) {s r : Bool} (h : r ≠ s) : (m.baseTold old s).verified r = m.verified r := by
  unfold Engine.baseTold
  split
  · rfl
  · exact m.verified_clearVer_other h

theorem Engine.verified_tsetWritten (m : Engine) (old : Word) (s : Bool) : (m.tsetWritten old).verified s = (m.verified s && m.setBaseTank s == bitsOf old.toNat (baseLo s) 6) := by
  rw [Engine.tsetWritten_eq]
  cases s
  · rw [Engine.verified_baseTold_other _ _ (by decide), Engine.verified_baseTold_same]
  · have hbase : (m.baseTold old false).setBaseTank true = m.setBaseTank true :=
      Engine.setBaseTank_of_reg (Engine.reg_baseTold_off (l := [R.CONF_STATUS]) (by decide) m old false (by simp)) true
    rw [Engine.verified_baseTold_same, Engine.verified_baseTold_other _ _ (by decide), hbase]

theorem Engine.reg_tsetWritten_off {l : List Nat} (ha : a ∉ l) (m : Engine) (old : Word) (hl : R.CONF_STATUS ∈ l) : (m.tsetWritten old).reg a = m.reg a :=
  (Engine.reg_baseTold_off ha _ old true hl).trans (Engine.reg_baseTold_off ha m old false hl)

/-! A verification is asked for (R144). -/

/-- A verification begins. -/
theorem Engine.verify_of_idle (hidle : m.path.verifying = none) (s : Bool) :
    m.verify s = ((({ m with path := { m.path with verifying := some s } } : Engine).setFlag R.CONF_STATUS_BUSY true).setFlag R.CONF_VERIFY_GO true) := by
  simp only [Engine.verify, hidle]

theorem Engine.verify_of_busy {r : Bool} (hbusy : m.path.verifying = some r) (s : Bool) :
    m.verify s = { m with path := { m.path with verifyWaits := if r = s then m.path.verifyWaits else some s } } := by
  have hverify : m.verify s = if r = s then m else { m with path := { m.path with verifyWaits := some s } } := by simp only [Engine.verify, hbusy]
  rw [hverify]
  split <;> rfl

theorem Engine.verify_shows (hidle : m.path.verifying = none) (s : Bool) :
    (m.verify s).path.verifying = some s ∧ (m.verify s).flag R.CONF_STATUS_BUSY = true ∧ (m.verify s).flag R.CONF_VERIFY_GO = true := by
  rw [Engine.verify_of_idle hidle]
  refine ⟨rfl, ?_, Engine.flag_setFlag_same _ _ _ (by decide) rfl⟩
  rw [Engine.flag_setFlag_ne _ _ (by decide), Engine.flag_setFlag_same _ _ _ (by decide) rfl]

theorem Engine.verified_verify (m : Engine) (s r : Bool) : (m.verify s).verified r = m.verified r := by
  unfold Engine.verify
  split
  · split <;> rfl
  · cases r
    · exact (Engine.flag_setFlag_ne _ _ (by decide)).trans (Engine.flag_setFlag_beside _ R.CONF_STATUS_BUSY R.CONF_STATUS_VER_A _ rfl (by decide))
    · exact (Engine.flag_setFlag_ne _ _ (by decide)).trans (Engine.flag_setFlag_beside _ R.CONF_STATUS_BUSY R.CONF_STATUS_VER_B _ rfl (by decide))

theorem Engine.reg_verify_off {l : List Nat} (ha : a ∉ l) (hidle : m.path.verifying = none) (s : Bool) (hl : ∀ b ∈ [R.CONF_STATUS, R.CONF_VERIFY], b ∈ l) : (m.verify s).reg a = m.reg a := by
  rw [Engine.verify_of_idle hidle]
  exact (Engine.reg_setFlag_off ha _ _ (hl _ (by decide))).trans (Engine.reg_setFlag_off ha _ _ (hl _ (by decide)))

@[simp] theorem Engine.clearVer_path (m : Engine) (s : Bool) : (m.clearVer s).path = m.path := rfl
@[simp] theorem Engine.clearVer_causes (m : Engine) (s : Bool) : (m.clearVer s).causes = m.causes := rfl
@[simp] theorem Engine.clearVer_tb (m : Engine) (s : Bool) : (m.clearVer s).tb = m.tb := rfl

/-! A mismatch is shown (R144, R145). -/

theorem Engine.crcFail_shows (m : Engine) (s : Bool) (k : Nat) :
    (m.crcFail s k).flag (if s then R.CONF_STATUS_FAIL_B else R.CONF_STATUS_FAIL_A) = true ∧ (m.crcFail s k).fld R.CONF_STATUS_FAILTANK = k % 16 ∧
      (m.crcFail s k).hasBit R.E_CONF_CRC_FAIL = true := by
  refine ⟨?_, ?_, Engine.hasBit_status_same _ R.E_CONF_CRC_FAIL (by decide)⟩
  · unfold Engine.crcFail
    cases s <;> simp (disch := decide) [Engine.flag_status_ne, Engine.flag_setFld_beside, Engine.flag_setFlag_same]
  · unfold Engine.crcFail
    rw [Engine.fld_status_ne _ _ (by decide), Engine.fld_setFld_same _ _ _ (by decide)]
    rfl

theorem Engine.flag_crcFail_other (m : Engine) {s r : Bool} (h : r ≠ s) (k : Nat) :
    (m.crcFail s k).flag (if r then R.CONF_STATUS_FAIL_B else R.CONF_STATUS_FAIL_A) = m.flag (if r then R.CONF_STATUS_FAIL_B else R.CONF_STATUS_FAIL_A) := by
  obtain rfl : r = !s := by cases s <;> cases r <;> simp_all
  unfold Engine.crcFail
  cases s <;> simp (disch := decide) [Engine.flag_status_ne, Engine.flag_setFld_beside, Engine.flag_setFlag_beside]

theorem Engine.verified_crcFail (m : Engine) (s : Bool) (k : Nat) (r : Bool) : (m.crcFail s k).verified r = m.verified r := by
  unfold Engine.crcFail Engine.verified
  cases s <;> cases r <;> simp (disch := decide) [Engine.flag_status_ne, Engine.flag_setFld_beside, Engine.flag_setFlag_beside]

theorem Engine.reg_crcFail_off {l : List Nat} (ha : a ∉ l) (m : Engine) (s : Bool) (k : Nat) (hl : ∀ b ∈ [R.CONF_STATUS, statusAddr 0xA0], b ∈ l) : (m.crcFail s k).reg a = m.reg a := by
  have hstatus := hl R.CONF_STATUS (by simp)
  unfold Engine.crcFail
  rw [Engine.reg_status_off ha _ (hl _ (by decide)), Engine.reg_setFld_off ha _ _ hstatus, Engine.reg_setFlag_off ha _ _ (by cases s <;> exact hstatus)]

@[simp] theorem Engine.crcFail_path (m : Engine) (s : Bool) (k : Nat) : (m.crcFail s k).path = m.path := by simp [Engine.crcFail]
@[simp] theorem Engine.crcFail_causes (m : Engine) (s : Bool) (k : Nat) : (m.crcFail s k).causes = m.causes := by simp [Engine.crcFail]
@[simp] theorem Engine.crcFail_tb (m : Engine) (s : Bool) (k : Nat) : (m.crcFail s k).tb = m.tb := by simp [Engine.crcFail]

/-! A verification ends (R144). -/

/-- What a verified set shows: VER, or a mismatch. -/
def Engine.verifyTold (m : Engine) (s : Bool) : Option Nat → Engine
  | none => (m.setFlag (if s then R.CONF_STATUS_VER_B else R.CONF_STATUS_VER_A) true).setFlag (if s then R.CONF_STATUS_FAIL_B else R.CONF_STATUS_FAIL_A) false
  | some k => (m.clearVer s).crcFail s k

@[simp] theorem Engine.verifyTold_path (m : Engine) (s : Bool) (bad : Option Nat) : (m.verifyTold s bad).path = m.path := by
  cases bad <;> simp [Engine.verifyTold]

@[simp] theorem Engine.verifyTold_tb (m : Engine) (s : Bool) (bad : Option Nat) : (m.verifyTold s bad).tb = m.tb := by
  cases bad <;> simp [Engine.verifyTold]

/-- The end of a verification is told: BUSY and GO fall. -/
def Engine.verifyFalls (m : Engine) : Engine := ((m.status R.E_CONF_VERIFY_DONE).setFlag R.CONF_STATUS_BUSY false).setFlag R.CONF_VERIFY_GO false

@[simp] theorem Engine.verifyFalls_path (m : Engine) : m.verifyFalls.path = m.path := by simp [Engine.verifyFalls]
@[simp] theorem Engine.verifyFalls_tb (m : Engine) : m.verifyFalls.tb = m.tb := by simp [Engine.verifyFalls]

/-- No verification is under way, and none waits. -/
def Engine.verifyOver (m : Engine) : Engine := { m.verifyFalls with path := { m.verifyFalls.path with verifying := none, verifyWaits := none } }

theorem Engine.verifyDone_alone (t : Memory) {s : Bool} (hbusy : m.path.verifying = some s) (halone : m.path.verifyWaits = none) :
    m.verifyDone t = ((m.setPass t s).1.verifyTold s (m.setPass t s).2).verifyOver := by
  have hwaits : ((m.setPass t s).1.verifyTold s (m.setPass t s).2).verifyFalls.path.verifyWaits = none := by
    rw [Engine.verifyFalls_path, Engine.verifyTold_path, (m.wordsMet_setPass t s).path, halone]
  have hall : m.verifyDone t = match ((m.setPass t s).1.verifyTold s (m.setPass t s).2).verifyFalls.path.verifyWaits with
      | none => ((m.setPass t s).1.verifyTold s (m.setPass t s).2).verifyOver
      | some r => ((m.setPass t s).1.verifyTold s (m.setPass t s).2).verifyOver.verify r := by
    unfold Engine.verifyDone
    simp only [hbusy]
    rfl
  rw [hall, hwaits]

/-- VER or FAIL, and with FAIL the tank (R144). -/
theorem Engine.verifyTold_shows (m : Engine) (s : Bool) (bad : Option Nat) :
    (m.verifyTold s bad).verified s = bad.isNone ∧ (m.verifyTold s bad).flag (if s then R.CONF_STATUS_FAIL_B else R.CONF_STATUS_FAIL_A) = bad.isSome ∧
      ∀ k ∈ bad, (m.verifyTold s bad).fld R.CONF_STATUS_FAILTANK = k % 16 ∧ (m.verifyTold s bad).hasBit R.E_CONF_CRC_FAIL = true := by
  cases bad with
  | none =>
    refine ⟨?_, ?_, by simp⟩
    · unfold Engine.verifyTold Engine.verified
      cases s <;> simp (disch := decide) [Engine.flag_setFlag_beside, Engine.flag_setFlag_same]
    · unfold Engine.verifyTold
      cases s <;> simp (disch := decide) [Engine.flag_setFlag_same]
  | some k =>
    obtain ⟨hfail, htank, hbit⟩ := (m.clearVer s).crcFail_shows s k
    exact ⟨((m.clearVer s).verified_crcFail s k s).trans (m.verified_clearVer_same s), hfail, fun j hj => by obtain rfl := Option.some.inj hj; exact ⟨htank, hbit⟩⟩

theorem Engine.reg_verifyTold_off {l : List Nat} (ha : a ∉ l) (m : Engine) (s : Bool) (bad : Option Nat) (hl : ∀ b ∈ [R.CONF_STATUS, statusAddr 0xA0], b ∈ l) :
    (m.verifyTold s bad).reg a = m.reg a := by
  have hstatus := hl R.CONF_STATUS (by simp)
  cases bad with
  | none => exact (Engine.reg_setFlag_off ha _ _ (by cases s <;> exact hstatus)).trans (Engine.reg_setFlag_off ha _ _ (by cases s <;> exact hstatus))
  | some k => exact (Engine.reg_crcFail_off ha _ s k hl).trans (m.reg_clearVer_off ha s hstatus)

theorem Engine.verifyOver_shows (m : Engine) :
    m.verifyOver.flag R.CONF_STATUS_BUSY = false ∧ m.verifyOver.flag R.CONF_VERIFY_GO = false ∧ m.verifyOver.hasBit R.E_CONF_VERIFY_DONE = true := by
  change m.verifyFalls.flag _ = _ ∧ m.verifyFalls.flag _ = _ ∧ m.verifyFalls.hasBit _ = _
  unfold Engine.verifyFalls
  refine ⟨?_, ?_, ?_⟩
  · simp (disch := decide) [Engine.flag_setFlag_ne, Engine.flag_setFlag_same]
  · simp (disch := decide) [Engine.flag_setFlag_same]
  · refine (Engine.hasBit_of_reg ?_).trans (Engine.hasBit_status_same m R.E_CONF_VERIFY_DONE (by decide))
    simp (disch := decide) [Engine.reg_setFlag_ne]

/-- The end of a verification leaves the other bits of CONF.STATUS and of PAGE_STATUS. -/
theorem Engine.fld_verifyOver_beside (m : Engine) {f : Field} (haddr : f.addr = R.CONF_STATUS) (hbusy : f.lo + f.width ≤ 3 ∨ 4 ≤ f.lo) : m.verifyOver.fld f = m.fld f := by
  change (((m.status R.E_CONF_VERIFY_DONE).setFlag R.CONF_STATUS_BUSY false).setFlag R.CONF_VERIFY_GO false).fld f = m.fld f
  rw [Engine.fld_setFlag_ne _ _ (by rw [haddr]; decide), Engine.fld_setFlag_beside _ R.CONF_STATUS_BUSY f _ haddr hbusy, Engine.fld_status_ne _ _ (by rw [haddr]; decide)]

theorem Engine.hasBit_verifyOver (m : Engine) {b : PageBit} (h : m.hasBit b = true) : m.verifyOver.hasBit b = true := by
  have hreg : m.verifyOver.hasBit b = (m.status R.E_CONF_VERIFY_DONE).hasBit b := by
    refine Engine.hasBit_of_reg ?_
    have hgo : statusAddr b.page ≠ R.CONF_VERIFY := by unfold statusAddr R.CONF_VERIFY; omega
    have hstatus : statusAddr b.page ≠ R.CONF_STATUS := by unfold statusAddr R.CONF_STATUS; omega
    exact (Engine.reg_setFlag_ne _ R.CONF_VERIFY_GO false hgo).trans (Engine.reg_setFlag_ne _ R.CONF_STATUS_BUSY false hstatus)
  rw [hreg, Engine.hasBit_status _ _ _ (by decide), h, Bool.or_true]

theorem Engine.reg_verifyOver_off {l : List Nat} (ha : a ∉ l) (m : Engine) (hl : ∀ b ∈ [R.CONF_STATUS, R.CONF_VERIFY, statusAddr 0xA0], b ∈ l) : m.verifyOver.reg a = m.reg a :=
  (Engine.reg_setFlag_off ha _ _ (hl _ (by decide))).trans ((Engine.reg_setFlag_off ha _ _ (hl _ (by decide))).trans (Engine.reg_status_off ha _ (hl _ (by decide))))

/-! The background pass (R145, R150). -/

/-- A mismatch of the set in force is shown, and a cause of settling. -/
def Engine.passTold (m : Engine) (s : Bool) : Option Nat → Engine
  | none => m
  | some k => (m.crcFail s k).cause 3 (k + 16 * s.toNat) 0xA0

/-- The pass over a verified set that is not in force. -/
def Engine.otherPass (m : Engine) (t : Memory) (s : Bool) : Engine :=
  if !m.verified s then m
  else match (m.setPass t s).2 with
    | none => (m.setPass t s).1
    | some k => ((m.setPass t s).1.clearVer s).crcFail s k

theorem Engine.crcBackground_of_armed (t : Memory) (harmed : m.armed = true) :
    m.crcBackground t = ((m.setPass t (m.setAt m.cc)).1.passTold (m.setAt m.cc) (m.setPass t (m.setAt m.cc)).2).otherPass t (!m.setAt m.cc) := by
  unfold Engine.armed at harmed
  unfold Engine.crcBackground
  rw [harmed]
  rfl

theorem Engine.crcBackground_of_not_armed (t : Memory) (harmed : m.armed = false) : m.crcBackground t = m := by
  unfold Engine.armed at harmed
  simp [Engine.crcBackground, harmed]

theorem Engine.passTold_causes (m : Engine) (s : Bool) (bad : Option Nat) :
    (m.passTold s bad).causes = m.causes ++ (match bad with | none => [] | some k => [⟨3, k + 16 * s.toNat, 0xA0⟩]) := by
  cases bad with
  | none => exact (List.append_nil _).symm
  | some k => exact congrArg (· ++ _) (m.crcFail_causes s k)

theorem Engine.verified_passTold (m : Engine) (s : Bool) (bad : Option Nat) (r : Bool) : (m.passTold s bad).verified r = m.verified r := by
  cases bad with
  | none => rfl
  | some k => exact m.verified_crcFail s k r

@[simp] theorem Engine.passTold_tb (m : Engine) (s : Bool) (bad : Option Nat) : (m.passTold s bad).tb = m.tb := by
  cases bad with
  | none => rfl
  | some k => exact m.crcFail_tb s k

theorem Engine.reg_passTold_off {l : List Nat} (ha : a ∉ l) (m : Engine) (s : Bool) (bad : Option Nat) (hl : ∀ b ∈ [R.CONF_STATUS, statusAddr 0xA0], b ∈ l) :
    (m.passTold s bad).reg a = m.reg a := by
  cases bad with
  | none => rfl
  | some k => exact m.reg_crcFail_off ha s k hl

/-- The pass over the other set makes no cause, and leaves what is shown of the set in force. -/
theorem Engine.otherPass_keeps (m : Engine) (t : Memory) (s : Bool) :
    (m.otherPass t (!s)).causes = m.causes ∧ (m.otherPass t (!s)).tb = m.tb ∧ (m.otherPass t (!s)).verified s = m.verified s ∧
      (m.otherPass t (!s)).flag (if s then R.CONF_STATUS_FAIL_B else R.CONF_STATUS_FAIL_A) = m.flag (if s then R.CONF_STATUS_FAIL_B else R.CONF_STATUS_FAIL_A) := by
  have hne : s ≠ !s := by cases s <;> decide
  have hmet := m.wordsMet_setPass t (!s)
  have hstatus : (m.setPass t (!s)).1.reg R.CONF_STATUS = m.reg R.CONF_STATUS := m.reg_setPass_below t (!s) (by decide)
  have hfail : (m.setPass t (!s)).1.flag (if s then R.CONF_STATUS_FAIL_B else R.CONF_STATUS_FAIL_A) = m.flag (if s then R.CONF_STATUS_FAIL_B else R.CONF_STATUS_FAIL_A) :=
    Engine.flag_of_reg (by cases s <;> exact hstatus)
  unfold Engine.otherPass
  split
  · exact ⟨rfl, rfl, rfl, rfl⟩
  · split
    · exact ⟨hmet.causes, hmet.tb, Engine.verified_of_reg hstatus s, hfail⟩
    · next k _ =>
      refine ⟨?_, ?_, ?_, ?_⟩
      · rw [Engine.crcFail_causes, Engine.clearVer_causes, hmet.causes]
      · rw [Engine.crcFail_tb, Engine.clearVer_tb, hmet.tb]
      · rw [Engine.verified_crcFail, Engine.verified_clearVer_other _ hne, Engine.verified_of_reg hstatus]
      · rw [Engine.flag_crcFail_other _ hne]
        exact (by cases s <;> exact Engine.flag_setFlag_beside _ _ _ _ rfl (by decide) : Engine.flag _ _ = _).trans hfail

theorem Engine.hasBit_otherPass (m : Engine) (t : Memory) (s : Bool) (h : m.hasBit R.E_CONF_CRC_FAIL = true) : (m.otherPass t s).hasBit R.E_CONF_CRC_FAIL = true := by
  unfold Engine.otherPass
  split
  · exact h
  · split
    · exact (Engine.hasBit_of_reg (m.reg_setPass_below t s (by decide))).trans h
    · exact (Engine.crcFail_shows _ s _).2.2

theorem Engine.reg_otherPass_off {l : List Nat} (ha : a ∉ l) (m : Engine) (t : Memory) (s : Bool) (hl : ∀ b ∈ [R.CONF_STATUS, statusAddr 0xA0], b ∈ l) (htank : ∀ b ∈ tankEccRegs, b ∈ l) :
    (m.otherPass t s).reg a = m.reg a := by
  unfold Engine.otherPass
  split
  · rfl
  · split
    · exact Engine.reg_setPass_off ha htank m t s
    · rw [Engine.reg_crcFail_off ha _ s _ hl, Engine.reg_clearVer_off ha _ s (hl _ (by simp)), Engine.reg_setPass_off ha htank m t s]

end Sys2Proof.Machine
end

section
/-! SUPPORT. Writes of the table sets' registers (R141, R144): SETSEL, TSET, SETCRC, VERIFY. -/
namespace Sys2Proof.Machine
open Sys2Proof

variable {a : Nat} {h : RegHit}

/-! SETSEL (R141). -/

def setselHit : RegHit := ⟨.confB, 0, 0xA0, 0x44, { off := 0x44, rw := 0x1 }⟩

theorem decodeReg_setsel : decodeReg R.CONF_SETSEL = some setselHit := by decide

/-- A register of the CONF page below the CRC registers is held only if it is TSET. -/
theorem Engine.isHeld_confLow (m : Engine) (hpage : pageOf (a / 0x1000) = some (.confB, 0)) (htset : a ≠ R.CONF_TSET) (hoff : a % 0x1000 < 0x100) : m.isHeld a = false := by
  have hlow : offIn a 0x100 0x140 = false := by simp [offIn, Nat.not_le.2 hoff]
  have hhigh : offIn a 0x140 0x180 = false := by
    have h140 : ¬ 0x140 ≤ a % 0x1000 := by omega
    simp [offIn, h140]
  simp [Engine.isHeld, hpage, htset, hlow, hhigh]

/-- SETSEL as written; disarmed, the set changes with it. -/
def Engine.setselStored (m : Engine) (v : Word) : Engine := m.storeFields setselHit R.CONF_SETSEL v

theorem Engine.armed_setselStored (m : Engine) (v : Word) : (m.setselStored v).armed = m.armed :=
  Engine.flag_of_reg (f := R.SYS_STATUS_ARMED) (m.reg_storeFields_ne setselHit v (by decide))

theorem Engine.flag_setselStored (m : Engine) (v : Word) : (m.setselStored v).flag R.CONF_SETSEL_SET = bitAt v.toNat 0 := by
  unfold Engine.flag
  rw [show m.setselStored v = m.storeFields setselHit R.CONF_SETSEL_SET.addr v from rfl, m.fld_storeFields v R.CONF_SETSEL_SET (by decide)]
  simp [bitsOf, R.CONF_SETSEL_SET, bitAt, Nat.testBit_zero, beq_eq_decide]

theorem Chip.writeAt_setsel (c : Chip) (v : Word) :
    c.writeAt setselHit R.CONF_SETSEL v = { c with eng := if c.eng.armed then c.eng.setselStored v else (c.eng.setselStored v).setselWritten } := by
  rw [c.writeAt_conf v (c.eng.isHeld_confLow rfl (by decide) (by decide)) rfl (by decide) rfl, ← c.eng.armed_setselStored v]
  rfl

/-- The first sample cycle of a set selected while disarmed: one later where a swap takes effect at the next (R141). -/
def Engine.selCycle (m : Engine) : Nat := if m.path.swapAt = some (m.cc + 1) then m.cc + 2 else m.cc + 1

theorem Engine.setselWritten_eq (m : Engine) :
    m.setselWritten = { m.changeTables m.selCycle (m.flag R.CONF_SETSEL_SET) with path := { (m.changeTables m.selCycle (m.flag R.CONF_SETSEL_SET)).path with selAt := some m.selCycle } } := rfl

/-! A configuration register of the CONF page that takes its value at once, while disarmed (R82). -/

theorem Chip.writeAt_confHeld {c : Chip} (v : Word) (hpage : pageOf (a / 0x1000) = some (.confB, 0)) (hheld : c.eng.isHeld a = true) (harmed : c.eng.armed = false)
    (hactive : c.eng.store.active = false) : c.writeAt h a v = { c with eng := c.eng.takeConfig a v } := by
  have hru : ruHeld a = false := by simp [ruHeld, hpage]
  simp [Chip.writeAt, hheld, hru, harmed, hactive, Engine.noteWrite]

theorem Engine.reg_written_off {l : List Nat} {b : Nat} (hb : b ∉ l) (m : Engine) (v : Word) (hl : a ∈ l) : (m.written a v).reg b = m.reg b := m.reg_written_ne v fun e => hb (e ▸ hl)
@[simp] theorem Engine.written_path (m : Engine) (a : Nat) (v : Word) : (m.written a v).path = m.path := rfl

/-! TSET (R144). -/

def tsetHit : RegHit := ⟨.confB, 0, 0xA0, 0x40, { off := 0x40, reset := 0x11004, rw := 0x3F3F3F }⟩

theorem decodeReg_tset : decodeReg R.CONF_TSET = some tsetHit := by decide

theorem Engine.isHeld_tset (m : Engine) : m.isHeld R.CONF_TSET = true := by
  cases hset : m.setAt m.cc <;> simp +decide [Engine.isHeld, hset]

theorem Engine.takeConfig_tset (m : Engine) (v : Word) : m.takeConfig R.CONF_TSET v = (m.written R.CONF_TSET (mergeRw R.CONF_TSET (m.reg R.CONF_TSET) v)).tsetWritten (m.reg R.CONF_TSET) := rfl

/-- The base of a set as TSET was written. -/
theorem Engine.setBaseTank_written (m : Engine) (v : Word) (s : Bool) :
    (m.written R.CONF_TSET (mergeRw R.CONF_TSET (m.reg R.CONF_TSET) v)).setBaseTank s = bitsOf v.toNat (baseLo s) 6 := by
  have hmerge : mergeRw R.CONF_TSET (m.reg R.CONF_TSET) v = (m.reg R.CONF_TSET &&& ~~~0x3F3F3F#32) ||| (v &&& 0x3F3F3F#32) := BitVec.or_comm _ _
  cases s
  · refine (congrArg (bitsOf ·.toNat 0 6) (m.reg_written_same R.CONF_TSET _)).trans ?_
    rw [hmerge]
    exact bitsOf_merge _ _ _ _ _ (by decide)
  · refine (congrArg (bitsOf ·.toNat 8 6) (m.reg_written_same R.CONF_TSET _)).trans ?_
    rw [hmerge]
    exact bitsOf_merge _ _ _ _ _ (by decide)

/-! SETCRC (R144). -/

def setcrcAddr (b : Bool) (k : Nat) : Nat := if b then R.CONF_SETCRC_B k else R.CONF_SETCRC_A k

def setcrcHit (b : Bool) (k : Nat) : RegHit :=
  ⟨.confB, 0, 0xA0, (if b then 0x140 else 0x100) + 4 * k, { off := if b then 0x140 else 0x100, s1 := 0x4, c1 := 11, rw := 0xFFFFFFFF }⟩

theorem decodeReg_setcrc (b : Bool) (k : Fin 11) : decodeReg (setcrcAddr b k) = some (setcrcHit b k) := by revert b k; decide

theorem setcrcAddr_page (b : Bool) (k : Fin 11) : pageOf (setcrcAddr b k / 0x1000) = some (.confB, 0) := by revert b k; decide

/-- Where a CRC register lies tells its set. -/
theorem setcrcAddr_off (b : Bool) (k : Fin 11) :
    setcrcAddr b k ≠ R.CONF_TSET ∧ setcrcAddr b k ≠ R.CONF_STATUS ∧ setcrcAddr b k ≠ R.CONF_VERIFY ∧ offIn (setcrcAddr b k) 0x100 0x140 = !b ∧ offIn (setcrcAddr b k) 0x140 0x180 = b := by
  revert b k; decide

theorem mergeRw_setcrc (b : Bool) (k : Fin 11) (old v : Word) : mergeRw (setcrcAddr b k) old v = v := by
  have hsame : setcrcAddr b k % 0x100000 = setcrcAddr b k := by revert b k; decide
  unfold mergeRw
  rw [hsame, decodeReg_setcrc b k]
  change (v &&& BitVec.allOnes 32) ||| (old &&& ~~~BitVec.allOnes 32) = v
  rw [BitVec.and_allOnes, BitVec.not_allOnes, BitVec.and_zero, BitVec.or_zero]

theorem setcrcHit_off (b : Bool) (k : Fin 11) :
    0x40 ≤ (setcrcHit b k).off ∧ (0x100 ≤ (setcrcHit b k).off ∧ (setcrcHit b k).off < 0x140 ↔ b = false) ∧ (0x140 ≤ (setcrcHit b k).off ∧ (setcrcHit b k).off < 0x180 ↔ b = true) := by
  revert b k; decide

/-- A written CRC register has its set verified. -/
theorem Engine.captureEffect_setcrc (m o : Engine) (b : Bool) (k : Fin 11) (key v : Nat) : m.captureEffect o (setcrcHit b k) (setcrcAddr b k) key v = m.setcrcWritten b := by
  have hother : setcrcAddr b k ≠ R.CONF_SETSEL ∧ setcrcAddr b k ≠ R.CONF_VERIFY ∧ setcrcAddr b k ≠ R.CONF_SNAPCTL := by revert b k; decide
  obtain ⟨hsel, hver, hsnap⟩ := hother
  obtain ⟨-, hlow, hhigh⟩ := setcrcHit_off b k
  have hblk : (setcrcHit b k).blk = .confB := rfl
  simp only [Engine.captureEffect, hblk, hsel, hver, hsnap, hlow, hhigh, if_false, false_and]
  cases b <;> rfl

/-- A CRC register's write, held for the set in force or not (R144), while the engine is disarmed: the register takes the value, and its set is to be verified. -/
theorem Chip.writeAt_setcrc {c : Chip} (b : Bool) (k : Fin 11) (v : Word) (harmed : c.eng.armed = false) (hactive : c.eng.store.active = false) :
    c.writeAt (setcrcHit b k) (setcrcAddr b k) v = { c with eng := (c.eng.written (setcrcAddr b k) v).setcrcWritten b } := by
  have hpage := setcrcAddr_page b k
  obtain ⟨htset, -, -, hlow, hhigh⟩ := setcrcAddr_off b k
  cases hheld : c.eng.isHeld (setcrcAddr b k)
  · rw [c.writeAt_conf v hheld rfl (setcrcHit_off b k).1 rfl, c.eng.storeFields_all _ v (Nat.or_zero _), Engine.captureEffect_setcrc]
  · rw [Chip.writeAt_confHeld v hpage hheld harmed hactive]
    congr 1
    simp only [Engine.takeConfig, hpage, htset, if_false, hlow, hhigh, mergeRw_setcrc]
    cases b <;> rfl

end Sys2Proof.Machine
end

section
/-! O26: the table sets (R141, R142, R144, R145, R150). -/
namespace Sys2Proof.Machine
open Sys2Proof

/-! VERIFY (R144). -/

def verifyHit : RegHit := ⟨.confB, 0, 0xA0, 0x4C, { off := 0x4C, rw := 0x2, w1s := 0x1 }⟩

theorem decodeReg_verify : decodeReg R.CONF_VERIFY = some verifyHit := by decide

/-- The value that asks for the verification of a set. -/
def verifyWord (b : Bool) : Word := if b then 3 else 1

/-- VERIFY as written, before the request is looked at. -/
def Engine.verifyAsked (m : Engine) (b : Bool) : Engine := m.storeFields verifyHit R.CONF_VERIFY (verifyWord b)

theorem Engine.reg_verifyAsked_off {l : List Nat} {a : Nat} (ha : a ∉ l) (m : Engine) (b : Bool) (hl : R.CONF_VERIFY ∈ l) : (m.verifyAsked b).reg a = m.reg a :=
  m.reg_storeFields_ne _ _ fun e => ha (e ▸ hl)

theorem Engine.flag_verifyAsked (m : Engine) (b : Bool) : (m.verifyAsked b).flag R.CONF_VERIFY_SET = b := by
  unfold Engine.flag
  rw [show m.verifyAsked b = m.storeFields verifyHit R.CONF_VERIFY_SET.addr (verifyWord b) from rfl, m.fld_storeFields _ R.CONF_VERIFY_SET (by decide)]
  cases b <;> rfl

theorem Chip.writeAt_verify (c : Chip) (b : Bool) : c.writeAt verifyHit R.CONF_VERIFY (verifyWord b) = { c with eng := (c.eng.verifyAsked b).verify b } := by
  have hgo : bitAt (verifyWord b).toNat 0 = true := by cases b <;> decide
  have heffect : (c.eng.verifyAsked b).captureEffect c.eng verifyHit R.CONF_VERIFY R.CONF_VERIFY (verifyWord b).toNat = (c.eng.verifyAsked b).verify ((c.eng.verifyAsked b).flag R.CONF_VERIFY_SET) := by
    simp +decide only [Engine.captureEffect, verifyHit, hgo, if_true, if_false]
  rw [c.writeAt_conf _ (c.eng.isHeld_confLow rfl (by decide) (by decide)) rfl (by decide) rfl]
  exact congrArg (fun m => { c with eng := m }) (heffect.trans (by rw [c.eng.flag_verifyAsked b]))

/-- Settles O26: a swap and a selection change the set in force, TSET and SETCRC clear VER, and a pass over a set ends with what it found. -/
theorem tableSets : Obligations.TableSets := by
  unfold Obligations.TableSets
  refine ⟨fun s a hlive ha hfree => State.ends_live Engine.rotaTableSwap hlive ?swap, fun s a hlive ha hbar => State.ends_live Engine.rotaTableSwap hlive ?barred,
    fun s port v hacc => State.ends_write hacc decodeReg_setsel (s.chip.writeAt_setsel v) ?setsel,
    fun s port v harmed hactive hacc => State.ends_write hacc decodeReg_tset (Chip.writeAt_confHeld v rfl s.eng.isHeld_tset harmed hactive) ?tset,
    fun s port b k v harmed hactive hidle hacc => State.ends_write hacc (decodeReg_setcrc b k) (Chip.writeAt_setcrc b k v harmed hactive) ?setcrc,
    fun s port b hidle hacc => State.ends_write hacc decodeReg_verify (s.chip.writeAt_verify b) ?verify,
    fun s port b r hbusy hacc => State.ends_write hacc decodeReg_verify (s.chip.writeAt_verify b) ?verifyBusy,
    fun s b hlive hbusy halone => State.ends_live (·.verifyDone s.chip.tanks) hlive ?done, fun s hlive harmed => State.ends_live (·.crcBackground s.chip.tanks) hlive ?pass,
    fun s hlive harmed => State.live_same (f := (·.crcBackground s.chip.tanks)) hlive (Engine.crcBackground_of_not_armed s.chip.tanks harmed)⟩
  case swap =>
    have hswap : s.eng.rotaTableSwap = (s.eng.takeAct a).tableSwap (s.eng.cc + 1) (bitAt a.arg 0) a.arg := by simp only [Engine.rotaTableSwap, ha]
    rw [hswap, Engine.tableSwap_taken (m := s.eng.takeAct a) a.arg hfree]
    refine ⟨congrArg RotaState.queue ((s.eng.takeAct a).tablesSwapped_rota _ _), (s.eng.takeAct a).setAt_tablesSwapped _ _, rfl, (s.eng.takeAct a).flag_tablesSwapped_inforce _ _, rfl,
      State.kept_withEng (fun b hb => (s.eng.takeAct a).reg_tablesSwapped_off hb _ _ (by simp)) ((s.eng.takeAct a).tablesSwapped_tb _ _)⟩
  case barred =>
    have hswap : s.eng.rotaTableSwap = (s.eng.takeAct a).tableSwap (s.eng.cc + 1) (bitAt a.arg 0) a.arg := by simp only [Engine.rotaTableSwap, ha]
    rw [hswap, Engine.tableSwap_barred (m := s.eng.takeAct a) a.arg hbar]
    refine ⟨rfl, Engine.stepsFor_of_barred rfl ((s.eng.takeAct a).barredFrom_le _), rfl, ?_, State.kept_withEng (fun _ _ => rfl) rfl⟩
    rw [show s.eng.cc + 32 + s.eng.lag = s.eng.cc + 1 + 31 + s.eng.lag by omega]
    rfl
  case setsel =>
    have hflag := s.eng.flag_setselStored v
    have hinforce : (s.eng.setselStored v).flag R.CONF_STATUS_INFORCE = s.eng.flag R.CONF_STATUS_INFORCE := Engine.flag_of_reg (s.eng.reg_storeFields_ne _ v (by decide))
    have hoff : ∀ b, b ∉ [R.CONF_SETSEL, R.CONF_STATUS, statusAddr 0xA0] → (s.eng.setselStored v).reg b = s.eng.reg b :=
      fun b hb => s.eng.reg_storeFields_ne _ v fun e => hb (e ▸ List.mem_cons_self)
    cases harmed : s.eng.armed
    · simp only [Bool.false_eq_true, if_false, Engine.setselWritten_eq, hflag]
      refine ⟨?_, rfl, Engine.flag_changeTables_inforce _ _ _, fun _ => Engine.setAt_of_last (Engine.changeTables_tableChanges _ _ _), State.kept_withEng (fun b hb => ?_) ?_⟩
      · exact (Engine.flag_of_reg (Engine.reg_changeTables_off (l := [R.CONF_STATUS, statusAddr 0xA0]) (by decide) _ _ _ (by simp))).trans hflag
      · exact (Engine.reg_changeTables_off hb _ _ _ (by simp)).trans (hoff b hb)
      · exact Engine.changeTables_tb _ _ _
    · simp only [if_true]
      exact ⟨hflag, rfl, hinforce, fun h => Bool.noConfusion h, State.kept_withEng hoff rfl⟩
  case tset =>
    rw [Engine.takeConfig_tset]
    have hbase := fun b => Engine.setBaseTank_of_reg (Engine.reg_tsetWritten_off (l := [R.CONF_STATUS]) (by decide)
      (s.eng.written R.CONF_TSET (mergeRw R.CONF_TSET (s.eng.reg R.CONF_TSET) v)) (s.eng.reg R.CONF_TSET) (by simp)) b |>.trans (s.eng.setBaseTank_written v b)
    have hver : ∀ b, ((s.eng.written R.CONF_TSET (mergeRw R.CONF_TSET (s.eng.reg R.CONF_TSET) v)).tsetWritten (s.eng.reg R.CONF_TSET)).verified b =
        (s.eng.verified b && s.eng.setBaseTank b == bitsOf v.toNat (baseLo b) 6) := by
      intro b
      have hold : s.eng.setBaseTank b = bitsOf (s.eng.reg R.CONF_TSET).toNat (baseLo b) 6 := by cases b <;> rfl
      rw [Engine.verified_tsetWritten, s.eng.setBaseTank_written v b, Engine.verified_of_reg (s.eng.reg_written_ne _ (by decide)), hold, BEq.comm]
    refine ⟨hbase false, hbase true, hver false, hver true, rfl, State.kept_withEng (fun b hb => ?_) ?_⟩
    · rw [Engine.reg_reply, Engine.reg_tsetWritten_off hb _ _ (by simp), Engine.reg_written_off hb _ _ (by simp)]
    · exact ((within_tsetWritten (l := [.any]) _ (by decide)).2 (.refl _ _)).tb
  case setcrc =>
    obtain ⟨-, hstatus, hver, -, -⟩ := setcrcAddr_off b k
    have hidle' : ((s.eng.written (setcrcAddr b k) v).clearVer b).path.verifying = none := hidle
    obtain ⟨hbegun, hbusy, -⟩ := Engine.verify_shows hidle' b
    have hreg : ((s.eng.written (setcrcAddr b k) v).setcrcWritten b).reg (setcrcAddr b k) = v := by
      have hoff : setcrcAddr b k ∉ [R.CONF_STATUS, R.CONF_VERIFY] := by simp [hstatus, hver]
      unfold Engine.setcrcWritten
      rw [Engine.reg_verify_off hoff hidle' b (by simp), Engine.reg_clearVer_off hoff _ b (by simp), s.eng.reg_written_same]
    refine ⟨hreg, ?_, hbegun, hbusy, rfl, State.kept_withEng (fun a ha => ?_) ?_⟩
    · exact (Engine.verified_verify _ b b).trans (Engine.verified_clearVer_same _ b)
    · change a ∉ [setcrcAddr b k, R.CONF_STATUS, R.CONF_VERIFY] at ha
      unfold Engine.setcrcWritten
      rw [Engine.reg_reply, Engine.reg_verify_off ha hidle' b (by simp), Engine.reg_clearVer_off ha _ b (by simp), Engine.reg_written_off ha _ v (by simp)]
    · exact ((within_setcrcWritten (l := [.any]) b (by decide)).2 (.refl _ _)).tb
  case verify =>
    have hidle' : (s.eng.verifyAsked b).path.verifying = none := hidle
    obtain ⟨hbegun, hbusy, hgo⟩ := Engine.verify_shows hidle' b
    refine ⟨hbegun, hbusy, hgo, rfl, State.kept_withEng (fun a ha => ?_) ?_⟩
    · rw [Engine.reg_reply, Engine.reg_verify_off ha hidle' b (by simp), Engine.reg_verifyAsked_off ha _ b (by simp)]
    · exact ((within_verify (l := [.any]) b (by decide)).2 (.refl _ _)).tb
  case verifyBusy =>
    have hbusy' : (s.eng.verifyAsked b).path.verifying = some r := hbusy
    rw [Engine.verify_of_busy hbusy' b]
    exact ⟨hbusy, rfl, rfl, State.kept_withEng (fun a ha => Engine.reg_verifyAsked_off ha s.eng b (by simp)) rfl⟩
  case done =>
    rw [Engine.verifyDone_alone s.chip.tanks hbusy halone]
    obtain ⟨hver, hfail, hbad⟩ := (s.eng.setPass s.chip.tanks b).1.verifyTold_shows b (s.eng.setPass s.chip.tanks b).2
    obtain ⟨hbusyFell, hgoFell, hdone⟩ := ((s.eng.setPass s.chip.tanks b).1.verifyTold b (s.eng.setPass s.chip.tanks b).2).verifyOver_shows
    refine ⟨?_, ?_, fun herrs => Engine.setPass_of_no_errors herrs _ b, fun k hk => ⟨?_, Engine.hasBit_verifyOver _ (hbad k hk).2⟩, hbusyFell, hgoFell, rfl, hdone,
      State.kept_withEng (fun a ha => ?_) ?_⟩
    · refine Eq.trans ?_ hver
      unfold Engine.verified Engine.flag
      rw [State.eng_withEng, Engine.fld_verifyOver_beside _ (by cases b <;> rfl) (by cases b <;> decide)]
    · refine Eq.trans ?_ hfail
      unfold Engine.flag
      rw [State.eng_withEng, Engine.fld_verifyOver_beside _ (by cases b <;> rfl) (by cases b <;> decide)]
    · exact (Engine.fld_verifyOver_beside _ rfl (by decide)).trans (hbad k hk).1
    · rw [Engine.reg_verifyOver_off ha _ (by simp), Engine.reg_verifyTold_off ha _ b _ (by simp), Engine.reg_setPass_off ha (by simp +contextual) s.eng _ b]
    · have hover : ∀ m : Engine, m.verifyOver.tb = m.tb := fun m => m.verifyFalls_tb
      rw [hover, Engine.verifyTold_tb, (s.eng.wordsMet_setPass _ b).tb]
  case pass =>
    rw [Engine.crcBackground_of_armed s.chip.tanks harmed]
    have hmet := s.eng.wordsMet_setPass s.chip.tanks (s.eng.setAt s.eng.cc)
    obtain ⟨hcauses, htb, hver, hfail⟩ := ((s.eng.setPass s.chip.tanks (s.eng.setAt s.eng.cc)).1.passTold (s.eng.setAt s.eng.cc)
      (s.eng.setPass s.chip.tanks (s.eng.setAt s.eng.cc)).2).otherPass_keeps s.chip.tanks (s.eng.setAt s.eng.cc)
    refine ⟨?_, fun k hk => ?_, ?_, State.kept_withEng (fun a ha => ?_) ?_⟩
    · rw [Engine.passTold_causes, hmet.causes] at hcauses
      exact hcauses
    · obtain ⟨hshown, -, hbit⟩ := (s.eng.setPass s.chip.tanks (s.eng.setAt s.eng.cc)).1.crcFail_shows (s.eng.setAt s.eng.cc) k
      refine ⟨hfail.trans ?_, Engine.hasBit_otherPass _ _ _ ?_⟩
      · rw [Option.mem_def.1 hk]; exact hshown
      · rw [Option.mem_def.1 hk]; exact hbit
    · exact hver.trans ((Engine.verified_passTold _ _ _ _).trans (Engine.verified_of_reg (s.eng.reg_setPass_below _ _ (by decide)) _))
    · have htank : ∀ b ∈ tankEccRegs, b ∈ [R.CONF_STATUS, statusAddr 0xA0] ++ tankEccRegs := by simp +contextual
      rw [Engine.reg_otherPass_off ha _ _ _ (by simp) htank, Engine.reg_passTold_off ha _ _ _ (by simp), Engine.reg_setPass_off ha htank s.eng]
    · rw [htb, Engine.passTold_tb, hmet.tb]

end Sys2Proof.Machine
end

section
/-! SUPPORT. Lookups in the tables (R119, R124 to R128, R145): what they depend on, and how wide their entries are. -/
namespace Sys2Proof.Machine
open Sys2Proof

variable {m m' m'' : Engine}

/-- The registers that lookups read: where the sets lie, who owns the tanks, and where the gate actions stand. -/
def lookRegs : List Nat := [R.CONF_TSET, R.SLU_CTL] ++ (List.range 64).map R.TANK_OWN

theorem tankOwn_mem {k : Nat} (hk : k < 64) : R.TANK_OWN k ∈ lookRegs := by
  simp only [lookRegs, List.mem_append, List.mem_map, List.mem_range]
  exact .inr ⟨k, hk, rfl⟩

/-- Beside registers, what the choice of a set and a lookup depend on. -/
def Engine.tableParts (m : Engine) : Bool × List (Nat × Bool) × Nat × TankState := (m.tableSet, m.tableChanges, m.freeCtr, m.tank)

/-- Two engines whose lookups find the same: their sets, registers, free values and uncorrectable words are alike. -/
structure Engine.LooksAs (m m' : Engine) : Prop where
  set : m'.tableSet = m.tableSet
  changes : m'.tableChanges = m.tableChanges
  free : m'.freeCtr = m.freeCtr
  bad : ∀ w, m'.wordError w = .double ↔ m.wordError w = .double
  reg : ∀ a ∈ lookRegs, m'.reg a = m.reg a

theorem Engine.LooksAs.trans (h : m.LooksAs m') (h' : m'.LooksAs m'') : m.LooksAs m'' :=
  ⟨h'.set.trans h.set, h'.changes.trans h.changes, h'.free.trans h.free, fun w => (h'.bad w).trans (h.bad w), fun a ha => (h'.reg a ha).trans (h.reg a ha)⟩

theorem Engine.LooksAs.of_parts (hparts : m'.tableParts = m.tableParts) (hreg : ∀ a ∈ lookRegs, m'.reg a = m.reg a) : m.LooksAs m' := by
  simp only [Engine.tableParts, Prod.mk.injEq] at hparts
  obtain ⟨hset, hchanges, hfree, htank⟩ := hparts
  exact ⟨hset, hchanges, hfree, fun w => by unfold Engine.wordError; rw [htank], hreg⟩

theorem Engine.tankReadable_of_reg (hreg : ∀ a ∈ lookRegs, m'.reg a = m.reg a) (k : Nat) : m'.tankReadable k = m.tankReadable k := by
  by_cases hk : k < 64
  · unfold Engine.tankReadable
    rw [Engine.fld_of_reg (f := R.TANK_OWN_CUR k) (hreg _ (tankOwn_mem hk))]
  · simp [Engine.tankReadable, hk]

namespace Engine.LooksAs

theorem setAt (h : m.LooksAs m') (p : Nat) : m'.setAt p = m.setAt p := by unfold Engine.setAt; rw [h.set, h.changes]

theorem tableRead (h : m.LooksAs m') (t : Memory) (a n : Nat) : m'.tableRead t a n = m.tableRead t a n := by
  have hbad : (m'.wordError (a / 8) = .double) = (m.wordError (a / 8) = .double) := propext (h.bad _)
  unfold Engine.tableRead
  simp only [Engine.tankReadable_of_reg h.reg, hbad, h.free]

theorem setAddr (h : m.LooksAs m') (b : Bool) (k off : Nat) : m'.setAddr b k off = m.setAddr b k off := by
  unfold Engine.setAddr
  rw [Engine.setBaseTank_of_reg (h.reg _ (by simp [lookRegs]))]

theorem liveAddr (h : m.LooksAs m') (off : Nat) : m'.liveAddr off = m.liveAddr off := by
  unfold Engine.liveAddr
  rw [Engine.fld_of_reg (f := R.CONF_TSET_LIVE) (h.reg R.CONF_TSET (by simp [lookRegs]))]

theorem gateAddr (h : m.LooksAs m') (b : Bool) (i : Nat) : m'.gateAddr b i = m.gateAddr b i := by
  unfold Engine.gateAddr
  rw [Engine.flag_of_reg (f := R.SLU_CTL_GATE_LIVE) (h.reg R.SLU_CTL (by simp [lookRegs])), h.liveAddr, h.setAddr]

theorem sluEntry (h : m.LooksAs m') (t : Memory) (b : Bool) (e level : Nat) : m'.sluEntry t b e level = m.sluEntry t b e level := by
  unfold Engine.sluEntry Engine.sluAddr
  rw [h.setAddr, h.tableRead]

theorem gateEntry (h : m.LooksAs m') (t : Memory) (b : Bool) (i : Nat) : m'.gateEntry t b i = m.gateEntry t b i := by
  unfold Engine.gateEntry
  rw [h.gateAddr, h.tableRead]

theorem levelAttr (h : m.LooksAs m') (t : Memory) (b : Bool) (level : Nat) : m'.levelAttr t b level = m.levelAttr t b level := by
  unfold Engine.levelAttr Engine.attrAddr
  simp only [h.setAddr, h.tableRead]

end Engine.LooksAs

/-! Entries fit their widths. -/

theorem readLE_lt (t : Memory) (a n : Nat) : readLE t a n < 256 ^ n := by
  induction n generalizing a with
  | zero => exact Nat.one_pos
  | succ n ih =>
    have hbyte := (readByte t a).isLt
    have hrest := ih (a + 1)
    rw [readLE, Nat.pow_succ]
    omega

theorem Engine.tableRead_lt (m : Engine) (t : Memory) (a n : Nat) : m.tableRead t a n < 256 ^ n := by
  unfold Engine.tableRead
  split
  · exact Nat.pow_pos (by decide)
  · split
    · have hwidth : (256 : Nat) ^ n = 2 ^ (8 * n) := by rw [Nat.pow_mul]
      rw [hwidth]
      exact Nat.mod_lt _ (Nat.two_pow_pos _)
    · exact readLE_lt t a n

/-- An event class is one of 256 (R117). -/
theorem Engine.confluence_lt (m : Engine) (t : Memory) (e : PipeEntry) : (m.confluence t e).e < 256 := m.tableRead_lt t _ 1

/-! Errors that stand in words (R315, R322). -/

theorem Engine.wordError_setWordError (m : Engine) (w : Nat) (ecc : Ecc) (w' : Nat) : (m.setWordError w ecc).wordError w' = if w' = w then ecc else m.wordError w' := by
  unfold Engine.wordError Engine.setWordError
  split
  · next h => subst h; exact getD_mapSet_same .good m.tank.errs w' ecc
  · next h => exact congrArg (Option.getD · _) (mapFind_mapSet_ne .good m.tank.errs w w' ecc h)

/-- The read of the sluice table's entry meets no uncorrectable error: no lookup finds anything else. -/
theorem Engine.looksAs_entryMeets (m : Engine) (w : Nat) {ecc : Ecc} (hecc : ecc ≠ .double) : m.LooksAs (m.entryMeets w ecc) := by
  unfold Engine.entryMeets
  split
  · exact absurd rfl hecc
  · next hgood =>
    refine ⟨rfl, rfl, rfl, fun w' => ?_, fun _ _ => rfl⟩
    rw [Engine.wordError_setWordError]
    split
    · next heq => simp [heq, hgood]
    · rfl
  · exact .of_parts rfl fun _ _ => rfl

end Sys2Proof.Machine
end

section
/-! SUPPORT. What a part of a sluice step may change (R132, R404): the registers of a list, gate orders and the path; no PAGE_STATUS bit falls. -/
namespace Sys2Proof.Machine
open Sys2Proof

variable {l k : List Nat} {m m' m'' : Engine}

/-- An address that is no page's PAGE_STATUS. -/
def offStatus (a : Nat) : Bool := a % 0x1000 != 0x10

theorem statusAddr_ne_of_offStatus {a : Nat} (ha : offStatus a = true) (page : Nat) : statusAddr page ≠ a := by
  simp only [offStatus, bne_iff_ne, ne_eq] at ha
  unfold statusAddr
  omega

/-- A part of a step: beside registers and events only gate orders and the path differ, registers only within a list, and PAGE_STATUS bits only rise. -/
structure Engine.StepPart (l : List Nat) (m m' : Engine) : Prop where
  rest : ∃ rs ra g q, m' = { m with regs := rs, raised := ra, gateOrders := g, path := q }
  reg : ∀ a, a ∉ l → m'.reg a = m.reg a
  bits : ∀ b, m.hasBit b = true → m'.hasBit b = true

namespace Engine.StepPart

theorem refl (l : List Nat) (m : Engine) : m.StepPart l m := ⟨⟨_, _, _, _, rfl⟩, fun _ _ => rfl, fun _ hb => hb⟩

theorem mono (h : m.StepPart k m') (hk : k ⊆ l) : m.StepPart l m' := ⟨h.rest, fun a ha => h.reg a fun hmem => ha (hk hmem), h.bits⟩

theorem trans (h : m.StepPart l m') (h' : m'.StepPart l m'') : m.StepPart l m'' := by
  refine ⟨?_, fun a ha => (h'.reg a ha).trans (h.reg a ha), fun b hb => h'.bits b (h.bits b hb)⟩
  obtain ⟨rs, ra, g, q, rfl⟩ := h.rest
  obtain ⟨rs', ra', g', q', rfl⟩ := h'.rest
  exact ⟨rs', ra', g', q', rfl⟩

/-- One part after another. -/
theorem append (h : m.StepPart l m') (h' : m'.StepPart k m'') : m.StepPart (l ++ k) m'' :=
  (h.mono (List.subset_append_left l k)).trans (h'.mono (List.subset_append_right l k))

theorem setReg (h : m.StepPart l m') {a : Nat} (v : Word) (ha : a ∈ l) (hoff : offStatus a = true) : m.StepPart l (m'.setReg a v) := by
  refine h.trans ⟨⟨_, m'.raised, m'.gateOrders, m'.path, rfl⟩, fun b hb => Engine.reg_setReg_off hb m' v ha, fun b hb => ?_⟩
  rw [Engine.hasBit_setReg_ne m' v (statusAddr_ne_of_offStatus hoff _)]
  exact hb

theorem setFld (h : m.StepPart l m') {f : Field} (v : Nat) (hf : f.addr ∈ l) (hoff : offStatus f.addr = true) : m.StepPart l (m'.setFld f v) := h.setReg _ hf hoff

theorem setReg64 (h : m.StepPart l m') {a : Nat} (v : Tb) (ha : a ∈ l) (ha' : a + 4 ∈ l) (hoff : (offStatus a && offStatus (a + 4)) = true) : m.StepPart l (m'.setReg64 a v) := by
  rw [Bool.and_eq_true] at hoff
  exact (h.setReg _ ha hoff.1).setReg _ ha' hoff.2

theorem status (h : m.StepPart l m') {b : PageBit} (hb : statusAddr b.page ∈ l) (hbit : b.bit < 32) : m.StepPart l (m'.status b) := by
  obtain ⟨rs, ra, hstatus⟩ := m'.status_fields b
  refine h.trans ⟨⟨rs, ra, m'.gateOrders, m'.path, hstatus⟩, fun a ha => Engine.reg_status_off ha m' hb, fun c hc => ?_⟩
  rw [Engine.hasBit_status m' b c hbit, hc, Bool.or_true]

/-- The parts that leave every register alone. -/
theorem of_orders (g : List GateOrder) (q : Path) : m.StepPart l { m with gateOrders := g, path := q } := ⟨⟨m.regs, m.raised, g, q, rfl⟩, fun _ _ => rfl, fun _ hb => hb⟩

/-! What is read through a part. -/

theorem cc (h : m.StepPart l m') : m'.cc = m.cc := by obtain ⟨rs, ra, g, q, rfl⟩ := h.rest; rfl

theorem parts (h : m.StepPart l m') : m'.tableParts = m.tableParts := by obtain ⟨rs, ra, g, q, rfl⟩ := h.rest; rfl

theorem tank (h : m.StepPart l m') : m'.tank = m.tank := by obtain ⟨rs, ra, g, q, rfl⟩ := h.rest; rfl

theorem causes (h : m.StepPart l m') : m'.causes = m.causes := by obtain ⟨rs, ra, g, q, rfl⟩ := h.rest; rfl

theorem fld (h : m.StepPart l m') {f : Field} (hf : f.addr ∉ l) : m'.fld f = m.fld f := Engine.fld_of_reg (h.reg _ hf)

theorem flag (h : m.StepPart l m') {f : Field} (hf : f.addr ∉ l) : m'.flag f = m.flag f := Engine.flag_of_reg (h.reg _ hf)

theorem reg64 (h : m.StepPart l m') {a : Nat} (ha : a ∉ l) (ha' : a + 4 ∉ l) : m'.reg64 a = m.reg64 a := Engine.reg64_of_reg (h.reg _ ha) (h.reg _ ha')

theorem looksAs (h : m.StepPart l m') (hl : ∀ a ∈ lookRegs, a ∉ l) : m.LooksAs m' := .of_parts h.parts fun a ha => h.reg a (hl a ha)

end Engine.StepPart

end Sys2Proof.Machine
end

section
/-! SUPPORT. The step that judges a sample cycle, as a chain of parts (R132, R133, R135 to R138). -/
namespace Sys2Proof.Machine
open Sys2Proof

variable {m m' : Engine}

/-- What a step finds before it changes anything: the cycle's TB, its set, what the tree gave, the level held, the table entry, the position tick with EXACT, and the level counters' operations. -/
structure StepFound where
  tb : Tb
  set : Bool
  cls : Nat
  level : Nat
  ent : Nat
  pos : Nat × Bool
  ctrA : Nat × Bool
  ctrB : Nat × Bool

/-- The TB of the position tick. -/
def StepFound.instant (f : StepFound) : Tb := f.tb + BitVec.ofNat 64 f.pos.1

def Engine.stepFound (m : Engine) (t : Memory) (e : PipeEntry) : StepFound :=
  let c := e.conf.getD {}
  let ent := m.sluEntry t (m.setAt e.phys) c.e (m.fld R.SLU_STATUS_LEVEL)
  { tb := e.tb, set := m.setAt e.phys, cls := c.e, level := m.fld R.SLU_STATUS_LEVEL, ent := ent
    pos := position (bitsOf ent 11 6) e.outs c
    ctrA := ctrOp (m.flag R.SLU_CTL_CTRA_SAT) (m.reg64 R.SLU_CTRA_LO).toNat (bitsOf ent 17 2)
    ctrB := ctrOp (m.flag R.SLU_CTL_CTRB_SAT) (m.reg64 R.SLU_CTRB_LO).toNat (bitsOf ent 19 2) }

/-! The parts of a step, in order, and the registers of each. -/

/-- A counter that wrapped or saturated is told. -/
def Engine.limitsTold (m : Engine) (f : StepFound) : Engine :=
  let m := if f.ctrA.2 then m.status R.E_SLU_CTRA_LIM else m
  if f.ctrB.2 then m.status R.E_SLU_CTRB_LIM else m

/-- TRIG (R134): counted, with its class, level and position. -/
def Engine.trigTold (m : Engine) (f : StepFound) : Engine :=
  if bitAt f.ent 10 then
    (((m.addSat R.SLU_TRIGCNT 1).status R.E_SLU_TRIG).setReg R.SLU_LASTTRIG
      (BitVec.ofNat 32 (f.level + bitsOf f.ent 11 6 * 2 ^ 10 + f.cls * 2 ^ 16 + f.pos.2.toNat * 2 ^ 24))).setReg64 R.SLU_LASTTRIG_TB_LO f.instant
  else m

/-- GATEACT (R136). -/
def Engine.gateOrdered (m : Engine) (t : Memory) (f : StepFound) : Engine :=
  if bitsOf f.ent 21 5 = 0 then m else { m with gateOrders := m.gateOrders ++ [gateOrderOf (m.gateEntry t f.set (bitsOf f.ent 21 5)) f.tb m.lag f.pos.1] }

/-- IRQ (R137). -/
def Engine.irqAsked (m : Engine) (f : StepFound) : Engine :=
  if bitAt f.ent 31 then m.irq f.instant (f.level + f.cls * 2 ^ 16 + (bitAt f.ent 10).toNat * 2 ^ 24) else m

/-- The class and the level were seen. -/
def Engine.seenTold (m : Engine) (f : StepFound) : Engine := (m.orReg (R.SLU_ESEEN (f.cls / 32)) (2 ^ (f.cls % 32))).orReg (R.SLU_LVLSEEN (f.level / 32)) (2 ^ (f.level % 32))

/-- The level counters take their values, 0 where the jump clears them (R133, R143). -/
def Engine.countersTaken (m : Engine) (f : StepFound) (j : Option Jump) : Engine :=
  let m := if j.isSome then m.status R.E_SLU_JUMP else m
  (m.setReg64 R.SLU_CTRA_LO (BitVec.ofNat 64 (if (j.map (·.clrA)).getD false then 0 else f.ctrA.1))).setReg64 R.SLU_CTRB_LO (BitVec.ofNat 64 (if (j.map (·.clrB)).getD false then 0 else f.ctrB.1))

/-- The next level and the dwell timer (R132). -/
def Engine.levelTaken (m : Engine) (f : StepFound) (j : Option Jump) (moved : Bool) : Engine :=
  m.setLevel (nextLevel j f.ent) (if j.isSome || bitsOf f.ent 0 10 != f.level || moved then 0 else min ((m.reg64 R.SLU_DWELLNOW_LO).toNat + 1) (2 ^ 48 - 1))

/-- What a step does before the level changes. -/
def Engine.stepTold (m : Engine) (t : Memory) (f : StepFound) : Engine := ((((m.limitsTold f).trigTold f).gateOrdered t f).irqAsked f).seenTold f

/-- A step up to the level it leaves, with a jump or none, after a change of set or none. -/
def Engine.stepLevel (m : Engine) (t : Memory) (f : StepFound) (j : Option Jump) (moved : Bool) : Engine := ((m.stepTold t f).countersTaken f j).levelTaken f j moved

/-- The context of the level that a step leaves. -/
def Engine.stepContext (m : Engine) (t : Memory) (f : StepFound) (j : Option Jump) (moved : Bool) : Nat :=
  bitsOf ((m.stepLevel t f j moved).levelAttr t f.set (nextLevel j f.ent)) 48 4

/-- A step up to the broadcast of the context it leaves. -/
def Engine.stepShown (m : Engine) (t : Memory) (f : StepFound) (j : Option Jump) (moved : Bool) : Engine := (m.stepLevel t f j moved).broadcast (m.stepContext t f j moved)

/-- Did the set in force change with the sample cycle of a step (R132)? -/
def Engine.setMoved (m : Engine) (p : Nat) : Bool := m.setAt (p - 1) != m.setAt p

/-- A step is this chain; what follows changes the path, and there not the IRQ queue. -/
theorem Engine.sluiceStep_chain (m : Engine) (t : Memory) (e : PipeEntry) :
    ∃ q : Path, (m.sluiceStep t e).m = { m.stepShown t (m.stepFound t e) ((m.stepTold t (m.stepFound t e)).path.jumpAt e.phys) (m.setMoved e.phys) with path := q } ∧
      q.irqQueue = (m.stepShown t (m.stepFound t e) ((m.stepTold t (m.stepFound t e)).path.jumpAt e.phys) (m.setMoved e.phys)).path.irqQueue :=
  ⟨_, rfl, rfl⟩

end Sys2Proof.Machine
end

section
/-! SUPPORT. The parts of a sluice step: what each changes (R132 to R137). -/
namespace Sys2Proof.Machine
open Sys2Proof

variable {m m' : Engine} {f : StepFound}

/-! The registers of each part. -/

def limitRegs : List Nat := [statusAddr 0xA1]
def trigRegs : List Nat := [statusAddr 0xA1, R.SLU_TRIGCNT, R.SLU_LASTTRIG, R.SLU_LASTTRIG_TB_LO, R.SLU_LASTTRIG_TB_HI]
def irqRegs : List Nat := [statusAddr 0xA1, R.SLU_IRQDROP]
def seenRegs (e l : Nat) : List Nat := [R.SLU_ESEEN (e / 32), R.SLU_LVLSEEN (l / 32)]
def counterRegs : List Nat := [statusAddr 0xA1, R.SLU_CTRA_LO, R.SLU_CTRA_HI, R.SLU_CTRB_LO, R.SLU_CTRB_HI]
def levelRegs : List Nat := [R.SLU_STATUS, R.SLU_DWELLNOW_LO, R.SLU_DWELLNOW_HI]
def contextRegs : List Nat := (List.range 48).map R.RU_CONTEXT

theorem Engine.stepPart_limitsTold (m : Engine) (f : StepFound) : m.StepPart limitRegs (m.limitsTold f) := by
  have hA : m.StepPart limitRegs (if f.ctrA.2 then m.status R.E_SLU_CTRA_LIM else m) := by
    split
    · exact (Engine.StepPart.refl _ m).status (b := R.E_SLU_CTRA_LIM) (by decide) (by decide)
    · exact .refl _ m
  unfold Engine.limitsTold
  dsimp only
  split
  · exact hA.status (b := R.E_SLU_CTRB_LIM) (by decide) (by decide)
  · exact hA

theorem Engine.stepPart_trigTold (m : Engine) (f : StepFound) : m.StepPart trigRegs (m.trigTold f) := by
  unfold Engine.trigTold
  split
  · exact ((((Engine.StepPart.refl _ m).setReg _ (by decide) (by decide)).status (by decide) (by decide)).setReg _ (by decide) (by decide)).setReg64 _ (by decide) (by decide) (by decide)
  · exact .refl _ m

theorem Engine.stepPart_gateOrdered (m : Engine) (t : Memory) (f : StepFound) : m.StepPart [] (m.gateOrdered t f) := by
  unfold Engine.gateOrdered
  split
  · exact .refl _ m
  · exact .of_orders _ m.path

theorem Engine.stepPart_irq (m : Engine) (u : Tb) (data : Nat) : m.StepPart irqRegs (m.irq u data) := by
  have htold : m.StepPart irqRegs (m.status R.E_SLU_IRQ) := (Engine.StepPart.refl _ m).status (by decide) (by decide)
  unfold Engine.irq
  dsimp only
  split
  · exact htold.trans (.of_orders _ _)
  · exact (htold.setReg _ (by decide) (by decide)).status (by decide) (by decide)

theorem Engine.stepPart_irqAsked (m : Engine) (f : StepFound) : m.StepPart irqRegs (m.irqAsked f) := by
  unfold Engine.irqAsked
  split
  · exact m.stepPart_irq _ _
  · exact .refl _ m

/-- The registers that tell which classes and levels were seen are no PAGE_STATUS: there are 8 and 32 of them. -/
theorem Engine.stepPart_seenTold (m : Engine) (f : StepFound) (hcls : f.cls < 256) (hlevel : f.level < 1024) : m.StepPart (seenRegs f.cls f.level) (m.seenTold f) := by
  have heseen : offStatus (R.SLU_ESEEN (f.cls / 32)) = true := by
    simp only [offStatus, R.SLU_ESEEN, bne_iff_ne]
    omega
  have hlvlseen : offStatus (R.SLU_LVLSEEN (f.level / 32)) = true := by
    simp only [offStatus, R.SLU_LVLSEEN, bne_iff_ne]
    omega
  exact ((Engine.StepPart.refl _ m).setReg _ (by simp [seenRegs]) heseen).setReg _ (by simp [seenRegs]) hlvlseen

theorem Engine.stepPart_countersTaken (m : Engine) (f : StepFound) (j : Option Jump) : m.StepPart counterRegs (m.countersTaken f j) := by
  have hjump : m.StepPart counterRegs (if j.isSome then m.status R.E_SLU_JUMP else m) := by
    split
    · exact (Engine.StepPart.refl _ m).status (by decide) (by decide)
    · exact .refl _ m
  exact (hjump.setReg64 _ (by decide) (by decide) (by decide)).setReg64 _ (by decide) (by decide) (by decide)

theorem Engine.stepPart_setLevel (m : Engine) (level dwell : Nat) : m.StepPart levelRegs (m.setLevel level dwell) :=
  ((Engine.StepPart.refl _ m).setFld (f := R.SLU_STATUS_LEVEL) level (by decide) (by decide)).setReg64 _ (by decide) (by decide) (by decide)

theorem Engine.stepPart_broadcast (m : Engine) (ctx : Nat) : m.StepPart contextRegs (m.broadcast ctx) := by
  refine List.foldlRecOn (motive := fun x : Engine => m.StepPart contextRegs x) _ _ (.refl _ m) fun x hx n hn => ?_
  refine hx.setFld _ (List.mem_map_of_mem hn) ?_
  simp only [offStatus, R.RU_CONTEXT_CTX, R.RU_CONTEXT, bne_iff_ne]
  omega

/-! The path and the gate orders through the parts. -/

theorem Engine.pathOrders_limitsTold (m : Engine) (f : StepFound) : (m.limitsTold f).path = m.path ∧ (m.limitsTold f).gateOrders = m.gateOrders := by
  unfold Engine.limitsTold
  dsimp only
  constructor <;> split_ifs <;> simp

theorem Engine.pathOrders_setReg64 (m : Engine) (a : Nat) (v : Tb) : (m.setReg64 a v).path = m.path ∧ (m.setReg64 a v).gateOrders = m.gateOrders := ⟨rfl, rfl⟩

theorem Engine.pathOrders_trigTold (m : Engine) (f : StepFound) : (m.trigTold f).path = m.path ∧ (m.trigTold f).gateOrders = m.gateOrders := by
  unfold Engine.trigTold
  split
  · rw [(Engine.pathOrders_setReg64 _ _ _).1, (Engine.pathOrders_setReg64 _ _ _).2, Engine.setReg_path, Engine.setReg_gateOrders, Engine.status_path, Engine.status_gateOrders]
    exact ⟨rfl, rfl⟩
  · exact ⟨rfl, rfl⟩

theorem Engine.path_gateOrdered (m : Engine) (t : Memory) (f : StepFound) : (m.gateOrdered t f).path = m.path := by
  unfold Engine.gateOrdered
  split <;> rfl

theorem Engine.gateOrders_gateOrdered (m : Engine) (t : Memory) (f : StepFound) : (m.gateOrdered t f).gateOrders =
    m.gateOrders ++ (if bitsOf f.ent 21 5 = 0 then [] else [gateOrderOf (m.gateEntry t f.set (bitsOf f.ent 21 5)) f.tb m.lag f.pos.1]) := by
  unfold Engine.gateOrdered
  split
  · exact (List.append_nil _).symm
  · rfl

/-- An IRQ changes nothing of the path but its queue, and no gate order. -/
theorem Engine.pathOrders_irqAsked (m : Engine) (f : StepFound) : (∃ q, (m.irqAsked f).path = { m.path with irqQueue := q }) ∧ (m.irqAsked f).gateOrders = m.gateOrders := by
  unfold Engine.irqAsked Engine.irq
  dsimp only
  split
  · split
    · exact ⟨⟨_, by rw [m.status_path]⟩, m.status_gateOrders _⟩
    · exact ⟨⟨m.path.irqQueue, ((Engine.status_path _ _).trans (m.status_path _))⟩, (Engine.status_gateOrders _ _).trans (m.status_gateOrders _)⟩
  · exact ⟨⟨m.path.irqQueue, rfl⟩, rfl⟩

/-- An IRQ entry joins the queue that has room (R137). -/
theorem Engine.irqAsked_of_room (hirq : bitAt f.ent 31 = true) (hroom : m.path.irqQueue.length < 16) :
    (m.irqAsked f).hasBit R.E_SLU_IRQ = true ∧
      (m.irqAsked f).path.irqQueue = m.path.irqQueue ++ [(m.cc + 1, f.instant, f.level + f.cls * 2 ^ 16 + (bitAt f.ent 10).toNat * 2 ^ 24)] := by
  have htold : (m.status R.E_SLU_IRQ).path.irqQueue.length < 16 := by rwa [m.status_path]
  unfold Engine.irqAsked Engine.irq
  dsimp only
  rw [if_pos hirq, if_pos htold]
  refine ⟨m.hasBit_status_same R.E_SLU_IRQ (by decide), ?_⟩
  rw [m.status_path, m.status_cc]

theorem Engine.pathOrders_countersTaken (m : Engine) (f : StepFound) (j : Option Jump) : (m.countersTaken f j).path = m.path ∧ (m.countersTaken f j).gateOrders = m.gateOrders := by
  change (if j.isSome then m.status R.E_SLU_JUMP else m).path = _ ∧ (if j.isSome then m.status R.E_SLU_JUMP else m).gateOrders = _
  split
  · exact ⟨m.status_path _, m.status_gateOrders _⟩
  · exact ⟨rfl, rfl⟩

theorem Engine.pathOrders_broadcast (m : Engine) (ctx : Nat) : (m.broadcast ctx).path = m.path ∧ (m.broadcast ctx).gateOrders = m.gateOrders :=
  forEach_keeps (keeps := fun x : Engine => x.path = m.path ∧ x.gateOrders = m.gateOrders) 48 (fun _ hx _ => hx) ⟨rfl, rfl⟩

/-! What the parts leave in their registers. -/

/-- With TRIG the trigger is counted, told and recorded (R134, R135). -/
theorem Engine.trigTold_shows (htrig : bitAt f.ent 10 = true) :
    (m.trigTold f).reg R.SLU_TRIGCNT = satAdd (m.reg R.SLU_TRIGCNT) 1 ∧ (m.trigTold f).hasBit R.E_SLU_TRIG = true ∧ (m.trigTold f).reg64 R.SLU_LASTTRIG_TB_LO = f.instant := by
  unfold Engine.trigTold
  rw [if_pos htrig]
  refine ⟨?_, ?_, Engine.reg64_setReg64_same _ _ _⟩
  · rw [Engine.reg_setReg64_ne _ _ _ (by decide) (by decide), Engine.reg_setReg_ne _ _ (by decide), Engine.reg_status_ne _ _ (by decide)]
    exact m.reg_addSat_same _ 1
  · refine (Engine.hasBit_of_reg ?_).trans ((m.addSat R.SLU_TRIGCNT 1).hasBit_status_same R.E_SLU_TRIG (by decide))
    rw [Engine.reg_setReg64_ne _ _ _ (by decide) (by decide), Engine.reg_setReg_ne _ _ (by decide)]

theorem Engine.trigTold_of_not (htrig : bitAt f.ent 10 = false) : m.trigTold f = m := by simp [Engine.trigTold, htrig]

/-- A counter's value, 0 where a jump clears it. -/
theorem ofNat_cleared (c : Bool) (v : Nat) : BitVec.ofNat 64 (if c then 0 else v) = if c then 0 else BitVec.ofNat 64 v := apply_ite (BitVec.ofNat 64) _ _ _

theorem Engine.reg64_countersTaken (m : Engine) (f : StepFound) (j : Option Jump) :
    (m.countersTaken f j).reg64 R.SLU_CTRA_LO = (if (j.map (·.clrA)).getD false then 0 else BitVec.ofNat 64 f.ctrA.1) ∧
      (m.countersTaken f j).reg64 R.SLU_CTRB_LO = (if (j.map (·.clrB)).getD false then 0 else BitVec.ofNat 64 f.ctrB.1) := by
  refine ⟨?_, (Engine.reg64_setReg64_same _ _ _).trans (ofNat_cleared _ _)⟩
  exact (Engine.reg64_setReg64_ne _ _ _ _ (by decide) (by decide) (by decide)).trans ((Engine.reg64_setReg64_same _ _ _).trans (ofNat_cleared _ _))

theorem Engine.setLevel_shows (m : Engine) (level dwell : Nat) :
    (m.setLevel level dwell).fld R.SLU_STATUS_LEVEL = level % 1024 ∧ (m.setLevel level dwell).flag R.SLU_STATUS_STEPPING = m.flag R.SLU_STATUS_STEPPING ∧
      (m.setLevel level dwell).reg64 R.SLU_DWELLNOW_LO = BitVec.ofNat 64 dwell := by
  refine ⟨?_, ?_, Engine.reg64_setReg64_same _ _ _⟩
  · exact (Engine.fld_setReg64_ne _ _ (by decide) (by decide)).trans (m.fld_setFld_same R.SLU_STATUS_LEVEL level (by decide))
  · exact (Engine.flag_setReg64_ne _ _ (by decide) (by decide)).trans (m.flag_setFld_beside R.SLU_STATUS_LEVEL R.SLU_STATUS_STEPPING level rfl (by decide))

/-- A step leaves the next level, and the dwell timer restarted or one further (R132). -/
theorem Engine.levelTaken_shows (m : Engine) (f : StepFound) (j : Option Jump) (moved : Bool) :
    (m.levelTaken f j moved).fld R.SLU_STATUS_LEVEL = nextLevel j f.ent % 1024 ∧ (m.levelTaken f j moved).flag R.SLU_STATUS_STEPPING = m.flag R.SLU_STATUS_STEPPING ∧
      (m.levelTaken f j moved).reg64 R.SLU_DWELLNOW_LO =
        if j.isSome || bitsOf f.ent 0 10 != f.level || moved then 0 else BitVec.ofNat 64 (min ((m.reg64 R.SLU_DWELLNOW_LO).toNat + 1) (2 ^ 48 - 1)) := by
  obtain ⟨hlevel, hstepping, hdwell⟩ := m.setLevel_shows (nextLevel j f.ent)
    (if j.isSome || bitsOf f.ent 0 10 != f.level || moved then 0 else min ((m.reg64 R.SLU_DWELLNOW_LO).toNat + 1) (2 ^ 48 - 1))
  exact ⟨hlevel, hstepping, hdwell.trans (ofNat_cleared _ _)⟩

/-- Every reach takes the context (R81). -/
theorem Engine.fld_broadcast (m : Engine) (ctx : Nat) (n : Fin 48) : (m.broadcast ctx).fld (R.RU_CONTEXT_CTX n) = ctx % 16 := by
  have hloop : ∀ k, n.val < k → (forEach k (fun n m => m.setFld (R.RU_CONTEXT_CTX n) ctx) m : Engine).fld (R.RU_CONTEXT_CTX n) = ctx % 16 := by
    intro k hk
    induction k with
    | zero => exact absurd hk (Nat.not_lt_zero _)
    | succ k ih =>
      have hlast : (forEach (k + 1) (fun n m => m.setFld (R.RU_CONTEXT_CTX n) ctx) m : Engine) = (forEach k (fun n m => m.setFld (R.RU_CONTEXT_CTX n) ctx) m).setFld (R.RU_CONTEXT_CTX k) ctx := by
        simp [forEach, List.range_succ]
      rw [hlast]
      rcases Nat.lt_succ_iff_lt_or_eq.1 hk with hlt | rfl
      · rw [Engine.fld_setFld_ne _ _ (by simp only [R.RU_CONTEXT_CTX, R.RU_CONTEXT]; omega), ih hlt]
      · exact Engine.fld_setFld_same _ (R.RU_CONTEXT_CTX n) _ (Nat.le_of_ble_eq_true rfl)
  exact hloop 48 n.isLt

end Sys2Proof.Machine
end

section
/-! SUPPORT. A sluice step as a whole: what it leaves of what it found (R132, R133, R135 to R138). -/
namespace Sys2Proof.Machine
open Sys2Proof

variable {m : Engine} {f : StepFound}

/-! The registers that the parts may change, joined. -/

/-- Before the level changes, and from TRIG on; those of the classes and levels seen come last. -/
def toldRegs (e l : Nat) : List Nat := limitRegs ++ trigRegs ++ irqRegs ++ seenRegs e l
def afterTrigRegs (e l : Nat) : List Nat := irqRegs ++ (counterRegs ++ (levelRegs ++ contextRegs)) ++ seenRegs e l

theorem notMem_seenRegs {e l a : Nat} (he : e < 256) (hl : l < 1024) (ha : a < 0xA1080 ∨ 0xA1120 ≤ a) : a ∉ seenRegs e l := by
  simp only [seenRegs, R.SLU_ESEEN, R.SLU_LVLSEEN, List.mem_cons, List.not_mem_nil, or_false]
  omega

theorem notMem_toldRegs {e l a : Nat} (he : e < 256) (hl : l < 1024) (hfix : a ∉ limitRegs ++ trigRegs ++ irqRegs) (ha : a < 0xA1080 ∨ 0xA1120 ≤ a) : a ∉ toldRegs e l :=
  fun hmem => (List.mem_append.1 hmem).elim hfix (notMem_seenRegs he hl ha)

theorem notMem_afterTrigRegs {e l a : Nat} (he : e < 256) (hl : l < 1024) (hfix : a ∉ irqRegs ++ (counterRegs ++ (levelRegs ++ contextRegs))) (ha : a < 0xA1080 ∨ 0xA1120 ≤ a) :
    a ∉ afterTrigRegs e l :=
  fun hmem => (List.mem_append.1 hmem).elim hfix (notMem_seenRegs he hl ha)

/-- What TRIG records is changed by no other part. -/
theorem trigRegs_notMem {e l : Nat} (he : e < 256) (hl : l < 1024) : ∀ a ∈ trigRegs.tail, a ∉ limitRegs ++ afterTrigRegs e l := by
  have hfix : ∀ a ∈ trigRegs.tail, a ∉ limitRegs ∧ a ∉ irqRegs ++ (counterRegs ++ (levelRegs ++ contextRegs)) ∧ a < 0xA1080 := by decide
  intro a ha hmem
  obtain ⟨hlim, hno, hlt⟩ := hfix a ha
  exact (List.mem_append.1 hmem).elim hlim (notMem_afterTrigRegs he hl hno (.inl hlt))

theorem toldRegs_subset (e l : Nat) : toldRegs e l ⊆ sluiceRegs e l := by
  refine List.append_subset.2 ⟨?_, ?_⟩
  · intro a ha
    have hfix : a ∈ [R.SLU_IRQDROP, R.SLU_TRIGCNT, R.SLU_LASTTRIG, R.SLU_LASTTRIG_TB_LO, R.SLU_LASTTRIG_TB_HI, statusAddr 0xA1] :=
      (by decide : limitRegs ++ trigRegs ++ irqRegs ⊆ [R.SLU_IRQDROP, R.SLU_TRIGCNT, R.SLU_LASTTRIG, R.SLU_LASTTRIG_TB_LO, R.SLU_LASTTRIG_TB_HI, statusAddr 0xA1]) ha
    simp only [List.mem_cons, List.not_mem_nil, or_false] at hfix
    simp only [sluiceRegs, List.mem_append, List.mem_cons]
    tauto
  · simp [seenRegs, sluiceRegs]

theorem levelRegs_subset (e l : Nat) : counterRegs ++ levelRegs ++ contextRegs ⊆ sluiceRegs e l := by
  intro a ha
  simp only [counterRegs, levelRegs, contextRegs, List.mem_append, List.mem_cons, List.not_mem_nil, or_false] at ha
  simp only [sluiceRegs, List.mem_append, List.mem_cons]
  tauto

/-- No lookup reads a register that a step changes. -/
theorem lookRegs_notMem {e l : Nat} (he : e < 256) (hl : l < 1024) : ∀ a ∈ lookRegs, a ∉ sluiceRegs e l := by
  have hfix : ∀ a ∈ lookRegs, (a < 0xA1080 ∨ 0xA1120 ≤ a) ∧ a ∉ limitRegs ++ trigRegs ++ irqRegs ++ (counterRegs ++ levelRegs ++ contextRegs) := by decide
  intro a ha hmem
  obtain ⟨hrange, hno⟩ := hfix a ha
  have hseen := notMem_seenRegs he hl hrange
  simp only [limitRegs, trigRegs, irqRegs, counterRegs, levelRegs, contextRegs, seenRegs, sluiceRegs, List.mem_append, List.mem_cons, List.not_mem_nil, or_false] at hmem hno hseen
  tauto

/-! The chain's parts, joined. -/

section Parts
variable (m : Engine) (t : Memory) (f : StepFound) (j : Option Jump) (moved : Bool)

theorem Engine.stepPart_trig : m.StepPart (limitRegs ++ trigRegs) ((m.limitsTold f).trigTold f) := (m.stepPart_limitsTold f).append (Engine.stepPart_trigTold _ f)

theorem Engine.stepPart_irqOn : m.StepPart irqRegs ((m.gateOrdered t f).irqAsked f) :=
  ((m.stepPart_gateOrdered t f).mono (List.nil_subset _)).trans (Engine.stepPart_irqAsked _ f)

theorem Engine.stepPart_levelOn : (m.stepTold t f).StepPart (counterRegs ++ levelRegs) (m.stepLevel t f j moved) :=
  (Engine.stepPart_countersTaken _ f j).append (Engine.stepPart_setLevel _ _ _)

theorem Engine.stepPart_countersOn : ((m.stepTold t f).countersTaken f j).StepPart (levelRegs ++ contextRegs) (m.stepShown t f j moved) :=
  (Engine.stepPart_setLevel _ _ _).append (Engine.stepPart_broadcast _ _)

theorem Engine.stepPart_afterTold : (m.stepTold t f).StepPart (counterRegs ++ (levelRegs ++ contextRegs)) (m.stepShown t f j moved) :=
  (Engine.stepPart_countersTaken _ f j).append (m.stepPart_countersOn t f j moved)

variable {f} (hcls : f.cls < 256) (hlevel : f.level < 1024)
include hcls hlevel

theorem Engine.stepPart_told : m.StepPart (toldRegs f.cls f.level) (m.stepTold t f) :=
  ((m.stepPart_trig f).append (Engine.stepPart_irqOn _ t f)).append (Engine.stepPart_seenTold _ f hcls hlevel)

theorem Engine.stepPart_afterTrig : ((m.limitsTold f).trigTold f).StepPart (afterTrigRegs f.cls f.level) (m.stepShown t f j moved) := by
  have hirq := (Engine.stepPart_irqOn ((m.limitsTold f).trigTold f) t f).append (Engine.stepPart_seenTold _ f hcls hlevel)
  refine (hirq.append (m.stepPart_afterTold t f j moved)).mono fun a ha => ?_
  simp only [afterTrigRegs, List.mem_append] at ha ⊢
  tauto

theorem Engine.stepPart_stepLevel : m.StepPart (sluiceRegs f.cls f.level) (m.stepLevel t f j moved) :=
  ((m.stepPart_told t hcls hlevel).mono (toldRegs_subset _ _)).trans ((m.stepPart_levelOn t f j moved).mono fun _ ha => levelRegs_subset _ _ (List.mem_append_left _ ha))

theorem Engine.stepPart_shown : m.StepPart (sluiceRegs f.cls f.level) (m.stepShown t f j moved) :=
  (m.stepPart_stepLevel t j moved hcls hlevel).trans ((Engine.stepPart_broadcast _ _).mono fun _ ha => levelRegs_subset _ _ (List.mem_append_right _ ha))

end Parts

/-! The path and the gate orders of a step. -/

theorem Engine.path_stepTold (m : Engine) (t : Memory) (f : StepFound) : ∃ q, (m.stepTold t f).path = { m.path with irqQueue := q } := by
  obtain ⟨⟨q, hq⟩, -⟩ := Engine.pathOrders_irqAsked (((m.limitsTold f).trigTold f).gateOrdered t f) f
  refine ⟨q, ?_⟩
  rw [Engine.path_gateOrdered, (Engine.pathOrders_trigTold _ f).1, (m.pathOrders_limitsTold f).1] at hq
  exact hq

theorem Engine.jumpAt_stepTold (m : Engine) (t : Memory) (f : StepFound) (p : Nat) : (m.stepTold t f).path.jumpAt p = m.path.jumpAt p := by
  obtain ⟨q, hq⟩ := m.path_stepTold t f
  rw [hq]
  rfl

/-- From the level counters on, a step changes neither the path nor the gate orders. -/
theorem Engine.pathOrders_stepShown (m : Engine) (t : Memory) (f : StepFound) (j : Option Jump) (moved : Bool) :
    (m.stepShown t f j moved).path = (m.stepTold t f).path ∧ (m.stepShown t f j moved).gateOrders = (m.stepTold t f).gateOrders := by
  obtain ⟨hpath, horders⟩ := Engine.pathOrders_broadcast (m.stepLevel t f j moved) (m.stepContext t f j moved)
  obtain ⟨hpath', horders'⟩ := Engine.pathOrders_countersTaken (m.stepTold t f) f j
  exact ⟨hpath.trans hpath', horders.trans horders'⟩

/-- What a step leaves, but for a path that has the chain's IRQ queue. -/
theorem Engine.sluiceStep_eq (m : Engine) (t : Memory) (e : PipeEntry) :
    ∃ q : Path, (m.sluiceStep t e).m = { m.stepShown t (m.stepFound t e) (m.path.jumpAt e.phys) (m.setMoved e.phys) with path := q } ∧
      q.irqQueue = (m.stepTold t (m.stepFound t e)).path.irqQueue := by
  obtain ⟨q, hq, hirq⟩ := m.sluiceStep_chain t e
  rw [m.jumpAt_stepTold] at hq hirq
  exact ⟨q, hq, hirq.trans (congrArg Path.irqQueue (m.pathOrders_stepShown ..).1)⟩

end Sys2Proof.Machine
end

section
/-! SUPPORT. What the step of a sample cycle leaves, part by part, in what it found (R132, R133, R135, R136, R137). -/
namespace Sys2Proof.Machine
open Sys2Proof

variable {m : Engine} {t : Memory} {f : StepFound} {j : Option Jump} {moved : Bool} (hcls : f.cls < 256) (hlevel : f.level < 1024)

theorem bitsOf_lt (x lo w : Nat) : bitsOf x lo w < 2 ^ w := Nat.mod_lt _ (Nat.two_pow_pos w)

theorem Engine.trig_looksAs (m : Engine) (f : StepFound) : m.LooksAs ((m.limitsTold f).trigTold f) := (m.stepPart_trig f).looksAs (by decide)

theorem Engine.lag_trig (m : Engine) (f : StepFound) : ((m.limitsTold f).trigTold f).lag = m.lag := Engine.lag_of_reg ((m.stepPart_trig f).reg _ (by decide))

/-- The level counters take the entry's operations, or 0 (R133, R143). -/
theorem Engine.counters_stepShown (m : Engine) (t : Memory) (f : StepFound) (j : Option Jump) (moved : Bool) :
    (m.stepShown t f j moved).reg64 R.SLU_CTRA_LO = (if (j.map (·.clrA)).getD false then 0 else BitVec.ofNat 64 f.ctrA.1) ∧
      (m.stepShown t f j moved).reg64 R.SLU_CTRB_LO = (if (j.map (·.clrB)).getD false then 0 else BitVec.ofNat 64 f.ctrB.1) := by
  obtain ⟨hA, hB⟩ := (m.stepTold t f).reg64_countersTaken f j
  have hlast := m.stepPart_countersOn t f j moved
  exact ⟨(hlast.reg64 (by decide) (by decide)).trans hA, (hlast.reg64 (by decide) (by decide)).trans hB⟩

/-- The order of a gate action is its entry's (R136). -/
theorem Engine.gateOrders_stepShown (m : Engine) (t : Memory) (f : StepFound) (j : Option Jump) (moved : Bool) : (m.stepShown t f j moved).gateOrders =
    m.gateOrders ++ (if bitsOf f.ent 21 5 = 0 then [] else [gateOrderOf (m.gateEntry t f.set (bitsOf f.ent 21 5)) f.tb m.lag f.pos.1]) := by
  have hgate := ((m.limitsTold f).trigTold f).gateOrders_gateOrdered t f
  rw [(Engine.pathOrders_trigTold _ f).2, (m.pathOrders_limitsTold f).2, (m.trig_looksAs f).gateEntry, m.lag_trig] at hgate
  exact ((m.pathOrders_stepShown t f j moved).2.trans (Engine.pathOrders_irqAsked _ f).2).trans hgate

include hcls hlevel

/-- The next level is in force, and the dwell timer restarted or one further (R132). -/
theorem Engine.level_stepShown :
    (m.stepShown t f j moved).fld R.SLU_STATUS_LEVEL = nextLevel j f.ent % 1024 ∧ (m.stepShown t f j moved).flag R.SLU_STATUS_STEPPING = m.flag R.SLU_STATUS_STEPPING ∧
      (m.stepShown t f j moved).reg64 R.SLU_DWELLNOW_LO =
        if j.isSome || bitsOf f.ent 0 10 != f.level || moved then 0 else BitVec.ofNat 64 (min ((m.reg64 R.SLU_DWELLNOW_LO).toNat + 1) (2 ^ 48 - 1)) := by
  obtain ⟨hlev, hstepping, hdwell⟩ := ((m.stepTold t f).countersTaken f j).levelTaken_shows f j moved
  have htold := m.stepPart_told t hcls hlevel
  have hcounters := (m.stepTold t f).stepPart_countersTaken f j
  have hctx := Engine.stepPart_broadcast (m.stepLevel t f j moved) (m.stepContext t f j moved)
  have hstart : ((m.stepTold t f).countersTaken f j).flag R.SLU_STATUS_STEPPING = m.flag R.SLU_STATUS_STEPPING :=
    (hcounters.flag (by decide)).trans (htold.flag (notMem_toldRegs hcls hlevel (by decide) (by decide)))
  have hnow : ((m.stepTold t f).countersTaken f j).reg64 R.SLU_DWELLNOW_LO = m.reg64 R.SLU_DWELLNOW_LO :=
    (hcounters.reg64 (by decide) (by decide)).trans (htold.reg64 (notMem_toldRegs hcls hlevel (by decide) (by decide)) (notMem_toldRegs hcls hlevel (by decide) (by decide)))
  rw [hnow] at hdwell
  exact ⟨(hctx.fld (by decide)).trans hlev, (hctx.flag (by decide)).trans (hstepping.trans hstart), (hctx.reg64 (by decide) (by decide)).trans hdwell⟩

/-- Every reach takes the context of the next level (R81). -/
theorem Engine.context_stepShown (n : Fin 48) : (m.stepShown t f j moved).fld (R.RU_CONTEXT_CTX n) = bitsOf (m.levelAttr t f.set (nextLevel j f.ent)) 48 4 := by
  have hlooks := (m.stepPart_stepLevel t j moved hcls hlevel).looksAs (lookRegs_notMem hcls hlevel)
  refine (Engine.fld_broadcast _ _ n).trans ?_
  rw [Engine.stepContext, hlooks.levelAttr]
  exact Nat.mod_eq_of_lt (bitsOf_lt _ _ _)

/-- A trigger is counted and recorded (R134, R135). -/
theorem Engine.trig_stepShown (htrig : bitAt f.ent 10 = true) :
    (m.stepShown t f j moved).reg R.SLU_TRIGCNT = satAdd (m.reg R.SLU_TRIGCNT) 1 ∧ (m.stepShown t f j moved).hasBit R.E_SLU_TRIG = true ∧
      (m.stepShown t f j moved).reg64 R.SLU_LASTTRIG_TB_LO = f.instant := by
  obtain ⟨hcount, hbit, htb⟩ := Engine.trigTold_shows (m := m.limitsTold f) htrig
  have hlast := m.stepPart_afterTrig t j moved hcls hlevel
  have hoff : ∀ a ∈ trigRegs.tail, a ∉ afterTrigRegs f.cls f.level := fun a ha hmem => trigRegs_notMem hcls hlevel a ha (List.mem_append_right _ hmem)
  have hcount' : (m.limitsTold f).reg R.SLU_TRIGCNT = m.reg R.SLU_TRIGCNT := (m.stepPart_limitsTold f).reg _ (by decide)
  rw [hcount'] at hcount
  exact ⟨(hlast.reg _ (hoff _ (by decide))).trans hcount, hlast.bits _ hbit, (hlast.reg64 (hoff _ (by decide)) (hoff _ (by decide))).trans htb⟩

/-- Without TRIG nothing is counted or recorded. -/
theorem Engine.noTrig_stepShown (htrig : bitAt f.ent 10 = false) :
    (m.stepShown t f j moved).reg R.SLU_TRIGCNT = m.reg R.SLU_TRIGCNT ∧ (m.stepShown t f j moved).reg64 R.SLU_LASTTRIG_TB_LO = m.reg64 R.SLU_LASTTRIG_TB_LO := by
  have hlast := m.stepPart_afterTrig t j moved hcls hlevel
  rw [Engine.trigTold_of_not htrig] at hlast
  have hall := (m.stepPart_limitsTold f).append hlast
  have hoff := trigRegs_notMem hcls hlevel
  exact ⟨hall.reg _ (hoff _ (by decide)), hall.reg64 (hoff _ (by decide)) (hoff _ (by decide))⟩

/-- An IRQ entry joins the queue that has room (R137). -/
theorem Engine.irq_stepShown (hirq : bitAt f.ent 31 = true) (hroom : m.path.irqQueue.length < 16) :
    (m.stepShown t f j moved).hasBit R.E_SLU_IRQ = true ∧
      (m.stepTold t f).path.irqQueue = m.path.irqQueue ++ [(m.cc + 1, f.instant, f.level + f.cls * 2 ^ 16 + (bitAt f.ent 10).toNat * 2 ^ 24)] := by
  have hpath : (((m.limitsTold f).trigTold f).gateOrdered t f).path = m.path := by
    rw [Engine.path_gateOrdered, (Engine.pathOrders_trigTold _ f).1, (m.pathOrders_limitsTold f).1]
  have hcc : (((m.limitsTold f).trigTold f).gateOrdered t f).cc = m.cc := ((m.stepPart_trig f).append (Engine.stepPart_gateOrdered _ t f)).cc
  obtain ⟨hbit, hqueue⟩ := Engine.irqAsked_of_room hirq (hpath ▸ hroom)
  rw [hpath, hcc] at hqueue
  have hseen := Engine.stepPart_seenTold ((((m.limitsTold f).trigTold f).gateOrdered t f).irqAsked f) f hcls hlevel
  exact ⟨(m.stepPart_afterTold t f j moved).bits _ (hseen.bits _ hbit), hqueue⟩

end Sys2Proof.Machine
end

section
/-! SUPPORT. What follows a sluice step: its words were read, the cycle is marked, and other units are told (R145, R254, R431). -/
namespace Sys2Proof.Machine
open Sys2Proof

variable {m m' m'' : Engine}

/-! Words of the tables are read for a decision (R145). -/

/-- The words of a decision that are read: those of SLUICE's tanks, each once. -/
def Engine.wordsOf (m : Engine) (ws : List Nat) : List Nat := (ws.filter (fun w => m.tankReadable (w / 32768))).eraseDups

theorem Engine.wordsOf_lt {ws : List Nat} : ∀ w ∈ m.wordsOf ws, w / 32768 < 64 := fun _ hw =>
  Engine.tankReadable_lt (m := m) (List.mem_filter.1 (List.mem_eraseDups.1 hw)).2

/-- Beside what the reads leave, only free values and causes differ. -/
theorem Engine.tablesRead_eq (m : Engine) (s acts : Bool) (ws : List Nat) :
    ∃ n cs, m.tablesRead s acts ws = { (m.wordsRead (m.wordsOf ws)).1 with freeCtr := n, causes := cs } := by
  unfold Engine.tablesRead
  dsimp only
  split
  · exact ⟨_, _, rfl⟩
  · split <;> exact ⟨_, _, rfl⟩

theorem Engine.reg_tablesRead_off {a : Nat} (ha : a ∉ tankEccRegs) (m : Engine) (s acts : Bool) (ws : List Nat) : (m.tablesRead s acts ws).reg a = m.reg a := by
  obtain ⟨n, cs, heq⟩ := m.tablesRead_eq s acts ws
  rw [heq]
  exact Engine.reg_wordsRead_off ha (fun _ hb => hb) m Engine.wordsOf_lt

theorem Engine.pathOrders_tablesRead (m : Engine) (s acts : Bool) (ws : List Nat) : (m.tablesRead s acts ws).path = m.path ∧ (m.tablesRead s acts ws).gateOrders = m.gateOrders := by
  obtain ⟨n, cs, heq⟩ := m.tablesRead_eq s acts ws
  rw [heq]
  exact ⟨(m.wordsMet_wordsRead _).path, (m.wordsMet_wordsRead _).gateOrders⟩

/-! The cycle is past its step. -/

/-- The end of a step leaves registers, causes, gate orders and IRQ entries as they are, and its cycle is past its step. -/
structure Engine.StepOver (p : Nat) (m m' : Engine) : Prop where
  reg : ∀ a, m'.reg a = m.reg a
  causes : m'.causes = m.causes
  gateOrders : m'.gateOrders = m.gateOrders
  queue : m'.path.irqQueue = m.path.irqQueue
  stepped : ∀ f ∈ m'.path.pipe, f.phys = p → f.stepped = true

theorem Engine.stepOver_markStepped (m : Engine) (p : Nat) : m.StepOver p (m.markStepped p) := by
  refine ⟨fun _ => rfl, rfl, rfl, rfl, fun f hf hp => ?_⟩
  obtain ⟨x, -, rfl⟩ := List.mem_map.1 hf
  split at hp
  · next hmarked => rw [if_pos hmarked]
  · next hother => exact absurd (beq_iff_eq.2 hp) hother

theorem Engine.ownRecord_fluX (m : Engine) (n bits tick : Nat) (alone : Bool) : ∃ fx, m.ownRecord n bits tick alone = { m with path := { m.path with fluX := fx } } := by
  unfold Engine.ownRecord
  dsimp only
  generalize n + (if m.flag R.RING_STATUS_MODE then 104 else 8) = p
  split <;> exact ⟨_, rfl⟩

/-- A record of its own changes nothing of the path but the records, and the ring. -/
theorem Engine.StepOver.originate {p : Nat} (h : m.StepOver p m') (n bits tick : Nat) (alone : Bool) : m.StepOver p (m'.originate n bits tick alone) := by
  obtain ⟨x, hx⟩ := m'.originate_eq n bits tick alone
  obtain ⟨fx, hfx⟩ := m'.ownRecord_fluX n bits tick alone
  rw [hx, hfx]
  exact ⟨h.reg, h.causes, h.gateOrders, h.queue, h.stepped⟩

theorem Engine.StepOver.damCause {p : Nat} (h : m.StepOver p m') (code : Nat) (t : Tb) : m.StepOver p (m'.damCause code t) := by
  unfold Engine.damCause
  split
  · exact h
  · exact ⟨h.reg, h.causes, h.gateOrders, h.queue, h.stepped⟩

/-- What a step asks of the ring and of the dam (R254, R431). -/
def Engine.unitsTold (m : Engine) (o : StepOut) (e : PipeEntry) : Engine :=
  let m := if o.flu = 0 then m else m.originate e.phys o.flu o.tick false
  if o.gateAct ≠ 0 ∧ o.gateAct = m.fld R.DAM_CTL_GATEACT then m.damCause 3 (e.tb + BitVec.ofNat 64 (16 * (24 + m.lag))) else m

theorem Engine.stepOver_unitsTold (m : Engine) (o : StepOut) (e : PipeEntry) : m.StepOver e.phys ((m.markStepped e.phys).unitsTold o e) := by
  have hmarked := m.stepOver_markStepped e.phys
  have hdam : ∀ x : Engine, m.StepOver e.phys x →
      m.StepOver e.phys (if o.gateAct ≠ 0 ∧ o.gateAct = x.fld R.DAM_CTL_GATEACT then x.damCause 3 (e.tb + BitVec.ofNat 64 (16 * (24 + x.lag))) else x) := fun x hx => by
    split
    · exact hx.damCause _ _
    · exact hx
  refine hdam _ ?_
  split
  · exact hmarked
  · exact hmarked.originate _ _ _ _

/-! The command, taken apart. -/

/-- The sample cycle's step begins: the tree's outputs join it, and STEPPING tells whether a step is taken. -/
def Engine.stepBegun (m : Engine) (t : Memory) (e : PipeEntry) (steps : Bool) : Engine := (m.formed e.phys (m.confluence t e)).setFlag R.SLU_STATUS_STEPPING steps

/-- The sample cycle with its outputs of the tree. -/
def Engine.treeOf (m : Engine) (t : Memory) (e : PipeEntry) : PipeEntry := { e with conf := some (m.confluence t e) }

/-- The word of the sluice table's entry that a step reads. -/
def Engine.stepWord (m : Engine) (t : Memory) (e : PipeEntry) : Nat :=
  (m.stepBegun t e true).sluAddr (m.setAt e.phys) (m.confluence t e).e ((m.stepBegun t e true).fld R.SLU_STATUS_LEVEL) / 8

/-- The engine that a step finds, once its entry was looked up. -/
def Engine.stepMeets (m : Engine) (t : Memory) (e : PipeEntry) (ecc : Ecc) : Engine := (m.stepBegun t e true).entryMeets (m.stepWord t e) ecc

def Engine.stepOut (m : Engine) (t : Memory) (e : PipeEntry) (ecc : Ecc) : StepOut := (m.stepMeets t e ecc).sluiceStep t (m.treeOf t e)

/-- The words that a step reads for its decision. -/
def Engine.stepWords (m : Engine) (t : Memory) (e : PipeEntry) (ecc : Ecc) : List Nat :=
  m.confWords (m.treeOf t e) (m.confluence t e) ++ m.stepWord t e :: (m.stepOut t e ecc).reads

/-- The engine after a step whose words were read. -/
def Engine.stepRead (m : Engine) (t : Memory) (e : PipeEntry) (ecc : Ecc) : Engine :=
  (m.stepOut t e ecc).m.tablesRead (m.setAt e.phys) true (m.stepWords t e ecc)

/-- A sample cycle whose step is not taken, once the tree's words were read. -/
def Engine.idleRead (m : Engine) (t : Memory) (e : PipeEntry) : Engine :=
  ((m.stepBegun t e false).idleStep t (m.treeOf t e)).tablesRead (m.setAt e.phys) false (m.confWords (m.treeOf t e) (m.confluence t e))

variable {t : Memory} {e : PipeEntry}

theorem Engine.stepOnce_taken (ecc : Ecc) (hdue : m.stepDue = some e) (hsteps : m.stepsFor e.phys = true) :
    m.stepOnce t ecc = ((m.stepRead t e ecc).markStepped e.phys).unitsTold (m.stepOut t e ecc) (m.treeOf t e) := by
  unfold Engine.stepOnce Engine.unitsTold Engine.stepRead Engine.stepWords Engine.stepOut Engine.stepMeets Engine.stepWord Engine.stepBegun Engine.treeOf
  rw [hdue]
  dsimp only
  rw [hsteps, if_neg (by decide)]

theorem Engine.stepOnce_idle (ecc : Ecc) (hdue : m.stepDue = some e) (hsteps : m.stepsFor e.phys = false) :
    m.stepOnce t ecc = (m.idleRead t e).markStepped e.phys := by
  unfold Engine.stepOnce Engine.idleRead Engine.stepBegun Engine.treeOf
  rw [hdue]
  dsimp only
  rw [hsteps, if_pos (by decide)]

theorem Engine.stepOnce_none (ecc : Ecc) (hdue : m.stepDue = none) : m.stepOnce t ecc = m := by
  unfold Engine.stepOnce
  rw [hdue]

theorem Engine.tb_stepOnce (m : Engine) (t : Memory) (ecc : Ecc) : (m.stepOnce t ecc).tb = m.tb := ((steady_stepOnce t ecc).2 (.refl [.any] m)).tb

/-- What a taken step's end leaves of the step. -/
theorem Engine.stepOver_taken (ecc : Ecc) (hdue : m.stepDue = some e) (hsteps : m.stepsFor e.phys = true) : (m.stepRead t e ecc).StepOver e.phys (m.stepOnce t ecc) := by
  rw [Engine.stepOnce_taken ecc hdue hsteps]
  exact (m.stepRead t e ecc).stepOver_unitsTold _ (m.treeOf t e)

theorem Engine.stepOver_idle (ecc : Ecc) (hdue : m.stepDue = some e) (hsteps : m.stepsFor e.phys = false) : (m.idleRead t e).StepOver e.phys (m.stepOnce t ecc) := by
  rw [Engine.stepOnce_idle ecc hdue hsteps]
  exact (m.idleRead t e).stepOver_markStepped _

/-! How a step begins. -/

/-- The begin changes STEPPING and the sample cycle's own entry alone. -/
theorem Engine.stepPart_stepBegun (m : Engine) (t : Memory) (e : PipeEntry) (steps : Bool) : m.StepPart [R.SLU_STATUS] (m.stepBegun t e steps) :=
  (Engine.StepPart.of_orders m.gateOrders (m.formed e.phys (m.confluence t e)).path).setFld (f := R.SLU_STATUS_STEPPING) _ (by decide) (by decide)

theorem Engine.level_stepBegun (m : Engine) (t : Memory) (e : PipeEntry) (steps : Bool) :
    (m.stepBegun t e steps).fld R.SLU_STATUS_LEVEL = m.fld R.SLU_STATUS_LEVEL ∧ (m.stepBegun t e steps).flag R.SLU_STATUS_STEPPING = steps :=
  ⟨Engine.fld_setFlag_beside _ R.SLU_STATUS_STEPPING R.SLU_STATUS_LEVEL steps rfl (by decide), Engine.flag_setFlag_same _ R.SLU_STATUS_STEPPING steps (by decide) rfl⟩

end Sys2Proof.Machine
end

section
/-! SUPPORT. The step that is taken for a sample cycle, seen from before the command (R132 to R138). -/
namespace Sys2Proof.Machine
open Sys2Proof

variable {m : Engine} {t : Memory} {e : PipeEntry} {ecc : Ecc}

/-- The lookup of the entry changes the words' marks alone. -/
theorem Engine.entryMeets_eq (m : Engine) (w : Nat) (ecc : Ecc) : ∃ k, m.entryMeets w ecc = { m with tank := k } := by
  unfold Engine.entryMeets
  split
  · exact ⟨_, rfl⟩
  · exact ⟨_, rfl⟩
  · exact ⟨m.tank, rfl⟩

/-- Only the sample cycle's outputs, STEPPING and words' marks differ where a step meets its entry. -/
theorem Engine.stepMeets_eq (m : Engine) (t : Memory) (e : PipeEntry) (ecc : Ecc) : ∃ k, m.stepMeets t e ecc = { m.stepBegun t e true with tank := k } := Engine.entryMeets_eq _ _ _

theorem Engine.reg_stepMeets (m : Engine) (t : Memory) (e : PipeEntry) (ecc : Ecc) {a : Nat} (ha : a ≠ R.SLU_STATUS) : (m.stepMeets t e ecc).reg a = m.reg a := by
  obtain ⟨k, heq⟩ := m.stepMeets_eq t e ecc
  rw [heq]
  exact (m.stepPart_stepBegun t e true).reg a (by simpa using ha)

theorem Engine.level_stepMeets (m : Engine) (t : Memory) (e : PipeEntry) (ecc : Ecc) :
    (m.stepMeets t e ecc).fld R.SLU_STATUS_LEVEL = m.fld R.SLU_STATUS_LEVEL ∧ (m.stepMeets t e ecc).flag R.SLU_STATUS_STEPPING = true := by
  obtain ⟨k, heq⟩ := m.stepMeets_eq t e ecc
  rw [heq]
  exact m.level_stepBegun t e true

/-- The path where a step meets its entry: the jumps and IRQ entries are those before. -/
theorem Engine.path_stepMeets (m : Engine) (t : Memory) (e : PipeEntry) (ecc : Ecc) :
    (m.stepMeets t e ecc).path.jumpAt = m.path.jumpAt ∧ (m.stepMeets t e ecc).path.irqQueue = m.path.irqQueue ∧ (m.stepMeets t e ecc).gateOrders = m.gateOrders ∧
      (m.stepMeets t e ecc).cc = m.cc ∧ (m.stepMeets t e ecc).setAt = m.setAt ∧ (m.stepMeets t e ecc).setMoved = m.setMoved := by
  obtain ⟨k, heq⟩ := m.stepMeets_eq t e ecc
  rw [heq]
  exact ⟨rfl, rfl, rfl, rfl, rfl, rfl⟩

/-- Without an uncorrectable word the step's lookups find what they would have found before. -/
theorem Engine.looksAs_stepMeets (m : Engine) (t : Memory) (e : PipeEntry) (hecc : ecc ≠ .double) : m.LooksAs (m.stepMeets t e ecc) :=
  ((m.stepPart_stepBegun t e true).looksAs (by decide)).trans (Engine.looksAs_entryMeets _ _ hecc)

/-- A step finds what stood there before the command. -/
theorem Engine.stepFound_stepMeets (m : Engine) (t : Memory) (e : PipeEntry) (hecc : ecc ≠ .double) :
    (m.stepMeets t e ecc).stepFound t (m.treeOf t e) = m.stepFound t (m.treeOf t e) := by
  have hlooks := m.looksAs_stepMeets t e hecc
  have hctl : (m.stepMeets t e ecc).reg R.SLU_CTL = m.reg R.SLU_CTL := m.reg_stepMeets t e ecc (by decide)
  have hctr : ∀ a ∈ [R.SLU_CTRA_LO, R.SLU_CTRB_LO], (m.stepMeets t e ecc).reg64 a = m.reg64 a := fun a ha => by
    have hne : ∀ a ∈ [R.SLU_CTRA_LO, R.SLU_CTRB_LO], a ≠ R.SLU_STATUS ∧ a + 4 ≠ R.SLU_STATUS := by decide
    exact Engine.reg64_of_reg (m.reg_stepMeets t e ecc (hne a ha).1) (m.reg_stepMeets t e ecc (hne a ha).2)
  unfold Engine.stepFound
  dsimp only
  rw [hlooks.setAt, (m.level_stepMeets t e ecc).1, hlooks.sluEntry, Engine.flag_of_reg (f := R.SLU_CTL_CTRA_SAT) hctl, Engine.flag_of_reg (f := R.SLU_CTL_CTRB_SAT) hctl,
    hctr _ (by decide), hctr _ (by decide)]

/-- What a step leaves, but for the path. -/
def Engine.stepLeft (m : Engine) (t : Memory) (e : PipeEntry) (ecc : Ecc) : Engine :=
  (m.stepMeets t e ecc).stepShown t ((m.stepMeets t e ecc).stepFound t (m.treeOf t e)) (m.path.jumpAt e.phys) (m.setMoved e.phys)

theorem Engine.stepOut_eq (m : Engine) (t : Memory) (e : PipeEntry) (ecc : Ecc) :
    ∃ q : Path, (m.stepOut t e ecc).m = { m.stepLeft t e ecc with path := q } ∧
      q.irqQueue = ((m.stepMeets t e ecc).stepTold t ((m.stepMeets t e ecc).stepFound t (m.treeOf t e))).path.irqQueue := by
  obtain ⟨q, hq, hqueue⟩ := (m.stepMeets t e ecc).sluiceStep_eq t (m.treeOf t e)
  obtain ⟨hjump, -, -, -, -, hmoved⟩ := m.path_stepMeets t e ecc
  rw [hjump, hmoved] at hq
  exact ⟨q, hq, hqueue⟩

/-- A level has ten bits. -/
theorem Engine.level_lt (m : Engine) : m.fld R.SLU_STATUS_LEVEL < 1024 := bitsOf_lt _ _ _

theorem Engine.stepPart_stepLeft (m : Engine) (t : Memory) (e : PipeEntry) (ecc : Ecc) :
    (m.stepMeets t e ecc).StepPart (sluiceRegs (m.confluence t e).e (m.fld R.SLU_STATUS_LEVEL)) (m.stepLeft t e ecc) := by
  rw [← (m.level_stepMeets t e ecc).1]
  exact (m.stepMeets t e ecc).stepPart_shown (f := (m.stepMeets t e ecc).stepFound t (m.treeOf t e)) t _ _ (m.confluence_lt t e) (Engine.level_lt _)

/-! What the command leaves. -/

section Taken
variable (hdue : m.stepDue = some e) (hsteps : m.stepsFor e.phys = true)
include hdue hsteps

/-- Below the tanks' page the command leaves what the step leaves. -/
theorem Engine.reg_taken {a : Nat} (ha : a ∉ tankEccRegs) : (m.stepOnce t ecc).reg a = (m.stepLeft t e ecc).reg a := by
  obtain ⟨q, hq, -⟩ := m.stepOut_eq t e ecc
  have hleft : ∀ left : Engine, ({ left with path := q } : Engine).reg a = left.reg a := fun _ => rfl
  calc (m.stepOnce t ecc).reg a = (m.stepRead t e ecc).reg a := (Engine.stepOver_taken ecc hdue hsteps).reg a
    _ = (m.stepOut t e ecc).m.reg a := Engine.reg_tablesRead_off ha _ _ _ _
    _ = (m.stepLeft t e ecc).reg a := (congrArg (Engine.reg · a) hq).trans (hleft _)

theorem Engine.reg_taken_below {a : Nat} (ha : a < 0xC0000) : (m.stepOnce t ecc).reg a = (m.stepLeft t e ecc).reg a :=
  Engine.reg_taken hdue hsteps fun hmem => Nat.not_le.2 ha (tankEccRegs_ge hmem)

theorem Engine.pathOrders_taken : (m.stepOnce t ecc).gateOrders = (m.stepLeft t e ecc).gateOrders ∧
    (m.stepOnce t ecc).path.irqQueue = ((m.stepMeets t e ecc).stepTold t ((m.stepMeets t e ecc).stepFound t (m.treeOf t e))).path.irqQueue := by
  obtain ⟨q, hq, hqueue⟩ := m.stepOut_eq t e ecc
  have hover := Engine.stepOver_taken (t := t) ecc hdue hsteps
  obtain ⟨hpath, horders⟩ := (m.stepOut t e ecc).m.pathOrders_tablesRead (m.setAt e.phys) true (m.stepWords t e ecc)
  refine ⟨hover.gateOrders.trans (horders.trans ?_), hover.queue.trans ((congrArg Path.irqQueue hpath).trans ?_)⟩
  · rw [hq]
  · rw [hq]
    exact hqueue

end Taken

end Sys2Proof.Machine
end

section
/-! SUPPORT. A step that is taken, item by item (R132, R133, R135 to R138, R143). -/
namespace Sys2Proof.Machine
open Sys2Proof

theorem sluiceRegs_lt {e l b : Nat} (he : e < 256) (hl : l < 1024) (hb : b ∈ sluiceRegs e l) : b < 0xC0000 := by
  have hfix : ∀ b ∈ toldRegs 0 0 ++ (counterRegs ++ levelRegs ++ contextRegs), b < 0xC0000 := by decide
  by_cases hseen : b ∈ seenRegs e l
  · simp only [seenRegs, R.SLU_ESEEN, R.SLU_LVLSEEN, List.mem_cons, List.not_mem_nil, or_false] at hseen
    omega
  · refine hfix b ?_
    simp only [toldRegs, limitRegs, trigRegs, irqRegs, counterRegs, levelRegs, contextRegs, seenRegs, sluiceRegs, List.mem_append, List.mem_cons, List.not_mem_nil, or_false] at hb hseen ⊢
    tauto

/-- A reach's context lies below the tanks' page, and is not the sluice's status. -/
theorem context_lt (n : Fin 48) : R.RU_CONTEXT n < 0xC0000 := by
  unfold R.RU_CONTEXT
  omega

variable {m : Engine} {t : Memory} {e : PipeEntry} {ecc : Ecc}

section Taken
variable (hdue : m.stepDue = some e) (hsteps : m.stepsFor e.phys = true)
include hdue hsteps

theorem Engine.reg64_taken {a : Nat} (ha : a + 4 < 0xC0000) : (m.stepOnce t ecc).reg64 a = (m.stepLeft t e ecc).reg64 a :=
  Engine.reg64_of_reg (Engine.reg_taken_below hdue hsteps (by omega)) (Engine.reg_taken_below hdue hsteps ha)

/-- Only the registers of the step and of the words it read change. -/
theorem Engine.reg_taken_off {a : Nat} (ha : a ∉ sluiceRegs (m.confluence t e).e (m.fld R.SLU_STATUS_LEVEL) ++ tankEccRegs) : (m.stepOnce t ecc).reg a = m.reg a := by
  simp only [List.mem_append, not_or] at ha
  obtain ⟨hslu, htank⟩ := ha
  have hstatus : a ≠ R.SLU_STATUS := fun heq => hslu (heq ▸ List.mem_cons_self)
  exact (Engine.reg_taken hdue hsteps htank).trans (((m.stepPart_stepLeft t e ecc).reg a hslu).trans (m.reg_stepMeets t e ecc hstatus))

end Taken

/-- What a step finds of a sample cycle that has passed the tree. -/
def Engine.foundOf (m : Engine) (t : Memory) (e : PipeEntry) : StepFound := m.stepFound t (m.treeOf t e)

theorem Engine.foundOf_lt (m : Engine) (t : Memory) (e : PipeEntry) : (m.foundOf t e).cls < 256 ∧ (m.foundOf t e).level < 1024 := ⟨m.confluence_lt t e, m.level_lt⟩

section Good
variable (hdue : m.stepDue = some e) (hsteps : m.stepsFor e.phys = true) (hecc : ecc ≠ .double)

include hecc in
theorem Engine.stepLeft_of_good : m.stepLeft t e ecc = (m.stepMeets t e ecc).stepShown t (m.foundOf t e) (m.path.jumpAt e.phys) (m.setMoved e.phys) := by
  unfold Engine.stepLeft
  rw [m.stepFound_stepMeets t e hecc]
  rfl

include hdue hsteps hecc

/-- R132, R143: the level, STEPPING, and the dwell timer. -/
theorem Engine.level_taken :
    (m.stepOnce t ecc).fld R.SLU_STATUS_LEVEL = nextLevel (m.path.jumpAt e.phys) (m.foundOf t e).ent % 1024 ∧ (m.stepOnce t ecc).flag R.SLU_STATUS_STEPPING = true ∧
      (m.stepOnce t ecc).reg64 R.SLU_DWELLNOW_LO =
        if (m.path.jumpAt e.phys).isSome ∨ bitsOf (m.foundOf t e).ent 0 10 ≠ (m.foundOf t e).level ∨ m.setAt (e.phys - 1) ≠ m.setAt e.phys then 0
        else BitVec.ofNat 64 (min ((m.reg64 R.SLU_DWELLNOW_LO).toNat + 1) (2 ^ 48 - 1)) := by
  obtain ⟨hcls, hlt⟩ := m.foundOf_lt t e
  obtain ⟨hlevel, hstepping, hdwell⟩ := Engine.level_stepShown (m := m.stepMeets t e ecc) (t := t) (j := m.path.jumpAt e.phys) (moved := m.setMoved e.phys) hcls hlt
  have hnow : (m.stepMeets t e ecc).reg64 R.SLU_DWELLNOW_LO = m.reg64 R.SLU_DWELLNOW_LO := Engine.reg64_of_reg (m.reg_stepMeets t e ecc (by decide)) (m.reg_stepMeets t e ecc (by decide))
  rw [← Engine.stepLeft_of_good hecc] at hlevel hstepping hdwell
  have hstatus : (m.stepOnce t ecc).reg R.SLU_STATUS = (m.stepLeft t e ecc).reg R.SLU_STATUS := Engine.reg_taken_below hdue hsteps (by decide)
  refine ⟨(Engine.fld_of_reg (f := R.SLU_STATUS_LEVEL) hstatus).trans hlevel, (Engine.flag_of_reg (f := R.SLU_STATUS_STEPPING) hstatus).trans (hstepping.trans (m.level_stepMeets t e ecc).2), ?_⟩
  rw [Engine.reg64_taken hdue hsteps (by decide), hdwell, hnow]
  refine if_congr ?_ rfl rfl
  simp [Engine.setMoved, or_assoc]

/-- R133, R143: the level counters. -/
theorem Engine.counters_taken :
    (m.stepOnce t ecc).reg64 R.SLU_CTRA_LO = (if ((m.path.jumpAt e.phys).map (·.clrA)).getD false then 0 else BitVec.ofNat 64 (m.foundOf t e).ctrA.1) ∧
      (m.stepOnce t ecc).reg64 R.SLU_CTRB_LO = (if ((m.path.jumpAt e.phys).map (·.clrB)).getD false then 0 else BitVec.ofNat 64 (m.foundOf t e).ctrB.1) := by
  rw [Engine.reg64_taken hdue hsteps (by decide), Engine.reg64_taken hdue hsteps (by decide), Engine.stepLeft_of_good hecc]
  exact Engine.counters_stepShown _ _ _ _ _

/-- R81: every reach's context. -/
theorem Engine.context_taken (n : Fin 48) :
    (m.stepOnce t ecc).fld (R.RU_CONTEXT_CTX n) = bitsOf (m.levelAttr t (m.setAt e.phys) (nextLevel (m.path.jumpAt e.phys) (m.foundOf t e).ent)) 48 4 := by
  obtain ⟨hcls, hlt⟩ := m.foundOf_lt t e
  have hctx := Engine.context_stepShown (m := m.stepMeets t e ecc) (t := t) (j := m.path.jumpAt e.phys) (moved := m.setMoved e.phys) hcls hlt n
  rw [← Engine.stepLeft_of_good hecc, (m.looksAs_stepMeets t e hecc).levelAttr] at hctx
  exact (Engine.fld_of_reg (Engine.reg_taken_below hdue hsteps (context_lt n))).trans hctx

/-- R134, R135: with TRIG. -/
theorem Engine.trig_taken (htrig : bitAt (m.foundOf t e).ent 10 = true) :
    (m.stepOnce t ecc).reg R.SLU_TRIGCNT = satAdd (m.reg R.SLU_TRIGCNT) 1 ∧ (m.stepOnce t ecc).hasBit R.E_SLU_TRIG = true ∧
      (m.stepOnce t ecc).reg64 R.SLU_LASTTRIG_TB_LO = (m.foundOf t e).instant := by
  obtain ⟨hcls, hlt⟩ := m.foundOf_lt t e
  have htold := Engine.trig_stepShown (m := m.stepMeets t e ecc) (t := t) (j := m.path.jumpAt e.phys) (moved := m.setMoved e.phys) hcls hlt htrig
  rw [← Engine.stepLeft_of_good hecc, m.reg_stepMeets t e ecc (by decide)] at htold
  rw [Engine.reg_taken_below hdue hsteps (by decide), Engine.reg64_taken hdue hsteps (by decide), Engine.hasBit_of_reg (Engine.reg_taken_below hdue hsteps (by decide))]
  exact htold

/-- R134: without TRIG. -/
theorem Engine.noTrig_taken (htrig : bitAt (m.foundOf t e).ent 10 = false) :
    (m.stepOnce t ecc).reg R.SLU_TRIGCNT = m.reg R.SLU_TRIGCNT ∧ (m.stepOnce t ecc).reg64 R.SLU_LASTTRIG_TB_LO = m.reg64 R.SLU_LASTTRIG_TB_LO := by
  obtain ⟨hcls, hlt⟩ := m.foundOf_lt t e
  have hsame := Engine.noTrig_stepShown (m := m.stepMeets t e ecc) (t := t) (j := m.path.jumpAt e.phys) (moved := m.setMoved e.phys) hcls hlt htrig
  have htb : (m.stepMeets t e ecc).reg64 R.SLU_LASTTRIG_TB_LO = m.reg64 R.SLU_LASTTRIG_TB_LO :=
    Engine.reg64_of_reg (m.reg_stepMeets t e ecc (by decide)) (m.reg_stepMeets t e ecc (by decide))
  rw [← Engine.stepLeft_of_good hecc, m.reg_stepMeets t e ecc (by decide), htb] at hsame
  rw [Engine.reg_taken_below hdue hsteps (by decide), Engine.reg64_taken hdue hsteps (by decide)]
  exact hsame

/-- R137: an IRQ entry. -/
theorem Engine.irq_taken (hirq : bitAt (m.foundOf t e).ent 31 = true) (hroom : m.path.irqQueue.length < 16) :
    (m.stepOnce t ecc).hasBit R.E_SLU_IRQ = true ∧ (m.stepOnce t ecc).path.irqQueue =
      m.path.irqQueue ++ [(m.cc + 1, (m.foundOf t e).instant, (m.foundOf t e).level + (m.foundOf t e).cls * 2 ^ 16 + (bitAt (m.foundOf t e).ent 10).toNat * 2 ^ 24)] := by
  obtain ⟨hcls, hlt⟩ := m.foundOf_lt t e
  obtain ⟨-, hqueue, -, hcc, -⟩ := m.path_stepMeets t e ecc
  have htold := Engine.irq_stepShown (m := m.stepMeets t e ecc) (t := t) (j := m.path.jumpAt e.phys) (moved := m.setMoved e.phys) hcls hlt hirq (hqueue ▸ hroom)
  rw [← Engine.stepLeft_of_good hecc, hqueue, hcc] at htold
  rw [(Engine.pathOrders_taken hdue hsteps).2, m.stepFound_stepMeets t e hecc, Engine.hasBit_of_reg (Engine.reg_taken_below hdue hsteps (by decide))]
  exact htold

/-- R136: the order of a gate action. -/
theorem Engine.gateOrders_taken : (m.stepOnce t ecc).gateOrders = m.gateOrders ++ (if bitsOf (m.foundOf t e).ent 21 5 = 0 then [] else
    [gateOrderOf (m.gateEntry t (m.setAt e.phys) (bitsOf (m.foundOf t e).ent 21 5)) e.tb m.lag (m.foundOf t e).pos.1]) := by
  have horders := (m.stepMeets t e ecc).gateOrders_stepShown t (m.foundOf t e) (m.path.jumpAt e.phys) (m.setMoved e.phys)
  obtain ⟨-, -, hbefore, -⟩ := m.path_stepMeets t e ecc
  rw [← Engine.stepLeft_of_good hecc, hbefore, (m.looksAs_stepMeets t e hecc).gateEntry, Engine.lag_of_reg (m.reg_stepMeets t e ecc (by decide))] at horders
  exact (Engine.pathOrders_taken hdue hsteps).1.trans horders

end Good

end Sys2Proof.Machine
end

section
/-! SUPPORT. A sample cycle whose step is not taken (R131, R143). -/
namespace Sys2Proof.Machine
open Sys2Proof

variable {m : Engine} {t : Memory} {e : PipeEntry} {ecc : Ecc}

theorem Engine.idleStep_of_none (hjump : m.path.jumpAt e.phys = none) : ∃ q, m.idleStep t e = { m with path := q } := by
  unfold Engine.idleStep
  dsimp only
  split
  · exact ⟨_, rfl⟩
  · next j hj => exact nomatch hjump.symm.trans hj

/-- A jump's clears. -/
def Engine.jumpCleared (m : Engine) (j : Jump) : Engine :=
  let m := if j.clrA then m.setReg64 R.SLU_CTRA_LO 0 else m
  if j.clrB then m.setReg64 R.SLU_CTRB_LO 0 else m

/-- A jump's level with its context, told. -/
def Engine.jumpTaken (m : Engine) (j : Jump) (ctx : Nat) : Engine := ((m.setLevel j.level 0).broadcast ctx).status R.E_SLU_JUMP

def clearRegs : List Nat := [R.SLU_CTRA_LO, R.SLU_CTRA_HI, R.SLU_CTRB_LO, R.SLU_CTRB_HI]

theorem Engine.stepPart_jumpCleared (m : Engine) (j : Jump) : m.StepPart clearRegs (m.jumpCleared j) := by
  have hA : m.StepPart clearRegs (if j.clrA then m.setReg64 R.SLU_CTRA_LO 0 else m) := by
    split
    · exact (Engine.StepPart.refl _ m).setReg64 _ (by decide) (by decide) (by decide)
    · exact .refl _ m
  unfold Engine.jumpCleared
  dsimp only
  split
  · exact hA.setReg64 _ (by decide) (by decide) (by decide)
  · exact hA

theorem Engine.counters_jumpCleared (m : Engine) (j : Jump) :
    (m.jumpCleared j).reg64 R.SLU_CTRA_LO = (if j.clrA then 0 else m.reg64 R.SLU_CTRA_LO) ∧ (m.jumpCleared j).reg64 R.SLU_CTRB_LO = (if j.clrB then 0 else m.reg64 R.SLU_CTRB_LO) := by
  have hother : ∀ (x : Engine) (v : Tb), (x.setReg64 R.SLU_CTRB_LO v).reg64 R.SLU_CTRA_LO = x.reg64 R.SLU_CTRA_LO ∧ (x.setReg64 R.SLU_CTRA_LO v).reg64 R.SLU_CTRB_LO = x.reg64 R.SLU_CTRB_LO :=
    fun x v => ⟨Engine.reg64_setReg64_ne _ _ _ _ (by decide) (by decide) (by decide), Engine.reg64_setReg64_ne _ _ _ _ (by decide) (by decide) (by decide)⟩
  unfold Engine.jumpCleared
  cases j.clrA <;> cases j.clrB <;> simp [hother]

def jumpRegs : List Nat := levelRegs ++ contextRegs ++ [statusAddr 0xA1]

theorem Engine.stepPart_jumpTaken (m : Engine) (j : Jump) (ctx : Nat) : m.StepPart jumpRegs (m.jumpTaken j ctx) :=
  ((m.stepPart_setLevel _ _).append (Engine.stepPart_broadcast _ ctx)).append ((Engine.StepPart.refl _ _).status (b := R.E_SLU_JUMP) (by decide) (by decide))

/-- The jump's level and context are in force, the dwell timer restarts, and STEPPING stays (R143). -/
theorem Engine.jumpTaken_shows (m : Engine) (j : Jump) (ctx : Nat) :
    (m.jumpTaken j ctx).fld R.SLU_STATUS_LEVEL = j.level % 1024 ∧ (m.jumpTaken j ctx).flag R.SLU_STATUS_STEPPING = m.flag R.SLU_STATUS_STEPPING ∧
      (m.jumpTaken j ctx).reg64 R.SLU_DWELLNOW_LO = 0 ∧ (m.jumpTaken j ctx).hasBit R.E_SLU_JUMP = true ∧ ∀ n : Fin 48, (m.jumpTaken j ctx).fld (R.RU_CONTEXT_CTX n) = ctx % 16 := by
  obtain ⟨hlevel, hstepping, hdwell⟩ := m.setLevel_shows j.level 0
  have hlast : ((m.setLevel j.level 0).broadcast ctx).StepPart [statusAddr 0xA1] (m.jumpTaken j ctx) := (Engine.StepPart.refl _ _).status (b := R.E_SLU_JUMP) (by decide) (by decide)
  have hctx := ((m.setLevel j.level 0).stepPart_broadcast ctx).append hlast
  refine ⟨(hctx.fld (by decide)).trans hlevel, (hctx.flag (by decide)).trans hstepping, (hctx.reg64 (by decide) (by decide)).trans hdwell,
    Engine.hasBit_status_same _ R.E_SLU_JUMP (by decide), fun n => (hlast.fld ?_).trans (Engine.fld_broadcast _ ctx n)⟩
  simp only [R.RU_CONTEXT_CTX, R.RU_CONTEXT, statusAddr, List.mem_singleton]
  omega

/-- A jump without a step, as a chain: its clears, then its level with the context. -/
theorem Engine.idleStep_chain {j : Jump} (hjump : m.path.jumpAt e.phys = some j) :
    ∃ q q', m.idleStep t e = ({ ({ m with path := q } : Engine).jumpCleared j with path := q' } : Engine).jumpTaken j (bitsOf (m.levelAttr t (m.setAt e.phys) j.level) 48 4) := by
  have hlooks : ∀ q, m.LooksAs (({ m with path := q } : Engine).jumpCleared j) := fun q =>
    ((Engine.StepPart.of_orders m.gateOrders q).trans (Engine.stepPart_jumpCleared _ j)).looksAs (by decide)
  unfold Engine.idleStep
  dsimp only
  split
  · next hj => exact nomatch hjump.symm.trans hj
  · next j' hj =>
    obtain rfl : j = j' := Option.some.inj (hjump.symm.trans hj)
    refine ⟨{ m.path with lvx := m.path.lvx ++ [{ phys := e.phys + 8, a := false, b := false, dwell := false, trigd := m.path.trigd }] }, ?_⟩
    rw [← (hlooks _).levelAttr, ← (hlooks _).setAt]
    exact ⟨_, rfl⟩

/-- A jump without a step clears the counters it names and sets the level it names (R143). -/
theorem Engine.idleStep_of_jump {j : Jump} (hjump : m.path.jumpAt e.phys = some j) :
    ∃ x, m.StepPart clearRegs x ∧ x.reg64 R.SLU_CTRA_LO = (if j.clrA then 0 else m.reg64 R.SLU_CTRA_LO) ∧ x.reg64 R.SLU_CTRB_LO = (if j.clrB then 0 else m.reg64 R.SLU_CTRB_LO) ∧
      m.idleStep t e = x.jumpTaken j (bitsOf (m.levelAttr t (m.setAt e.phys) j.level) 48 4) := by
  obtain ⟨q, q', hq⟩ := Engine.idleStep_chain (t := t) hjump
  obtain ⟨hA, hB⟩ := Engine.counters_jumpCleared { m with path := q } j
  exact ⟨_, ((Engine.StepPart.of_orders m.gateOrders q).trans (Engine.stepPart_jumpCleared _ j)).trans (.of_orders _ q'), hA, hB, hq⟩

end Sys2Proof.Machine
end

section
/-! SUPPORT. The command for a sample cycle whose step is not taken, item by item (R131, R143). -/
namespace Sys2Proof.Machine
open Sys2Proof

theorem Engine.reg_withPath (m : Engine) (q : Path) (a : Nat) : ({ m with path := q } : Engine).reg a = m.reg a := rfl

variable {m : Engine} {t : Memory} {e : PipeEntry} {ecc : Ecc} (hdue : m.stepDue = some e) (hsteps : m.stepsFor e.phys = false)
include hdue hsteps

theorem Engine.reg_idle {a : Nat} (ha : a ∉ tankEccRegs) : (m.stepOnce t ecc).reg a = ((m.stepBegun t e false).idleStep t (m.treeOf t e)).reg a :=
  ((Engine.stepOver_idle ecc hdue hsteps).reg a).trans (Engine.reg_tablesRead_off ha _ _ _ _)

theorem Engine.reg_idle_below {a : Nat} (ha : a < 0xC0000) : (m.stepOnce t ecc).reg a = ((m.stepBegun t e false).idleStep t (m.treeOf t e)).reg a :=
  Engine.reg_idle hdue hsteps fun hmem => Nat.not_le.2 ha (tankEccRegs_ge hmem)

/-- Without a jump only STEPPING changes (R131). -/
theorem Engine.stepOnce_idle_shows (hjump : m.path.jumpAt e.phys = none) :
    (m.stepOnce t ecc).flag R.SLU_STATUS_STEPPING = false ∧ (m.stepOnce t ecc).fld R.SLU_STATUS_LEVEL = m.fld R.SLU_STATUS_LEVEL ∧
      ∀ a, a ∉ R.SLU_STATUS :: tankEccRegs → (m.stepOnce t ecc).reg a = m.reg a := by
  obtain ⟨q, hq⟩ := Engine.idleStep_of_none (m := m.stepBegun t e false) (t := t) (e := m.treeOf t e) hjump
  have hbegun : ∀ a, ((m.stepBegun t e false).idleStep t (m.treeOf t e)).reg a = (m.stepBegun t e false).reg a := fun a =>
    (congrArg (Engine.reg · a) hq).trans (Engine.reg_withPath _ q a)
  obtain ⟨hlevel, hstepping⟩ := m.level_stepBegun t e false
  have hstatus : (m.stepOnce t ecc).reg R.SLU_STATUS = (m.stepBegun t e false).reg R.SLU_STATUS := (Engine.reg_idle_below hdue hsteps (by decide)).trans (hbegun _)
  refine ⟨(Engine.flag_of_reg (f := R.SLU_STATUS_STEPPING) hstatus).trans hstepping, (Engine.fld_of_reg (f := R.SLU_STATUS_LEVEL) hstatus).trans hlevel, fun a ha => ?_⟩
  rw [List.mem_cons, not_or] at ha
  exact ((Engine.reg_idle hdue hsteps ha.2).trans (hbegun a)).trans ((m.stepPart_stepBegun t e false).reg a (by simpa using ha.1))

/-- A jump sets the level it names with its context, restarts the dwell timer and clears the counters it names (R143). -/
theorem Engine.stepOnce_jump_shows {j : Jump} (hjump : m.path.jumpAt e.phys = some j) :
    (m.stepOnce t ecc).flag R.SLU_STATUS_STEPPING = false ∧ (m.stepOnce t ecc).fld R.SLU_STATUS_LEVEL = j.level % 1024 ∧ (m.stepOnce t ecc).reg64 R.SLU_DWELLNOW_LO = 0 ∧
      (m.stepOnce t ecc).hasBit R.E_SLU_JUMP = true ∧ (m.stepOnce t ecc).reg64 R.SLU_CTRA_LO = (if j.clrA then 0 else m.reg64 R.SLU_CTRA_LO) ∧
      (m.stepOnce t ecc).reg64 R.SLU_CTRB_LO = (if j.clrB then 0 else m.reg64 R.SLU_CTRB_LO) ∧
      (∀ n : Fin 48, (m.stepOnce t ecc).fld (R.RU_CONTEXT_CTX n) = bitsOf (m.levelAttr t (m.setAt e.phys) j.level) 48 4) ∧
      ∀ a, a ∉ R.SLU_STATUS :: (clearRegs ++ jumpRegs) ++ tankEccRegs → (m.stepOnce t ecc).reg a = m.reg a := by
  obtain ⟨x, hclear, hA, hB, hx⟩ := Engine.idleStep_of_jump (m := m.stepBegun t e false) (t := t) (e := m.treeOf t e) hjump
  have hbegun := m.stepPart_stepBegun t e false
  have hlooks := hbegun.looksAs (by decide)
  have hphys : (m.treeOf t e).phys = e.phys := rfl
  rw [hlooks.levelAttr, hlooks.setAt, hphys] at hx
  have hjumped := x.stepPart_jumpTaken j (bitsOf (m.levelAttr t (m.setAt e.phys) j.level) 48 4)
  obtain ⟨hlevel, hstepping, hdwell, hbit, hctx⟩ := x.jumpTaken_shows j (bitsOf (m.levelAttr t (m.setAt e.phys) j.level) 48 4)
  rw [← hx] at hjumped hlevel hstepping hdwell hbit hctx
  have hreg : ∀ a < 0xC0000, (m.stepOnce t ecc).reg a = ((m.stepBegun t e false).idleStep t (m.treeOf t e)).reg a := fun a ha => Engine.reg_idle_below hdue hsteps ha
  have hreg64 : ∀ a, a + 4 < 0xC0000 → (m.stepOnce t ecc).reg64 a = ((m.stepBegun t e false).idleStep t (m.treeOf t e)).reg64 a := fun a ha =>
    Engine.reg64_of_reg (hreg a (by omega)) (hreg _ ha)
  have hstart : x.flag R.SLU_STATUS_STEPPING = false := (hclear.flag (by decide)).trans (m.level_stepBegun t e false).2
  refine ⟨(Engine.flag_of_reg (hreg _ (by decide))).trans (hstepping.trans hstart), (Engine.fld_of_reg (hreg _ (by decide))).trans hlevel, (hreg64 _ (by decide)).trans hdwell,
    (Engine.hasBit_of_reg (hreg _ (by decide))).trans hbit, ?_, ?_, fun n => ?_, fun a ha => ?_⟩
  · rw [hreg64 _ (by decide), hjumped.reg64 (by decide) (by decide), hA, hbegun.reg64 (by decide) (by decide)]
  · rw [hreg64 _ (by decide), hjumped.reg64 (by decide) (by decide), hB, hbegun.reg64 (by decide) (by decide)]
  · exact ((Engine.fld_of_reg (hreg _ (context_lt n))).trans (hctx n)).trans (Nat.mod_eq_of_lt (bitsOf_lt _ _ _))
  · simp only [List.cons_append, List.mem_cons, List.mem_append, not_or] at ha
    obtain ⟨hstatus, ⟨hclr, hjmp⟩, htank⟩ := ha
    rw [Engine.reg_idle hdue hsteps htank, hjumped.reg a hjmp, hclear.reg a hclr, hbegun.reg a (by simpa using hstatus)]

end Sys2Proof.Machine
end

section
/-! SUPPORT. A step that meets an uncorrectable word (R145, R322). -/
namespace Sys2Proof.Machine
open Sys2Proof

variable {m : Engine} {w : Nat}

/-- One word alone holds an error, an uncorrectable one. -/
def Engine.OnlyBad (m : Engine) (w : Nat) : Prop := ∀ w', m.wordError w' = if w' = w then .double else .good

/-- A good word's read leaves everything as it is. -/
theorem Engine.OnlyBad.wordRead_other (h : m.OnlyBad w) {w' : Nat} (hne : w' ≠ w) : m.wordRead w' .good = (m, .good) := by
  have hgood : m.wordError w' = .good := (h w').trans (if_neg hne)
  simp [Engine.wordRead, hgood, Engine.tankEcc]

theorem Engine.tank_tankEcc (m : Engine) (ecc : Ecc) (tank word : Nat) : (m.tankEcc ecc tank word).tank = m.tank := by
  cases ecc with
  | good => rfl
  | single => exact Engine.status_tank (m.addSat (R.TANK_CE tank) 1) R.E_TANK_CE
  | double => exact Engine.status_tank ((m.addSat (R.TANK_UE tank) 1).setReg R.TANK_LASTUE _) R.E_TANK_UE

/-- What the read of the bad word leaves. -/
def Engine.badRead (m : Engine) (w : Nat) : Engine := (m.tankEcc .double (w / 32768) (w % 32768)).setWordError w .double

theorem Engine.OnlyBad.wordRead_bad (h : m.OnlyBad w) : (m.wordRead w .good).1 = m.badRead w := by
  have hbad : m.wordError w = .double := (h w).trans (if_pos rfl)
  simp [Engine.wordRead, hbad, Engine.badRead]

theorem Engine.OnlyBad.badRead (h : m.OnlyBad w) : (m.badRead w).OnlyBad w := by
  intro w'
  have htank : (m.tankEcc .double (w / 32768) (w % 32768)).wordError w' = m.wordError w' := by
    unfold Engine.wordError
    rw [Engine.tank_tankEcc]
  unfold Engine.badRead
  rw [Engine.wordError_setWordError, htank, h w']
  split <;> rfl

/-- One read after others. -/
def readNext (s : Engine × Bool) (w : Nat) : Engine × Bool := ((s.1.wordRead w .good).1, s.2 || (s.1.wordRead w .good).2 == .double)

theorem Engine.wordsRead_of_errs {ws : List Nat} (herrs : m.tank.errs.isEmpty = false) : m.wordsRead ws = ws.foldl readNext (m, false) := by
  unfold Engine.wordsRead
  rw [if_neg (by simp [herrs])]
  rfl

/-- Reads that spare the bad word leave everything as it is. -/
theorem Engine.OnlyBad.foldl_others (h : m.OnlyBad w) {ws : List Nat} (hws : w ∉ ws) (b : Bool) : ws.foldl readNext (m, b) = (m, b) := by
  induction ws with
  | nil => rfl
  | cons w' ws ih =>
    rw [List.mem_cons, not_or] at hws
    have hread : readNext (m, b) w' = (m, b) := by simp [readNext, h.wordRead_other (Ne.symm hws.1)]
    rw [List.foldl_cons, hread, ih hws.2]

/-- Reads of distinct words, the bad one among them, leave what its read leaves. -/
theorem Engine.OnlyBad.wordsRead (h : m.OnlyBad w) {ws : List Nat} (hmem : w ∈ ws) (hnodup : ws.Nodup) : (m.wordsRead ws).1 = m.badRead w := by
  obtain ⟨l, k, rfl⟩ := List.append_of_mem hmem
  have hw : w ∉ l ∧ w ∉ k := by
    rw [List.nodup_append, List.nodup_cons] at hnodup
    obtain ⟨-, ⟨hk, -⟩, hdisj⟩ := hnodup
    exact ⟨fun hl => hdisj w hl w List.mem_cons_self rfl, hk⟩
  have herrs : m.tank.errs.isEmpty = false := by
    by_contra hempty
    have hgood : m.wordError w = .good := by
      rw [Bool.not_eq_false, List.isEmpty_iff] at hempty
      simp [Engine.wordError, hempty, mapFind]
    exact absurd (hgood.symm.trans ((h w).trans (if_pos rfl))) (by decide)
  have hbad : readNext (m, false) w = (m.badRead w, false || (m.wordRead w .good).2 == .double) := Prod.ext h.wordRead_bad rfl
  rw [Engine.wordsRead_of_errs herrs, List.foldl_append, h.foldl_others hw.1, List.foldl_cons, hbad, h.badRead.foldl_others hw.2]

/-- No word is listed twice. -/
theorem nodup_eraseDups (l : List Nat) : l.eraseDups.Nodup := by
  induction hn : l.length using Nat.strong_induction_on generalizing l with
  | _ n ih =>
    cases l with
    | nil => exact List.nodup_nil
    | cons a l =>
      have hshort : (l.filter fun b => !b == a).length < n := by
        have hle := List.length_filter_le (fun b => !b == a) l
        rw [List.length_cons] at hn
        omega
      rw [List.eraseDups_cons, List.nodup_cons]
      refine ⟨fun hmem => ?_, ih _ hshort _ rfl⟩
      simp [List.mem_eraseDups] at hmem

end Sys2Proof.Machine
end

section
/-! SUPPORT. A step whose entry's word is uncorrectable goes on, and a cause of settling names the tank (R145). -/
namespace Sys2Proof.Machine
open Sys2Proof

variable {m : Engine} {w : Nat}

/-- The error is counted, told, and its place recorded (R322). -/
theorem Engine.tankEcc_double_shows (m : Engine) (tank word : Nat) :
    (m.tankEcc .double tank word).reg (R.TANK_UE tank) = satAdd (m.reg (R.TANK_UE tank)) 1 ∧ (m.tankEcc .double tank word).hasBit R.E_TANK_UE = true ∧
      (m.tankEcc .double tank word).reg R.TANK_LASTUE = BitVec.ofNat 32 (word + tank * 2 ^ 16) := by
  have hlast : R.TANK_UE tank ≠ R.TANK_LASTUE := by
    unfold R.TANK_UE R.TANK_LASTUE
    omega
  have hstatus : R.TANK_UE tank ≠ statusAddr R.E_TANK_UE.page := by
    unfold R.TANK_UE
    have hpage : statusAddr R.E_TANK_UE.page = 0xC0010 := rfl
    omega
  unfold Engine.tankEcc
  refine ⟨?_, Engine.hasBit_status_same _ R.E_TANK_UE (by decide), ?_⟩
  · rw [Engine.reg_logNow, Engine.reg_status_ne _ _ hstatus, Engine.reg_setReg_ne _ _ hlast]
    exact m.reg_addSat_same _ 1
  · rw [Engine.reg_logNow, Engine.reg_status_ne _ _ (by decide), Engine.reg_setReg_same]

theorem Engine.reg_badRead (m : Engine) (w a : Nat) : (m.badRead w).reg a = (m.tankEcc .double (w / 32768) (w % 32768)).reg a := rfl

theorem Engine.reg_badRead_below (m : Engine) {w a : Nat} (hw : w / 32768 < 64) (ha : a < 0xC0000) : (m.badRead w).reg a = m.reg a :=
  Engine.reg_tankEcc_off (l := tankEccRegs) (fun hmem => Nat.not_le.2 ha (tankEccRegs_ge hmem)) (fun _ h => h) m .double hw _

/-- A cause of settling that follows a draw of a free value changes no register. -/
theorem Engine.drawn_cause_shows (m : Engine) (code data page : Nat) :
    (∀ a, (m.draw.2.cause code data page).reg a = m.reg a) ∧ (⟨code, data, page⟩ : Cause) ∈ (m.draw.2.cause code data page).causes :=
  ⟨fun _ => rfl, List.mem_append_right _ List.mem_cons_self⟩

/-- The one uncorrectable word that a step reads is a cause of settling, named by its tank of the set (R145). -/
theorem Engine.OnlyBad.tablesRead (h : m.OnlyBad w) {ws : List Nat} (hmem : w ∈ ws) (hread : m.tankReadable (w / 32768) = true) (s : Bool) :
    (∀ a, (m.tablesRead s true ws).reg a = (m.badRead w).reg a) ∧
      (⟨3, bitsOf (w / 32768 - m.setBaseTank s) 0 4 + 16 * s.toNat, 0xA0⟩ : Cause) ∈ (m.tablesRead s true ws).causes := by
  have hword : w ∈ m.wordsOf ws := List.mem_eraseDups.2 (List.mem_filter.2 ⟨hmem, hread⟩)
  have hreads : (m.wordsRead (m.wordsOf ws)).1 = m.badRead w := h.wordsRead hword (nodup_eraseDups _)
  have hbad : (m.wordsOf ws).find? (fun w' => m.wordError w' == .double) = some w := by
    cases hfind : (m.wordsOf ws).find? (fun w' => m.wordError w' == .double) with
    | none =>
      have hnot := List.find?_eq_none.1 hfind w hword
      simp [h w] at hnot
    | some x =>
      have hx := List.find?_some hfind
      rw [h x] at hx
      split at hx
      · next heq => rw [heq]
      · exact nomatch hx
  have hbase : (m.badRead w).draw.2.setBaseTank s = m.setBaseTank s := Engine.setBaseTank_of_reg (m.reg_badRead_below (Engine.tankReadable_lt hread) (by decide)) s
  have heq : m.tablesRead s true ws = (m.badRead w).draw.2.cause 3 (bitsOf (w / 32768 - m.setBaseTank s) 0 4 + 16 * s.toNat) 0xA0 := by
    unfold Engine.tablesRead
    dsimp only
    rw [← Engine.wordsOf, hbad, hreads]
    dsimp only
    rw [hbase, if_pos rfl]
  rw [heq]
  exact (m.badRead w).drawn_cause_shows _ _ _

theorem Engine.tank_withPath (m : Engine) (q : Path) : ({ m with path := q } : Engine).tank = m.tank := rfl

variable {t : Memory} {e : PipeEntry}

/-- Beside the step's own registers, its lookups and its words change no register. -/
theorem Engine.reg_stepOut {ecc : Ecc} {a : Nat} (ha : a ∉ sluiceRegs (m.confluence t e).e (m.fld R.SLU_STATUS_LEVEL)) : (m.stepOut t e ecc).m.reg a = m.reg a := by
  obtain ⟨q, hq, -⟩ := m.stepOut_eq t e ecc
  have hstatus : a ≠ R.SLU_STATUS := fun heq => ha (heq ▸ List.mem_cons_self)
  calc (m.stepOut t e ecc).m.reg a = (m.stepLeft t e ecc).reg a := (congrArg (Engine.reg · a) hq).trans (Engine.reg_withPath _ q a)
    _ = (m.stepMeets t e ecc).reg a := (m.stepPart_stepLeft t e ecc).reg a ha
    _ = m.reg a := m.reg_stepMeets t e ecc hstatus

/-- Where no error stood, the entry's word alone holds one after the lookup. -/
theorem Engine.onlyBad_stepOut (herrs : m.tank.errs = []) : (m.stepOut t e .double).m.OnlyBad (m.stepWord t e) := by
  intro w'
  obtain ⟨q, hq, -⟩ := m.stepOut_eq t e .double
  have htank : (m.stepOut t e .double).m.tank = (m.stepMeets t e .double).tank := 
    ((congrArg Engine.tank hq).trans (Engine.tank_withPath _ q)).trans (m.stepPart_stepLeft t e .double).tank
  have hgood : (m.stepBegun t e true).wordError w' = .good := by
    unfold Engine.wordError
    rw [(m.stepPart_stepBegun t e true).tank, herrs]
    rfl
  have hmeets : (m.stepMeets t e .double).wordError w' = if w' = m.stepWord t e then .double else .good := (Engine.wordError_setWordError _ _ _ _).trans (by rw [hgood])
  have hsame : (m.stepOut t e .double).m.wordError w' = (m.stepMeets t e .double).wordError w' := by
    unfold Engine.wordError
    rw [htank]
  exact hsame.trans hmeets

/-- The word of the entry: its tank of the set, and its place there (R126). -/
theorem Engine.stepWord_parts (m : Engine) (t : Memory) (e : PipeEntry) :
    m.stepWord t e / 32768 = m.setBaseTank (m.setAt e.phys) + 6 + (m.confluence t e).e / 64 ∧
      m.stepWord t e % 32768 = ((m.confluence t e).e % 64 * 1024 + m.fld R.SLU_STATUS_LEVEL) / 2 := by
  have hbase : (m.stepBegun t e true).setBaseTank (m.setAt e.phys) = m.setBaseTank (m.setAt e.phys) :=
    Engine.setBaseTank_of_reg ((m.stepPart_stepBegun t e true).reg _ (by decide)) _
  have hcls := m.confluence_lt t e
  have hlevel := m.level_lt
  unfold Engine.stepWord Engine.sluAddr Engine.setAddr tankSize
  rw [hbase, (m.level_stepBegun t e true).1]
  constructor <;> omega

/-- The step with an uncorrectable word: counted, told, recorded, and a cause of settling (R145, R322). -/
theorem Engine.stepOnce_double_shows {k : Nat} (hdue : m.stepDue = some e) (hsteps : m.stepsFor e.phys = true) (herrs : m.tank.errs = [])
    (hk : k = m.setBaseTank (m.setAt e.phys) + 6 + (m.confluence t e).e / 64) (hread : m.tankReadable k = true) :
    (⟨3, 6 + (m.confluence t e).e / 64 + 16 * (m.setAt e.phys).toNat, 0xA0⟩ : Cause) ∈ (m.stepOnce t .double).causes ∧
      (m.stepOnce t .double).reg (R.TANK_UE k) = satAdd (m.reg (R.TANK_UE k)) 1 ∧ (m.stepOnce t .double).hasBit R.E_TANK_UE = true ∧
      (m.stepOnce t .double).reg R.TANK_LASTUE = BitVec.ofNat 32 (((m.confluence t e).e % 64 * 1024 + m.fld R.SLU_STATUS_LEVEL) / 2 + k * 2 ^ 16) := by
  obtain ⟨htank, hplace⟩ := m.stepWord_parts t e
  rw [← hk] at htank
  have hcls := m.confluence_lt t e
  have hlook := lookRegs_notMem hcls m.level_lt
  have hread' : (m.stepOut t e .double).m.tankReadable (m.stepWord t e / 32768) = true := by
    rw [htank, Engine.tankReadable_of_reg fun a ha => Engine.reg_stepOut (hlook a ha), hread]
  have hbase : (m.stepOut t e .double).m.setBaseTank (m.setAt e.phys) = m.setBaseTank (m.setAt e.phys) := Engine.setBaseTank_of_reg (Engine.reg_stepOut (hlook _ (by decide))) _
  have hword : m.stepWord t e ∈ m.stepWords t e .double := List.mem_append_right _ List.mem_cons_self
  obtain ⟨hregs, hcause⟩ := (Engine.onlyBad_stepOut herrs).tablesRead hword hread' (m.setAt e.phys)
  have hover := Engine.stepOver_taken (t := t) .double hdue hsteps
  have hreg : ∀ a, (m.stepOnce t .double).reg a = ((m.stepOut t e .double).m.tankEcc .double k (m.stepWord t e % 32768)).reg a := fun a => by
    rw [hover.reg, Engine.stepRead, hregs, Engine.reg_badRead, htank]
  have hue : (m.stepOut t e .double).m.reg (R.TANK_UE k) = m.reg (R.TANK_UE k) :=
    Engine.reg_stepOut fun hmem => Nat.not_le.2 (sluiceRegs_lt hcls m.level_lt hmem) (tankEccRegs_ge (tankUe_mem (Engine.tankReadable_lt hread)))
  obtain ⟨hcount, hbit, hlast⟩ := (m.stepOut t e .double).m.tankEcc_double_shows k (m.stepWord t e % 32768)
  refine ⟨?_, (hreg _).trans (hcount.trans (by rw [hue])), (Engine.hasBit_of_reg (hreg _)).trans hbit, (hreg _).trans (hlast.trans (by rw [hplace]))⟩
  have hindex : bitsOf (m.stepWord t e / 32768 - (m.stepOut t e .double).m.setBaseTank (m.setAt e.phys)) 0 4 = 6 + (m.confluence t e).e / 64 := by
    rw [hbase, htank, hk]
    simp only [bitsOf, Nat.shiftRight_zero]
    omega
  rw [hindex] at hcause
  rw [hover.causes, Engine.stepRead]
  exact hcause

end Sys2Proof.Machine
end

section
/-! O24: the sluice step of the oldest waiting sample cycle (R132, R133, R135 to R138, R143, R145). -/
namespace Sys2Proof.Machine
open Sys2Proof

/-- Settles O24: a step taken is read off its chain of parts, one not taken off its jump, and an uncorrectable word off the one read that meets it. -/
theorem sluiceStep : Obligations.SluiceStep := by
  unfold Obligations.SluiceStep
  refine ⟨fun s e ecc c l ent hlive hdue hsteps hecc hc hl hent => State.ends_live (·.stepOnce s.chip.tanks ecc) hlive ?taken,
    fun s e ecc hlive hdue hsteps hjump => State.ends_live (·.stepOnce s.chip.tanks ecc) hlive ?idle,
    fun s e ecc j hlive hdue hsteps hjump => State.ends_live (·.stepOnce s.chip.tanks ecc) hlive ?jump,
    fun s e k hlive hdue hsteps herrs hk hread => State.ends_live (·.stepOnce s.chip.tanks .double) hlive ?double,
    fun s ecc hlive hnone => State.live_same (f := (·.stepOnce s.chip.tanks ecc)) hlive (Engine.stepOnce_none ecc hnone)⟩
  case taken =>
    subst hc hl hent
    obtain ⟨hlevel, hstepping, hdwell⟩ := Engine.level_taken (t := s.chip.tanks) hdue hsteps hecc
    obtain ⟨hA, hB⟩ := Engine.counters_taken (t := s.chip.tanks) hdue hsteps hecc
    exact ⟨hlevel, hstepping, hA, hB, hdwell, Engine.context_taken hdue hsteps hecc, Engine.trig_taken hdue hsteps hecc, Engine.noTrig_taken hdue hsteps hecc,
      Engine.irq_taken hdue hsteps hecc, Engine.gateOrders_taken hdue hsteps hecc, (Engine.stepOver_taken ecc hdue hsteps).stepped,
      State.kept_withEng (fun a ha => Engine.reg_taken_off hdue hsteps ha) (s.eng.tb_stepOnce _ ecc)⟩
  case idle =>
    obtain ⟨hstepping, hlevel, hreg⟩ := Engine.stepOnce_idle_shows (t := s.chip.tanks) (ecc := ecc) hdue hsteps hjump
    exact ⟨(Engine.stepOver_idle ecc hdue hsteps).stepped, hstepping, hlevel, State.kept_withEng hreg (s.eng.tb_stepOnce _ ecc)⟩
  case jump =>
    obtain ⟨hstepping, hlevel, hdwell, hbit, hA, hB, hctx, hreg⟩ := Engine.stepOnce_jump_shows (t := s.chip.tanks) (ecc := ecc) hdue hsteps hjump
    refine ⟨(Engine.stepOver_idle ecc hdue hsteps).stepped, hstepping, hlevel, hdwell, hbit, hA, hB, hctx, State.kept_withEng (fun a ha => hreg a fun hmem => ha ?_) (s.eng.tb_stepOnce _ ecc)⟩
    simp only [clearRegs, jumpRegs, levelRegs, contextRegs, List.mem_append, List.mem_cons, List.not_mem_nil, or_false] at hmem ⊢
    tauto
  case double =>
    obtain ⟨hcause, hcount, hbit, hlast⟩ := Engine.stepOnce_double_shows (t := s.chip.tanks) hdue hsteps herrs hk hread
    exact ⟨hcause, hcount, hbit, hlast, (Engine.stepOver_taken .double hdue hsteps).stepped, s.eng.tb_stepOnce _ _, s.memKept_withEng _⟩

end Sys2Proof.Machine
end

section
/-! SUPPORT. Line maps, and levels forced on gate lines (R188, R194): what is read of them bit by bit. -/
namespace Sys2Proof.Machine
open Sys2Proof

/-- The number whose bits below n are a function's. -/
theorem testBit_foldl_bits (f : Nat → Bool) (n : Nat) :
    (List.range n).foldl (fun a i => a + (f i).toNat * 2 ^ i) 0 < 2 ^ n ∧
      ∀ j, ((List.range n).foldl (fun a i => a + (f i).toNat * 2 ^ i) 0).testBit j = (decide (j < n) && f j) := by
  induction n with
  | zero => simp
  | succ n ih =>
    obtain ⟨hlt, hbit⟩ := ih
    rw [List.range_succ, List.foldl_append]
    simp only [List.foldl_cons, List.foldl_nil]
    generalize (List.range n).foldl (fun a i => a + (f i).toNat * 2 ^ i) 0 = x at *
    have hb : (f n).toNat ≤ 1 := Bool.toNat_le _
    have hpow : (f n).toNat * 2 ^ n ≤ 1 * 2 ^ n := Nat.mul_le_mul_right _ hb
    refine ⟨by rw [Nat.pow_succ]; omega, fun j => ?_⟩
    rw [Nat.add_comm, Nat.mul_comm, Nat.testBit_two_pow_mul_add _ hlt]
    obtain hj | rfl | hj : j < n ∨ j = n ∨ n < j := by omega
    · simp [hj, hbit j, Nat.lt_succ_of_lt hj]
    · cases f j <;> simp
    · have hhigh : (f n).toNat.testBit (j - n) = false := Nat.testBit_lt_two_pow (hb.trans_lt (Nat.one_lt_two_pow (by omega)))
      have hge : ¬ j < n + 1 := by omega
      simp [Nat.not_lt.2 hj.le, hhigh, hge]

/-- A line map built bit by bit. -/
theorem lineBit_mkLines (f : Nat → Bool) {i : Nat} (hi : i < 48) : lineBit (mkLines f) i = f i := by
  unfold lineBit mkLines
  rw [BitVec.getLsbD_ofNat, (testBit_foldl_bits f 48).2 i]
  simp [hi]

/-- The map of one line. -/
theorem lineBit_one {i j : Nat} (hj : j < 48) : lineBit (BitVec.ofNat 48 (2 ^ i)) j = decide (j = i) := by
  unfold lineBit
  rw [BitVec.getLsbD_ofNat, Nat.testBit_two_pow]
  simp [hj, eq_comm]

theorem lineBit_or (a b : Lines) (i : Nat) : lineBit (a ||| b) i = (lineBit a i || lineBit b i) := BitVec.getLsbD_or

/-- A line's level after levels were forced on one line. -/
theorem Engine.level_gateForce (m : Engine) {i j : Nat} (hj : j < 48) (value : Lines) :
    lineBit (m.gateForce (BitVec.ofNat 48 (2 ^ i)) value).gate.level j = if j = i then lineBit value j else lineBit m.gate.level j := by
  have hone : (BitVec.ofNat 48 (2 ^ i)).getLsbD j = decide (j = i) := lineBit_one hj
  simp only [Engine.gateForce, Engine.setGate, lineBit, BitVec.getLsbD_or, BitVec.getLsbD_and, BitVec.getLsbD_not, hone]
  by_cases h : j = i
  · simp [h]
  · simp [h, hj]

end Sys2Proof.Machine
end

section
/-! SUPPORT. Writes of the gate lines and of the gate LUTs, held while the engine is armed (R82, R188, R190). -/
namespace Sys2Proof.Machine
open Sys2Proof

variable {m : Engine} {c : Chip} {h : RegHit} {a : Nat}

/-- A register of the gate lines, or one of the gate LUTs. -/
def GateConfig (a : Nat) : Prop := a / 0x1000 = 0xA3 ∧ 0x100 ≤ a % 0x1000 ∧ a % 0x1000 < 0x280

theorem gateConfig_line (i : Fin 48) : GateConfig (R.GATE_LINE i) := by unfold GateConfig R.GATE_LINE; omega
theorem gateConfig_sel (k : Fin 16) : GateConfig (R.GATE_GLUT_SEL k) := by unfold GateConfig R.GATE_GLUT_SEL; omega
theorem gateConfig_tt (k : Fin 16) : GateConfig (R.GATE_GLUT_TT k) := by unfold GateConfig R.GATE_GLUT_TT; omega

theorem Engine.isHeld_gateConfig (m : Engine) (ha : GateConfig a) : m.isHeld a = true := by
  obtain ⟨hpage, hlo, hhi⟩ := ha
  simp [Engine.isHeld, hpage, pageOf, offIn, hlo, hhi]

/-- While the engine is disarmed and nothing is stored, such a register takes its value at once. -/
theorem Chip.writeAt_gateConfig (v : Word) (ha : GateConfig a) (harmed : c.eng.armed = false) (hactive : c.eng.store.active = false) :
    c.writeAt h a v = { c with eng := c.eng.takeConfig a v } := by
  have hru : ruHeld a = false := by simp [ruHeld, ha.1, pageOf]
  simp [Chip.writeAt, c.eng.isHeld_gateConfig ha, hru, harmed, hactive, Engine.noteWrite]

/-- A register of a gate LUT takes its writable bits, and nothing else comes of it. -/
theorem Engine.takeConfig_glut (m : Engine) (v : Word) (ha : GateConfig a) (hlut : 0x200 ≤ a % 0x1000) : m.takeConfig a v = m.written a (mergeRw a (m.reg a) v) := by
  obtain ⟨hpage, -, -⟩ := ha
  have hline : offIn a 0x100 0x1C0 = false := by
    have : ¬ a % 0x1000 < 0x1C0 := by omega
    simp [offIn, this]
  simp [Engine.takeConfig, hpage, pageOf, hline, Engine.written]

/-- A line's register takes its writable bits, and the line follows. -/
theorem Engine.takeConfig_line (m : Engine) (i : Fin 48) (v : Word) :
    m.takeConfig (R.GATE_LINE i) v = (m.written (R.GATE_LINE i) (mergeRw (R.GATE_LINE i) (m.reg (R.GATE_LINE i)) v)).lineWritten i (m.gateOutput i) := by
  obtain ⟨hpage, hlo, -⟩ := gateConfig_line i
  have hline : offIn (R.GATE_LINE i) 0x100 0x1C0 = true := by
    have : R.GATE_LINE i % 0x1000 < 0x1C0 := by unfold R.GATE_LINE; omega
    simp [offIn, hlo, this]
  have hindex : (R.GATE_LINE i % 0x1000 - 0x100) / 4 = i := by unfold R.GATE_LINE; omega
  simp [Engine.takeConfig, hpage, pageOf, hline, hindex, Engine.written]

/-- A write of a gate LUT's register. -/
theorem State.ends_glutWrite {s : State} {port : Port} {v : Word} (ha : GateConfig a) (hlut : 0x200 ≤ a % 0x1000) (harmed : s.eng.armed = false) (hactive : s.eng.store.active = false)
    (hacc : s.accepts port a v = true) : Ends (s.write port a v) (fun t => t.eng.reg a = mergeRw a (s.eng.reg a) v ∧ t.eng.answer = okAnswer port ∧ Kept s t [a]) := by
  obtain ⟨-, -, -, -, -, -, -, h, hreg, -, -⟩ := State.accepts_inv hacc
  refine State.ends_write hacc hreg (Chip.writeAt_gateConfig v ha harmed hactive) ?_
  rw [s.eng.takeConfig_glut v ha hlut]
  exact ⟨s.eng.reg_written_same a _, rfl, State.kept_withEng (fun b hb => Engine.reg_written_off hb s.eng _ (List.mem_singleton.2 rfl)) rfl⟩

/-! A line follows its register. -/

@[simp] theorem Engine.reg_lineWritten (m : Engine) (i : Nat) (b : Bool) (r : Nat) : (m.lineWritten i b).reg r = m.reg r := by
  unfold Engine.lineWritten
  dsimp only
  split_ifs <;> rfl

@[simp] theorem Engine.lineWritten_tb (m : Engine) (i : Nat) (b : Bool) : (m.lineWritten i b).tb = m.tb := (within_lineWritten (l := []) i b).2 (.refl _ m) |>.tb

theorem Engine.gateOutput_lineWritten (m : Engine) (i j : Nat) (b : Bool) : (m.lineWritten i b).gateOutput j = m.gateOutput j := by
  simp only [Engine.gateOutput, Engine.fld_of_reg (m.reg_lineWritten i b _)]

theorem Engine.written_lineWritten (m : Engine) {i : Nat} (hi : i < 48) (b : Bool) : lineBit (m.lineWritten i b).gate.written i = true := by
  have hone : lineBit (m.gate.written ||| BitVec.ofNat 48 (2 ^ i)) i = true := by rw [lineBit_or, lineBit_one hi]; simp
  unfold Engine.lineWritten
  dsimp only
  split_ifs <;> exact hone

/-- A line that becomes an output starts at INITV, one that stays an output keeps its level, and one that is none drives no 1. -/
theorem Engine.level_lineWritten (m : Engine) (i : Nat) {j : Nat} (hj : j < 48) (b : Bool) :
    lineBit (m.lineWritten i b).gate.level j = if j = i ∧ ¬(m.gateOutput i = true ∧ b = true) then m.gateOutput i && m.flag (R.GATE_LINE_INITV i) else lineBit m.gate.level j := by
  unfold Engine.lineWritten
  extract_lets bit gate m1
  have hout : m1.gateOutput i = m.gateOutput i := rfl
  have hinit : lineBit m1.gateInit j = m.flag (R.GATE_LINE_INITV j) := lineBit_mkLines _ hj
  have hforce : ∀ value, lineBit (m1.gateForce bit value).gate.level j = if j = i then lineBit value j else lineBit m.gate.level j := m1.level_gateForce hj
  have hzero : lineBit 0#48 j = false := BitVec.getLsbD_zero
  have hlevel : m1.gate.level = m.gate.level := rfl
  clear_value m1
  rw [hout]
  by_cases hi : j = i
  · subst hi
    cases m.gateOutput j <;> cases b <;> simp [hforce, hinit, hzero, hlevel]
  · cases m.gateOutput i <;> cases b <;> simp [hforce, hlevel, hi]

end Sys2Proof.Machine
end

section
/-! SUPPORT. A write of BANKCFG (R187): each bank is judged on its own. -/
namespace Sys2Proof.Machine
open Sys2Proof

/-- Does the module drive a line of a bank: an output, or a line held at a driven safe level? -/
def Engine.bankDriven (m : Engine) (b : Nat) : Bool :=
  (List.range 12).any (fun k => m.gateOutput (12 * b + k) || (m.gateHeld (12 * b + k) && decide (2 ≤ m.safeLevel (12 * b + k))))

/-- The registers that a judgement of the banks may change. -/
def bankRegs : List Nat := [R.GATE_BANKCFG, R.GATE_STATUS, statusAddr 0xA3]

/-- The judgement of one bank. -/
def Engine.bankJudged (new old : Word) (b : Nat) (m : Engine) : Engine :=
  let rej := m.fld R.GATE_STATUS_VSEL_REJ
  if vselOf new b ≠ vselOf old b ∧ m.bankDriven b then
    ((m.setReg R.GATE_BANKCFG (putBits (m.reg R.GATE_BANKCFG) (2 * b) 2 (vselOf old b))).setFld R.GATE_STATUS_VSEL_REJ (rej ||| 2 ^ b)).status R.E_GATE_VSEL_REJ
  else
    let m := m.setFld R.GATE_STATUS_VSEL_REJ (rej &&& (15 - 2 ^ b))
    if vselOf new b = vselOf old b then m
    else
      let (k, m) := m.draw
      m.setGate { m.gate with vselMove := m.gate.vselMove.filter (fun (v : Nat × Nat) => v.1 != b) ++ [(b, m.cc + min (Config.vselMove k) 120000)] }

theorem Engine.bankcfgWritten_eq (m : Engine) (old : Word) : m.bankcfgWritten old = forEach 4 (Engine.bankJudged (m.reg R.GATE_BANKCFG) old) m := rfl

theorem forEach_succ {α : Type} (k : Nat) (f : Nat → α → α) (x : α) : forEach (k + 1) f x = f k (forEach k f x) := by
  simp [forEach, List.range_succ]

/-- What drives the banks is read from these. -/
theorem Engine.bankDriven_of_reg {m m' : Engine} (hreg : ∀ a, a ∉ bankRegs → m'.reg a = m.reg a) (hwritten : m'.gate.written = m.gate.written) (hhold : m'.gate.damHold = m.gate.damHold)
    {b : Nat} (hb : b < 4) : m'.bankDriven b = m.bankDriven b := by
  unfold Engine.bankDriven
  have hline : ∀ i < 48, m'.reg (R.GATE_LINE i) = m.reg (R.GATE_LINE i) := fun i hi => hreg _ (by
    simp only [bankRegs, List.mem_cons, List.not_mem_nil, or_false, R.GATE_LINE, R.GATE_BANKCFG, R.GATE_STATUS, statusAddr]; omega)
  have hsafe : ∀ i < 48, m'.reg (R.SAFE_LEVEL (i / 16)) = m.reg (R.SAFE_LEVEL (i / 16)) := fun i hi => hreg _ (by
    simp only [bankRegs, List.mem_cons, List.not_mem_nil, or_false, R.SAFE_LEVEL, R.GATE_BANKCFG, R.GATE_STATUS, statusAddr]; omega)
  have hsettled : m'.flag R.SAFE_STATUS_SETTLED = m.flag R.SAFE_STATUS_SETTLED := Engine.flag_of_reg (hreg _ (by decide))
  have hsafe' : ∀ i < 48, m'.safeLevel i = m.safeLevel i := fun i hi => by simp only [Engine.safeLevel, hsafe i hi]
  have hout : ∀ i < 48, m'.gateOutput i = m.gateOutput i := fun i hi => by
    have hmode : m'.fld (R.GATE_LINE_MODE i) = m.fld (R.GATE_LINE_MODE i) := Engine.fld_of_reg (hline i hi)
    simp only [Engine.gateOutput, hmode]
  have hheld : ∀ i, m'.gateHeld i = m.gateHeld i := fun i => by simp only [Engine.gateHeld, hwritten, hsettled, hhold]
  rw [Bool.eq_iff_iff, List.any_eq_true, List.any_eq_true]
  refine exists_congr fun k => and_congr_right fun hk => ?_
  have hi : 12 * b + k < 48 := by have := List.mem_range.1 hk; omega
  rw [hout _ hi, hheld, hsafe' _ hi]

/-- Is a bank's new voltage refused? -/
def Engine.bankRefused (m : Engine) (new old : Word) (b : Nat) : Bool := decide (vselOf new b ≠ vselOf old b) && m.bankDriven b

/-- The first k banks are judged. -/
structure BanksJudged (m0 : Engine) (old : Word) (k : Nat) (m : Engine) : Prop where
  vsel : ∀ b < 4, vselOf (m.reg R.GATE_BANKCFG) b = if b < k ∧ m0.bankRefused (m0.reg R.GATE_BANKCFG) old b then vselOf old b else vselOf (m0.reg R.GATE_BANKCFG) b
  rej : ∀ b < k, (m.fld R.GATE_STATUS_VSEL_REJ).testBit b = m0.bankRefused (m0.reg R.GATE_BANKCFG) old b
  hit : ∀ b < k, m0.bankRefused (m0.reg R.GATE_BANKCFG) old b = true → m.hasBit R.E_GATE_VSEL_REJ = true
  quiet : (∀ b < k, m0.bankRefused (m0.reg R.GATE_BANKCFG) old b = false) → m.reg (statusAddr 0xA3) = m0.reg (statusAddr 0xA3)
  off : ∀ a, a ∉ bankRegs → m.reg a = m0.reg a
  written : m.gate.written = m0.gate.written
  damHold : m.gate.damHold = m0.gate.damHold
  tb : m.tb = m0.tb

theorem testBit_clear_low (x : Nat) {b j : Nat} (hb : b < 4) (hj : j < 4) : (x &&& (15 - 2 ^ b)).testBit j = (x.testBit j && decide (j ≠ b)) := by
  rw [Nat.testBit_and]
  congr 1
  interval_cases b <;> interval_cases j <;> rfl

/-- What is read after one bank was judged. -/
structure BankJudged (m : Engine) (old : Word) (b : Nat) (refused : Bool) (m' : Engine) : Prop where
  cfg : m'.reg R.GATE_BANKCFG = if refused then putBits (m.reg R.GATE_BANKCFG) (2 * b) 2 (vselOf old b) else m.reg R.GATE_BANKCFG
  rej : ∀ j < 4, (m'.fld R.GATE_STATUS_VSEL_REJ).testBit j = if j = b then refused else (m.fld R.GATE_STATUS_VSEL_REJ).testBit j
  hit : m'.hasBit R.E_GATE_VSEL_REJ = (refused || m.hasBit R.E_GATE_VSEL_REJ)
  quiet : refused = false → m'.reg (statusAddr 0xA3) = m.reg (statusAddr 0xA3)
  off : ∀ a, a ∉ bankRegs → m'.reg a = m.reg a
  written : m'.gate.written = m.gate.written
  damHold : m'.gate.damHold = m.gate.damHold
  tb : m'.tb = m.tb

theorem Engine.testBit_vselRej (m : Engine) (x : Nat) {j : Nat} (hj : j < 4) : ((m.setFld R.GATE_STATUS_VSEL_REJ x).fld R.GATE_STATUS_VSEL_REJ).testBit j = x.testBit j := by
  rw [m.fld_setFld_same _ _ (by decide), Nat.testBit_mod_two_pow]
  simp [R.GATE_STATUS_VSEL_REJ, hj]

theorem Engine.bankJudged_shows (m : Engine) (new old : Word) {b : Nat} (hb : b < 4) : BankJudged m old b (m.bankRefused new old b) (Engine.bankJudged new old b m) := by
  cases hcase : m.bankRefused new old b with
  | true =>
    have href : vselOf new b ≠ vselOf old b ∧ m.bankDriven b = true := by simpa [Engine.bankRefused] using hcase
    unfold Engine.bankJudged
    rw [if_pos href]
    refine ⟨?_, fun j hj => ?_, ?_, fun h => Bool.noConfusion h, fun a ha => ?_, congrArg GateState.written (Engine.status_gate _ _), congrArg GateState.damHold (Engine.status_gate _ _), Engine.status_tb _ _⟩
    · simp +decide [Engine.reg_status_ne, Engine.reg_setFld_ne]
    · rw [Engine.fld_status_ne _ _ (by decide), Engine.testBit_vselRej _ _ hj, Nat.testBit_or, Nat.testBit_two_pow]
      by_cases hjb : j = b
      · simp [hjb]
      · simp [hjb, Ne.symm hjb]
    · rw [Engine.hasBit_status_same _ _ (by decide)]; rfl
    · rw [Engine.reg_status_off ha _ (by decide), Engine.reg_setFld_off ha _ _ (by decide), Engine.reg_setReg_off ha _ _ (by decide)]
  | false =>
    have hnot : ¬ (vselOf new b ≠ vselOf old b ∧ m.bankDriven b = true) := by simpa [Engine.bankRefused] using hcase
    have hregs : (Engine.bankJudged new old b m).regs = (m.setFld R.GATE_STATUS_VSEL_REJ (m.fld R.GATE_STATUS_VSEL_REJ &&& (15 - 2 ^ b))).regs ∧
        (Engine.bankJudged new old b m).gate.written = m.gate.written ∧ (Engine.bankJudged new old b m).gate.damHold = m.gate.damHold ∧ (Engine.bankJudged new old b m).tb = m.tb := by
      unfold Engine.bankJudged
      rw [if_neg hnot]
      dsimp only
      split_ifs <;> exact ⟨rfl, rfl, rfl, rfl⟩
    obtain ⟨hregs, hwritten, hdam, htb⟩ := hregs
    have hreg : ∀ a, (Engine.bankJudged new old b m).reg a = (m.setFld R.GATE_STATUS_VSEL_REJ (m.fld R.GATE_STATUS_VSEL_REJ &&& (15 - 2 ^ b))).reg a := fun a => by unfold Engine.reg; rw [hregs]
    refine ⟨?_, fun j hj => ?_, ?_, fun _ => ?_, fun a ha => ?_, hwritten, hdam, htb⟩
    · exact (hreg _).trans (m.reg_setReg_ne _ (by decide))
    · rw [Engine.fld_of_reg (hreg _), Engine.testBit_vselRej _ _ hj, testBit_clear_low _ hb hj]
      by_cases hj : j = b <;> simp [hj]
    · exact Engine.hasBit_of_reg ((hreg _).trans (m.reg_setReg_ne _ (by decide)))
    · exact (hreg _).trans (m.reg_setReg_ne _ (by decide))
    · rw [hreg, Engine.reg_setFld_off ha _ _ (by decide)]

/-- One bank more is judged. -/
theorem BanksJudged.next {m0 m : Engine} {old : Word} {k : Nat} (hk : k < 4) (h : BanksJudged m0 old k m) :
    BanksJudged m0 old (k + 1) (Engine.bankJudged (m0.reg R.GATE_BANKCFG) old k m) := by
  obtain ⟨hvsel, hrej, hhit, hquiet, hoff, hwritten, hdam, htb⟩ := h
  have href : m.bankRefused (m0.reg R.GATE_BANKCFG) old k = m0.bankRefused (m0.reg R.GATE_BANKCFG) old k := by
    unfold Engine.bankRefused; rw [Engine.bankDriven_of_reg hoff hwritten hdam hk]
  obtain ⟨hcfg', hrej', hhit', hquiet', hoff', hwritten', hdam', htb'⟩ := href ▸ m.bankJudged_shows (m0.reg R.GATE_BANKCFG) old hk
  refine ⟨fun b hb => ?_, fun b hb => ?_, fun b hb hr => ?_, fun hr => ?_, fun a ha => (hoff' a ha).trans (hoff a ha), hwritten'.trans hwritten, hdam'.trans hdam, htb'.trans htb⟩
  · have hold : vselOf old k < 4 := Nat.mod_lt _ (by decide)
    have hput : vselOf (putBits (m.reg R.GATE_BANKCFG) (2 * k) 2 (vselOf old k)) b = if b = k then vselOf old k else vselOf (m.reg R.GATE_BANKCFG) b := by
      by_cases hbk : b = k
      · subst hbk; rw [if_pos rfl]; exact (bitsOf_putBits _ _ _ _ (by omega)).trans (Nat.mod_eq_of_lt hold)
      · rw [if_neg hbk]; exact bitsOf_putBits_disjoint _ _ _ _ _ _ (by omega)
    rw [hcfg']
    obtain hbk | rfl | hbk : b < k ∨ b = k ∨ k < b := by omega
    · have hne : b ≠ k := by omega
      have hlt : b < k + 1 := by omega
      split_ifs <;> simp_all
    · cases hr : m0.bankRefused (m0.reg R.GATE_BANKCFG) old b <;> simp [hput, hvsel b hb]
    · have hne : b ≠ k := by omega
      have hge : ¬ b < k + 1 := by omega
      have hge' : ¬ b < k := by omega
      split_ifs <;> simp_all
  · rw [hrej' b (by omega)]
    split_ifs with hbk
    · rw [hbk]
    · exact hrej b (by omega)
  · rw [hhit', Bool.or_eq_true]
    obtain hbk | rfl : b < k ∨ b = k := by omega
    · exact .inr (hhit b hbk hr)
    · exact .inl hr
  · exact (hquiet' (hr k (by omega))).trans (hquiet fun b hb => hr b (by omega))

theorem Engine.banksJudged (m : Engine) (old : Word) {k : Nat} (hk : k ≤ 4) : BanksJudged m old k (forEach k (Engine.bankJudged (m.reg R.GATE_BANKCFG) old) m) := by
  induction k with
  | zero => exact ⟨by simp [forEach], by simp, by simp, fun _ => rfl, fun _ _ => rfl, rfl, rfl, rfl⟩
  | succ k ih => rw [forEach_succ]; exact (ih (by omega)).next (by omega)

end Sys2Proof.Machine
end

section
/-! GateWrites: gate line, LUT and bank voltage writes (R187, R188). -/
namespace Sys2Proof.Machine
open Sys2Proof

def bankcfgHit : RegHit := ⟨.gateB, 0, 0xA3, 0x40, { off := 0x40, reset := 0xFF, rw := 0xFF }⟩

theorem decodeReg_bankcfg : decodeReg R.GATE_BANKCFG = some bankcfgHit := by decide

theorem Chip.writeAt_bankcfg (c : Chip) (v : Sys2Proof.Word) :
    c.writeAt bankcfgHit R.GATE_BANKCFG v = { c with eng := (c.eng.storeFields bankcfgHit R.GATE_BANKCFG v).bankcfgWritten (c.eng.reg R.GATE_BANKCFG) } := rfl

/-- All of a bank's voltage code may be written. -/
theorem Engine.vselOf_storeFields (m : Engine) (v : Sys2Proof.Word) {b : Nat} (hb : b < 4) : vselOf ((m.storeFields bankcfgHit R.GATE_BANKCFG v).reg R.GATE_BANKCFG) b = vselOf v b := by
  refine (congrArg (vselOf · b) (m.reg_storeFields_same bankcfgHit R.GATE_BANKCFG v)).trans (bitsOf_merge _ _ _ _ _ fun i hi => ?_)
  interval_cases b <;> interval_cases i <;> rfl

/-- MODE and INITV of a line may be written. -/
theorem bitAt_mergeRw_initv (i : Fin 48) (old v : Sys2Proof.Word) : bitAt (mergeRw (R.GATE_LINE i) old v).toNat 3 = bitAt v.toNat 3 := by
  have hrw : (decodeReg (R.GATE_LINE i % 0x100000)).map (·.row.rw) = some 0xF0F := by revert i; decide
  unfold mergeRw
  cases hdecode : decodeReg (R.GATE_LINE i % 0x100000) with
  | none => simp [hdecode] at hrw
  | some h =>
    have hmask : h.row.rw = 0xF0F := by simpa [hdecode] using hrw
    have hbit : Nat.testBit 0xF0F 3 = true := by decide
    have hrest : Nat.testBit 0xFFFFF0F0 3 = false := by decide
    simp [hmask, bitAt, hbit, hrest]

/-- A flag is its bit of its register. -/
theorem Engine.flag_bit (m : Engine) {f : Field} (hw : f.width = 1) : m.flag f = bitAt (m.reg f.addr).toNat f.lo := by
  rw [bitAt, Nat.testBit_eq_decide_div_mod_eq, ← Nat.shiftRight_eq_div_pow]
  unfold Engine.flag Engine.fld bitsOf
  rw [hw]
  rfl

/-- What a write of BANKCFG leaves. -/
theorem Engine.bankcfg_shows (m : Engine) (v : Sys2Proof.Word) :
    BanksJudged (m.storeFields bankcfgHit R.GATE_BANKCFG v) (m.reg R.GATE_BANKCFG) 4 ((m.storeFields bankcfgHit R.GATE_BANKCFG v).bankcfgWritten (m.reg R.GATE_BANKCFG)) :=
  (m.storeFields bankcfgHit R.GATE_BANKCFG v).banksJudged (m.reg R.GATE_BANKCFG) le_rfl

/-- The register's own store changes nothing that drives a bank. -/
theorem Engine.bankDriven_stored (m : Engine) (v : Sys2Proof.Word) {b : Nat} (hb : b < 4) : (m.storeFields bankcfgHit R.GATE_BANKCFG v).bankDriven b = m.bankDriven b :=
  Engine.bankDriven_of_reg (fun _ ha => m.reg_storeFields_ne bankcfgHit v fun e => ha (e ▸ List.mem_cons_self)) rfl rfl hb

theorem Engine.bankRefused_stored (m : Engine) (v old : Sys2Proof.Word) {b : Nat} (hb : b < 4) :
    (m.storeFields bankcfgHit R.GATE_BANKCFG v).bankRefused ((m.storeFields bankcfgHit R.GATE_BANKCFG v).reg R.GATE_BANKCFG) old b = (decide (vselOf v b ≠ vselOf old b) && m.bankDriven b) := by
  unfold Engine.bankRefused
  rw [m.vselOf_storeFields v hb, m.bankDriven_stored v hb]

/-- Settles O32: a line's register brings its line along, and each bank of BANKCFG is judged by the lines that it drives. -/
theorem gateWrites : Obligations.GateWrites := by
  unfold Obligations.GateWrites
  refine ⟨fun s port i v harmed hactive hacc => ?line, fun s port k v harmed hactive hacc => State.ends_glutWrite (gateConfig_sel k) ?sel harmed hactive hacc,
    fun s port k v harmed hactive hacc => State.ends_glutWrite (gateConfig_tt k) ?tt harmed hactive hacc,
    fun s port v hacc => State.ends_write hacc decodeReg_bankcfg (s.chip.writeAt_bankcfg v) ?bank,
    fun s port v hacc hidle => State.ends_write hacc decodeReg_bankcfg (s.chip.writeAt_bankcfg v) ?bankIdle⟩
  case line =>
    obtain ⟨-, -, -, -, -, -, -, h, hreg, -, -⟩ := State.accepts_inv hacc
    refine State.ends_write hacc hreg (Chip.writeAt_gateConfig v (gateConfig_line i) harmed hactive) ?_
    rw [s.eng.takeConfig_line i v]
    have hlevel := fun j : Fin 48 => (s.eng.written (R.GATE_LINE i) (mergeRw (R.GATE_LINE i) (s.eng.reg (R.GATE_LINE i)) v)).level_lineWritten i j.isLt (s.eng.gateOutput i)
    have hvalue := s.eng.reg_written_same (R.GATE_LINE i) (mergeRw (R.GATE_LINE i) (s.eng.reg (R.GATE_LINE i)) v)
    have hoff := fun b (hb : b ∉ [R.GATE_LINE i]) => Engine.reg_written_off hb s.eng (mergeRw (R.GATE_LINE i) (s.eng.reg (R.GATE_LINE i)) v) (List.mem_singleton.2 rfl)
    have hinit : (s.eng.written (R.GATE_LINE i) (mergeRw (R.GATE_LINE i) (s.eng.reg (R.GATE_LINE i)) v)).flag (R.GATE_LINE_INITV i) = bitAt v.toNat 3 := by
      have hword := (Engine.flag_bit _ (f := R.GATE_LINE_INITV i) rfl).trans (congrArg (fun w : Sys2Proof.Word => bitAt w.toNat 3) hvalue)
      exact hword.trans (bitAt_mergeRw_initv i _ v)
    have htb : (s.eng.written (R.GATE_LINE i) (mergeRw (R.GATE_LINE i) (s.eng.reg (R.GATE_LINE i)) v)).tb = s.eng.tb := rfl
    have hbefore : (s.eng.written (R.GATE_LINE i) (mergeRw (R.GATE_LINE i) (s.eng.reg (R.GATE_LINE i)) v)).gate = s.eng.gate := rfl
    generalize s.eng.written (R.GATE_LINE i) (mergeRw (R.GATE_LINE i) (s.eng.reg (R.GATE_LINE i)) v) = m at *
    have hout : (m.lineWritten i (s.eng.gateOutput i)).gateOutput i = m.gateOutput i := m.gateOutput_lineWritten i i _
    refine ⟨(m.reg_lineWritten i _ _).trans hvalue, m.written_lineWritten i.isLt _, fun hnow hwas => ?_, fun hnow => ?_, fun j hj => ?_, rfl,
      State.kept_withEng (fun b hb => (m.reg_lineWritten i _ b).trans (hoff b hb)) ((m.lineWritten_tb i _).trans htb)⟩
    · exact (hlevel i).trans (by simp [hout.symm.trans hnow, hwas, hinit])
    · exact (hlevel i).trans (by simp [hout.symm.trans hnow])
    · exact (hlevel j).trans (by simp [Fin.val_ne_of_ne hj, hbefore])
  case sel => exact (show 0x200 ≤ R.GATE_GLUT_SEL k % 0x1000 by unfold R.GATE_GLUT_SEL; omega)
  case tt => exact (show 0x200 ≤ R.GATE_GLUT_TT k % 0x1000 by unfold R.GATE_GLUT_TT; omega)
  case bank =>
    have hjudged := s.eng.bankcfg_shows v
    generalize (s.eng.storeFields bankcfgHit R.GATE_BANKCFG v).bankcfgWritten (s.eng.reg R.GATE_BANKCFG) = m at *
    obtain ⟨hvsel, hrej, hhit, -, hoff, -, -, htb⟩ := hjudged
    refine ⟨rfl, State.kept_withEng (fun b hb => (hoff b hb).trans (s.eng.reg_storeFields_ne _ v fun e => hb (e ▸ List.mem_cons_self))) htb, fun b hdriven hchange => ?_⟩
    have href := (s.eng.bankRefused_stored v (s.eng.reg R.GATE_BANKCFG) b.isLt).trans (Bool.and_eq_true_iff.2 ⟨decide_eq_true hchange, hdriven⟩)
    exact ⟨(hvsel b b.isLt).trans (if_pos ⟨b.isLt, href⟩), (hrej b b.isLt).trans href, hhit b b.isLt href⟩
  case bankIdle =>
    have hjudged := s.eng.bankcfg_shows v
    generalize (s.eng.storeFields bankcfgHit R.GATE_BANKCFG v).bankcfgWritten (s.eng.reg R.GATE_BANKCFG) = m at *
    obtain ⟨hvsel, hrej, -, hquiet, hoff, -, -, htb⟩ := hjudged
    have href : ∀ b < 4, (s.eng.storeFields bankcfgHit R.GATE_BANKCFG v).bankRefused ((s.eng.storeFields bankcfgHit R.GATE_BANKCFG v).reg R.GATE_BANKCFG) (s.eng.reg R.GATE_BANKCFG) b = false := fun b hb => by
      rw [s.eng.bankRefused_stored v _ hb, Bool.and_eq_false_iff]
      refine .inr (List.any_eq_false.2 fun k hk => ?_)
      obtain ⟨hout, hheld | hsafe⟩ := hidle (12 * b + k) (by have := List.mem_range.1 hk; omega)
      · simp [hout, hheld]
      · simp [hout, Nat.not_le.2 hsafe]
    refine ⟨fun b => ?_, ?_, rfl, State.kept_withEng (fun b hb => ?_) htb⟩
    · exact (hvsel b b.isLt).trans ((if_neg (by simp [href b b.isLt])).trans (s.eng.vselOf_storeFields v b.isLt))
    · refine Nat.eq_of_testBit_eq fun j => ?_
      rw [Nat.zero_testBit]
      by_cases hj : j < 4
      · exact (hrej j hj).trans (href j hj)
      · exact (testBit_bitsOf _ _ _ _).trans (by simp [R.GATE_STATUS_VSEL_REJ, hj])
    · obtain ⟨hcfg, hstatus⟩ : b ≠ R.GATE_BANKCFG ∧ b ≠ R.GATE_STATUS := by simpa using hb
      have hstored : (s.eng.storeFields bankcfgHit R.GATE_BANKCFG v).reg b = s.eng.reg b := s.eng.reg_storeFields_ne _ v hcfg
      by_cases hpage : b = statusAddr 0xA3
      · subst hpage; exact (hquiet href).trans hstored
      · exact (hoff b (by simp [bankRegs, hcfg, hstatus, hpage])).trans hstored

end Sys2Proof.Machine
end

section
/-! SUPPORT. A link that trains again (R242, R265). -/
namespace Sys2Proof.Machine
open Sys2Proof

variable {l : List Nat} {a : Nat}

theorem Engine.within_linkChanged (m : Engine) (s : Side) : Engine.Within [.links, .of .ringB] m (m.linkChanged s) := by
  unfold Engine.linkChanged
  split_ifs <;> simp +decide

theorem Engine.within_linkRetries (m : Engine) (s : Side) : Engine.Within [.links, .of .fluB, .of .ringB] m (m.linkRetries s) := by
  unfold Engine.linkRetries
  split_ifs
  · exact ((Engine.within_linkChanged _ s).mono (by decide)) |> .trans ((within_setFld _ (by cases s <;> decide)).2 (.refl _ m))
  · exact .refl _ m

/-- A link's news brings nothing to a register but MEMBERS and the page's status. -/
theorem Engine.reg_linkChanged_off (ha : a ∉ l) (m : Engine) (s : Side) (hmembers : R.RING_MEMBERS ∈ l) (hstatus : statusAddr 0xF2 ∈ l) : (m.linkChanged s).reg a = m.reg a := by
  unfold Engine.linkChanged
  split_ifs with hrole
  · rfl
  · rw [Engine.reg_status_off ha _ (b := R.E_RING_TOPOLOGY) hstatus]
    unfold Engine.sendLinkState
    rw [if_neg hrole]
    exact (Engine.Within.reg ((within_sendBoth (l := [.links]) _ (by decide)).2 (.refl _ _)) a rfl).trans (Engine.reg_setFld_off ha _ _ hmembers)

theorem Engine.reg_linkRetries_off (ha : a ∉ l) (m : Engine) (s : Side) (hlink : R.FLU_STATUS s.code ∈ l) (hmembers : R.RING_MEMBERS ∈ l) (hstatus : statusAddr 0xF2 ∈ l) :
    (m.linkRetries s).reg a = m.reg a := by
  unfold Engine.linkRetries
  split_ifs with h
  · rw [Engine.reg_linkChanged_off ha _ s hmembers hstatus, Engine.reg_setFld_off ha _ _ hlink]
  · rfl

/-- While the clocks run, an enabled link that is DOWN trains. -/
theorem Engine.linkState_linkRetries {m : Engine} (hrun : m.running = true) (s : Side) : (m.linkRetries s).fld (R.FLU_STATUS_STATE s.code) =
    if m.flag (R.FLU_CTL_EN s.code) && m.fld (R.FLU_STATUS_STATE s.code) == 0 then 1 else m.fld (R.FLU_STATUS_STATE s.code) := by
  unfold Engine.linkRetries
  rw [hrun, Bool.true_and]
  split_ifs
  · have hoff : (R.FLU_STATUS_STATE s.code).addr ∉ [R.RING_MEMBERS, statusAddr 0xF2] := by cases s <;> decide
    exact (Engine.fld_of_reg (Engine.reg_linkChanged_off hoff _ s (by simp) (by simp))).trans (m.fld_setFld_same _ _ (Nat.le_of_ble_eq_true rfl))
  · rfl

end Sys2Proof.Machine
end

section
/-! SUPPORT. Headrace lock (R169, R447). -/
namespace Sys2Proof.Machine
open Sys2Proof

/-- The clocks start, TB at 0. -/
def Engine.clocksStarted (m : Engine) : Engine := { m with running := true, first := true, cc := 0, tb := 0 }

/-- Both PLLs are locked, and the standby tracks. -/
def Engine.pllFlags (m : Engine) : Engine := ((m.setFlag R.CLK_STATUS_LOCK_A true).setFlag R.CLK_STATUS_LOCK_B true).setFlag R.CLK_STATUS_REDUNDANT true

/-- INUSE shows the reference selected. -/
def Engine.pllsLocked (m : Engine) : Engine := m.pllFlags.setFld R.CLK_STATUS_INUSE (m.pllFlags.fld R.CLK_REFSEL_SRC)

theorem Engine.reg_pllFlags_ne (m : Engine) {a : Nat} (ha : a ≠ R.CLK_STATUS) : m.pllFlags.reg a = m.reg a :=
  (Engine.reg_setReg_ne _ _ ha).trans ((Engine.reg_setReg_ne _ _ ha).trans (Engine.reg_setReg_ne _ _ ha))

theorem Engine.headraceLock_eq {m : Engine} (hrun : m.running = false) (hlost : m.lost = false) (hdam : m.dammed = false) (hpow : m.mgt.powered = true) (hlock : m.flag R.CLK_STATUS_LOCK_A = false) :
    m.headraceLock = (m.clocksStarted.pllsLocked.linkRetries .fa).linkRetries .fb := by
  unfold Engine.headraceLock
  rw [if_neg (by simp [hrun, hlost, hdam, hpow, hlock])]
  rfl

theorem Engine.reg_pllsLocked_ne (m : Engine) {a : Nat} (ha : a ≠ R.CLK_STATUS) : m.pllsLocked.reg a = m.reg a := (Engine.reg_setReg_ne _ _ ha).trans (m.reg_pllFlags_ne ha)

theorem Engine.within_pllsLocked (m : Engine) : Engine.Within [.of .clkB] m m.pllsLocked := by simp +decide [Engine.pllsLocked, Engine.pllFlags]

theorem Engine.pllsLocked_shows (m : Engine) : m.pllsLocked.flag R.CLK_STATUS_LOCK_A = true ∧ m.pllsLocked.flag R.CLK_STATUS_LOCK_B = true ∧
    m.pllsLocked.flag R.CLK_STATUS_REDUNDANT = true ∧ m.pllsLocked.fld R.CLK_STATUS_INUSE = m.fld R.CLK_REFSEL_SRC := by
  refine ⟨?_, ?_, ?_, (Engine.fld_setFld_same _ R.CLK_STATUS_INUSE _ (by decide)).trans ?_⟩
  case refine_4 => rw [Engine.fld_of_reg (m.reg_pllFlags_ne (by decide))]; exact Nat.mod_eq_of_lt (m.fld_lt _)
  all_goals simp +decide [Engine.pllsLocked, Engine.pllFlags, Engine.flag_setFld_beside, Engine.flag_setFlag_beside, Engine.flag_setFlag_same]

end Sys2Proof.Machine
end

section
/-! SUPPORT. Readiness and the management address (R447, R461). -/
namespace Sys2Proof.Machine
open Sys2Proof

variable {l : List Nat} {a : Nat}

theorem Engine.within_showReady (m : Engine) : Engine.Within [.of .sysB] m m.showReady := by
  unfold Engine.showReady
  extract_lets on was m1
  have h : Engine.Within [.of .sysB] m m1 := (within_setFlag _ (by decide)).2 (.refl _ m)
  split_ifs
  · exact (within_status (by decide)).2 h
  · exact h

theorem Engine.reg_showReady_off (ha : a ∉ l) (m : Engine) (hsys : R.SYS_STATUS ∈ l) (hstatus : statusAddr 4 ∈ l) : m.showReady.reg a = m.reg a := by
  unfold Engine.showReady
  dsimp only
  split_ifs
  · rw [Engine.reg_status_off (b := R.E_SYS_READY) ha _ hstatus, Engine.reg_setFlag_off ha _ _ hsys]
  · exact Engine.reg_setFlag_off ha _ _ hsys

/-- READY is set once the tanks are tested and the address is settled. -/
theorem Engine.ready_showReady (m : Engine) : m.showReady.flag R.SYS_STATUS_READY = (m.mgt.tanksDone && m.flag R.MGT_ADDR_SETTLED) := by
  unfold Engine.showReady
  dsimp only
  have hset := m.flag_setFlag_same R.SYS_STATUS_READY (m.mgt.tanksDone && m.flag R.MGT_ADDR_SETTLED) (by decide) rfl
  split_ifs
  · rw [Engine.flag_status_ne _ R.E_SYS_READY (by decide), hset]
  · exact hset

/-- The other flags of SYS.STATUS stay. -/
theorem Engine.flag_showReady_beside (m : Engine) {f : Field} (haddr : f.addr = R.SYS_STATUS) (hlo : 1 ≤ f.lo) : m.showReady.flag f = m.flag f := by
  unfold Engine.showReady
  dsimp only
  have hset : (m.setFlag R.SYS_STATUS_READY (m.mgt.tanksDone && m.flag R.MGT_ADDR_SETTLED)).flag f = m.flag f := m.flag_setFlag_beside R.SYS_STATUS_READY f _ haddr (.inr hlo)
  split_ifs
  · rw [Engine.flag_status_ne _ R.E_SYS_READY (by rw [haddr]; decide), hset]
  · exact hset

theorem Engine.mgt_showReady (m : Engine) : m.showReady.mgt = m.mgt := by
  unfold Engine.showReady
  dsimp only
  split_ifs <;> simp

theorem Engine.tank_showReady (m : Engine) : m.showReady.tank = m.tank := by
  unfold Engine.showReady
  dsimp only
  split_ifs <;> simp

/-- The management address settles at base + position. -/
def Engine.addrSettled (m : Engine) : Engine := (m.setFld R.MGT_ADDR_EFFECTIVE ((m.mgtBase + m.pos) % 128)).setFlag R.MGT_ADDR_SETTLED true

theorem Engine.addrSettled_shows (m : Engine) : m.addrSettled.flag R.MGT_ADDR_SETTLED = true ∧ m.addrSettled.fld R.MGT_ADDR_EFFECTIVE = (m.mgtBase + m.pos) % 128 := by
  refine ⟨Engine.flag_setFlag_same _ _ _ (by decide) rfl, (Engine.fld_setFlag_beside _ R.MGT_ADDR_SETTLED R.MGT_ADDR_EFFECTIVE _ rfl (by decide)).trans ?_⟩
  exact (m.fld_setFld_same R.MGT_ADDR_EFFECTIVE _ (by decide)).trans (Nat.mod_eq_of_lt (Nat.mod_lt _ (by decide)))

/-- Once the position is known the address settles; an address that changed sets the page's bit as well. -/
theorem Engine.mgtSettle_shows {m : Engine} (hpos : m.ring.positioned = true) :
    (∀ a, a ≠ statusAddr 9 → m.mgtSettle.reg a = m.addrSettled.showReady.reg a) ∧ m.mgtSettle.tb = m.tb := by
  have hsettle : m.mgtSettle = if m.flag R.MGT_ADDR_SETTLED && m.fld R.MGT_ADDR_EFFECTIVE == (m.mgtBase + m.pos) % 128 then m.addrSettled.showReady
      else m.addrSettled.showReady.status R.E_MGT_ADDR := if_neg (by simp [hpos])
  have htb : m.addrSettled.showReady.tb = m.tb := m.addrSettled.within_showReady.tb
  rw [hsettle]
  split_ifs
  · exact ⟨fun _ _ => rfl, htb⟩
  · exact ⟨fun a ha => Engine.reg_status_ne _ _ ha, (Engine.status_tb _ _).trans htb⟩

end Sys2Proof.Machine
end

section
/-! SUPPORT. The tank test of the start-up (R329). -/
namespace Sys2Proof.Machine
open Sys2Proof

variable {l : List Nat} {a : Nat}

/-- A test's failure shows in these registers. -/
def failRegs : List Nat := [R.TBIST_STATUS, R.TBIST_FAILMAP_LO, R.TBIST_FAILMAP_HI, R.TBIST_FAULTCNT, R.TBIST_LASTFAULT, statusAddr 0xC1]

/-- The FAILMAP register of a tank. -/
def failmapOf (n : Nat) : Nat := if n < 32 then R.TBIST_FAILMAP_LO else R.TBIST_FAILMAP_HI

theorem failmapOf_mem (n : Nat) : failmapOf n ∈ failRegs := by unfold failmapOf; split_ifs <;> decide

theorem Engine.reg_tankFails_off (ha : a ∉ failRegs) (m : Engine) (n : Nat) (bad : List (Nat × Nat)) : (m.tankFails n bad).reg a = m.reg a := by
  unfold Engine.tankFails
  dsimp only
  rw [show ∀ x : Engine, ∀ d, (x.logNow 0xC1 2 0x0206 d).reg a = x.reg a from fun _ _ => rfl, Engine.reg_status_off ha _ (b := R.E_TBIST_FAIL) (by decide)]
  have hcount : ((((m.setFlag R.TBIST_STATUS_RESULT true).orReg (failmapOf n) (2 ^ (n % 32))).addSat R.TBIST_FAULTCNT bad.length)).reg a = m.reg a := by
    rw [Engine.reg_addSat_off ha _ _ (by decide)]
    exact (Engine.reg_setReg_off ha _ _ (failmapOf_mem n)).trans (Engine.reg_setFlag_off ha _ _ (by decide))
  cases bad.getLast? with
  | none => exact hcount
  | some f => exact (Engine.reg_setReg_off ha _ _ (by decide)).trans hcount

/-- FAILMAP takes the tank's bit and keeps the others. -/
theorem Engine.failmap_tankFails (m : Engine) (n : Nat) (bad : List (Nat × Nat)) (k : Nat) :
    (m.tankFails n bad).reg (failmapOf k) = if failmapOf k = failmapOf n then m.reg (failmapOf k) ||| BitVec.ofNat 32 (2 ^ (n % 32)) else m.reg (failmapOf k) := by
  have hne : ∀ k, failmapOf k ∉ [R.TBIST_STATUS, R.TBIST_FAULTCNT, R.TBIST_LASTFAULT, statusAddr 0xC1] := fun k => by unfold failmapOf; split_ifs <;> decide
  unfold Engine.tankFails
  dsimp only
  rw [show ∀ x : Engine, ∀ d, (x.logNow 0xC1 2 0x0206 d).reg (failmapOf k) = x.reg (failmapOf k) from fun _ _ => rfl, Engine.reg_status_off (hne k) _ (b := R.E_TBIST_FAIL) (by decide)]
  have hcount : (((m.setFlag R.TBIST_STATUS_RESULT true).orReg (failmapOf n) (2 ^ (n % 32))).addSat R.TBIST_FAULTCNT bad.length).reg (failmapOf k) =
      if failmapOf k = failmapOf n then m.reg (failmapOf k) ||| BitVec.ofNat 32 (2 ^ (n % 32)) else m.reg (failmapOf k) := by
    rw [Engine.reg_addSat_off (hne k) _ _ (by decide)]
    split_ifs with h
    · rw [h]
      exact (Engine.reg_setReg_same _ _ _).trans (congrArg (· ||| _) (Engine.reg_setFlag_off (hne n) _ _ (by decide)))
    · exact (Engine.reg_setReg_ne _ _ h).trans (Engine.reg_setFlag_off (hne k) _ _ (by decide))
  cases bad.getLast? with
  | none => exact hcount
  | some f => exact (Engine.reg_setReg_off (hne k) _ _ (by decide)).trans hcount

theorem Engine.within_tankFails (m : Engine) (n : Nat) (bad : List (Nat × Nat)) : Engine.Within [.of .tbistB] m (m.tankFails n bad) := by
  have hmap : inParts [.of .tbistB] (if n < 32 then R.TBIST_FAILMAP_LO else R.TBIST_FAILMAP_HI) = true := by split_ifs <;> decide
  unfold Engine.tankFails
  dsimp only
  cases bad.getLast? <;> simp +decide [hmap]

/-- A tank's bit of FAILMAP. -/
def Engine.failed (m : Engine) (n : Nat) : Bool := bitAt (m.reg (failmapOf n)).toNat (n % 32)

theorem Engine.failed_tankFails (m : Engine) (n : Nat) (bad : List (Nat × Nat)) {k : Nat} (hk : k < 64) (hn : n < 64) : (m.tankFails n bad).failed k = (decide (k = n) || m.failed k) := by
  have hword : ∀ i < 32, bitAt (m.reg (failmapOf k) ||| BitVec.ofNat 32 (2 ^ (n % 32))).toNat i = (bitAt (m.reg (failmapOf k)).toNat i || decide (n % 32 = i)) := fun i hi => by
    unfold bitAt
    rw [BitVec.toNat_or, Nat.testBit_or, BitVec.toNat_ofNat, Nat.testBit_mod_two_pow, Nat.testBit_two_pow]
    simp [hi]
  have hsame : (failmapOf k = failmapOf n) ↔ (k < 32 ↔ n < 32) := by
    unfold failmapOf
    by_cases hk32 : k < 32 <;> by_cases hn32 : n < 32 <;> simp +decide [hk32, hn32]
  unfold Engine.failed
  rw [m.failmap_tankFails n bad k]
  split_ifs with h
  · rw [hsame] at h
    rw [hword _ (Nat.mod_lt _ (by decide)), Bool.or_comm, decide_eq_decide.2 (show n % 32 = k % 32 ↔ k = n by omega)]
  · rw [hsame] at h
    rw [decide_eq_false (show k ≠ n by rintro rfl; exact h .rfl), Bool.false_or]

/-- The tanks that fail, in their order. -/
def Engine.tanksFail (m : Engine) (fails : List (Nat × List (Nat × Nat))) : Engine := fails.foldl (fun (m : Engine) f => m.tankFails f.1 f.2) m

theorem Engine.reg_tanksFail_off (ha : a ∉ failRegs) (m : Engine) (fails : List (Nat × List (Nat × Nat))) : (m.tanksFail fails).reg a = m.reg a := by
  induction fails generalizing m with
  | nil => rfl
  | cons f fails ih => exact (ih _).trans (m.reg_tankFails_off ha _ _)

theorem Engine.within_tanksFail (m : Engine) (fails : List (Nat × List (Nat × Nat))) : Engine.Within [.of .tbistB] m (m.tanksFail fails) := by
  induction fails generalizing m with
  | nil => exact .refl _ m
  | cons f fails ih => exact (m.within_tankFails _ _).trans (ih _)

/-- Every tank that failed shows. -/
theorem Engine.failed_tanksFail (m : Engine) {fails : List (Nat × List (Nat × Nat))} (hlt : ∀ f ∈ fails, f.1 < 64) {k : Nat} (hk : k < 64) :
    (m.tanksFail fails).failed k = (fails.any (fun f => decide (k = f.1)) || m.failed k) := by
  induction fails generalizing m with
  | nil => rfl
  | cons f fails ih =>
    obtain ⟨hf, hrest⟩ := List.forall_mem_cons.1 hlt
    refine (ih _ hrest).trans ?_
    rw [m.failed_tankFails _ _ hk hf, List.any_cons, ← Bool.or_assoc, Bool.or_comm (fails.any _)]

end Sys2Proof.Machine
end

section
/-! SUPPORT. The end of the tank test (R329, R447). -/
namespace Sys2Proof.Machine
open Sys2Proof

variable {l : List Nat} {a : Nat}

/-- The first failing tank is remapped to T62, unless it is T62 itself. -/
def Engine.firstRemapped (m : Engine) (fails : List (Nat × List (Nat × Nat))) : Engine :=
  match fails with
  | (n, _) :: _ => if n = 62 then m else (m.setFld (R.TANK_OWN_CUR 62) 6).remap n 62
  | [] => m

/-- The failing tanks of the event, by numbers. -/
def failsOf (fails : List (Fin 64 × List (BitVec 15 × Fin 72))) : List (Nat × List (Nat × Nat)) :=
  fails.map (fun x => (x.1.val, x.2.map (fun y => (y.1.toNat, y.2.val))))

/-- Every word is good, and TANKS_DONE is set. -/
def Engine.testEnded (m : Engine) : Engine :=
  let m := { m with tank := { m.tank with errs := [] } }
  (m.setMgt { m.mgt with tanksDone := true }).setFlag R.SYS_STATUS_TANKS_DONE true

theorem Engine.tanksTested_eq {m : Engine} (hdone : m.mgt.tanksDone = false) (fails : List (Nat × List (Nat × Nat))) :
    m.tanksTested fails = ((m.tanksFail fails).firstRemapped fails).testEnded.showReady := by
  unfold Engine.tanksTested
  rw [if_neg (by simp [hdone])]
  rfl

theorem Engine.reg_firstRemapped_off (ha : a ∉ [R.TBIST_REMAP, R.TANK_OWN 62]) (m : Engine) (fails : List (Nat × List (Nat × Nat))) : (m.firstRemapped fails).reg a = m.reg a := by
  unfold Engine.firstRemapped
  split
  · split_ifs
    · rfl
    · exact (Engine.reg_setReg_off ha _ _ (by simp)).trans (Engine.reg_setFld_off ha _ _ (by simp [R.TANK_OWN_CUR]))
  · rfl

theorem Engine.within_firstRemapped (m : Engine) (fails : List (Nat × List (Nat × Nat))) : Engine.Within [.of .tankB, .of .tbistB] m (m.firstRemapped fails) := by
  unfold Engine.firstRemapped
  split
  · split_ifs
    · exact .refl _ m
    · exact (Engine.Within.setReg _ _ (by decide)).trans (.setReg _ _ (by decide))
  · exact .refl _ m

/-- What shows of the remapping. -/
theorem Engine.firstRemapped_shows (m : Engine) {n : Nat} {bad : List (Nat × Nat)} (fails : List (Nat × List (Nat × Nat))) (hn : n ≠ 62) :
    (m.firstRemapped ((n, bad) :: fails)).reg R.TBIST_REMAP = BitVec.ofNat 32 (n + 62 * 2 ^ 8 + 2 ^ 14) ∧ (m.firstRemapped ((n, bad) :: fails)).owner 62 = 6 := by
  have hcons : m.firstRemapped ((n, bad) :: fails) = (m.setFld (R.TANK_OWN_CUR 62) 6).remap n 62 := if_neg hn
  rw [hcons]
  exact ⟨(m.setFld (R.TANK_OWN_CUR 62) 6).reg_setReg_same R.TBIST_REMAP _, (Engine.fld_setReg_ne _ _ (by decide)).trans (m.fld_setFld_same _ _ (by decide))⟩

theorem Engine.reg_testEnded_ne (m : Engine) (ha : a ≠ R.SYS_STATUS) : m.testEnded.reg a = m.reg a := Engine.reg_setReg_ne _ _ ha

/-- What shows once the test has ended. -/
theorem Engine.tanksTested_shows {m : Engine} (hdone : m.mgt.tanksDone = false) (fails : List (Nat × List (Nat × Nat))) :
    (m.tanksTested fails).mgt.tanksDone = true ∧ (m.tanksTested fails).tank.errs = [] ∧ (m.tanksTested fails).flag R.SYS_STATUS_TANKS_DONE = true ∧
      (m.tanksTested fails).flag R.SYS_STATUS_READY = (m.tanksTested fails).flag R.MGT_ADDR_SETTLED ∧
      (∀ a, a ∉ [R.SYS_STATUS, statusAddr 4] → (m.tanksTested fails).reg a = ((m.tanksFail fails).firstRemapped fails).reg a) ∧ (m.tanksTested fails).tb = m.tb := by
  rw [Engine.tanksTested_eq hdone]
  have htb : ((m.tanksFail fails).firstRemapped fails).tb = m.tb := ((m.tanksFail fails).within_firstRemapped fails).tb.trans (m.within_tanksFail fails).tb
  generalize (m.tanksFail fails).firstRemapped fails = x at *
  have hshown : ∀ a, a ∉ [R.SYS_STATUS, statusAddr 4] → x.testEnded.showReady.reg a = x.testEnded.reg a := fun a ha => Engine.reg_showReady_off ha _ (by simp) (by simp)
  refine ⟨congrArg (·.tanksDone) x.testEnded.mgt_showReady, congrArg (·.errs) x.testEnded.tank_showReady, (x.testEnded.flag_showReady_beside rfl (by decide)).trans ?_, ?_,
    fun a ha => (hshown a ha).trans (x.reg_testEnded_ne (by rintro rfl; simp at ha)), x.testEnded.within_showReady.tb.trans htb⟩
  · exact Engine.flag_setFlag_same _ _ _ (by decide) rfl
  · rw [x.testEnded.ready_showReady, Engine.flag_of_reg (hshown _ (by decide))]
    rfl

end Sys2Proof.Machine
end

section
/-! StartUp: headrace lock, the tank test and the management address (R169, R329, R447, R461). -/
namespace Sys2Proof.Machine
open Sys2Proof

/-- Settles O12: each clause follows the writes of its event, register by register. -/
theorem startUp : Obligations.StartUp := by
  unfold Obligations.StartUp
  refine ⟨fun s hrun hlost hdam hpow hlock => State.ends_put rfl ?lock, fun s fails hpow hdone => State.ends_powered (·.tanksTested (failsOf fails)) hpow ?tested,
    fun s hpow hpos => State.ends_powered Engine.mgtSettle hpow ?settle⟩
  case lock =>
    rw [Engine.headraceLock_eq hrun hlost hdam hpow hlock]
    obtain ⟨ha, hb, hredundant, hinuse⟩ := s.eng.clocksStarted.pllsLocked_shows
    have hfirst := s.eng.clocksStarted.within_pllsLocked
    have hplls := fun a => s.eng.clocksStarted.reg_pllsLocked_ne (a := a)
    generalize s.eng.clocksStarted.pllsLocked = m at *
    have hwithin : Engine.Within [.of .clkB, .links, .of .fluB, .of .ringB] s.eng.clocksStarted ((m.linkRetries .fa).linkRetries .fb) :=
      (hfirst.mono (by decide)).trans (((m.within_linkRetries .fa).mono (by decide)).trans (((m.linkRetries .fa).within_linkRetries .fb).mono (by decide)))
    have hload : ((m.linkRetries .fa).linkRetries .fb).tbLoad = s.eng.tbLoad := congrArg (·.2.2.2.1) hwithin.times
    have hzero : ((m.linkRetries .fa).linkRetries .fb).first = true := congrArg (·.2.2.1) hwithin.times
    have hrun : (m.linkRetries .fa).running = true := (m.within_linkRetries .fa).running.trans hfirst.running
    have hoff : ∀ a, a ∉ [R.FLU_STATUS 0, R.FLU_STATUS 1, R.RING_MEMBERS, statusAddr 0xF2] → ((m.linkRetries .fa).linkRetries .fb).reg a = m.reg a := fun a ha =>
      (Engine.reg_linkRetries_off ha _ .fb (by simp [Side.code]) (by simp) (by simp)).trans (Engine.reg_linkRetries_off ha m .fa (by simp [Side.code]) (by simp) (by simp))
    have hclk := hoff R.CLK_STATUS (by decide)
    have hkept : ∀ a, a ∉ [R.CLK_STATUS, R.FLU_STATUS 0, R.FLU_STATUS 1, R.RING_MEMBERS, statusAddr 0xF2] → ((m.linkRetries .fa).linkRetries .fb).reg a = s.eng.reg a := fun a ha =>
      (hoff a fun h => ha (List.mem_cons_of_mem _ h)).trans (hplls a fun e => ha (e ▸ List.mem_cons_self))
    refine ⟨hwithin.running, hwithin.tb, ?next, (Engine.flag_of_reg hclk).trans ha, (Engine.flag_of_reg hclk).trans hb, (Engine.flag_of_reg hclk).trans hredundant, ?inuse, fun n => ?links,
      fun a ha => hkept a (by simpa using ha), s.memKept_withEng _⟩
    case next =>
      change ((m.linkRetries .fa).linkRetries .fb).nextCycle = _
      rw [Engine.nextCycle, hload, hzero]
      rfl
    case inuse => exact (Engine.fld_of_reg hclk).trans hinuse
    case links =>
      have hstate : ∀ x : Side, m.fld (R.FLU_STATUS_STATE x.code) = s.eng.fld (R.FLU_STATUS_STATE x.code) := fun x => Engine.fld_of_reg (hplls _ (by cases x <;> decide))
      have hctl : ∀ x : Side, m.flag (R.FLU_CTL_EN x.code) = s.eng.flag (R.FLU_CTL_EN x.code) := fun x => Engine.flag_of_reg (hplls _ (by cases x <;> decide))
      have hfa := Engine.linkState_linkRetries (m := m) hfirst.running .fa
      have hfb := Engine.linkState_linkRetries hrun .fb
      obtain rfl | rfl : n = 0 ∨ n = 1 := by omega
      · refine (Engine.fld_of_reg (Engine.reg_linkRetries_off (l := [R.FLU_STATUS 1, R.RING_MEMBERS, statusAddr 0xF2]) (by decide) _ .fb (by decide) (by decide) (by decide))).trans (hfa.trans ?_)
        rw [hstate, hctl]
        rfl
      · have hother : ∀ a, a ∉ [R.FLU_STATUS 0, R.RING_MEMBERS, statusAddr 0xF2] → (m.linkRetries .fa).reg a = m.reg a := fun a ha => Engine.reg_linkRetries_off ha m .fa (by decide) (by decide) (by decide)
        refine hfb.trans ?_
        rw [Engine.fld_of_reg (hother _ (by decide)), Engine.flag_of_reg (hother _ (by decide)), hstate, hctl]
        rfl
  case tested =>
    have hfails : ∀ f ∈ failsOf fails, f.1 < 64 := fun f hf => by
      obtain ⟨x, -, rfl⟩ := List.mem_map.1 hf
      exact x.1.isLt
    obtain ⟨hmgt, htank, hflag, hready, hoff, htb⟩ := Engine.tanksTested_shows hdone (failsOf fails)
    have hshow : ∀ a, a ∉ [R.SYS_STATUS, statusAddr 4, R.TBIST_REMAP, R.TANK_OWN 62] → (s.eng.tanksTested (failsOf fails)).reg a = (s.eng.tanksFail (failsOf fails)).reg a := fun a ha => by
      simp only [List.mem_cons, List.not_mem_nil, or_false, not_or] at ha
      exact (hoff a (by simp [ha])).trans (Engine.reg_firstRemapped_off (by simp [ha]) _ _)
    refine ⟨hmgt, hflag, hready, htank, fun f hf => ?_, fun f hf hn => ?_, State.kept_withEng (fun a ha => ?_) htb⟩
    · have hbit := (s.eng.failed_tanksFail hfails f.1.isLt).trans (Bool.or_eq_true_iff.2 (.inl (List.any_eq_true.2 ⟨_, List.mem_map_of_mem hf, by simp⟩)))
      have hmap : failmapOf f.1 ∉ [R.SYS_STATUS, statusAddr 4, R.TBIST_REMAP, R.TANK_OWN 62] := by unfold failmapOf; split_ifs <;> decide
      exact (congrArg (fun w : Sys2Proof.Word => bitAt w.toNat (f.1 % 32)) (hshow _ hmap)).trans hbit
    · obtain ⟨rest, rfl⟩ : ∃ rest, fails = f :: rest := by cases fails <;> simp_all
      obtain ⟨hremap, howner⟩ := (s.eng.tanksFail (failsOf (f :: rest))).firstRemapped_shows (failsOf rest) (bad := f.2.map (fun y => (y.1.toNat, y.2.val))) hn
      exact ⟨(hoff _ (by decide)).trans hremap, (Engine.fld_of_reg (hoff _ (by decide))).trans howner⟩
    · cases fails with
      | nil => exact hoff a (by simpa using ha)
      | cons f rest =>
        simp only [reduceCtorEq, if_false, List.cons_append, List.nil_append, List.mem_cons, List.not_mem_nil, or_false, not_or] at ha
        exact (hshow a (by simp [ha])).trans (Engine.reg_tanksFail_off (by simp [failRegs, ha]) _ _)
  case settle =>
    obtain ⟨hoff, htb⟩ := Engine.mgtSettle_shows hpos
    obtain ⟨hsettled, heffective⟩ := s.eng.addrSettled_shows
    have hshown : ∀ a, a ∉ [R.SYS_STATUS, statusAddr 4, statusAddr 9] → s.eng.mgtSettle.reg a = s.eng.addrSettled.reg a := fun a ha =>
      (hoff a (by rintro rfl; simp at ha)).trans (Engine.reg_showReady_off (l := [R.SYS_STATUS, statusAddr 4, statusAddr 9]) ha _ (by simp) (by simp))
    refine ⟨(Engine.flag_of_reg (hshown _ (by decide))).trans hsettled, (Engine.fld_of_reg (hshown _ (by decide))).trans heffective, ?_, State.kept_withEng (fun a ha => ?_) htb⟩
    · exact (Engine.flag_of_reg (hoff _ (by decide))).trans (s.eng.addrSettled.ready_showReady.trans (by rw [hsettled, Bool.and_true]; rfl))
    · obtain ⟨haddr, hrest⟩ := not_or.1 (List.mem_cons.not.1 ha)
      exact (hshown a hrest).trans ((Engine.reg_setReg_ne _ _ haddr).trans (s.eng.reg_setReg_ne _ haddr))

end Sys2Proof.Machine
end

section
/-! SUPPORT. The rota reads an entry of its ring (R174 to R179, R322): the tank's group is touched, and good words change nothing else. -/
namespace Sys2Proof.Machine
open Sys2Proof

variable {m m' : Engine} {t : Memory} {a : RotaAct}

/-- What a touch of a tank's group leaves: RETSTAT, the groups' times and the free values may have changed, nothing else. -/
def Engine.Touched (m m' : Engine) : Prop := (∃ rs k f, m' = { m with regs := rs, tank := k, freeCtr := f } ∧ k.errs = m.tank.errs) ∧ ∀ b, b ≠ R.TANK_RETSTAT → m'.reg b = m.reg b

theorem Engine.touched_wake (m : Engine) (g : Nat) : m.Touched (m.wake g) := by
  unfold Engine.wake Engine.draw
  split_ifs
  · exact ⟨⟨_, _, _, rfl, rfl⟩, fun b hb => (Engine.reg_setReg_ne _ _ hb).trans (Engine.reg_setReg_ne _ _ hb)⟩
  · exact ⟨⟨m.regs, m.tank, m.freeCtr, rfl, rfl⟩, fun _ _ => rfl⟩

theorem Engine.touched_touchGroup (m : Engine) (g : Nat) : m.Touched (m.touchGroup g) := by
  unfold Engine.touchGroup
  dsimp only
  split_ifs
  · obtain ⟨⟨rs, k, f, hwake, herrs⟩, hreg⟩ := m.touched_wake g
    exact ⟨⟨rs, { k with woken := k.woken.filter (fun w => w.1 != g) ++ [(g, m.cc)] }, f, by rw [hwake], herrs⟩, hreg⟩
  · exact ⟨⟨m.regs, m.tank, m.freeCtr, rfl, rfl⟩, fun _ _ => rfl⟩

namespace Engine.Touched

theorem reg (h : m.Touched m') {b : Nat} (hb : b ≠ R.TANK_RETSTAT) : m'.reg b = m.reg b := h.2 b hb
theorem reg_off {l : List Nat} (h : m.Touched m') {b : Nat} (hb : b ∉ l) (hl : R.TANK_RETSTAT ∈ l) : m'.reg b = m.reg b := h.2 b fun e => hb (e ▸ hl)
theorem fld (h : m.Touched m') {f : Field} (hf : f.addr ≠ R.TANK_RETSTAT) : m'.fld f = m.fld f := Engine.fld_of_reg (h.2 _ hf)
theorem rota (h : m.Touched m') : m'.rota = m.rota := by obtain ⟨⟨rs, k, f, rfl, -⟩, -⟩ := h; rfl
theorem tb (h : m.Touched m') : m'.tb = m.tb := by obtain ⟨⟨rs, k, f, rfl, -⟩, -⟩ := h; rfl
theorem cc (h : m.Touched m') : m'.cc = m.cc := by obtain ⟨⟨rs, k, f, rfl, -⟩, -⟩ := h; rfl
theorem cycle (h : m.Touched m') : m'.cycle = m.cycle := by obtain ⟨⟨rs, k, f, rfl, -⟩, -⟩ := h; rfl
theorem pclk (h : m.Touched m') : m'.pclk = m.pclk := by obtain ⟨⟨rs, k, f, rfl, -⟩, -⟩ := h; rfl
theorem detected (h : m.Touched m') : m'.detected = m.detected := by obtain ⟨⟨rs, k, f, rfl, -⟩, -⟩ := h; rfl
theorem arming (h : m.Touched m') : m'.arming = m.arming := by obtain ⟨⟨rs, k, f, rfl, -⟩, -⟩ := h; rfl
theorem held (h : m.Touched m') : m'.held = m.held := by obtain ⟨⟨rs, k, f, rfl, -⟩, -⟩ := h; rfl
theorem store (h : m.Touched m') : m'.store = m.store := by obtain ⟨⟨rs, k, f, rfl, -⟩, -⟩ := h; rfl
theorem errs (h : m.Touched m') : m'.tank.errs = m.tank.errs := by obtain ⟨⟨rs, k, f, rfl, herrs⟩, -⟩ := h; exact herrs

theorem rotaTank (h : m.Touched m') : m'.rotaTank = m.rotaTank := h.fld (by decide)

theorem rotaEntry (h : m.Touched m') (t : Memory) (j : Nat) : m'.rotaEntry t j = m.rotaEntry t j := by unfold Engine.rotaEntry; rw [h.rotaTank]

theorem outOfOrder (h : m.Touched m') (a : RotaAct) : m'.outOfOrder a = m.outOfOrder a := by unfold Engine.outOfOrder; rw [h.rota]

theorem beyondHorizon (h : m.Touched m') (a : RotaAct) : m'.beyondHorizon a = m.beyondHorizon a := by unfold Engine.beyondHorizon; rw [h.cycle]

theorem rotaFull (h : m.Touched m') (a : RotaAct) : m'.rotaFull a = m.rotaFull a := by unfold Engine.rotaFull; rw [h.rota, h.outOfOrder]

end Engine.Touched

/-- A good word met where no error stands changes nothing. -/
theorem Engine.wordRead_of_good (herrs : m.tank.errs = []) (w : Nat) : m.wordRead w .good = (m, .good) := by
  have hgood : m.wordError w = .good := by unfold Engine.wordError; rw [herrs]; rfl
  simp [Engine.wordRead, hgood, Engine.tankEcc]

theorem Engine.wordsRead_of_no_errs (herrs : m.tank.errs = []) (ws : List Nat) : m.wordsRead ws = (m, false) := by simp [Engine.wordsRead, herrs]

/-- The rota may read: it runs, its ring is not empty, and it has read nothing in this cycle. -/
def Engine.mayRead (m : Engine) : Prop := m.rotaRunning = true ∧ m.fld R.ROTA_HEAD_INDEX ≠ m.fld R.ROTA_TAIL_INDEX ∧ m.rota.lastRead ≠ m.cc

theorem Engine.rotaRead_of_not_mayRead (h : m.rotaRunning = false ∨ m.fld R.ROTA_HEAD_INDEX = m.fld R.ROTA_TAIL_INDEX ∨ m.rota.lastRead = m.cc) (t : Memory) (ecc : Ecc) : m.rotaRead t ecc = m :=
  if_pos (by simpa using h)

/-- Of an entry whose words are good: it waits, or it acts. -/
theorem Engine.rotaRead_good (hread : m.mayRead) (herrs : m.tank.errs = []) (ha : a = m.rotaEntry t (m.fld R.ROTA_HEAD_INDEX)) :
    m.rotaRead t .good = if m.beyondHorizon a || m.rotaFull a then m else (m.touchGroup 0).rotaEntryActs a := by
  obtain ⟨hrun, hne, hlast⟩ := hread
  have htouched := m.touched_touchGroup 0
  have hnot : ¬((!m.rotaRunning) = true ∨ m.fld R.ROTA_HEAD_INDEX = m.fld R.ROTA_TAIL_INDEX ∨ m.rota.lastRead = m.cc) := by simp [hrun, hne, hlast]
  unfold Engine.rotaRead
  rw [if_neg hnot]
  dsimp only
  rw [Engine.wordRead_of_good herrs, Engine.wordsRead_of_no_errs (htouched.errs.trans herrs)]
  dsimp only
  rw [if_neg (by simp), htouched.rotaEntry, ← ha, htouched.beyondHorizon, htouched.rotaFull]
  rfl

end Sys2Proof.Machine
end

section
/-! SUPPORT. HEAD moves on, and what a dropped or late entry leaves (R174, R178, R180, R181). -/
namespace Sys2Proof.Machine
open Sys2Proof

variable {m : Engine} {a : RotaAct} {l : List Nat} {b : Nat}

/-- Beside registers and page events only the rota changes as HEAD moves on. -/
theorem Engine.advanceHead_fields (m : Engine) : ∃ rs ra, m.advanceHead = { m with regs := rs, raised := ra, rota := { m.rota with lastRead := m.cc } } := by
  unfold Engine.advanceHead
  dsimp only
  split_ifs
  · obtain ⟨rs, ra, hstatus⟩ := ((m.setFld R.ROTA_HEAD_INDEX ((m.fld R.ROTA_HEAD_INDEX + 1) % 16384)).setRota { m.rota with lastRead := m.cc }).status_fields R.E_ROTA_EMPTY
    exact ⟨rs, ra, hstatus⟩
  · exact ⟨_, m.raised, rfl⟩

theorem Engine.reg_advanceHead_off (hb : b ∉ l) (m : Engine) (hhead : R.ROTA_HEAD ∈ l) (hstatus : statusAddr 0xA2 ∈ l) : m.advanceHead.reg b = m.reg b := by
  have hset : ((m.setFld R.ROTA_HEAD_INDEX ((m.fld R.ROTA_HEAD_INDEX + 1) % 16384)).setRota { m.rota with lastRead := m.cc }).reg b = m.reg b := Engine.reg_setFld_off hb m _ hhead
  unfold Engine.advanceHead
  dsimp only
  split_ifs
  · exact (Engine.reg_status_off (b := R.E_ROTA_EMPTY) hb _ hstatus).trans hset
  · exact hset

theorem Engine.head_advanceHead (m : Engine) : m.advanceHead.fld R.ROTA_HEAD_INDEX = (m.fld R.ROTA_HEAD_INDEX + 1) % 16384 := by
  have hset : ((m.setFld R.ROTA_HEAD_INDEX ((m.fld R.ROTA_HEAD_INDEX + 1) % 16384)).setRota { m.rota with lastRead := m.cc }).fld R.ROTA_HEAD_INDEX = (m.fld R.ROTA_HEAD_INDEX + 1) % 16384 :=
    (m.fld_setFld_same R.ROTA_HEAD_INDEX _ (by decide)).trans (Nat.mod_mod _ _)
  unfold Engine.advanceHead
  dsimp only
  split_ifs
  · exact (Engine.fld_status_ne _ R.E_ROTA_EMPTY (by decide)).trans hset
  · exact hset

/-- The page's events stay. -/
theorem Engine.hasBit_advanceHead {e : PageBit} (h : m.hasBit e = true) : m.advanceHead.hasBit e = true := by
  have hset : ∀ r, ((m.setFld R.ROTA_HEAD_INDEX ((m.fld R.ROTA_HEAD_INDEX + 1) % 16384)).setRota r).hasBit e = true := fun r => by
    have hne : statusAddr e.page ≠ R.ROTA_HEAD := by unfold statusAddr R.ROTA_HEAD; omega
    exact (Engine.hasBit_of_reg (m.reg_setReg_ne _ hne)).trans h
  unfold Engine.advanceHead
  dsimp only
  split_ifs
  · rw [Engine.hasBit_status _ R.E_ROTA_EMPTY _ (by decide), hset, Bool.or_true]
  · exact hset _

@[simp] theorem Engine.rota_advanceHead (m : Engine) : m.advanceHead.rota = { m.rota with lastRead := m.cc } := by obtain ⟨rs, ra, h⟩ := m.advanceHead_fields; rw [h]
@[simp] theorem Engine.detected_advanceHead (m : Engine) : m.advanceHead.detected = m.detected := by obtain ⟨rs, ra, h⟩ := m.advanceHead_fields; rw [h]
@[simp] theorem Engine.tb_advanceHead (m : Engine) : m.advanceHead.tb = m.tb := by obtain ⟨rs, ra, h⟩ := m.advanceHead_fields; rw [h]

/-- An entry is counted and logged, and carried out as NOP (R178, R181). -/
def Engine.entryDropped (m : Engine) (cnt : Nat) (e : PageBit) (code : Nat) (a : RotaAct) : Engine :=
  (((m.addSat cnt 1).status e).log 0xA2 2 code (a.word + a.target * 2 ^ 16) a.tb).advanceHead

/-- What shows of a dropped entry. -/
structure Dropped (m : Engine) (cnt : Nat) (e : PageBit) (code : Nat) (a : RotaAct) (m' : Engine) : Prop where
  count : m'.reg cnt = satAdd (m.reg cnt) 1
  bit : m'.hasBit e = true
  head : m'.fld R.ROTA_HEAD_INDEX = (m.fld R.ROTA_HEAD_INDEX + 1) % 16384
  queue : m'.rota.queue = m.rota.queue
  refTb : m'.rota.refTb = m.rota.refTb
  detected : m'.detected = insertEntry ⟨m.pclk, 0xA2, 2, code, BitVec.ofNat 32 (a.word + a.target * 2 ^ 16), a.tb⟩ m.detected
  off : ∀ b, b ∉ [R.ROTA_HEAD, cnt, statusAddr 0xA2] → m'.reg b = m.reg b
  tb : m'.tb = m.tb

theorem Engine.entryDropped_shows (m : Engine) {cnt : Nat} {e : PageBit} (hcnt : cnt ∉ [R.ROTA_HEAD, statusAddr 0xA2]) (hpage : e.page = 0xA2) (hbit : e.bit < 32) (code : Nat) (a : RotaAct) :
    Dropped m cnt e code a (m.entryDropped cnt e code a) := by
  have hstatus : cnt ≠ statusAddr e.page := by rw [hpage]; exact fun h => hcnt (h ▸ by simp)
  have hhead : R.ROTA_HEAD_INDEX.addr ∉ [cnt, statusAddr 0xA2] := by
    have hne : R.ROTA_HEAD ≠ cnt := fun h => hcnt (h ▸ by simp)
    simpa [R.ROTA_HEAD_INDEX, hne] using (by decide : R.ROTA_HEAD ≠ statusAddr 0xA2)
  have hlogged : ∀ b, b ∉ [cnt, statusAddr 0xA2] → (((m.addSat cnt 1).status e).log 0xA2 2 code (a.word + a.target * 2 ^ 16) a.tb).reg b = m.reg b := fun b hb =>
    (Engine.reg_status_off hb _ (b := e) (by simp [hpage])).trans (Engine.reg_addSat_off hb m 1 (by simp))
  unfold Engine.entryDropped
  refine ⟨?_, Engine.hasBit_advanceHead ?_, (Engine.head_advanceHead _).trans ?_, ?_, ?_, ?_, fun b hb => ?_, ?_⟩
  · exact (Engine.reg_advanceHead_off hcnt _ (by simp) (by simp)).trans ((Engine.reg_status_ne _ _ hstatus).trans (m.reg_addSat_same cnt 1))
  · exact (m.addSat cnt 1).hasBit_status_same e hbit
  · rw [Engine.fld_of_reg (hlogged _ hhead)]
  · simp [Engine.log]
  · simp [Engine.log]
  · obtain ⟨rs, ra, hfields⟩ := (m.addSat cnt 1).status_fields e
    rw [Engine.detected_advanceHead, hfields]
    rfl
  · exact (Engine.reg_advanceHead_off hb _ (by simp) (by simp)).trans (hlogged b fun h => hb (by simp only [List.mem_cons, List.not_mem_nil, or_false] at h ⊢; exact .inr h))
  · simp

theorem Engine.rotaBad_eq (m : Engine) (a : RotaAct) : m.rotaBad a = m.entryDropped R.ROTA_BADCNT R.E_ROTA_BADENT 0x0214 a := rfl

theorem Engine.rotaEntryActs_of_bad (h : a.bad = true) : m.rotaEntryActs a = m.entryDropped R.ROTA_BADCNT R.E_ROTA_BADENT 0x0214 a := if_pos h

theorem Engine.rotaEntryActs_of_outOfOrder (hbad : a.bad = false) (h : m.outOfOrder a = true) : m.rotaEntryActs a = m.entryDropped R.ROTA_ORDERCNT R.E_ROTA_ORDER 0x0212 a := by
  unfold Engine.rotaEntryActs
  rw [if_neg (by simp [hbad]), if_pos h]
  rfl

/-- The reference TB follows an entry in order. -/
def Engine.refTaken (m : Engine) (a : RotaAct) : Engine := (m.setRota { m.rota with refTb := some a.tb }).advanceHead

theorem Engine.rotaEntryActs_of_nop (hbad : a.bad = false) (horder : m.outOfOrder a = false) (h : a.code = 0) : m.rotaEntryActs a = m.refTaken a := by
  unfold Engine.rotaEntryActs
  rw [if_neg (by simp [hbad]), if_neg (by simp [horder]), if_pos h]
  rfl

theorem Engine.rotaEntryActs_of_act (hbad : a.bad = false) (horder : m.outOfOrder a = false) (h : a.code ≠ 0) :
    m.rotaEntryActs a = if bitsOf a.word 12 3 = 0 then (m.refTaken a).placeOrSkip a else ((m.refTaken a).placeOrSkip a).loadRepeater (bitsOf a.word 12 3) a := by
  unfold Engine.rotaEntryActs
  rw [if_neg (by simp [hbad]), if_neg (by simp [horder]), if_neg h]
  rfl

/-- What shows of an entry in order. -/
structure RefTaken (m : Engine) (a : RotaAct) (m' : Engine) : Prop where
  queue : m'.rota.queue = m.rota.queue
  reps : m'.rota.reps = m.rota.reps
  refTb : m'.rota.refTb = some a.tb
  head : m'.fld R.ROTA_HEAD_INDEX = (m.fld R.ROTA_HEAD_INDEX + 1) % 16384
  off : ∀ b, b ∉ [R.ROTA_HEAD, statusAddr 0xA2] → m'.reg b = m.reg b
  tb : m'.tb = m.tb
  cc : m'.cc = m.cc
  arming : m'.arming = m.arming
  held : m'.held = m.held
  store : m'.store = m.store

theorem Engine.refTaken_shows (m : Engine) (a : RotaAct) : RefTaken m a (m.refTaken a) := by
  have hoff : ∀ b, b ∉ [R.ROTA_HEAD, statusAddr 0xA2] → (m.refTaken a).reg b = m.reg b := fun b hb => Engine.reg_advanceHead_off hb (m.setRota _) (by simp) (by simp)
  have hhead : (m.refTaken a).fld R.ROTA_HEAD_INDEX = (m.fld R.ROTA_HEAD_INDEX + 1) % 16384 := (m.setRota _).head_advanceHead
  obtain ⟨rs, ra, h⟩ := (m.setRota { m.rota with refTb := some a.tb }).advanceHead_fields
  rw [show m.refTaken a = _ from h] at *
  exact ⟨rfl, rfl, rfl, hhead, hoff, rfl, rfl, rfl, rfl, rfl⟩

theorem RefTaken.cycle {m' : Engine} (h : RefTaken m a m') : m'.cycle = m.cycle := by unfold Engine.cycle; rw [h.tb]

end Sys2Proof.Machine
end

section
/-! SUPPORT. Entries are placed, on time or late, or skipped (R180, R184); repeaters are loaded and stop (R183). -/
namespace Sys2Proof.Machine
open Sys2Proof

variable {m : Engine} {a : RotaAct} {l : List Nat} {b : Nat}

theorem Engine.place_of_ne (h : a.code ≠ 1) : m.place a = m.setRota { m.rota with queue := placeAct a m.rota.queue } := if_neg h

theorem Engine.placeOrSkip_of_onTime (h : m.cycle + 16 ≤ dueOf a.code a.tb) : m.placeOrSkip a = m.place a := if_pos h

/-- An entry that is late is counted, its TB is recorded, and it is logged. -/
def Engine.lateTold (m : Engine) (cnt : Nat) (e : PageBit) (code data : Nat) (a : RotaAct) : Engine :=
  (((m.addSat cnt 1).status e).setReg64 R.ROTA_LASTLATE_TB_LO a.tb).log 0xA2 2 code data a.tb

/-- When a late entry is carried out. -/
def Engine.lateInstant (m : Engine) (a : RotaAct) : Tb := tbOfCycle (m.cycle + 16) + (if tickPlaced a.code then BitVec.ofNat 64 (a.tb.toNat % 16) else 0)

theorem Engine.placeOrSkip_of_skip (hlate : dueOf a.code a.tb < m.cycle + 16) (h : bitAt a.word 8 = true) :
    m.placeOrSkip a = m.lateTold R.ROTA_SKIPCNT R.E_ROTA_SKIP 0x0211 (a.word + a.target * 2 ^ 16) a := by
  unfold Engine.placeOrSkip
  dsimp only
  rw [if_neg (Nat.not_le.2 hlate), if_pos h]
  rfl

theorem Engine.placeOrSkip_of_late (hlate : dueOf a.code a.tb < m.cycle + 16) (h : bitAt a.word 8 = false) :
    m.placeOrSkip a = (m.lateTold R.ROTA_LATECNT R.E_ROTA_LATE 0x0210 (a.word + min (((m.lateInstant a).toNat - a.tb.toNat) / 16) 0xFFFF * 2 ^ 16) a).place { a with eff := m.lateInstant a } := by
  unfold Engine.placeOrSkip
  dsimp only
  rw [if_neg (Nat.not_le.2 hlate), if_neg (by simp [h])]
  rfl

/-- What shows of a late entry. -/
structure LateTold (m : Engine) (cnt : Nat) (e : PageBit) (a : RotaAct) (m' : Engine) : Prop where
  count : m'.reg cnt = satAdd (m.reg cnt) 1
  bit : m'.hasBit e = true
  last : m'.reg64 R.ROTA_LASTLATE_TB_LO = a.tb
  off : ∀ b, b ∉ [cnt, statusAddr 0xA2, R.ROTA_LASTLATE_TB_LO, R.ROTA_LASTLATE_TB_LO + 4] → m'.reg b = m.reg b
  rota : m'.rota = m.rota
  tb : m'.tb = m.tb

theorem Engine.lateTold_shows (m : Engine) {cnt : Nat} {e : PageBit} (hcnt : cnt ∉ [statusAddr 0xA2, R.ROTA_LASTLATE_TB_LO, R.ROTA_LASTLATE_TB_LO + 4]) (hpage : e.page = 0xA2) (hbit : e.bit < 32)
    (code data : Nat) (a : RotaAct) : LateTold m cnt e a (m.lateTold cnt e code data a) := by
  obtain ⟨rs, ra, hstatus⟩ := (m.addSat cnt 1).status_fields e
  have hcount : ((m.addSat cnt 1).status e).reg cnt = satAdd (m.reg cnt) 1 :=
    (Engine.reg_status_ne _ _ (by rw [hpage]; exact fun h => hcnt (h ▸ by simp))).trans (m.reg_addSat_same cnt 1)
  have htold : ((m.addSat cnt 1).status e).hasBit e = true := Engine.hasBit_status_same _ e hbit
  unfold Engine.lateTold
  refine ⟨?_, ?_, Engine.reg64_setReg64_same _ _ _, fun b hb => ?_, ?_, ?_⟩
  · exact (Engine.reg_setReg64_off hcnt _ _ (by simp) (by simp)).trans hcount
  · exact (Engine.hasBit_of_reg (Engine.reg_setReg64_ne _ _ _ (by rw [hpage]; decide) (by rw [hpage]; decide))).trans htold
  · exact (Engine.reg_setReg64_off hb _ _ (by simp) (by simp)).trans ((Engine.reg_status_off hb _ (b := e) (by simp [hpage])).trans (Engine.reg_addSat_off hb m 1 (by simp)))
  · rw [hstatus]; rfl
  · rw [hstatus]; rfl

/-! Repeaters. -/

/-- What shows of a repeater that was loaded. -/
structure Loaded (m : Engine) (r : Nat) (a : RotaAct) (m' : Engine) : Prop where
  active : bitAt (m'.reg R.ROTA_REPACTIVE).toNat r = true
  remain : m'.reg (R.ROTA_REP_REMAIN (r - 1)) = m.reg (R.ROTA_REP_COUNT (r - 1))
  reps : ∃ x ∈ m'.rota.reps, x.slot = r ∧ x.tb = a.tb ∧ x.word = a.word
  queue : m'.rota.queue = m.rota.queue
  refTb : m'.rota.refTb = m.rota.refTb
  off : ∀ b, b ∉ [R.ROTA_REPACTIVE, R.ROTA_REP_REMAIN (r - 1)] → m'.reg b = m.reg b
  tb : m'.tb = m.tb

theorem repRemain_ne (i : Nat) : R.ROTA_REPACTIVE ≠ R.ROTA_REP_REMAIN i := by unfold R.ROTA_REPACTIVE R.ROTA_REP_REMAIN; omega

theorem Engine.loadRepeater_shows (m : Engine) {r : Nat} (hr : r < 32) (a : RotaAct) : Loaded m r a (m.loadRepeater r a) := by
  unfold Engine.loadRepeater
  dsimp only
  refine ⟨?_, (Engine.reg_setReg_same _ _ _).trans (BitVec.ofNat_toNat _ _ |>.trans (BitVec.setWidth_eq _)), ⟨_, List.mem_append_right _ List.mem_cons_self, rfl, rfl, rfl⟩, rfl, rfl, fun b hb => ?_, rfl⟩
  · rw [Engine.reg_setReg_ne _ _ (repRemain_ne _)]
    unfold Engine.orReg
    rw [Engine.reg_setReg_same, bitAt, BitVec.toNat_or, Nat.testBit_or, BitVec.toNat_ofNat, Nat.testBit_mod_two_pow, Nat.testBit_two_pow_self]
    simp [hr]
  · exact (Engine.reg_setReg_off hb _ _ (by simp)).trans (Engine.reg_setReg_off hb (m.setRota _) _ (by simp))

/-- What shows of a repeater that stopped. -/
structure Stopped (m : Engine) (r : Nat) (m' : Engine) : Prop where
  reps : m'.rota.reps = m.rota.reps.filter (fun x => x.slot != r)
  remain : m'.reg (R.ROTA_REP_REMAIN (r - 1)) = 0
  queue : m'.rota.queue = m.rota.queue
  off : ∀ b, b ∉ [R.ROTA_REPACTIVE, R.ROTA_REP_REMAIN (r - 1)] → m'.reg b = m.reg b
  tb : m'.tb = m.tb

theorem Engine.stopRepeater_shows (m : Engine) (r : Nat) : Stopped m r (m.stopRepeater r) :=
  ⟨rfl, Engine.reg_setReg_same _ _ _, rfl, fun _ hb => (Engine.reg_setReg_off hb _ _ (by simp)).trans (Engine.reg_setReg_off hb (m.setRota _) _ (by simp)), rfl⟩

theorem Stopped.gone {r : Nat} {m' : Engine} (h : Stopped m r m') : ∀ y ∈ m'.rota.reps, y.slot ≠ r := by
  rw [h.reps]
  intro y hy
  simpa using (List.mem_filter.1 hy).2

/-- Of the first k repeaters those that REPSTOP names have stopped. -/
structure RepStopped (m : Engine) (bits k : Nat) (m' : Engine) : Prop where
  gone : ∀ i < k, bitAt bits (i + 1) = true → (∀ y ∈ m'.rota.reps, y.slot ≠ i + 1) ∧ m'.reg (R.ROTA_REP_REMAIN i) = 0
  off : ∀ b, b ∉ R.ROTA_REPACTIVE :: (List.range k).map R.ROTA_REP_REMAIN → m'.reg b = m.reg b
  tb : m'.tb = m.tb

theorem RepStopped.next {bits k : Nat} {m' : Engine} (h : RepStopped m bits k m') : RepStopped m bits (k + 1) (if bitAt bits (k + 1) then m'.stopRepeater (k + 1) else m') := by
  have hmem : ∀ b, b ∉ R.ROTA_REPACTIVE :: (List.range (k + 1)).map R.ROTA_REP_REMAIN → b ∉ R.ROTA_REPACTIVE :: (List.range k).map R.ROTA_REP_REMAIN ∧ b ∉ [R.ROTA_REPACTIVE, R.ROTA_REP_REMAIN k] := by
    intro b hb
    rw [List.range_succ, List.map_append, ← List.cons_append, List.mem_append, not_or] at hb
    refine ⟨hb.1, fun h' => ?_⟩
    rcases List.mem_cons.1 h' with rfl | h'
    · exact hb.1 List.mem_cons_self
    · exact hb.2 h'
  split_ifs with hbit
  · obtain ⟨hreps, hremain, -, hoff, htb⟩ := m'.stopRepeater_shows (k + 1)
    refine ⟨fun i hi hset => ?_, fun b hb => (hoff b (hmem b hb).2).trans (h.off b (hmem b hb).1), htb.trans h.tb⟩
    obtain rfl | hlt : i = k ∨ i < k := by omega
    · exact ⟨(m'.stopRepeater_shows (i + 1)).gone, hremain⟩
    · obtain ⟨hgone, hzero⟩ := h.gone i hlt hset
      refine ⟨fun y hy => hgone y (List.mem_of_mem_filter (hreps ▸ hy)), (hoff _ ?_).trans hzero⟩
      simp only [R.ROTA_REP_REMAIN, R.ROTA_REPACTIVE, List.mem_cons, List.not_mem_nil, or_false]
      omega
  · refine ⟨fun i hi hset => ?_, fun b hb => h.off b (hmem b hb).1, h.tb⟩
    obtain rfl | hlt : i = k ∨ i < k := by omega
    · exact absurd hset hbit
    · exact h.gone i hlt hset

theorem Engine.repStopped (m : Engine) (bits k : Nat) : RepStopped m bits k (forEach k (fun i m => if bitAt bits (i + 1) then m.stopRepeater (i + 1) else m) m) := by
  induction k with
  | zero => exact ⟨by simp, fun _ _ => rfl, rfl⟩
  | succ k ih => rw [forEach_succ]; exact ih.next

end Sys2Proof.Machine
end

section
/-! SUPPORT. A repeater's copy (R183), and a rota ARM's request (R184). -/
namespace Sys2Proof.Machine
open Sys2Proof

variable {m : Engine} {a : RotaAct}

/-- A repeater's next copy. -/
def copyOf (x : Repeater) : RotaAct :=
  ⟨x.tb + BitVec.ofNat 64 ((x.k + 1) * x.period), x.tb + BitVec.ofNat 64 ((x.k + 1) * x.period), x.word % 256, x.target, x.arg, x.word⟩

/-- A copy is counted off its repeater. -/
def Engine.copyCounted (m : Engine) (r : Nat) (left : Option Nat) : Engine :=
  (m.setRota { m.rota with reps := m.rota.reps.map (fun y => if y.slot = r then { y with k := y.k + 1, left := left } else y) }).setReg (R.ROTA_REP_REMAIN (r - 1)) (BitVec.ofNat 32 (left.getD 0))

theorem Engine.remain_copyCounted (m : Engine) (r : Nat) (left : Option Nat) : (m.copyCounted r left).reg (R.ROTA_REP_REMAIN (r - 1)) = BitVec.ofNat 32 (left.getD 0) :=
  Engine.reg_setReg_same _ _ _

/-- A copy on time is placed, and the last one stops its repeater. -/
theorem Engine.repeaterCopy_onTime {r : Nat} {x : Repeater} (hfind : m.rota.reps.find? (fun x => x.slot == r) = some x) (hcode : x.word % 256 ≠ 1)
    (hdue : dueOf (copyOf x).code (copyOf x).tb = m.cycle + 16) (hroom : m.rota.hasRoom (queueOf (copyOf x).code x.target) = true) :
    m.repeaterCopy r = if x.left.map (· - 1) = some 0 then
      ((((m.copyCounted r (x.left.map (· - 1))).setRota { (m.copyCounted r (x.left.map (· - 1))).rota with queue := placeAct (copyOf x) m.rota.queue }).stopRepeater r).status R.E_ROTA_REPDONE)
      else (m.copyCounted r (x.left.map (· - 1))).setRota { (m.copyCounted r (x.left.map (· - 1))).rota with queue := placeAct (copyOf x) m.rota.queue } := by
  have hplace : (m.copyCounted r (x.left.map (· - 1))).placeOrSkip (copyOf x) =
      (m.copyCounted r (x.left.map (· - 1))).setRota { (m.copyCounted r (x.left.map (· - 1))).rota with queue := placeAct (copyOf x) m.rota.queue } :=
    (Engine.placeOrSkip_of_onTime (m := m.copyCounted r (x.left.map (· - 1))) (le_of_eq hdue.symm)).trans (Engine.place_of_ne hcode)
  have hnot : ¬(m.cycle + 16 < dueOf (copyOf x).code (copyOf x).tb ∨ (!m.rota.hasRoom (queueOf (copyOf x).code x.target)) = true) := by simp [hdue, hroom]
  rw [← hplace]
  unfold Engine.repeaterCopy
  rw [hfind]
  exact if_neg hnot

/-- A request as a rota ARM makes it. -/
def Engine.rotaRequest (m : Engine) (a : RotaAct) : ArmReq := { src := 1, since := m.cc, stream := (List.range 48).map (fun n => m.heldReg (R.RU_STREAM n)), act := some a }

/-- The request starts. -/
def Engine.rotaAsks (m : Engine) (a : RotaAct) : Engine := { m with arming := some (m.rotaRequest a) }.setFlag R.SYS_STATUS_ARMING true

theorem Engine.armRequest_rota_of_idle (harmed : m.armed = false) (hnone : m.arming = none) (hset : m.settled = false) :
    m.armRequest 1 (some a) = (m.cycleWrites.foldl (fun m w => m.holdLate w.addr w.new) (m.takeBack.rotaAsks a)).armChecks := by
  simp only [Engine.armRequest, harmed, hnone, hset, Option.isSome_none, Bool.or_self, Bool.false_eq_true, if_false, one_ne_zero]
  rfl

/-- A rota ARM that comes to an idle engine waits for the cistern (R83, R184). -/
theorem Engine.armRequest_rota (harmed : m.armed = false) (hnone : m.arming = none) (hset : m.settled = false) (hready : m.cisReady = false) (hwrites : m.cycleWrites = []) :
    m.armRequest 1 (some a) = (m.setStore { m.store with ruWrites := [] }).rotaAsks a := by
  have hback : m.takeBack = m.setStore { m.store with ruWrites := [] } := by
    simp only [Engine.takeBack, hwrites, List.reverse_nil, List.foldl_nil]
    rfl
  have hchecked : ((m.setStore { m.store with ruWrites := [] }).rotaAsks a).cisReady = false :=
    (congrArg (· == 3) (Engine.fld_setFlag_ne _ (f := R.CIS_STATUS_STATE) (g := R.SYS_STATUS_ARMING) true (by decide))).trans hready
  rw [Engine.armRequest_rota_of_idle harmed hnone hset, hwrites, hback, List.foldl_nil, Engine.armChecks_of_not_ready hchecked]

end Sys2Proof.Machine
end

section
/-! SUPPORT. An entry with an uncorrectable word (R178, R322). -/
namespace Sys2Proof.Machine
open Sys2Proof

variable {m : Engine}

/-- The words of the entry at HEAD. -/
def Engine.headWordAt (m : Engine) : Nat := 32768 * m.rotaTank + 2 * m.fld R.ROTA_HEAD_INDEX

/-- What is left once the entry's words were read, the first of them uncorrectable. -/
def Engine.doubleMet (m : Engine) : Engine := (((m.wordRead m.headWordAt .double).1.touchGroup 0).wordsRead [m.headWordAt + 1]).1.draw.2

theorem Engine.wordFound_double (m : Engine) (w : Nat) : m.wordFound w .double = .double := by
  unfold Engine.wordFound
  cases m.wordError w <;> rfl

theorem Engine.rotaRead_double (hread : m.mayRead) (t : Memory) : ∃ a, m.rotaRead t .double = m.doubleMet.entryDropped R.ROTA_BADCNT R.E_ROTA_BADENT 0x0214 a := by
  obtain ⟨hrun, hne, hlast⟩ := hread
  have hnot : ¬((!m.rotaRunning) = true ∨ m.fld R.ROTA_HEAD_INDEX = m.fld R.ROTA_TAIL_INDEX ∨ m.rota.lastRead = m.cc) := by simp [hrun, hne, hlast]
  have hfound : (m.wordRead m.headWordAt .double).2 = .double := m.wordFound_double _
  unfold Engine.rotaRead
  rw [if_neg hnot]
  exact ⟨_, if_pos (.inl hfound)⟩

/-- The entry's words lie in one of the 64 tanks. -/
theorem Engine.headWordAt_lt (m : Engine) : m.headWordAt / 32768 < 64 ∧ (m.headWordAt + 1) / 32768 < 64 := by
  have htank : m.rotaTank < 4 := m.fld_lt R.ROTA_CTL_TANK
  have hhead : m.fld R.ROTA_HEAD_INDEX < 16384 := m.fld_lt R.ROTA_HEAD_INDEX
  unfold Engine.headWordAt
  omega

/-- An uncorrectable word that was told stays told as others are read. -/
theorem Engine.hasBit_tankEcc {m : Engine} (h : m.hasBit R.E_TANK_UE = true) (ecc : Ecc) {tank : Nat} (htank : tank < 64) (word : Nat) : (m.tankEcc ecc tank word).hasBit R.E_TANK_UE = true := by
  cases ecc with
  | good => exact h
  | single =>
    have hce : statusAddr R.E_TANK_UE.page ≠ R.TANK_CE tank := by unfold R.TANK_CE statusAddr R.E_TANK_UE; omega
    refine (Engine.hasBit_status _ R.E_TANK_CE _ (by decide)).trans ?_
    rw [show (m.addSat (R.TANK_CE tank) 1).hasBit R.E_TANK_UE = m.hasBit R.E_TANK_UE from Engine.hasBit_of_reg (m.reg_setReg_ne _ hce), h, Bool.or_true]
  | double => exact (m.tankEcc_double_shows tank word).2.1

theorem Engine.hasBit_wordRead {m : Engine} (h : m.hasBit R.E_TANK_UE = true) {w : Nat} (hw : w / 32768 < 64) (met : Ecc) : (m.wordRead w met).1.hasBit R.E_TANK_UE = true :=
  (Engine.hasBit_of_reg (m.reg_wordRead w met _)).trans (Engine.hasBit_tankEcc h _ hw _)

theorem Engine.hasBit_wordsRead {m : Engine} (h : m.hasBit R.E_TANK_UE = true) {ws : List Nat} (hws : ∀ w ∈ ws, w / 32768 < 64) : (m.wordsRead ws).1.hasBit R.E_TANK_UE = true := by
  unfold Engine.wordsRead
  split
  · exact h
  · exact List.foldlRecOn (motive := fun x : Engine × Bool => x.1.hasBit R.E_TANK_UE = true) _ _ h fun x hx w hw => Engine.hasBit_wordRead hx (hws w hw) .good

theorem Engine.WordsMet.rota {m' : Engine} (h : m.WordsMet m') : m'.rota = m.rota := by obtain ⟨rs, ra, d, k, rfl⟩ := h; rfl

/-- What shows of the words read. -/
theorem Engine.doubleMet_shows (m : Engine) :
    m.doubleMet.hasBit R.E_TANK_UE = true ∧ m.doubleMet.rota = m.rota ∧ m.doubleMet.tb = m.tb ∧ ∀ b, b ∉ R.TANK_RETSTAT :: tankEccRegs → m.doubleMet.reg b = m.reg b := by
  obtain ⟨hw, hw'⟩ := m.headWordAt_lt
  have hmet := m.wordsMet_wordRead m.headWordAt .double
  have htouched := (m.wordRead m.headWordAt .double).1.touched_touchGroup 0
  have hrest := ((m.wordRead m.headWordAt .double).1.touchGroup 0).wordsMet_wordsRead [m.headWordAt + 1]
  have hws : ∀ w ∈ [m.headWordAt + 1], w / 32768 < 64 := by simpa using hw'
  have hbit : (m.wordRead m.headWordAt .double).1.hasBit R.E_TANK_UE = true := by
    rw [Engine.hasBit_of_reg (m.reg_wordRead _ _ _), m.wordFound_double]
    exact (m.tankEcc_double_shows _ _).2.1
  refine ⟨?_, hrest.rota.trans (htouched.rota.trans hmet.rota), hrest.tb.trans (htouched.tb.trans hmet.tb), fun b hb => ?_⟩
  · exact Engine.hasBit_wordsRead ((Engine.hasBit_of_reg (htouched.reg (by decide))).trans hbit) hws
  · have hecc : b ∉ tankEccRegs := fun h => hb (List.mem_cons_of_mem _ h)
    refine (Engine.reg_wordsRead_off hecc (fun _ h => h) _ hws).trans ((htouched.reg_off hb List.mem_cons_self).trans ?_)
    exact (m.reg_wordRead _ _ b).trans (Engine.reg_tankEcc_off hecc (fun _ h => h) m _ hw _)

end Sys2Proof.Machine
end

section
/-! SUPPORT. Writes of HEAD, CTL and REPSTOP (R183, R185, R186). -/
namespace Sys2Proof.Machine
open Sys2Proof

def rotaHeadHit : RegHit := ⟨.rotaB, 0, 0xA2, 0x48, { off := 0x48, rwh := 0x3FFF }⟩
def rotaCtlHit : RegHit := ⟨.rotaB, 0, 0xA2, 0x40, { off := 0x40, rw := 0x301, w1s := 0x2 }⟩
def repstopHit : RegHit := ⟨.rotaB, 0, 0xA2, 0x74, { off := 0x74, w1s := 0xFE }⟩

theorem decodeReg_rotaHead : decodeReg R.ROTA_HEAD = some rotaHeadHit := by decide
theorem decodeReg_rotaCtl : decodeReg R.ROTA_CTL = some rotaCtlHit := by decide
theorem decodeReg_repstop : decodeReg R.ROTA_REPSTOP = some repstopHit := by decide

theorem Chip.writeAt_rotaHead (c : Chip) (v : Sys2Proof.Word) :
    c.writeAt rotaHeadHit R.ROTA_HEAD v = { c with eng := ((c.eng.storeFields rotaHeadHit R.ROTA_HEAD v).setReg R.ROTA_HEAD (c.eng.reg R.ROTA_HEAD)).rotaHead (bitsOf v.toNat 0 14) } := rfl

theorem Chip.writeAt_rotaCtl (c : Chip) (v : Sys2Proof.Word) :
    c.writeAt rotaCtlHit R.ROTA_CTL v = { c with eng := (c.eng.storeFields rotaCtlHit R.ROTA_CTL v).rotaCtl (c.eng.reg R.ROTA_CTL) (bitAt v.toNat 1) } := rfl

theorem Chip.writeAt_repstop (c : Chip) (v : Sys2Proof.Word) :
    c.writeAt repstopHit R.ROTA_REPSTOP v = { c with eng := (c.eng.storeFields repstopHit R.ROTA_REPSTOP v).repStop v.toNat } := rfl

/-- Up to HEAD's own rule a write of it leaves it as it was. -/
def Engine.headOffered (m : Engine) (v : Sys2Proof.Word) : Engine := (m.storeFields rotaHeadHit R.ROTA_HEAD v).setReg R.ROTA_HEAD (m.reg R.ROTA_HEAD)

theorem Engine.reg_headOffered (m : Engine) (v : Sys2Proof.Word) (b : Nat) : (m.headOffered v).reg b = m.reg b := by
  by_cases hb : b = R.ROTA_HEAD
  · rw [hb]; exact Engine.reg_setReg_same _ _ _
  · exact (Engine.reg_setReg_ne _ _ hb).trans (m.reg_storeFields_ne _ v hb)

/-- CTL as a write with RESUME stores it. -/
theorem Engine.ctlStored_shows (m : Engine) (v : Sys2Proof.Word) : (m.storeFields rotaCtlHit R.ROTA_CTL (v ||| 2)).flag R.ROTA_CTL_EN = bitAt v.toNat 0 ∧
    (m.storeFields rotaCtlHit R.ROTA_CTL (v ||| 2)).fld R.ROTA_CTL_TANK = bitsOf v.toNat 8 2 := by
  have hword := m.reg_storeFields_same rotaCtlHit R.ROTA_CTL (v ||| 2)
  constructor
  · rw [Engine.flag_bit _ rfl, show R.ROTA_CTL_EN.addr = R.ROTA_CTL from rfl, hword]
    simp [rotaCtlHit, R.ROTA_CTL_EN, bitAt]
  · have hmask : BitVec.ofNat 32 (rotaCtlHit.row.rw ||| rotaCtlHit.row.rwh) = 0x301#32 := rfl
    rw [hmask] at hword
    unfold Engine.fld
    rw [show R.ROTA_CTL_TANK = ⟨R.ROTA_CTL, 8, 2⟩ from rfl, hword]
    exact (bitsOf_merge (m.reg R.ROTA_CTL) (v ||| 2) 0x301#32 8 2 (by decide)).trans (bitsOf_or_beside v 2#32 8 2 (by decide))

/-- A write of CTL with RESUME ends a halt, and TANK changes only while EN was 0. -/
theorem Engine.rotaCtl_shows (m : Engine) (v : Sys2Proof.Word) :
    let m' := (m.storeFields rotaCtlHit R.ROTA_CTL (v ||| 2)).rotaCtl (m.reg R.ROTA_CTL) (bitAt (v ||| 2).toNat 1)
    m'.flag R.ROTA_STATUS_HALTED = false ∧ m'.flag R.ROTA_CTL_EN = bitAt v.toNat 0 ∧ m'.fld R.ROTA_CTL_TANK = (if m.flag R.ROTA_CTL_EN then m.fld R.ROTA_CTL_TANK else bitsOf v.toNat 8 2) ∧
      (∀ b, b ∉ [R.ROTA_CTL, R.ROTA_STATUS] → m'.reg b = m.reg b) ∧ m'.tb = m.tb := by
  have hresume : bitAt (v ||| 2).toNat 1 = true := by simp +decide [bitAt]
  obtain ⟨hen, htank⟩ := m.ctlStored_shows v
  have hold : bitAt (m.reg R.ROTA_CTL).toNat 0 = m.flag R.ROTA_CTL_EN := (Engine.flag_bit m (f := R.ROTA_CTL_EN) rfl).symm
  have hstored : ∀ b, b ∉ [R.ROTA_CTL, R.ROTA_STATUS] → (m.storeFields rotaCtlHit R.ROTA_CTL (v ||| 2)).reg b = m.reg b := fun b hb => m.reg_storeFields_ne _ _ fun e => hb (e ▸ List.mem_cons_self)
  have htb : (m.storeFields rotaCtlHit R.ROTA_CTL (v ||| 2)).tb = m.tb := rfl
  generalize m.storeFields rotaCtlHit R.ROTA_CTL (v ||| 2) = x at *
  unfold Engine.rotaCtl Engine.rotaResume
  simp only [hresume, hold, if_true]
  refine ⟨Engine.flag_setFlag_same _ _ _ (by decide) rfl, ?_, ?_, fun b hb => ?_, ?_⟩
  · rw [Engine.flag_setFlag_ne _ _ (by decide)]
    split_ifs
    · exact (x.flag_setFld_beside R.ROTA_CTL_TANK R.ROTA_CTL_EN _ rfl (by decide)).trans hen
    · exact hen
  · rw [Engine.fld_setFlag_ne _ _ (by decide)]
    split_ifs
    · exact (x.fld_setFld_same R.ROTA_CTL_TANK _ (by decide)).trans (Nat.mod_eq_of_lt (m.fld_lt R.ROTA_CTL_TANK))
    · exact htank
  · rw [Engine.reg_setFlag_off hb _ _ (by decide)]
    split_ifs
    · exact (Engine.reg_setFld_off hb _ _ (by decide)).trans (hstored b hb)
    · exact hstored b hb
  · split_ifs <;> exact htb

end Sys2Proof.Machine
end

section
/-! RotaRing: the rota reads its ring; repeaters, HEAD and RESUME (R174 to R186, R322). -/
namespace Sys2Proof.Machine
open Sys2Proof

variable {m x m' : Engine} {t : Memory} {a : RotaAct}

/-- An entry within the horizon, whose queue does not hold it up, acts. -/
theorem Engine.rotaRead_acts (hread : m.mayRead) (herrs : m.tank.errs = []) (ha : a = m.rotaEntry t (m.fld R.ROTA_HEAD_INDEX)) (hdue : dueOf a.code a.tb ≤ m.cycle + 4096) (hfull : m.rotaFull a = false) :
    m.rotaRead t .good = (m.touchGroup 0).rotaEntryActs a := by
  have hnear : m.beyondHorizon a = false := decide_eq_false (Nat.not_lt.2 hdue)
  rw [Engine.rotaRead_good hread herrs ha, hnear, hfull]
  rfl

/-- What a dropped entry shows, past the touch of the tank's group. -/
theorem Dropped.past {cnt : Nat} {e : PageBit} {code : Nat} (hdrop : Dropped x cnt e code a m') (htouch : m.Touched x) (hcnt : cnt ≠ R.TANK_RETSTAT) :
    m'.reg cnt = satAdd (m.reg cnt) 1 ∧ m'.fld R.ROTA_HEAD_INDEX = (m.fld R.ROTA_HEAD_INDEX + 1) % 16384 ∧ m'.rota.queue = m.rota.queue ∧ m'.rota.refTb = m.rota.refTb ∧
      m'.detected = insertEntry ⟨m.pclk, 0xA2, 2, code, BitVec.ofNat 32 (a.word + a.target * 2 ^ 16), a.tb⟩ m.detected ∧
      (∀ b, b ∉ [R.ROTA_HEAD, cnt, statusAddr 0xA2, R.TANK_RETSTAT] → m'.reg b = m.reg b) ∧ m'.tb = m.tb := by
  refine ⟨?_, ?_, ?_, ?_, ?_, fun b hb => ?_, hdrop.tb.trans htouch.tb⟩
  · rw [hdrop.count, htouch.reg hcnt]
  · rw [hdrop.head, htouch.fld (by decide)]
  · rw [hdrop.queue, htouch.rota]
  · rw [hdrop.refTb, htouch.rota]
  · rw [hdrop.detected, htouch.pclk, htouch.detected]
  · simp only [List.mem_cons, List.not_mem_nil, or_false, not_or] at hb
    exact (hdrop.off b (by simp [hb])).trans (htouch.reg hb.2.2.2)

/-- What an entry in order shows, past the touch of the tank's group. -/
theorem RefTaken.past (href : RefTaken x a m') (htouch : m.Touched x) :
    m'.rota.queue = m.rota.queue ∧ m'.fld R.ROTA_HEAD_INDEX = (m.fld R.ROTA_HEAD_INDEX + 1) % 16384 ∧ (∀ b, b ∉ [R.ROTA_HEAD, statusAddr 0xA2, R.TANK_RETSTAT] → m'.reg b = m.reg b) ∧ m'.tb = m.tb := by
  refine ⟨?_, ?_, fun b hb => ?_, href.tb.trans htouch.tb⟩
  · rw [href.queue, htouch.rota]
  · rw [href.head, htouch.fld (by decide)]
  · simp only [List.mem_cons, List.not_mem_nil, or_false, not_or] at hb
    exact (href.off b (by simp [hb])).trans (htouch.reg hb.2.2)

/-- Settles O29: the entry at HEAD is read past the touch of its tank's group, and each kind of entry follows its own branch. -/
theorem rotaRing : Obligations.RotaRing := by
  unfold Obligations.RotaRing
  refine ⟨fun s hlive hnot => State.live_same (f := (·.rotaRead s.chip.tanks .good)) hlive (Engine.rotaRead_of_not_mayRead hnot _ _),
    fun s a hlive herrs hrun hne hlast ha hwait => State.live_same (f := (·.rotaRead s.chip.tanks .good)) hlive ((Engine.rotaRead_good ⟨hrun, hne, hlast⟩ herrs ha).trans (if_pos hwait)),
    fun s a hlive herrs hrun hne hlast ha hdue hbad => State.ends_live (·.rotaRead s.chip.tanks .good) hlive ?bad,
    fun s hlive hrun hne hlast => State.ends_live (·.rotaRead s.chip.tanks .double) hlive ?double,
    fun s a hlive herrs hrun hne hlast ha hdue hbad horder => State.ends_live (·.rotaRead s.chip.tanks .good) hlive ?order,
    fun s a hlive herrs hrun hne hlast ha hdue hbad horder hcode => State.ends_live (·.rotaRead s.chip.tanks .good) hlive ?nop,
    fun s a hlive herrs hrun hne hlast ha hdue htime hcode hbad horder hroom => State.ends_live (·.rotaRead s.chip.tanks .good) hlive ?placed,
    fun s a hlive herrs hrun hne hlast ha hlate hcode hbad horder hroom hrep => State.ends_live (·.rotaRead s.chip.tanks .good) hlive ?late,
    fun s a hlive herrs hrun hne hlast ha hdue htime hcode hbad horder hroom hrep harmed hnone hset hready hwrites => State.ends_live (·.rotaRead s.chip.tanks .good) hlive ?arm,
    fun s port v hacc hstill => State.ends_write hacc decodeReg_rotaHead (s.chip.writeAt_rotaHead v) ?head,
    fun s port v hacc hen hhalt => State.ends_write hacc decodeReg_rotaHead (s.chip.writeAt_rotaHead v) ?headKept,
    fun s port v hacc => State.ends_write hacc decodeReg_rotaCtl (s.chip.writeAt_rotaCtl (v ||| 2)) ?resume,
    fun s r x hlive hfind hcode hdue hroom => State.ends_live (·.repeaterCopy (r.val + 1)) hlive ?copy,
    fun s port v hacc => State.ends_write hacc decodeReg_repstop (s.chip.writeAt_repstop v) ?repstop⟩
  case bad =>
    have hbad : a.bad = true := by simpa [RotaAct.bad] using hbad
    have htouch := s.eng.touched_touchGroup 0
    rw [Engine.rotaRead_acts ⟨hrun, hne, hlast⟩ herrs ha hdue (by simp [Engine.rotaFull, hbad]), Engine.rotaEntryActs_of_bad hbad]
    obtain ⟨hcnt, hhead, hqueue, -, hlog, hoff, htb⟩ := ((s.eng.touchGroup 0).entryDropped_shows (cnt := R.ROTA_BADCNT) (e := R.E_ROTA_BADENT) (by decide) rfl (by decide) 0x0214 a).past htouch (by decide)
    exact ⟨hcnt, hhead, hqueue, hlog, State.kept_withEng hoff htb⟩
  case double =>
    obtain ⟨a, hdropped⟩ := Engine.rotaRead_double ⟨hrun, hne, hlast⟩ s.chip.tanks
    obtain ⟨hbit, hrota, htb, hreg⟩ := s.eng.doubleMet_shows
    rw [hdropped]
    have hdrop := s.eng.doubleMet.entryDropped_shows (cnt := R.ROTA_BADCNT) (e := R.E_ROTA_BADENT) (by decide) rfl (by decide) 0x0214 a
    have hlow : ∀ b < 0xC0000, s.eng.doubleMet.reg b = s.eng.reg b := fun b hb => hreg b fun h => by
      rcases List.mem_cons.1 h with rfl | h
      · exact absurd hb (by decide)
      · exact absurd (tankEccRegs_ge h) (Nat.not_le.2 hb)
    refine ⟨?_, ?_, ?_, (Engine.hasBit_of_reg (hdrop.off _ (by decide))).trans hbit, State.kept_withEng (fun b hb => ?_) (hdrop.tb.trans htb)⟩
    · exact hdrop.count.trans (congrArg (satAdd · 1) (hlow _ (by decide)))
    · exact hdrop.head.trans (congrArg (fun h => (h + 1) % 16384) (Engine.fld_of_reg (hlow _ (by decide))))
    · exact hdrop.queue.trans (congrArg (·.queue) hrota)
    · simp only [List.cons_append, List.nil_append, List.mem_cons, not_or] at hb
      exact (hdrop.off b (by simp [hb])).trans (hreg b (by simp [hb]))
  case order =>
    have htouch := s.eng.touched_touchGroup 0
    rw [Engine.rotaRead_acts ⟨hrun, hne, hlast⟩ herrs ha hdue (by simp [Engine.rotaFull, horder]), Engine.rotaEntryActs_of_outOfOrder hbad ((htouch.outOfOrder a).trans horder)]
    have hdrop := (s.eng.touchGroup 0).entryDropped_shows (cnt := R.ROTA_ORDERCNT) (e := R.E_ROTA_ORDER) (by decide) rfl (by decide) 0x0212 a
    obtain ⟨hcnt, hhead, hqueue, href, hlog, hoff, htb⟩ := hdrop.past htouch (by decide)
    exact ⟨hcnt, hdrop.bit, hhead, hqueue, href, hlog, State.kept_withEng hoff htb⟩
  case nop =>
    have htouch := s.eng.touched_touchGroup 0
    rw [Engine.rotaRead_acts ⟨hrun, hne, hlast⟩ herrs ha hdue (by simp [Engine.rotaFull, hcode]), Engine.rotaEntryActs_of_nop hbad ((htouch.outOfOrder a).trans horder) hcode]
    have href := (s.eng.touchGroup 0).refTaken_shows a
    obtain ⟨hqueue, hhead, hoff, htb⟩ := href.past htouch
    exact ⟨hqueue, href.refTb, hhead, State.kept_withEng hoff htb⟩
  case placed =>
    have htouch := s.eng.touched_touchGroup 0
    have hfull : s.eng.rotaFull a = false := by simp [Engine.rotaFull, hroom]
    have href := (s.eng.touchGroup 0).refTaken_shows a
    have hcycle : ((s.eng.touchGroup 0).refTaken a).cycle = s.eng.cycle := href.cycle.trans htouch.cycle
    rw [Engine.rotaRead_acts ⟨hrun, hne, hlast⟩ herrs ha hdue hfull, Engine.rotaEntryActs_of_act hbad ((htouch.outOfOrder a).trans horder) (by omega),
      Engine.placeOrSkip_of_onTime (by rw [hcycle]; exact htime), Engine.place_of_ne (by omega)]
    obtain ⟨hqueue, hhead, hoff, htb⟩ := href.past htouch
    have hrefTb := href.refTb
    generalize (s.eng.touchGroup 0).refTaken a = m at *
    by_cases hrep : bitsOf a.word 12 3 = 0
    · simp only [hrep, if_true, List.append_nil]
      exact ⟨congrArg (placeAct a) hqueue, hrefTb, hhead, fun h => absurd rfl h, State.kept_withEng hoff htb⟩
    · simp only [hrep, if_false]
      have hlt : bitsOf a.word 12 3 < 32 := (bitsOf_lt _ _ _).trans (by decide)
      obtain ⟨hactive, hremain, hreps, hqueue', hrefTb', hoff', htb'⟩ := (m.setRota { m.rota with queue := placeAct a m.rota.queue }).loadRepeater_shows hlt a
      have hhead' : R.ROTA_HEAD_INDEX.addr ∉ [R.ROTA_REPACTIVE, R.ROTA_REP_REMAIN (bitsOf a.word 12 3 - 1)] := by
        simp only [R.ROTA_HEAD_INDEX, R.ROTA_HEAD, R.ROTA_REPACTIVE, R.ROTA_REP_REMAIN, List.mem_cons, List.not_mem_nil, or_false]
        omega
      have hcount : R.ROTA_REP_COUNT (bitsOf a.word 12 3 - 1) ∉ [R.ROTA_HEAD, statusAddr 0xA2, R.TANK_RETSTAT] := by
        have hr : bitsOf a.word 12 3 < 8 := bitsOf_lt _ _ _
        have hretstat : R.TANK_RETSTAT = 0xC0048 := rfl
        simp only [R.ROTA_REP_COUNT, R.ROTA_HEAD, statusAddr, hretstat, List.mem_cons, List.not_mem_nil, or_false]
        omega
      refine ⟨hqueue'.trans (congrArg (placeAct a) hqueue), hrefTb'.trans hrefTb, (Engine.fld_of_reg (hoff' _ hhead')).trans hhead, fun _ => ⟨hactive, hremain.trans (hoff _ hcount), hreps⟩,
        State.kept_withEng (fun b hb => ?_) (htb'.trans htb)⟩
      rw [List.mem_append, not_or] at hb
      exact (hoff' b hb.2).trans (hoff b hb.1)
  case late =>
    have htouch := s.eng.touched_touchGroup 0
    have hfull : s.eng.rotaFull a = false := by simp [Engine.rotaFull, hroom]
    have href := (s.eng.touchGroup 0).refTaken_shows a
    have hcycle : ((s.eng.touchGroup 0).refTaken a).cycle = s.eng.cycle := href.cycle.trans htouch.cycle
    rw [Engine.rotaRead_acts ⟨hrun, hne, hlast⟩ herrs ha (by omega) hfull, Engine.rotaEntryActs_of_act hbad ((htouch.outOfOrder a).trans horder) (by omega), if_pos hrep]
    obtain ⟨hqueue, hhead, hoff, htb⟩ := href.past htouch
    have hrefTb := href.refTb
    generalize (s.eng.touchGroup 0).refTaken a = m at *
    rw [← hcycle] at hlate
    cases hskip : bitAt a.word 8 with
    | true =>
      have htold := m.lateTold_shows (cnt := R.ROTA_SKIPCNT) (e := R.E_ROTA_SKIP) (by decide) rfl (by decide) 0x0211 (a.word + a.target * 2 ^ 16) a
      rw [Engine.placeOrSkip_of_skip hlate hskip]
      generalize m.lateTold R.ROTA_SKIPCNT R.E_ROTA_SKIP 0x0211 (a.word + a.target * 2 ^ 16) a = m' at *
      obtain ⟨hcount, hbit, hlast', hoff', hrota, htb'⟩ := htold
      refine ⟨(congrArg (·.refTb) hrota).trans hrefTb, hlast', (Engine.fld_of_reg (hoff' _ (by decide))).trans hhead,
        fun _ => ⟨(congrArg (·.queue) hrota).trans hqueue, hcount.trans (congrArg (satAdd · 1) (hoff _ (by decide))), hbit⟩, fun h => Bool.noConfusion h, State.kept_withEng (fun b hb => ?_) (htb'.trans htb)⟩
      simp only [List.mem_cons, List.not_mem_nil, or_false, not_or] at hb
      exact (hoff' b (by simp [hb])).trans (hoff b (by simp [hb]))
    | false =>
      have hinstant : m.lateInstant a = tbOfCycle (s.eng.cycle + 16) + (if tickPlaced a.code then BitVec.ofNat 64 (a.tb.toNat % 16) else 0) := by rw [Engine.lateInstant, hcycle]
      have htold := m.lateTold_shows (cnt := R.ROTA_LATECNT) (e := R.E_ROTA_LATE) (by decide) rfl (by decide) 0x0210
        (a.word + min (((m.lateInstant a).toNat - a.tb.toNat) / 16) 0xFFFF * 2 ^ 16) a
      rw [Engine.placeOrSkip_of_late hlate hskip, Engine.place_of_ne (a := { a with eff := m.lateInstant a }) (show a.code ≠ 1 by omega), hinstant]
      rw [hinstant] at htold
      generalize m.lateTold R.ROTA_LATECNT R.E_ROTA_LATE 0x0210 _ a = m' at *
      obtain ⟨hcount, hbit, hlast', hoff', hrota, htb'⟩ := htold
      refine ⟨(congrArg (·.refTb) hrota).trans hrefTb, hlast', (Engine.fld_of_reg (hoff' _ (by decide))).trans hhead, fun h => Bool.noConfusion h,
        fun _ => ⟨hcount.trans (congrArg (satAdd · 1) (hoff _ (by decide))), hbit, congrArg (placeAct _) ((congrArg (·.queue) hrota).trans hqueue)⟩, State.kept_withEng (fun b hb => ?_) (htb'.trans htb)⟩
      simp only [List.mem_cons, List.not_mem_nil, or_false, not_or] at hb
      exact (hoff' b (by simp [hb])).trans (hoff b (by simp [hb]))
  case arm =>
    have htouch := s.eng.touched_touchGroup 0
    have hfull : s.eng.rotaFull a = false := by simp [Engine.rotaFull, hcode, queueOf, hroom]
    have href := (s.eng.touchGroup 0).refTaken_shows a
    have hcycle : ((s.eng.touchGroup 0).refTaken a).cycle = s.eng.cycle := href.cycle.trans htouch.cycle
    rw [Engine.rotaRead_acts ⟨hrun, hne, hlast⟩ herrs ha hdue hfull, Engine.rotaEntryActs_of_act hbad ((htouch.outOfOrder a).trans horder) (by omega), if_pos hrep,
      Engine.placeOrSkip_of_onTime (by rw [hcycle]; exact htime)]
    obtain ⟨hqueue, hhead, hoff, htb⟩ := href.past htouch
    have hrefTb := href.refTb
    have hcc := href.cc.trans htouch.cc
    have harming := href.arming.trans htouch.arming
    have hheld := href.held.trans htouch.held
    have hstore := href.store.trans htouch.store
    generalize (s.eng.touchGroup 0).refTaken a = m at *
    have hplace : m.place a = (m.setRota { m.rota with queue := placeAct a m.rota.queue }).armRequest 1 (some a) := if_pos hcode
    have hwrites' : (m.setRota { m.rota with queue := placeAct a m.rota.queue }).cycleWrites = [] := by
      rw [← hwrites]
      simp only [Engine.cycleWrites, Engine.setRota, hstore, hcc]
    have hstream : m.rotaRequest a = s.eng.rotaRequest a := by
      have hreg : ∀ n < 48, m.heldReg (R.RU_STREAM n) = s.eng.heldReg (R.RU_STREAM n) := fun n hn => by
        have hne : R.RU_STREAM n ∉ [R.ROTA_HEAD, statusAddr 0xA2, R.TANK_RETSTAT] := by
          have hretstat : R.TANK_RETSTAT = 0xC0048 := rfl
          simp only [R.RU_STREAM, R.ROTA_HEAD, statusAddr, hretstat, List.mem_cons, List.not_mem_nil, or_false]
          omega
        simp only [Engine.heldReg, Engine.allHeld, hheld, harming, hoff _ hne]
      simp only [Engine.rotaRequest, hcc, List.map_congr_left fun n hn => hreg n (List.mem_range.1 hn)]
    rw [hplace, Engine.armRequest_rota (m := m.setRota { m.rota with queue := placeAct a m.rota.queue }) ((Engine.flag_of_reg (hoff _ (by decide))).trans harmed) (harming.trans hnone) ((Engine.flag_of_reg (hoff _ (by decide))).trans hset)
      ((congrArg (· == 3) (Engine.fld_of_reg (hoff _ (by decide)))).trans hready) hwrites']
    refine ⟨congrArg (placeAct a) hqueue, hrefTb, congrArg some hstream, Engine.flag_setFlag_same _ _ _ (by decide) rfl, ?_, State.kept_withEng (fun b hb => ?_) htb⟩
    · exact (Engine.fld_setFlag_ne _ _ (by decide)).trans hhead
    · simp only [List.mem_cons, List.not_mem_nil, or_false, not_or] at hb
      exact (Engine.reg_setReg_ne _ _ hb.2.2.2).trans (hoff b (by simp [hb]))
  case head =>
    have hstill : ((s.eng.headOffered v).flag R.ROTA_CTL_EN && !(s.eng.headOffered v).flag R.ROTA_STATUS_HALTED) = false := by
      rw [Engine.flag_of_reg (s.eng.reg_headOffered v _), Engine.flag_of_reg (s.eng.reg_headOffered v _)]
      rcases hstill with h | h <;> simp [h]
    have hhead : (s.eng.headOffered v).rotaHead (bitsOf v.toNat 0 14) = ((s.eng.headOffered v).setFld R.ROTA_HEAD_INDEX (bitsOf v.toNat 0 14)).setRota { s.eng.rota with refTb := none } :=
      if_neg (by simp [hstill])
    change _ ∧ _
    rw [show ((s.eng.storeFields rotaHeadHit R.ROTA_HEAD v).setReg R.ROTA_HEAD (s.eng.reg R.ROTA_HEAD)) = s.eng.headOffered v from rfl, hhead]
    refine ⟨((s.eng.headOffered v).fld_setFld_same R.ROTA_HEAD_INDEX _ (by decide)).trans (Nat.mod_eq_of_lt (bitsOf_lt _ _ _)), rfl, rfl, State.kept_withEng (fun b hb => ?_) rfl⟩
    exact (Engine.reg_setFld_off hb _ _ (by decide)).trans (s.eng.reg_headOffered v b)
  case headKept =>
    have hruns : ((s.eng.headOffered v).flag R.ROTA_CTL_EN && !(s.eng.headOffered v).flag R.ROTA_STATUS_HALTED) = true := by
      rw [Engine.flag_of_reg (s.eng.reg_headOffered v _), Engine.flag_of_reg (s.eng.reg_headOffered v _), hen, hhalt]
      rfl
    have hkept : (s.eng.headOffered v).rotaHead (bitsOf v.toNat 0 14) = s.eng.headOffered v := if_pos hruns
    change _ ∧ _
    rw [show ((s.eng.storeFields rotaHeadHit R.ROTA_HEAD v).setReg R.ROTA_HEAD (s.eng.reg R.ROTA_HEAD)) = s.eng.headOffered v from rfl, hkept]
    exact ⟨rfl, rfl, State.kept_withEng (fun b _ => s.eng.reg_headOffered v b) rfl⟩
  case resume =>
    obtain ⟨hhalted, hen, htank, hoff, htb⟩ := s.eng.rotaCtl_shows v
    exact ⟨hhalted, hen, htank, rfl, State.kept_withEng hoff htb⟩
  case copy =>
    rw [Engine.repeaterCopy_onTime hfind hcode hdue hroom]
    have hremain := s.eng.remain_copyCounted (r.val + 1) (x.left.map (· - 1))
    have hoff : ∀ b, b ∉ [R.ROTA_REP_REMAIN r, R.ROTA_REPACTIVE, statusAddr 0xA2] → (s.eng.copyCounted (r.val + 1) (x.left.map (· - 1))).reg b = s.eng.reg b := fun b hb =>
      Engine.reg_setReg_off hb (s.eng.setRota _) _ (by simp)
    have htb : (s.eng.copyCounted (r.val + 1) (x.left.map (· - 1))).tb = s.eng.tb := rfl
    generalize s.eng.copyCounted (r.val + 1) (x.left.map (· - 1)) = m at *
    split_ifs with hlast
    · obtain ⟨-, hzero, hqueue, hoff', htb'⟩ := (m.setRota { m.rota with queue := placeAct (copyOf x) s.eng.rota.queue }).stopRepeater_shows (r.val + 1)
      have hgone := ((m.setRota { m.rota with queue := placeAct (copyOf x) s.eng.rota.queue }).stopRepeater_shows (r.val + 1)).gone
      generalize (m.setRota { m.rota with queue := placeAct (copyOf x) s.eng.rota.queue }).stopRepeater (r.val + 1) = m' at *
      obtain ⟨rs, ra, hstatus⟩ := m'.status_fields R.E_ROTA_REPDONE
      have hrota : (m'.status R.E_ROTA_REPDONE).rota = m'.rota := by rw [hstatus]
      refine ⟨(congrArg (·.queue) hrota).trans hqueue, fun _ => ⟨Engine.hasBit_status_same _ _ (by decide), by rw [State.eng_withEng, hrota]; exact hgone⟩, ?_,
        State.kept_withEng (fun b hb => ?_) ((Engine.status_tb _ _).trans (htb'.trans htb))⟩
      · refine (Engine.reg_status_ne _ _ ?_).trans (hzero.trans (by rw [hlast]; rfl))
        have hpage : statusAddr R.E_ROTA_REPDONE.page = 0xA2010 := rfl
        rw [hpage, R.ROTA_REP_REMAIN]
        omega
      · refine (Engine.reg_status_off hb _ (b := R.E_ROTA_REPDONE) (by simp [R.E_ROTA_REPDONE])).trans ((hoff' b ?_).trans (hoff b hb))
        simp only [List.mem_cons, List.not_mem_nil, or_false, not_or] at hb
        simp [hb]
    · exact ⟨rfl, fun h => absurd (by rw [h]; rfl) hlast, hremain, State.kept_withEng hoff htb⟩
  case repstop =>
    obtain ⟨hgone, hoff, htb⟩ := (s.eng.storeFields repstopHit R.ROTA_REPSTOP v).repStopped v.toNat 7
    refine ⟨fun i hi => hgone i i.isLt hi, rfl, State.kept_withEng (fun b hb => ?_) htb⟩
    simp only [List.cons_append, List.nil_append] at hb
    exact (hoff b fun h => hb (List.mem_cons_of_mem _ h)).trans (s.eng.reg_storeFields_ne _ v fun e => hb (e ▸ List.mem_cons_self))

end Sys2Proof.Machine
end

section
/-! SUPPORT. What keeps the time (R169). A step of the engine is steady where it moves neither TB nor CC, no load of TB that waits, no state of the clocks and no write that waits for them: a frame of every other part
([.any]). A lemma for each operation says that what follows it is steady exactly where what precedes it is, so that simp peels a chain of operations from the outside. They stand in the order of the
model's units. -/

namespace Sys2Proof.Machine
open Sys2Proof
variable {m m' : Engine} {c : Chip}

/-- A frame of everything is a frame of time alone. -/
theorem steady_of_times {m m' : Engine} (h : m'.times = m.times) : Engine.Within [.any] m m' := ⟨h, fun _ ha => by simp at ha, fun _ hp => by simp at hp⟩

/-- A loop each pass of which is steady. -/
theorem steady_loop {k : Nat} {f : Nat → Engine → Engine} (h : ∀ n x, Engine.Within [.any] x (f n x)) : Engine.Within [.any] m (forEach k f m') ↔ Engine.Within [.any] m m' :=
  within_loop fun n _ x => h n x

theorem steady_fold {α : Type} {f : Engine → α → Engine} (xs : List α) (h : ∀ x a, Engine.Within [.any] x (f x a)) : Engine.Within [.any] m (xs.foldl f m') ↔ Engine.Within [.any] m m' :=
  within_fold xs fun x a _ => h x a

theorem steady_pairFold {α β : Type} {f : Engine × β → α → Engine × β} (xs : List α) (h : ∀ s a, Engine.Within [.any] s.1 (f s a).1) (s : Engine × β) :
    Engine.Within [.any] m (xs.foldl f s).1 ↔ Engine.Within [.any] m s.1 := (within_pairFold xs (fun s a _ => h s a) s).step_self

theorem steady_chipFold {α : Type} {f : Chip → α → Chip} (xs : List α) (h : ∀ x a, Engine.Within [.any] x.eng (f x a).eng) (c : Chip) :
    Engine.Within [.any] m (xs.foldl f c).eng ↔ Engine.Within [.any] m c.eng := (within_chipFold xs h c).step_self

@[simp] theorem steady_drawIf (p : Prop) [Decidable p] (k : Nat) : Engine.Within [.any] m (if p then m'.draw else (k, m')).2 ↔ Engine.Within [.any] m m' := by
  split <;> simp

/-! Flags, logged causes and raised events. -/

@[simp] theorem steady_raise (page : Nat) (bits : Word) : Engine.Within [.any] m (m'.raise page bits) ↔ Engine.Within [.any] m m' := by
  refine Engine.Within.step_self ?_
  unfold Engine.raise
  split <;> exact steady_of_times rfl

@[simp] theorem steady_pageFault (page bit : Nat) (port : Port) (write : Bool) (off : Nat) : Engine.Within [.any] m (m'.pageFault page bit port write off) ↔ Engine.Within [.any] m m' := Engine.Within.step_self (by simp [Engine.pageFault])
@[simp] theorem steady_parityFault (page bit off : Nat) : Engine.Within [.any] m (m'.parityFault page bit off) ↔ Engine.Within [.any] m m' := Engine.Within.step_self (by simp [Engine.parityFault])

/-! The intakes. -/

@[simp] theorem steady_xctlWritten (n : Nat) : Engine.Within [.any] m (m'.xctlWritten n) ↔ Engine.Within [.any] m m' := Engine.Within.step_self (by simp [Engine.xctlWritten, steady_fold])

@[simp] theorem steady_showSet (n last : Nat) (tb : Tb) : Engine.Within [.any] m (m'.showSet n last tb) ↔ Engine.Within [.any] m m' := by
  refine Engine.Within.step_self ?_
  unfold Engine.showSet
  dsimp only
  split
  · exact .refl _ _
  split <;> simp

@[simp] theorem steady_disturb (n : Nat) : Engine.Within [.any] m (m'.disturb n) ↔ Engine.Within [.any] m m' := Engine.Within.step_self (by simp [Engine.disturb])
@[simp] theorem steady_changeSet (n off : Nat) (b w r : Bool) : Engine.Within [.any] m (m'.changeSet n off b w r) ↔ Engine.Within [.any] m m' := Engine.Within.step_self (by simp [Engine.changeSet])
@[simp] theorem steady_thrselApply (n : Nat) : Engine.Within [.any] m (m'.thrselApply n) ↔ Engine.Within [.any] m m' := Engine.Within.step_self (by simp [Engine.thrselApply])
@[simp] theorem steady_setAtReset (n : Nat) : Engine.Within [.any] m (m'.setAtReset n) ↔ Engine.Within [.any] m m' := Engine.Within.step_self (by simp [Engine.setAtReset])
@[simp] theorem steady_thresholdStatus (n : Nat) : Engine.Within [.any] m (m'.thresholdStatus n) ↔ Engine.Within [.any] m m' := Engine.Within.step_self (by simp [Engine.thresholdStatus])
@[simp] theorem steady_moveDac (n k code : Nat) : Engine.Within [.any] m (m'.moveDac n k code) ↔ Engine.Within [.any] m m' := Engine.Within.step_self (by simp [Engine.moveDac])
@[simp] theorem steady_thresholdWritten (n : Nat) (setB : Bool) : Engine.Within [.any] m (m'.thresholdWritten n setB) ↔ Engine.Within [.any] m m' := Engine.Within.step_self (by simp [Engine.thresholdWritten])
@[simp] theorem steady_ckthrWritten (n : Nat) : Engine.Within [.any] m (m'.ckthrWritten n) ↔ Engine.Within [.any] m m' := Engine.Within.step_self (by simp [Engine.ckthrWritten])

@[simp] theorem steady_calGo (n : Nat) (armed : Bool) : Engine.Within [.any] m (m'.calGo n armed) ↔ Engine.Within [.any] m m' := by
  refine Engine.Within.step_self ?_
  unfold Engine.calGo
  dsimp only
  split
  · simp
  · have hclear : Engine.Within [.any] m' (forEach 48 (fun x m => (m.setReg (R.INTK_CALSUM n x) 0).setReg (R.INTK_CALMISS n x) 0) m') :=
      (steady_loop fun k x => by simp).2 (.refl _ _)
    generalize forEach 48 _ m' = x at hclear ⊢
    exact hclear.trans (steady_of_times rfl)

/-! The reach units. -/

@[simp] theorem steady_eyeGo (n : Nat) : Engine.Within [.any] m (m'.eyeGo n) ↔ Engine.Within [.any] m m' := Engine.Within.step_self (by simp [Engine.eyeGo, steady_loop])

/-! The gauges. -/

@[simp] theorem steady_tctlWritten (n b g : Nat) (old : Engine) : Engine.Within [.any] m (m'.tctlWritten n b g old) ↔ Engine.Within [.any] m m' := Engine.Within.step_self (by simp [Engine.tctlWritten])
@[simp] theorem steady_cntWritten (n g : Nat) (high : Bool) : Engine.Within [.any] m (m'.cntWritten n g high) ↔ Engine.Within [.any] m m' := Engine.Within.step_self (by simp [Engine.cntWritten])

/-! The confluence and the sluice. -/

@[simp] theorem steady_setselWritten : Engine.Within [.any] m m'.setselWritten ↔ Engine.Within [.any] m m' := by
  refine Engine.Within.step_self ?_
  unfold Engine.setselWritten
  split <;> simp [↓within_update]

@[simp] theorem steady_setPass (t : Memory) (s : Bool) : Engine.Within [.any] m (m'.setPass t s).1 ↔ Engine.Within [.any] m m' := Engine.Within.step_self (by simp [Engine.setPass])
@[simp] theorem steady_crcFail (s : Bool) (k : Nat) : Engine.Within [.any] m (m'.crcFail s k) ↔ Engine.Within [.any] m m' := Engine.Within.step_self (by simp [Engine.crcFail])

/-- A pass over a table's tanks is steady, in the form that a definition's pattern match leaves. -/
theorem steady_of_setPass {x : Engine} {t : Memory} {s : Bool} {bad : Option Nat} (h : m'.setPass t s = (x, bad)) : Engine.Within [.any] m' x := by
  have hx : (m'.setPass t s).1 = x := by rw [h]
  exact hx ▸ (steady_setPass t s).2 (.refl _ _)

@[simp] theorem steady_verifyDone (t : Memory) : Engine.Within [.any] m (m'.verifyDone t) ↔ Engine.Within [.any] m m' := by
  refine Engine.Within.step_self ?_
  unfold Engine.verifyDone
  split
  · exact .refl _ _
  rename_i s _
  rcases hp : m'.setPass t s with ⟨m1, bad⟩
  dsimp -zeta only
  extract_lets m2 m3 w r m4
  have hm1 : Engine.Within [.any] m' m1 := steady_of_setPass hp
  have hm2 : Engine.Within [.any] m1 m2 := by
    unfold m2
    split <;> simp
  have hm3 : Engine.Within [.any] m2 m3 := by simp [m3]
  have h : Engine.Within [.any] m' m4 := ((hm1.trans hm2).trans hm3).trans (steady_of_times rfl)
  clear_value w
  cases w with
  | none => exact h
  | some s => exact (within_verify _ (by simp)).2 h

@[simp] theorem steady_crcBackground (t : Memory) : Engine.Within [.any] m (m'.crcBackground t) ↔ Engine.Within [.any] m m' := by
  refine Engine.Within.step_self ?_
  unfold Engine.crcBackground
  split
  · exact .refl _ _
  extract_lets s
  rcases hp : m'.setPass t s with ⟨m1, bad⟩
  dsimp -zeta only
  extract_lets m2
  have hm2 : Engine.Within [.any] m' m2 := by
    refine (steady_of_setPass hp).trans ?_
    unfold m2
    split <;> simp
  split
  · exact hm2
  rcases hq : m2.setPass t (!s) with ⟨m3, bad3⟩
  have hm3 : Engine.Within [.any] m' m3 := hm2.trans (steady_of_setPass hq)
  dsimp only
  split
  · exact hm3
  · simp [hm3]

@[simp] theorem steady_snapGo : Engine.Within [.any] m m'.snapGo ↔ Engine.Within [.any] m m' := by
  refine Engine.Within.step_self ?_
  unfold Engine.snapGo
  dsimp only
  repeat' split
  · exact steady_of_times rfl
  · simp
  · exact steady_of_times rfl

@[simp] theorem steady_snapTake : Engine.Within [.any] m m'.snapTake ↔ Engine.Within [.any] m m' := within_snapTake (by simp)

/-! The tanks. -/

@[simp] theorem steady_retentionEnter (g : Nat) : Engine.Within [.any] m (m'.retentionEnter g) ↔ Engine.Within [.any] m m' := by
  refine Engine.Within.step_self ?_
  unfold Engine.retentionEnter
  dsimp only
  repeat' split
  · exact steady_of_times rfl
  · exact .refl _ _
  · exact steady_of_times rfl
  · exact .refl _ _

@[simp] theorem steady_retreqWritten : Engine.Within [.any] m m'.retreqWritten ↔ Engine.Within [.any] m m' := Engine.Within.step_self (by simp [Engine.retreqWritten, steady_loop, ↓within_update])
@[simp] theorem steady_copyErrors (src dst : Nat) : Engine.Within [.any] m (m'.copyErrors src dst) ↔ Engine.Within [.any] m m' := Engine.Within.step_self (by simp [Engine.copyErrors, steady_fold, ↓within_update])
@[simp] theorem steady_tankRefuse (n : Nat) (mgmt write : Bool) : Engine.Within [.any] m (m'.tankRefuse n mgmt write) ↔ Engine.Within [.any] m m' := Engine.Within.step_self (by simp [Engine.tankRefuse])

@[simp] theorem steady_wordWrite (w : Nat) (part : List (Option Byte)) (met : Ecc) (collides : Bool) : Engine.Within [.any] m (c.wordWrite w part met collides).eng ↔ Engine.Within [.any] m c.eng := by
  refine Engine.Within.step_self ?_
  unfold Chip.wordWrite
  dsimp only
  repeat' split
  all_goals simp

@[simp] theorem steady_touchSpan (off len : Nat) : Engine.Within [.any] m (m'.touchSpan off len) ↔ Engine.Within [.any] m m' := Engine.Within.step_self (by simp [Engine.touchSpan])

@[simp] theorem steady_tankRead (off len : Nat) (found : List (Ecc × Bool)) : Engine.Within [.any] m (c.tankRead off len found).1.eng ↔ Engine.Within [.any] m c.eng := by
  refine Engine.Within.step_self ?_
  unfold Chip.tankRead
  dsimp only
  all_goals simp [steady_pairFold]

@[simp] theorem steady_tankWrite (off : Nat) (bytes : List (Option Byte)) (found : List (Ecc × Bool)) : Engine.Within [.any] m (c.tankWrite off bytes found).eng ↔ Engine.Within [.any] m c.eng := by
  refine Engine.Within.step_self ?_
  unfold Chip.tankWrite
  dsimp only
  all_goals simp [steady_chipFold]

@[simp] theorem steady_judgeHandover (n req : Nat) : Engine.Within [.any] m (m'.judgeHandover n req) ↔ Engine.Within [.any] m m' := by
  refine Engine.Within.step_self ?_
  unfold Engine.judgeHandover
  dsimp only
  repeat' split
  · simp
  · simp
  · exact steady_of_times rfl

@[simp] theorem steady_ownWritten (n : Nat) : Engine.Within [.any] m (m'.ownWritten n) ↔ Engine.Within [.any] m m' := Engine.Within.step_self (by simp [Engine.ownWritten, ↓within_update])
@[simp] theorem steady_handoverSet (s : Bool) (n : Nat) : Engine.Within [.any] m (m'.handoverSet s n) ↔ Engine.Within [.any] m m' := Engine.Within.step_self (by simp [Engine.handoverSet])

@[simp] theorem steady_handoverDone (n : Nat) : Engine.Within [.any] m (m'.handoverDone n) ↔ Engine.Within [.any] m m' := by
  refine Engine.Within.step_self ?_
  unfold Engine.handoverDone
  split
  · exact .refl _ _
  split
  · exact .refl _ _
  rename_i h _ _
  extract_lets r m1 old m2 m3 m4 m5
  have hm1 : Engine.Within [.any] m' m1 := steady_of_times rfl
  have hm5 : Engine.Within [.any] m1 m5 := by simp [m5, m4, m3, m2]
  split
  · exact hm1.trans hm5
  · rw [steady_judgeHandover]
    exact (hm1.trans hm5).trans (steady_of_times rfl)

@[simp] theorem steady_tbistGo : Engine.Within [.any] m m'.tbistGo ↔ Engine.Within [.any] m m' := Engine.Within.step_self (by simp [Engine.tbistGo, ↓within_update])
@[simp] theorem steady_tbistEnd : Engine.Within [.any] m m'.tbistEnd ↔ Engine.Within [.any] m m' := Engine.Within.step_self (by simp [Engine.tbistEnd])

@[simp] theorem steady_tankFails (t : Nat) (bad : List (Nat × Nat)) : Engine.Within [.any] m (m'.tankFails t bad) ↔ Engine.Within [.any] m m' := by
  refine Engine.Within.step_self ?_
  unfold Engine.tankFails
  dsimp only
  split <;> simp

@[simp] theorem steady_remap (t sp : Nat) : Engine.Within [.any] m (m'.remap t sp) ↔ Engine.Within [.any] m m' := Engine.Within.step_self (by simp [Engine.remap])

@[simp] theorem steady_tbistPhase (bad : List (Nat × Nat)) : Engine.Within [.any] m (c.tbistPhase bad).eng ↔ Engine.Within [.any] m c.eng := by
  refine Engine.Within.step_self ?_
  unfold Chip.tbistPhase
  dsimp only
  repeat' split
  all_goals simp [↓within_update]

/-! The gates. -/

@[simp] theorem steady_gateCommandTick : Engine.Within [.any] m m'.gateCommandTick ↔ Engine.Within [.any] m m' := by
  refine Engine.Within.step_self ?_
  unfold Engine.gateCommandTick
  repeat' split
  · exact .refl _ _
  · exact (steady_gateTick _).2 (.refl _ _)
  · exact .refl _ _

@[simp] theorem steady_gateRotaCommand (code : Nat) : Engine.Within [.any] m (m'.gateRotaCommand code) ↔ Engine.Within [.any] m m' := by
  refine Engine.Within.step_self ?_
  unfold Engine.gateRotaCommand
  split
  · exact .refl _ _
  split
  · simp [steady_gateRotaHead, steady_gateRun]
  · exact .refl _ _

@[simp] theorem steady_gatePulseEnd : Engine.Within [.any] m m'.gatePulseEnd ↔ Engine.Within [.any] m m' := by
  refine Engine.Within.step_self ?_
  unfold Engine.gatePulseEnd
  repeat' split
  · exact .refl _ _
  · simp [steady_gateRun]
  · exact .refl _ _

@[simp] theorem steady_bankcfgWritten (old : Word) : Engine.Within [.any] m (m'.bankcfgWritten old) ↔ Engine.Within [.any] m m' := Engine.Within.step_self (by simp [Engine.bankcfgWritten, steady_loop])

/-! Items and packs. -/

@[simp] theorem steady_markerFlush : Engine.Within [.any] m m'.markerFlush ↔ Engine.Within [.any] m m' := within_markerFlush (by simp)
@[simp] theorem steady_showFifo (n : Nat) : Engine.Within [.any] m (m'.showFifo n) ↔ Engine.Within [.any] m m' := Engine.Within.step_self (by simp [Engine.showFifo])

@[simp] theorem steady_packClose (n close : Nat) : Engine.Within [.any] m (m'.packClose n close) ↔ Engine.Within [.any] m m' := by
  refine Engine.Within.step_self ?_
  unfold Engine.packClose
  dsimp only
  repeat' split
  all_goals simp

@[simp] theorem steady_packFull (n : Nat) : Engine.Within [.any] m (m'.packFull n) ↔ Engine.Within [.any] m m' := by
  refine Engine.Within.step_self ?_
  unfold Engine.packFull
  split <;> simp

@[simp] theorem steady_packDiscard (n : Nat) : Engine.Within [.any] m (m'.packDiscard n) ↔ Engine.Within [.any] m m' := Engine.Within.step_self (by simp [Engine.packDiscard])

/-! Held configuration. -/

@[simp] theorem steady_takeConfig (a : Nat) (v : Word) : Engine.Within [.any] m (m'.takeConfig a v) ↔ Engine.Within [.any] m m' := within_takeConfig _ _ (by simp)

@[simp] theorem steady_hold (a : Nat) (v : Word) : Engine.Within [.any] m (m'.hold a v) ↔ Engine.Within [.any] m m' := by
  refine Engine.Within.step_self ?_
  unfold Engine.hold
  split <;> simp [↓within_update]

@[simp] theorem steady_noteWrite (a : Nat) (v : Word) (b : Bool) : Engine.Within [.any] m (m'.noteWrite a v b) ↔ Engine.Within [.any] m m' := by
  refine Engine.Within.step_self ?_
  unfold Engine.noteWrite
  split <;> exact steady_of_times rfl

@[simp] theorem steady_holdLate (a : Nat) (v : Word) : Engine.Within [.any] m (m'.holdLate a v) ↔ Engine.Within [.any] m m' := within_holdLate _ _ (by simp)

/-! Segments and markers. -/

@[simp] theorem steady_postFull (n : Nat) : Engine.Within [.any] m (m'.postFull n) ↔ Engine.Within [.any] m m' := within_postFull _ (by simp)
@[simp] theorem steady_boundaryNow : Engine.Within [.any] m m'.boundaryNow ↔ Engine.Within [.any] m m' := within_boundaryNow (by simp)

@[simp] theorem steady_segmentBoundary : Engine.Within [.any] m m'.segmentBoundary ↔ Engine.Within [.any] m m' := by
  refine Engine.Within.step_self ?_
  unfold Engine.segmentBoundary
  repeat' split
  all_goals simp

@[simp] theorem steady_postComplete : Engine.Within [.any] m m'.postComplete ↔ Engine.Within [.any] m m' := by
  refine Engine.Within.step_self ?_
  unfold Engine.postComplete
  repeat' split
  all_goals simp

@[simp] theorem steady_endCapture (close : Nat) (t : Tb) (cause : Option Nat) (settled : Bool) : Engine.Within [.any] m (m'.endCapture close t cause settled) ↔ Engine.Within [.any] m m' := within_endCapture _ _ _ _ (by simp)
@[simp] theorem steady_lockAcq (s : Nat) : Engine.Within [.any] m (m'.lockAcq s) ↔ Engine.Within [.any] m m' := Engine.Within.step_self (by simp [Engine.lockAcq])
@[simp] theorem steady_lockRel (s : Nat) : Engine.Within [.any] m (m'.lockRel s) ↔ Engine.Within [.any] m m' := Engine.Within.step_self (by simp [Engine.lockRel])
@[simp] theorem steady_markRead (s : Nat) : Engine.Within [.any] m (m'.markRead s) ↔ Engine.Within [.any] m m' := Engine.Within.step_self (by simp [Engine.markRead])
@[simp] theorem steady_lockctl (s : Nat) (acq rel read : Bool) : Engine.Within [.any] m (m'.lockctl s acq rel read) ↔ Engine.Within [.any] m m' := Engine.Within.step_self (by simp [Engine.lockctl])

/-! Arming. -/

@[simp] theorem steady_armCancel : Engine.Within [.any] m m'.armCancel ↔ Engine.Within [.any] m m' := within_armCancel (by simp)
@[simp] theorem steady_disarm : Engine.Within [.any] m m'.disarm ↔ Engine.Within [.any] m m' := Engine.Within.step_self (by simp [Engine.disarm])

/-! The rota. -/

@[simp] theorem steady_stopRepeater (r : Nat) : Engine.Within [.any] m (m'.stopRepeater r) ↔ Engine.Within [.any] m m' := Engine.Within.step_self (by simp [Engine.stopRepeater])

@[simp] theorem steady_repStop (bits : Nat) : Engine.Within [.any] m (m'.repStop bits) ↔ Engine.Within [.any] m m' :=
  Engine.Within.step_self ((steady_loop fun d x => by split <;> simp).2 (.refl _ _))

@[simp] theorem steady_repeaterCopy' (n : Nat) : Engine.Within [.any] m (m'.repeaterCopy n) ↔ Engine.Within [.any] m m' := by
  refine Engine.Within.step_self ?_
  unfold Engine.repeaterCopy
  dsimp only
  split
  · simp
  split
  · simp
  · simp

@[simp] theorem steady_rotaResume : Engine.Within [.any] m m'.rotaResume ↔ Engine.Within [.any] m m' := Engine.Within.step_self (by simp [Engine.rotaResume])
@[simp] theorem steady_rotaCtl (old : Word) (resume : Bool) : Engine.Within [.any] m (m'.rotaCtl old resume) ↔ Engine.Within [.any] m m' := Engine.Within.step_self (by simp [Engine.rotaCtl])
@[simp] theorem steady_rotaHead (v : Nat) : Engine.Within [.any] m (m'.rotaHead v) ↔ Engine.Within [.any] m m' := Engine.Within.step_self (by simp [Engine.rotaHead])

/-! The clocks. -/

@[simp] theorem steady_slewTo (n : Nat) : Engine.Within [.any] m (m'.slewTo n) ↔ Engine.Within [.any] m m' := Engine.Within.step_self (steady_of_times rfl)
@[simp] theorem steady_holdover : Engine.Within [.any] m m'.holdover ↔ Engine.Within [.any] m m' := Engine.Within.step_self (by simp [Engine.holdover])
@[simp] theorem steady_refLost : Engine.Within [.any] m m'.refLost ↔ Engine.Within [.any] m m' := Engine.Within.step_self (by simp [Engine.refLost])

@[simp] theorem steady_refRevert : Engine.Within [.any] m m'.refRevert ↔ Engine.Within [.any] m m' := by
  refine Engine.Within.step_self ?_
  unfold Engine.refRevert
  dsimp only
  split <;> simp

@[simp] theorem steady_refselWritten (n : Nat) : Engine.Within [.any] m (m'.refselWritten n) ↔ Engine.Within [.any] m m' := by
  refine Engine.Within.step_self ?_
  unfold Engine.refselWritten
  dsimp only
  split
  · exact .refl _ _
  split <;> simp

@[simp] theorem steady_refFlume : Engine.Within [.any] m m'.refFlume ↔ Engine.Within [.any] m m' := Engine.Within.step_self (by simp [Engine.refFlume])
@[simp] theorem steady_switchover : Engine.Within [.any] m m'.switchover ↔ Engine.Within [.any] m m' := Engine.Within.step_self (by simp [Engine.switchover])
@[simp] theorem steady_relock (ok : Bool) : Engine.Within [.any] m (m'.relock ok) ↔ Engine.Within [.any] m m' := Engine.Within.step_self (by simp [Engine.relock])

/-! The ring. -/

@[simp] theorem steady_relay (s : Side) (src dst : Nat) (b : FlitBody) : Engine.Within [.any] m (m'.relay s src dst b) ↔ Engine.Within [.any] m m' := Engine.Within.step_self (by simp [Engine.relay])
@[simp] theorem steady_reachUpdate : Engine.Within [.any] m m'.reachUpdate ↔ Engine.Within [.any] m m' := Engine.Within.step_self (by simp [Engine.reachUpdate])
@[simp] theorem steady_setPresent (bits : Nat) : Engine.Within [.any] m (m'.setPresent bits) ↔ Engine.Within [.any] m m' := Engine.Within.step_self (by simp [Engine.setPresent])
@[simp] theorem steady_linkChanged (s : Side) : Engine.Within [.any] m (m'.linkChanged s) ↔ Engine.Within [.any] m m' := Engine.Within.step_self (by simp [Engine.linkChanged])
@[simp] theorem steady_linkCameUp (s peer : Side) : Engine.Within [.any] m (m'.linkCameUp s peer) ↔ Engine.Within [.any] m m' := Engine.Within.step_self (by simp [Engine.linkCameUp])
@[simp] theorem steady_resendFrom (s : Side) (gone : Nat → Bool) : Engine.Within [.any] m (m'.resendFrom s gone) ↔ Engine.Within [.any] m m' := Engine.Within.step_self (by simp [Engine.resendFrom, steady_fold])
@[simp] theorem steady_resendBroken : Engine.Within [.any] m m'.resendBroken ↔ Engine.Within [.any] m m' := Engine.Within.step_self (by simp [Engine.resendBroken])
@[simp] theorem steady_linkLeaves (s : Side) (dest : Nat) : Engine.Within [.any] m (m'.linkLeaves s dest) ↔ Engine.Within [.any] m m' := Engine.Within.step_self (by simp [Engine.linkLeaves])
@[simp] theorem steady_linkWentDown (s : Side) : Engine.Within [.any] m (m'.linkWentDown s) ↔ Engine.Within [.any] m m' := Engine.Within.step_self (by simp [Engine.linkWentDown])
@[simp] theorem steady_linkRetries (s : Side) : Engine.Within [.any] m (m'.linkRetries s) ↔ Engine.Within [.any] m m' := Engine.Within.step_self (by simp [Engine.linkRetries])
@[simp] theorem steady_fluCtl (s : Side) (retrain : Bool) : Engine.Within [.any] m (m'.fluCtl s retrain) ↔ Engine.Within [.any] m m' := Engine.Within.step_self (by simp [Engine.fluCtl])
@[simp] theorem steady_flitCrc (s : Side) : Engine.Within [.any] m (m'.flitCrc s) ↔ Engine.Within [.any] m m' := Engine.Within.step_self (by simp [Engine.flitCrc])
@[simp] theorem steady_discovering : Engine.Within [.any] m m'.discovering ↔ Engine.Within [.any] m m' := Engine.Within.step_self (by simp [Engine.discovering])
@[simp] theorem steady_helloSend : Engine.Within [.any] m m'.helloSend ↔ Engine.Within [.any] m m' := Engine.Within.step_self (by simp [Engine.helloSend])
@[simp] theorem steady_helloHeard (s : Side) (src id : Nat) (port : Side) (pref : Nat) (hostup : Bool) (hostage stackCount hops : Nat) : Engine.Within [.any] m (m'.helloHeard s src id port pref hostup hostage stackCount hops) ↔ Engine.Within [.any] m m' := Engine.Within.step_self (by simp [Engine.helloHeard])
@[simp] theorem steady_hostLinkL0 : Engine.Within [.any] m m'.hostLinkL0 ↔ Engine.Within [.any] m m' := Engine.Within.step_self (by simp [Engine.hostLinkL0])
@[simp] theorem steady_hostLinkLeft : Engine.Within [.any] m m'.hostLinkLeft ↔ Engine.Within [.any] m m' := Engine.Within.step_self (by simp [Engine.hostLinkLeft])
@[simp] theorem steady_headElection : Engine.Within [.any] m m'.headElection ↔ Engine.Within [.any] m m' := Engine.Within.step_self (by simp [Engine.headElection])

@[simp] theorem steady_takePosition (p : Nat) : Engine.Within [.any] m (m'.takePosition p) ↔ Engine.Within [.any] m m' := by
  refine Engine.Within.step_self ?_
  unfold Engine.takePosition
  dsimp only
  split <;> simp

@[simp] theorem steady_assignHeard (s : Side) (id pos : Nat) (up : Bool) : Engine.Within [.any] m (m'.assignHeard s id pos up) ↔ Engine.Within [.any] m m' := Engine.Within.step_self (by simp [Engine.assignHeard])

@[simp] theorem steady_assignTimeout : Engine.Within [.any] m m'.assignTimeout ↔ Engine.Within [.any] m m' := by
  refine Engine.Within.step_self ?_
  unfold Engine.assignTimeout
  split <;> simp

@[simp] theorem steady_linkStateHeard (s : Side) (pos : Nat) (port : Side) (up : Bool) (hops : Nat) (armed : Bool) : Engine.Within [.any] m (m'.linkStateHeard s pos port up hops armed) ↔ Engine.Within [.any] m m' := Engine.Within.step_self (by simp [Engine.linkStateHeard])
@[simp] theorem steady_delayExchange (at_ : Nat) : Engine.Within [.any] m (m'.delayExchange at_) ↔ Engine.Within [.any] m m' := Engine.Within.step_self (by simp [Engine.delayExchange])
@[simp] theorem steady_dreqHeard (s : Side) (t1 at_ stay : Nat) : Engine.Within [.any] m (m'.dreqHeard s t1 at_ stay) ↔ Engine.Within [.any] m m' := Engine.Within.step_self (by simp [Engine.dreqHeard])
@[simp] theorem steady_drspHeard (s : Side) (t1 t2 t3 at_ : Nat) : Engine.Within [.any] m (m'.drspHeard s t1 t2 t3 at_) ↔ Engine.Within [.any] m m' := Engine.Within.step_self (by simp [Engine.drspHeard])
@[simp] theorem steady_syncSend : Engine.Within [.any] m m'.syncSend ↔ Engine.Within [.any] m m' := Engine.Within.step_self (by simp [Engine.syncSend])

@[simp] theorem steady_recordHeard (s : Side) (r : EvRec) : Engine.Within [.any] m (m'.recordHeard s r) ↔ Engine.Within [.any] m m' := by
  refine Engine.Within.step_self ?_
  unfold Engine.recordHeard
  dsimp only
  repeat' split
  all_goals simp [↓within_update]

@[simp] theorem steady_evHeard (s : Side) (rs : List EvRec) : Engine.Within [.any] m (m'.evHeard s rs) ↔ Engine.Within [.any] m m' := Engine.Within.step_self (by simp [Engine.evHeard, steady_fold])

@[simp] theorem steady_evRisk : Engine.Within [.any] m m'.evRisk ↔ Engine.Within [.any] m m' := by
  refine Engine.Within.step_self ?_
  unfold Engine.evRisk
  dsimp only
  split <;> simp

@[simp] theorem steady_sendAck (src : Nat) (nak : Bool) : Engine.Within [.any] m (m'.sendAck src nak) ↔ Engine.Within [.any] m m' := Engine.Within.step_self (by simp [Engine.sendAck])

@[simp] theorem steady_accept (src seq k : Nat) : Engine.Within [.any] m (m'.accept src seq k).1 ↔ Engine.Within [.any] m m' := by
  refine Engine.Within.step_self ?_
  unfold Engine.accept
  dsimp only
  repeat' split
  all_goals simp

@[simp] theorem steady_passOn (s : Side) (src dst : Nat) (b : FlitBody) : Engine.Within [.any] m (m'.passOn s src dst b) ↔ Engine.Within [.any] m m' := Engine.Within.step_self (by simp [Engine.passOn])

@[simp] theorem steady_receive (s : Side) (src dst seq k : Nat) (b : FlitBody) : Engine.Within [.any] m (m'.receive s src dst seq k b).1 ↔ Engine.Within [.any] m m' := by
  refine Engine.Within.step_self ?_
  unfold Engine.receive
  split
  · exact .refl _ _
  split
  · exact (steady_passOn _ _ _ _).2 (.refl _ _)
  · exact (steady_accept _ _ _).2 (.refl _ _)

@[simp] theorem steady_tellRing : Engine.Within [.any] m m'.tellRing ↔ Engine.Within [.any] m m' := by
  refine Engine.Within.step_self ((steady_fold _ fun x k => ?_).2 (.refl _ _))
  exact (steady_fold _ fun y q => by simp).2 (.refl _ _)

@[simp] theorem steady_rediscover : Engine.Within [.any] m m'.rediscover ↔ Engine.Within [.any] m m' := by
  refine Engine.Within.step_self ?_
  unfold Engine.rediscover
  extract_lets armed was m1 m2 m3 r m4 m5 m6
  split
  · simp
  · have hm1 : Engine.Within [.any] m' m1 := by simp [m1]
    have hm3 : Engine.Within [.any] m1 m3 := by simp [m3, m2]
    have hm4 : Engine.Within [.any] m3 m4 := (within_setRing _ (.inl (by simp))).2 (.refl _ _)
    have hm6 : Engine.Within [.any] m4 m6 := by simp [m6, m5]
    have h : Engine.Within [.any] m' m6 := ((hm1.trans hm3).trans hm4).trans hm6
    split
    · exact h
    · exact (within_status (by simp)).2 h

@[simp] theorem steady_ackDeadline (src : Nat) : Engine.Within [.any] m (m'.ackDeadline src) ↔ Engine.Within [.any] m m' := Engine.Within.step_self (by simp [Engine.ackDeadline])
@[simp] theorem steady_resend (dst : Nat) : Engine.Within [.any] m (m'.resend dst) ↔ Engine.Within [.any] m m' := Engine.Within.step_self (by simp [Engine.resend, steady_fold])
@[simp] theorem steady_ackHeard (s : Side) (src dst seq : Nat) (nak : Bool) : Engine.Within [.any] m (m'.ackHeard s src dst seq nak) ↔ Engine.Within [.any] m m' := Engine.Within.step_self (by simp [Engine.ackHeard])
@[simp] theorem steady_resendTimeout (dst : Nat) : Engine.Within [.any] m (m'.resendTimeout dst) ↔ Engine.Within [.any] m m' := Engine.Within.step_self (by simp [Engine.resendTimeout])
@[simp] theorem steady_cwrGo : Engine.Within [.any] m m'.cwrGo ↔ Engine.Within [.any] m m' := Engine.Within.step_self (by simp [Engine.cwrGo])

@[simp] theorem steady_crspHeard (s : Side) (src dst seq req data result : Nat) : Engine.Within [.any] m (m'.crspHeard s src dst seq req data result) ↔ Engine.Within [.any] m m' := by
  refine Engine.Within.step_self ?_
  unfold Engine.crspHeard
  dsimp only
  split <;> simp

@[simp] theorem steady_modeWrite (old mode : Bool) : Engine.Within [.any] m (m'.modeWrite old mode) ↔ Engine.Within [.any] m m' := by
  refine Engine.Within.step_self ?_
  unfold Engine.modeWrite
  dsimp only
  repeat' split
  all_goals simp

@[simp] theorem steady_modesetHeard (s : Side) (tb : Nat) (mode : Bool) : Engine.Within [.any] m (m'.modesetHeard s tb mode) ↔ Engine.Within [.any] m m' := by
  refine Engine.Within.step_self ?_
  unfold Engine.modesetHeard
  dsimp only
  repeat' split
  all_goals simp

/-! The cistern. -/

@[simp] theorem steady_setPc (p : Nat) (x : PcState) : Engine.Within [.any] m (m'.setPc p x) ↔ Engine.Within [.any] m m' := Engine.Within.step_self (by simp [Engine.setPc])
@[simp] theorem steady_setPcSt (d v : Nat) : Engine.Within [.any] m (m'.setPcSt d v) ↔ Engine.Within [.any] m m' := Engine.Within.step_self (by simp [Engine.setPcSt])
@[simp] theorem steady_cisEcc (ecc : Ecc) (a : Nat) : Engine.Within [.any] m (m'.cisEcc ecc a) ↔ Engine.Within [.any] m m' := within_cisEcc _ _ (by simp)
@[simp] theorem steady_offlineRead (a len : Nat) : Engine.Within [.any] m (m'.offlineRead a len).1 ↔ Engine.Within [.any] m m' := Engine.Within.step_self (by simp [Engine.offlineRead])
@[simp] theorem steady_activated (p bank row : Nat) : Engine.Within [.any] m (m'.activated p bank row) ↔ Engine.Within [.any] m m' := Engine.Within.step_self (by simp [Engine.activated])
@[simp] theorem steady_issue (p : Nat) (mem : DramCmd) : Engine.Within [.any] m (m'.issue p mem) ↔ Engine.Within [.any] m m' := Engine.Within.step_self (by simp [Engine.issue])

@[simp] theorem steady_issueWrite (p j : Nat) (ecc : Ecc) : Engine.Within [.any] m (m'.issueWrite p j ecc) ↔ Engine.Within [.any] m m' := by
  refine Engine.Within.step_self ?_
  unfold Engine.issueWrite
  dsimp only
  split
  · exact .refl _ _
  generalize m'.needs p _ _ = cmd
  split
  · simp
  split
  · simp
  split <;> simp

@[simp] theorem steady_readDone (mem : Memory) (r : CisRead) : Engine.Within [.any] m (m'.readDone mem r) ↔ Engine.Within [.any] m m' := within_readDone _ _ (by simp)

@[simp] theorem steady_issueRead (mem : Memory) (p j : Nat) (ecc : Ecc) : Engine.Within [.any] m (m'.issueRead mem p j ecc) ↔ Engine.Within [.any] m m' := by
  refine Engine.Within.step_self ?_
  unfold Engine.issueRead
  dsimp only
  split
  · exact .refl _ _
  split
  · simp
  split <;> simp

@[simp] theorem steady_schedule (p : Nat) (busy : BitVec 48) : Engine.Within [.any] m (m'.schedule p busy).1 ↔ Engine.Within [.any] m m' := Engine.Within.step_self (by simp [Engine.schedule])

@[simp] theorem steady_drainAsk (d : Nat) : Engine.Within [.any] m (m'.drainAsk d) ↔ Engine.Within [.any] m m' := by
  refine Engine.Within.step_self ?_
  unfold Engine.drainAsk
  dsimp only
  split <;> simp

@[simp] theorem steady_takeWaiting : Engine.Within [.any] m m'.takeWaiting ↔ Engine.Within [.any] m m' := Engine.Within.step_self (by simp [Engine.takeWaiting, steady_fold, steady_loop])

@[simp] theorem steady_cisternCommand (mem : Memory) (p : Nat) (busy : BitVec 48) (ecc : Ecc) : Engine.Within [.any] m (m'.cisternCommand mem p busy ecc) ↔ Engine.Within [.any] m m' := by
  refine Engine.Within.step_self ?_
  unfold Engine.cisternCommand
  split
  · exact .refl _ _
  extract_lets m1 x
  split
  · simp [m1]
  rcases hs : m1.schedule p busy with ⟨m2, w⟩
  have hm2 : Engine.Within [.any] m' m2 := by
    have h : Engine.Within [.any] m' (m1.schedule p busy).1 := by simp [m1]
    rwa [hs] at h
  dsimp only
  split <;> simp [hm2]

@[simp] theorem steady_cisRefresh (p bank : Nat) : Engine.Within [.any] m (m'.cisRefresh p bank) ↔ Engine.Within [.any] m m' := Engine.Within.step_self (by simp [Engine.cisRefresh])
@[simp] theorem steady_stackReport (x temp mul : Nat) : Engine.Within [.any] m (m'.stackReport x temp mul) ↔ Engine.Within [.any] m m' := Engine.Within.step_self (by simp [Engine.stackReport])

@[simp] theorem steady_writeComplete (p : Nat) : Engine.Within [.any] m (c.writeComplete p).eng ↔ Engine.Within [.any] m c.eng := by
  refine Engine.Within.step_self ?_
  unfold Chip.writeComplete
  dsimp only
  repeat' split
  all_goals simp

@[simp] theorem steady_readBad (mem : Memory) (r : CisRead) : Engine.Within [.any] m (m'.readBad mem r) ↔ Engine.Within [.any] m m' := Engine.Within.step_self (by simp [Engine.readBad])
@[simp] theorem steady_packLost (src : Nat) (k : Pack) : Engine.Within [.any] m (m'.packLost src k) ↔ Engine.Within [.any] m m' := Engine.Within.step_self (by simp [Engine.packLost])

@[simp] theorem steady_packToCistern (src : Nat) : Engine.Within [.any] m (m'.packToCistern src) ↔ Engine.Within [.any] m m' := by
  refine Engine.Within.step_self ?_
  unfold Engine.packToCistern
  dsimp only
  split <;> simp

@[simp] theorem steady_windowWrite (a : Nat) (bytes : List Byte) : Engine.Within [.any] m (m'.windowWrite a bytes) ↔ Engine.Within [.any] m m' := Engine.Within.step_self (by simp [Engine.windowWrite, steady_fold])
@[simp] theorem steady_windowRead (mem : Memory) (a len : Nat) (reply : Option (Nat × Nat)) : Engine.Within [.any] m (m'.windowRead mem a len reply) ↔ Engine.Within [.any] m m' := Engine.Within.step_self (by simp [Engine.windowRead, steady_fold])

@[simp] theorem steady_finishQueues : Engine.Within [.any] m c.finishQueues.eng ↔ Engine.Within [.any] m c.eng :=
  Engine.Within.step_self (steady_of_times (within_finishQueues c).times)

@[simp] theorem steady_finishFlights : Engine.Within [.any] m c.finishFlights.eng ↔ Engine.Within [.any] m c.eng := Engine.Within.step_self (by simp [Chip.finishFlights])

theorem steady_packPut (src : Nat) (k : Pack) (c : Chip) :
    Engine.Within [.any] c.eng (if c.eng.pcSt (c.eng.pcOf (256 * k.slot)) = 3 then { c with eng := c.eng.packLost src k } else { c with cistern := writeBytes c.cistern (256 * k.slot) k.bytes }).eng := by
  split <;> simp

@[simp] theorem steady_writePacks : Engine.Within [.any] m c.writePacks.eng ↔ Engine.Within [.any] m c.eng := by
  refine Engine.Within.step_self ?_
  unfold Chip.writePacks
  dsimp only
  rw [steady_chipFold _ fun x k => steady_packPut _ _ _, within_setStore _ (.inl (by simp))]
  refine .trans (steady_finishQueues.2 (.refl _ _)) (within_chipLoop _ (fun n x => ?_) _)
  split
  · exact .refl _ _
  · rw [steady_chipFold _ fun y k => steady_packPut _ _ _]
    simp

@[simp] theorem steady_takeOffline (mem : Memory) (p : Nat) : Engine.Within [.any] m (m'.takeOffline mem p) ↔ Engine.Within [.any] m m' := Engine.Within.step_self (by simp [Engine.takeOffline, steady_fold])
@[simp] theorem steady_pcTrained (p : Nat) (ops : List Nat) : Engine.Within [.any] m (m'.pcTrained p ops) ↔ Engine.Within [.any] m m' := Engine.Within.step_self (by simp [Engine.pcTrained, steady_fold])
@[simp] theorem steady_replay (p rung : Nat) : Engine.Within [.any] m (m'.replay p rung) ↔ Engine.Within [.any] m m' := Engine.Within.step_self (steady_of_times rfl)
@[simp] theorem steady_parityAlert (mem : Memory) (p : Nat) : Engine.Within [.any] m (m'.parityAlert mem p) ↔ Engine.Within [.any] m m' := Engine.Within.step_self (by simp [Engine.parityAlert])
@[simp] theorem steady_pcRetrainDone (mem : Memory) (p : Nat) (ok : Bool) : Engine.Within [.any] m (m'.pcRetrainDone mem p ok) ↔ Engine.Within [.any] m m' := Engine.Within.step_self (by simp [Engine.pcRetrainDone])
@[simp] theorem steady_revive (p : Nat) : Engine.Within [.any] m (m'.revive p) ↔ Engine.Within [.any] m m' := Engine.Within.step_self (by simp [Engine.revive])

@[simp] theorem steady_reviveDone (p : Nat) (ok : Bool) : Engine.Within [.any] m (c.reviveDone p ok).eng ↔ Engine.Within [.any] m c.eng := by
  refine Engine.Within.step_self ?_
  unfold Chip.reviveDone
  dsimp only
  split <;> simp

@[simp] theorem steady_loadTiming (op : Nat) : Engine.Within [.any] m (m'.loadTiming op) ↔ Engine.Within [.any] m m' := Engine.Within.step_self (by simp [Engine.loadTiming])
@[simp] theorem steady_opEnd (result : Nat) : Engine.Within [.any] m (m'.opEnd result) ↔ Engine.Within [.any] m m' := Engine.Within.step_self (by simp [Engine.opEnd])

@[simp] theorem steady_opTry : Engine.Within [.any] m m'.opTry ↔ Engine.Within [.any] m m' := by
  refine Engine.Within.step_self ?_
  unfold Engine.opTry
  split <;> simp

@[simp] theorem steady_opGo : Engine.Within [.any] m m'.opGo ↔ Engine.Within [.any] m m' := Engine.Within.step_self (by simp [Engine.opGo])
@[simp] theorem steady_opInForce (t : Nat) : Engine.Within [.any] m (m'.opInForce t) ↔ Engine.Within [.any] m m' := Engine.Within.step_self (steady_of_times rfl)

@[simp] theorem steady_opDone : Engine.Within [.any] m c.opDone.eng ↔ Engine.Within [.any] m c.eng := by
  refine Engine.Within.step_self ?_
  unfold Chip.opDone
  dsimp only
  repeat' split
  all_goals simp

@[simp] theorem steady_fittedPcs (v : Nat) : Engine.Within [.any] m (m'.fittedPcs v) ↔ Engine.Within [.any] m m' := within_fittedPcs _ (by simp)
@[simp] theorem steady_trainStart : Engine.Within [.any] m m'.trainStart ↔ Engine.Within [.any] m m' := within_trainStart (by simp)

@[simp] theorem steady_reinit : Engine.Within [.any] m c.reinit.eng ↔ Engine.Within [.any] m c.eng := by
  refine Engine.Within.step_self ?_
  unfold Chip.reinit
  dsimp only
  repeat' split
  all_goals simp

@[simp] theorem steady_cisSelfRefresh : Engine.Within [.any] m m'.cisSelfRefresh ↔ Engine.Within [.any] m m' := within_cisSelfRefresh (by simp)
@[simp] theorem steady_cisExit : Engine.Within [.any] m m'.cisExit ↔ Engine.Within [.any] m m' := within_cisExit (by simp)

@[simp] theorem steady_cisUp : Engine.Within [.any] m m'.cisUp ↔ Engine.Within [.any] m m' := by
  refine Engine.Within.step_self ?_
  unfold Engine.cisUp
  dsimp only
  split <;> simp

@[simp] theorem steady_cisternReady (phase : Nat) : Engine.Within [.any] m (c.cisternReady phase).eng ↔ Engine.Within [.any] m c.eng := by
  refine Engine.Within.step_self ?_
  unfold Chip.cisternReady
  dsimp only
  repeat' split
  all_goals simp [steady_loop]

@[simp] theorem steady_passOver (p : Nat) : Engine.Within [.any] m (m'.passOver p) ↔ Engine.Within [.any] m m' := by
  refine Engine.Within.step_self ?_
  unfold Engine.passOver
  dsimp only
  repeat' split
  all_goals simp

@[simp] theorem steady_trainingPass (p stage : Nat) : Engine.Within [.any] m (m'.trainingPass p stage) ↔ Engine.Within [.any] m m' := by
  refine Engine.Within.step_self ?_
  unfold Engine.trainingPass
  split <;> simp

@[simp] theorem steady_setTestPos (k : Nat) : Engine.Within [.any] m (m'.setTestPos k) ↔ Engine.Within [.any] m m' := Engine.Within.step_self (by simp [Engine.setTestPos])
@[simp] theorem steady_cbistGo : Engine.Within [.any] m m'.cbistGo ↔ Engine.Within [.any] m m' := Engine.Within.step_self (by simp [Engine.cbistGo])
@[simp] theorem steady_cbistFault (a : Nat) : Engine.Within [.any] m (m'.cbistFault a) ↔ Engine.Within [.any] m m' := Engine.Within.step_self (by simp [Engine.cbistFault])

@[simp] theorem steady_testYield : Engine.Within [.any] m c.testYield.eng ↔ Engine.Within [.any] m c.eng := by
  refine Engine.Within.step_self ?_
  unfold Chip.testYield
  dsimp only
  split <;> simp

@[simp] theorem steady_testAccess (p a op k : Nat) : Engine.Within [.any] m (m'.testAccess p a op k) ↔ Engine.Within [.any] m m' := by
  induction k generalizing m' with
  | zero => rfl
  | succ k ih =>
    unfold Engine.testAccess
    dsimp only
    split
    · simp
    · rw [ih, steady_issue]

@[simp] theorem steady_testBurst (e a : Nat) (ecc : Ecc) (mismatch : Bool) : Engine.Within [.any] m (m'.testBurst e a ecc mismatch) ↔ Engine.Within [.any] m m' := by
  refine Engine.Within.step_self ?_
  unfold Engine.testBurst
  extract_lets p m1 back m2 m3
  have hm1 : Engine.Within [.any] m' m1 := by simp [m1]
  have hm2 : Engine.Within [.any] m1 m2 := by simp [m2]
  have hm3 : Engine.Within [.any] m2 m3 := by simp [m3]
  have h : Engine.Within [.any] m' m3 := (hm1.trans hm2).trans hm3
  split <;> simp [h]

@[simp] theorem steady_cbistElement (found : List (Ecc × Bool)) : Engine.Within [.any] m (c.cbistElement found).eng ↔ Engine.Within [.any] m c.eng := by
  refine Engine.Within.step_self ?_
  unfold Chip.cbistElement
  extract_lets c1 m1 scrub march m2 pos k e0 e m3 m4 mem last g5 m5
  have hm1 : Engine.Within [.any] c.eng m1 := by simp [m1, c1]
  have hm2 : Engine.Within [.any] m1 m2 := by simp [m2]
  have hm3 : Engine.Within [.any] m2 m3 := by simp [m3]
  have hm4 : Engine.Within [.any] m3 m4 := (steady_loop fun b x => by simp).2 (.refl _ _)
  have hm5 : Engine.Within [.any] m4 m5 := by simp [m5, g5]
  repeat' split
  · exact hm1
  · simp [hm1.trans hm2]
  · exact (((hm1.trans hm2).trans hm3).trans hm4).trans hm5

@[simp] theorem steady_cbistPassDone : Engine.Within [.any] m m'.cbistPassDone ↔ Engine.Within [.any] m m' := Engine.Within.step_self (by simp [Engine.cbistPassDone])

/-! The event log. -/

@[simp] theorem steady_setCfg (f off : Nat) (v : Word) : Engine.Within [.any] m (m'.setCfg f off v) ↔ Engine.Within [.any] m m' := Engine.Within.step_self (by simp [Engine.setCfg])
@[simp] theorem steady_sendVector (v : Nat) : Engine.Within [.any] m (m'.sendVector v) ↔ Engine.Within [.any] m m' := Engine.Within.step_self (by simp [Engine.sendVector])
@[simp] theorem steady_interruptSend (v : Nat) : Engine.Within [.any] m (m'.interruptSend v) ↔ Engine.Within [.any] m m' := Engine.Within.step_self (by simp [Engine.interruptSend])
@[simp] theorem steady_interrupt (v : Nat) : Engine.Within [.any] m (m'.interrupt v) ↔ Engine.Within [.any] m m' := Engine.Within.step_self (by simp [Engine.interrupt])

@[simp] theorem steady_evtCopy (t : Memory) : Engine.Within [.any] m (m'.evtCopy t) ↔ Engine.Within [.any] m m' := by
  refine Engine.Within.step_self ?_
  unfold Engine.evtCopy
  dsimp only
  repeat' split
  all_goals simp

@[simp] theorem steady_evtCtl (old : Word) : Engine.Within [.any] m (m'.evtCtl old) ↔ Engine.Within [.any] m m' := Engine.Within.step_self (by simp [Engine.evtCtl])
@[simp] theorem steady_stgHead (v : Nat) : Engine.Within [.any] m (m'.stgHead v) ↔ Engine.Within [.any] m m' := Engine.Within.step_self (by simp [Engine.stgHead])

/-! The drains. -/

@[simp] theorem steady_hostRefuse (bar : Nat) (write : Bool) (cause off : Nat) : Engine.Within [.any] m (m'.hostRefuse bar write cause off) ↔ Engine.Within [.any] m m' := Engine.Within.step_self (by simp [Engine.hostRefuse])
@[simp] theorem steady_winFault (off cause : Nat) (write : Bool) : Engine.Within [.any] m (m'.winFault off cause write) ↔ Engine.Within [.any] m m' := Engine.Within.step_self (by simp [Engine.winFault])

@[simp] theorem steady_moveLock (old new : Option Nat) : Engine.Within [.any] m (m'.moveLock old new) ↔ Engine.Within [.any] m m' := by
  refine Engine.Within.step_self ?_
  unfold Engine.moveLock
  dsimp only
  repeat' split
  all_goals simp

@[simp] theorem steady_winTake (w : Nat) : Engine.Within [.any] m (m'.winTake w) ↔ Engine.Within [.any] m m' := Engine.Within.step_self (by simp [Engine.winTake])
@[simp] theorem steady_winCommit (bits : Nat) : Engine.Within [.any] m (m'.winCommit bits) ↔ Engine.Within [.any] m m' := Engine.Within.step_self (by simp [Engine.winCommit, steady_loop])
@[simp] theorem steady_winRelease : Engine.Within [.any] m m'.winRelease ↔ Engine.Within [.any] m m' := Engine.Within.step_self (by simp [Engine.winRelease, steady_loop])
@[simp] theorem steady_setDrainSt (d v : Nat) : Engine.Within [.any] m (m'.setDrainSt d v) ↔ Engine.Within [.any] m m' := Engine.Within.step_self (by simp [Engine.setDrainSt])

@[simp] theorem steady_drainKick (d : Nat) : Engine.Within [.any] m (m'.drainKick d) ↔ Engine.Within [.any] m m' := by
  refine Engine.Within.step_self ?_
  unfold Engine.drainKick
  split <;> simp

@[simp] theorem steady_drainRecord (d i status user : Nat) (tb : Tb) : Engine.Within [.any] m (m'.drainRecord d i status user tb) ↔ Engine.Within [.any] m m' := Engine.Within.step_self (by simp [Engine.drainRecord])
@[simp] theorem steady_drainErr (d i status : Nat) : Engine.Within [.any] m (m'.drainErr d i status) ↔ Engine.Within [.any] m m' := Engine.Within.step_self (by simp [Engine.drainErr])
@[simp] theorem steady_setResume (d i off : Nat) : Engine.Within [.any] m (m'.setResume d i off) ↔ Engine.Within [.any] m m' := Engine.Within.step_self (by simp [Engine.setResume])
@[simp] theorem steady_drainStop (d i status user : Nat) (irq : Bool) : Engine.Within [.any] m (m'.drainStop d i status user irq) ↔ Engine.Within [.any] m m' := Engine.Within.step_self (by simp [Engine.drainStop])
@[simp] theorem steady_drainPaused (d i off : Nat) : Engine.Within [.any] m (m'.drainPaused d i off) ↔ Engine.Within [.any] m m' := Engine.Within.step_self (by simp [Engine.drainPaused])
@[simp] theorem steady_drainPause (d : Nat) : Engine.Within [.any] m (m'.drainPause d) ↔ Engine.Within [.any] m m' := Engine.Within.step_self (by simp [Engine.drainPause])
@[simp] theorem steady_drainsPause : Engine.Within [.any] m m'.drainsPause ↔ Engine.Within [.any] m m' := within_drainsPause (by simp)
@[simp] theorem steady_drainsGo : Engine.Within [.any] m m'.drainsGo ↔ Engine.Within [.any] m m' := within_drainsGo (by simp)
@[simp] theorem steady_drainsStop : Engine.Within [.any] m m'.drainsStop ↔ Engine.Within [.any] m m' := within_drainsStop

@[simp] theorem steady_drainResume (bits : Nat) : Engine.Within [.any] m (m'.drainResume bits) ↔ Engine.Within [.any] m m' := by
  refine Engine.Within.step_self ((steady_loop fun d x => ?_).2 (.refl _ _))
  dsimp only
  split <;> simp

@[simp] theorem steady_drainCtl (d : Nat) (old : Word) : Engine.Within [.any] m (m'.drainCtl d old) ↔ Engine.Within [.any] m m' := Engine.Within.step_self (by simp [Engine.drainCtl])

@[simp] theorem steady_descFetch (d : Nat) (reply : Option (List Byte)) (ecc : Ecc) : Engine.Within [.any] m (c.descFetch d reply ecc).eng ↔ Engine.Within [.any] m c.eng := by
  refine Engine.Within.step_self ?_
  unfold Chip.descFetch
  dsimp only
  split
  · exact .refl _ _
  split
  · split
    · simp
    · rw [within_setDrain, steady_pairFold _ fun s a => ?_]
      · simp
      · split <;> simp
  · split <;> simp

@[simp] theorem steady_descStart (d : Nat) : Engine.Within [.any] m (m'.descStart d) ↔ Engine.Within [.any] m m' := by
  refine Engine.Within.step_self ?_
  unfold Engine.descStart
  dsimp only
  split <;> simp

@[simp] theorem steady_descComplete (d : Nat) : Engine.Within [.any] m (m'.descComplete d) ↔ Engine.Within [.any] m m' := by
  refine Engine.Within.step_self ?_
  unfold Engine.descComplete
  dsimp only
  split <;> simp

@[simp] theorem steady_drainsFlr {f : Engine → Engine} (hf : ∀ x, Engine.Within [.any] x (f x)) : Engine.Within [.any] m (m'.drainsFlr f) ↔ Engine.Within [.any] m m' := by
  refine Engine.Within.step_self ?_
  unfold Engine.drainsFlr
  dsimp only
  refine .trans (hf m') ((steady_loop fun d x => ?_).2 (.refl _ _))
  simp

/-! The displays. -/

@[simp] theorem steady_dispCtl (o : Nat) : Engine.Within [.any] m (m'.dispCtl o) ↔ Engine.Within [.any] m m' := Engine.Within.step_self (by simp [Engine.dispCtl])
@[simp] theorem steady_ignoreAll : Engine.Within [.any] m m'.ignoreAll ↔ Engine.Within [.any] m m' := Engine.Within.step_self (by simp [Engine.ignoreAll])
@[simp] theorem steady_dispCommit (o : Nat) : Engine.Within [.any] m (m'.dispCommit o) ↔ Engine.Within [.any] m m' := Engine.Within.step_self (by simp [Engine.dispCommit])
@[simp] theorem steady_dispFetch (o : Nat) : Engine.Within [.any] m (m'.dispFetch o) ↔ Engine.Within [.any] m m' := Engine.Within.step_self (by simp [Engine.dispFetch])
@[simp] theorem steady_dpTrain (o : Nat) : Engine.Within [.any] m (m'.dpTrain o) ↔ Engine.Within [.any] m m' := Engine.Within.step_self (by simp [Engine.dpTrain])
@[simp] theorem steady_auxRuns (o : Nat) : Engine.Within [.any] m (m'.auxRuns o) ↔ Engine.Within [.any] m m' := Engine.Within.step_self (by simp [Engine.auxRuns])

@[simp] theorem steady_dpTrainEnd (o : Nat) (reached : Option (Nat × Nat)) (async : Bool) : Engine.Within [.any] m (m'.dpTrainEnd o reached async) ↔ Engine.Within [.any] m m' := by
  refine Engine.Within.step_self ?_
  unfold Engine.dpTrainEnd
  split <;> simp

@[simp] theorem steady_hpdUnplug (o : Nat) : Engine.Within [.any] m (m'.hpdUnplug o) ↔ Engine.Within [.any] m m' := Engine.Within.step_self (by simp [Engine.hpdUnplug])
@[simp] theorem steady_hpdPlug (o : Nat) : Engine.Within [.any] m (m'.hpdPlug o) ↔ Engine.Within [.any] m m' := Engine.Within.step_self (by simp [Engine.hpdPlug])
@[simp] theorem steady_hpdIrq (o : Nat) : Engine.Within [.any] m (m'.hpdIrq o) ↔ Engine.Within [.any] m m' := Engine.Within.step_self (by simp [Engine.hpdIrq])
@[simp] theorem steady_auxEnd (o result reply count : Nat) : Engine.Within [.any] m (m'.auxEnd o result reply count) ↔ Engine.Within [.any] m m' := Engine.Within.step_self (by simp [Engine.auxEnd])
@[simp] theorem steady_auxGo (o : Nat) : Engine.Within [.any] m (m'.auxGo o) ↔ Engine.Within [.any] m m' := Engine.Within.step_self (by simp [Engine.auxGo])
@[simp] theorem steady_auxStore (o : Nat) (data : List Byte) : Engine.Within [.any] m (m'.auxStore o data) ↔ Engine.Within [.any] m m' := Engine.Within.step_self (by simp [Engine.auxStore, steady_fold])
@[simp] theorem steady_auxReply (o reply : Nat) (data : List Byte) : Engine.Within [.any] m (m'.auxReply o reply data) ↔ Engine.Within [.any] m m' := Engine.Within.step_self (by simp [Engine.auxReply])

/-! Settling. -/

@[simp] theorem steady_setDam (x : DamState) : Engine.Within [.any] m (m'.setDam x) ↔ Engine.Within [.any] m m' := within_setDam _ (.inl (by simp))
@[simp] theorem steady_swSettle (t : Memory) : Engine.Within [.any] m (m'.swSettle t) ↔ Engine.Within [.any] m m' := Engine.Within.step_self (by simp [Engine.swSettle])
@[simp] theorem steady_safeRelease : Engine.Within [.any] m m'.safeRelease ↔ Engine.Within [.any] m m' := Engine.Within.step_self (by simp [Engine.safeRelease])
@[simp] theorem steady_settleFlit (t : Memory) (s : Side) (tb cause origin hops : Nat) : Engine.Within [.any] m (m'.settleFlit t s tb cause origin hops) ↔ Engine.Within [.any] m m' := Engine.Within.step_self (by simp [Engine.settleFlit, ↓within_update])
@[simp] theorem steady_scrub (key : Nat) (bothBad : Bool) : Engine.Within [.any] m (m'.scrub key bothBad) ↔ Engine.Within [.any] m m' := Engine.Within.step_self (by simp [Engine.scrub, ↓within_update])

/-! The dam. -/

@[simp] theorem steady_damPinCycle (t : Tb) : Engine.Within [.any] m (m'.damPinCycle t) ↔ Engine.Within [.any] m m' := within_damPinCycle _ (by simp)
@[simp] theorem steady_damLow : Engine.Within [.any] m m'.damLow ↔ Engine.Within [.any] m m' := Engine.Within.step_self (by simp [Engine.damLow])
@[simp] theorem steady_damRearm : Engine.Within [.any] m m'.damRearm ↔ Engine.Within [.any] m m' := Engine.Within.step_self (by simp [Engine.damRearm])

@[simp] theorem steady_damFlit (s : Side) (tb origin : Nat) (driver : Bool) (hops : Nat) : Engine.Within [.any] m (m'.damFlit s tb origin driver hops) ↔ Engine.Within [.any] m m' := by
  refine Engine.Within.step_self ?_
  unfold Engine.damFlit
  dsimp only
  repeat' split
  all_goals simp

/-! Management. -/

@[simp] theorem steady_setMgt (x : MgtState) (h : x.stalled = m'.mgt.stalled) : Engine.Within [.any] m (m'.setMgt x) ↔ Engine.Within [.any] m m' :=
  Engine.Within.step_self (steady_of_times (by simp [Engine.times, Engine.setMgt, h]))

@[simp] theorem steady_showRows : Engine.Within [.any] m m'.showRows ↔ Engine.Within [.any] m m' := Engine.Within.step_self (by simp [Engine.showRows])
@[simp] theorem steady_fuseProg (key : Nat) : Engine.Within [.any] m (m'.fuseProg key) ↔ Engine.Within [.any] m m' := Engine.Within.step_self (by simp [Engine.fuseProg])

@[simp] theorem steady_fuseDone (ok : Bool) : Engine.Within [.any] m (m'.fuseDone ok) ↔ Engine.Within [.any] m m' := by
  refine Engine.Within.step_self ?_
  unfold Engine.fuseDone
  split <;> simp

@[simp] theorem steady_showReady : Engine.Within [.any] m m'.showReady ↔ Engine.Within [.any] m m' := Engine.Within.step_self (by simp [Engine.showReady])
@[simp] theorem steady_mgtUnsettle : Engine.Within [.any] m m'.mgtUnsettle ↔ Engine.Within [.any] m m' := Engine.Within.step_self (by simp [Engine.mgtUnsettle])
@[simp] theorem steady_mgtSettle : Engine.Within [.any] m m'.mgtSettle ↔ Engine.Within [.any] m m' := Engine.Within.step_self (by simp [Engine.mgtSettle])

@[simp] theorem steady_tanksTested (fails : List (Nat × List (Nat × Nat))) : Engine.Within [.any] m (m'.tanksTested fails) ↔ Engine.Within [.any] m m' := by
  refine Engine.Within.step_self ?_
  unfold Engine.tanksTested
  dsimp only
  repeat' split
  all_goals simp [steady_fold, ↓within_update]

@[simp] theorem steady_setBit (f : Field) (i : Nat) (b : Bool) : Engine.Within [.any] m (m'.setBit f i b) ↔ Engine.Within [.any] m m' := Engine.Within.step_self (by simp [Engine.setBit])

@[simp] theorem steady_supplySample (r : Nat) (mv : BitVec 16) : Engine.Within [.any] m (m'.supplySample r mv) ↔ Engine.Within [.any] m m' := by
  refine Engine.Within.step_self ?_
  unfold Engine.supplySample
  extract_lets x m1 warn out kw ko inside back g2 m2 g3 m3 m4 m5 m6 g7
  have hm2 : Engine.Within [.any] m' m2 := steady_of_times rfl
  have hm3 : Engine.Within [.any] m2 m3 := by
    unfold m3
    split
    · exact .refl _ _
    split <;> exact steady_of_times rfl
  have hm6 : Engine.Within [.any] m3 m6 := by simp [m6, m5, m4]
  have h : Engine.Within [.any] m' m6 := (hm2.trans hm3).trans hm6
  split
  · exact h
  · rw [within_status (by simp), within_cause]
    exact h.trans (steady_of_times rfl)

/-! Resets. -/

@[simp] theorem steady_resetRegs (which : Nat → Bool) (keeps : Nat → Word) : Engine.Within [.any] m (m'.resetRegs which keeps) ↔ Engine.Within [.any] m m' := Engine.Within.step_self (by simp [Engine.resetRegs, steady_fold])
@[simp] theorem steady_fuseLevels : Engine.Within [.any] m m'.fuseLevels ↔ Engine.Within [.any] m m' := Engine.Within.step_self (by simp [Engine.fuseLevels, steady_loop])
@[simp] theorem steady_fuseVsel (sys : Bool) : Engine.Within [.any] m (m'.fuseVsel sys) ↔ Engine.Within [.any] m m' := Engine.Within.step_self (by simp [Engine.fuseVsel])
@[simp] theorem steady_sysStatus (cause : Nat) : Engine.Within [.any] m (m'.sysStatus cause) ↔ Engine.Within [.any] m m' := Engine.Within.step_self (by simp [Engine.sysStatus])
@[simp] theorem steady_intReset : Engine.Within [.any] m m'.intReset ↔ Engine.Within [.any] m m' := Engine.Within.step_self (by simp [Engine.intReset])
@[simp] theorem steady_flr : Engine.Within [.any] m c.flr.eng ↔ Engine.Within [.any] m c.eng := Engine.Within.step_self (by simp [Chip.flr])

@[simp] theorem steady_resetDisarm : Engine.Within [.any] m c.resetDisarm.eng ↔ Engine.Within [.any] m c.eng := by
  refine Engine.Within.step_self ?_
  unfold Chip.resetDisarm
  simp

@[simp] theorem steady_ringReset : Engine.Within [.any] m m'.ringReset ↔ Engine.Within [.any] m m' := Engine.Within.step_self (by simp [Engine.ringReset])
@[simp] theorem steady_sysResetDone : Engine.Within [.any] m m'.sysResetDone ↔ Engine.Within [.any] m m' := Engine.Within.step_self (by simp [Engine.sysResetDone])
@[simp] theorem steady_perstRise (common : Bool) : Engine.Within [.any] m (m'.perstRise common) ↔ Engine.Within [.any] m m' := Engine.Within.step_self (by simp [Engine.perstRise])

/-! Register accesses. -/

@[simp] theorem steady_setShadow (port : Port) (s : Option (Nat × Word)) : Engine.Within [.any] m (m'.setShadow port s) ↔ Engine.Within [.any] m m' := Engine.Within.step_self (by simp [Engine.setShadow])
@[simp] theorem steady_unimplAt (port : Port) (write : Bool) (a : Nat) : Engine.Within [.any] m (m'.unimplAt port write a) ↔ Engine.Within [.any] m m' := Engine.Within.step_self (by simp [Engine.unimplAt])

@[simp] theorem steady_imgData : Engine.Within [.any] m c.imgData.1.eng ↔ Engine.Within [.any] m c.eng := by
  refine Engine.Within.step_self ?_
  unfold Chip.imgData
  dsimp only
  split <;> simp

@[simp] theorem steady_readEffect (port : Port) (h : RegHit) (a : Nat) (w : Word) : Engine.Within [.any] m (c.readEffect port h a w).eng ↔ Engine.Within [.any] m c.eng := by
  refine Engine.Within.step_self ?_
  unfold Chip.readEffect
  dsimp only
  repeat' split
  all_goals simp

@[simp] theorem steady_readReg (port : Port) (a : Nat) : Engine.Within [.any] m (c.readReg port a).1.eng ↔ Engine.Within [.any] m c.eng := by
  refine Engine.Within.step_self ?_
  unfold Chip.readReg
  dsimp only
  repeat' split
  all_goals simp

@[simp] theorem steady_holdRelease : Engine.Within [.any] m m'.holdRelease ↔ Engine.Within [.any] m m' := Engine.Within.step_self (by simp [Engine.holdRelease])
@[simp] theorem steady_flrFunction (f : Nat) : Engine.Within [.any] m (m'.flrFunction f) ↔ Engine.Within [.any] m m' := Engine.Within.step_self (by simp [Engine.flrFunction])
@[simp] theorem steady_tribRecover (bits : Nat) : Engine.Within [.any] m (m'.tribRecover bits) ↔ Engine.Within [.any] m m' := Engine.Within.step_self (by simp [Engine.tribRecover, steady_loop])
@[simp] theorem steady_safeCtl (v : Nat) : Engine.Within [.any] m (c.safeCtl v).eng ↔ Engine.Within [.any] m c.eng := Engine.Within.step_self (by simp [Chip.safeCtl])

@[simp] theorem steady_hostEffect (o : Engine) (h : RegHit) (a v : Nat) : Engine.Within [.any] m (c.hostEffect o h a v).eng ↔ Engine.Within [.any] m c.eng := by
  refine Engine.Within.step_self ?_
  unfold Chip.hostEffect
  dsimp only
  repeat' split
  all_goals simp

@[simp] theorem steady_captureEffect (o : Engine) (h : RegHit) (a key v : Nat) : Engine.Within [.any] m (m'.captureEffect o h a key v) ↔ Engine.Within [.any] m m' := by
  refine Engine.Within.step_self ?_
  unfold Engine.captureEffect
  split <;> simp

@[simp] theorem steady_headEffect (o : Engine) (h : RegHit) (a v : Nat) : Engine.Within [.any] m (m'.headEffect o h a v) ↔ Engine.Within [.any] m m' := by
  refine Engine.Within.step_self ?_
  unfold Engine.headEffect
  dsimp only
  repeat' split
  all_goals simp

@[simp] theorem steady_storeFields (h : RegHit) (key : Nat) (v : Word) : Engine.Within [.any] m (m'.storeFields h key v) ↔ Engine.Within [.any] m m' := by
  refine Engine.Within.step_self ?_
  unfold Engine.storeFields
  dsimp only
  all_goals simp [↓within_update]

@[simp] theorem steady_accessViol (page off : Nat) (port : Port) (origin : Nat) : Engine.Within [.any] m (m'.accessViol page off port origin) ↔ Engine.Within [.any] m m' := Engine.Within.step_self (by simp [Engine.accessViol])

/-! The host. -/

@[simp] theorem steady_refuseOpen (bar : Nat) (write : Bool) (off : Nat) : Engine.Within [.any] m (m'.refuseOpen bar write off) ↔ Engine.Within [.any] m m' := Engine.Within.step_self (by simp [Engine.refuseOpen])
@[simp] theorem steady_aer (f bit : Nat) : Engine.Within [.any] m (m'.aer f bit) ↔ Engine.Within [.any] m m' := Engine.Within.step_self (steady_of_times rfl)
@[simp] theorem steady_forward (f type off len data : Nat) (bytes : List Byte) : Engine.Within [.any] m (m'.forward f type off len data bytes) ↔ Engine.Within [.any] m m' := Engine.Within.step_self (by simp [Engine.forward, steady_fold])
@[simp] theorem steady_vsecRelease : Engine.Within [.any] m m'.vsecRelease ↔ Engine.Within [.any] m m' := Engine.Within.step_self (by simp [Engine.vsecRelease])

@[simp] theorem steady_flrOf (f : Nat) : Engine.Within [.any] m (c.flrOf f).eng ↔ Engine.Within [.any] m c.eng := by
  refine Engine.Within.step_self ?_
  unfold Chip.flrOf
  split <;> simp

@[simp] theorem steady_tlpHere : Engine.Within [.any] m m'.tlpHere ↔ Engine.Within [.any] m m' := Engine.Within.step_self (by simp [Engine.tlpHere])

/-- What a refused memory request leaves is steady. -/
theorem steady_of_memRefusal {bar off : Nat} {write hold : Bool} {x : Engine} (h : m'.memRefusal bar write off hold = some x) : Engine.Within [.any] m' x := by
  unfold Engine.memRefusal at h
  split_ifs at h <;> (cases h; simp)

@[simp] theorem steady_poisonedWrite (f : Nat) : Engine.Within [.any] m (m'.poisonedWrite f) ↔ Engine.Within [.any] m m' := Engine.Within.step_self (steady_of_times rfl)

@[simp] theorem steady_otherRequest (f : Nat) (kind : OtherReq) : Engine.Within [.any] m (c.otherRequest f kind).eng ↔ Engine.Within [.any] m c.eng := by
  refine Engine.Within.step_self ?_
  unfold Chip.otherRequest
  dsimp only
  repeat' split
  all_goals simp

/-- What a request that a tributary refuses leaves is steady. -/
theorem steady_of_tribRefusal {f bar len off : Nat} {write : Bool} {x : Engine} (h : m'.tribRefusal f bar write len off = some x) : Engine.Within [.any] m' x := by
  unfold Engine.tribRefusal at h
  split_ifs at h <;> (cases h; simp)

@[simp] theorem steady_window (off len : Nat) (wr : Option (List (Option Byte))) (reply : Option (Nat × Nat)) :
    Engine.Within [.any] m (c.window off len wr reply).1.eng ↔ Engine.Within [.any] m c.eng := by
  refine Engine.Within.step_self ?_
  unfold Chip.window
  dsimp only
  split
  · simp
  split
  · simp
  split
  · simp
  · simp [steady_fold]

@[simp] theorem steady_windowRequest (f off len : Nat) (wr : Option (List (Option Byte) × Bool)) :
    Engine.Within [.any] m (c.windowRequest f off len wr).eng ↔ Engine.Within [.any] m c.eng := by
  refine Engine.Within.step_self ?_
  unfold Chip.windowRequest
  dsimp only
  have hm : Engine.Within [.any] c.eng c.eng.tlpHere := by simp
  split
  · exact .refl _ _
  split
  · rename_i x hr
    refine hm.trans ?_
    split at hr
    · exact steady_of_memRefusal hr
    · exact steady_of_tribRefusal hr
  repeat' split
  all_goals simp [steady_fold]

@[simp] theorem steady_stepsFirst : Engine.Within [.any] m c.stepsFirst.eng ↔ Engine.Within [.any] m c.eng := by
  refine Engine.Within.step_self ?_
  unfold Chip.stepsFirst
  split <;> simp

@[simp] theorem steady_bar4Request (off len : Nat) (wr : Option (List (Option Byte) × Bool)) (found : List (Ecc × Bool)) :
    Engine.Within [.any] m (c.bar4Request off len wr found).eng ↔ Engine.Within [.any] m c.eng := by
  refine Engine.Within.step_self ?_
  unfold Chip.bar4Request
  dsimp only
  have hm : Engine.Within [.any] c.eng c.eng.tlpHere := by simp
  split
  · exact .refl _ _
  split
  · rename_i hr
    exact hm.trans (steady_of_memRefusal hr)
  repeat' split
  all_goals simp

@[simp] theorem steady_functionReady : Engine.Within [.any] m m'.functionReady ↔ Engine.Within [.any] m m' := Engine.Within.step_self (by simp [Engine.functionReady])
@[simp] theorem steady_linkL0 (speed width : Nat) : Engine.Within [.any] m (m'.linkL0 speed width) ↔ Engine.Within [.any] m m' := Engine.Within.step_self (by simp [Engine.linkL0])
@[simp] theorem steady_l1Entry : Engine.Within [.any] m m'.l1Entry ↔ Engine.Within [.any] m m' := Engine.Within.step_self (by simp [Engine.l1Entry])
@[simp] theorem steady_l1Exit : Engine.Within [.any] m m'.l1Exit ↔ Engine.Within [.any] m m' := Engine.Within.step_self (by simp [Engine.l1Exit])
@[simp] theorem steady_d3hotEntry : Engine.Within [.any] m m'.d3hotEntry ↔ Engine.Within [.any] m m' := Engine.Within.step_self (by simp [Engine.d3hotEntry])
@[simp] theorem steady_holdEntry (cause : Nat) : Engine.Within [.any] m (m'.holdEntry cause) ↔ Engine.Within [.any] m m' := Engine.Within.step_self (by simp [Engine.holdEntry])
@[simp] theorem steady_surpriseDown : Engine.Within [.any] m m'.surpriseDown ↔ Engine.Within [.any] m m' := Engine.Within.step_self (by simp [Engine.surpriseDown])
@[simp] theorem steady_fatalError : Engine.Within [.any] m m'.fatalError ↔ Engine.Within [.any] m m' := Engine.Within.step_self (by simp [Engine.fatalError])

@[simp] theorem steady_funnelEffect (linked : List Nat) : Engine.Within [.any] m (m'.funnelEffect linked) ↔ Engine.Within [.any] m m' := by
  refine Engine.Within.step_self ?_
  unfold Engine.funnelEffect
  dsimp only
  repeat' split
  all_goals simp

@[simp] theorem steady_tribLost (f : Nat) : Engine.Within [.any] m (m'.tribLost f) ↔ Engine.Within [.any] m m' := Engine.Within.step_self (by simp [Engine.tribLost])

@[simp] theorem steady_receiveRun (s : Side) (src dst seq : Nat) (b : FlitBody) (bytes : List Byte) : Engine.Within [.any] m (m'.receiveRun s src dst seq b bytes).1 ↔ Engine.Within [.any] m m' := by
  refine Engine.Within.step_self ?_
  unfold Engine.receiveRun
  dsimp only
  split <;> simp [steady_fold]

@[simp] theorem steady_dmaHeard (s : Side) (src dst seq addr drain : Nat) (bytes : List Byte) : Engine.Within [.any] m (m'.dmaHeard s src dst seq addr drain bytes) ↔ Engine.Within [.any] m m' := Engine.Within.step_self (by simp [Engine.dmaHeard])

@[simp] theorem steady_cplHeard (s : Side) (src dst seq tag status : Nat) (bytes : List Byte) : Engine.Within [.any] m (m'.cplHeard s src dst seq tag status bytes) ↔ Engine.Within [.any] m m' := by
  refine Engine.Within.step_self ?_
  unfold Engine.cplHeard
  dsimp only
  split <;> simp

@[simp] theorem steady_crdHeard (s : Side) (src dst seq off : Nat) : Engine.Within [.any] m (c.crdHeard s src dst seq off).eng ↔ Engine.Within [.any] m c.eng := by
  refine Engine.Within.step_self ?_
  unfold Chip.crdHeard
  dsimp only
  split <;> simp

@[simp] theorem steady_damScan (dr : BitVec 34) : Engine.Within [.any] m (c.damScan dr).eng ↔ Engine.Within [.any] m c.eng := by
  refine Engine.Within.step_self ?_
  unfold Chip.damScan
  dsimp only
  split
  · simp
  split <;> simp

@[simp] theorem steady_mgtErr (status cmd : Nat) : Engine.Within [.any] m (m'.mgtErr status cmd) ↔ Engine.Within [.any] m m' := Engine.Within.step_self (by simp [Engine.mgtErr])

@[simp] theorem steady_mgtCommand {f : Engine → Engine} (hf : ∀ x, Engine.Within [.any] x (f x)) (cmd : Nat) (fixed : Answer) :
    Engine.Within [.any] m (m'.mgtCommand cmd fixed f) ↔ Engine.Within [.any] m m' := by
  refine Engine.Within.step_self ?_
  unfold Engine.mgtCommand
  dsimp only
  repeat' split
  · exact .refl _ _
  · simp
  · simp
  · exact .trans (by simp) (hf _)

@[simp] theorem steady_mgtAnswer (status cmd : Nat) (w : Option Word) : Engine.Within [.any] m (m'.mgtAnswer status cmd w) ↔ Engine.Within [.any] m m' := Engine.Within.step_self (by simp [Engine.mgtAnswer])
@[simp] theorem steady_mgtWrote (status cmd : Nat) : Engine.Within [.any] m (m'.mgtWrote status cmd) ↔ Engine.Within [.any] m m' := Engine.Within.step_self (by simp [Engine.mgtWrote])

@[simp] theorem steady_chipMgtWrite {f : Chip → Chip} (hf : ∀ x, Engine.Within [.any] x.eng (f x).eng) (cmd : Nat) (pec : Bool) :
    Engine.Within [.any] m (c.mgtWrite cmd pec f).eng ↔ Engine.Within [.any] m c.eng := by
  refine Engine.Within.step_self ?_
  unfold Chip.mgtWrite
  dsimp only
  repeat' split
  · exact .refl _ _
  · simp
  · simp
  · simp
  · exact .trans (by simp) (hf _)

@[simp] theorem steady_smbRegRead (sent : List Byte) : Engine.Within [.any] m (c.smbRegRead sent).eng ↔ Engine.Within [.any] m c.eng := by
  refine Engine.Within.step_self ?_
  unfold Chip.smbRegRead
  dsimp only
  repeat' split
  all_goals simp

@[simp] theorem steady_mgtTankRefuse (a status : Nat) (write : Bool) : Engine.Within [.any] m (m'.mgtTankRefuse a status write) ↔ Engine.Within [.any] m m' := Engine.Within.step_self (by simp [Engine.mgtTankRefuse])

@[simp] theorem steady_smbTankRead (sent : List Byte) (ecc : Ecc) : Engine.Within [.any] m (c.smbTankRead sent ecc).eng ↔ Engine.Within [.any] m c.eng := by
  refine Engine.Within.step_self ?_
  unfold Chip.smbTankRead
  dsimp only
  repeat' split
  all_goals simp

@[simp] theorem steady_smbTankWrite (sent : List Byte) (pec : Bool) (ecc : Ecc) (collides : Bool) :
    Engine.Within [.any] m (c.smbTankWrite sent pec ecc collides).eng ↔ Engine.Within [.any] m c.eng := by
  refine steady_chipMgtWrite (fun x => ?_) _ _
  dsimp only
  split <;> simp

@[simp] theorem steady_mstatus : Engine.Within [.any] m m'.mstatus ↔ Engine.Within [.any] m m' := Engine.Within.step_self (by simp [Engine.mstatus])

/-! Answers of the ports. -/

@[simp] theorem steady_answerWrite (port : Port) (a : Nat) (b : Bus) : Engine.Within [.any] m (m'.answerWrite port a b) ↔ Engine.Within [.any] m m' := by
  refine Engine.Within.step_self ?_
  unfold Engine.answerWrite
  split <;> simp

@[simp] theorem steady_answerRead (port : Port) (a : Nat) (b : Bus) (w : Word) : Engine.Within [.any] m (m'.answerRead port a b w) ↔ Engine.Within [.any] m m' := by
  refine Engine.Within.step_self ?_
  unfold Engine.answerRead
  split <;> simp

@[simp] theorem steady_regRead (port : Port) (a : Nat) : Engine.Within [.any] m (c.regRead port a).eng ↔ Engine.Within [.any] m c.eng := by
  refine Engine.Within.step_self ?_
  unfold Chip.regRead
  split <;> simp

end Sys2Proof.Machine
end

section
/-! SUPPORT. What keeps TB, though it is not steady: resets drop a load that waits, a write while the headrace is lost waits itself, and the headrace, the wrap and the dam's clock gate move what else belongs to
the time. A register write reaches TB by DAM.CTL only (R431, R439). -/

namespace Sys2Proof.Machine
open Sys2Proof

theorem Engine.tb_unitsReset (m : Engine) (sys : Bool) : (m.unitsReset sys).tb = m.tb := by
  unfold Engine.unitsReset
  extract_lets fresh path m1 m2
  have hloop : Engine.Within [.any] m1 (forEach 48 (fun n m => ((m.thresholdWritten n false).thresholdWritten n true).setAtReset n) m2) := by
    rw [steady_loop fun n x => by simp]
    simp [m2]
  exact hloop.tb

theorem Chip.tb_engineReset (c : Chip) (sys : Bool) (cause : Nat) : (c.engineReset sys cause).eng.tb = c.eng.tb := by
  unfold Chip.engineReset
  extract_lets c1 m1 refs tripped m2 m3 x m4 m5
  have hm2 : Engine.Within [.any] c.eng m2 := by simp [m2, m1, c1]
  have hm3 : Engine.Within [.any] (m2.unitsReset sys) m3 := by simp [m3]
  have hm4 : Engine.Within [.any] m3 m4 := by
    unfold m4
    split
    · have hy : Engine.Within [.any] m3 (((m3.setFlag R.THRM_STATUS_TRIPPED tripped).fuseLevels).refselWritten refs) := by simp
      refine (steady_setMgt _ ?_).2 hy
      exact hy.stalled.symm
    · exact .refl _ _
  have hend : Engine.Within [.any] (m2.unitsReset sys) m5.cisSelfRefresh := by simp [m5, hm3.trans hm4]
  exact hend.tb.trans ((m2.tb_unitsReset sys).trans hm2.tb)

theorem Engine.tb_resetRegs (m : Engine) (which : Nat → Bool) (keeps : Nat → Word) : (m.resetRegs which keeps).tb = m.tb :=
  ((steady_resetRegs which keeps).2 (.refl _ m)).tb

theorem Engine.tb_ringReset (m : Engine) : m.ringReset.tb = m.tb := (steady_ringReset.2 (.refl _ m)).tb

theorem Chip.tb_flr (c : Chip) : c.flr.eng.tb = c.eng.tb := (steady_flr.2 (.refl _ c.eng)).tb

/-- What a system reset does after the function reset and the engine's: the ring, the logs and the host's side start anew. -/
def Chip.ringAndHostReset (c : Chip) : Chip :=
  let m := c.eng.ringReset
  let m := { m with detected := [], raised := [], lostSince := 0 }
  let m := m.resetRegs (fun k => decide (0xD0 ≤ keyPage k) && decide (keyPage k ≤ 0xD2)) (fun _ => 0)
  let m := m.setHost { m.host with drains := List.replicate 4 {} }
  { c with eng := m.setMgt { m.mgt with resetting := true } }

theorem Chip.sysReset_eq (c : Chip) : c.sysReset = if c.eng.dammed || !c.eng.mgt.powered then c else (c.flr.engineReset true 1).ringAndHostReset := rfl

theorem Chip.tb_ringAndHostReset (c : Chip) : c.ringAndHostReset.eng.tb = c.eng.tb := by
  simp only [Chip.ringAndHostReset, Engine.setMgt_tb, Engine.setHost_tb, Engine.tb_resetRegs, Engine.tb_ringReset]

theorem Chip.tb_sysReset (c : Chip) : c.sysReset.eng.tb = c.eng.tb := by
  rw [Chip.sysReset_eq]
  split
  · rfl
  · rw [Chip.tb_ringAndHostReset, Chip.tb_engineReset, Chip.tb_flr]

theorem Chip.tb_sysCtl (c : Chip) (v : Nat) : (c.sysCtl v).eng.tb = c.eng.tb := by
  unfold Chip.sysCtl
  split_ifs
  · exact c.tb_sysReset
  · exact (steady_disarm.2 (.refl _ _)).tb
  · have h : Engine.Within [.any] c.eng (c.eng.armRequest 0 none) := by simp
    exact h.tb
  · rfl

theorem Chip.tb_pageEffect (c : Chip) (o : Engine) (h : RegHit) {a : Nat} (v : Nat) (ha : a ≠ R.DAM_CTL) : (c.pageEffect o h a v).eng.tb = c.eng.tb := by
  have hs {x : Engine} (hx : Engine.Within [.any] c.eng x) : x.tb = c.eng.tb := hx.tb
  unfold Chip.pageEffect
  dsimp only
  split
  case h_1 =>
    split
    · exact c.tb_sysCtl v
    · rfl
  case h_3 =>
    split
    · exact c.eng.tb_tbLoadReq
    · rfl
  case h_7 => simp [ha]
  all_goals
    refine hs ?_
    repeat' split
    all_goals simp

theorem Chip.tb_writeEffect (c : Chip) (o : Engine) (h : RegHit) {a : Nat} (key v : Nat) (ha : a ≠ R.DAM_CTL) : (c.writeEffect o h a key v).eng.tb = c.eng.tb := by
  unfold Chip.writeEffect
  split
  · exact ((steady_headEffect o h a v).2 (.refl _ c.eng)).tb
  · have hcap : Engine.Within [.any] c.eng (c.eng.captureEffect o h a key v) := by simp
    exact ((steady_hostEffect o h a v).2 (.refl _ _)).tb.trans ((Chip.tb_pageEffect _ o h v ha).trans hcap.tb)

theorem Chip.tb_writeAt (c : Chip) (h : RegHit) {a : Nat} (v : Word) (ha : a ≠ R.DAM_CTL) : (c.writeAt h a v).eng.tb = c.eng.tb := by
  have hs {x : Engine} (hx : Engine.Within [.any] c.eng x) : x.tb = c.eng.tb := hx.tb
  unfold Chip.writeAt
  dsimp only
  split
  · repeat' split
    all_goals exact hs (by simp)
  · exact (Chip.tb_writeEffect _ _ h _ _ ha).trans (hs (by simp))

theorem Chip.tb_writeReg (c : Chip) (port : Port) (origin : Nat) {a : Nat} (v : Word) (ha : a ≠ R.DAM_CTL) : (c.writeReg port origin a v).1.eng.tb = c.eng.tb := by
  have hs {x : Engine} (hx : Engine.Within [.any] c.eng x) : x.tb = c.eng.tb := hx.tb
  unfold Chip.writeReg
  extract_lets m
  split
  · exact hs (by simp [m])
  split
  · rfl
  split
  · rfl
  split
  · split
    · rfl
    · exact hs (by simp [m])
  split
  · exact hs (by simp [m])
  extract_lets cls
  split
  · rfl
  split
  · exact hs (by simp [m])
  split
  · exact hs (by simp [m])
  · exact c.tb_writeAt _ v ha

/-- A write to a register other than DAM.CTL keeps TB. -/
theorem Chip.tb_regWrite (c : Chip) (port : Port) {a : Nat} (v : Word) (ha : a ≠ R.DAM_CTL) : (c.regWrite port a v).eng.tb = c.eng.tb := by
  unfold Chip.regWrite
  split
  · exact ((steady_answerWrite port a _).2 (.refl _ _)).tb.trans (c.tb_writeReg port 0 v ha)
  · rfl


theorem Engine.tb_headraceLost (m : Engine) : m.headraceLost.tb = m.tb := by
  unfold Engine.headraceLost
  extract_lets m1 m2 m3 m4
  have hm1 : Engine.Within [.any] { m with running := false, lost := true } m1 := by simp [m1]
  have hm2 : Engine.Within [.any] m1 m2 := by simp [m2]
  have hm4 : Engine.Within [.any] m2 m4 := by simp [m4, m3]
  clear_value m4
  split
  · rfl
  · have hend : Engine.Within [.any] m4 ((m4.setFlag R.SAFE_STATUS_SETTLED true).status R.E_SAFE_SETTLED) := by simp
    exact hend.tb.trans (hm4.tb.trans (hm2.tb.trans hm1.tb))

theorem Engine.tb_tbWrap (m : Engine) : m.tbWrap.tb = m.tb := by
  unfold Engine.tbWrap
  split <;> simp

theorem Chip.tb_damGate (c : Chip) : c.damGate.eng.tb = c.eng.tb := by
  unfold Chip.damGate
  split
  · rfl
  extract_lets c1 m1 m2
  have hm1 : Engine.Within [.any] c.eng m1 := by simp [m1, c1]
  clear_value m1
  have hm2 : Engine.Within [.any] { m1 with running := false } m2 := by simp [m2]
  have hend : Engine.Within [.any] m2 ((m2.setFlag R.DAM_STATUS_DAMMED true).setFlag R.DAM_STATUS_STOPPING false) := by simp
  exact hend.tb.trans (hm2.tb.trans hm1.tb)

end Sys2Proof.Machine
end

section
/-! SUPPORT. O6. TB and the commands outside mayChangeTime. -/

namespace Sys2Proof.Machine
open Sys2Proof
variable {s t : State} {m m' : Engine}

/-- A command that puts a chip keeps TB where that chip does. -/
theorem State.tb_put {c : Chip} (h : s.put c = .next t) (hc : c.eng.tb = s.eng.tb) : t.eng.tb = s.eng.tb := by
  cases h
  exact hc

theorem State.tb_chipWhen {ok : Engine → Bool} {f : Chip → Chip} (h : s.chipWhen ok f = .next t) (hf : (f s.chip).eng.tb = s.eng.tb) : t.eng.tb = s.eng.tb := by
  unfold State.chipWhen at h
  split at h
  · exact State.tb_put h hf
  · exact State.tb_put h rfl

theorem State.tb_powered {f : Engine → Engine} (h : s.powered f = .next t) (hf : Engine.Within [.any] s.eng (f s.eng)) : t.eng.tb = s.eng.tb := State.tb_chipWhen h hf.tb

theorem State.tb_clocked {f : Engine → Engine} (h : s.clocked f = .next t) (hf : Engine.Within [.any] s.eng (f s.eng)) : t.eng.tb = s.eng.tb := State.tb_chipWhen h hf.tb

theorem State.tb_live {f : Engine → Engine} (h : s.live f = .next t) (hf : Engine.Within [.any] s.eng (f s.eng)) : t.eng.tb = s.eng.tb := State.tb_chipWhen h hf.tb

/-- A register write moves TB by DAM.CTL only. -/
theorem State.tb_write {port : Port} {a : Nat} {v : Word} (h : s.write port a v = .next t) (ha : a ≠ R.DAM_CTL) : t.eng.tb = s.eng.tb := State.tb_put h (s.chip.tb_regWrite port v ha)

theorem State.tb_read {port : Port} {a : Nat} (h : s.read port a = .next t) : t.eng.tb = s.eng.tb := State.tb_put h ((steady_regRead port a).2 (.refl _ s.eng)).tb

theorem State.tb_request {f : Nat} {req : Request} {carry : Chip → Chip} (h : s.request f req carry = .next t) (hf : Engine.Within [.any] s.eng (carry s.chip).eng) : t.eng.tb = s.eng.tb := by
  refine State.tb_put h ?_
  split
  · exact ((steady_otherRequest _ _).2 (.refl _ s.eng)).tb
  · exact hf.tb

theorem regAbove_ne_damCtl {a : Nat} (k : Nat) (h : R.DAM_CTL < a) : a + k ≠ R.DAM_CTL := (Nat.lt_add_right k h).ne'

theorem segLock_ne_damCtl (n : Nat) : R.SEG_LOCKCTL n ≠ R.DAM_CTL := by
  unfold R.SEG_LOCKCTL R.DAM_CTL segBase
  omega

/-! The effects of commands that name an intake, a gauge or a unit's own condition. -/

@[simp] theorem steady_packFlush (n : Fin 48) : Engine.Within [.any] m (m'.packFlush n) ↔ Engine.Within [.any] m m' := within_packFlush n.isLt (by simp)
@[simp] theorem steady_longHit (n : Fin 48) (g : Fin 4) : Engine.Within [.any] m (m'.longHit n g) ↔ Engine.Within [.any] m m' := within_longHit n.isLt g.isLt (by simp)
@[simp] theorem steady_expiry (n : Fin 48) (g : Fin 4) : Engine.Within [.any] m (m'.expiry n g) ↔ Engine.Within [.any] m m' := within_expiry n.isLt g.isLt (by simp)
@[simp] theorem steady_rearmGapEnd : Engine.Within [.any] m m'.rearmGapEnd ↔ Engine.Within [.any] m m' := within_rearmGapEnd (by simp)
@[simp] theorem steady_stepDown (n : Fin 48) : Engine.Within [.any] m (m'.weirDown n) ↔ Engine.Within [.any] m m' := steady_weirDown n.isLt
@[simp] theorem steady_stepUp (n : Fin 48) : Engine.Within [.any] m (m'.weirUp n) ↔ Engine.Within [.any] m m' := steady_weirUp n.isLt
@[simp] theorem steady_swapAct (n : Fin 48) : Engine.Within [.any] m (m'.rotaThreshSwap n) ↔ Engine.Within [.any] m m' := steady_rotaThreshSwap n.isLt

/-- Settles O6: outside `mayChangeTime` a command runs an effect that keeps TB, or it writes a register other than DAM.CTL, and only DAM.CTL releases a dam. -/
theorem timeMovesOnlyByItsCommands : Obligations.TimeMovesOnlyByItsCommands := by
  unfold Obligations.TimeMovesOnlyByItsCommands
  intro c s t hc h
  cases c <;> simp only [exec] at h
  case sampleCycle | headraceLock | headraceResume | damAssert | damRelease | damrel | releaseFlit | fundamentalReset | hotReset | powerOnReset | supplyLoss |
    temperatureSample | sync | registerWrite | regWrite | bar0Request | hostreq | cwr | configRequest | vsecRdata =>
    exact Bool.noConfusion hc
  case tankPowerUpTestDone | sysResetComplete | linkUp | linkDown | linkRetrain | ack | flitCrcFailure | damFlit | settle | eventLogCopy | interruptSend |
    stackTemperatureReport | drainPause | l1Entry | l1Exit | d3hotEntry | surpriseDown | fatalError | vsecRelease | funnelTakesEffect | hostLinkL0 | mgtAddressSettle |
    fuseProgDone | supplySample =>
    exact State.tb_powered h (by simp)
  case headraceSwitchover | pllRelockAttempt | referenceLost | referenceRevert | helloSend | hello | headElection | assign | assignTimeout | linkstate | delayExchange |
    dreq | drsp | syncSend | ev | evriskSpan | settleFlit | crsp | cwrTimeout | dmahdr | cplhdr | resendTimeout | modeset | modeChange | tribLost | ackDeadline |
    pageEvent | registerScrub | refresh | cisternCommand | parityAlert | pcRetrainDone | trainingPass | cbistPassDone | tankHandover | retentionEnter | descriptorStart |
    descriptorComplete | dpTrainEnd | hpdUnplug | hpdPlug | hpdIrq | auxReply | auxTimeout | frameStart | vsync | frameFetchStart | displayFetch | underrun =>
    exact State.tb_clocked h (by simp)
  case threshSwap | discordanceWindowEnd | xlimitExceeded | calDone | calTimeout | packFull | packFlush | eyeDone | eyeTimeout | widthLongHit | timeoutExpiry | sluiceStep
    | sluIrq | tableSwap | sluiceJump | event | verifyDone | crcBackgroundPass | snapshotTaken | armingTakesEffect | rotaReadEntry | repeaterCopy | rotaArm | rotaDisarm |
    segmentNext | dispFlip | flumeBcast | dam | gateSet | gateClr | gatePulse | gatePulseEnd | gateCommandTick | storeGate | segmentBoundary | rearmGapEnd | postComplete
    | postShortFull | markerPackFlush | weirStepDown | weirStepUp | packDiscard | gapEnd | packToCistern =>
    exact State.tb_live h (by simp)
  case headraceLost => exact State.tb_chipWhen (f := fun c => { c with eng := c.eng.headraceLost }) h s.eng.tb_headraceLost
  case tbWrap => exact State.tb_chipWhen (f := fun c => { c with eng := c.eng.tbWrap }) h s.eng.tb_tbWrap
  case flr | writeComplete | crd | eventLogEntry | logLost | reviveDone | opChangeDone | cisternReady | cbistElement | tbistPhaseDone | descriptorFetch | latchPoint =>
    exact State.tb_chipWhen h (Engine.Within.tb (l := [.any]) (by simp))
  case perstNDeassert | functionReady | damNLow | damStop | damRearm | damscan | regRead | tankRead | tankWrite | mstatus =>
    exact State.tb_put h (Engine.Within.tb (l := [.any]) (by simp))
  case damClockGate => exact State.tb_put h s.chip.tb_damGate
  case imgDataRead | rcReadClear | lowWordRead => exact State.tb_read h
  case tankAccess | windowRequest => exact State.tb_request h (by simp)
  case sysReset | refselWrite | setselWrite | tsetWrite | verifyGo | snapshotGo | arm | disarm | tbLoad | repstop | rotaResume | rotaHeadWrite | bankcfgWrite | rediscover
    | cwrGo | modeWrite | tribRecover | swSettle | safeRelease | stgHeadWrite | opgo | reinit | cbistGo | retreqWrite | tbistGo | winCommit | drainResume | holdRelease |
    fuseProg =>
    exact State.tb_write h (by decide)
  case thrselWrite | calGo | flushWrite | eyeGo | tankHandoverRequest | drainTailWrite | auxGo | dispEnable =>
    exact State.tb_write h (regAbove_ne_damCtl _ (by decide))
  case gaugeConfigWrite | revive => exact State.tb_write h (regAbove_ne_damCtl _ (Nat.lt_add_right _ (by decide)))
  case segLockAcq | segLockRel | markread => exact State.tb_write h (segLock_ne_damCtl _)
  case levelCounterWrite => exact State.tb_write h (by split_ifs <;> decide)
  case pageIntenWrite | pageLock | pageCommitTiming | pageCommitFrame =>
    exact State.tb_write h (by simp only [R.DAM_CTL, intenAddr, lockAddr, dispPage]; omega)
  case gaugeCounterWrite | setcrcWrite =>
    refine State.tb_write h ?_
    split <;> simp only [R.DAM_CTL, R.RUG_CNT_HI, R.RUG_CNT_LO, R.CONF_SETCRC_A, R.CONF_SETCRC_B] <;> omega
  case thresholdWrite port n which v => cases which <;> exact State.tb_write h (regAbove_ne_damCtl _ (by decide))
  case gateLineWrite port which v => cases which <;> exact State.tb_write h (regAbove_ne_damCtl _ (by decide))
  case trimWrite port n which v =>
    cases which
    case lcfg => exact State.tb_write h (regAbove_ne_damCtl _ (Nat.lt_add_right _ (by decide)))
    all_goals exact State.tb_write h (regAbove_ne_damCtl _ (by decide))
  case ruConfigWrite port n which v =>
    cases which
    case line => exact State.tb_write h (regAbove_ne_damCtl _ (Nat.lt_add_right _ (by decide)))
    all_goals exact State.tb_write h (regAbove_ne_damCtl _ (by decide))
  case dpTrain o wr =>
    cases wr with
    | none => exact State.tb_clocked h (by simp)
    | some w => exact State.tb_write h (regAbove_ne_damCtl _ (by decide))

end Sys2Proof.Machine
end
